-- ==== Sys2Proof/Word.lean ====
section
/-! DEFINITION. The word types, the unit numbers of R15, and sparse tables as data. -/

namespace Sys2Proof

/-- One byte (R11). -/
abbrev Byte := BitVec 8
/-- A register (R450), a scalar S register (R61), an FP32 value (R167). -/
abbrev W32 := BitVec 32
/-- A 64-bit word: global addresses (R144), context definition words (R244). -/
abbrev W64 := BitVec 64
/-- A tile or region descriptor (R66, R156). -/
abbrev W128 := BitVec 128
/-- A bundle (R60), a row-engine or route command (R130, R194), a move or pass descriptor (R153, R217). -/
abbrev W256 := BitVec 256

/-- A sparse table: keys strictly rising, an unlisted key holds the table's own default. -/
abbrev Tab (α : Type) := List (Nat × α)

/-- A logical cluster: quadrant and number (R15, R16). -/
structure Clu where
  q : Fin 4
  c : Fin 16
deriving DecidableEq, Repr

/-- A logical core of a cluster (R15, R16). -/
structure CoreId where
  cl : Clu
  k : Fin 96
deriving DecidableEq, Repr

/-- A lane group of a port, by port code (R265, R301). -/
structure Grp where
  p : Fin 6
  g : Fin 4
deriving DecidableEq, Repr

/-- A lane of a port (R23, R301). -/
structure LaneId where
  p : Fin 6
  l : Fin 18
deriving DecidableEq, Repr

/-- A lane cell of an axis (R23). -/
structure CellId where
  axis : Fin 3
  i : Fin 18
deriving DecidableEq, Repr

/-- One of the two custody parties (R349). -/
inductive Party where
  | host
  | bmc
deriving DecidableEq, Repr

/-- Position of a cluster in a table of the 64 clusters. -/
def Clu.key (x : Clu) : Nat := 16 * x.q.val + x.c.val
/-- Position of a core in a table of the 6,144 cores. -/
def CoreId.key (x : CoreId) : Nat := 96 * x.cl.key + x.k.val
/-- Position of a lane group in a table of the 24 groups. -/
def Grp.key (x : Grp) : Nat := 4 * x.p.val + x.g.val
/-- Position of a lane in a table of the 108 lanes. -/
def LaneId.key (x : LaneId) : Nat := 18 * x.p.val + x.l.val
/-- Position of a lane cell in a table of the 54 cells. -/
def CellId.key (x : CellId) : Nat := 18 * x.axis.val + x.i.val

end Sys2Proof
end

