-- ==== Sys2Proof/Syntax.lean ====
section
/-! DEFINITION. The commands of the module, one constructor per row of spec/opcode_table.json, and their operands. -/

namespace Sys2Proof

/-- The update-engine descriptor memory of one engine for one segment (R218). -/
structure EngineDesc where
  passes : List W256
  progs  : List (List W32)
  pt     : List W32
deriving DecidableEq, Repr

/-- Program and initial data of one control core (R80): the data table is keyed by word address. -/
structure CtlImage where
  prog : List W32
  data : Tab W32
deriving DecidableEq, Repr

/-- A context definition (R244, R245): nine header words and the segment entries. -/
structure CtxDef where
  hdr  : List W64
  segs : List W64
deriving DecidableEq, Repr

/-- What a slot of a slot table is granted to: data from other modules and host traffic by quadrant (R163,
R21), the pool's users by cluster (R45, R147), requests of the quadrant network by memory controller (R150). -/
inductive SlotUse where
  | arrival | host | poolNet | poolRow | poolRoute | poolCore | memPort
deriving DecidableEq, Repr

/-- Slots that a segment's slot tables grant, as the model holds them: `use` has every network cycle of the
core cycles `lo` to `hi` - 1 from the segment's origin; `key` is the quadrant, cluster (16 q + c) or memory
controller (3 q + stack). DESIGN CHOICE: the spec lays out no slot table (log 7). -/
structure SlotWin where
  use : SlotUse
  key : Nat
  lo  : Nat
  hi  : Nat
deriving DecidableEq, Repr

/-- How the quadrant-network slot tables carry lines from one quadrant to another (R160): over the pair's
own neighbour link, through the hub, or through a neighbour quadrant. -/
inductive QPath where
  | hub
  | link
  | via (m : Fin 4)
deriving DecidableEq, Repr

/-- One segment of a schedule image (R34): origin in root ticks from job start, length in core
cycles, the streams by core or cluster, the descriptor sets, the advance list (R236), the injection
windows by lane group as open and close offsets in core cycles (R291), the slot tables, and the paths
between quadrants by key 4q + r (R160). -/
structure Seg where
  origin  : Nat
  len     : Nat
  streams : Tab (List W256)
  re      : Tab (List W256)
  rt      : Tab (List W256)
  td      : Tab (Tab W128)
  md      : Tab (Tab W256)
  eng     : Tab EngineDesc
  adv     : List W64
  windows : Tab (List (Nat × Nat))
  slots   : List SlotWin
  paths   : Tab QPath
deriving DecidableEq, Repr

/-- A schedule image as the hub parses it (R34). The spec gives no byte layout of the sections,
so the parsed image is an operand (DESIGN CHOICE, log 7). `parses`: the header parses (R53
reason 2); `unknown`, `missing`: an unknown section, a required section missing (R34);
`covered`: address and length cover the sections (reason 15). -/
structure Image where
  parses    : Bool
  unknown   : Bool
  missing   : Bool
  covered   : Bool
  acc       : BitVec 12
  quads     : BitVec 4
  repairCrc : W32
  features  : BitVec 16
  idle      : W32
  gsa       : W64
  slots     : Nat
  tags      : Nat
  segs      : List Seg
  control   : Tab CtlImage
  regions   : List W128
  contexts  : List CtxDef
  reduces   : Bool
  linked    : Bool
  power     : List W32
  seeds     : W256
  groups    : List (List W32)
deriving DecidableEq, Repr

/-- Two accesses that meet on one bank or slot, by the priorities of R45. -/
structure Collision where
  hi : Nat
  lo : Nat
deriving DecidableEq, Repr

/-- Why the link layer declares a lane failed (R267). -/
inductive LaneFault where
  | lockLoss
  | alignLoss
  | uncorrectable
deriving DecidableEq, Repr

/-- How the FEC left a codeword of a lane (R264, R267). -/
inductive FecOut where
  | clean
  | corrected
  | uncorrectable
deriving DecidableEq, Repr

/-- A flit as it lies on the link (R268): header, the 232 payload bytes (encrypted where R363 says so), the 12 bytes
of the tag, and the CRC. -/
structure Flit where
  hdr : W64
  pay : List Byte
  tag : List Byte
  crc : W32
deriving DecidableEq, Repr

/-- A flit received, with the outcome of the codeword that ended with it in each lane slot, if one did (R264). -/
structure RxWire where
  flit : Flit
  fec  : List (Option FecOut)
deriving DecidableEq, Repr

/-- A lane-management record (R319). -/
structure LaneRec where
  opc  : Nat
  slot : Fin 4
  old  : Fin 18
  new  : Fin 18
  txn  : W32
deriving DecidableEq, Repr

/-- A packet (R279, R280): the two header halves and the payload. -/
structure Packet where
  hdr  : W128
  hdr2 : W128
  pay  : List Byte
deriving DecidableEq, Repr

/-- The path of a custody request (R349): through BAR0, where the record stands in CUS_STAGE and
CUS_SIG, or over MCTP with record and signature in the message. -/
inductive CusVia where
  | host
  | bmc (rec : BitVec 2048) (sig : BitVec 768)
deriving DecidableEq, Repr

/-- A physical core, or a whole physical cluster (R381). -/
structure BadUnit where
  q    : Fin 4
  cl   : Fin 17
  core : Option (Fin 100)
deriving DecidableEq, Repr

/-- What bring-up finds (R376 to R386): the strap, the input in 10 mV, the steps up to 9 that overrun their bounds, the
boot counts of XTAL_A and XTAL_B (R405), stacks that fail training, fuse row groups that fail their CRC (R466), the
units and the shelf and pool rows (of 64 bytes) that fail self-test (R382), and the lanes found bad. -/
structure BringUp where
  mgtSel    : Bool
  cv        : Nat
  overrun   : List (Fin 10)
  cntA      : Nat
  cntB      : Nat
  stackFail : BitVec 12
  fuseCrc   : BitVec 16
  tested    : List BadUnit
  badRows   : List Nat
  badLanes  : List LaneId
deriving DecidableEq, Repr

/-- What starts a module reset (R391): a write of RST_CTL, or PERST_N held low. -/
inductive ModReset where
  | rstCtl (v : W32)
  | perst
deriving DecidableEq, Repr

/-- One 1 us power sample (R410, R419): input in 10 mV and W, the four dies in 0.1 W. -/
structure PowerReading where
  cv  : Nat
  w   : Nat
  die : List Nat
deriving DecidableEq, Repr

/-- One 10 us reading of the sensors (R411), in 0.1 degree C: compute dies, hub, HBM stacks,
photonic die. -/
structure ThermalReading where
  quads    : List (List Int)
  hub      : List Int
  hbm      : List Int
  photonic : List Int
deriving DecidableEq, Repr

/-- How the host answered a host move (R430): data read from host memory (empty for a move to the host), or a failed
completion, after the bytes that requests before it had brought. -/
inductive HostResult where
  | ok (data : List Byte)
  | fail (data : List Byte)
deriving DecidableEq, Repr

/-- A PLDM request (R433, R435). -/
inductive PldmReq where
  | base (cmd : Byte)
  | getSensor (id : Nat)
  | getThresholds (id : Nat)
  | setThreshold (id : Nat)
  | setEventReceiver (eid : Byte)
  | other (cmd : Byte)
deriving DecidableEq, Repr

/-- A debug access (R45, R370): a shelf byte read or written, an instruction of IEEE 1149.1 that
is always available, or a debug instruction of the JTAG port. -/
inductive DebugOp where
  | shelfRead (c : CoreId) (addr : Nat)
  | shelfWrite (c : CoreId) (addr : Nat) (b : Byte)
  | boundary
  | instr (code : Nat)
deriving DecidableEq, Repr

/-- The commands: one constructor per row of the table. -/
inductive Instr where
  /-- REGISTER_WRITE (R12): A host write to a register field that has no behaviour of its own sets the RW value, or is ignored for RO and RSV fields. -/
  | registerWrite (off : Nat) (v : W32)
  /-- RC_COUNTER_READ (R14): A read of an RC counter returns its value and clears it in the same access, and an increment in the same clock is applied after the clear. -/
  | rcCounterRead (off : Nat) (inc : Nat)
  /-- INT_STAT_W1C (R457): A W1C write to _INT_STAT clears each bit written as 1, unless hardware sets that bit in the same clock. -/
  | intStatW1c (page : Nat) (v hw : W32)
  /-- INT_EN_WRITE (R458): A write to _INT_EN that sets an enable bit while its status bit is 1 raises the page's interrupt vector. -/
  | intEnWrite (page : Nat) (v : W32)
  /-- HST_BAD_ACC (R423): A BAR0 or BAR4 access that is not an aligned 4 B access is discarded or reads all ones, is counted, and is logged at most once per ms. -/
  | hstBadAcc (bar : Nat) (off : Nat) (isWrite : Bool)
  /-- DST_NOW_LO_READ (R52): A read of DST_NOW_LO returns the low Datestamp and latches DST_NOW_HI and DST_FINE. -/
  | dstNowLoRead
  /-- PHASE_SLEW (R28): Every 4,096 root ticks the fine phase moves by at most one step toward the steering target. -/
  | phaseSlew
  /-- RATE_STEER (R30): After 16 SYNC intervals the module takes the weighted mean rate difference over its trained ports and moves the XTAL_A pull by 0.001 ppm steps. -/
  | rateSteer (weights : List Nat)
  /-- DST_UNLOCKED (R32): The steered offset stays above ±500 ps for 1 ms, so UNLOCKED is set, a Ledger entry is written and every job faults. -/
  | dstUnlocked
  /-- DST_LOCK_REGAINED (R379): The steered offset stays within ±500 ps for 100 ms, so DST_STATUS.UNLOCKED clears. -/
  | dstLockRegained
  /-- SCH_JOB_START (R36): A write to the high half of SCH_JOB_START arms a start at S, which is accepted or rejected with SCH_START_REJECT. -/
  | schJobStart (j : Fin 4) (hi : W32)
  /-- ADMIT (R53): SCH_JOB_CTL.ADMIT moves a FREE, REFUSED, ENDED or FAULTED slot to ADMITTING and starts the hub's read of the image; a misplaced write is ignored and counted. -/
  | admitImage (j : Fin 4) (v : W32)
  /-- ADMISSION_CHECK (R53): The hub finishes reading and checking the image, then loads its sections and sets ADMITTED, or sets REFUSED with a reason. -/
  | admissionCheck (j : Fin 4) (img : Image) (ue : Bool)
  /-- SCH_JOB_END (R54): SCH_JOB_CTL.END frees an ADMITTED slot, or faults a RUNNING job with SCH_DRIVER_END. -/
  | schJobEnd (j : Fin 4) (v : W32)
  /-- CLEAR (R54): SCH_JOB_CTL.CLEAR returns a REFUSED, ENDED or FAULTED slot to FREE. -/
  | clear (j : Fin 4) (v : W32)
  /-- JOB_TIME_BEGIN (R54): The Datestamp reaches S for an accepted start, so the slot becomes RUNNING, job time begins and the job's state is cleared. -/
  | jobTimeBegin (j : Fin 4)
  /-- JOB_ENDED (R54): Once every sequencer, engine, move, queue and context of the job has finished, the slot becomes ENDED, its resources are released and END is signalled. -/
  | jobEnded (j : Fin 4)
  /-- SEGMENT_ORIGIN (R59): Job time reaches a segment origin, so the sequencers take the segment's first bundle and descriptors are loaded; a stream still unfinished raises LAUNCH_ORDER. -/
  | segmentOrigin (j : Fin 4)
  /-- POWER_PROFILE_READ (R48): Each microsecond the power controller reads the profile entry 10 µs ahead and sets each regulator ahead of the load, or uses the idle code during a hold. -/
  | powerProfileRead (j : Fin 4)
  /-- HEATER_FORECAST_READ (R315): The heater controller reads the profile 100 µs ahead and applies feedforward to every ring and interferometer heater. -/
  | heaterForecastRead (j : Fin 4)
  /-- WAIT_BUNDLE_REACH_L (R39): A WAIT bundle's earliest launch time L is reached, so the sequencer enters WAITING and computes D from the counter's window. -/
  | waitBundleReachL (c : CoreId)
  /-- WAIT_SATISFIED (R39): At a core edge in [L, D] the awaited counter is satisfied, so the WAIT bundle issues. -/
  | waitSatisfied (c : CoreId)
  /-- MISSED_DEADLINE (R42): D passes with the counter unsatisfied, so the core raises a hold request and the hold controller sets hold-pending for the job. -/
  | missedDeadline (c : CoreId)
  /-- HOLD_EPOCH_STOP (R42): With hold-pending set, every core of the job stops before its HP bundle at E and job time stops. -/
  | holdEpochStop (j : Fin 4)
  /-- HOLD_RELEASE (R42): At release R the hold controller sets H := R − E, and the late bundle and HP bundles issue at J = E. -/
  | holdRelease (j : Fin 4)
  /-- SCH_HOLD_GIVEUP (R44): A hold outlasts SCH_HOLD_LIMIT, so the job faults and two SCH_HOLD_GIVEUP entries are written. -/
  | schHoldGiveup (j : Fin 4)
  /-- FETCH_SLOT (R56): A core-network fetch slot fills the bundle queue, or counts CLU_FETCH_IDLE when the queue is full. -/
  | fetchSlot (c : CoreId)
  /-- NOP (R70): A no-op slot launches and does nothing. -/
  | nop (c : CoreId)
  /-- END (R70): The last bundle of a segment stream launches and takes the sequencer to IDLE, or to DONE after the last segment. -/
  | endBundle (c : CoreId)
  /-- LOOP (R71): The next K bundles run N times, each iteration shifted by the period taken from S[PS], or the bundle raises LAUNCH_ORDER. -/
  | loop (c : CoreId)
  /-- TDADD (R68): A signed DELTA is added to the BASE, SPM or WSH field of a tile descriptor after the bundle's latch. -/
  | tdadd (c : CoreId)
  /-- CRD (R77): N is subtracted from the DEF of a completion counter. -/
  | crd (c : CoreId)
  /-- MARK (R70): CODE, the core number and the Datestamp are written to the trace queue. -/
  | mark (c : CoreId)
  /-- MMA (R88): The product A·B is added into an accumulator by exact block sums, each rounded once into FP32. -/
  | mma (c : CoreId)
  /-- MMZ (R88): An accumulator is set to A·B by exact block sums. -/
  | mmz (c : CoreId)
  /-- ALD (R96): A tile is converted into an FP32 accumulator. -/
  | ald (c : CoreId)
  /-- AST (R96): An accumulator is stored to a tile, rounded by RND. -/
  | ast (c : CoreId)
  /-- ASTS (R96): A scaled accumulator is stored to a tile, rounded once by RND. -/
  | asts (c : CoreId)
  /-- ACLR (R96): Every element of an accumulator is cleared to +0. -/
  | aclr (c : CoreId)
  /-- MATRIX_OP_COMPLETE (R100): A matrix operation's result is in place and its numerics summary is handed to the shadow unit. -/
  | matrixOpComplete (c : CoreId)
  /-- ADD (R109): Stream d := x + y, rounded once. -/
  | add (c : CoreId)
  /-- SUB (R109): Stream d := x − y. -/
  | sub (c : CoreId)
  /-- MUL (R109): Stream d := x × y. -/
  | mul (c : CoreId)
  /-- FMA (R109): Stream d := x × y + z, fused. -/
  | fma (c : CoreId)
  /-- MIN (R111): Stream d := min(x, y). -/
  | minOp (c : CoreId)
  /-- MAX (R111): Stream d := max(x, y). -/
  | maxOp (c : CoreId)
  /-- ABS (R109): Stream d := |x|. -/
  | absOp (c : CoreId)
  /-- NEG (R109): Stream d := −x. -/
  | neg (c : CoreId)
  /-- SCALE (R109): Stream d := s × x. -/
  | scale (c : CoreId)
  /-- AXPY (R109): Stream d := s × x + y, fused. -/
  | axpy (c : CoreId)
  /-- CLIP (R111): Stream d := x clipped to ±|s|. -/
  | clip (c : CoreId)
  /-- SELECT (R111): Stream d := x where z ≠ 0, else y. -/
  | selectOp (c : CoreId)
  /-- CMPGT (R111): Stream d := 1 where x > y, else 0. -/
  | cmpgt (c : CoreId)
  /-- CVT (R109): Stream d := x converted to d's format. -/
  | cvt (c : CoreId)
  /-- COPY (R105): Stream d := x, bits unchanged. -/
  | copy (c : CoreId)
  /-- EXP (R110): Stream d := eˣ. -/
  | expOp (c : CoreId)
  /-- LOG (R110): Stream d := ln x. -/
  | logOp (c : CoreId)
  /-- RECIP (R110): Stream d := 1 / x, correctly rounded. -/
  | recip (c : CoreId)
  /-- RSQRT (R110): Stream d := 1 / √x, correctly rounded. -/
  | rsqrt (c : CoreId)
  /-- TANH (R110): Stream d := tanh x. -/
  | tanhOp (c : CoreId)
  /-- SIGMOID (R110): Stream d := 1 / (1 + e⁻ˣ). -/
  | sigmoid (c : CoreId)
  /-- GELU (R110): Stream d := GELU(x) in tanh form. -/
  | gelu (c : CoreId)
  /-- SIGN (R111): Stream d := −1, 0 or +1. -/
  | signOp (c : CoreId)
  /-- FILL (R109): Stream d := s. -/
  | fill (c : CoreId)
  /-- STREAM_OP_COMPLETE (R115): A stream operation's results in d and TDR are in place and its summary is handed to the shadow unit. -/
  | streamOpComplete (c : CoreId)
  /-- MOV (R154): A local move is checked at the latch and queued in the move engine. -/
  | mov (c : CoreId)
  /-- PUT_MOVE (R154): A remote write is checked and queued, to be cut into PUT messages. -/
  | putMove (c : CoreId)
  /-- GET_MOVE (R283): A remote read is checked and queued, sending one GET packet under a GTAG. -/
  | getMove (c : CoreId)
  /-- RED (R154): A reduction contribution carrying step S[SSTEP] is checked, queued and sent to the hub's context. -/
  | red (c : CoreId)
  /-- SIG (R154): A SIGNAL message that credits a remote counter is checked and queued. -/
  | sig (c : CoreId)
  /-- LDTD (R68): 16 shelf bytes are read at launch and written into a tile descriptor at launch + 9. -/
  | ldtd (c : CoreId)
  /-- STTD (R481): A latched tile descriptor is written to 16 shelf bytes at launch. -/
  | sttd (c : CoreId)
  /-- MOVE_ISSUE_START (R159): A queued move starts issuing its lines once the move before it has finished issue. -/
  | moveIssueStart (c : CoreId) (coll : Option Collision)
  /-- MOVE_COMPLETE (R161): A move completes or finishes issue, leaves the queue and credits its local counter. -/
  | moveComplete (c : CoreId)
  /-- PATROL_SCRUB (R152): A scrub read corrects errors and queues a row for post-package repair after corrected errors in two passes. -/
  | patrolScrub (m : Fin 12) (row : Nat) (errors : Bool) (newPass : Bool)
  /-- ALU (R82): A control-core register-register operation selected by FN. -/
  | alu (cl : Clu)
  /-- ADDI (R82): S[D] := S[A] + IMM. -/
  | addi (cl : Clu)
  /-- ANDI (R82): S[D] := S[A] and IMM. -/
  | andi (cl : Clu)
  /-- ORI (R82): S[D] := S[A] or IMM. -/
  | ori (cl : Clu)
  /-- XORI (R82): S[D] := S[A] xor IMM. -/
  | xori (cl : Clu)
  /-- SHI (R82): S[D] := S[A] shifted by an immediate amount. -/
  | shi (cl : Clu)
  /-- LUI (R82): S[D] := IMM × 4,096. -/
  | lui (cl : Clu)
  /-- LW (R82): A data word is loaded into S[D]. -/
  | lw (cl : Clu)
  /-- SW (R82): S[D] is stored to data memory. -/
  | sw (cl : Clu)
  /-- BEQ (R82): Branch if equal. -/
  | beq (cl : Clu)
  /-- BNE (R82): Branch if not equal. -/
  | bne (cl : Clu)
  /-- BLT (R82): Branch if less, signed. -/
  | blt (cl : Clu)
  /-- BGE (R82): Branch if greater or equal, signed. -/
  | bge (cl : Clu)
  /-- JMP (R82): Jump by OFF instructions. -/
  | jmp (cl : Clu)
  /-- WAITJ (R82): The control core stalls until job time reaches the given offset of the current segment. -/
  | waitj (cl : Clu)
  /-- ARMC (R77): A count is added to a counter's DEF and its WIN is set. -/
  | armc (cl : Clu)
  /-- MSET (R82): A mask word is written, ORed, ANDed or and-notted from S[A] and broadcast to the cores. -/
  | mset (cl : Clu)
  /-- MGET (R82): S[D] := a word of a mask register. -/
  | mget (cl : Clu)
  /-- RDCC (R82): S[D] := the DEF of a counter, sign-extended. -/
  | rdcc (cl : Clu)
  /-- RDJ (R82): S[D] := the job time since the segment origin, in core cycles. -/
  | rdj (cl : Clu)
  /-- TDW (R82): A tile descriptor is written from four S registers on each core selected by a mask. -/
  | tdw (cl : Clu)
  /-- RE_FETCH_SLOT (R127): A row-engine fetch slot fills the command queue, or counts RE_FETCH_IDLE when it is full. -/
  | reFetchSlot (cl : Clu)
  /-- RE_NOP (R131): A row-engine no-op command. -/
  | reNop (cl : Clu)
  /-- RE_END (R128): The row-engine stream of a segment ends. -/
  | reEnd (cl : Clu)
  /-- NORMF (R133): Normalisation forward writes y and the (μ, ρ) statistics. -/
  | normf (cl : Clu)
  /-- RMSF (R133): RMS normalisation forward writes y and the (+0, ρ) statistics. -/
  | rmsf (cl : Clu)
  /-- SMXF (R133): Soft-maximum forward writes y and the (m, q) statistics. -/
  | smxf (cl : Clu)
  /-- NORMB (R134): Normalisation backward writes dx from x, g and the statistics. -/
  | normb (cl : Clu)
  /-- RMSB (R134): RMS normalisation backward writes dx. -/
  | rmsb (cl : Clu)
  /-- SMXB (R134): Soft-maximum backward writes dx. -/
  | smxb (cl : Clu)
  /-- SOLVE (R140): A damped block solve of (A + λI)X = B by LDLᵀ with floored pivots. -/
  | solve (cl : Clu)
  /-- MSPILL (R137): Marginalia records are copied to the cluster pool. -/
  | mspill (cl : Clu)
  /-- MFILL (R137): Marginalia records are copied from the cluster pool. -/
  | mfill (cl : Clu)
  /-- RE_COMMAND_COMPLETE (R138): A row-engine command's results are in place at launch + I, and it credits its counter. -/
  | reCommandComplete (cl : Clu)
  /-- SHADOW_SUMMARY_TAKE (R184): The shadow unit takes queued operation summaries in rotation and updates the tag counters, dropping a summary when its buffer is full. -/
  | shadowSummaryTake (cl : Clu)
  /-- SHW_CLR (R191): SHW_SEL.CLR zeroes the selected tag's counters, ahead of a summary in the same cycle. -/
  | shwClr (cl : Clu) (v : W32)
  /-- RT_FETCH_SLOT (R193): A route-unit fetch slot fills its command queue, or counts RT_FETCH_IDLE when it is full. -/
  | rtFetchSlot (cl : Clu)
  /-- RT_NOP (R195): A route-unit no-op command. -/
  | rtNop (cl : Clu)
  /-- RT_END (R195): The route-unit stream of a segment ends. -/
  | rtEnd (cl : Clu)
  /-- GATE (R197): Experts are chosen per token, capacity slots are assigned, the lists are written and one mask is written. -/
  | gate (cl : Clu)
  /-- DISPATCH (R202): Token rows are copied or weighted into expert capacity slots, with empty slots at +0. -/
  | dispatch (cl : Clu)
  /-- COMBINE (R203): Expert rows are summed back into token rows in a fixed order. -/
  | combine (cl : Clu)
  /-- WGRAD (R204): The gate-weight gradient dot products are written. -/
  | wgrad (cl : Clu)
  /-- GATHER (R207): Embedding rows named by an index list are copied, with nulls at +0 and out-of-range indices raising RT_INDEX. -/
  | gather (cl : Clu)
  /-- PACK (R209): Gradient rows are packed into a sorted index-value record list. -/
  | pack (cl : Clu)
  /-- MERGE (R210): Sorted record lists are merged into one, with unsorted input raising RT_LIST. -/
  | merge (cl : Clu)
  /-- RT_COMMAND_COMPLETE (R211): A route command's results, mask and counter credit are in place at launch + I. -/
  | rtCommandComplete (cl : Clu)
  /-- RT_CLR (R213): RT_SEL.CLR zeroes the selected expert's counters, ahead of a GATE update in the same cycle. -/
  | rtClr (cl : Clu) (v : W32)
  /-- DENSE_PASS (R227): A dense update pass latches its group values, checks its extents and updates record groups at PER cycles each. -/
  | densePass (e : Fin 12) (meet : Bool)
  /-- ROW_PASS (R231): A row pass checks its record list, then updates each named row with its catch-up terms. -/
  | rowPass (e : Fin 12) (meet : Bool)
  /-- PASS_COMPLETE (R227): A pass's records are in place at launch + I, and it credits its counter. -/
  | passComplete (e : Fin 12)
  /-- ADVANCE_ENTRY (R237): An advance-list entry steps its named groups, optionally loading or saving their words, and computes f, η and the bias corrections. -/
  | advanceEntry (j : Fin 4)
  /-- ADVANCE_COMPLETE (R239): An advance entry completes, and raises UPD_STEP if its load or save traffic has not finished. -/
  | advanceComplete (j : Fin 4) (trafficDone : Bool)
  /-- SCH_GRP_WORD_WRITE (R242): A write to a group word updates a free entry, or is ignored with SCH_GRP_REJECT when a running job owns it. -/
  | schGrpWordWrite (w : Fin 32) (v : W32)
  /-- REDUCE (R250): A REDUCE message arriving whole at the hub is checked, matched to its context and staged, or dropped, discarded or faulted. -/
  | reduce (g : Grp) (vc : Fin 4)
  /-- CHUNK_SUM (R254): A ready narrow chunk is summed in input order and sent up, or forms the root result. -/
  | chunkSum
  /-- VOTE_COUNT (R256): A ready vote chunk is counted exactly and thinned up, or forms the root result. -/
  | voteCount
  /-- ROW_FREE_STAGE (R251): A freed staging row takes the waiting overflow parts of its lowest chunk. -/
  | rowFreeStage (x : Fin 256) (row : Nat)
  /-- DELIVERY_LANDING (R259): Result chunks land in arrival slots, and the last one credits the delivery counter and may return the context to IDLE. -/
  | deliveryLanding (x : Fin 256)
  /-- LANE_FAILED (R267): A lane loses optical lock or alignment, or takes 16 uncorrectable codewords in 100 µs, so a spare takes its slot or the group fails. -/
  | laneFailed (l : LaneId) (cause : LaneFault)
  /-- LNK_SER_WARN (R267): A lane's pre-FEC symbol error ratio exceeds its limit over 1 ms, which writes a warning. -/
  | lnkSerWarn (l : LaneId) (ppb : Nat)
  /-- DATA_FLIT (R272): A received data flit is checked by CRC and tag, accepted in SEQ order or NAKed, and its ACK and credit fields are applied. -/
  | dataFlit (g : Grp) (f : RxWire)
  /-- IDLE_FLIT (R270): A received idle flit is checked, and its ACK, credits and any lane-management record are applied. -/
  | idleFlit (g : Grp) (f : RxWire)
  /-- TRAINING_FLIT (R336): A received training flit carries alignment, an identity record or credit data for training. -/
  | trainingFlit (g : Grp) (f : RxWire)
  /-- SYNC_FLIT (R284): A received SYNC flit gives its stamps to the Datestamp steering. -/
  | syncFlit (g : Grp) (f : RxWire)
  /-- FLIT_TRANSMIT (R276): At a flit boundary the egress scheduler sends a data flit by VC round robin when credit and replay room allow, or else an idle flit. -/
  | flitTransmit (g : Grp)
  /-- KEY_EPOCH_CHANGE (R364): FC reaches a multiple of 2³², so the sender moves to the next key epoch and toggles KEP. -/
  | keyEpochChange (g : Grp)
  /-- SYNC_SEND (R284): Every 65,536 root ticks, an UP group sends a SYNC flit with its stamps. -/
  | syncSend (g : Grp)
  /-- REPLAY_TIMEOUT (R272): 1 µs passes without ACK progress, so the sender resends from the oldest flit, entering RETRAIN after four resends. -/
  | replayTimeout (g : Grp)
  /-- ALIGN_LOCK (R277): Codeword lock on all four lanes with skew removed moves the group to IDENT. -/
  | alignLock (g : Grp) (skew : Nat)
  /-- ALIGN_TIMEOUT (R277): 10 ms in ALIGN without lock returns the group to DOWN. -/
  | alignTimeout (g : Grp)
  /-- RETRAIN_TIMEOUT (R277): 1 ms in RETRAIN sends the group to FAILED and runs the failure procedure. -/
  | retrainTimeout (g : Grp)
  /-- CREDIT_AUTH_TIMEOUT (R365): No idle flit passes its tag within 1 ms of CREDIT, so the group returns to DOWN. -/
  | creditAuthTimeout (g : Grp)
  /-- ONEWAY_TRAINING_SEND (R278): Every 10 µs a one-way source sends a training flit with its identity record and FC. -/
  | onewayTrainingSend (g : Grp)
  /-- ONEWAY_IDENT_TIMEOUT (R278): A one-way receiver that accepted a record sees no flit pass its tag within 1 ms and returns to DOWN. -/
  | onewayIdentTimeout (g : Grp)
  /-- LNK_ENABLE (R298): Setting LNK_CTL.enable lets the group leave DOWN once its lanes lock, or is ignored under R335, R342 and R365. -/
  | lnkEnable (g : Grp)
  /-- LNK_DISABLE (R277): Clearing LNK_CTL.enable takes the group to DOWN, running the failure procedure first from UP or RETRAIN. -/
  | lnkDisable (g : Grp)
  /-- LNK_RESTART (R277): LNK_CTL.RESTART returns a FAILED or HALT group to DOWN. -/
  | lnkRestart (g : Grp)
  /-- LNK_CRD_LIM_WRITE (R298): A write of the VC credit limit takes effect in DOWN only. -/
  | lnkCrdLimWrite (g : Grp) (v : W32)
  /-- PUT (R282): A PUT packet at its destination is checked under R158 and entered into the message table, while duplicates are discarded. -/
  | put (g : Grp) (vc : Fin 4)
  /-- GET (R283): A GET packet at its responder is checked under R158 and queued for its read. -/
  | get (g : Grp) (vc : Fin 4)
  /-- GET_REPLY (R283): A GET reply packet is tracked in the message table and placed by ROFF. -/
  | getReply (g : Grp) (vc : Fin 4)
  /-- SIGNAL (R281): A SIGNAL packet is tracked as a one-packet message that credits a counter. -/
  | signal (g : Grp) (vc : Fin 4)
  /-- MESSAGE_LANDING (R163): A complete message lands in its arrival slots and credits its counter once. -/
  | messageLanding (q : Fin 4)
  /-- GET_RESPONSE (R283): The responder reads the GET source in its arrival slots and sends the replies. -/
  | getResponse (q : Fin 4)
  /-- MSG_TOMB_EXPIRY (R282): A completed message-table entry's tombstone life ends, and the entry is freed. -/
  | msgTombExpiry (q : Fin 4) (acc : Nat) (src : Nat) (mid : W32)
  /-- MSG_STALE (R282): An entry incomplete for 4 × MSG_TOMB is freed without landing, with a warning. -/
  | msgStale (q : Fin 4) (acc : Nat) (src : Nat) (mid : W32)
  /-- PACKET_TRANSIT (R286): A transit packet is routed by its edition to an egress lane group, or dropped under R290. -/
  | packetTransit (g : Grp) (vc : Fin 4)
  /-- PACKET_INJECT (R291): A queued packet leaves its injection queue while its lane group's window is open. -/
  | packetInject (g : Grp)
  /-- INJECTION_WINDOW_CLOSE (R291): A window closes, and packets still queued count in LNK_WIN_LATE. -/
  | injectionWindowClose (g : Grp)
  /-- RTR_TBL_WORD_WRITE (R285): A routing-table word is written, or ignored with RTR_TBL_REJECT when it targets a running job's active edition. -/
  | rtrTblWordWrite (w : Fin 6) (v : W32)
  /-- MSG_TOMB_WRITE (R299): MSG_TOMB takes a new tombstone life, and out-of-range values are ignored and counted. -/
  | msgTombWrite (v : W32)
  /-- QP_CLS_MIN_WRITE (R293): A class minimum is set, or ignored with QP_MIN_REJECT if the sum would exceed the pool. -/
  | qpClsMinWrite (v : W32)
  /-- FLUSH (R295): QP_Q_SEL.FLUSH discards a queue's later packets or items, or is ignored for replay and unassigned queues. -/
  | flush (v : W32)
  /-- OPT_LC_WRITE (R306): A lane-cell state write starts a state change, or is ignored with OPT_LC_REJECT when invalid. -/
  | optLcWrite (v : W32)
  /-- LANE_CELL_SETTLED (R307): A lane-cell state change takes effect and BUSY clears. -/
  | laneCellSettled (x : CellId)
  /-- OPT_GRP_MODE_WRITE (R327): A group's one-way mode is set while the group is DOWN, and ignored otherwise. -/
  | optGrpModeWrite (p : Fin 6) (v : W32)
  /-- RING_SWEEP (R312): A ring sweep ends, leading to ACQUIRE on a resonance or OFF with OPT_LOCK_LOST after three failures. -/
  | ringSweep (l : LaneId) (found : Bool)
  /-- RING_ACQUIRE_LOCK (R312): The ring error stays within ±4 pm for 100 µs, so the ring is LOCKED and lock is reported. -/
  | ringAcquireLock (l : LaneId)
  /-- RING_ACQUIRE_TIMEOUT (R312): 1 ms in ACQUIRE without lock returns the ring to SWEEP. -/
  | ringAcquireTimeout (l : LaneId)
  /-- RING_LOCK_LOSS (R312): The ring error stays beyond ±25 pm for 10 µs, so loss of lock is reported and the ring resweeps. -/
  | ringLockLoss (l : LaneId) (errTenthPm : Int)
  /-- MZI_LOCK_LOSS (R311): An interferometer's phase error stays beyond ±0.2 rad for 10 µs, so its lanes lose lock. -/
  | mziLockLoss (x : CellId) (errMrad : Nat)
  /-- PHOTONIC_COOLED (R314): The photonic die stays below 75 °C for 1 s after overheating, so lanes may leave safe power. -/
  | photonicCooled
  /-- FADE_MEASURE (R317): Every 100 ms a laser's fade warns, migrates the lane, retires the laser or defers retirement. -/
  | fadeMeasure (l : LaneId) (fade : Int)
  /-- REQUEST (R318): A migration request raises the new lane to full power and starts duplicate sending. -/
  | request (g : Grp) (r : LaneRec)
  /-- READY (R318): A peer's READY lets the transmitter send SWITCH at a packet boundary. -/
  | ready (g : Grp) (r : LaneRec)
  /-- SWITCH (R318): On SWITCH the receiver takes the slot from the new lane and answers DONE. -/
  | switch (g : Grp) (r : LaneRec)
  /-- DONE (R318): On DONE the transmitter stops sending the old lane and the old lane becomes reserve or failed. -/
  | doneRec (g : Grp) (r : LaneRec)
  /-- ABORT (R318): ABORT marks the new lane failed and restarts migration with the next free lane. -/
  | abort (g : Grp) (r : LaneRec)
  /-- CALREQ (R321): A calibration migration moves a slot off the lane to be calibrated. -/
  | calreq (g : Grp) (r : LaneRec)
  /-- CALDONE (R321): Calibration ends and the lane becomes free. -/
  | caldone (g : Grp) (r : LaneRec)
  /-- MIGRATION_TIMEOUT (R318): The new lane fails to reach READY within 10 ms, so the initiator sends ABORT. -/
  | migrationTimeout (p : Fin 6) (txn : W32)
  /-- LANE_RECORD_REPEAT (R319): An unanswered lane-management record is resent every 10 µs. -/
  | laneRecordRepeat (p : Fin 6) (txn : W32)
  /-- CALIBRATION_START (R321): Every OPT_CAL_PERIOD the next eligible lane cell starts rotating calibration, or pauses without a free lane. -/
  | calibrationStart
  /-- LIGHT_PRESENT (R303): Light present asserts on a receive fibre after 10 µs at −25 dBm or more. -/
  | lightPresent (l : LaneId) (pwr : Int)
  /-- OPT_OFC (R323): Light clears on a receive fibre, so feeding lasers go to safe power and forwarded light is blocked within 1 ms. -/
  | optOfc (l : LaneId) (pwr : Int)
  /-- LASER_RISE (R324): Light present for 1 ms with a locked ring and a warm die lets a laser rise to full power. -/
  | laserRise (l : LaneId)
  /-- TOP_NODE_WRITE (R333): The node and time-root IDs are set, or the write is ignored with TOP_CAT_REJECT. -/
  | topNodeWrite (v : W32)
  /-- TOP_CAT_WORD_WRITE (R335): A catalogue entry word is written while its group is DOWN or HALT, and rejected otherwise. -/
  | topCatWordWrite (w : Fin 4) (v : W32)
  /-- TOP_EPOCH_WRITE (R348): The catalogue epoch is set while every group is DOWN or HALT. -/
  | topEpochWrite (v : W32)
  /-- STAGE (R357): A party issues a signed custody record for staging, through CUS_CMD or MCTP. -/
  | stage (via : CusVia)
  /-- STAGE_VERIFIED (R357): Custody finishes verifying a stage, of the party and record named, and copies it to CUS_PEND, or refuses it with a result code. -/
  | stageVerified (party : Party) (rec : BitVec 2048)
  /-- CONFIRM (R357): The other party issues a signed confirm of the pending record, whose verification commits it or refuses it; record and signature of an MCTP message, while the host's stand in CUS_STAGE and CUS_SIG. -/
  | confirm (party : Party) (rec : BitVec 2048) (sig : BitVec 768)
  /-- CANCEL (R358): The staging party cancels its pending staging. -/
  | cancel (party : Party)
  /-- QUAD_ASSIGN (R355): A committed assignment gives quadrants to an accession, with fresh XTS keys and an optional seal. -/
  | quadAssign
  /-- QUAD_RELEASE (R355): A committed release zeroises quadrants, frees them and gives them fresh keys. -/
  | quadRelease
  /-- GROUP_OWN (R340): A committed change sets a lane group's ownership record. -/
  | groupOwn
  /-- KEY_LOAD (R361): A committed load unwraps a job key into a key slot. -/
  | keyLoad
  /-- KEY_ERASE (R355): A committed erase clears a key slot. -/
  | keyErase
  /-- SEAL (R368): A committed seal sets the seal bits of quadrants. -/
  | seal
  /-- UNSEAL (R369): A committed unseal zeroises quadrants and clears their seal bits. -/
  | unseal
  /-- FUSE_WRITE (R355): A committed write blows fuse bits, which are sensed again within 1 ms. -/
  | fuseWrite
  /-- DEBUG_ENABLE (R370): Committed debug faults all jobs, unseals, erases all keys and opens debug access. -/
  | debugEnable
  /-- DEBUG_DISABLE (R370): Committed disable closes debug access. -/
  | debugDisable
  /-- CUS_EXPIRE (R358): The 10 s deadline passes and the pending staging is discarded. -/
  | cusExpire
  /-- CUS_LOCK_EXPIRY (R359): The 60 s custody lock ends. -/
  | cusLockExpiry
  /-- ZEROISE_DONE (R369): Zeroising a quadrant completes and ZBUSY clears. -/
  | zeroiseDone (q : Fin 4)
  /-- POWER_ON (R376): PWR_EN rises with a valid input, and the module runs its bring-up sequence to LOCAL and then READY. -/
  | powerOn (b : BringUp)
  /-- BUP_READY (R379): LOCAL is set and the Datestamp is locked, or the module is the time root, so READY is set. -/
  | bupReady
  /-- PERST_N_RISE (R377): PERST_N rises and PCIe starts training, with BAR0 decoding within 1.0 s. -/
  | perstNRise
  /-- CORE_RESET (R391): RST_CTL resets one core, faulting its job. -/
  | coreReset (v : W32)
  /-- CLUSTER_RESET (R391): RST_CTL resets one cluster. -/
  | clusterReset (v : W32)
  /-- QUADRANT_RESET (R391): RST_CTL resets a quadrant, faulting its job and closing its neighbour links. -/
  | quadrantReset (v : W32)
  /-- HUB_RESET (R391): RST_CTL resets the hub, faulting all jobs while held cells keep their state. -/
  | hubReset (v : W32)
  /-- MODULE_RESET (R391): A module reset by RST_CTL, PERST_N low or PWR_EN reruns bring-up from fuse sensing. -/
  | moduleReset (cause : ModReset)
  /-- RESET_COMPLETE (R391): A reset ends and the scope returns to service, applying pending repairs. -/
  | resetComplete (b : BringUp)
  /-- RPR_ADD (R397): A soft repair entry for a core or cluster is made pending, or ignored while a job is resident. -/
  | rprAdd (v : W32)
  /-- D2D_LOST (R390): A die-to-die link loses lock, retrains and faults the jobs that use it. -/
  | d2dLost (a b : Nat)
  /-- CLK_SRC_WRITE (R400): The management domain is switched through the glitch-free multiplexer. -/
  | clkSrcWrite (v : W32)
  /-- START (R403): A software frequency measurement starts, or ends at once as BUSY or STOPPED. -/
  | start (v : W32)
  /-- STOP (R404): A software measurement ends without a count. -/
  | stop (v : W32)
  /-- FC_MEASURE_DONE (R404): After 2^N reference edges the target count is latched and STATE becomes DONE. -/
  | fcMeasureDone (count : W32)
  /-- PWR_UV (R407): The input stays below 40 V for 10 µs, which writes a warning. -/
  | pwrUv (cv : Nat)
  /-- INPUT_SHUTDOWN (R407): The input stays below 36 V or above 62 V for 100 µs, so the power stages shut down in order. -/
  | inputShutdown (cv : Nat)
  /-- PWR_EN_FALL (R441): PWR_EN falls, so the module powers off and the Ledger clears. -/
  | pwrEnFall
  /-- POWER_SAMPLE (R410): Each die's power is measured every 1 µs, with overdraw warnings and job faults as R410 sets. -/
  | powerSample (r : PowerReading)
  /-- THERMAL_SAMPLE (R411): Every 10 µs the temperatures are read and dies enter throttle, fault jobs or trip. -/
  | thermalSample (r : ThermalReading)
  /-- THROTTLE_END (R412): A die stays 5 K below its throttle point for 100 ms, so throttle ends. -/
  | throttleEnd (die : Fin 17)
  /-- COOLANT_SAMPLE (R415): Every 10 ms the coolant is read, with PWR_FLOW after a 1 s rise above 18 K. -/
  | coolantSample (inlet outlet : Int)
  /-- HST_WIN_WRITE (R424): The BAR2 window is set, and out-of-range values are ignored and counted. -/
  | hstWinWrite (v : W32)
  /-- BAR2_READ (R426): A BAR2 read TLP is translated and queued in the host class, or refused when disabled or sealed. -/
  | bar2Read (off len tag : Nat)
  /-- BAR2_WRITE (R426): A BAR2 write TLP is translated and queued in the host class, or discarded. -/
  | bar2Write (off : Nat) (data : List Byte)
  /-- HOST_SLOT_SERVICE (R21): A waiting BAR2 request is served in a quadrant host slot. -/
  | hostSlotService (q : Fin 4)
  /-- DOORBELL (R428): A BAR4 write sets a host-move ring's tail. -/
  | doorbell (r : Fin 4) (v : W32)
  /-- HOST_MOVE (R429): The engine takes the next descriptor of a ring and checks it, or writes a failing status. -/
  | hostMove (r : Fin 4) (desc : BitVec 512)
  /-- HOST_MOVE_COMPLETE (R430): A host move finishes, credits its counter, writes STS and signals its vector. -/
  | hostMoveComplete (r : Fin 4) (res : HostResult)
  /-- RING_RESTART (R430): HST_RING_CTL.RESTART resumes a halted ring. -/
  | ringRestart (r : Fin 4) (v : W32)
  /-- SET_ENDPOINT_ID (R432): The bus owner assigns the MCTP endpoint ID. -/
  | setEndpointId (eid : Byte)
  /-- MCTP_CONTROL (R433): Any other MCTP control message is answered. -/
  | mctpControl (cmd : Byte)
  /-- PLDM_REQUEST (R433): A PLDM type 0 or 2 request is answered, and other PLDM types or threshold settings get an error. -/
  | pldmRequest (ty : Nat) (req : PldmReq)
  /-- MCTP_DISCARD (R433): A message of another type is discarded and counted. -/
  | mctpDiscard (ty : Nat)
  /-- CUS_READ (R434): The BMC reads the custody status and the pending record. -/
  | cusRead
  /-- LDG_READ (R434): The BMC reads Ledger entries from its pointer with a lost count. -/
  | ldgRead (count : Nat)
  /-- SENSOR_UPDATE (R435): Every 1 ms the PLDM sensors update and state changes send rate-limited events. -/
  | sensorUpdate
  /-- TELEMETRY_RECORD (R436): Every MGT_TEL_PERIOD a telemetry record is written to the telemetry queue. -/
  | telemetryRecord
  /-- LEDGER_COMMIT (R438): A waiting entry commits with the next SEQ, moving the reader pointers on past 8,192 pending. -/
  | ledgerCommit
  /-- LDG_RD_WRITE (R447): The host read pointer is set, and out-of-range values are ignored. -/
  | ldgRdWrite (v : W32)
  /-- PPS_EDGE (R442): At the time root a SYNC_IN_A edge is checked as a reference second, setting EXTREF and steering to the reference. -/
  | ppsEdge (bEdges : Nat)
  /-- SYNC_REF_LOST (R442): No PPS edge within 1.0001 s, or an invalid second, clears EXTREF and holds the pull. -/
  | syncRefLost
  /-- SYNC_TRIG (R444): A SYNC_IN_A edge with TRIG_EN latches the Datestamp, logs, signals vector 11 and may freeze trace. -/
  | syncTrig
  /-- SYNC_TRIG_DST_LO_READ (R449): A read of the trigger Datestamp low word latches the high word and fine phase. -/
  | syncTrigDstLoRead
  /-- STOPPED_CLOCK (R402): A crystal, oscillator, loop or reference stops in service, so the logic it feeds receives no further edges and, for the root, the Datestamp stops. -/
  | stoppedClock (src : Fin 17)
  /-- CONFIGURATION_REQUEST (R377): A PCIe configuration request is answered with Request Retry Status until BAR0 decodes. -/
  | configurationRequest
  /-- DEBUG_ACCESS (R370): A JTAG debug instruction or debug access reaches the device, served only while debug is enabled and taking shelf priority 6. -/
  | debugAccess (a : DebugOp)
  /-- RE_PIVOT_FLAG_CLEAR (R141): A W1C write to RE_PIVOT_FLAG_LO or RE_PIVOT_FLAG_HI clears the sticky floored-pivot flags written as 1. -/
  | rePivotFlagClear (cl : Clu) (hi : Bool) (v hw : W32)
  /-- INTERFEROMETER_ON_TARGET (R311): An interferometer whose phase error returns within ±0.02 rad is locked again, so its lanes regain optical lock. -/
  | interferometerOnTarget (x : CellId) (errMrad : Nat)
deriving DecidableEq, Repr

end Sys2Proof
end

