-- ==== Sys2Proof/Config.lean ====
section
/-! DEFINITION. Values the spec leaves open: free functions without a body, and constants of the device. -/

namespace Sys2Proof.Config

/-- The FP32 value f of EXP for its input (-1)^n * m * 2^e with m odd, m = 0 and e = 0 for a zero, m = 0
and e = 1 for an infinity (R110: one fixed algorithm, known within 2 ulp only; log 9). -/
opaque expF : Bool → Nat → Int → W32
/-- The FP32 value f of LOG (R110, within 2 ulp; log 9). -/
opaque logF : Bool → Nat → Int → W32
/-- The FP32 value f of TANH (R110, within 3 ulp; log 9). -/
opaque tanhF : Bool → Nat → Int → W32
/-- The FP32 value f of SIGMOID (R110, within 3 ulp; log 9). -/
opaque sigmoidF : Bool → Nat → Int → W32
/-- The FP32 value f of GELU (R110, within 4 ulp; log 9). -/
opaque geluF : Bool → Nat → Int → W32

/-- The byte at a module address whose region has become unknown for the n-th time: HBM under a
fresh XTS key (R367), a shelf after a core reset, a marginalia store after a cluster reset (R391); log 6. -/
opaque freeByte : Nat → Nat → Byte

/-- The bits of a row's last byte beyond its last element, by operation (its slot word and its job time since
job start, R180) and byte address: the spec does not say what a store of sub-byte elements leaves there (log 9). -/
opaque padBits : Nat → Nat → Byte

/-- BF16 of a residual plane element that a residual pass does not write EO for, by pass (its descriptor and its
launch in job time since job start, R180) and address (R224 gives EO no value of its own; log 9). -/
opaque eoUnset : Nat → Nat → BitVec 16

/-- FP32 decay of a group whose restart multiplier is 0 and whose restart period has passed, by that period and the
steps since warm-up: R238 gives its loop no end then (log 9). -/
opaque restartZero : Nat → Nat → W32

/-- Ledger code of a move dropped at a closed neighbour link: R20 tells the quadrant to write an
entry and names no code (log 9). -/
opaque closedLinkCode : Nat

/-- Draw i of a packet's Valiant choice, by draw counter: the generator's sequence is not specified
(R288; log 9). -/
opaque viaDraw : Nat → Nat → Nat

/-- The firmware version in the identity record (R336); log 4. -/
opaque fwver : BitVec 16

/-- What a rotating calibration measures, by draw and by number (R313, R315, R321; log 9): an element's set point, a
receiver's threshold, a laser's fade in 0.01 dB, a figure of an element's feedforward. -/
opaque calSetPoint : Nat → Nat → Int
opaque calThreshold : Nat → Nat → Int
opaque calFade : Nat → Nat → Int
opaque ffRefit : Nat → Nat → Int

/-- The feedforward figures measured at the factory, five an element (R315; log 9). -/
opaque ffFactory : Nat → Int

/-- The ring error at which a ring reports lock, by draw; the model takes it within ±4 pm (R311; log 9). -/
opaque ringErr : Nat → Nat

/-- The CRC-32C of the placement section whose list of physical units is given (R385): the spec
gives no byte layout of that section (log 9). -/
opaque placementCrc : List Nat → W32

/-- Weight of a port's offset or rate in the means of R29 and R30, which the spec calls weighted and
does not weigh (log 9). -/
opaque portWeight : Nat → Nat

/-- The XTS key that the hub's random-bit generator gives a quadrant, by draw (R367; log 9). -/
opaque xtsKey : Nat → BitVec 512

/-- Silicon revision of a die, 0 the hub, 1 to 4 the compute dies (R452); log 4. -/
opaque minor : Nat → Byte

/-- The bank of a row still has a post-package repair left, by stack and row (R388: how many it has is
not said; log 9). -/
opaque pprLeft : Nat → Nat → Bool

/-- What a register shows for a selection that names nothing (a class above 8, a port code above 5, a lane
above 17, a stack above 11, a physical cluster above 16), by BAR0 offset and draw: not stated (log 9). -/
opaque noSelection : Nat → Nat → W32

/-- OFFSET_PS of DST_STATUS for an offset outside the 16-bit range (R51 does not say; log 9). -/
opaque offsetOut : Int → BitVec 16

/-- Highest Dorta protocol version of this generation (R336, R459). -/
def pver : BitVec 8 := 1
/-- Feature mask this generation offers (R337, R459). -/
def features : BitVec 16 := 0x00FF

end Sys2Proof.Config
end

