-- ==== Sys2Proof/Machine/Bits.lean ====
section
/-! DEFINITION. Bit fields (R9), byte order (R479), sparse tables, small list tools. -/

namespace Sys2Proof.Machine

/-- Field NAME[hi:lo] of a word, as a number (R9). -/
def fld {n : Nat} (w : BitVec n) (hi lo : Nat) : Nat := (w.toNat >>> lo) % 2 ^ (hi + 1 - lo)

/-- Bit n of a word (R9). -/
def bit {n : Nat} (w : BitVec n) (i : Nat) : Bool := w.toNat.testBit i

/-- Field as a two's complement number. -/
def sfld {n : Nat} (w : BitVec n) (hi lo : Nat) : Int :=
  let v := fld w hi lo
  if v < 2 ^ (hi - lo) then (v : Int) else (v : Int) - 2 ^ (hi + 1 - lo)

/-- Replace field [hi:lo] of a 32-bit word. -/
def put32 (w : W32) (hi lo v : Nat) : W32 :=
  let m : Nat := (2 ^ (hi + 1 - lo) - 1) <<< lo
  BitVec.ofNat 32 ((w.toNat &&& (0xFFFFFFFF - m)) ||| ((v <<< lo) &&& m))

/-- The low `k` bytes of a number, lowest first (R479). -/
def bytesOf : Nat → Nat → List Byte
  | 0, _ => []
  | k + 1, v => BitVec.ofNat 8 v :: bytesOf k (v / 256)

/-- The number a list of bytes stands for, lowest byte first (R479). -/
def ofBytes : List Byte → Nat
  | [] => 0
  | b :: r => b.toNat + 256 * ofBytes r

/-- Signed reading of a 32-bit word. -/
def sgn (w : W32) : Int := w.toInt

/-- ceil(a / b), with ceil(a / 0) = 0. -/
def cdiv (a b : Nat) : Nat := (a + b - 1) / b

/-- Value of a key in a sparse table whose default is `d`. -/
def tget {α : Type} (d : α) : Tab α → Nat → α
  | [], _ => d
  | (k, v) :: r, i => if i = k then v else tget d r i

/-- Insert a key that is not in the table, keeping the keys rising. -/
def tins {α : Type} (i : Nat) (v : α) : Tab α → Tab α
  | [] => [(i, v)]
  | (k, w) :: r => if i < k then (i, v) :: (k, w) :: r else (k, w) :: tins i v r

/-- Set a key of a sparse table whose default is `d`; the default itself is never listed. -/
def tput {α : Type} [DecidableEq α] (d : α) (t : Tab α) (i : Nat) (v : α) : Tab α :=
  if v = d then t.filter (fun e => e.1 ≠ i) else tins i v (t.filter (fun e => e.1 ≠ i))

/-- The keys of a table rise strictly. -/
def rising {α : Type} : Tab α → Bool
  | [] => true
  | [_] => true
  | (k, _) :: (l, w) :: r => decide (k < l) && rising ((l, w) :: r)

/-- Canonical form of a sparse table: keys rise strictly and the default is not listed. -/
def tabWf {α : Type} [DecidableEq α] (d : α) (t : Tab α) : Bool :=
  rising t && t.all (fun e => decide (e.2 ≠ d))

/-- Change the listed values of a table, key by key. -/
def tmap {α : Type} [DecidableEq α] (d : α) (f : Nat → α → α) (t : Tab α) : Tab α :=
  (t.map (fun e => (e.1, f e.1 e.2))).filter (fun e => e.2 ≠ d)

/-- Apply `f` for i = 0 to n - 1 in ascending order. -/
def loopN {α : Type} : Nat → (Nat → α → α) → α → α
  | 0, _, a => a
  | n + 1, f, a => f n (loopN n f a)

/-- First element that meets a test, with its position. -/
def findIdx? {α : Type} (p : α → Bool) : List α → Nat → Option (Nat × α)
  | [], _ => none
  | a :: r, i => if p a then some (i, a) else findIdx? p r (i + 1)

/-- Remove the element at a position. -/
def removeAt {α : Type} : List α → Nat → List α
  | [], _ => []
  | _ :: r, 0 => r
  | a :: r, n + 1 => a :: removeAt r n

/-- Replace the element at a position. -/
def setAt {α : Type} : List α → Nat → α → List α
  | [], _, _ => []
  | _ :: r, 0, b => b :: r
  | a :: r, n + 1, b => a :: setAt r n b

/-- Largest of a list of integers, `d` for the empty list. -/
def maxInt (d : Int) : List Int → Int
  | [] => d
  | [a] => a
  | a :: b :: r => max a (maxInt d (b :: r))

/-- Sum of a list. -/
def sumNat : List Nat → Nat
  | [] => 0
  | a :: r => a + sumNat r

/-- Largest of a list of naturals, 0 for the empty list. -/
def maxNat : List Nat → Nat
  | [] => 0
  | a :: r => max a (maxNat r)

/-- Pad or cut a list to length n with `d`. -/
def fit {α : Type} (d : α) (n : Nat) (l : List α) : List α :=
  (l.take n) ++ List.replicate (n - l.length) d

/-- Cut a list into pieces of `k` (k > 0), at most `fuel` of them. -/
def chunksOf {α : Type} (k : Nat) : Nat → List α → List (List α)
  | 0, _ => []
  | fuel + 1, l => if l.isEmpty then [] else l.take k :: chunksOf k fuel (l.drop k)

/-- The byte positions of a piece of memory: address a, then up. -/
def cellsAt : Nat → List Byte → List (Nat × Byte)
  | _, [] => []
  | a, b :: r => (a, b) :: cellsAt (a + 1) r

/-- One step of CRC-32C over a bit of a reflected register (R268: polynomial 0x1EDC_6F41). -/
def crcBit (c : Nat) : Nat := if c % 2 = 1 then (c / 2) ^^^ 0x82F63B78 else c / 2

/-- One byte of CRC-32C. -/
def crcByte (c : Nat) (b : Byte) : Nat :=
  let c := c ^^^ b.toNat
  crcBit (crcBit (crcBit (crcBit (crcBit (crcBit (crcBit (crcBit c)))))))

/-- CRC-32C of a byte string, reflected, initial and final complement (R268, R336, R385). The
spec names the polynomial; bit order and complement are those of the CRC-32C everyone uses
(PRESUMED, log 10). -/
def crc32c (l : List Byte) : W32 := BitVec.ofNat 32 ((l.foldl crcByte 0xFFFFFFFF) ^^^ 0xFFFFFFFF)

end Sys2Proof.Machine
end

