-- ==== Sys2Proof/Machine/Exact.lean ====
section
/-! DEFINITION. Exact values and their arithmetic: what a unit forms before it rounds (R88, R109, R171). -/

namespace Sys2Proof.Machine

/-- An exact value: NaN, an infinity, or (-1)^neg * m * 2^e. Zero keeps its sign. -/
inductive Ext where
  | nan
  | inf (neg : Bool)
  | fin (neg : Bool) (m : Nat) (e : Int)
deriving DecidableEq, Repr

namespace Ext

def zero : Ext := .fin false 0 0
def one : Ext := .fin false 1 0

def isNan : Ext → Bool
  | .nan => true
  | _ => false

def isInf : Ext → Bool
  | .inf _ => true
  | _ => false

def isZero : Ext → Bool
  | .fin _ m _ => m == 0
  | _ => false

/-- Sign bit; NaN counts as positive. -/
def isNeg : Ext → Bool
  | .nan => false
  | .inf n => n
  | .fin n _ _ => n

/-- Sign change. -/
def negate : Ext → Ext
  | .nan => .nan
  | .inf n => .inf (!n)
  | .fin n m e => .fin (!n) m e

/-- Magnitude. -/
def mag : Ext → Ext
  | .nan => .nan
  | .inf _ => .inf false
  | .fin _ m e => .fin false m e

/-- Exact product by IEEE 754: 0 times infinity is NaN. -/
def mul : Ext → Ext → Ext
  | .nan, _ => .nan
  | _, .nan => .nan
  | .inf a, .inf b => .inf (a != b)
  | .inf a, .fin b m _ => if m = 0 then .nan else .inf (a != b)
  | .fin a m _, .inf b => if m = 0 then .nan else .inf (a != b)
  | .fin a m e, .fin b n f => .fin (a != b) (m * n) (e + f)

/-- The signed integer of a finite value in units of 2^q, for q at most its exponent. -/
def units (q : Int) : Ext → Int
  | .fin n m e => (if n then -1 else 1) * ((m <<< (e - q).toNat : Nat) : Int)
  | _ => 0

/-- Exponent of the unit of a finite value. -/
def expo : Ext → Int
  | .fin _ _ e => e
  | _ => 0

/-- The finite value t * 2^q; a zero t takes the sign given. -/
def ofUnits (q t : Int) (zneg : Bool) : Ext :=
  if t = 0 then .fin zneg 0 0 else .fin (decide (t < 0)) t.natAbs q

/-- Exact sum by IEEE 754 sign rules: x + (-x) = +0, (-0) + (-0) = -0, +inf + -inf = NaN. -/
def add : Ext → Ext → Ext
  | .nan, _ => .nan
  | _, .nan => .nan
  | .inf a, .inf b => if a = b then .inf a else .nan
  | .inf a, .fin _ _ _ => .inf a
  | .fin _ _ _, .inf b => .inf b
  | .fin a m e, .fin b n f =>
    if m = 0 ∧ n = 0 then .fin (a && b) 0 0
    else if m = 0 then .fin b n f
    else if n = 0 then .fin a m e
    else
      let q := min e f
      ofUnits q (units q (.fin a m e) + units q (.fin b n f)) false

/-- Exact difference. -/
def sub (x y : Ext) : Ext := add x (negate y)

/-- Sign of x - y for finite or infinite values: -1, 0 or 1; zeros compare equal. -/
def cmp : Ext → Ext → Int
  | .nan, _ => 0
  | _, .nan => 0
  | .inf a, .inf b => if a = b then 0 else if a then -1 else 1
  | .inf a, .fin _ _ _ => if a then -1 else 1
  | .fin _ _ _, .inf b => if b then 1 else -1
  | .fin a m e, .fin b n f =>
    let q := min e f
    let x := units q (.fin a m e)
    let y := units q (.fin b n f)
    if x < y then -1 else if x = y then 0 else 1

/-- x > y; false with a NaN. -/
def gt (x y : Ext) : Bool := !x.isNan && !y.isNan && decide (cmp x y = 1)

/-- min with -0 below +0 and NaN for any NaN (R111). -/
def emin (x y : Ext) : Ext :=
  if x.isNan || y.isNan then .nan
  else if cmp x y = 0 then (if x.isNeg then x else y)
  else if cmp x y = -1 then x else y

/-- max with +0 above -0 and NaN for any NaN (R111). -/
def emax (x y : Ext) : Ext :=
  if x.isNan || y.isNan then .nan
  else if cmp x y = 0 then (if x.isNeg then y else x)
  else if cmp x y = 1 then x else y

/-- floor(log2 |x|) of a non-zero finite value. -/
def log2 : Ext → Int
  | .fin _ m e => (Nat.log2 m : Int) + e
  | _ => 0

/-- The value truncated toward zero to a multiple of 2^q, and whether anything was lost. -/
def trunc (q : Int) : Ext → Ext × Bool
  | .fin n m e =>
    if q ≤ e then (.fin n m e, false)
    else
      let k := (q - e).toNat
      (.fin n (m >>> k) q, decide (m % 2 ^ k ≠ 0))
  | x => (x, false)

/-- The integer nearest to a finite value, ties to even (FTOI R83, tails R178). -/
def roundInt : Ext → Int
  | .fin n m e =>
    let a : Nat :=
      if 0 ≤ e then m <<< e.toNat
      else
        let k := (-e).toNat
        let q := m >>> k
        let r := m % 2 ^ k
        let h := 2 ^ k
        if 2 * r > h ∨ (2 * r = h ∧ q % 2 = 1) then q + 1 else q
    if n then -(a : Int) else (a : Int)
  | _ => 0

/-- A value that rounds to nearest even like x / y, for formats of at most 32 significant bits:
80 bits of quotient with a sticky bit below (correct rounding, R140, R238). -/
def div : Ext → Ext → Ext
  | .nan, _ => .nan
  | _, .nan => .nan
  | .inf _, .inf _ => .nan
  | .inf a, .fin b _ _ => .inf (a != b)
  | .fin a _ _, .inf b => .fin (a != b) 0 0
  | .fin a m e, .fin b n f =>
    if n = 0 then (if m = 0 then .nan else .inf (a != b))
    else if m = 0 then .fin (a != b) 0 0
    else
      let k := 80 + Nat.log2 n
      let q := (m <<< k) / n
      let r := (m <<< k) % n
      .fin (a != b) (2 * q + (if r = 0 then 0 else 1)) (e - f - k - 1)

/-- Integer square root by bits, from bit n down. -/
def isqrtAux : Nat → Nat → Nat → Nat
  | 0, x, r => if (r + 1) * (r + 1) ≤ x then r + 1 else r
  | n + 1, x, r =>
    let t := r + 2 ^ (n + 1)
    isqrtAux n x (if t * t ≤ x then t else r)

/-- floor(sqrt x) for x below 2^400. -/
def isqrt (x : Nat) : Nat := isqrtAux (Nat.log2 x / 2 + 1) x 0

/-- A value that rounds to nearest even like 1 / sqrt x for x > 0 (R110, R111). -/
def rsqrt : Ext → Ext
  | .nan => .nan
  | .inf n => if n then .nan else zero
  | .fin n m e =>
    if m = 0 then .inf n
    else if n then .nan
    else
      -- 1/sqrt(m 2^e): scale to an even exponent, take floor(sqrt(2^(2k) / m)) with a sticky bit
      let odd := decide (e % 2 ≠ 0)
      let m' := if odd then 2 * m else m
      let e' := if odd then e - 1 else e
      let k := 90 + Nat.log2 m'
      let r := isqrt (2 ^ (2 * k) / m')
      let exact := decide (r * r * m' = 2 ^ (2 * k))
      .fin false (2 * r + (if exact then 0 else 1)) (-(e' / 2) - k - 1)

/-- Halve a mantissa while it is even. -/
def oddPart : Nat → Nat → Int → Nat × Int
  | 0, m, e => (m, e)
  | n + 1, m, e => if m % 2 = 0 then oddPart n (m / 2) (e + 1) else (m, e)

/-- A value by sign, odd mantissa and exponent: (n, 0, 0) a zero, (n, 0, 1) an infinity. -/
def canon : Ext → Bool × Nat × Int
  | .nan => (false, 0, 2)
  | .inf n => (n, 0, 1)
  | .fin n m e => if m = 0 then (n, 0, 0) else (n, oddPart (Nat.log2 m) m e)

/-- 1 / x with RECIP of a zero an infinity of its sign (R111). -/
def recip (x : Ext) : Ext := div one x

end Ext

end Sys2Proof.Machine
end

