-- ==== Sys2Proof/Machine/State.lean ====
section
/-! DEFINITION. The state of the module as plain data, and the state right after reset. -/

namespace Sys2Proof.Machine

/-- Why the machine stops. -/
inductive Fault where
  /-- Raised by DEBUG_ACCESS when the shelf address lies outside the 1 MiB shelf: the spec gives
  no such byte (R144). Safe: the machine stops where the hardware may go on. -/
  | noSuchShelfByte
deriving DecidableEq, Repr

/-- Why a command has no meaning here. -/
inductive Refusal where
  /-- Raised by the dispatch for a row without a meaning yet. Safe: nothing is proved of it. -/
  | notModelled (mnemonic : String)
  /-- Raised by DEBUG_ACCESS for a debug instruction of the open JTAG port: the spec opens these
  instructions (R370) and does not say what any of them does. Safe: the machine stops. -/
  | jtagInstruction
deriving DecidableEq, Repr

/-- What leaves the module towards host, BMC, peers or pins. -/
inductive Out where
  /-- The value a register read returned (R12, R423). -/
  | rd (v : W32)
  /-- An MSI-X vector signalled (R431). -/
  | msix (v : Nat)
  /-- A BAR2 completion: 0 success, 1 Unsupported Request, 4 Completer Abort, with its tag and data (R425, R426). -/
  | cpl (status tag : Nat) (data : List Byte)
  /-- The answer to a configuration request: true when served, false for Request Retry Status (R377). -/
  | cfg (ok : Bool)
  /-- An MCTP response (R432 to R434): command or type, completion code, data. -/
  | mctp (cmd code : Nat) (data : List Byte)
  /-- A platform event message (R435). -/
  | event (kind val : Nat)
  /-- Bytes written to host memory, in one request (R430). -/
  | hostWr (addr : Nat) (data : List Byte)
  /-- A request that reads bytes of host memory (R430). -/
  | hostRd (addr len : Nat)
  /-- A flit sent on a lane group (R268, R269). -/
  | flit (g : Grp) (f : Flit)
  /-- The shelf byte that a debug access returned (R45, R370). -/
  | dbg (b : Byte)
deriving DecidableEq, Repr

/-- Memory: bytes by module address, addresses strictly rising. -/
abbrev Mem := List Host.Cell

/-- Clock root, Datestamp (R27 to R32, R51, R52) and frequency counter (R403, R404, R417). -/
structure Clock where
  dst      : Nat
  fine     : BitVec 8
  target   : Int
  since    : Nat
  slewAt   : Option Nat
  pull     : Int
  unlocked : Bool
  extref   : Bool
  nowHi    : W32
  nowFine  : W32
  stopped  : BitVec 17
  mgmtDead : Bool
  fcState  : Nat
  fcHolder : Nat
  fcCount  : W32
  fcN      : Nat
  fcRef    : Nat
  fcTgt    : Nat
deriving DecidableEq, Repr

def Clock.reset : Clock :=
  { dst := 0, fine := 0, target := 0, since := 0, slewAt := none, pull := 0, unlocked := true,
    extref := false, nowHi := 0, nowFine := 0, stopped := 0, mgmtDead := false, fcState := 0,
    fcHolder := 0, fcCount := 0, fcN := 0, fcRef := 0, fcTgt := 0 }

/-- A Ledger entry (R437). -/
structure Entry where
  dst   : Nat
  fine  : BitVec 8
  sev   : Nat
  loss  : Bool
  src   : Nat
  code  : Nat
  acc   : BitVec 12
  d0    : W32
  d1    : W32
  seq   : W32
deriving DecidableEq, Repr

/-- An empty slot of the Ledger reads 0 (R441). -/
def Entry.zero : Entry :=
  { dst := 0, fine := 0, sev := 0, loss := false, src := 0, code := 0, acc := 0, d0 := 0,
    d1 := 0, seq := 0 }

/-- The Ledger (R437 to R441, R447). Sequence numbers count on without wrapping here; entries and
registers show them mod 2^32. -/
structure Ledger where
  slots    : Tab Entry
  wait     : List Entry
  loss     : List Nat
  wr       : Nat
  rd       : Nat
  bmc      : Nat
  bmcLost  : Nat
  badAcc   : Option Nat
  sealDeny : Option Nat
  cycle    : Option Nat
deriving DecidableEq, Repr

def Ledger.reset : Ledger :=
  { slots := [], wait := [], loss := [], wr := 0, rd := 0, bmc := 0, bmcLost := 0,
    badAcc := none, sealDeny := none, cycle := none }

/-- States of a job slot (R54), in the order of their codes in SCH_JOB_STAT. -/
inductive JobSt where
  | free | admitting | admitted | refused | running | ended | faulted
deriving DecidableEq, Repr

/-- A counter that missed its deadline (R42, R44): core, cluster, counter, deadline. -/
structure Late where
  core : CoreId
  cc   : Nat
  d    : Nat
deriving DecidableEq, Repr

/-- An advance entry in flight (R237, R239): module entries named, completion time. -/
structure AdvFly where
  grps : List Nat
  off  : Nat
  idx  : Nat
  due  : Nat
  hbm  : Bool
deriving DecidableEq, Repr

/-- The counts of one operation's summary (R183, R184). -/
structure Counts where
  elem  : Nat
  zero  : Nat
  ufz   : Nat
  sat   : Nat
  nan   : Nat
  trunc : Nat
  shx   : Nat
deriving DecidableEq, Repr

def Counts.none : Counts :=
  { elem := 0, zero := 0, ufz := 0, sat := 0, nan := 0, trunc := 0, shx := 0 }

/-- A summary handed to the shadow unit (R184): source 0 to 95 a core, 96 the row engine; and the block
truncations of a reduction, under TDR's tag (R119, R183). -/
structure Summary where
  src  : Nat
  tag  : Nat
  step : W32
  cnt  : Counts
  rtag : Nat := 0
  rtrunc : Nat := 0
deriving DecidableEq, Repr

/-- What a rounding operation latches: the seed, the salt, the step, the index base (R175), and c1 (R174). -/
structure Draw where
  seed : Nat
  salt : Nat
  step : Nat
  idx  : Nat
  c1   : Nat
deriving DecidableEq, Repr

/-- What an event of an operation in flight does: read a line, work on what was read, write a line. -/
inductive EvKind where
  | rd | calc | wr
deriving DecidableEq, Repr

/-- An event of an operation in flight: its Datestamp, its access group, chunk or row, the operand it is
for, its 64 B line, and the priority of its access (R45, R116). -/
structure Ev where
  at'  : Nat
  kind : EvKind
  grp  : Nat
  sub  : Nat
  line : Nat
  prio : Nat
deriving DecidableEq, Repr

/-- A matrix or stream operation in flight: what it latched (slot word, descriptors in field order, OFFSET,
scalar, step, TOL, seeds, the key of its free pad bits), the events still to come, the lines it holds (by
operand, or by the last chunk that needs them), the results not written yet in d and in TDR, its running
sums, and its counts. `live` is false for a masked operation (R64). -/
structure OpFly where
  due   : Nat
  w     : W64
  tds   : List W128
  off   : Nat
  scl   : Ext
  step  : W32
  tol   : Nat
  draw  : Draw
  pad   : Nat
  live  : Bool
  plan  : List Ev
  held  : List (Nat × Nat × List Byte)
  outD  : List Host.Cell
  outR  : List Host.Cell
  sums  : List W32
  cnt   : Counts
  trunc : Nat
deriving DecidableEq, Repr

/-- An LDTD or STTD in flight (R481): when it completes, its counter, its line in the launch cycle, and the
bytes that STTD writes. -/
structure TdOp where
  due  : Nat
  cc   : Option Nat
  load : Option Nat
  plan : List Ev
  out  : List Host.Cell
deriving DecidableEq, Repr

/-- A row-engine or route command in flight: what it latched (the command, the two scalars, step, seeds), the events
still to come, the lines it holds by operand, results not written yet, the factors of a SOLVE or the sorted indices
of a PACK or MERGE, its counts; and for a GATE the mask, the tokens with a NaN, and per expert the assignments and
drops, which count at completion. -/
structure CmdFly where
  due   : Nat
  w     : W256
  cc    : Option Nat
  jt    : Nat
  sclA  : W32
  sclB  : W32
  step  : W32
  draw  : Draw
  plan  : List Ev
  held  : List (Nat × Nat × List Byte)
  out   : List Host.Cell
  nums  : Tab W32
  cnt   : Counts
  mask  : Option (Nat × BitVec 96)
  nan   : Nat
  experts : List (Nat × Nat × Nat)
deriving DecidableEq, Repr

/-- States of a sequencer (R59). -/
inductive SeqSt where
  | idle | ready | waiting | held | done | fault
deriving DecidableEq, Repr

/-- A running LOOP (R71). -/
structure LoopSt where
  body : List W256
  n    : Nat
  per  : Nat
  iter : Nat
  idx  : Nat
deriving DecidableEq, Repr

/-- A descriptor write on its way (R62, R68): the first core edge that sees it, as job time for a TDW
(`byJob`) and else as Datestamp; TDn, value, whether the value left its field's range (R72), its rank among
writes that meet (1 LDTD, 2 TDADD, 3 TDW), and who wrote it: the first data word of R84 and the slot. -/
structure TdPend where
  byJob : Bool
  vis  : Nat
  td   : Nat
  val  : W128
  ovr : Bool
  rank : Nat
  d0   : W32
  slot : Nat
deriving DecidableEq, Repr

/-- A move in the queue of the move engine or in flight (R58, R159 to R161). -/
structure Move where
  op    : Nat
  md    : W256
  mdIdx : Nat
  ofs   : Int
  cc    : Option Nat
  step  : W32
  launch : Nat
  lines : Nat
  lp    : Nat
  start : Option Nat
  plan  : List Ev
  held  : List (Nat × List Byte)
  masked : Bool
deriving DecidableEq, Repr

/-- A core: sequencer, descriptor tables, units (R56 to R59, R66, R73, R87, R100, R153). `sp` counts
the bundles fetched of the core's streams in segment order; `tdOver` lists descriptors whose last
TDADD left its field's range (R72). -/
structure Core where
  st     : SeqSt
  bq     : List W256
  sp     : Nat
  seg    : Nat
  last   : Option Nat
  loop   : Option LoopSt
  dline  : Nat
  missed : Bool
  hpAt   : Option Nat
  td     : Tab W128
  tdPend : List TdPend
  tdOver : List Nat
  md     : Tab W256
  acc    : Tab W32
  trunc  : BitVec 4
  accIss : Tab Nat
  accDue : Tab Nat
  accMma : BitVec 4
  mxBusy : Nat
  mxFly  : List OpFly
  stBusy : Nat
  stFly  : List OpFly
  mq     : List Move
  mvFly  : List Move
  mvFree : Nat
  tdFly  : List TdOp
deriving DecidableEq, Repr

def Core.reset : Core :=
  { st := .idle, bq := [], sp := 0, seg := 0, last := none, loop := none, dline := 0,
    missed := false, hpAt := none, td := [], tdPend := [], tdOver := [], md := [], acc := [], trunc := 0,
    accIss := [], accDue := [], accMma := 0, mxBusy := 0, mxFly := [], stBusy := 0,
    stFly := [], mq := [], mvFly := [], mvFree := 0, tdFly := [] }

/-- A job slot (R50, R54) with its hold state (R33, R42), its image and its resources. -/
structure Job where
  st      : JobSt
  reason  : Nat
  acc     : BitVec 12
  armed   : Option Nat
  s       : Nat
  h       : Nat
  pend    : Bool
  held    : Bool
  e       : Nat
  stopAt  : Nat
  late    : List Late
  first   : Option Late
  img     : Option Image
  seg     : Nat
  skew    : List Nat
  ctxs    : Tab (Option Nat)
  grps    : Tab (Option Nat)
  mid     : W32
  advPos  : Nat
  adv     : List AdvFly
deriving DecidableEq, Repr

def Job.reset : Job :=
  { st := .free, reason := 0, acc := 0, armed := none, s := 0, h := 0, pend := false,
    held := false, e := 0, stopAt := 0, late := [], first := none, img := none, seg := 0,
    skew := [], ctxs := [], grps := [], mid := 0, advPos := 0, adv := [] }

/-- A write of an S register (number 0 to 63) or an M register (64 to 71) that retired at job
time `at'` (R62). -/
structure SWrite where
  at' : Nat
  reg : Nat
  val : BitVec 96
deriving DecidableEq, Repr

/-- A completion counter (R77, R78): DEF as it stood at the end of the last core cycle, the sum of this cycle's
changes and the Datestamp of the newest, WIN, and the Datestamp at which DEF last came down to its target (R42). -/
structure Ctr where
  deficit : Int
  sum     : Int
  at'     : Nat
  win     : Nat
  met     : Nat
deriving DecidableEq, Repr

def Ctr.zero : Ctr := { deficit := 0, sum := 0, at' := 0, win := 0, met := 0 }

/-- The command stream of a row engine or route unit (R127, R128, R193). -/
structure CmdUnit where
  q    : List W256
  sp   : Nat
  seg  : Nat
  last : Option Nat
  busy : Nat
  fly  : List CmdFly
  done : Bool
deriving DecidableEq, Repr

def CmdUnit.reset : CmdUnit :=
  { q := [], sp := 0, seg := 0, last := none, busy := 0, fly := [], done := true }

/-- The shadow unit's counters of one tag (R183, R186, R187). -/
structure TagCnt where
  cnt      : Counts
  run      : Nat
  step     : Option W32
  stepElem : Nat
  stepZero : Nat
  nanStep  : Option W32
deriving DecidableEq, Repr

def TagCnt.zero : TagCnt :=
  { cnt := Counts.none, run := 0, step := none, stepElem := 0, stepZero := 0, nanStep := none }

/-- A GATE that is running (R201): mask written, OFFSET, launch and end as Datestamps. -/
structure GateRun where
  mi     : Nat
  off    : Nat
  launch : Nat
  due    : Nat
deriving DecidableEq, Repr

/-- A cluster: control core (R80 to R83), counters, row engine, route unit, shadow unit. With their core cycle are
kept what the last GATE and the last summaries added, since a CLR of that cycle comes first (R191, R213), and how many
summaries were taken in it (R184). -/
structure Cluster where
  sw     : List SWrite
  cc     : Tab Ctr
  imem   : Tab W32
  dmem   : Tab W32
  pc     : Nat
  nextJ  : Nat
  stall  : Option Int
  on     : Bool
  re     : CmdUnit
  rt     : CmdUnit
  assign : Tab Nat
  drop   : Tab Nat
  gate   : Option GateRun
  tags   : Tab TagCnt
  sums   : List Summary
  rot    : Nat
  gateUpd : Nat × List (Nat × Nat × Nat)
  tagUpd : Nat × List Summary
  taken  : Nat × Nat
deriving DecidableEq, Repr

def Cluster.reset : Cluster :=
  { sw := [], cc := [], imem := [], dmem := [], pc := 0, nextJ := 0, stall := none, on := false,
    re := CmdUnit.reset, rt := CmdUnit.reset, assign := [], drop := [], gate := none, tags := [],
    sums := [], rot := 0, gateUpd := (0, []), tagUpd := (0, []), taken := (0, 0) }

/-- A memory controller's window accounting, by number of the window of 1,024 network cycles
(R151), scrub and repair state (R152). -/
structure Mc where
  wins  : Tab Nat
  seen  : List Nat
  prev  : List Nat
  ppr   : List Nat
deriving DecidableEq, Repr

def Mc.reset : Mc := { wins := [], seen := [], prev := [], ppr := [] }

/-- One group of records that a running pass has read (R227, R230): its write time in job time, its bytes, the
NaN and saturated heads among them (R226). -/
structure PassGrp where
  due : Nat
  wr  : List Host.Cell
  nan : Nat
  sat : Nat
deriving DecidableEq, Repr

/-- A running pass (R219, R227, R231): launch and launch + I in job time, what it latched (descriptor and its index,
program, power table, group words, seeds), the list indices read so far, the missed steps of the row under way, the
groups read and not yet written, and whether it has said UPD_NAN and UPD_SAT. -/
structure PassFly where
  t0   : Nat
  due  : Nat
  idx  : Nat
  w    : W256
  prog : List W32
  pt   : List W32
  gw   : Tab W32
  seed : W256
  list : List Nat
  miss : Nat
  grps : List PassGrp
  nanSaid : Bool
  satSaid : Bool
deriving DecidableEq, Repr

/-- An update engine (R214, R218). -/
structure Ue where
  pos  : Nat
  seg  : Nat
  last : Option Nat
  fly  : Option PassFly
deriving DecidableEq, Repr

def Ue.reset : Ue := { pos := 0, seg := 0, last := none, fly := none }

/-- A parameter-group entry (R234, R235): owner, slot, and 32 words. -/
structure GrpEntry where
  owner : BitVec 12
  job   : Nat
  words : Tab W32
deriving DecidableEq, Repr

def GrpEntry.free : GrpEntry := { owner := 0, job := 0, words := [] }

/-- States of a reduction context (R260), in the order of their codes in CIR_CTX_OWNER. -/
inductive CtxSt where
  | idle | open | waitDown | stepFault | released
deriving DecidableEq, Repr

/-- A part waiting in an overflow cell (R251). -/
structure Part where
  chunk : Nat
  input : Nat
  part  : Nat
  bytes : List Byte
deriving DecidableEq, Repr

/-- A reduction context entry (R243 to R245, R250 to R253, R260, R261). `input` NIN stands for
the down direction in `parts`, `ovfl` and `done`. A flushed context is `dead`: it cannot complete (R482). -/
structure Ctx where
  owner  : BitVec 12
  job    : Nat
  num    : Nat
  defn   : CtxDef
  st     : CtxSt
  step   : W32
  lo     : W32
  hi     : W32
  last   : Option W32
  sets   : Nat
  parts  : List Part
  ovfl   : List Part
  done   : List (Nat × Nat)
  sentUp : List Nat
  landed : List (Nat × Nat)
  dead   : Bool
deriving DecidableEq, Repr

def Ctx.free : Ctx :=
  { owner := 0, job := 0, num := 0, defn := { hdr := [], segs := [] }, st := .idle, step := 0,
    lo := 0, hi := 0, last := none, sets := 0, parts := [], ovfl := [], done := [], sentUp := [],
    landed := [], dead := false }

/-- States of a lane group (R277), in the order of their codes in LNK_GSTAT. -/
inductive LinkSt where
  | down | align | ident | credit | up | retrain | failed | halt
deriving DecidableEq, Repr

/-- A data flit kept for replay (R271): SEQ, VC, payload bytes, and the byte position of its
payload in the stream of its VC, how often it was resent (R272). -/
structure RFlit where
  seq : Nat
  vc  : Nat
  at' : Nat
  pay : List Byte
  tries : Nat := 0
deriving DecidableEq, Repr

/-- A packet of an egress stream: its place in the byte stream of its VC (R279). -/
structure TxPkt where
  vc  : Nat
  lo  : Nat
  hi  : Nat
  pkt : Packet
deriving DecidableEq, Repr

/-- A lane group: link layer (R268 to R278), keys by 2E + dir, epochs and flit counts (R362 to R364), catalogue entry and ownership
record (R334, R340), ingress, egress and injection queues (R291, R294). For the credits, `inAt` holds of each packet in
ingress, and `partAt` of a partial one, the number of the data flit of its VC in which it starts; `late` names the
packets counted at a window's close (R291). -/
structure Link where
  en      : Bool
  st      : LinkSt
  ver     : BitVec 8
  feat    : BitVec 16
  exch    : Bool
  lanes   : List (Fin 18)
  role    : Nat
  owner   : BitVec 12
  cat     : W128
  peer    : W256
  reason  : Nat
  passErr : Bool
  since   : Nat
  locked  : Bool
  failAt  : Option Nat
  seq     : Nat
  ack     : Nat
  rxSeq   : Nat
  nak     : Bool
  nakOut  : Bool
  replay  : List RFlit
  resend  : List RFlit
  ackAt   : Nat
  txPos   : Tab Nat
  sent    : Tab Nat
  crn     : Tab Nat
  peerLim : Nat
  rxn     : Tab Nat
  crvc    : Nat
  stream  : Tab (List Byte)
  synced  : Tab Bool
  ingress : Tab (List Packet)
  inAt    : Tab (List Nat)
  partAt  : Tab Nat
  egress  : Tab (List Packet)
  flying  : List TxPkt
  backlog : Tab (List Byte)
  rr      : Nat
  inj     : List Packet
  late    : List (Nat × W128)
  fcTx    : Nat
  fcRx    : Nat
  kep     : Bool
  epoch   : Nat
  rxEpoch : Nat
  keys    : Tab (BitVec 256)
  trainAt : Nat
  syncAt  : Nat
  peerT1  : Nat
  peerRx  : Nat
  offs    : Int
  offs16  : Int
  offsAt  : Nat
  syncN   : Nat
  rate    : Option Int
  rateNew : Bool
deriving DecidableEq, Repr

/-- Lane group g starts on lanes 4g to 4g + 3 (R265), DOWN (R277), with no owner (R351). -/
def Link.reset (g : Nat) : Link :=
  { en := false, st := .down, ver := 0, feat := 0, exch := false,
    lanes := [Fin.ofNat 18 (4 * g), Fin.ofNat 18 (4 * g + 1), Fin.ofNat 18 (4 * g + 2),
      Fin.ofNat 18 (4 * g + 3)],
    role := 0, owner := 0, cat := 0, peer := 0, reason := 0, passErr := false, since := 0,
    locked := false, failAt := none, seq := 0, ack := 0, rxSeq := 0, nak := false, nakOut := false, replay := [],
    resend := [], ackAt := 0, txPos := [], sent := [], crn := [], peerLim := 256,
    rxn := [], crvc := 0, stream := [], synced := [], ingress := [], inAt := [], partAt := [], egress := [],
    flying := [], backlog := [], rr := 0, inj := [], late := [], fcTx := 0, fcRx := 0,
    kep := false, epoch := 0, rxEpoch := 0, keys := [], trainAt := 0, syncAt := 0, peerT1 := 0, peerRx := 0, offs := 0,
    offs16 := 0, offsAt := 0, syncN := 0, rate := none, rateNew := false }

/-- A message-table entry (R282): quadrant, key, packets received, when it completed, and the lane
group of its first packet (R297). -/
structure Msg where
  q     : Fin 4
  acc   : BitVec 12
  src   : Nat
  mid   : W32
  n     : Nat
  got   : List (Nat × Packet)
  open' : Nat
  tomb  : Option Nat
  link  : Nat
deriving DecidableEq, Repr

/-- An outstanding GET (R283): the tag, the requesting move, and the pieces landed, as offset and length. -/
structure GetTag where
  tag  : Nat
  core : CoreId
  mv   : Move
  got  : List (Nat × Nat)
deriving DecidableEq, Repr

/-- A GET accepted by the responder (R283): its packet and the lane group it arrived on. -/
structure GetReq where
  q   : Fin 4
  pkt : Packet
  g   : Grp
deriving DecidableEq, Repr

/-- What waits in the arrival class (R163, R259, R282): bytes to land and what to credit; of a message the lane group
of its first packet and its ID (R297). -/
structure Arrival where
  q      : Fin 4
  writes : List Host.Cell
  credit : Option (Clu × Nat × Nat)
  ctx    : Option (Nat × Nat × Nat)
  get    : Option Nat
  job    : Nat
  cells  : Nat
  offs   : List (Nat × Nat) := []
  link   : Nat := 0
  mid    : W32 := 0
deriving DecidableEq, Repr

/-- Router, message tables and queue pool (R282 to R300). -/
structure Fabric where
  tbl     : Tab W32
  msgs    : List Msg
  gets    : Tab (List GetTag)
  getQ    : List GetReq
  arrive  : List Arrival
  clsMin  : Tab Nat
  clsMax  : Tab Nat
  clsLost : Tab Nat
  qCe     : Tab Nat
  qFlaws  : Tab Nat
  telem   : List (List Byte)
  trace   : List (List Byte)
deriving DecidableEq, Repr

def Fabric.reset : Fabric :=
  { tbl := [], msgs := [], gets := [], getQ := [], arrive := [], clsMin := [], clsMax := [],
    clsLost := [], qCe := [], qFlaws := [], telem := [], trace := [] }

/-- Lane roles (R316), in the order of their codes in OPT_LANE_STAT. -/
inductive LaneRole where
  | slot | free | calibrating | reserve | retired | failed | passage
deriving DecidableEq, Repr

/-- Ring states (R312), in the order of their codes. -/
inductive RingSt where
  | off | sweep | acquire | locked | lost
deriving DecidableEq, Repr

/-- Laser output (R329 field OFC), in the order of its codes. -/
inductive LaserSt where
  | off | safe | full | blocked
deriving DecidableEq, Repr

/-- A lane of the photonic engine (R303, R312, R316, R317, R323, R324). Powers in 0.01 dBm. -/
structure Lane where
  role    : LaneRole
  ring    : RingSt
  laser   : LaserSt
  sol     : Int
  fade    : Int
  stage   : Nat
  deferred : Bool
  rx      : Int
  ringErr : Int
  lp      : Bool
  lpSince : Nat
  clearAt : Option Nat
  sweeps  : Nat
  ringAt  : Nat
deriving DecidableEq, Repr

def Lane.reset : Lane :=
  { role := .slot, ring := .off, laser := .off, sol := 0, fade := 0, stage := 0,
    deferred := false, rx := 0, ringErr := 0, lp := false, lpSince := 0, clearAt := none,
    sweeps := 0, ringAt := 0 }

/-- A lane cell (R305 to R308, R311, R328). -/
structure LaneCell where
  hold   : Bool
  tapf   : Nat
  cur    : Nat
  state  : Nat
  busy   : Bool
  since  : Nat
  err    : Nat
  locked : Bool
deriving DecidableEq, Repr

def LaneCell.reset : LaneCell :=
  { hold := false, tapf := 0, cur := 0, state := 0, busy := false, since := 0, err := 0,
    locked := true }

/-- A lane migration (R318, R319, R321): `sent` and `got` are the OPCs sent and received under its
transaction, `sentAt` when the newest was sent. -/
structure Migration where
  txn    : W32
  slot   : Fin 4
  g      : Fin 4
  old    : Fin 18
  new    : Fin 18
  cal    : Bool
  init   : Bool
  start  : Nat
  sentAt : Nat
  sent   : List Nat
  got    : List Nat
deriving DecidableEq, Repr

/-- A change of a quadrant's power forecast (R48, R315, R409): the instant from which its code is `code`. -/
structure Forecast where
  at'  : Nat
  q    : Fin 4
  code : W32
deriving DecidableEq, Repr

/-- What the photonic engine holds beyond lanes and cells (R313 to R315, R320, R321, R325): `past` the newest ended
migration of each slot, `ahead` the forecast's changes, newest first; what calibration measured of a heater's set point
(`setPt`, by element), feedforward (`ff`, by element: four coupling coefficients and the site delay) and receiver
thresholds (`thr`, three a lane), none while the factory's values stand; `badChan` the open-fibre channels of a port
that have failed. -/
structure Optics where
  temp     : Int
  hot      : Bool
  coolAt   : Nat
  migs     : Tab (List Migration)
  past     : Tab (Option Migration)
  txn      : Tab W32
  calAxis  : Nat
  calNext  : Tab Nat
  calOn    : Option CellId
  calAt    : Nat
  paused   : Tab Bool
  warned   : Bool
  ahead    : List Forecast
  setPt    : Tab (Option Int)
  ff       : Tab (Option Int)
  thr      : Tab (Option Int)
  badChan  : Tab (BitVec 2)
deriving DecidableEq, Repr

def Optics.reset : Optics :=
  { temp := 0, hot := false, coolAt := 0, migs := [], past := [], txn := [], calAxis := 0, calNext := [],
    calOn := none, calAt := 0, paused := [], warned := false,
    ahead := [], setPt := [], ff := [], thr := [], badChan := [] }

/-- Node IDs, catalogue epoch and readiness (R333, R339, R348); `named` once TOP_NODE was written. -/
structure Topology where
  node  : BitVec 13
  root  : BitVec 13
  epoch : W32
  ready : Bool
  named : Bool
deriving DecidableEq, Repr

def Topology.reset : Topology := { node := 0, root := 0, epoch := 0, ready := false, named := false }

/-- A staging being verified or a confirmed one about to be applied (R357). -/
structure CusReq where
  party : Party
  word  : BitVec 2048
  sig   : BitVec 768
deriving DecidableEq, Repr

/-- Custody (R349 to R371, R374, R375) and the fuses (R355, R465). -/
structure Custody where
  nonce   : W32
  busy    : Bool
  origin  : Party
  pend    : BitVec 2048
  dline   : Nat
  result  : Nat
  badRun  : Nat
  lockAt  : Option Nat
  verify  : List CusReq
  commit  : Option CusReq
  stage   : Tab W32
  sig     : Tab W32
  own     : Tab (BitVec 12)
  seals   : BitVec 4
  keys    : Tab (BitVec 12)
  keyVals : Tab (BitVec 256)
  xts     : Tab (BitVec 512)
  debug   : Bool
  zbusy   : BitVec 4
  fuses   : Tab W32
  sensed  : Tab W32
  crcStat : BitVec 16
deriving DecidableEq, Repr

def Custody.reset : Custody :=
  { nonce := 1, busy := false, origin := .host, pend := 0, dline := 0, result := 0, badRun := 0,
    lockAt := none, verify := [], commit := none, stage := [], sig := [], own := [], seals := 0,
    keys := [], keyVals := [], xts := [], debug := false, zbusy := 0, fuses := [], sensed := [], crcStat := 0 }

/-- A reset in progress (R391, R395). -/
structure ResetRun where
  scope : Nat
  q     : Fin 4
  cl    : Nat
  k     : Nat
  test  : Bool
deriving DecidableEq, Repr

/-- Bring-up, pins, repair maps, resets (R376 to R397, R471). `spares` counts spare rows taken in
service by bank, `boot` the root ticks since step 4 until READY, `upAt` its value when the first group came UP. -/
structure Bringup where
  pwrEn   : Bool
  railsOn : Bool
  perst   : Bool
  bar0    : Bool
  mgtSel  : Bool
  phase   : Nat
  failph  : Nat
  isLocal : Bool
  ready   : Bool
  fused   : List BadUnit
  soft    : List BadUnit
  tested  : List BadUnit
  pendSoft : List BadUnit
  pendRows : List Nat
  ceWords : List Nat
  lanesBad : List LaneId
  deadStk : BitVec 12
  spares  : Tab Nat
  boot    : Nat
  upAt    : Option Nat
  rst     : Option ResetRun
deriving DecidableEq, Repr

def Bringup.reset : Bringup :=
  { pwrEn := false, railsOn := false, perst := false, bar0 := false, mgtSel := false, phase := 0,
    failph := 0, isLocal := false, ready := false, fused := [], soft := [], tested := [],
    pendSoft := [], pendRows := [], ceWords := [], lanesBad := [], deadStk := 0, spares := [], boot := 0, upAt := none, rst := none }

/-- Input, power and temperature (R407 to R415). Dies as R416 codes them: 0 to 3 quadrants,
4 hub, 5 to 16 HBM stacks here. -/
structure Power where
  shut     : Bool
  tripN    : Bool
  hist     : List (List Nat)
  overAt   : Tab (Option Nat)
  thr      : BitVec 17
  coolAt   : Tab (Option Nat)
  hbmT     : Tab Int
  flowAt   : Option Nat
  flowSaid : Bool
  ahead    : List Forecast
deriving DecidableEq, Repr

def Power.reset : Power :=
  { shut := false, tripN := true, hist := [], overAt := [], thr := 0, coolAt := [], hbmT := [],
    flowAt := none, flowSaid := false, ahead := [] }

/-- A host-move ring (R428 to R430, R446). Of the running descriptor: the 64 B lines requested in host slots so far,
the bytes read, and the lines that the memory did not serve. -/
structure Ring where
  head : Nat
  tail : Nat
  halt : Bool
  last : Nat
  run  : Option (BitVec 512)
  moved : Nat
  got  : List Byte
  gaps : List Nat
deriving DecidableEq, Repr

def Ring.reset : Ring :=
  { head := 0, tail := 0, halt := false, last := 0, run := none, moved := 0, got := [], gaps := [] }

/-- A BAR2 request waiting in the host class (R426). -/
structure Bar2 where
  q     : Fin 4
  inter : Bool
  st    : Nat
  byte  : Nat
  len   : Nat
  tag   : Nat
  data : Option (List Byte)
deriving DecidableEq, Repr

/-- Management endpoint (R432 to R436, R448). -/
structure Mgmt where
  eid     : Byte
  smbus   : Bool
  busy    : Bool
  recv    : Byte
  evCount : Nat
  evAt    : Nat
  telSeq  : Nat
  vals    : Tab Int
  sst     : Tab Nat
deriving DecidableEq, Repr

def Mgmt.reset : Mgmt :=
  { eid := 0, smbus := false, busy := false, recv := 0, evCount := 0, evAt := 0, telSeq := 0,
    vals := [], sst := [] }

/-- SYNC_IN (R442 to R444, R449). -/
structure Sync where
  pps    : Option Nat
  gap    : Option Nat
  valid  : Nat
  trig   : Option Nat
  dst    : Nat
  fine   : BitVec 8
  hi     : W32
  fineL  : W32
  frozen : Bool
deriving DecidableEq, Repr

def Sync.reset : Sync :=
  { pps := none, gap := none, valid := 0, trig := none, dst := 0, fine := 0, hi := 0, fineL := 0, frozen := false }

/-- The module. `stops` names, by quadrant, the slot of a faulted job whose units there stop at the next core
edge (R46); `dirty` the completion counters (cluster, number) that change in this core cycle (R78). -/
structure State where
  pending : List Instr
  out     : List Out
  draws   : Nat
  regs    : Tab W32
  mem     : Mem
  stale   : Tab Nat
  flaws   : Tab Nat
  clk     : Clock
  ldg     : Ledger
  jobs    : Tab Job
  stops   : Tab (Option Nat)
  dirty   : List (Nat × Nat)
  cores   : Tab Core
  clus    : Tab Cluster
  mcs     : Tab Mc
  ues     : Tab Ue
  grps    : Tab GrpEntry
  ctxs    : Tab Ctx
  cready  : List (Nat × Nat)
  links   : Tab Link
  fab     : Fabric
  lanes   : Tab Lane
  cells   : Tab LaneCell
  opt     : Optics
  top     : Topology
  cus     : Custody
  bup     : Bringup
  pwr     : Power
  rings   : Tab Ring
  ringRr  : Nat
  bar2    : List Bar2
  mgt     : Mgmt
  sync    : Sync
deriving DecidableEq, Repr

/-- The module right after reset: unpowered (PWR_EN low, R376), every register at its reset
value, memory with nothing listed, no command waiting. -/
def State.reset : State :=
  { pending := [], out := [], draws := 0, regs := [], mem := [], stale := [], flaws := [],
    clk := Clock.reset, ldg := Ledger.reset, jobs := [], stops := [], dirty := [], cores := [], clus := [], mcs := [],
    ues := [], grps := [], ctxs := [], cready := [], links := [], fab := Fabric.reset,
    lanes := [], cells := [], opt := Optics.reset, top := Topology.reset, cus := Custody.reset,
    bup := Bringup.reset, pwr := Power.reset, rings := [], ringRr := 0, bar2 := [],
    mgt := Mgmt.reset, sync := Sync.reset }

end Sys2Proof.Machine
end

