-- ==== Sys2Proof/Machine/Formats.lean ====
section
/-! DEFINITION. Formats, row layout, conversion and rounding (R167 to R173), Philox (R174), sums (R88, R119). -/

namespace Sys2Proof.Machine

/-- A floating-point format (R167): exponent and mantissa bits, bias, the magnitude code of the
largest finite value, whether the next code is infinity, the canonical NaN. -/
structure FFmt where
  eb     : Nat
  mb     : Nat
  bias   : Nat
  maxMag : Nat
  hasInf : Bool
  nan    : Nat
deriving DecidableEq, Repr

def fp32 : FFmt := ⟨8, 23, 127, 0x7F7FFFFF, true, 0x7FC00000⟩
def bf16 : FFmt := ⟨8, 7, 127, 0x7F7F, true, 0x7FC0⟩
def fp16 : FFmt := ⟨5, 10, 15, 0x7BFF, true, 0x7E00⟩
def e4m3 : FFmt := ⟨4, 3, 7, 0x7E, false, 0x7F⟩
def e5m2 : FFmt := ⟨5, 2, 15, 0x7B, true, 0x7E⟩
/-- E2M1 has neither infinity nor NaN (R167). -/
def e2m1 : FFmt := ⟨2, 1, 1, 0x7, false, 0⟩

/-- The exact value of a code (R167, R168): subnormals kept, -0 stays -0. -/
def FFmt.decode (f : FFmt) (code : Nat) : Ext :=
  let w := f.eb + f.mb
  let neg := decide ((code >>> w) % 2 = 1)
  let m := code % 2 ^ w
  if f.maxMag < m then (if f.hasInf ∧ m = f.maxMag + 1 then .inf neg else .nan)
  else
    let ef := m >>> f.mb
    let mant := m % 2 ^ f.mb
    if ef = 0 then .fin neg mant (1 - (f.bias : Int) - f.mb)
    else .fin neg (mant + 2 ^ f.mb) ((ef : Int) - f.bias - f.mb)

/-- Sign bit of a code. -/
def FFmt.sign (f : FFmt) (neg : Bool) (m : Nat) : Nat := if neg then m + 2 ^ (f.eb + f.mb) else m

/-- R171 between two neighbours: remainder r of d quanta above the lower magnitude `lo`.
RND 0 nearest even, 1 keyed stochastic with the draw u, 2 toward zero. -/
def pickUp (rnd u lo r d : Nat) : Bool :=
  if r = 0 then false
  else if rnd = 0 then decide (2 * r > d ∨ (2 * r = d ∧ lo % 2 = 1))
  else if rnd = 1 then decide (2 ^ 24 * d ≤ u * d + r * 2 ^ 24)
  else false

/-- Round an exact value into a format (R171, R172). -/
def FFmt.round (f : FFmt) (rnd u : Nat) : Ext → Nat
  | .nan => f.nan
  | .inf n => f.sign n (if f.hasInf then f.maxMag + 1 else f.maxMag)
  | .fin n m e =>
    if m = 0 then f.sign n 0
    else
      let qmin : Int := 1 - (f.bias : Int) - f.mb
      let q := max ((Nat.log2 m : Int) + e - f.mb) qmin
      let sig := if q ≤ e then m <<< (e - q).toNat else m >>> (q - e).toNat
      let d := if q ≤ e then 1 else 2 ^ (q - e).toNat
      let r := if q ≤ e then 0 else m % d
      let lo := ((q - qmin).toNat <<< f.mb) + sig
      if f.maxMag < lo ∨ (lo = f.maxMag ∧ r ≠ 0) then
        if !f.hasInf then f.sign n f.maxMag
        else if rnd = 1 then f.sign n (f.maxMag + 1)
        else if rnd = 2 then f.sign n f.maxMag
        else if f.maxMag < lo ∨ d ≤ 2 * r then f.sign n (f.maxMag + 1)
        else f.sign n f.maxMag
      else f.sign n (if pickUp rnd u lo r d then lo + 1 else lo)

/-- fp32 of the pseudocode: round to nearest even into FP32. -/
def rne (x : Ext) : W32 := BitVec.ofNat 32 (fp32.round 0 0 x)

/-- The exact value of FP32 bits. -/
def val (w : W32) : Ext := fp32.decode w.toNat

/-- A value rounded to nearest even into FP32 and read back. -/
def fp (x : Ext) : Ext := val (rne x)

/-- Canonical FP32 NaN (R89, R111). -/
def qnan : W32 := 0x7FC00000

/-- The exact value of a BF16 code. -/
def bfVal (n : Nat) : Ext := bf16.decode n

/-- Rounded integer magnitude of INT8 (R112, R172): saturates, NaN stores 0. -/
def int8Round (rnd u : Nat) : Ext → Int
  | .nan => 0
  | .inf n => if n then -128 else 127
  | .fin n m e =>
    let d := if 0 ≤ e then 1 else 2 ^ (-e).toNat
    let a := if 0 ≤ e then m <<< e.toNat else m / d
    let r := if 0 ≤ e then 0 else m % d
    let b := if pickUp rnd u a r d then a + 1 else a
    if n then max (-128) (-(b : Int)) else min 127 (b : Int)

/-- Element width in bits (R167). -/
def fmtBits (c : Nat) : Nat :=
  if c = 0 then 32 else if c = 1 ∨ c = 2 then 16 else if c = 7 then 4 else if c = 9 then 64
  else if c = 10 then 2 else if c = 11 then 1 else 8

/-- MX formats (R167). -/
def isMx (c : Nat) : Bool := c == 5 || c == 6 || c == 7

/-- The element encoding behind a format code. -/
def fmtOf (c : Nat) : FFmt :=
  if c = 0 then fp32 else if c = 1 then bf16 else if c = 2 then fp16
  else if c = 3 ∨ c = 5 then e4m3 else if c = 4 ∨ c = 6 then e5m2 else e2m1

/-- Packed row length (R169). -/
def rowbytes (c cols : Nat) : Nat :=
  if c = 0 then 4 * cols else if c = 1 ∨ c = 2 then 2 * cols
  else if c = 5 ∨ c = 6 then cols + cdiv cols 32
  else if c = 7 then cdiv cols 2 + cdiv cols 32
  else if c = 9 then 512 * cdiv cols 64
  else if c = 10 then cdiv cols 4 else if c = 11 then cdiv cols 8 else cols

/-- The exact value of an element code, before any MX scale (R167, R168, R112). -/
def elemVal (c code : Nat) : Ext :=
  if c = 8 then .fin (decide (128 ≤ code)) (if 128 ≤ code then 256 - code else code) 0
  else if c = 10 then
    (if code % 4 = 1 then Ext.one else if code % 4 = 3 then .fin true 1 0 else Ext.zero)
  else if c = 11 then .fin (decide (code % 2 = 1)) 1 0
  else (fmtOf c).decode code

/-- A value times the MX scale byte e: 2^(e - 127), NaN for 0xFF (R167). -/
def scaled (scale : Nat) (x : Ext) : Ext :=
  if scale = 255 then .nan
  else match x with
    | .fin n m e => .fin n m (e + (scale : Int) - 127)
    | y => y

/-- The code stored for a value in a format that is not MX (R112, R171, R172). -/
def storeCode (c rnd u : Nat) (x : Ext) : Nat :=
  if c = 8 then ((int8Round rnd u x) % 256).toNat
  else if c = 11 then (if x.isNeg then 1 else 0)
  else (fmtOf c).round rnd u x

/-- Largest finite magnitude of a format as an exact value (R183 SAT). -/
def maxFin (c : Nat) : Ext := (fmtOf c).decode (fmtOf c).maxMag

/-- What one stored element adds to the counters of its tag (R183): exact x, code stored, and
whether R173 clamped the block's scale. -/
def countElem (c : Nat) (x : Ext) (reads0 clamp : Bool) : Counts :=
  { elem := 1
    zero := if x.isZero then 1 else 0
    ufz := if !x.isZero && !x.isNan && reads0 then 1 else 0
    sat := if x.isNan || x.isInf then 0
           else if clamp then 1
           else if c = 8 then (if Ext.gt x (.fin false 127 0) || Ext.gt (.fin true 128 0) x then 1 else 0)
           else if c = 11 then 0
           else if Ext.gt x.mag (maxFin c) then 1 else 0
    nan := if x.isNan then 1 else 0, trunc := 0, shx := 0 }

/-- Sum of counts. -/
def Counts.plus (a b : Counts) : Counts :=
  { elem := a.elem + b.elem, zero := a.zero + b.zero, ufz := a.ufz + b.ufz, sat := a.sat + b.sat,
    nan := a.nan + b.nan, trunc := a.trunc + b.trunc, shx := a.shx + b.shx }

/-- emax of R173. -/
def mxEmax (c : Nat) : Int := if c = 5 then 8 else if c = 6 then 15 else 2

/-- The scale exponent X of a block before clamping (R173). -/
def mxX (c : Nat) (xs : List Ext) : Int :=
  maxInt 0 ((xs.filter (fun x => !x.isZero)).map Ext.log2) - mxEmax c

/-- The rounding of an element of an MX block: beyond the largest magnitude it saturates in every mode,
whatever codes the format has (R172, R173). -/
def mxRound (c rnd u : Nat) (x : Ext) : Nat := ({ fmtOf c with hasInf := false } : FFmt).round rnd u x

/-- One MX block (R173): scale byte, element codes, counts. `us` are the draws of its elements. -/
def mxBlock (c rnd : Nat) (us : List Nat) (xs : List Ext) : Nat × List Nat × Counts :=
  if xs.any (fun x => x.isNan || x.isInf) then
    (255, xs.map (fun _ => 0), { Counts.none with elem := xs.length, nan := xs.length })
  else if xs.all Ext.isZero then
    (0, xs.map (fun x => (fmtOf c).sign x.isNeg 0),
      { Counts.none with elem := xs.length, zero := xs.length })
  else
    let x0 := mxX c xs
    let x1 := min (max x0 (-127)) 127
    let clamp := decide (127 < x0)
    let ys := xs.map (fun x => match x with | .fin n m e => Ext.fin n m (e - x1) | y => y)
    let codes := (ys.zip us).map (fun p => mxRound c rnd p.2 p.1)
    let cnt := ((xs.zip ys).zip codes).foldl (fun a p =>
      let one := countElem c p.1.2 ((fmtOf c).decode p.2).isZero clamp
      a.plus one) Counts.none
    ((x1 + 127).toNat, codes, cnt)

/-! ## The rounding generator (R174) -/

/-- One round of Philox-4x32 on (c0, c1, c2, c3) with key (k0, k1). -/
def philoxRound (k : Nat × Nat) (c : Nat × Nat × Nat × Nat) : Nat × Nat × Nat × Nat :=
  let p0 := 0xD2511F53 * c.1
  let p1 := 0xCD9E8D57 * c.2.2.1
  ((p1 >>> 32) ^^^ c.2.1 ^^^ k.1, p1 % 2 ^ 32, (p0 >>> 32) ^^^ c.2.2.2 ^^^ k.2, p0 % 2 ^ 32)

/-- n rounds, the key bumped between rounds. -/
def philoxRun : Nat → Nat × Nat → Nat × Nat × Nat × Nat → Nat × Nat × Nat × Nat
  | 0, _, c => c
  | n + 1, k, c =>
    philoxRun n ((k.1 + 0x9E3779B9) % 2 ^ 32, (k.2 + 0xBB67AE85) % 2 ^ 32) (philoxRound k c)

/-- Philox-4x32-10. -/
def philox (k0 k1 c0 c1 c2 c3 : Nat) : Nat × Nat × Nat × Nat :=
  philoxRun 10 (k0, k1) (c0 % 2 ^ 32, c1 % 2 ^ 32, c2 % 2 ^ 32, c3 % 2 ^ 32)

/-- u: bits [31:8] of the first output word (R174). -/
def draw (seed salt c0 c1 c2 : Nat) : Nat :=
  (philox (seed % 2 ^ 32) (seed / 2 ^ 32) c0 c1 c2 salt).1 >>> 8

/-! ## Sums -/

/-- The block sum of R88: exact but for the truncation 69 binades below the largest product;
the second part says whether anything was truncated. -/
def blockSum (ps : List Ext) : Ext × Bool :=
  if ps.any Ext.isNan || (ps.any (fun p => p == .inf false) && ps.any (fun p => p == .inf true))
  then (.nan, false)
  else if ps.any Ext.isInf then (.inf (ps.any (fun p => p == .inf true)), false)
  else if ps.all Ext.isZero then (Ext.zero, false)
  else
    let q := maxInt 0 ((ps.filter (fun x => !x.isZero)).map Ext.log2) - 69
    let ts := ps.map (fun p => if p.isZero then (Ext.fin false 0 q, false) else Ext.trunc q p)
    -- every kept term is a multiple of 2^q
    let t := ts.foldl (fun a p => a + Ext.units q p.1) (0 : Int)
    (Ext.ofUnits q t false, ts.any Prod.snd)

/-- Accumulate blocks of 32 into an FP32 running value, one rounding a block (R88, R119). -/
def accBlocks (c : W32) (blocks : List (List Ext)) : W32 × Bool :=
  blocks.foldl (fun a b =>
    let t := blockSum b
    (rne (Ext.add (val a.1) t.1), a.2 || t.2)) (c, false)

/-- The row sum of R119 over values in ascending order, in beats of 32. -/
def rowSum (xs : List Ext) : W32 × Bool := accBlocks 0 (chunksOf 32 xs.length xs)

/-- The row maximum of R119: exact, NaN wins, +0 above -0. -/
def rowMax (xs : List Ext) : Ext :=
  match xs with
  | [] => .inf true
  | x :: r => r.foldl Ext.emax x

/-- Fused a * b + c, rounded once into FP32. -/
def fma32 (a b c : W32) : W32 := rne (Ext.add (Ext.mul (val a) (val b)) (val c))

/-- The master value of a record (R177): head h and signed tail t. -/
def master (h : Nat) (t : W32) : Ext :=
  match bfVal h with
  | .fin n m e =>
    let ex : Int := if (h / 128) % 256 = 0 then -126 else ((h / 128) % 256 : Int) - 127
    Ext.add (.fin n m e) (Ext.ofUnits (ex - 39) t.toInt n)
  | y => y

/-- The unbiased exponent E of a head (R177). -/
def headExp (h : Nat) : Int := if (h / 128) % 256 = 0 then -126 else ((h / 128) % 256 : Int) - 127

/-- BF16 to nearest with ties toward +infinity, overflow as RND 0 (R178, R172). -/
def bfTiesUp (v : Ext) : Nat :=
  let h := bf16.round 0 0 v
  let down := bf16.round 2 0 v
  -- the neighbours of v are `down` (toward zero) and the next magnitude code
  let up := down + 1
  match bfVal down, bfVal up with
  | .fin a m e, .fin b n f =>
    let dlo := Ext.mag (Ext.sub v (.fin a m e))
    let dhi := Ext.mag (Ext.sub (.fin b n f) v)
    if Ext.cmp dlo dhi = 0 ∧ !dlo.isZero then (if v.isNeg then down else up) else h
  | _, _ => h

/-- The next BF16 value above (R178). -/
def bfNext (h : Nat) : Nat :=
  if h = 0x8000 then 0x0001 else if 0x8000 < h then h - 1 else h + 1

/-- rec_set of R178: head and tail that store an exact value, and whether the head saturated. A carry that makes the
head infinite saturates it too, with the tail 0 of an infinite head (DEDUCED, log 125). -/
def recSet (v : Ext) : Nat × W32 × Bool :=
  if v.isNan then (0x7FC0, 0, false)
  else
    let h := bfTiesUp v
    match bfVal h with
    | .fin a m e =>
      let tail := fun (h : Nat) (hv : Ext) =>
        match Ext.sub v hv with
        | .fin n k x => Ext.roundInt (.fin n k (x - headExp h + 39))
        | _ => 0
      let t := tail h (.fin a m e)
      if t = 2 ^ 31 then
        let h' := bfNext h
        (h', BitVec.ofInt 32 (tail h' (bfVal h')), (bfVal h').isInf)
      else (h, BitVec.ofInt 32 t, false)
    | _ => (h, 0, !v.isInf)

end Sys2Proof.Machine
end

