-- ==== Sys2Proof/Machine/Ops.lean ====
section
/-! DEFINITION. Shared operations: registers and the Ledger, memory, counters, and the job fault of R46. -/

namespace Sys2Proof.Machine

/-- What a meaning answers. -/
abbrev Res := Host.Outcome State Fault Refusal

/-! ## Pages and registers (R450 to R462) -/

/-- BAR0 offset of a register (R450). -/
def at' (page off : Nat) : Nat := page * 4096 + off

def pgBUP : Nat := 0x000
def pgRPR : Nat := 0x001
def pgLDG : Nat := 0x002
def pgHST : Nat := 0x003
def pgMGT : Nat := 0x004
def pgSYNC : Nat := 0x005
def pgCLK : Nat := 0x006
def pgPWR : Nat := 0x007
def pgDST : Nat := 0x008
def pgSCH : Nat := 0x009
def pgCUS : Nat := 0x00A
def pgFUS : Nat := 0x00B
def pgTOP : Nat := 0x00C
def pgCIR : Nat := 0x00D
def pgRTR : Nat := 0x00E
def pgQP : Nat := 0x00F
def pgOPT : Nat := 0x010
def pgLNK (p : Nat) : Nat := 0x018 + p
def pgQD (q : Nat) : Nat := 0x1000 + 0x100 * q
def pgMC (q st : Nat) : Nat := pgQD q + 1 + st
def pgUE (q st : Nat) : Nat := pgQD q + 4 + st
def pgCLU (q c : Nat) : Nat := pgQD q + 0x10 + 4 * c
def pgRE (q c : Nat) : Nat := pgQD q + 0x11 + 4 * c
def pgSHW (q c : Nat) : Nat := pgQD q + 0x12 + 4 * c
def pgRT (q c : Nat) : Nat := pgQD q + 0x13 + 4 * c

/-- Kinds of page: block code of R461 and R462, 0 for an unassigned page. -/
def pageCode (p : Nat) : Nat :=
  if p ≤ 0x010 then p + 1
  else if 0x018 ≤ p ∧ p ≤ 0x01D then 0x12
  else if 0x1000 ≤ p ∧ p < 0x1400 then
    let n := p % 0x100
    if n = 0 then 0x20
    else if n ≤ 3 then 0x21
    else if n ≤ 6 then 0x22
    else if 0x10 ≤ n ∧ n < 0x50 then 0x30 + n % 4
    else 0
  else 0

/-- Reset value of a register the model keeps in `regs` (R50, R190, R298, R299, R327, R418, R448; 0 for
every other, log 4). -/
def regReset (off : Nat) : W32 :=
  let p := off / 4096
  let o := off % 4096
  let c := pageCode p
  if c = 0x0A then (if 0x100 ≤ o ∧ o < 0x200 ∧ o % 0x40 = 0x10 then 10000 else 0)
  else if c = 0x32 then (if o = 0x100 then 0x80060040 else 0)
  else if c = 0x12 then (if 0x100 ≤ o ∧ o < 0x200 ∧ o % 0x40 = 0x0C then 256 else 0)
  else if c = 0x0F then (if o = 0x110 then 1000 else 0)
  else if c = 0x11 then (if o = 0x100 then 3 else if o = 0x104 then 200 else 0)
  else if c = 0x05 then (if o = 0x10C then 1000 else 0)
  else if c = 0x07 then (if o = 0x104 then 0x00100000 else 0)
  else 0

/-- Read a register kept in `regs`. -/
def reg (s : State) (off : Nat) : W32 := tget (regReset off) s.regs off

/-- Set a register kept in `regs`. -/
def setReg (s : State) (off : Nat) (v : W32) : State :=
  { s with regs := tput (regReset off) s.regs off v }

/-- Add to a saturating counter (R14). -/
def bump (s : State) (off n : Nat) : State :=
  setReg s off (BitVec.ofNat 32 (min 0xFFFFFFFF ((reg s off).toNat + n)))

/-- Something leaves the module. -/
def emit (s : State) (o : Out) : State := { s with out := o :: s.out }

/-- A fresh number for a free value (log 5). -/
def fresh (s : State) : State := { s with draws := s.draws + 1 }

/-! ## Interrupts (R431, R458, R460) -/

/-- MSI-X vector of a page's interrupt bit (R460). -/
def vectorOf (page b : Nat) : Nat :=
  if page = pgSCH then 2 + b % 4
  else if page = pgHST then 6 + b
  else if page = pgLDG then 1
  else if page = pgCUS then 10
  else if page = pgSYNC then 11
  else 0

/-- A page's event sets bit `b` of its _INT_STAT; a bit that becomes 1 while enabled signals its
vector, a bit that stays set signals nothing more (R458). -/
def raiseInt (s : State) (page b : Nat) : State :=
  let st := reg s (at' page 0x10)
  if bit st b then s
  else
    let s1 := setReg s (at' page 0x10) (BitVec.ofNat 32 (st.toNat ||| 2 ^ b))
    if bit (reg s (at' page 0x14)) b then emit s1 (.msix (vectorOf page b)) else s1

/-! ## Ledger (R437, R438, R455) -/

def sevWarning : Nat := 1
def sevError : Nat := 2
def sevFault : Nat := 3

/-- Hand an entry to the Ledger: counted in the page's _ERR_CNT from severity Error on (R455),
waiting for its commit, or dropped at a full source buffer of 4 (R438). -/
def post (s : State) (src sev code : Nat) (acc : BitVec 12) (d0 d1 : W32) : State :=
  let s := if 2 ≤ sev then bump s (at' src 0x18) 1 else s
  if 4 ≤ (s.ldg.wait.filter (fun e => e.src == src)).length then
    let s := bump s (at' pgLDG 0x10C) 1
    { s with ldg := { s.ldg with loss := if s.ldg.loss.contains src then s.ldg.loss else src :: s.ldg.loss } }
  else
    let e : Entry := { dst := s.clk.dst, fine := s.clk.fine, sev := sev, loss := false, src := src,
                       code := code, acc := acc, d0 := d0, d1 := d1, seq := 0 }
    { s with ldg := { s.ldg with wait := s.ldg.wait ++ [e] } }

/-- Root ticks in a millisecond and a microsecond (R7: 6.0 GHz). -/
def msTicks : Nat := 6000000
def usTicks : Nat := 6000

/-- An access refused under R423: counted, and logged at most once per 1 ms (R423, R445). -/
def badAcc (s : State) (bar off : Nat) : State :=
  let s := bump s (at' pgHST 0x104) 1
  let quiet := match s.ldg.badAcc with | none => false | some t => decide (s.clk.dst < t + msTicks)
  if quiet then s
  else
    let s := post s pgHST sevWarning 0x1201 0
      (BitVec.ofNat 32 (bar % 8 * 2 ^ 29 + off % 2 ^ 29)) 0
    { s with ldg := { s.ldg with badAcc := some s.clk.dst } }

/-- A write that a rule tells to ignore and count under R423. -/
def badWrite (s : State) (page off : Nat) : State := badAcc s 0 (at' page off)

/-- The root is running: powered, past step 4 of bring-up, and neither XTAL_A nor the root loop has
stopped (R376, R402). -/
def rootRuns (s : State) : Bool :=
  s.bup.railsOn && decide (5 ≤ s.bup.phase) && !bit s.clk.stopped 0 && !bit s.clk.stopped 5

/-! ## Repair map (R381 to R386) -/

/-- A physical core is bad by either map (R383). -/
def coreBad (s : State) (q cl k : Nat) : Bool :=
  (s.bup.fused ++ s.bup.soft).any
    (fun u => u.q.val == q && u.cl.val == cl && (match u.core with | some c => c.val == k | none => false))

/-- A physical cluster is bad as a whole by either map (R383). -/
def clusterBad (s : State) (q cl : Nat) : Bool :=
  (s.bup.fused ++ s.bup.soft).any (fun u => u.q.val == q && u.cl.val == cl && u.core.isNone)

/-- How many of its 100 cores are bad. -/
def badCores (s : State) (q cl : Nat) : Nat :=
  ((((s.bup.fused ++ s.bup.soft).filter (fun u => u.q.val == q && u.cl.val == cl)).filterMap
    (fun u => u.core.map Fin.val)).eraseDups).length

/-- Serviceable under R384: not failed, at least 96 good cores. -/
def serviceable (s : State) (q cl : Nat) : Bool :=
  !clusterBad s q cl && decide (badCores s q cl ≤ 4)

/-- A stack of the quadrant failed training: it offers no clusters (R378). -/
def stackDead (s : State) (q : Nat) : Bool :=
  bit s.bup.deadStk (3 * q) || bit s.bup.deadStk (3 * q + 1) || bit s.bup.deadStk (3 * q + 2)

/-- Physical clusters behind the logical ones, in order (R384). -/
def placement (s : State) (q : Nat) : List Nat :=
  if stackDead s q then [] else ((List.range 17).filter (serviceable s q)).take 16

/-- Logical clusters that a quadrant offers (R17). -/
def offered (s : State) (q : Nat) : Nat := (placement s q).length

/-- Physical cores behind the logical ones of a physical cluster, in order (R384). -/
def coresOf (s : State) (q cl : Nat) : List Nat :=
  ((List.range 100).filter (fun k => !coreBad s q cl k)).take 96

/-- Physical core of a logical core (R384). -/
def physCore (s : State) (q c k : Nat) : Nat :=
  (coresOf s q ((placement s q).getD c 0)).getD k 0

/-- A page of a logical cluster that its quadrant does not offer (R450). -/
def pageAbsent (s : State) (p : Nat) : Bool :=
  decide (pageCode p = 0)
  || (decide (0x30 ≤ pageCode p) && decide (offered s (p / 0x100 % 0x10) ≤ (p % 0x100 - 0x10) / 4))

/-- The page's block is in reset (R391, R454): scope 1 core resets no page; the bring-up, repair and
Ledger pages never are; the Datestamp, custody, fuse, host, management, SYNC, clock, power and photonic
pages only by a module reset (custody state is cleared by a hub reset, its page stays, R454). -/
def pageRst (s : State) (p : Nat) : Bool :=
  match s.bup.rst with
  | none => false
  | some r =>
    let q := p / 0x100 % 0x10
    if p < 3 then false
    else if r.scope = 5 then true
    else if r.scope = 4 then !([3, 4, 5, 6, 7, 8, 0xA, 0xB, 0x10].contains p)
    else if r.scope = 3 then decide (0x1000 ≤ p) && q == r.q.val
    else if r.scope = 2 then decide (0x1000 ≤ p) && q == r.q.val && decide (p % 0x100 / 4 = 4 + r.cl)
    else false

/-- A quadrant is in a quadrant, hub or module reset (R391). -/
def quadRst (s : State) (q : Nat) : Bool :=
  match s.bup.rst with
  | none => false
  | some r => decide (4 ≤ r.scope) || (decide (r.scope = 3) && r.q.val == q)

/-- The page answers with its live registers (R377, R454). -/
def pageLive (s : State) (p : Nat) : Bool := (decide (p < 3) || s.bup.isLocal) && !pageRst s p

/-- A host write to a register, 4 B aligned: nothing before BAR0 decodes (R377), ignored at an absent
page (R450), ignored and counted at a page that is not in service (R377, R454), else `f` acts. -/
def hostWrite (s : State) (page off : Nat) (f : State → State) : State :=
  if !s.bup.bar0 || pageAbsent s page then s
  else if pageLive s page then f s else badWrite s page off

/-- The placement section as a list of unit numbers (R385). -/
def placementList (s : State) : List Nat :=
  [0, 1, 2, 3].flatMap (fun q => placement s q ++ (placement s q).flatMap (coresOf s q))

/-- RPR_CRC (R385). -/
def repairCrc (s : State) : W32 := Config.placementCrc (placementList s)

/-- Manhattan distance of two physical cores on the 10 x 10 grid (R160). -/
def gridDist (a b : Nat) : Nat :=
  (a / 10 - b / 10) + (b / 10 - a / 10) + (a % 10 - b % 10) + (b % 10 - a % 10)

/-! ## Tables of the state -/

def getJob (s : State) (j : Nat) : Job := tget Job.reset s.jobs j
def setJob (s : State) (j : Nat) (x : Job) : State := { s with jobs := tput Job.reset s.jobs j x }
def getCore (s : State) (c : CoreId) : Core := tget Core.reset s.cores c.key
def setCore (s : State) (c : CoreId) (x : Core) : State :=
  { s with cores := tput Core.reset s.cores c.key x }
def getClu (s : State) (k : Nat) : Cluster := tget Cluster.reset s.clus k
def setClu (s : State) (k : Nat) (x : Cluster) : State :=
  { s with clus := tput Cluster.reset s.clus k x }
def getLink (s : State) (g : Nat) : Link := tget (Link.reset (g % 4)) s.links g
def setLink (s : State) (g : Nat) (x : Link) : State :=
  { s with links := tput (Link.reset (g % 4)) s.links g x }
def getMc (s : State) (m : Nat) : Mc := tget Mc.reset s.mcs m
def setMc (s : State) (m : Nat) (x : Mc) : State := { s with mcs := tput Mc.reset s.mcs m x }
def getUe (s : State) (e : Nat) : Ue := tget Ue.reset s.ues e
def setUe (s : State) (e : Nat) (x : Ue) : State := { s with ues := tput Ue.reset s.ues e x }
def getGrp (s : State) (g : Nat) : GrpEntry := tget GrpEntry.free s.grps g
def setGrp (s : State) (g : Nat) (x : GrpEntry) : State :=
  { s with grps := tput GrpEntry.free s.grps g x }
def getCtx (s : State) (e : Nat) : Ctx := tget Ctx.free s.ctxs e
def setCtx (s : State) (e : Nat) (x : Ctx) : State := { s with ctxs := tput Ctx.free s.ctxs e x }
def getLane (s : State) (l : Nat) : Lane := tget Lane.reset s.lanes l
def setLane (s : State) (l : Nat) (x : Lane) : State :=
  { s with lanes := tput Lane.reset s.lanes l x }
def getCell (s : State) (x : Nat) : LaneCell := tget LaneCell.reset s.cells x
def setCell (s : State) (x : Nat) (c : LaneCell) : State :=
  { s with cells := tput LaneCell.reset s.cells x c }
def getRing (s : State) (r : Nat) : Ring := tget Ring.reset s.rings r
def setRing (s : State) (r : Nat) (x : Ring) : State :=
  { s with rings := tput Ring.reset s.rings r x }

/-! ## Jobs (R33, R46, R54) -/

/-- Quadrants of an image's mask. -/
def imgQuads (i : Image) : List Nat := [0, 1, 2, 3].filter (fun q => bit i.quads q)

/-- The global address of the image that slot `j` names (R53). -/
def imgAddr (s : State) (j : Nat) : Nat :=
  (reg s (at' pgSCH (0x11C + 0x40 * j))).toNat + 2 ^ 32 * (reg s (at' pgSCH (0x120 + 0x40 * j))).toNat

/-- Quadrants that the job of a slot stands on: those of its image, or before the image is read
the one that holds it (R53, R54). -/
def jobQuads (s : State) (j : Nat) : List Nat :=
  match (getJob s j).img with
  | some i => imgQuads i
  | none => if (getJob s j).st = .admitting then [(imgAddr s j >>> 39) % 4] else []

/-- A slot holds a resident job while ADMITTING, ADMITTED or RUNNING (R54). -/
def resident (st : JobSt) : Bool :=
  match st with
  | .admitting | .admitted | .running => true
  | _ => false

/-- The code that a quadrant's forecast has at an instant. -/
def aheadAt (fs : List Forecast) (q : Nat) (t : Int) : Nat :=
  match fs.find? (fun f => decide (f.q.val = q) && decide ((f.at' : Int) ≤ t)) with
  | some f => f.code.toNat
  | none => 0

/-- Slot of the job resident on a quadrant. -/
def residentOn (s : State) (q : Nat) : Option Nat :=
  [0, 1, 2, 3].find? (fun j => resident (getJob s j).st && (jobQuads s j).contains q)

/-- Slot of the job running on a quadrant. -/
def runningOn (s : State) (q : Nat) : Option Nat :=
  [0, 1, 2, 3].find? (fun j => (getJob s j).st == .running && (jobQuads s j).contains q)

/-- Slot of the running job of an accession. -/
def runningAcc (s : State) (acc : Nat) : Option Nat :=
  [0, 1, 2, 3].find? (fun j => (getJob s j).st == .running && (getJob s j).acc.toNat == acc)

/-- Slot in which a job of an accession is resident; accession 0 names none (R53: the accession of an
image is known once its header is read). -/
def residentAcc (s : State) (acc : Nat) : Option Nat :=
  [0, 1, 2, 3].find? (fun j => decide (acc ≠ 0) && resident (getJob s j).st && (getJob s j).acc.toNat == acc)

/-- Job time (R33): the Datestamp less H, standing still at E during a hold (R42). -/
def jobTime (s : State) (j : Job) : Nat := if j.held then j.e else s.clk.dst - j.h

/-- Accession of a slot. -/
def accOf (s : State) (j : Nat) : BitVec 12 := (getJob s j).acc

/-- Slot of a faulted job whose units on the quadrant have not stopped yet (R46). -/
def stoppingOn (s : State) (q : Nat) : Option Nat :=
  match tget none s.stops q with
  | some j => if (getJob s j).st = .faulted then some j else none
  | none => none

/-- Slot for which the units of a quadrant work: the resident job, or one that faulted and whose units
stop at the next core edge. -/
def jobOn (s : State) (q : Nat) : Option Nat :=
  match residentOn s q with
  | some j => some j
  | none => stoppingOn s q

/-- Accession of that job; 0 if none. -/
def quadAcc (s : State) (q : Nat) : BitVec 12 :=
  match jobOn s q with
  | some j => accOf s j
  | none => 0

/-- The segment that a slot's job is in. -/
def segNow (s : State) (j : Nat) : Option Seg :=
  match (getJob s j).img with
  | some i => if (getJob s j).seg = 0 then none else i.segs[(getJob s j).seg - 1]?
  | none => none

/-- Core cycles from the segment's origin to now, in job time. -/
def segOff (s : State) (j : Nat) (g : Seg) : Nat :=
  (jobTime s (getJob s j) - ((getJob s j).s + g.origin)) / 4

/-- The slot tables grant a use in this cycle (R21, R147, R150, R163). Job time stands still in a hold, and
what is waited for must still land: then every slot that the segment reserves counts as coming round (log 7). -/
def slotNow (s : State) (j : Nat) (use : SlotUse) (key : Nat) : Bool :=
  match segNow s j with
  | none => false
  | some g => g.slots.any (fun w => w.use == use && w.key == key
      && ((getJob s j).held || (decide (w.lo ≤ segOff s j g) && decide (segOff s j g < w.hi))))

/-- Path of lines from quadrant q to r in this segment (R160); through the hub where the tables name none
or a link that the pair lacks. -/
def pathOf (s : State) (j q r : Nat) : QPath :=
  match segNow s j with
  | some g => match tget .hub g.paths (4 * q + r) with
    | .link => if q + r = 3 then .hub else .link
    | .via m => if q + r = 3 ∧ m.val ≠ q ∧ m.val ≠ r then .via m else .hub
    | .hub => .hub
  | none => .hub

/-- Accession that owns a quadrant (R351). -/
def owner (s : State) (q : Nat) : BitVec 12 := tget 0 s.cus.own q

/-! ## Memory (R144 to R149, R367) -/

/-- Region of a module address: the quadrant of an HBM byte, else space, quadrant, cluster, core. -/
def regionOf (a : Nat) : Nat := if a < 2 ^ 47 then a >>> 39 else a >>> 28

/-- How often the bytes of the region became unknown. -/
def gen (s : State) (a : Nat) : Nat := tget 0 s.stale (regionOf a)

/-- What a byte reads as that nothing has written since its region was zeroed or became unknown
(log 6). -/
def unlisted (s : State) (a : Nat) : Byte :=
  if gen s a = 0 then 0 else Config.freeByte (gen s a) a

/-- Read one byte of memory. -/
def rdByte (s : State) (a : Nat) : Byte := tget (unlisted s a) s.mem a

/-- Write bytes of memory in order; a byte equal to what an unlisted one reads as is not listed. -/
def wrCells (s : State) (cs : List Host.Cell) : State :=
  { s with mem := cs.foldl (fun m c => tput (unlisted s c.1) m c.1 c.2) s.mem }

/-- Canonical form of the memory: addresses rise, nothing listed equals what it would read as. -/
def memWf (s : State) : Bool :=
  rising s.mem && s.mem.all (fun e => decide (e.2 ≠ unlisted s e.1))

/-- Zero the regions that a test picks: nothing listed there, and unlisted reads 0 (R149). -/
def zeroRegions (s : State) (p : Nat → Bool) : State :=
  { s with
    mem := s.mem.filter (fun e => !p (regionOf e.1))
    stale := s.stale.filter (fun e => !p e.1)
    flaws := s.flaws.filter (fun e => !p (regionOf e.1)) }

/-- The bytes of one region become unknown (R367, R391). -/
def loseRegion (s : State) (r : Nat) : State :=
  { s with
    mem := s.mem.filter (fun e => regionOf e.1 != r)
    stale := tput 0 s.stale r (tget 0 s.stale r + 1) }

def quadBits (q : Nat) : Nat := q * 2 ^ 39
def cluBits (q c : Nat) : Nat := q * 2 ^ 39 + c * 2 ^ 35
/-- Linear HBM byte of a stack (space 0x0). -/
def hbmAddr (q st a : Nat) : Nat := quadBits q + st * 2 ^ 37 + a
/-- Interleaved HBM byte (space 0x1), on its linear byte (R145). -/
def hbmInter (q a : Nat) : Nat :=
  hbmAddr q (a / 512 % 3) (a / 512 / 3 * 512 + a % 512)
/-- Pool byte (space 0x2). -/
def poolAddr (q c a : Nat) : Nat := 2 * 2 ^ 47 + cluBits q c + a
/-- Shelf byte (space 0x3). -/
def shelfAddr (c : CoreId) (a : Nat) : Nat :=
  3 * 2 ^ 47 + cluBits c.cl.q.val c.cl.c.val + c.k.val * 2 ^ 28 + a
/-- Folio byte (space 0x4). -/
def folioAddr (c : CoreId) (f a : Nat) : Nat :=
  4 * 2 ^ 47 + cluBits c.cl.q.val c.cl.c.val + c.k.val * 2 ^ 28 + f * 2 ^ 13 + a
/-- Marginalia store byte, in a space of the model's own: R144 gives it no global address. -/
def margAddr (q c a : Nat) : Nat := 16 * 2 ^ 47 + cluBits q c + a
/-- Byte of entry n of a core's bundle queue of 64 entries, in a space of the model's own likewise. -/
def bqAddr (c : CoreId) (n : Nat) : Nat :=
  17 * 2 ^ 47 + cluBits c.cl.q.val c.cl.c.val + c.k.val * 2 ^ 28 + n % 64 * 32

/-- Space, quadrant, cluster of a module address. -/
def spaceOf (a : Nat) : Nat := a >>> 47
def quadOf (a : Nat) : Nat := (a >>> 39) % 4
def cluOf (a : Nat) : Nat := (a >>> 35) % 16
def stackOf (a : Nat) : Nat := (a >>> 37) % 4

/-- Bytes at rising addresses. -/
def rdBytes (s : State) (a n : Nat) : List Byte := (List.range n).map (fun i => rdByte s (a + i))

/-- Number held in n bytes (R479). -/
def rdNum (s : State) (a n : Nat) : Nat := ofBytes (rdBytes s a n)

/-- Word whose check code covers a byte: 32 B in HBM, 8 B in SRAM (R148, R152). -/
def eccUnit (a : Nat) : Nat := if spaceOf a = 0 then a / 32 * 32 else a / 8 * 8

/-- Who makes an access: the accession and job slot it works for, or neither (R152). -/
structure Who where
  acc : BitVec 12
  job : Option Nat
deriving DecidableEq, Repr

/-- Stop a core of a faulted job (R46): queues and operations in flight are dropped. -/
def Core.stopped (c : Core) : Core :=
  { c with st := .fault, bq := [], loop := none, missed := false, tdPend := [], mxFly := [],
           stFly := [], mq := [], mvFly := [], tdFly := [], mxBusy := 0, stBusy := 0, mvFree := 0 }

/-- Stop a command unit of a faulted job. -/
def CmdUnit.stopped (u : CmdUnit) : CmdUnit := { u with q := [], fly := [], busy := 0, done := true }

/-- Stop a cluster of a faulted job: control core, row engine, route unit. -/
def Cluster.stopped (c : Cluster) : Cluster :=
  { c with on := false, stall := none, re := c.re.stopped, rt := c.rt.stopped, gate := none, sums := [] }

/-- A context released by a fault: state 4, its low and high steps stay readable (R46, R261, R263). -/
def Ctx.released (c : Ctx) : Ctx := { Ctx.free with st := .released, lo := c.lo, hi := c.hi }

/-- 256-byte cells that a packet takes (R293: header and payload in cells of 256 bytes). -/
def pktCells (p : Packet) : Nat := cdiv (32 + p.pay.length) 256

/-- A unit is written whole: all of an HBM unit of 32 B, or the whole 64 B line around an SRAM word. -/
def coversUnit (cs : List Host.Cell) (u : Nat) : Bool :=
  let n := if spaceOf u = 0 then 32 else 64
  let b := u / n * n
  (List.range n).all (fun i => cs.any (fun c => c.1 == b + i))

/-- First data word of R240: engine (0xEF the schedule engine) and OFFSET. -/
def d0Ue (e off : Nat) : W32 :=
  BitVec.ofNat 32 ((if e < 12 then 0xF0 + e else 0xEF) * 2 ^ 24 + off % 2 ^ 24)

/-- Cells held by the injection queue of a lane group. -/
def injCells (l : Link) : Nat := sumNat (l.inj.map pktCells)

/-- Release what the job of slot `j` holds in the hub, by accession and quadrants (R46). -/
def releaseHub (s : State) (j : Nat) (qs : List Nat) : State :=
  let acc := accOf s j
  let freed := sumNat ((s.links.filter (fun e => e.2.owner == acc)).map (fun e => injCells e.2))
  let s := bump s (at' pgQP 0x130) freed
  { s with
    ctxs := s.ctxs.map (fun e => if e.2.owner ≠ 0 ∧ e.2.job = j then (e.1, e.2.released) else e)
    cready := s.cready.filter (fun r => (getCtx s r.1).owner = 0 ∨ (getCtx s r.1).job ≠ j)
    grps := s.grps.filter (fun e => !(e.2.owner != 0 && e.2.job == j))
    links := s.links.map (fun e => if e.2.owner = acc then (e.1, { e.2 with inj := [], late := [] }) else e)
    fab := { s.fab with
      msgs := s.fab.msgs.filter (fun m => m.acc != acc)
      gets := s.fab.gets.filter (fun e => !qs.contains e.1)
      getQ := s.fab.getQ.filter (fun r => !qs.contains r.q.val)
      arrive := s.fab.arrive.filter (fun a => a.job != j) } }

/-- The units of a quadrant stop: cores, clusters, update engines (R46). -/
def stopQuad (s : State) (q : Nat) : State :=
  let s := { s with
    cores := tmap Core.reset (fun k c => if k / 1536 = q then c.stopped else c) s.cores
    clus := tmap Cluster.reset (fun k c => if k / 16 = q then c.stopped else c) s.clus
    stops := tput none s.stops q none }
  [3 * q, 3 * q + 1, 3 * q + 2].foldl (fun s e => setUe s e { getUe s e with fly := none }) s

/-- Fault the job of slot `j` (R46, R54): contexts, group entries, message entries, GET tags and injection
queues are released, FAULT is raised, and the units of its quadrants stop at their next core edge; where
job time had not begun there is nothing in flight to stop. -/
def jobFault (s : State) (j : Nat) : State :=
  let job := getJob s j
  if !resident job.st then s
  else
    let qs := jobQuads s j
    let s := releaseHub s j qs
    let s := { s with stops := qs.foldl (fun t q => tput none t q (some j)) s.stops }
    let s := setJob s j { job with st := .faulted, armed := none,
                                   late := [], first := none, adv := [], ctxs := [], grps := [] }
    raiseInt s pgSCH j

/-- Fault the job, if there is one. -/
def faultOpt (s : State) (j : Option Nat) : State :=
  match j with
  | some j => jobFault s j
  | none => s

/-- Both halves of a global address as data words (R164). DESIGN CHOICE: a marginalia store and a bundle queue have
none (R144); their entries carry 0 (log 130). -/
def addrHi (s : State) (a : Nat) : W32 :=
  if 2 ^ 51 ≤ a then 0 else BitVec.ofNat 32 ((s.top.node.toNat * 2 ^ 51 + a) >>> 32)
def addrLo (a : Nat) : W32 := if 2 ^ 51 ≤ a then 0 else BitVec.ofNat 32 a

/-- Page that owns the memory of a module address: the cluster, or the stack's controller. -/
def memPage (a : Nat) : Nat :=
  if spaceOf a = 0 then pgMC (quadOf a) (stackOf a) else pgCLU (quadOf a) (cluOf a)

/-- First data word of the repair codes (R394): quadrant, physical cluster, physical core. -/
def d0Rpr (q cl k : Nat) : W32 := BitVec.ofNat 32 (q % 4 * 2 ^ 30 + cl % 32 * 2 ^ 24 + k % 128 * 2 ^ 16)

/-- A shelf or pool row becomes pending for a spare row (R388), once; a row is the 64 B line (log 44). -/
def pendRow (s : State) (u : Nat) : State :=
  let r := u / 64
  if s.bup.pendRows.contains r then s
  else
    let cl := (placement s (quadOf u)).getD (cluOf u) 0
    let k := if spaceOf u = 3 then (coresOf s (quadOf u) cl).getD ((u >>> 28) % 128) 0 else 0x7F
    let s := post s pgRPR sevWarning 0x1007 0 (d0Rpr (quadOf u) cl k) 0
    { s with bup := { s.bup with pendRows := s.bup.pendRows ++ [r] } }

/-- A core or cluster becomes pending as a soft entry (R388), once. -/
def pendUnit (s : State) (b : BadUnit) : State :=
  if s.bup.pendSoft.contains b || s.bup.soft.contains b then s
  else
    let s := post s pgRPR sevWarning 0x1007 0
      (d0Rpr b.q.val b.cl.val (match b.core with | some k => k.val | none => 0x7F)) 0
    { s with bup := { s.bup with pendSoft := s.bup.pendSoft ++ [b] } }

/-- What an uncorrectable error in SRAM draws on the annex (R388). -/
def annexUe (s : State) (u : Nat) : State :=
  if spaceOf u = 2 ∨ spaceOf u = 3 then pendRow s u
  else if spaceOf u = 4 ∨ spaceOf u = 17 then
    pendUnit s { q := Fin.ofNat 4 (quadOf u), cl := Fin.ofNat 17 ((placement s (quadOf u)).getD (cluOf u) 0),
                 core := some (Fin.ofNat 100 (physCore s (quadOf u) (cluOf u) ((u >>> 28) % 128))) }
  else s

/-- What a corrected error in a word of a shelf or pool row draws on the annex: a second word of the
same row makes it pending (R388). -/
def annexCe (s : State) (u : Nat) : State :=
  if spaceOf u = 2 ∨ spaceOf u = 3 then
    let other := s.bup.ceWords.any (fun w => decide (w / 64 = u / 64) && decide (w ≠ u))
    let s := { s with bup := { s.bup with
      ceWords := if s.bup.ceWords.contains u then s.bup.ceWords else u :: s.bup.ceWords } }
    if other then pendRow s u else s
  else s

/-- An uncorrectable error met by an access (R148, R152): counted, latched, logged as MEM_UE, and
the job faults; an access of no job faults nothing and logs an Error with ACC 0. -/
def memUe (s : State) (w : Who) (u : Nat) : State :=
  let s :=
    if spaceOf u = 0 then
      let p := pgMC (quadOf u) (stackOf u)
      let s := bump s (at' p 0x104) 1
      let s := setReg s (at' p 0x108) (BitVec.ofNat 32 (u % 2 ^ 37))
      setReg s (at' p 0x10C) (BitVec.ofNat 32 (u % 2 ^ 37 / 2 ^ 32))
    else annexUe (bump s (at' (memPage u) 0x184) 1) u
  let s := post s (memPage u) (if w.job.isSome then sevFault else sevError) 0x0707
    (if w.job.isSome then w.acc else 0) (addrHi s u) (addrLo u)
  faultOpt s w.job

/-- Count a corrected error (R148, R152). -/
def memCe (s : State) (u : Nat) : State :=
  if spaceOf u = 0 then bump s (at' (pgMC (quadOf u) (stackOf u)) 0x100) 1
  else annexCe (bump s (at' (memPage u) 0x180) 1) u

/-- Flawed units that a set of addresses touches. -/
def flawsOf (s : State) (as : List Nat) : Tab Nat :=
  if s.flaws.isEmpty then [] else s.flaws.filter (fun f => as.any (fun a => eccUnit a == f.1))

/-- Bytes of an HBM row that a scrub reads at once (PRESUMED: the spec does not say; the page of the HBM family,
log 44). -/
def hbmRow : Nat := 1024

/-- Flawed units of a row of a stack. -/
def rowFlaws (s : State) (m row : Nat) : Tab Nat :=
  s.flaws.filter (fun f => decide (spaceOf f.1 = 0) && 3 * quadOf f.1 + stackOf f.1 == m && f.1 % 2 ^ 37 / hbmRow == row)

/-- The check of a read (R148, R152): corrected errors are counted; at the first uncorrectable
error the read delivers no data and the answer is false. -/
def readCheck (s : State) (w : Who) (as : List Nat) : State × Bool :=
  let fs := flawsOf s as
  let s := (fs.filter (fun f => f.2 == 1)).foldl (fun s f => memCe s f.1) s
  match fs.find? (fun f => f.2 == 2) with
  | some f => (memUe s w f.1, false)
  | none => (s, true)

/-- Store bytes with the check codes of R148 and R152: units written whole lose their error; a
partial write reads and merges, leaves a unit with an uncorrectable error unwritten, logs and
faults. -/
def store (s : State) (w : Who) (cs : List Host.Cell) : State :=
  let fs := flawsOf s (cs.map Prod.fst)
  if fs.isEmpty then wrCells s cs
  else
    let part := fs.filter (fun f => !coversUnit cs f.1)
    let bad := (part.filter (fun f => f.2 == 2)).map Prod.fst
    let s1 := wrCells s (cs.filter (fun c => !bad.contains (eccUnit c.1)))
    let s2 := { s1 with flaws := s1.flaws.filter (fun f => bad.contains f.1 || !(fs.any (fun g => g.1 == f.1))) }
    let s3 := (part.filter (fun f => f.2 == 1)).foldl (fun s f => memCe s f.1) s2
    bad.foldl (fun s u => memUe s w u) s3

/-- 64 B lines that bytes touch (R151, R159). -/
def linesOf (as : List Nat) : List Nat := (as.map (· / 64)).eraseDups

/-- A controller accepts `n` lines of 64 B at Datestamp `t`, or drops the request (R151): the
window of 1,024 network cycles holds at most 786,432 B. -/
def hbmAccept (s : State) (w : Who) (q st t n : Nat) (a : Nat) : State × Bool :=
  let m := getMc s (3 * q + st)
  let wn := t / 2048
  let b := tget 0 m.wins wn + 64 * n
  if 786432 < b then
    let s := bump s (at' (pgMC q st) 0x114) 1
    let s := post s (pgMC q st) (if w.job.isSome then sevFault else sevError) 0x0708 w.acc (addrHi s a) (addrLo a)
    (faultOpt s w.job, false)
  else
    let s := setMc s (3 * q + st)
      { m with wins := tput 0 (m.wins.filter (fun e => s.clk.dst / 2048 ≤ e.1)) wn b }
    let pk := at' (pgMC q st) 0x110
    (setReg s pk (BitVec.ofNat 32 (max (reg s pk).toNat b)), true)

/-! ## Completion counters (R77, R78) -/

def getCtr (s : State) (clu n : Nat) : Ctr := tget Ctr.zero (getClu s clu).cc n

def setCtr (s : State) (clu n : Nat) (c : Ctr) : State :=
  let k := getClu s clu
  setClu s clu { k with cc := tput Ctr.zero k.cc n c }

/-- A fault code raised in a cluster, with its data words, under a page of its blocks: counted in CLU_FAULT_CNT and
logged (R84, R142, R212). -/
def postFault (s : State) (clu page : Nat) (e : Nat × W32 × W32) : State :=
  post (bump s (at' (pgCLU (clu / 16) (clu % 16)) 0x100) 1) page sevFault e.1 (quadAcc s (clu / 16)) e.2.1 e.2.2

/-- Fault codes raised in a cluster; then the job faults. -/
def faultsAt (s : State) (clu page : Nat) (es : List (Nat × W32 × W32)) : State :=
  faultOpt (es.foldl (fun t e => postFault t clu page e) s) (residentOn s (clu / 16))

/-- Fault codes of the cores and the control core, under the cluster's page (R84). -/
def coreFaults (s : State) (clu : Nat) (es : List (Nat × W32 × W32)) : State :=
  faultsAt s clu (pgCLU (clu / 16) (clu % 16)) es

/-- One such code. -/
def coreFault (s : State) (clu code : Nat) (d0 d1 : W32) : State := coreFaults s clu [(code, d0, d1)]

/-- Change DEF (R77, R78): the changes of a core cycle are summed, and applied when it ends; WIN at once. -/
def ctrAdd (s : State) (clu n : Nat) (delta : Int) (win : Option Nat) : State :=
  let c := getCtr s clu n
  let s := setCtr s clu n { c with sum := c.sum + delta, at' := s.clk.dst, win := win.getD c.win }
  { s with dirty := if s.dirty.contains (clu, n) then s.dirty else s.dirty ++ [(clu, n)] }

/-- The core cycle ends for a counter (R78): the sum is applied; where DEF would leave its range the counter keeps
its old value and CTR_RANGE faults the job. -/
def ctrSettle (s : State) (e : Nat × Nat) : State :=
  let c := getCtr s e.1 e.2
  let d := c.deficit + c.sum
  if d < -8388608 ∨ 8388607 < d then
    coreFault (setCtr s e.1 e.2 { c with sum := 0 }) e.1 0x0307 0xFC000000 (BitVec.ofNat 32 e.2)
  else setCtr s e.1 e.2 { c with deficit := d, sum := 0, met := if 0 < c.deficit ∧ d ≤ 0 then c.at' else c.met }

/-- Credit a counter: subtract from DEF (R77). -/
def credit (s : State) (clu n k : Nat) : State := ctrAdd s clu n (-(k : Int)) none

/-- A counter is satisfied when DEF is at most 0, as at the end of the previous core cycle. -/
def ctrMet (s : State) (clu n : Nat) : Bool := decide ((getCtr s clu n).deficit ≤ 0)

end Sys2Proof.Machine
end

