-- ==== Sys2Proof/Machine/Operands.lean ====
section
/-! DEFINITION. Operand forms: bundle slots, scalars, masks, tile descriptors and tiles. -/

namespace Sys2Proof.Machine

/-! ## The bundle (R37, R60, R70, R73, R74, R76) -/

def bnOffset (b : W256) : Nat := fld b 255 232
def bnHP (b : W256) : Bool := bit b 231
def bnWait (b : W256) : Bool := bit b 230
def bnPft (b : W256) : Bool := bit b 229
def bnCtr (b : W256) : Nat := fld b 228 224
/-- Control slot [223:192], matrix [191:128], stream [127:64], move [63:0]. -/
def bnCtl (b : W256) : W32 := BitVec.ofNat 32 (fld b 223 192)
def bnMx (b : W256) : W64 := BitVec.ofNat 64 (fld b 191 128)
def bnSt (b : W256) : W64 := BitVec.ofNat 64 (fld b 127 64)
def bnMv (b : W256) : W64 := BitVec.ofNat 64 (fld b 63 0)
def ctlOp (b : W256) : Nat := fld (bnCtl b) 31 26
def mxOp (b : W256) : Nat := fld (bnMx b) 63 58
def stOp (b : W256) : Nat := fld (bnSt b) 63 58
def mvOp (b : W256) : Nat := fld (bnMv b) 63 58

/-! ## S and M registers as a launch sees them (R61, R62, R64) -/

/-- Newest value of register `r` written at or before job time `t`. -/
def swFind (l : List SWrite) (r t : Nat) : BitVec 96 :=
  match l.find? (fun w => w.reg == r && decide (w.at' ≤ t)) with
  | some w => w.val
  | none => 0

/-- S register seen by a launch at job time `jt`: writes are visible from T + 24 on (R62). -/
def sReg (c : Cluster) (jt r : Nat) : W32 :=
  if r = 0 ∨ jt < 24 then 0 else BitVec.ofNat 32 (swFind c.sw r (jt - 24)).toNat

/-- M register seen by a launch at job time `jt`. -/
def mReg (c : Cluster) (jt m : Nat) : BitVec 96 :=
  if jt < 24 then 0 else swFind c.sw (64 + m) (jt - 24)

/-- This core's slot is masked (R64): MSK[3] set and its bit in M[MSK[2:0]] clear. -/
def maskedBy (c : Cluster) (jt k msk : Nat) : Bool :=
  decide (8 ≤ msk) && !(bit (mReg c jt (msk % 8)) k)

/-- A floating-point scalar operand (R61): immediate BF16 or an S register read as FP32. -/
def sclF (c : Cluster) (jt scl : Nat) : Ext :=
  if scl < 65536 then bfVal scl else val (sReg c jt (scl % 64))

/-- With SCL[16] = 1, SCL[15:6] must be 0 (R61). DESIGN CHOICE: the rule names no code for bits that are not; they raise
ILLEGAL_OP, as a field that must be 0 does under R60; R84 lists R61 beside DESC_RANGE for an integer that does not fit
(log 127). -/
def sclBad (scl : Nat) : Bool := decide (65536 ≤ scl) && decide (scl % 65536 / 64 ≠ 0)

/-! ## Seeds (R174, R175) -/

/-- The seeds of the job that runs on a quadrant. -/
def seedsOf (s : State) (q : Nat) : W256 :=
  match residentOn s q with
  | some j => match (getJob s j).img with | some i => i.seeds | none => 0
  | none => 0

def jobSeed (w : W256) : Nat := fld w 63 0
def modSalt (w : W256) : Nat := fld w 95 64
def stepS (w : W256) : Nat := fld w 101 96
def idxS (w : W256) : Nat := fld w 109 104

/-- Counter word c1 of R174. -/
def c1Of (tag cl q core unit : Nat) : Nat :=
  tag % 1024 + cl * 2 ^ 10 + q * 2 ^ 14 + core * 2 ^ 16 + unit * 2 ^ 23

/-- Draws of one launch in cluster `cl` at job time `jt`. -/
def drawOf (s : State) (cl : Clu) (jt tag core unit : Nat) : Draw :=
  let sd := seedsOf s cl.q.val
  let k := getClu s cl.key
  { seed := jobSeed sd, salt := modSalt sd, step := (sReg k jt (stepS sd)).toNat,
    idx := (sReg k jt (idxS sd)).toNat, c1 := c1Of tag cl.c.val cl.q.val core unit }

/-- u of the element at row r, column c of a destination of COLS columns (R174). -/
def drawAt (d : Draw) (cols r c : Nat) : Nat := draw d.seed d.salt (d.idx + r * cols + c) d.c1 d.step

/-! ## Tile descriptors (R66, R67) -/

/-- A latched tile descriptor (R66). -/
structure Td where
  tag    : Nat
  fmt    : Nat
  tr     : Bool
  spe    : Bool
  wsv    : Bool
  loc    : Nat
  wsh    : Nat
  spm    : Nat
  base   : Nat
  rows   : Nat
  cols   : Nat
  stride : Nat
deriving DecidableEq, Repr

/-- The fields of a descriptor word (R66). -/
def tdOf (w : W128) : Td :=
  { tag := fld w 127 118, fmt := fld w 117 114, tr := bit w 113, spe := bit w 112, wsv := bit w 111,
    loc := fld w 110 109, wsh := fld w 95 82, spm := fld w 81 68, base := fld w 63 50,
    rows := fld w 49 38, cols := fld w 37 26, stride := fld w 25 14 }

/-- size(LOC) of R67. -/
def locSize (loc : Nat) : Nat := if loc = 0 then 1048576 else 8192

/-- End of a tile's byte range within LOC (R67, R106). -/
def Td.endByte (t : Td) : Nat := 64 * t.base + 64 * t.stride * (t.rows - 1) + rowbytes t.fmt t.cols

/-- Wide-shadow row length (R67, R185). -/
def Td.wsRow (t : Td) : Nat := 64 * cdiv (4 * t.cols) 64

/-- A descriptor fails the checks of R66 and R67. -/
def Td.bad (t : Td) : Bool :=
  decide (12 ≤ t.fmt) || decide (t.rows = 0) || decide (t.cols = 0)
  || (decide (1 < t.rows) && decide (64 * t.stride < rowbytes t.fmt t.cols))
  || decide (locSize t.loc < t.endByte)
  || (t.tr && decide (t.loc ≠ 0))
  || (t.spe && (decide (t.cols % 4 ≠ 0) || decide (8 * 1048576 < 8 * 64 * t.spm + t.rows * t.cols)))
  || (t.wsv && decide (1048576 < 64 * t.wsh + t.rows * t.wsRow))

/-- The bits of a descriptor that are no reserved field: RSV reads 0 and ignores writes (R12, R66). -/
def tdMask : W128 := ~~~ BitVec.ofNat 128 ((2 ^ 13 - 1) * 2 ^ 96 + 15 * 2 ^ 64 + (2 ^ 14 - 1))

/-- A descriptor write is visible at a core edge with Datestamp `dst` and job time `jt` (R62, R68). -/
def tdVisible (dst jt : Nat) (p : TdPend) : Bool :=
  if p.byJob then decide (p.vis ≤ jt) else decide (p.vis ≤ dst)

/-- The edge at which a write is seen, as a Datestamp. -/
def tdEdge (dst jt : Nat) (p : TdPend) : Nat := if p.byJob then p.vis + dst - jt else p.vis

/-- Put the descriptor writes into the table that a core edge sees, in the order in which they landed. -/
def settleTd (dst jt : Nat) (c : Core) : Core :=
  let now := c.tdPend.filter (tdVisible dst jt)
  -- `now` in landing order: the writes that no other one precedes come first
  let ord := loopN now.length (fun _ (x : List TdPend × List TdPend) =>
    match x.2.find? (fun p => x.2.all (fun q => decide (tdEdge dst jt p ≤ tdEdge dst jt q))) with
    | some p => (x.1 ++ [p], x.2.erase p)
    | none => x) ([], now)
  { c with
    td := ord.1.foldl (fun t p => tput 0 t p.td (p.val &&& tdMask)) c.td
    tdOver := ord.1.foldl (fun o p => (if p.ovr then [p.td] else []) ++ o.filter (· ≠ p.td)) c.tdOver
    tdPend := c.tdPend.filter (fun p => !tdVisible dst jt p) }

/-- The word of TDn and whether it fails R67, or R72 left it out of range. -/
def tdLatch (c : Core) (n : Nat) : Td × Bool :=
  let t := tdOf (tget 0 c.td n)
  (t, t.bad || c.tdOver.contains n)

/-! ## Tiles in memory (R169, R170) -/

/-- Module address of byte `b` of the place that LOC names. -/
def locAddr (c : CoreId) (loc b : Nat) : Nat :=
  if loc = 0 then shelfAddr c b else folioAddr c (loc - 1) b

/-- Module address of a stored row. -/
def rowAddr (c : CoreId) (t : Td) (r : Nat) : Nat := locAddr c t.loc (64 * t.base + 64 * t.stride * r)

/-- Code of element i of a packed row at `a`, by what a byte reads as (R169). -/
def elemCode (rd : Nat → Byte) (a fmt i : Nat) : Nat :=
  let w := fmtBits fmt
  if 8 ≤ w then ofBytes ((List.range (w / 8)).map (fun b => rd (a + i * w / 8 + b)))
  else ((rd (a + i * w / 8)).toNat >>> (i * w % 8)) % 2 ^ w

/-- Exact value of element i of a packed row that stores n elements (R168, R169, R170). -/
def rowElem (rd : Nat → Byte) (a fmt n i : Nat) : Ext :=
  let x := elemVal fmt (elemCode rd a fmt i)
  if isMx fmt then scaled (rd (a + cdiv (n * fmtBits fmt) 8 + i / 32)).toNat x else x

/-- Bytes that hold element i of a packed row of n stored elements, with its scale byte. -/
def elemBytes (fmt n i : Nat) : List Nat :=
  let w := fmtBits fmt
  (if 8 ≤ w then (List.range (w / 8)).map (fun b => i * w / 8 + b) else [i * w / 8])
    ++ (if isMx fmt then [cdiv (n * w) 8 + i / 32] else [])

/-- Elements stored in a row of a tile: half of COLS when it is 2:4 sparse (R93). -/
def Td.stored (t : Td) : Nat := if t.spe then t.cols / 2 else t.cols

/-- Element [r][c] of a tile as stored. -/
def tileElem (rd : Nat → Byte) (c : CoreId) (t : Td) (r i : Nat) : Ext :=
  rowElem rd (rowAddr c t r) t.fmt t.stored i

/-- Rows and columns as presented (R86). -/
def Td.pRows (t : Td) : Nat := if t.tr then t.cols else t.rows
def Td.pCols (t : Td) : Nat := if t.tr then t.rows else t.cols

/-- Element [m][n] of a tile as presented. -/
def presented (rd : Nat → Byte) (c : CoreId) (t : Td) (m n : Nat) : Ext :=
  if t.tr then tileElem rd c t n m else tileElem rd c t m n

/-- Addresses of the bytes of one stored element. -/
def elemAddrs (c : CoreId) (t : Td) (r i : Nat) : List Nat :=
  (elemBytes t.fmt t.stored i).map (fun b => rowAddr c t r + b)

/-- Addresses of the bytes of one presented element. -/
def presAddrs (c : CoreId) (t : Td) (m n : Nat) : List Nat :=
  if t.tr then elemAddrs c t n m else elemAddrs c t m n

/-- All bytes of the elements of a tile, row by row. -/
def tileAddrs (c : CoreId) (t : Td) : List Nat :=
  (List.range t.rows).flatMap (fun r =>
    (List.range (rowbytes t.fmt t.stored)).map (fun b => rowAddr c t r + b))

/-! ## Storing a row -/

/-- What the free bits of an operation hang on: its slot word and its job time since job start, so that a run
repeats bit for bit (R180). -/
def padKey (w : W64) (jt : Nat) : Nat := w.toNat + 2 ^ 64 * jt

/-- Pack codes of w bits, lowest first; the bits of a last partial byte are free (log 9). -/
def packCodes (w : Nat) (pad : Nat → Byte) (a : Nat) (codes : List Nat) : List Byte :=
  if 8 ≤ w then codes.flatMap (fun c => bytesOf (w / 8) c)
  else
    let per := 8 / w
    let cs := chunksOf per codes.length codes
    ((List.range cs.length).zip cs).map (fun e =>
      let v := sumNat (((List.range e.2.length).zip e.2).map (fun p => (p.2 % 2 ^ w) <<< (p.1 * w)))
      let n := e.2.length * w
      BitVec.ofNat 8 (v + (if n < 8 then ((pad (a + e.1)).toNat >>> n) <<< n else 0)))

/-- What storing one row gives: bytes, the values stored, the counts (R171 to R173, R183). -/
structure RowOut where
  bytes : List Byte
  vals  : List Ext
  cnt   : Counts
deriving DecidableEq, Repr

/-- Round and encode one row of exact values; `us` are the draws of its elements. -/
def encodeRow (fmt rnd : Nat) (us : List Nat) (pad : Nat → Byte) (a : Nat) (xs : List Ext) : RowOut :=
  if isMx fmt then
    let bs := (chunksOf 32 xs.length xs).zip (chunksOf 32 us.length us)
    let rs := bs.map (fun b => mxBlock fmt rnd b.2 b.1)
    { bytes := packCodes (fmtBits fmt) pad a (rs.flatMap (fun r => r.2.1))
        ++ rs.map (fun r => BitVec.ofNat 8 r.1)
      vals := rs.flatMap (fun r => r.2.1.map (fun c => scaled r.1 (elemVal fmt c)))
      cnt := rs.foldl (fun a r => a.plus r.2.2) Counts.none }
  else
    let codes := (xs.zip us).map (fun p => storeCode fmt rnd p.2 p.1)
    let vs := codes.map (elemVal fmt)
    { bytes := packCodes (fmtBits fmt) pad a codes
      vals := vs
      cnt := (xs.zip vs).foldl (fun a p => a.plus (countElem fmt p.1 p.2.isZero false)) Counts.none }

/-- The wide shadow of one row (R185): bytes at its shelf place, and how many elements miss. -/
def shadowRow (c : CoreId) (t : Td) (tol r : Nat) (xs ys : List Ext) : List Host.Cell × Nat :=
  if t.wsv then
    let ss := xs.map rne
    (cellsAt (shelfAddr c (64 * t.wsh + r * t.wsRow)) (ss.flatMap (fun w => bytesOf 4 w.toNat)),
      ((ss.zip ys).filter (fun p =>
        let sv := val p.1
        let y := p.2
        if sv.isNan || y.isNan then sv.isNan != y.isNan
        else
          match Ext.mag sv with
          | .fin n m e => Ext.gt (Ext.mag (Ext.sub y sv)) (.fin n m (e - tol))
          | z => Ext.gt (Ext.mag (Ext.sub y sv)) z)).length)
  else ([], 0)

/-- Cells and counts of storing rows of exact values to a tile, with wide shadow. -/
def storeTile (c : CoreId) (t : Td) (rnd tol : Nat) (d : Draw) (pad : Nat → Byte)
    (rows : List (List Ext)) : List Host.Cell × List (List Ext) × Counts :=
  ((List.range rows.length).zip rows).foldl (fun acc e =>
    let r := e.1
    let us := (List.range e.2.length).map (fun i => if rnd = 1 then drawAt d t.cols r i else 0)
    let o := encodeRow t.fmt rnd us pad (rowAddr c t r) e.2
    let w := shadowRow c t tol r e.2 o.vals
    (acc.1 ++ cellsAt (rowAddr c t r) o.bytes ++ w.1, acc.2.1 ++ [o.vals],
      acc.2.2.plus { o.cnt with shx := w.2 })) ([], [], Counts.none)

/-- TOL of the cluster's shadow unit (R190). -/
def tolOf (s : State) (cl : Clu) : Nat := fld (reg s (at' (pgSHW cl.q.val cl.c.val) 0x100)) 20 16

end Sys2Proof.Machine
end

