-- ==== Sys2Proof/Machine/Timing.lean ====
section
/-! DEFINITION. The events of an operation, from its descriptors alone: the line rule of R98, the intervals of
R99, R100, R113 to R115. An event is placed in core cycles from the launch. -/

namespace Sys2Proof.Machine

/-- 64 B line of a byte address. -/
def lineOf (a : Nat) : Nat := a / 64

/-- Distinct elements in order of first appearance. -/
def firsts : List Nat → List Nat → List Nat
  | _, [] => []
  | seen, a :: r => if seen.contains a then firsts seen r else a :: firsts (a :: seen) r

/-- A line of the shelf, else of folio number `f`. -/
def inShelf (l : Nat) : Bool := spaceOf (64 * l) == 3
def inFolio (f l : Nat) : Bool := spaceOf (64 * l) == 4 && (l >>> 7) % 4 == f

/-- Shelf lines in order under the line rule of R98, each with its cycle: at most one per bank a cycle.
`used` are the banks taken in cycle `t`. -/
def shelfSched : List Nat → List Nat → Nat → List (Nat × Nat)
  | [], _, _ => []
  | l :: r, used, t =>
    let b := l % 4
    if used.contains b then (t + 1, l) :: shelfSched r [b] (t + 1)
    else (t, l) :: shelfSched r (b :: used) t

/-- Cycles a schedule takes. -/
def schedLen (l : List (Nat × Nat)) : Nat :=
  if l.isEmpty then 0 else maxNat (l.map Prod.fst) + 1

/-- The lines of each folio, four a cycle in order (R98, R115). -/
def folioSched (ls : List Nat) : List (Nat × Nat) :=
  [0, 1, 2].flatMap (fun f =>
    let mine := ls.filter (inFolio f)
    ((List.range mine.length).zip mine).map (fun e => (e.1 / 4, e.2)))

/-- Lines from one instant, each with its cycle. -/
def linesSched (lines : List Nat) : List (Nat × Nat) :=
  shelfSched (lines.filter inShelf) [] 0 ++ folioSched lines

/-! ## Resources (R45, R116, R147) -/

/-- Number of the bank or port that an access uses: the shelf bank, a folio's read or write port, a pool
bank; unique over the module. None for HBM and the marginalia store. -/
def resOf (l : Nat) (wr : Bool) : Option Nat :=
  let n := regionOf (64 * l) * 64
  if spaceOf (64 * l) = 3 then some (n + l % 4)
  else if spaceOf (64 * l) = 4 then some (n + 4 + 2 * ((l >>> 7) % 4) + (if wr then 1 else 0))
  else if spaceOf (64 * l) = 2 then some (n + 16 + l % 32)
  else none

/-- Priority of a matrix unit's line: 3 of R45 on the shelf, 2 of R116 on a folio. -/
def mxPrio (l : Nat) : Nat := if inShelf l then 3 else 2
/-- Priority of a stream unit's line: 4 of R45, 3 of R116. -/
def stPrio (l : Nat) : Nat := if inShelf l then 4 else 3
/-- Priority of a TDR line: 5 of R45, 4 of R116. -/
def rdPrio (l : Nat) : Nat := if inShelf l then 5 else 4

/-- Events of a cycle that start at Datestamp `t`. -/
def placeEvs (t : Nat) (evs : List Ev) : List Ev := evs.map (fun e => { e with at' := t + 4 * e.at' })

/-! ## Matrix unit (R85, R98, R99, R100) -/

/-- Rate class of a format (R85): 1 16-bit, 2 8-bit, 3 4-bit, 0 none. -/
def rateClass (fmt : Nat) : Nat :=
  if fmt = 1 ∨ fmt = 2 then 1 else if 3 ≤ fmt ∧ fmt ≤ 6 then 2 else if fmt = 7 then 3 else 0

/-- Blocks per core cycle, P (R85). -/
def blocksPerCycle (fmt : Nat) : Nat :=
  if rateClass fmt = 1 then 16 else if rateClass fmt = 2 then 32 else 64

/-- Kp of *Exact block accumulation*: K, or K / 2 for a sparse TDA. -/
def kStored (a : Td) : Nat := if a.spe then a.pCols / 2 else a.pCols

/-- Number of blocks nb. -/
def numBlocks (a : Td) : Nat := cdiv (kStored a) 32

/-- Byte of the metadata nibble of group g of row r (R93). -/
def nibbleAddr (c : CoreId) (t : Td) (r g : Nat) : Nat :=
  shelfAddr c (64 * t.spm + (r * (t.cols / 4) + g) / 2)

/-- Bytes that block j needs, A then B then metadata (R98). DESIGN CHOICE: the spec orders A's bytes by
presented row and B's after them, and says no more; an MX element's scale byte comes directly after its
code byte (log 120). -/
def chunkBytes (c : CoreId) (a b : Td) (j : Nat) : List Nat :=
  let m := a.pRows
  let n := b.pCols
  let ks := ((List.range 32).map (32 * j + ·)).filter (· < kStored a)
  let kb := if a.spe then ((List.range 64).map (64 * j + ·)).filter (· < a.pCols) else ks
  (List.range m).flatMap (fun r => ks.flatMap (fun k => presAddrs c a r k))
    ++ kb.flatMap (fun k => (List.range n).flatMap (fun x => presAddrs c b k x))
    ++ (if a.spe then
          (List.range m).flatMap (fun r => (kb.filter (· % 4 = 0)).map (fun k => nibbleAddr c a r (k / 4)))
        else [])

/-- Lines that each block needs. -/
def chunkLines (c : CoreId) (a b : Td) : List (List Nat) :=
  (List.range (numBlocks a)).map (fun j => firsts [] ((chunkBytes c a b j).map lineOf))

/-- Each line only in the first chunk that needs it. -/
def newLines : List Nat → List (List Nat) → List (List Nat)
  | _, [] => []
  | seen, ls :: r => ls.filter (fun l => !seen.contains l) :: newLines (ls ++ seen) r

/-- The last chunk that needs a line. -/
def lastChunk (cs : List (List Nat)) (l : Nat) : Nat :=
  maxNat (((List.range cs.length).zip cs).map (fun e => if e.2.contains l then e.1 else 0))

/-- Where R99 stands after some chunks: f, ce[j - 2], ce[j - 1], and the events. -/
structure FetchSt where
  f   : Nat
  ce2 : Nat
  ce1 : Nat
  out : List Ev
deriving DecidableEq, Repr

/-- One chunk of R99: its lines, the check of its metadata when the last of them is read (R94), and the
summing of its block, whose end is ce[j]. -/
def fetchChunk (tc : Nat) (cs : List (List Nat)) (x : FetchSt) (e : Nat × List Nat) : FetchSt :=
  let fs := max x.f x.ce2
  let sch := linesSched e.2
  let f := fs + schedLen sch
  let ce := max x.ce1 f + tc
  { f := f, ce2 := x.ce1, ce1 := ce
    out := x.out
      ++ sch.map (fun p => { at' := fs + p.1, kind := .rd, grp := e.1, sub := lastChunk cs p.2, line := p.2,
                             prio := mxPrio p.2 })
      ++ [{ at' := max fs (f - 1), kind := .calc, grp := e.1, sub := 0, line := 0, prio := 0 },
          { at' := ce - 1, kind := .calc, grp := e.1, sub := 1, line := 0, prio := 0 }] }

/-- Events in the order of their cycles; within a cycle as given. -/
def inOrder (n : Nat) (evs : List Ev) : List Ev :=
  (List.range n).flatMap (fun t => evs.filter (fun e => e.at' == t))

/-- R99: issue interval and events of an MMA or MMZ. -/
def mmaPlan (c : CoreId) (a b : Td) : Nat × List Ev :=
  let tc := cdiv (a.pRows * b.pCols) (blocksPerCycle a.fmt)
  let cs := chunkLines c a b
  let r := ((List.range cs.length).zip (newLines [] cs)).foldl (fetchChunk tc cs)
    { f := 0, ce2 := 0, ce1 := 0, out := [] }
  (r.ce1, inOrder r.ce1 r.out)

/-- One more line fits into a cycle that already uses some resources (R98): one line a shelf bank, four a
folio port. -/
def lineFits (used : List Nat) (wr : Bool) (l : Nat) : Bool :=
  match resOf l wr with
  | none => true
  | some r => if inShelf l then !used.contains r else decide ((used.filter (· == r)).length < 4)

/-- Progress of a row-major pass: cycle, elements in it, resources it uses, events. -/
structure PassSt where
  t    : Nat
  n    : Nat
  used : List Nat
  out  : List Ev
deriving DecidableEq, Repr

/-- One line of a row-major pass: issued in this cycle if it fits, else in the next (R98). -/
def passLine (wr : Bool) (x : PassSt) (l : Nat) : PassSt :=
  let x := if lineFits x.used wr l then x else { x with t := x.t + 1, n := 0, used := [] }
  { x with used := (resOf l wr).toList ++ x.used
           out := x.out ++ [{ at' := x.t, kind := if wr then .wr else .rd, grp := 0, sub := 0, line := l, prio := mxPrio l }] }

/-- One element of a row-major pass, at most 64 a cycle, with the lines issued with it. -/
def passElem (wr : Bool) (x : PassSt) (lines : List Nat) : PassSt :=
  let x := if x.n < 64 then x else { x with t := x.t + 1, n := 0, used := [] }
  let x := lines.foldl (passLine wr) x
  { x with n := x.n + 1 }

/-- Wide-shadow line of an element (R185). -/
def shadowLine (c : CoreId) (t : Td) (r k : Nat) : Nat := lineOf (shelfAddr c (64 * t.wsh + r * t.wsRow + 4 * k))

/-- Lines of row r of a destination that the columns `ks`, in order, complete (R114): no later column touches
them, and the next and the last one are the ones to ask. Directly after each come the wide-shadow lines of
the elements whose codes it holds (R185). Rows never share a line (R66, R67). -/
def doneLines (c : CoreId) (t : Td) (r : Nat) (ks : List Nat) : List Nat :=
  let next := ks.getLastD 0 + 1
  let touch := fun k l => (elemAddrs c t r k).any (fun a => lineOf a == l)
  let later := fun l => decide (next < t.cols) && (touch next l || touch (t.cols - 1) l)
  let codeLine := fun k => ((elemAddrs c t r k).map lineOf).headD 0
  ((firsts [] (ks.flatMap (fun k => (elemAddrs c t r k).map lineOf))).filter (fun l => !later l)).flatMap (fun l =>
    -- a line holds at most 512 elements
    l :: (if t.wsv then firsts [] ((((List.range next).drop (next - 544)).filter (fun k => codeLine k == l)).map
      (shadowLine c t r)) else []))

/-- Cycles and events of reading M x N elements of a tile in row-major order (R100): a line is read once, with
the first element that needs it, as R98 reads it (DEDUCED, log 41). -/
def loadPlan (c : CoreId) (t : Td) : Nat × List Ev :=
  let es := (List.range t.pRows).flatMap (fun r => (List.range t.pCols).map (fun k =>
    firsts [] ((presAddrs c t r k).map lineOf)))
  let r := (newLines [] es).foldl (passElem false) { t := 0, n := 0, used := [], out := [] }
  (r.t + 1, r.out)

/-- Cycles and events of writing M x N elements of a tile in row-major order (R100): a line is written once,
with the last element that it holds, and its wide-shadow lines directly after it (R185; DEDUCED, log 41). -/
def storePlan (c : CoreId) (t : Td) : Nat × List Ev :=
  let es := (List.range t.rows).flatMap (fun r => (List.range t.cols).map (fun k => doneLines c t r [k]))
  let r := es.foldl (passElem true) { t := 0, n := 0, used := [], out := [] }
  (r.t + 1, r.out)

/-! ## Stream unit (R113 to R115, R120) -/

/-- Beats per row. -/
def beatsPerRow (d : Td) : Nat := cdiv d.cols 32

/-- Number of beats B. -/
def numBeats (d : Td) : Nat := d.rows * beatsPerRow d

/-- Elements (row, columns) of beat j. -/
def beatElems (d : Td) (j : Nat) : Nat × List Nat :=
  let nbr := beatsPerRow d
  let k := j % nbr
  (j / nbr, ((List.range 32).map (32 * k + ·)).filter (· < d.cols))

/-- Row of a source that a destination row needs; a source of one row is broadcast (R75). -/
def srcRowOf (x : Td) (r : Nat) : Nat := if x.rows = 1 then 0 else r

/-- Lines that beat j needs from a source (R114). -/
def srcLines (c : CoreId) (d x : Td) (j : Nat) : List Nat :=
  let e := beatElems d j
  firsts [] ((e.2.flatMap (fun k => elemAddrs c x (srcRowOf x e.1) k)).map lineOf)

/-- Lines of d that beat j completes, each with its wide-shadow lines directly after (R114, R185). -/
def dstLines (c : CoreId) (d : Td) (j : Nat) : List Nat :=
  let e := beatElems d j
  doneLines c d e.1 e.2

/-- TDR is packed: one row of one result per row of d (R118). -/
def redPacked (d r : Td) : Bool := decide (r.rows = 1) && decide (r.cols = d.rows)
/-- TDR is spread: the shape of d (R118). -/
def redSpread (d r : Td) : Bool := decide (r.rows = d.rows) && decide (r.cols = d.cols)

/-- Lines of TDR that the reduction unit completes with beat j (R120): packed rows at the line's
last element or the last row, spread rows with the row's last beat, columns with the last beat. -/
def redLines (c : CoreId) (d t : Td) (red j : Nat) : List Nat :=
  let nbr := beatsPerRow d
  if red = 0 then []
  else if red = 4 then (if j + 1 = numBeats d then firsts [] ((tileAddrs c t).map lineOf) else [])
  else if (j + 1) % nbr ≠ 0 then []
  else if redPacked d t && !redSpread d t then
    let r := j / nbr
    let l := lineOf (rowAddr c t 0 + 4 * r)
    if r + 1 = d.rows ∨ lineOf (rowAddr c t 0 + 4 * (r + 1)) ≠ l then [l] else []
  else
    firsts [] (((List.range (4 * t.cols)).map (fun b => rowAddr c t (j / nbr) + b)).map lineOf)

/-- Where a stream operation's groups stand: the cycle of the next group, the lines each operand needed in
the group before, the events. -/
structure GroupSt where
  t   : Nat
  had : List (List Nat)
  out : List Ev
deriving DecidableEq, Repr

/-- Access group g (R114, R115): the operands' lines that none of them still holds, the beat itself, the lines
of d and of TDR. An operand holds what it needed in the group before (DEDUCED for two lines, log 42). -/
def groupEvs (c : CoreId) (d : Td) (srcs : List Td) (red : Nat) (t : Td) (x : GroupSt) (g : Nat) : GroupSt :=
  let nb := numBeats d
  let need := if g < nb then srcs.map (fun y => srcLines c d y g) else srcs.map (fun _ => [])
  let rd := ((List.range need.length).zip (x.had.zip need)).flatMap (fun p =>
    (p.2.2.filter (fun l => !p.2.1.contains l)).map (fun l => (p.1, l)))
  let wd := if 8 ≤ g then dstLines c d (g - 8) else []
  let wr := if 8 ≤ g then redLines c d t red (g - 8) else []
  let ev := fun (k : EvKind) (sub prio l at' : Nat) =>
    ({ at' := x.t + at', kind := k, grp := g, sub := sub, line := l, prio := prio } : Ev)
  -- every access of the group with its kind, operand and line, in the order of R114
  let acc := rd.map (fun p => (EvKind.rd, p.1, p.2)) ++ wd.map (fun l => (EvKind.wr, 0, l))
    ++ wr.map (fun l => (EvKind.wr, 1, l))
  let shelf := (acc.filter (fun a => inShelf a.2.2)).zip
    ((shelfSched ((acc.filter (fun a => inShelf a.2.2)).map (·.2.2)) [] 0).map Prod.fst)
  let folio := [0, 1, 2].flatMap (fun f => [EvKind.rd, EvKind.wr].flatMap (fun k =>
    let mine := acc.filter (fun a => inFolio f a.2.2 && a.1 == k)
    mine.zip ((List.range mine.length).map (· / 4))))
  let all := shelf ++ folio
  let cyc := max 1 (maxNat (all.map (fun e => e.2 + 1)))
  let evs := all.map (fun e => ev e.1.1 e.1.2.1 (if e.1.1 = .wr ∧ e.1.2.1 = 1 then rdPrio e.1.2.2 else stPrio e.1.2.2)
    e.1.2.2 e.2)
  let beat := if g < nb then [ev .calc 0 0 0 (cyc - 1)] else []
  { t := x.t + cyc, had := need
    out := x.out ++ (List.range cyc).flatMap (fun i =>
      (evs.filter (fun e => e.at' == x.t + i && e.kind == .rd)) ++ (beat.filter (fun e => e.at' == x.t + i))
        ++ (evs.filter (fun e => e.at' == x.t + i && e.kind == .wr))) }

/-- Issue interval and events of a stream operation (R114, R115). -/
def streamPlan (c : CoreId) (d : Td) (srcs : List Td) (red : Nat) (t : Td) : Nat × List Ev :=
  let r := (List.range (numBeats d + 8)).foldl (groupEvs c d srcs red t)
    { t := 0, had := srcs.map (fun _ => []), out := [] }
  (r.t, r.out)

end Sys2Proof.Machine
end

