-- ==== Sys2Proof/Machine/Flags.lean ====
section
/-! DEFINITION. Flags and watch state: truncation flags, collision and busy reports, summaries for the shadow unit. -/

namespace Sys2Proof.Machine

/-- Truncation flag of accumulator `a` (R91). -/
def truncFlag (c : Core) (a : Nat) : Bool := bit c.trunc a

/-- Set or clear a bit of a small flag word. -/
def setFlag {n : Nat} (w : BitVec n) (i : Nat) (v : Bool) : BitVec n :=
  if v then w ||| BitVec.ofNat n (2 ^ i) else w &&& ~~~ BitVec.ofNat n (2 ^ i)

/-- First data word of R84: core and OFFSET, or 0xFF and the instruction address. -/
def d0Core (core off : Nat) : W32 := BitVec.ofNat 32 (core % 256 * 2 ^ 24 + off % 2 ^ 24)

/-- A core's fault: `slot` is the second data word of R84. -/
def slotFault (s : State) (c : CoreId) (off code slot : Nat) : State :=
  coreFault s c.cl.key code (d0Core c.k.val off) (BitVec.ofNat 32 slot)

/-- A busy unit or full queue (R58): the operation is dropped, counted, and the job faults. -/
def unitBusy (s : State) (c : CoreId) (off slot : Nat) : State :=
  let s := bump s (at' (pgCLU c.cl.q.val c.cl.c.val) 0x104) 1
  slotFault s c off 0x0305 slot

/-- First data word of the schedule codes (R55): ACC, job slot, and a low half. -/
def d0Sch (acc : BitVec 12) (j lo : Nat) : W32 :=
  BitVec.ofNat 32 (acc.toNat * 2 ^ 20 + j % 4 * 2 ^ 16 + lo % 2 ^ 16)

/-- A collision (R45, R55): counted by the block on page `page` at offset `off` (0 where the block has no collision
counter) and in SCH_COLL_CNT, logged with both priorities, and the job of the quadrant faults. -/
def collide (s : State) (page off q hi lo : Nat) : State :=
  let s := if off = 0 then s else bump s (at' page off) 1
  match jobOn s q with
  | none => post s page sevFault 0x0204 0 (d0Sch 0 0 (hi * 256 + lo)) 0
  | some j =>
    let s := bump s (at' pgSCH (0x118 + 0x40 * j)) 1
    let s := post s page sevFault 0x0204 (accOf s j) (d0Sch (accOf s j) j (hi * 256 + lo)) 0
    jobFault s j

/-- A collision in a cluster (R45). -/
def cluCollide (s : State) (cl : Clu) (x : Collision) : State :=
  collide s (pgCLU cl.q.val cl.c.val) 0x104 cl.q.val x.hi x.lo

/-- Hand a summary to the cluster's shadow unit: at most 4 wait per source, and one that finds no place is counted
while the unit counts at all (R184, R188). -/
def handSummary (s : State) (clu : Nat) (m : Summary) : State :=
  let k := getClu s clu
  let pg := pgSHW (clu / 16) (clu % 16)
  if 4 ≤ (k.sums.filter (fun x => x.src == m.src)).length then
    (if bit (reg s (at' pg 0x100)) 31 then bump s (at' pg 0x12C) 1 else s)
  else setClu s clu { k with sums := k.sums ++ [m] }

/-- The step number of the seeds, as a launch at job time `jt` latches it (R175). -/
def stepOf (s : State) (cl : Clu) (jt : Nat) : W32 :=
  sReg (getClu s cl.key) jt (stepS (seedsOf s cl.q.val))

/-- Who a core's, row engine's or route unit's access works for. -/
def whoOf (s : State) (q : Nat) : Who := { acc := quadAcc s q, job := jobOn s q }

/-- A core by its key. -/
def coreOfKey (k : Nat) : CoreId :=
  { cl := { q := Fin.ofNat 4 (k / 1536), c := Fin.ofNat 16 (k / 96) }, k := Fin.ofNat 96 k }

/-- A core cycle in root ticks (R27). -/
def cyc (n : Nat) : Nat := 4 * n

end Sys2Proof.Machine
end

