-- ==== Sys2Proof/Machine/PassOps.lean ====
section
/-! DEFINITION. Pass descriptors, and the update port of a memory controller (R214, R217, R227, R228, R231). -/

namespace Sys2Proof.Machine

/-! ## Pass descriptors (R217) -/

def psOff (w : W256) : Nat := fld w 255 232
def psProg (w : W256) : Nat := fld w 231 228
def psGrp (w : W256) : Nat := fld w 227 220
def psMode (w : W256) : Nat := fld w 219 218
def psPer (w : W256) : Nat := fld w 217 215
def psRnd (w : W256) : Nat := fld w 214 213
def psTag (w : W256) : Nat := fld w 212 203
def psClu (w : W256) : Nat := fld w 202 199
def psCC (w : W256) : Option Nat := if bit w 193 then some (fld w 198 194) else none
def psRB (w : W256) : Nat := fld w 191 164
def psGB (w : W256) : Nat := fld w 163 133
def psEB (w : W256) : Nat := fld w 132 102
def psNG (w : W256) : Nat := fld w 101 74
def psNR (w : W256) : Nat := fld w 73 46
def psCG (w : W256) : Nat := fld w 45 38

/-- A fault of engine `e` (R240): counted and logged, and the job faults. -/
def ueFault (s : State) (e j off idx code hi : Nat) : State :=
  let p := pgUE (e / 3) (e % 3)
  let s := bump s (at' p 0x114) 1
  jobFault (post s p sevFault code (accOf s j) (d0Ue e off) (BitVec.ofNat 32 (idx % 256 + hi % 2 ^ 24 * 256))) j

/-- Core cycles from a pass's launch to now, in job time. -/
def passCycle (jt : Nat) (f : PassFly) : Nat := (jt - f.t0) / 4

/-- Core cycles that a list record takes in the update phase (R233). -/
def recCycles (w : W256) : Nat := 1 + psPer w * psCG w

/-- What a pass does in cycle n after its launch (R227, R231, R233). -/
inductive PassDo where
  /-- Nothing is read. -/
  | none
  /-- Dense: group i is read. -/
  | group (i : Nat)
  /-- Row, check phase: the INDEX of record n is read. -/
  | index (n : Nat)
  /-- Row, update phase: SF of record n is read. -/
  | step (n : Nat)
  /-- Row, update phase: group g of record n is read. -/
  | rowGroup (n g : Nat)
deriving DecidableEq, Repr

/-- What cycle n of a pass reads. -/
def passDo (w : W256) (n : Nat) : PassDo :=
  let per := psPer w
  if psMode w = 0 then (if n % per = 0 ∧ n / per < psNG w then .group (n / per) else .none)
  else if n < psNG w then .index n
  else
    let r := (n - psNG w) / recCycles w
    let k := (n - psNG w) % recCycles w
    if psNG w ≤ r then .none
    else if k = 0 then .step r
    else if (k - 1) % per = 0 then .rowGroup r ((k - 1) / per) else .none

/-- A null list record reads and writes nothing in the update phase (R231). -/
def nullRec (f : PassFly) (n : Nat) : Bool := f.list.getD n 0 == 0xFFFFFFFF

/-- The engine issues a read or a write at job time `jt` (R228). -/
def portUsed (f : PassFly) (jt : Nat) : Bool :=
  (match passDo f.w (passCycle jt f) with
    | .none => false
    | .group _ => true
    | .index _ => true
    | .step n => !nullRec f n
    | .rowGroup n _ => !nullRec f n)
  || f.grps.any (fun g => g.due == jt && !g.wr.isEmpty)

/-- A quadrant request that reaches controller `m` in a cycle in which its engine uses the update port (R45, R228): the
engine's access is carried, the request is dropped and counted, and the job faults; false then. -/
def portMeet (s : State) (m : Nat) : State × Bool :=
  match jobOn s (m / 3), (getUe s m).fly with
  | some j, some f =>
    let job := getJob s j
    if !job.held && portUsed f (jobTime s job / 4 * 4) then
      let s := bump s (at' (pgUE (m / 3) (m % 3)) 0x110) 1
      let s := bump s (at' pgSCH (0x118 + 0x40 * j)) 1
      (ueFault s m j (psOff f.w) f.idx 0x0A07 0, false)
    else (s, true)
  | _, _ => (s, true)

end Sys2Proof.Machine
end

