-- ==== Sys2Proof/Machine/GlobalAddr.lean ====
section
/-! DEFINITION. Global addresses, regions and move descriptors (R144, R145, R153 to R160). -/

namespace Sys2Proof.Machine

/-- The fields of a global address (R144); `byte` is the byte field alone. -/
structure GA where
  node  : Nat
  space : Nat
  q     : Nat
  st    : Nat
  cl    : Nat
  k     : Nat
  fo    : Nat
  byte  : Nat
deriving DecidableEq, Repr

/-- Split a 64-bit address into the fields of its space; none for a reserved space or a non-zero
field that the space does not list (R144). Limits are checked by `gaOk`. -/
def gaParse (a : Nat) : Option GA :=
  let node := a / 2 ^ 51
  let sp := a / 2 ^ 47 % 16
  let off := a % 2 ^ 47
  let q := off / 2 ^ 39 % 4
  let cl := off / 2 ^ 35 % 16
  let k := off / 2 ^ 28 % 128
  if 2 ^ 64 ≤ a ∨ off / 2 ^ 41 ≠ 0 then none
  else if sp = 0 then some ⟨node, 0, q, off / 2 ^ 37 % 4, 0, 0, 0, off % 2 ^ 37⟩
  else if sp = 1 then some ⟨node, 1, q, 0, 0, 0, 0, off % 2 ^ 39⟩
  else if sp = 2 then
    (if off / 2 ^ 25 % 2 ^ 10 ≠ 0 then none else some ⟨node, 2, q, 0, cl, 0, 0, off % 2 ^ 25⟩)
  else if sp = 3 then
    (if off / 2 ^ 20 % 2 ^ 8 ≠ 0 then none else some ⟨node, 3, q, 0, cl, k, 0, off % 2 ^ 20⟩)
  else if sp = 4 then
    (if off / 2 ^ 15 % 2 ^ 13 ≠ 0 then none
     else some ⟨node, 4, q, 0, cl, k, off / 2 ^ 13 % 4, off % 2 ^ 13⟩)
  else none

/-- Size of the byte field's range in a space (R144). -/
def gaLimit (sp : Nat) : Nat :=
  if sp = 0 then 137438953472 else if sp = 1 then 412316860416 else if sp = 2 then 31457280
  else if sp = 3 then 1048576 else 8192

/-- The fields meet the limits of R144 with the byte field at `b`: `offered` counts the clusters of
a quadrant of this module, 16 for another node. -/
def gaOk (s : State) (g : GA) (b : Int) : Bool :=
  let off := if g.node = s.top.node.toNat then offered s g.q else 16
  decide (0 ≤ b) && decide (b < gaLimit g.space)
  && (if g.space = 0 then decide (g.st ≤ 2) else true)
  && (if 2 ≤ g.space then decide (g.cl < off) else true)
  && (if 3 ≤ g.space then decide (g.k ≤ 95) else true)
  && (if g.space = 4 then decide (g.fo ≤ 2) else true)

/-- Decode a whole address (R144). -/
def gaDecode (s : State) (a : Nat) : Option GA :=
  match gaParse a with
  | some g => if gaOk s g g.byte then some g else none
  | none => none

/-- Two addresses lie in one unit: they differ in the byte field only. -/
def sameUnit (a b : GA) : Bool := decide ({ a with byte := 0 } = { b with byte := 0 })

/-- Module address of byte `b` of the unit of `g` (R144, R145). -/
def gaByte (g : GA) (b : Nat) : Nat :=
  if g.space = 0 then hbmAddr g.q g.st b
  else if g.space = 1 then hbmInter g.q b
  else g.space * 2 ^ 47 + g.q * 2 ^ 39 + g.cl * 2 ^ 35 + g.k * 2 ^ 28 + g.fo * 2 ^ 13 + b

/-! ## Regions (R156) -/

def rgSpace (r : W128) : Nat := fld r 127 124
def rgOffset (r : W128) : Nat := fld r 123 77
def rgLen (r : W128) : Nat := fld r 76 36
/-- Permission bits: 35 LR, 34 LW, 33 RR, 32 RWR. -/
def rgPerm (r : W128) (b : Nat) : Bool := bit r b

/-- First byte of a region on this node. -/
def rgGA (s : State) (r : W128) : Option GA :=
  gaParse (s.top.node.toNat * 2 ^ 51 + rgSpace r * 2 ^ 47 + rgOffset r)

/-- A region is well formed (R156): LEN not 0, space 0x0 to 0x3, both ends decode in one unit. -/
def rgOk (s : State) (r : W128) : Bool :=
  decide (rgLen r ≠ 0) && decide (rgSpace r ≤ 3)
  && (match rgGA s r with
      | some g => gaOk s g g.byte && gaOk s g ((g.byte + rgLen r - 1 : Nat) : Int)
      | none => false)

/-- One region of the job holds bytes lo to hi of the unit of `g` with permission bit `p` (R156). -/
def regionHolds (s : State) (rs : List W128) (g : GA) (lo hi : Nat) (p : Nat) : Bool :=
  rs.any (fun r => rgPerm r p && (match rgGA s r with
    | some x => sameUnit x g && decide (x.byte ≤ lo) && decide (hi < x.byte + rgLen r)
    | none => false))

/-- Regions of the job of slot j. -/
def regionsOf (s : State) (j : Nat) : List W128 :=
  match (getJob s j).img with
  | some i => i.regions
  | none => []

/-! ## Move descriptors (R153) -/

def mdSrc (w : W256) : Nat := fld w 255 192
def mdDst (w : W256) : Nat := fld w 191 128
def mdRowlen (w : W256) : Nat := fld w 127 112
def mdRows (w : W256) : Nat := fld w 111 96
def mdSstr (w : W256) : Int := sfld w 95 72
def mdDstr (w : W256) : Int := sfld w 71 48
def mdCtx (w : W256) : Nat := fld w 47 40
def mdBkt (w : W256) : Nat := fld w 39 24
def mdLg (w : W256) : Nat := fld w 23 22
def mdTrs (w : W256) : Bool := bit w 21
def mdEsz (w : W256) : Nat := fld w 20 19
def mdCcr (w : W256) : Bool := bit w 16
def mdRcc (w : W256) : Nat := fld w 15 11

def opMOV : Nat := 1
def opPUT : Nat := 2
def opGET : Nat := 3
def opRED : Nat := 4
def opSIG : Nat := 5
def opLDTD : Nat := 6
def opSTTD : Nat := 7

/-- A descriptor field that the opcode does not use is not 0 (R153, R154). -/
def mdFormatBad (op : Nat) (w : W256) : Bool :=
  let trs := mdTrs w
  let esz := decide (mdEsz w ≠ 0)
  let cb := decide (mdCtx w ≠ 0) || decide (mdBkt w ≠ 0)
  let lg := decide (mdLg w ≠ 0)
  let cc := mdCcr w || decide (mdRcc w ≠ 0)
  decide (fld w 18 17 ≠ 0) || decide (fld w 10 0 ≠ 0)
  || (if op = opMOV then cb || lg || cc || (esz && !trs)
      else if op = opPUT then cb || (esz && !trs)
      else if op = opGET then cb || cc || trs || esz
      else if op = opRED then cc || (esz && !trs) || decide (mdDst w ≠ 0)
      else cb || trs || esz || mdCcr w || decide (mdSrc w ≠ 0) || decide (mdRowlen w ≠ 0)
           || decide (mdSstr w ≠ 0) || decide (mdDstr w ≠ 0))

/-- An end of a move: its unit, byte of the first row, rows, row length, stride, and whether it is
on this module and whether it is the issuing core's own shelf or folio. -/
structure End where
  g    : GA
  x    : Int
  n    : Nat
  len  : Nat
  str  : Int
  here : Bool
  own  : Bool
deriving DecidableEq, Repr

/-- Lowest and highest byte of an end (R157). -/
def End.lo (e : End) : Int := e.x + min 0 ((e.n - 1 : Nat) * e.str)
def End.hi (e : End) : Int := e.x + max 0 ((e.n - 1 : Nat) * e.str) + e.len - 1

/-- Byte of the first byte of row r. -/
def End.row (e : End) (r : Nat) : Nat := (e.x + (r : Int) * e.str).toNat

/-- Module addresses of row r. -/
def End.rowAddrs (e : End) (r : Nat) : List Nat :=
  (List.range e.len).map (fun i => gaByte e.g (e.row r + i))

/-- Extents of an end in module addresses, cut at 512 B in the interleaved view (R145). -/
def End.pieces (e : End) : List (Nat × Nat) :=
  (List.range e.n).flatMap (fun r =>
    let b := e.row r
    if e.g.space = 1 then
      (List.range (cdiv (b % 512 + e.len) 512)).map (fun i =>
        let lo := max b ((b / 512 + i) * 512)
        let hi := min (b + e.len) ((b / 512 + i + 1) * 512)
        (gaByte e.g lo, hi - lo))
    else [(gaByte e.g b, e.len)])

/-- Two sets of extents share a byte. -/
def piecesMeet (a b : List (Nat × Nat)) : Bool :=
  a.any (fun p => b.any (fun r => decide (p.1 < r.1 + r.2) && decide (r.1 < p.1 + p.2)))

/-- The unit of an address belongs to the issuing core's shelf or folios. -/
def ownUnit (c : CoreId) (g : GA) : Bool :=
  (g.space == 3 || g.space == 4) && g.q == c.cl.q.val && g.cl == c.cl.c.val && g.k == c.k.val

/-- Which end OFS moves (R154): the source of PUT and RED, the destination of GET, of a MOV the
end in the issuing core, the source if both are. -/
def ofsOnSrc (op : Nat) (ownSrc : Bool) : Bool :=
  if op = opGET then false else if op = opMOV then ownSrc else true

/-- The source address lies in the issuing core. -/
def srcOwn (s : State) (c : CoreId) (w : W256) : Bool :=
  match gaParse (mdSrc w) with
  | some g => decide (g.node = s.top.node.toNat) && ownUnit c g
  | none => false

/-- The source end of a move after OFS; none where its address does not parse. -/
def srcEnd (s : State) (c : CoreId) (op : Nat) (w : W256) (ofs : Int) : Option End :=
  (gaParse (mdSrc w)).map (fun g =>
    let os := srcOwn s c w
    ⟨g, g.byte + (if ofsOnSrc op os then 64 * ofs else 0), mdRows w, mdRowlen w, mdSstr w,
      decide (g.node = s.top.node.toNat), os⟩)

/-- The destination end of a move after OFS, turned by TRS (R154, R155). -/
def dstEnd (s : State) (c : CoreId) (op : Nat) (w : W256) (ofs : Int) : Option End :=
  (gaParse (mdDst w)).map (fun g =>
    let e := 2 ^ mdEsz w
    let here := decide (g.node = s.top.node.toNat)
    ⟨g, g.byte + (if ofsOnSrc op (srcOwn s c w) then 0 else 64 * ofs),
      if mdTrs w then mdRowlen w / e else mdRows w, if mdTrs w then mdRows w * e else mdRowlen w, mdDstr w,
      here, here && ownUnit c g⟩)

/-- The ends of a move (R154, R155, R157): none where an address does not parse; a RED has a source only. -/
def mdEnds (s : State) (c : CoreId) (op : Nat) (w : W256) (ofs : Int) : Option (End × Option End) :=
  match srcEnd s c op w ofs with
  | none => none
  | some a => if op = opRED then some (a, none) else (dstEnd s c op w ofs).map (fun b => (a, some b))

/-- An end lies where R154 and R155 place it for the opcode; `other` tells whether the other end of a MOV lies in the
issuing core. -/
def endPlaced (op : Nat) (trs : Bool) (isSrc : Bool) (x : End) (other : Bool) : Bool :=
  -- a folio address names the issuing core's own folio only (R144)
  (if x.g.space = 4 then x.own else true)
  && (if op = opMOV then x.here && (x.own || other)
      else if op = opPUT then (if isSrc then x.here else !x.here)
      else if op = opGET then (if isSrc then !x.here else x.own)
      else x.here)
  && (if isSrc && trs then x.own && x.g.space == 3 else true)

/-- The checks of R157 on one end; `perm` is 35 LR for a source, 34 LW for a destination. -/
def endCheck (s : State) (j : Nat) (op : Nat) (trs isSrc : Bool) (x : End) (other : Bool) : Option Nat :=
  if !(gaOk s x.g x.lo) ∨ !(gaOk s x.g x.hi) then some 0x0702
  else if !endPlaced op trs isSrc x other then some 0x0702
  else if x.here && !x.own then
    if !(jobQuads s j).contains x.g.q then some 0x0705
    else if !regionHolds s (regionsOf s j) x.g x.lo.toNat x.hi.toNat (if isSrc then 35 else 34)
    then some 0x0703 else none
  else none

/-- First answer of a list of checks. -/
def firstSome : List (Option Nat) → Option Nat
  | [] => none
  | some a :: _ => some a
  | none :: r => firstSome r

/-- The checks of R157, in order: the code of the first failure. -/
def moveCheck (s : State) (c : CoreId) (j : Nat) (op : Nat) (w : W256) (ofs : Int) : Option Nat :=
  if mdFormatBad op w then some 0x0701
  else if op = opSIG then
    if mdRows w = 0 then some 0x0702
    else match gaParse (mdDst w) with
      | none => some 0x0702
      | some g => if g.space = 2 ∧ g.node ≠ s.top.node.toNat ∧ gaOk s g g.byte ∧ g.byte = 0
                  then none else some 0x0702
  else if mdRows w = 0 ∨ mdRowlen w = 0 then some 0x0702
  else if mdTrs w ∧ (mdEsz w = 3 ∨ mdRowlen w % 2 ^ mdEsz w ≠ 0) then some 0x0701
  else match srcEnd s c op w ofs with
    | none => some 0x0702
    | some src =>
      let d := if op = opRED then none else dstEnd s c op w ofs
      let first := endCheck s j op (mdTrs w) true src (match d with | some x => x.own | none => false)
      if op = opRED then first
      else match d with
        | none => firstSome [first, some 0x0702]
        | some dst => firstSome [first, endCheck s j op (mdTrs w) false dst src.own,
            (if 1 < dst.n ∧ dst.str.natAbs < dst.len then some 0x0702 else none),
            (if src.here && dst.here && piecesMeet src.pieces dst.pieces then some 0x0704 else none)]

/-- 64 B lines that a row touches (R159). -/
def rowLines (b len : Nat) : Nat := if len = 0 then 0 else (b + len - 1) / 64 - b / 64 + 1

/-- The line count N of a move (R159). -/
def moveLines (s : State) (c : CoreId) (op : Nat) (w : W256) (ofs : Int) : Nat :=
  if op = opGET ∨ op = opSIG then 1
  else match mdEnds s c op w ofs with
    | none => 1
    | some (src, dst) =>
      let ls := (List.range src.n).map (fun r => rowLines (src.row r) src.len)
      if mdTrs w ∨ op ≠ opMOV then sumNat ls
      else match dst with
        | none => sumNat ls
        | some d => sumNat (((List.range src.n).zip ls).map (fun e => max e.2 (rowLines (d.row e.1) d.len)))

/-- Die-to-die links that lines between two quadrants cross (R160). -/
def pathHops (s : State) (j q r : Nat) : Nat :=
  match pathOf s j q r with
  | .link => 1
  | .hub => 2
  | .via _ => 2

/-- A neighbour link is open while both quadrants carry one non-zero accession (R20) and neither is in
reset (R392). -/
def nbrOpen (s : State) (q r : Nat) : Bool :=
  decide (owner s q ≠ 0) && decide (owner s q = owner s r) && !quadRst s q && !quadRst s r

/-- The pairs that have a neighbour link (R20). -/
def nbrPair (q r : Nat) : Bool :=
  decide (q ≠ r) && decide (q < 4) && decide (r < 4) && decide (q + r ≠ 3)

/-- Lp of a MOV by its other end (R160). -/
def movLatency (s : State) (c : CoreId) (j : Nat) (src dst : End) : Nat :=
  let isWrite := src.own
  let o := if src.own then dst else src
  let q := c.cl.q.val
  let hops := if o.g.q = q then 0 else pathHops s j q o.g.q
  let sameClu := o.g.q = q ∧ o.g.cl = c.cl.c.val
  let h := gridDist (physCore s q c.cl.c.val c.k.val) (physCore s q o.g.cl o.g.k)
  let pair := if src.own && dst.own then (4, 4)
    else if o.g.space = 3 ∧ sameClu then (6 + 2 * h, 12 + 4 * h)
    else if o.g.space = 2 ∧ sameClu then (10, 20)
    else if 2 ≤ o.g.space then (24, 48)
    else (24, 264)
  if isWrite then pair.1 + 40 * hops else pair.2 + 80 * hops

/-- The rows that arrive at the destination, given the source rows (R155). -/
def transposeRows (e : Nat) (rows : List (List Byte)) (n : Nat) : List (List Byte) :=
  (List.range n).map (fun i => rows.flatMap (fun r => (r.drop (i * e)).take e))

/-- Bytes of an end's rows. -/
def endRows (s : State) (x : End) : List (List Byte) :=
  (List.range x.n).map (fun r => (x.rowAddrs r).map (rdByte s))

/-- Cells that rows of bytes make at an end. -/
def endCells (x : End) (rows : List (List Byte)) : List Host.Cell :=
  ((List.range x.n).zip rows).flatMap (fun e => (x.rowAddrs e.1).zip e.2)

/-- Charge the HBM lines of an end to the windows of R151, one in each core cycle from core cycle `t0`. -/
def chargeEnd (s : State) (w : Who) (x : End) (t0 : Nat) : State × Bool :=
  if x.here ∧ x.g.space ≤ 1 then
    let ls := x.pieces.flatMap (fun p => (List.range (rowLines p.1 p.2)).map (p.1 / 64 + ·))
    ((List.range ls.length).zip ls).foldl (fun (a : State × Bool) l =>
      if a.2 then hbmAccept a.1 w (quadOf (64 * l.2)) (stackOf (64 * l.2)) (4 * (t0 + l.1)) 1 (64 * l.2) else a) (s, true)
  else (s, true)

end Sys2Proof.Machine
end

