-- ==== Sys2Proof/Machine/Queues.lean ====
section
/-! DEFINITION. Queue-pool classes (R293 to R296), context definitions (R244, R245), packets (R279, R280),
and routing (R285 to R291). -/

namespace Sys2Proof.Machine

/-! ## Context definitions (R244 to R247, R251) -/

def cxWord (d : CtxDef) (w : Nat) : W64 := d.hdr.getD w 0
def cxCtx (d : CtxDef) : Nat := fld (cxWord d 0) 63 56
def cxBkt (d : CtxDef) : Nat := fld (cxWord d 0) 55 40
def cxVote (d : CtxDef) : Bool := bit (cxWord d 0) 39
def cxWout (d : CtxDef) : Nat := fld (cxWord d 0) 38 37
def cxRoot (d : CtxDef) : Bool := bit (cxWord d 0) 36
def cxCW (d : CtxDef) : Nat := fld (cxWord d 0) 35 29
def cxNin (d : CtxDef) : Nat := fld (cxWord d 0) 28 25
def cxLG (d : CtxDef) : Nat := fld (cxWord d 0) 24 23
def cxLen (d : CtxDef) : Nat := fld (cxWord d 1) 63 32
def cxParent (d : CtxDef) : Nat := fld (cxWord d 1) 31 19
def cxNseg (d : CtxDef) : Nat := fld (cxWord d 1) 18 12
def cxNdlv (d : CtxDef) : Nat := fld (cxWord d 1) 11 9
/-- IN(i), 16 bits. -/
def cxIn (d : CtxDef) (i : Nat) : BitVec 16 :=
  BitVec.ofNat 16 ((cxWord d (2 + i / 4)).toNat >>> (16 * (i % 4)))
def inLoc (w : BitVec 16) : Bool := bit w 15
def inWid (w : BitVec 16) : Nat := fld w 14 13
def inNode (w : BitVec 16) : Nat := fld w 12 0
def cxDlv (d : CtxDef) (k : Nat) : Nat := (cxWord d (4 + k)).toNat
/-- CRD(k), 16 bits. -/
def cxCrd (d : CtxDef) (k : Nat) : BitVec 16 := BitVec.ofNat 16 ((cxWord d 8).toNat >>> (16 * k))
def crdClu (w : BitVec 16) : Nat := fld w 15 12
def crdCC (w : BitVec 16) : Nat := fld w 11 7
def crdCCE (w : BitVec 16) : Bool := bit w 6

def sgQ (w : W64) : Nat := fld w 63 62
def sgCl (w : W64) : Nat := fld w 61 58
def sgCo (w : W64) : Nat := fld w 57 51
def sgFch (w : W64) : Nat := fld w 50 27
def sgNchs (w : W64) : Nat := fld w 26 3

/-- Elements of a full chunk. -/
def cxChunk (d : CtxDef) : Nat := if cxVote d then 2048 else 128
/-- NCH. -/
def cxNch (d : CtxDef) : Nat := cdiv (cxLen d) (cxChunk d)
/-- Elements of chunk c. -/
def cxElems (d : CtxDef) (c : Nat) : Nat := min (cxChunk d) (cxLen d - c * cxChunk d)
/-- Cells of a staging row, S (R251). -/
def cxS (d : CtxDef) : Nat :=
  if cxVote d then
    max 2 (sumNat ((List.range (cxNin d)).map (fun i => 2 ^ inWid (cxIn d i))))
  else cxNin d
/-- Cells that a context reserves (R251). -/
def cxReserve (d : CtxDef) : Nat := cxCW d * cxS d + cdiv ((cxNin d + 1) * cxNch d) 2048

/-- Elements of bit width of one input, up (R247): 16 in narrow mode, 2^WID in vote mode. -/
def upBits (d : CtxDef) (wid : Nat) : Nat := if cxVote d then 2 ^ wid else 16
/-- Width code of a down part (R247, R248): two-bit elements in vote mode. -/
def downWid (d : CtxDef) : Nat := if cxVote d then 1 else 0
/-- Bits of a down element (R247). -/
def downBits (d : CtxDef) : Nat := if cxVote d then 2 else 16
/-- Packed bytes of chunk c at b bits an element. -/
def chunkLen (d : CtxDef) (b c : Nat) : Nat := cdiv (cxElems d c * b) 8
/-- Parts of chunk c at b bits an element: only parts that hold elements are sent (R247). -/
def chunkParts (d : CtxDef) (b c : Nat) : Nat := cdiv (chunkLen d b c) 256

/-! ## Classes of the queue pool (R293, R294) -/

def poolCells : Nat := 262144

/-- Cells of a list of bytes. -/
def byteCells (n : Nat) : Nat := cdiv n 256

/-- Cells of a VC freed since link-up (R275): the data flits before the one in which the oldest packet still held, whole
or in part, starts. -/
def freedCells (l : Link) (vc : Nat) : Nat :=
  match tget [] l.inAt vc with
  | n :: _ => n
  | [] => if (tget [] l.stream vc).isEmpty then tget 0 l.rxn vc else tget 0 l.partAt vc

/-- Ingress cells that a VC of a lane group holds: one for each data flit accepted and not freed (R275). -/
def ingressCells (l : Link) (vc : Nat) : Nat := tget 0 l.rxn vc - freedCells l vc

/-- Sum over the 24 lane groups. -/
def overLinks (s : State) (f : Link → Nat) : Nat := sumNat ((List.range 24).map (fun g => f (getLink s g)))

/-- Cells in use by a class, from what its queues hold. -/
def clsUse (s : State) (c : Nat) : Nat :=
  if c = 0 then overLinks s (fun l => l.replay.length)
  else if c = 1 then overLinks s (fun l => sumNat ([0, 1, 2, 3].map (ingressCells l)))
  else if c = 2 then overLinks s injCells
  else if c = 3 then
    sumNat (s.fab.msgs.map (fun m => if m.tomb.isSome then 0 else sumNat (m.got.map (fun p => pktCells p.2))))
      + sumNat (s.fab.arrive.map Arrival.cells)
  else if c = 4 then
    sumNat (s.ctxs.map (fun e => if e.2.owner = 0 then 0 else cxReserve e.2.defn + e.2.ovfl.length))
  else if c = 5 then
    sumNat (s.bar2.map (fun b => match b.data with | some d => max 1 (byteCells d.length) | none => 1))
  else if c = 6 then sumNat (s.fab.telem.map (fun r => byteCells r.length))
  else if c = 7 then sumNat (s.fab.trace.map (fun r => byteCells r.length))
  else if c = 8 then cdiv (min (s.ldg.wr - min s.ldg.rd s.ldg.bmc) 8192 * 32) 256
  else 0

/-- Minimum of a class (R294): 0, 1 and 8 are fixed or follow the credit limits. -/
def clsMinOf (s : State) (c : Nat) : Nat :=
  if c = 0 then 18432
  else if c = 1 then
    sumNat ((List.range 24).map (fun g =>
      4 * fld (reg s (at' (pgLNK (g / 4)) (0x10C + 0x40 * (g % 4)))) 9 0))
  else if c = 8 then 1024
  else tget 0 s.fab.clsMin c

/-- Sum of all minimums. -/
def minSum (s : State) : Nat := sumNat ((List.range 9).map (clsMinOf s))

/-- Overflow cells of window stalls (R251). -/
def ovflCells (s : State) : Nat := sumNat (s.ctxs.map (fun e => if e.2.owner = 0 then 0 else e.2.ovfl.length))

/-- Shared cells that classes hold beyond their minimums; overflow cells are shared cells throughout (R251). -/
def sharedUse (s : State) : Nat :=
  sumNat ((List.range 9).map (fun c => if c = 4 then ovflCells s else clsUse s c - clsMinOf s c))

/-- Free shared cells, QP_FREE. -/
def qpFree (s : State) : Nat := poolCells - minSum s - sharedUse s

/-- Class c can take n more cells (R293): within its minimum, or up to QP_CLS_MAX from the shared
remainder. -/
def clsRoom (s : State) (c n : Nat) : Bool :=
  let u := clsUse s c
  let m := clsMinOf s c
  decide (u + n ≤ m)
  || (decide (u + n ≤ tget 0 s.fab.clsMax c) && decide (u + n - max u m ≤ qpFree s))

/-- An overflow cell can be had: from the shared remainder, up to the circulation class's QP_CLS_MAX (R251, R293). -/
def ovflRoom (s : State) : Bool :=
  decide (clsMinOf s 4 + ovflCells s + 1 ≤ tget 0 s.fab.clsMax 4) && decide (1 ≤ qpFree s)

/-- Count items overwritten or discarded in a class (QP_LOST, saturating). -/
def lostItem (s : State) (c n : Nat) : State :=
  { s with fab := { s.fab with
      clsLost := tput 0 s.fab.clsLost c (min 0xFFFFFFFF (tget 0 s.fab.clsLost c + n)) } }

/-- The check codes of the next item of a queue: 0 good or corrected, 2 uncorrectable, 3 with an
unreadable header. The flaw goes with the item. -/
def qCheck (s : State) (n : Nat) : State × Nat :=
  let w := tget 0 s.fab.qFlaws n
  if w = 0 then (s, 0)
  else
    let ce := if w = 1 then tput 0 s.fab.qCe n (min 0xFFFFFFFF (tget 0 s.fab.qCe n + 1)) else s.fab.qCe
    ({ s with fab := { s.fab with qFlaws := tput 0 s.fab.qFlaws n 0, qCe := ce } }, if w = 1 then 0 else w)

/-- The check code of a queue of classes 6 to 8 (R296), looked at when the next item enters (DESIGN CHOICE, log 132): a
corrected word counts; for an error beyond correction `drop` discards the oldest item, and QP_LOST counts it. -/
def itemCheck (s : State) (n c : Nat) (drop : State → State) : State :=
  let w := tget 0 s.fab.qFlaws n
  let s := { s with fab := { s.fab with qFlaws := tput 0 s.fab.qFlaws n 0 } }
  if w = 0 then s
  else if w = 1 then
    { s with fab := { s.fab with qCe := tput 0 s.fab.qCe n (min 0xFFFFFFFF (tget 0 s.fab.qCe n + 1)) } }
  else drop (lostItem s c 1)

/-- Drop oldest items while the rest and a new one of n cells do not fit into m. -/
def dropOld (m n : Nat) : List (List Byte) → List (List Byte) × Nat
  | [] => ([], 0)
  | r :: t =>
    if sumNat ((r :: t).map (fun x => byteCells x.length)) + n ≤ m then (r :: t, 0)
    else let d := dropOld m n t; (d.1, d.2 + 1)

/-- Add a telemetry (class 6) or trace (class 7) record: the oldest items give way within the
class's cells, and a record that fits nowhere is lost itself (R294). A frozen trace queue takes
no record (R444). -/
def pushRec (s : State) (c : Nat) (r : List Byte) : State :=
  let s := itemCheck s (0x1FA + c) c (fun s => { s with fab :=
    if c = 6 then { s.fab with telem := s.fab.telem.drop 1 } else { s.fab with trace := s.fab.trace.drop 1 } })
  let q := if c = 6 then s.fab.telem else s.fab.trace
  let n := byteCells r.length
  if c = 7 ∧ s.sync.frozen then lostItem s c 1
  else if clsRoom s c n then
    { s with fab := if c = 6 then { s.fab with telem := q ++ [r] } else { s.fab with trace := q ++ [r] } }
  else
    let m := max (clsMinOf s c) (min (clsUse s c) (tget 0 s.fab.clsMax c))
    let d := dropOld m n q
    let fits := decide (sumNat (d.1.map (fun x => byteCells x.length)) + n ≤ m)
    let q' := if fits then d.1 ++ [r] else q
    let s := lostItem s c (if fits then d.2 else 1)
    { s with fab := if c = 6 then { s.fab with telem := q' } else { s.fab with trace := q' } }

/-! ## Packets (R279, R280) -/

def pkMT (p : Packet) : Nat := fld p.hdr 127 125
def pkAcc (p : Packet) : Nat := fld p.hdr 124 113
def pkDst (p : Packet) : Nat := fld p.hdr 112 100
def pkSrc (p : Packet) : Nat := fld p.hdr 99 87
def pkVia (p : Packet) : Nat := fld p.hdr 86 74
def pkPH (p : Packet) : Bool := bit p.hdr 73
def pkED (p : Packet) : Nat := fld p.hdr 72 72
def pkRetx (p : Packet) : Bool := bit p.hdr 70
def pkMC (p : Packet) : Bool := bit p.hdr 69
def pkMCD (p : Packet) : Nat := fld p.hdr 68 67
def pkMCN (p : Packet) : Nat := fld p.hdr 66 66
def pkMid (p : Packet) : Nat := fld p.hdr 65 34
def pkPidx (p : Packet) : Nat := fld p.hdr 33 28
def pkNpm1 (p : Packet) : Nat := fld p.hdr 27 22
def pkPlen (p : Packet) : Nat := fld p.hdr 21 13
def pkHops (p : Packet) : Nat := fld p.hdr 12 6

/-- Replace a field of the first header half. -/
def hdrPut (h : W128) (hi lo v : Nat) : W128 :=
  let m : Nat := (2 ^ (hi + 1 - lo) - 1) <<< lo
  (h &&& ~~~ BitVec.ofNat 128 m) ||| BitVec.ofNat 128 ((v % 2 ^ (hi + 1 - lo)) <<< lo)

/-- Header of a packet that this module makes (R279), before routing: VIA = SRC, MIN and MC 0 (log 27). -/
def mkHdr (mt acc dst src mid pidx n plen : Nat) : W128 :=
  BitVec.ofNat 128 (mt * 2 ^ 125 + acc % 4096 * 2 ^ 113 + dst % 8192 * 2 ^ 100 + src % 8192 * 2 ^ 87
    + src % 8192 * 2 ^ 74 + mid % 2 ^ 32 * 2 ^ 34 + pidx % 64 * 2 ^ 28 + (n - 1) % 64 * 2 ^ 22
    + plen % 512 * 2 ^ 13)

def mtPUT : Nat := 1
def mtGET : Nat := 2
def mtREPLY : Nat := 3
def mtREDUCE : Nat := 4
def mtSIGNAL : Nat := 5

/-! ## Routing tables (R285, R299) -/

/-- Word w of edition ed of job slot j. -/
def edWord (s : State) (j ed w : Nat) : W32 := tget 0 s.fab.tbl (12 * j + 6 * ed + w)
/-- DIR(d, c). -/
def edDir (s : State) (j ed d c : Nat) : Nat :=
  if d = 0 then fld (edWord s j ed (c / 16)) (2 * (c % 16) + 1) (2 * (c % 16))
  else fld (edWord s j ed (1 + d)) (2 * c + 1) (2 * c)
/-- WRAP(d). -/
def edWrap (s : State) (j ed d : Nat) : Nat := fld (edWord s j ed 4) (2 * d + 1) (2 * d)
/-- LGM(p) holds group g. -/
def edLgm (s : State) (j ed p g : Nat) : Bool := bit (edWord s j ed 5) (4 * p + g)
/-- Active edition of a job slot, and whether an edition is valid (RTR_ED). -/
def rtrEd (s : State) (j : Nat) : W32 := reg s (at' pgRTR (0x100 + 0x40 * j))
def edActive (s : State) (j : Nat) : Nat := fld (rtrEd s j) 0 0
def edValid (s : State) (j ed : Nat) : Bool := bit (rtrEd s j) (1 + ed)

/-- Coordinate of a node in a dimension: X [12:8], Y [7:4], Z [3:0] (R285). -/
def coord (d n : Nat) : Nat := if d = 0 then n / 256 % 32 else if d = 1 then n / 16 % 16 else n % 16
def coords (d : Nat) : Nat := if d = 0 then 32 else 16
def nodeOf (x y z : Nat) : Nat := 256 * x + 16 * y + z

def ownNode (s : State) : Nat := s.top.node.toNat

/-- Where a packet goes next toward a node: here, out of a port, or nowhere. -/
inductive Hop where
  | here
  | port (p : Nat)
  | none
deriving DecidableEq, Repr

/-- First unresolved dimension: X, then Y, then Z (R286). -/
def firstDim (a b : Nat) : Option Nat := [0, 1, 2].find? (fun d => coord d a ≠ coord d b)

/-- Next hop by an edition toward a node (R286): ports of dimension d are 2d plus and 2d + 1 minus. -/
def nextHop (s : State) (j ed target : Nat) : Hop :=
  match firstDim (ownNode s) target with
  | none => .here
  | some d =>
    let x := edDir s j ed d (coord d target)
    if x = 1 then .port (2 * d) else if x = 2 then .port (2 * d + 1) else .none

/-- The port crosses the dateline of its dimension (R285). -/
def wraps (s : State) (j ed p : Nat) : Bool :=
  let w := edWrap s j ed (p / 2)
  decide (w = 1 + p % 2)

/-- VC of a packet leaving by port p in a phase (R287): `stay` is true if it came in the same
dimension and phase after the dateline. -/
def outVc (s : State) (j ed p : Nat) (phase : Bool) (after : Bool) : Nat :=
  (if phase then 2 else 0) + (if after || wraps s j ed p then 1 else 0)

/-- Free credits of a lane group on a VC (R275). -/
def freeCred (l : Link) (vc : Nat) : Nat :=
  l.peerLim - ((tget 0 l.sent vc + 1024 - tget 0 l.crn vc % 1024) % 1024)

/-- Lane group of LGM with the most free credits on a VC, lower index on a tie (R286). -/
def bestGrp (s : State) (j ed p vc : Nat) : Option Nat :=
  ([0, 1, 2, 3].filter (edLgm s j ed p)).foldl (fun (b : Option Nat) g =>
    match b with
    | none => some g
    | some x => if freeCred (getLink s (4 * p + x)) vc < freeCred (getLink s (4 * p + g)) vc
                then some g else some x) none

/-- First data word of R297. -/
def d0Lnk (acc g : Nat) : W32 := BitVec.ofNat 32 (acc % 4096 * 2 ^ 20 + g / 4 % 8 * 2 ^ 17 + g % 4 * 2 ^ 15)

/-- A drop under R290: counted for the job's slot, logged, and the job faults; without a resident
job the entry is an Error and nothing else counts. `who` is the accession that faults. -/
def rtrDrop (s : State) (code who acc g mid : Nat) : State :=
  match residentAcc s who with
  | some j =>
    let s := bump s (at' pgRTR (0x108 + 0x40 * j)) 1
    let s := post s pgRTR sevFault code (BitVec.ofNat 12 who) (d0Lnk acc g) (BitVec.ofNat 32 mid)
    jobFault s j
  | none => post s pgRTR sevError code (BitVec.ofNat 12 acc) (d0Lnk acc g) (BitVec.ofNat 32 mid)

/-! ## Sending a packet of this module (R286 to R288, R291, R294) -/

/-- Candidate intermediate number n of a draw (R288): each coordinate from those whose DIR is not 3. -/
def viaCand (s : State) (j ed n : Nat) : Nat :=
  let pick := fun d =>
    let l := (List.range (coords d)).filter (fun c => edDir s j ed d c ≠ 3)
    l.getD (Config.viaDraw s.draws (3 * n + d) % l.length) (coord d (ownNode s))
  nodeOf (pick 0) (pick 1) (pick 2)

/-- First hop of a packet with intermediate `via`, by group number g, and whether it is in phase 1. -/
def firstHop (s : State) (j ed via dst : Nat) : Hop × Bool :=
  match nextHop s j ed via with
  | .here => (nextHop s j ed dst, true)
  | h => (h, false)

/-- Free credits on VC 0 of a first hop. -/
def hopCred (s : State) (g : Nat) (h : Hop) : Nat :=
  match h with
  | .port p => freeCred (getLink s (4 * p + g)) 0
  | _ => 0

/-- VIA of a new packet (R288): the candidate whose first hop has more free credits on VC 0. -/
def chooseVia (s : State) (j ed g dst : Nat) : Nat :=
  let a := viaCand s j ed 0
  let b := viaCand s j ed 1
  if hopCred s g (firstHop s j ed a dst).1 < hopCred s g (firstHop s j ed b dst).1 then b else a

/-- The newest packet of a full injection class is dropped (R294). -/
def injFull (s : State) (j g : Nat) (p : Packet) : State :=
  let s := bump s (at' pgQP 0x124) 1
  let s := post s pgQP sevFault 0x0C0D (accOf s j) (d0Lnk (pkAcc p) g) (BitVec.ofNat 32 (pkMid p))
  jobFault s j

/-- Put a routed packet into the injection queue of lane group `g` (R291). -/
def injPut (s : State) (j g : Nat) (p : Packet) : State :=
  if clsRoom s 2 (pktCells p) then
    let l := getLink s g
    setLink s g { l with inj := l.inj ++ [p] }
  else injFull s j g p

/-- OPT_GRP_MODE of a lane group: 0 two-way, 1 one-way source, 2 one-way receiver (R309, R327). -/
def grpMode (s : State) (g : Nat) : Nat :=
  fld (reg s (at' pgOPT (0x160 + 4 * (g / 4)))) (2 * (g % 4) + 1) (2 * (g % 4))

/-- A PUT or SIGNAL whose way to DST leaves by a one-way source group is multicast along that port's axis (R289, R309). -/
def mcPort (s : State) (j ed g : Nat) (p : Packet) : Option Nat :=
  match nextHop s j ed (pkDst p) with
  | .port x => if grpMode s (4 * x + g) = 1 ∧ (pkMT p = mtPUT ∨ pkMT p = mtSIGNAL) then some x else none
  | _ => none

/-- The header of a multicast packet (R279, R289): VIA is SRC, phase 1, dimension and direction of the port. -/
def mcHdr (h : W128) (src ed x : Nat) : W128 :=
  hdrPut (hdrPut (hdrPut (hdrPut (hdrPut (hdrPut h 86 74 src) 73 73 1) 72 72 ed) 69 69 1) 68 67 (x / 2)) 66 66 (x % 2)

/-- Queue a multicast packet of this module: its line must lead to DST, and LGM hold the group (R289, R290). -/
def originateMc (s : State) (j g ed x : Nat) (p : Packet) : State :=
  let off := [0, 1, 2].any (fun d => decide (d ≠ x / 2) && decide (coord d (pkDst p) ≠ coord d (ownNode s)))
  if off then rtrDrop s 0x0C09 (pkAcc p) (pkAcc p) (4 * x + g) (pkMid p)
  else if edLgm s j ed x g then injPut s j (4 * x + g) { p with hdr := mcHdr p.hdr (ownNode s) ed x }
  else rtrDrop s 0x0C07 (pkAcc p) (pkAcc p) (4 * x + g) (pkMid p)

/-- Route a packet of job slot j by its active edition on group number `g` and queue it (R286,
R288): the egress port's LGM must hold the group. A one-way source group takes multicast packets only (R309): any
other that its route leads there is dropped as unreachable (DESIGN CHOICE, log 132). -/
def originate (s : State) (j g : Nat) (p : Packet) : State :=
  let ed := edActive s j
  match mcPort s j ed g p with
  | some x => originateMc s j g ed x p
  | none =>
  let via := chooseVia s j ed g (pkDst p)
  let h := firstHop s j ed via (pkDst p)
  let s := fresh s
  match h.1 with
  | .port x =>
    if edLgm s j ed x g && decide (grpMode s (4 * x + g) = 0) then
      let hd := hdrPut (hdrPut (hdrPut p.hdr 86 74 via) 73 73 (if h.2 then 1 else 0)) 72 72 ed
      injPut s j (4 * x + g) { p with hdr := hd }
    else rtrDrop s 0x0C07 (pkAcc p) (pkAcc p) (4 * x + g) (pkMid p)
  | _ => rtrDrop s 0x0C07 (pkAcc p) (pkAcc p) g (pkMid p)

/-- Queue several packets, as long as the job is not faulted. -/
def originateAll (s : State) (j g : Nat) (ps : List Packet) : State :=
  ps.foldl (fun s p => if resident (getJob s j).st then originate s j g p else s) s

/-- Next message ID of a job (R279). -/
def nextMid (s : State) (j : Nat) : Nat × State :=
  let x := getJob s j
  (x.mid.toNat, setJob s j { x with mid := x.mid + 1 })

/-- Global address of byte b of the unit of g (R144). -/
def gaWord (g : GA) (b : Nat) : Nat :=
  g.node * 2 ^ 51 + g.space * 2 ^ 47 + g.q * 2 ^ 39
  + (if g.space = 0 then g.st * 2 ^ 37 else 0)
  + (if 2 ≤ g.space then g.cl * 2 ^ 35 else 0)
  + (if 3 ≤ g.space then g.k * 2 ^ 28 else 0)
  + (if g.space = 4 then g.fo * 2 ^ 13 else 0) + b

/-- Pieces of at most 256 B of rows of bytes that lie at byte addresses (R281). -/
def cutRows (rows : List (Nat × List Byte)) : List (Nat × List Byte) :=
  rows.flatMap (fun r =>
    let cs := chunksOf 256 r.2.length r.2
    ((List.range cs.length).zip cs).map (fun e => (r.1 + 256 * e.1, e.2)))

/-- Make messages of 64 packets and queue them (R281): `mk` gives the second header half of the
piece at an address. -/
def sendMessages (s : State) (j g mt dst : Nat) (mk : Nat → W128) (ps : List (Nat × List Byte)) : State :=
  (chunksOf 64 ps.length ps).foldl (fun s m =>
    let r := nextMid s j
    let pk := ((List.range m.length).zip m).map (fun e =>
      let h := mkHdr mt (accOf s j).toNat dst (ownNode s) r.1 e.1 m.length e.2.2.length
      ({ hdr := h, hdr2 := mk e.2.1, pay := e.2.2 } : Packet))
    originateAll r.2 j g pk) s

end Sys2Proof.Machine
end

