-- ==== Sys2Proof/Machine/CircOps.lean ====
section
/-! DEFINITION. The circulation engine: checks, staging, sums, results and delivery (R250 to R261). -/

namespace Sys2Proof.Machine

/-- A contribution as the hub checks it (R250). `core` is the issuing core of a local one. -/
structure Contrib where
  core  : Option CoreId
  acc   : Nat
  ctx   : Nat
  bkt   : Nat
  step  : W32
  chunk : Nat
  part  : Nat
  down  : Bool
  wid   : Nat
  vote  : Bool
  retx  : Bool
  src   : Nat
  bytes : List Byte
deriving DecidableEq, Repr

/-- First data word of R262. -/
def d0Cir (acc ctx chunk : Nat) : W32 :=
  BitVec.ofNat 32 (acc % 4096 * 2 ^ 20 + ctx % 256 * 2 ^ 12 + chunk % 4096)

/-- A circulation fault of job slot j (R262). -/
def cirFault (s : State) (j code : Nat) (x : Contrib) : State :=
  jobFault (post s pgCIR sevFault code (accOf s j) (d0Cir x.acc x.ctx x.chunk) x.step) j

/-- Context entry of a job-local number (R243). -/
def ctxEntry (s : State) (j n : Nat) : Option Nat :=
  match tget none (getJob s j).ctxs n with
  | some e => if (getCtx s e).owner ≠ 0 ∧ (getCtx s e).job = j then some e else none
  | none => none

/-- Input number of a sender, up; a local contribution is input 0 (R244, R246). -/
def inputOf (d : CtxDef) (x : Contrib) : Option Nat :=
  if x.core.isSome then (if decide (0 < cxNseg d) && inLoc (cxIn d 0) then some 0 else none)
  else ((List.range (cxNin d)).find? (fun i => !inLoc (cxIn d i) && decide (inNode (cxIn d i) = x.src)))

/-- First segment of a core (R245). -/
def segOfCore (d : CtxDef) (c : CoreId) : Option W64 :=
  d.segs.find? (fun w => sgQ w == c.cl.q.val && sgCl w == c.cl.c.val && sgCo w == c.k.val)

/-- Row number of a chunk (R251). -/
def rowOf (d : CtxDef) (c : Nat) : Nat := c % cxCW d

/-- A staged part keeps the row of chunk `c` from a part that goes `down`: another chunk's, or an up part of its own
(R251, R258). -/
def keepsRow (x : Ctx) (c : Nat) (down : Bool) (p : Part) : Bool :=
  decide (rowOf x.defn p.chunk = rowOf x.defn c)
    && (decide (p.chunk ≠ c) || (decide (p.input = cxNin x.defn) != down))

/-- The row of chunk `c` takes no part of it now: it holds others, or a lower chunk waits for it (R251). -/
def rowTaken (x : Ctx) (c : Nat) (down : Bool) : Bool :=
  x.parts.any (keepsRow x c down)
    || x.ovfl.any (fun p => decide (rowOf x.defn p.chunk = rowOf x.defn c) && decide (p.chunk < c))

/-- Bits of an element of input i (NIN for the down direction). -/
def inputBits (d : CtxDef) (i : Nat) : Nat :=
  if i = cxNin d then downBits d else upBits d (inWid (cxIn d i))

/-- R253: every input cell set is complete. -/
def allIn (x : Ctx) : Bool := decide (cxNin x.defn * cxNch x.defn ≤ x.sets)

/-- Number of result chunks handed on. -/
def handed (x : Ctx) : Nat := (x.done.filter (fun p => decide (p.1 = cxNin x.defn))).length

/-- The context goes back to IDLE when every result chunk has been forwarded and delivered (R260);
the done map is cleared, the step is kept as the last one completed. -/
def ctxSettle (x : Ctx) : Ctx :=
  let n := cxNch x.defn
  let all := decide (n ≤ handed x) && decide (cxNdlv x.defn * n ≤ x.landed.length)
  if all && (if cxRoot x.defn then x.st == .open && allIn x else x.st == .waitDown) then
    { x with st := .idle, last := some x.step, sets := 0, parts := [], ovfl := [], done := [],
             sentUp := [], landed := [] }
  else x

/-- REDUCE message of this module (R248). -/
def reducePkt (s : State) (x : Ctx) (mid dst chunk part wid : Nat) (down last : Bool) (b : List Byte) :
    Packet :=
  { hdr := mkHdr mtREDUCE x.owner.toNat dst (ownNode s) mid 0 1 b.length
    hdr2 := BitVec.ofNat 128 (x.owner.toNat * 2 ^ 116 + cxCtx x.defn * 2 ^ 108 + cxBkt x.defn * 2 ^ 92
      + x.step.toNat * 2 ^ 60 + chunk % 2 ^ 24 * 2 ^ 36 + part % 8 * 2 ^ 33
      + (if down then 2 ^ 32 else 0) + wid % 4 * 2 ^ 30 + (if cxVote x.defn then 2 ^ 29 else 0)
      + (if last then 2 ^ 28 else 0) + ownNode s * 2 ^ 15)
    pay := b }

/-- Send the bytes of a chunk to a node, one message a part (R247). -/
def sendChunk (s : State) (e dst chunk wid : Nat) (down last : Bool) (bytes : List Byte) : State :=
  let x := getCtx s e
  let ps := chunksOf 256 bytes.length bytes
  ((List.range ps.length).zip ps).foldl (fun s p =>
    let r := nextMid s x.job
    let pk := reducePkt s x r.1 dst chunk p.1 wid down (last && decide (p.1 + 1 = ps.length)) p.2
    originateAll r.2 x.job (cxLG x.defn) [pk]) s

/-- BF16 bytes that a delivery writes for one result chunk (R259). -/
def deliveryBytes (d : CtxDef) (chunk : Nat) (res : List Byte) : List Byte :=
  if cxVote d then
    (List.range (cxElems d chunk)).flatMap (fun i =>
      let c := ((res.getD (i / 4) 0).toNat >>> (2 * (i % 4))) % 4
      bytesOf 2 (if c = 1 then 0x3F80 else if c = 3 then 0xBF80 else 0))
  else res

/-- What delivery k of a chunk waits for in the arrival class (R259). -/
def deliveryOf (s : State) (e k chunk : Nat) (res : List Byte) : Option Arrival :=
  let x := getCtx s e
  let b := deliveryBytes x.defn chunk res
  match gaDecode s (cxDlv x.defn k) with
  | some g => some { q := Fin.ofNat 4 g.q
                     writes := (cellsAt (g.byte + 2 * cxChunk x.defn * chunk) b).map (fun c => (gaByte g c.1, c.2))
                     credit := none, ctx := some (e, k, chunk), get := none, job := x.job
                     cells := byteCells b.length }
  | none => none

/-- Cells that the deliveries of one chunk take in the arrival class. -/
def deliveryCells (x : Ctx) (chunk : Nat) : Nat :=
  cxNdlv x.defn * byteCells (2 * cxElems x.defn chunk)

/-- A result chunk goes to every remote input's node and to each delivery; its row frees (R258). -/
def handResult (s : State) (e chunk : Nat) (res : List Byte) : State :=
  let x := getCtx s e
  let last := decide (handed x + 1 = cxNch x.defn)
  let ins := ((List.range (cxNin x.defn)).map (cxIn x.defn)).filter (fun w => !inLoc w)
  let s := ins.foldl (fun s w => sendChunk s e (inNode w) chunk (downWid x.defn) true last res) s
  if (getCtx s e).owner ≠ x.owner ∨ (getCtx s e).st = .released then s
  else
    let ds := (List.range (cxNdlv x.defn)).filterMap (fun k => deliveryOf s e k chunk res)
    let s := { s with fab := { s.fab with arrive := s.fab.arrive ++ ds } }
    let x := getCtx s e
    setCtx s e (ctxSettle { x with parts := x.parts.filter (fun p => decide (p.chunk ≠ chunk))
                                   done := (cxNin x.defn, chunk) :: x.done })

/-- Bytes of an input of a chunk as staged, part by part. -/
def stagedBytes (x : Ctx) (input chunk : Nat) : List Byte :=
  ([0, 1, 2, 3, 4, 5, 6, 7].flatMap (fun p =>
    match x.parts.find? (fun y => y.chunk == chunk && y.input == input && y.part == p) with
    | some y => y.bytes
    | none => []))

/-- The input's cell set of a chunk is complete (R252). -/
def setFull (x : Ctx) (input chunk : Nat) : Bool :=
  decide (chunkParts x.defn (inputBits x.defn input) chunk
    ≤ (x.parts.filter (fun y => y.chunk == chunk && y.input == input)).length)

/-- An uncorrectable error in a staged cell (R257). -/
def cirUe (s : State) (e chunk : Nat) : State :=
  let x := getCtx s e
  let s := { s with cready := s.cready.filter (fun r => decide (r ≠ (e, chunk))) }
  let s := post s pgCIR sevFault 0x0B08 x.owner (d0Cir x.owner.toNat (cxCtx x.defn) chunk) x.step
  jobFault s x.job

/-- Check codes of a context's staged cells as they are read: an uncorrectable error drops the chunk (R257, R296). -/
def staged (s : State) (e chunk : Nat) (f : State → State) : State :=
  let c := qCheck s (0x100 + e)
  if c.2 = 0 then f c.1 else cirUe c.1 e chunk

/-- Stage a part into its row (R251, R252): a complete cell set is noted, a chunk with all inputs
goes on the ready list, a complete down result is forwarded and delivered (R258). -/
def stagePart (s : State) (e : Nat) (p : Part) : State :=
  let x := getCtx s e
  let x := { x with parts := x.parts ++ [p] }
  let nin := cxNin x.defn
  if !setFull x p.input p.chunk then setCtx s e x
  else if p.input = nin then
    staged (setCtx s e x) e p.chunk (fun s => handResult s e p.chunk (stagedBytes x nin p.chunk))
  else
    let x := { x with done := (p.input, p.chunk) :: x.done, sets := x.sets + 1 }
    let ready := (List.range nin).all (fun i => x.done.contains (i, p.chunk))
    let s := setCtx s e x
    if ready then { s with cready := s.cready ++ [(e, p.chunk)] } else s

/-- Stage a part, or put it into an overflow cell when its row still holds another chunk (R251); a
flushed context takes none (R482). -/
def takePart (s : State) (j e : Nat) (c : Contrib) (input : Nat) : State :=
  let x := getCtx s e
  if x.dead then s
  else
  let p : Part := { chunk := c.chunk, input := input, part := c.part, bytes := c.bytes }
  if rowTaken x c.chunk (decide (input = cxNin x.defn)) then
    let s := bump s (at' pgCIR 0x11C) 1
    if ovflRoom s then setCtx s e { x with ovfl := x.ovfl ++ [p] } else cirFault s j 0x0B09 c
  else stagePart s e p

/-- Enter or stay in STEPFAULT (R260, R261): the lowest and highest steps are recorded, and two
entries follow on entry. -/
def stepFault (s : State) (j e : Nat) (c : Contrib) : State :=
  let x := getCtx s e
  let lo := if c.step.toNat < x.lo.toNat then c.step else x.lo
  let hi := if x.hi.toNat < c.step.toNat then c.step else x.hi
  let s := setCtx s e { x with lo := lo, hi := hi, st := .stepFault }
  if x.st = .stepFault then s
  else
    let d0 := d0Cir c.acc c.ctx c.chunk
    let s := post s pgCIR sevFault 0x0B07 (accOf s j) d0 lo
    let s := post s pgCIR sevFault 0x0B07 (accOf s j) d0 hi
    jobFault s j

/-- A duplicate (R250): a remote one is discarded and counted, a local one faults. -/
def dupPart (s : State) (j : Nat) (c : Contrib) : State :=
  if c.core.isSome then cirFault s j 0x0B03 c else bump s (at' pgCIR 0x118) 1

/-- The part is held, or its input (or down result) of the chunk is done (R250). -/
def isDup (x : Ctx) (c : Contrib) (input : Nat) : Bool :=
  x.done.contains (input, c.chunk)
  || (x.parts ++ x.ovfl).any (fun p => p.chunk == c.chunk && p.input == input && p.part == c.part)

/-- The state table of R260 for a contribution that passed the earlier checks. -/
def byState (s : State) (j e : Nat) (c : Contrib) (input : Nat) : State :=
  let x := getCtx s e
  if x.st = .stepFault then stepFault s j e c
  else if x.st = .idle then
    if c.down then cirFault s j 0x0B06 c
    else
      let s := setCtx s e { x with st := .open, step := c.step, lo := c.step, hi := c.step }
      takePart s j e c input
  else if c.step ≠ x.step then stepFault s j e c
  else if c.down && x.st == .open && !allIn x then cirFault s j 0x0B06 c
  else if !c.down && x.st == .waitDown then dupPart s j c
  else if isDup x c input then dupPart s j c
  else takePart s j e c input

/-- The sender's place: its input number, NIN for the parent's down direction (R250). -/
def placeOf (d : CtxDef) (c : Contrib) : Option Nat :=
  if c.down then (if !cxRoot d && decide (c.src = cxParent d) then some (cxNin d) else none)
  else inputOf d c

/-- A contribution whose accession or context is unknown (R250, R262). -/
def noCtx (s : State) (c : Contrib) : State :=
  let s := bump s (at' pgCIR 0x114) 1
  match residentAcc s c.acc with
  | some j => cirFault s j 0x0B01 c
  | none =>
    if [0, 1, 2, 3].any (fun j => (getJob s j).st == .faulted && (getJob s j).acc.toNat == c.acc) then s
    else post s pgCIR sevError 0x0B01 (BitVec.ofNat 12 c.acc) (d0Cir c.acc c.ctx c.chunk) c.step

/-- The checks of R250, in order, on one part. -/
def takeContrib (s : State) (c : Contrib) : State :=
  match residentAcc s c.acc with
  | none => noCtx s c
  | some j =>
    match ctxEntry s j c.ctx with
    | none => noCtx s c
    | some e =>
      let x := getCtx s e
      let d := x.defn
      if c.bkt ≠ cxBkt d ∨ c.vote ≠ cxVote d then cirFault s j 0x0B02 c
      else match placeOf d c with
        | none => cirFault s j 0x0B03 c
        | some i =>
          let w := if c.down then downWid d else inWid (cxIn d i)
          if cxNch d ≤ c.chunk ∨ chunkParts d (inputBits d i) c.chunk ≤ c.part ∨ c.wid ≠ w then
            cirFault s j 0x0B04 c
          else if c.core.isNone && c.retx
              && (match x.last with | some l => decide (c.step.toNat ≤ l.toNat) | none => false) then
            bump s (at' pgCIR 0x118) 1
          else byState s j e c i

/-- A RED move hands its packed bytes to the hub (R246, R250): the segment of its core fixes the
chunks, the byte count must be theirs, and then each part is taken. -/
def takeRed (s : State) (core : CoreId) (ctx bkt : Nat) (step : W32) (bytes : List Byte) : State :=
  match residentOn s core.cl.q.val with
  | none => s
  | some j =>
    let c0 : Contrib :=
      { core := some core, acc := (accOf s j).toNat, ctx := ctx, bkt := bkt, step := step, chunk := 0,
        part := 0, down := false, wid := 0, vote := false, retx := false, src := ownNode s, bytes := [] }
    match ctxEntry s j ctx with
    | none => noCtx s c0
    | some e =>
      let d := (getCtx s e).defn
      if bkt ≠ cxBkt d then cirFault s j 0x0B02 c0
      else match segOfCore d core with
        | none => cirFault s j 0x0B03 c0
        | some sg =>
          let b := upBits d 0
          let cs := (List.range (sgNchs sg)).map (sgFch sg + ·)
          if bytes.length ≠ sumNat (cs.map (chunkLen d b)) then cirFault s j 0x0B05 c0
          else
            (cs.foldl (fun (a : State × List Byte) ch =>
              let n := chunkLen d b ch
              let ps := chunksOf 256 n (a.2.take n)
              (((List.range ps.length).zip ps).foldl (fun s p =>
                if resident (getJob s j).st then
                  takeContrib s { c0 with chunk := ch, part := p.1, vote := cxVote d, bytes := p.2 }
                else s) a.1, a.2.drop n)) (s, bytes)).1

/-- The sum of one element over the inputs, in ascending order, in FP32 (R254). -/
def sumElem (x : Ctx) (chunk i : Nat) : W32 :=
  (List.range (cxNin x.defn)).foldl (fun a n =>
    let b := stagedBytes x n chunk
    rne (Ext.add (val a) (bfVal ((b.getD (2 * i) 0).toNat + 256 * (b.getD (2 * i + 1) 0).toNat)))) 0

/-- Counter word c1 of R255. -/
def cirC1 (bkt : Nat) : Nat := bkt + 0x7C * 2 ^ 16 + 3 * 2 ^ 23

/-- The seeds of the job in slot j (R175). -/
def jobSeeds (s : State) (j : Nat) : W256 :=
  match (getJob s j).img with
  | some i => i.seeds
  | none => 0

/-- Sums of a narrow chunk: BF16 codes and the number of NaN sums (R254, R255). -/
def sumChunk (s : State) (x : Ctx) (chunk : Nat) : List Nat × Nat :=
  let sd := jobSeeds s x.job
  let ws := (List.range (cxElems x.defn chunk)).map (sumElem x chunk)
  let us := (List.range ws.length).map (fun i =>
    draw (jobSeed sd) (modSalt sd) (chunk * 128 + i) (cirC1 (cxBkt x.defn)) x.step.toNat)
  ((ws.zip us).map (fun p => bf16.round 1 p.2 (val p.1)), (ws.filter (fun w => (val w).isNan)).length)

/-- One vote input: its count, and whether it carried a code that is never sent (R256). -/
def voteIn (wid : Nat) (b : List Byte) (i : Nat) : Int × Bool :=
  let w := 2 ^ wid
  let v := ((b.getD (i * w / 8) 0).toNat >>> (i * w % 8)) % 2 ^ w
  if wid = 0 then (if v = 1 then -1 else 1, false)
  else if v = 2 ^ (w - 1) then (0, true)
  else (if v < 2 ^ (w - 1) then (v : Int) else (v : Int) - 2 ^ w, false)

/-- The count of one element and how many inputs carried such a code. -/
def voteElem (x : Ctx) (chunk i : Nat) : Int × Nat :=
  (List.range (cxNin x.defn)).foldl (fun a n =>
    let r := voteIn (inWid (cxIn x.defn n)) (stagedBytes x n chunk) i
    (a.1 + r.1, a.2 + (if r.2 then 1 else 0))) (0, 0)

/-- The count as sent up at WOUT: its code and whether it saturated (R256). -/
def thin (wout : Nat) (n : Int) : Nat × Bool :=
  if wout = 0 then (if n < 0 then 1 else 0, false)
  else
    let m : Int := 2 ^ (2 ^ wout - 1) - 1
    let k := if m < n then m else if n < -m then -m else n
    ((k % 2 ^ (2 ^ wout)).toNat, decide (k ≠ n))

/-- Result code in format 0xA (R256). -/
def voteCode (n : Int) : Nat := if 0 < n then 1 else if n < 0 then 3 else 0

/-- The first ready chunk of the mode asked for, when the ready list's head is of that mode. -/
def readyHead (s : State) (vote : Bool) : Option (Nat × Nat) :=
  match s.cready with
  | (e, c) :: _ => if cxVote (getCtx s e).defn = vote then some (e, c) else none
  | [] => none

/-- Take the head of the ready list and pass its chunk on (R252, R254, R258): up from a non-root,
its result from the root. -/
def passChunk (s : State) (e chunk wid : Nat) (bytes : List Byte) : State :=
  let s := { s with cready := s.cready.drop 1 }
  let x := getCtx s e
  if cxRoot x.defn then handResult s e chunk bytes
  else
    let last := decide (x.sentUp.length + 1 = cxNch x.defn)
    let s := sendChunk s e (cxParent x.defn) chunk wid false last bytes
    let x := getCtx s e
    if x.owner = 0 ∨ x.st = .released then s
    else
      let x := { x with parts := x.parts.filter (fun p => decide (p.chunk ≠ chunk)),
                        sentUp := chunk :: x.sentUp }
      setCtx s e (if allIn x && decide (cxNch x.defn ≤ x.sentUp.length) then { x with st := .waitDown } else x)

end Sys2Proof.Machine
end

