-- ==== Sys2Proof/Machine/Sha.lean ====
section
/-! DEFINITION. SHA-384, HMAC and HKDF, as FIPS 180-4, RFC 2104 and RFC 5869 define them (R356, R361, R362). -/

namespace Sys2Proof.Machine

/-- A number of n bytes, highest byte first: the octet order of the standards (R479). -/
def beNat : List Byte → Nat := List.foldl (fun a b => a * 256 + b.toNat) 0

/-- The n bytes of a number, highest first. -/
def beBytes (n v : Nat) : List Byte := (bytesOf n v).reverse

/-- The ASCII octets of a label. -/
def ascii (s : String) : List Byte := s.toList.map (fun c => BitVec.ofNat 8 c.toNat)

namespace Sha

/-- The 80 round constants, four to a line, the first one lowest. -/
def kWords : List Nat :=
  [0xe9b5dba58189dbbcb5c0fbcfec4d3b2f7137449123ef65cd428a2f98d728ae22,
   0xab1c5ed5da6d8118923f82a4af194f9b59f111f1b605d0193956c25bf348b538,
   0x550c7dc3d5ffb4e2243185be4ee4b28c12835b0145706fbed807aa98a3030242,
   0xc19bf174cf6926949bdc06a725c7123580deb1fe3b1696b172be5d74f27b896f,
   0x240ca1cc77ac9c650fc19dc68b8cd5b5efbe4786384f25e3e49b69c19ef14ad2,
   0x76f988da831153b55cb0a9dcbd41fbd44a7484aa6ea6e4832de92c6f592b0275,
   0xbf597fc7beef0ee4b00327c898fb213fa831c66d2db43210983e5152ee66dfab,
   0x142929670a0e6e7006ca6351e003826fd5a79147930aa725c6e00bf33da88fc2,
   0x53380d139d95b3df4d2c6dfc5ac42aed2e1b21385c26c92627b70a8546d22ffc,
   0x92722c851482353b81c2c92e47edaee6766a0abb3c77b2a8650a73548baf63de,
   0xc76c51a30654be30c24b8b70d0f89791a81a664bbc423001a2bfe8a14cf10364,
   0x106aa07032bbd1b8f40e35855771202ad69906245565a910d192e819d6ef5218,
   0x34b0bcb5e19b48a82748774cdf8eeb991e376c085141ab5319a4c116b8d2d0c8,
   0x682e6ff3d6b2b8a35b9cca4f7763e3734ed8aa4ae3418acb391c0cb3c5c95a63,
   0x8cc702081a6439ec84c87814a1f0ab7278a5636f43172f60748f82ee5defb2fc,
   0xc67178f2e372532bbef9a3f7b2c67915a4506cebde82bde990befffa23631e28,
   0xf57d4f7fee6ed178eada7dd6cde0eb1ed186b8c721c0c207ca273eceea26619c,
   0x1b710b35131c471b113f9804bef90dae0a637dc5a2c898a606f067aa72176fba,
   0x431d67c49c100d4c3c9ebe0a15c9bebc32caab7b40c7249328db77f523047d84,
   0x6c44198c4a4758175fcb6fab3ad6faec597f299cfc657e2a4cc5d4becb3e42b6]

/-- Round constant t. -/
def k (t : Nat) : Nat := kWords.getD (t / 4) 0 >>> (64 * (t % 4)) % 2 ^ 64

/-- Initial hash value of SHA-384. -/
def init : List Nat :=
  [0xcbbb9d5dc1059ed8, 0x629a292a367cd507, 0x9159015a3070dd17, 0x152fecd8f70e5939,
   0x67332667ffc00b31, 0x8eb44a8768581511, 0xdb0c2e0d64f98fa7, 0x47b5481dbefa4fa4]

/-- Rotation of a 64-bit word to the right. -/
def rotr (n x : Nat) : Nat := x >>> n ||| x <<< (64 - n) % 2 ^ 64

/-- The eight working variables. -/
structure Vars where
  a : Nat
  b : Nat
  c : Nat
  d : Nat
  e : Nat
  f : Nat
  g : Nat
  h : Nat
deriving DecidableEq, Repr

/-- One round with its constant and message word. -/
def round (v : Vars) (kt w : Nat) : Vars :=
  let s1 := rotr 14 v.e ^^^ rotr 18 v.e ^^^ rotr 41 v.e
  let ch := (v.e &&& v.f) ^^^ ((2 ^ 64 - 1 - v.e) &&& v.g)
  let t1 := v.h + s1 + ch + kt + w
  let s0 := rotr 28 v.a ^^^ rotr 34 v.a ^^^ rotr 39 v.a
  let mj := (v.a &&& v.b) ^^^ (v.a &&& v.c) ^^^ (v.b &&& v.c)
  ⟨(t1 + s0 + mj) % 2 ^ 64, v.a, v.b, v.c, (v.d + t1) % 2 ^ 64, v.e, v.f, v.g⟩

/-- The message word 16 places on, from the window of the last 16. -/
def nextW (w : List Nat) : Nat :=
  let x := w.getD 14 0
  let y := w.getD 1 0
  let s1 := rotr 19 x ^^^ rotr 61 x ^^^ x >>> 6
  let s0 := rotr 1 y ^^^ rotr 8 y ^^^ y >>> 7
  (s1 + w.getD 9 0 + s0 + w.getD 0 0) % 2 ^ 64

/-- n rounds from round t, with the window of message words. -/
def rounds : Nat → Nat → List Nat → Vars → Vars
  | 0, _, _, v => v
  | n + 1, t, w, v => rounds n (t + 1) (w.drop 1 ++ [nextW w]) (round v (k t) (w.headD 0))

/-- The hash value after one more block of 128 bytes. -/
def block (h : List Nat) (b : List Byte) : List Nat :=
  let g := fun i => h.getD i 0
  let v := rounds 80 0 ((chunksOf 8 16 b).map beNat) ⟨g 0, g 1, g 2, g 3, g 4, g 5, g 6, g 7⟩
  (h.zip [v.a, v.b, v.c, v.d, v.e, v.f, v.g, v.h]).map (fun p => (p.1 + p.2) % 2 ^ 64)

/-- The padded message. -/
def pad (m : List Byte) : List Byte :=
  m ++ [0x80] ++ List.replicate ((239 - m.length % 128) % 128) 0 ++ beBytes 16 (8 * m.length)

/-- SHA-384 of a byte string: 48 bytes. -/
def sha384 (m : List Byte) : List Byte :=
  let p := pad m
  (((chunksOf 128 (p.length / 128) p).foldl block init).take 6).flatMap (beBytes 8)

end Sha

/-- HMAC-SHA-384 under a key of any length. -/
def hmac (key m : List Byte) : List Byte :=
  let k := fit 0 128 (if 128 < key.length then Sha.sha384 key else key)
  Sha.sha384 (k.map (· ^^^ 0x5C) ++ Sha.sha384 (k.map (· ^^^ 0x36) ++ m))

/-- HKDF-SHA-384 for up to 48 bytes of output; an empty salt stands for 48 zero bytes. -/
def hkdf (ikm salt info : List Byte) (n : Nat) : List Byte :=
  (hmac (hmac (if salt.isEmpty then List.replicate 48 0 else salt) ikm) (info ++ [1])).take n

end Sys2Proof.Machine
end

