-- ==== Sys2Proof/Machine/Aes.lean ====
section
/-! DEFINITION. AES-256 with GCM and XTS, as FIPS 197, SP 800-38D and IEEE 1619 define them (R268, R361, R363, R366). -/

namespace Sys2Proof.Machine

namespace Aes

/-- The S-box, 16 entries to a line, entry 0 lowest. -/
def sboxWords : List Nat :=
  [0x76abd7fe2b670130c56f6bf27b777c63,
   0xc072a49cafa2d4adf04759fa7dc982ca,
   0x1531d871f1e5a534ccf73f362693fdb7,
   0x75b227ebe28012079a059618c323c704,
   0x842fe329b3d63b52a05a6e1b1a2c8309,
   0xcf584c4a39becb6a5bb1fc20ed00d153,
   0xa89f3c507f02f94585334d43fbaaefd0,
   0xd2f3ff1021dab6bcf5389d928f40a351,
   0x73195d643d7ea7c41744975fec130ccd,
   0xdb0b5ede14b8ee4688902a22dc4f8160,
   0x79e4959162acd3c25c2406490a3a32e0,
   0x08ae7a65eaf4566ca94ed58d6d37c8e7,
   0x8a8bbd4b1f74dde8c6b4a61c2e2578ba,
   0x9e1dc186b95735610ef6034866b53e70,
   0xdf2855cee9871e9b948ed9691198f8e1,
   0x16bb54b00f2d99416842e6bf0d89a18c]

/-- The inverse S-box. -/
def invWords : List Nat :=
  [0xfbd7f3819ea340bf38a53630d56a0952,
   0xcbe9dec444438e3487ff2f9b8239e37c,
   0x4ec3fa420b954cee3d23c2a632947b54,
   0x25d18b6d49a25b76b224d92866a12e08,
   0x92b6655dcc5ca4d41698688664f6f872,
   0x849d8da75746155edab9edfd5048706c,
   0x0645b3b80558e4f70ad3bc8c00abd890,
   0x6b8a130103bdafc1020f3fca8f1e2cd0,
   0x73e6b4f0cecff297eadc674f4111913a,
   0x6edf751ce837f9e28535ade72274ac96,
   0x1bbe18aa0e62b76f89c5291d711af147,
   0xf45acd78fec0db9a2079d2c64b3e56fc,
   0x5fec8027591012b131c7078833a8dd1f,
   0xef9cc9939f7ae52d0d4ab519a97f5160,
   0x619953833cbbebc8b0f52aae4d3be0a0,
   0x7d0c2155631469e126d677ba7e042b17]

/-- Entry of such a table. -/
def look (t : List Nat) (x : Nat) : Nat := t.getD (x / 16) 0 >>> (8 * (x % 16)) % 256

def sub (x : Nat) : Nat := look sboxWords x
def inv (x : Nat) : Nat := look invWords x

/-- Multiplication by x in GF(2^8). -/
def xt (a : Nat) : Nat := if a < 128 then 2 * a else (2 * a) ^^^ 0x11B

/-- The round keys of a 256-bit key: words of four bytes, in order. `n` more words from word i on. -/
def expand : Nat → Nat → Nat → List (List Nat) → List (List Nat)
  | 0, _, _, ws => ws
  | n + 1, i, rc, ws =>
    let t := ws.getLastD []
    let u := if i % 8 = 0 then
        (match (t.drop 1 ++ t.take 1).map sub with | b :: r => (b ^^^ rc) :: r | [] => [])
      else if i % 8 = 4 then t.map sub else t
    let w := (ws.getD (i - 8) []).zipWith (· ^^^ ·) u
    expand n (i + 1) (if i % 8 = 0 then xt rc else rc) (ws ++ [w])

/-- The 15 round keys of 16 bytes. -/
def keys (k : List Nat) : List (List Nat) :=
  (chunksOf 4 15 (expand 52 8 1 (chunksOf 4 8 k))).map List.flatten

def addKey (s k : List Nat) : List Nat := s.zipWith (· ^^^ ·) k

/-- Column-major order of the bytes after ShiftRows, and its inverse. -/
def shift : List Nat := [0, 5, 10, 15, 4, 9, 14, 3, 8, 13, 2, 7, 12, 1, 6, 11]
def unshift : List Nat := [0, 13, 10, 7, 4, 1, 14, 11, 8, 5, 2, 15, 12, 9, 6, 3]
def perm (p s : List Nat) : List Nat := p.map (fun i => s.getD i 0)

/-- One column through MixColumns. -/
def mixCol (c : List Nat) : List Nat :=
  match c with
  | [a, b, c, d] =>
    let t := a ^^^ b ^^^ c ^^^ d
    [a ^^^ t ^^^ xt (a ^^^ b), b ^^^ t ^^^ xt (b ^^^ c), c ^^^ t ^^^ xt (c ^^^ d), d ^^^ t ^^^ xt (d ^^^ a)]
  | c => c

/-- Its inverse: a column of the form that MixColumns undoes. -/
def unmixCol (c : List Nat) : List Nat :=
  match c with
  | [a, b, c, d] =>
    let u := xt (xt (a ^^^ c))
    let v := xt (xt (b ^^^ d))
    mixCol [a ^^^ u, b ^^^ v, c ^^^ u, d ^^^ v]
  | c => c

def mix (s : List Nat) : List Nat := ((chunksOf 4 4 s).map mixCol).flatten
def unmix (s : List Nat) : List Nat := ((chunksOf 4 4 s).map unmixCol).flatten

/-- Rounds of the cipher with the round keys that are left. -/
def encRounds : List (List Nat) → List Nat → List Nat
  | [], s => s
  | [k], s => addKey (perm shift (s.map sub)) k
  | k :: r, s => encRounds r (addKey (mix (perm shift (s.map sub))) k)

/-- Rounds of the inverse cipher, with the round keys from the last but one on. -/
def decRounds : List (List Nat) → List Nat → List Nat
  | [], s => s
  | [k], s => addKey ((perm unshift s).map inv) k
  | k :: r, s => decRounds r (unmix (addKey ((perm unshift s).map inv) k))

/-- A block of 16 bytes enciphered. -/
def encBlock (ks : List (List Nat)) (b : List Nat) : List Nat :=
  encRounds (ks.drop 1) (addKey b (ks.headD []))

/-- A block of 16 bytes deciphered. -/
def decBlock (ks : List (List Nat)) (b : List Nat) : List Nat :=
  decRounds (ks.reverse.drop 1) (addKey b (ks.getLastD []))

/-- Octets as numbers, and back. -/
def nums (l : List Byte) : List Nat := l.map BitVec.toNat
def octets (l : List Nat) : List Byte := l.map (BitVec.ofNat 8)

/-! ## GCM -/

/-- Multiplication in GF(2^128) as GCM numbers its bits: n bits of `x` left, the highest first. -/
def gmul : Nat → Nat → Nat → Nat → Nat
  | 0, _, _, z => z
  | n + 1, x, v, z =>
    gmul n x (if v % 2 = 1 then v / 2 ^^^ 0xE1 <<< 120 else v / 2) (if x.testBit n then z ^^^ v else z)

/-- GHASH over blocks of 16 bytes. -/
def ghash (h : Nat) (l : List Byte) : Nat :=
  (chunksOf 16 l.length l).foldl (fun y b => gmul 128 (y ^^^ beNat (fit 0 16 b)) h 0) 0

/-- Zero bytes up to a whole block. -/
def zpad (l : List Byte) : List Byte := l ++ List.replicate ((16 - l.length % 16) % 16) 0

/-- Key stream of n blocks from a counter value on, under a 96-bit nonce. -/
def stream (ks : List (List Nat)) (nonce : List Byte) : Nat → Nat → List Byte
  | 0, _ => []
  | n + 1, c => fit 0 16 (octets (encBlock ks (nums (nonce ++ beBytes 4 c)))) ++ stream ks nonce n (c + 1)

/-- Octets exclusive-or a key stream. -/
def xorBytes (a b : List Byte) : List Byte := a.zipWith (· ^^^ ·) b

/-- CTR encryption of GCM; the same function deciphers. -/
def gcmCrypt (key nonce text : List Byte) : List Byte :=
  xorBytes text (stream (keys (nums key)) nonce (cdiv text.length 16) 2)

/-- The 128-bit tag of GCM over additional data and ciphertext. -/
def gcmTag (key nonce aad ct : List Byte) : List Byte :=
  let ks := keys (nums key)
  let h := beNat (octets (encBlock ks (List.replicate 16 0)))
  let s := ghash h (zpad aad ++ zpad ct ++ beBytes 8 (8 * aad.length) ++ beBytes 8 (8 * ct.length))
  xorBytes (beBytes 16 s) (stream ks nonce 1 1)

/-! ## XTS -/

/-- The tweak of the next block: times x, with byte 0 lowest. -/
def nextTweak (t : Nat) : Nat := if t < 2 ^ 127 then 2 * t else (2 * t) % 2 ^ 128 ^^^ 0x87

/-- XTS over whole blocks of 16 bytes: `f` is the block cipher under the first key, `t` the tweak. -/
def xtsBlocks (f : List Nat → List Nat) : Nat → Nat → List Byte → List Byte
  | 0, _, _ => []
  | n + 1, t, l =>
    let w := bytesOf 16 t
    xorBytes (octets (f (nums (xorBytes (l.take 16) w)))) w ++ xtsBlocks f n (nextTweak t) (l.drop 16)

/-- First tweak of a data unit: its number enciphered under the second key. -/
def firstTweak (key2 : List Byte) (unit : Nat) : Nat :=
  ofBytes (octets (encBlock (keys (nums key2)) (nums (bytesOf 16 unit))))

/-- A data unit of two blocks enciphered, and deciphered, under a 512-bit key. -/
def xtsEnc (key : List Byte) (unit : Nat) (l : List Byte) : List Byte :=
  xtsBlocks (encBlock (keys (nums (key.take 32)))) 2 (firstTweak (key.drop 32) unit) l
def xtsDec (key : List Byte) (unit : Nat) (l : List Byte) : List Byte :=
  xtsBlocks (decBlock (keys (nums (key.take 32)))) 2 (firstTweak (key.drop 32) unit) l

end Aes

end Sys2Proof.Machine
end

