-- ==== Sys2Proof/Machine/Ecc.lean ====
section
/-! DEFINITION. The curve P-384 of FIPS 186 / SP 800-186: points, ECDH and ECDSA with SHA-384 (R356, R361). -/

namespace Sys2Proof.Machine

namespace Ecc

/-- The field prime of P-384. -/
def p : Nat := 2 ^ 384 - 2 ^ 128 - 2 ^ 96 + 2 ^ 32 - 1
/-- The order of its base point. -/
def n : Nat :=
  0xffffffffffffffffffffffffffffffffffffffffffffffffc7634d81f4372ddf581a0db248b0a77aecec196accc52973
/-- The coefficient b; a is -3. -/
def b : Nat :=
  0xb3312fa7e23ee7e4988e056be3f82d19181d9c6efe8141120314088f5013875ac656398d8a2ed19d2a85c8edd3ec2aef
/-- The base point. -/
def gx : Nat :=
  0xaa87ca22be8b05378eb1c71ef320ad746e1d3b628ba79b9859f741e082542a385502f25dbf55296c3a545e3872760ab7
def gy : Nat :=
  0x3617de4a96262c6f5d9e98bf9292dc29f8f41dbd289a147ce9da3113b5f0b8c00a60b1ce1d7e819d7a431d7c90ea0e5f

/-- A point in Jacobian coordinates; z = 0 at infinity. -/
structure Pt where
  x : Nat
  y : Nat
  z : Nat
deriving DecidableEq, Repr

def inf : Pt := ⟨1, 1, 0⟩
def base : Pt := ⟨gx, gy, 1⟩

/-- a - c in the field. -/
def fsub (a c : Nat) : Nat := (a + p - c % p) % p

/-- The double of a point. -/
def dbl (q : Pt) : Pt :=
  if q.z = 0 ∨ q.y = 0 then inf
  else
    let d := q.z * q.z % p
    let g := q.y * q.y % p
    let be := q.x * g % p
    let al := 3 * (fsub q.x d * (q.x + d) % p) % p
    let x := fsub (al * al % p) (8 * be)
    ⟨x, fsub (al * fsub (4 * be) x % p) (8 * (g * g % p)), fsub (fsub ((q.y + q.z) * (q.y + q.z) % p) g) d⟩

/-- The sum of two points. -/
def add (q r : Pt) : Pt :=
  if q.z = 0 then r
  else if r.z = 0 then q
  else
    let zz := q.z * q.z % p
    let ww := r.z * r.z % p
    let u1 := q.x * ww % p
    let u2 := r.x * zz % p
    let s1 := q.y * ww % p * r.z % p
    let s2 := r.y * zz % p * q.z % p
    if u1 = u2 then (if s1 = s2 then dbl q else inf)
    else
      let h := fsub u2 u1
      let t := fsub s2 s1
      let hh := h * h % p
      let hhh := h * hh % p
      let v := u1 * hh % p
      let x := fsub (fsub (t * t % p) hhh) (2 * v)
      ⟨x, fsub (t * fsub v x % p) (s1 * hhh), h * q.z % p * r.z % p⟩

/-- k times a point, over the low n bits of k from the highest down. -/
def mulAux (q : Pt) (k : Nat) : Nat → Pt → Pt
  | 0, r => r
  | m + 1, r => mulAux q k m (if k.testBit m then add (dbl r) q else dbl r)
def mul (k : Nat) (q : Pt) : Pt := mulAux q k (if k = 0 then 0 else Nat.log2 k + 1) inf

/-- a to the power e modulo m, over the low n bits of e. -/
def powAux (a e m : Nat) : Nat → Nat → Nat
  | 0, r => r
  | i + 1, r => powAux a e m i (if e.testBit i then r * r % m * a % m else r * r % m)

/-- The inverse of a modulo a prime m. -/
def inv (a m : Nat) : Nat := powAux (a % m) (m - 2) m 384 1

/-- The affine x coordinate of a point that is not at infinity. -/
def affX (q : Pt) : Nat := q.x * inv (q.z * q.z % p) p % p

/-- Coordinates of a point on the curve. -/
def onCurve (x y : Nat) : Bool :=
  decide (x < p) && decide (y < p) && decide (y * y % p = fsub (x * x % p * x + b) (3 * x))

/-- ECDH: the x coordinate of the shared point; none where the other side's key is no point of the curve or the
shared point is at infinity. -/
def ecdh (k x y : Nat) : Option Nat :=
  let q := mul k ⟨x, y, 1⟩
  if onCurve x y && decide (q.z ≠ 0) then some (affX q) else none

/-- ECDSA: the signature (r, s) of a message under the public key (x, y). -/
def verify (x y r s : Nat) (m : List Byte) : Bool :=
  if r = 0 ∨ n ≤ r ∨ s = 0 ∨ n ≤ s ∨ !onCurve x y then false
  else
    let e := beNat (Sha.sha384 m)
    let w := inv s n
    let q := add (mul (e * w % n) base) (mul (r * w % n) ⟨x, y, 1⟩)
    decide (q.z ≠ 0) && decide (affX q % n = r)

end Ecc

end Sys2Proof.Machine
end

