-- ==== Sys2Proof/Machine/Keys.lean ====
section
/-! DEFINITION. Fuses and keys: what the fuse rows hold, signatures, job keys, link keys (R355, R356, R361 to R364,
R381, R465, R466). DESIGN CHOICE: the spec gives the rows no layout beyond R465's; the model's is that of log 131. -/

namespace Sys2Proof.Machine

/-! ## Fuse rows -/

/-- Sensed value of a fuse row (R376 step 3, R465). -/
def senseRow (s : State) (r : Nat) : W32 := tget 0 s.cus.sensed r

/-- Octets of n fuse rows from row r on. -/
def fuseBytes (s : State) (r n : Nat) : List Byte := (List.range n).flatMap (fun i => bytesOf 4 (senseRow s (r + i)).toNat)

/-- The module's serial number (R336, R356). -/
def serial (s : State) : W64 := BitVec.ofNat 64 (ofBytes (fuseBytes s 193 2))

/-- Public key k of a party (R354's four): x and y. -/
def partyKey (s : State) (p k : Nat) : Nat × Nat :=
  let b := fuseBytes s (24 * (4 * p + k)) 24
  (beNat (b.take 48), beNat (b.drop 48))

/-- The current key of a party: its lowest unrevoked one. -/
def currentKey (s : State) (p : Nat) : Option (Nat × Nat) :=
  ([0, 1, 2, 3].find? (fun k => !bit (senseRow s 192) (4 * p + k))).map (partyKey s p)

/-- The lock fuse of a row group (R355, R465). -/
def groupLocked (s : State) (g : Nat) : Bool := bit (senseRow s 192) (16 + g)

/-- The device private scalar (R361, R465). -/
def devScalar (s : State) : Nat := beNat (fuseBytes s 0xF0 12)

/-- The device's public key, x then y (R361, R374). -/
def devPublic (s : State) : List Byte :=
  let q := Ecc.mul (devScalar s) Ecc.base
  if q.z = 0 then List.replicate 96 0
  else beBytes 48 (Ecc.affX q) ++ beBytes 48 (q.y * Ecc.inv (q.z * q.z % Ecc.p * q.z % Ecc.p) Ecc.p % Ecc.p)

/-- The unit that a fuse row describes, in the layout of R394's data word (R381). -/
def rowUnit (w : W32) : Option BadUnit :=
  if fld w 28 24 ≤ 16 ∧ (fld w 22 16 < 100 ∨ fld w 22 16 = 0x7F) then
    some { q := Fin.ofNat 4 (fld w 31 30), cl := Fin.ofNat 17 (fld w 28 24)
           core := if fld w 22 16 = 0x7F then none else some (Fin.ofNat 100 (fld w 22 16)) }
  else none

/-- The fused map (R376 step 3, R381, R466): the units of the marked rows, and every unit that a row of a group with a
failed CRC describes. -/
def fusedMap (s : State) (crc : BitVec 16) : List BadUnit :=
  (List.range 45).filterMap (fun i =>
    let w := senseRow s (195 + i)
    if !bit w 1 && (bit w 0 || (decide (w ≠ 0) && bit crc ((195 + i) / 16))) then rowUnit w else none)

/-- The fused lanes (R381): port and lane of the marked rows. -/
def fusedLanes (s : State) (crc : BitVec 16) : List LaneId :=
  (List.range 45).filterMap (fun i =>
    let w := senseRow s (195 + i)
    if (bit w 0 || bit crc ((195 + i) / 16)) && bit w 1 && decide (fld w 31 29 < 6 ∧ fld w 28 24 < 18)
    then some ⟨Fin.ofNat 6 (fld w 31 29), Fin.ofNat 18 (fld w 28 24)⟩ else none)

/-- A row group holds custody keys (R466). -/
def keyGroup (g : Nat) : Bool := decide (g ≤ 12) || decide (g = 15)

/-! ## Signatures and job keys -/

/-- Octets of a record. -/
def recOctets (w : BitVec 2048) : List Byte := bytesOf 256 w.toNat

/-- A party's signature over a record, r then s, with the domain octet 0x53 of a stage or 0x43 of a confirm (R356). -/
def sigOk (s : State) (p : Nat) (domain : Byte) (w : BitVec 2048) (sig : BitVec 768) : Bool :=
  let b := bytesOf 96 sig.toNat
  match currentKey s p with
  | none => false
  | some k => Ecc.verify k.1 k.2 (beNat (b.take 48)) (beNat (b.drop 48)) (domain :: bytesOf 8 (serial s).toNat ++ recOctets w)

/-- The job key of a KEY_LOAD record (R361): ECDH, HKDF and AES-256-GCM; none where the tag fails. -/
def unwrapKey (s : State) (w : BitVec 2048) : Option (BitVec 256) :=
  let b := recOctets w
  let part := fun (i n : Nat) => (b.drop i).take n
  match Ecc.ecdh (devScalar s) (beNat (part 16 48)) (beNat (part 64 48)) with
  | none => none
  | some z =>
    let kw := hkdf (beBytes 48 z) (bytesOf 8 (serial s).toNat) (ascii "FOLTIA-KW" ++ bytesOf 2 (fld w 59 48)) 32
    let n := List.replicate 12 0
    if Aes.gcmTag kw n (b.take 16) (part 112 32) = part 144 16
    then some (BitVec.ofNat 256 (ofBytes (Aes.gcmCrypt kw n (part 112 32)))) else none

/-! ## Link keys -/

/-- What a link key is derived from (R362): job key, accession, the two node IDs, axis, group. -/
structure LinkRoot where
  key   : List Byte
  acc   : Nat
  plus  : Nat
  minus : Nat
  axis  : Nat
  group : Nat
deriving DecidableEq, Repr

/-- The key of direction `dir` for epoch E (R362, R479). -/
def linkKey (r : LinkRoot) (dir e : Nat) : BitVec 256 :=
  BitVec.ofNat 256 (ofBytes (hkdf r.key [] (ascii "DORTA-L" ++ bytesOf 2 r.acc ++ bytesOf 2 r.plus ++ bytesOf 2 r.minus
    ++ [BitVec.ofNat 8 r.axis, BitVec.ofNat 8 r.group, BitVec.ofNat 8 dir] ++ bytesOf 4 e) 32))

/-- The GCM nonce of a flit (R363): FC in [95:32], the direction in [31], KEP in [30]; highest octet first (log 131). -/
def flitNonce (fc dir : Nat) (kep : Bool) : List Byte :=
  beBytes 12 (fc % 2 ^ 64 * 2 ^ 32 + dir % 2 * 2 ^ 31 + (if kep then 2 ^ 30 else 0))

/-- Octets of a link key. -/
def keyOctets (k : BitVec 256) : List Byte := bytesOf 32 k.toNat

/-- What GCM authenticates beside the ciphertext (R363): the header, and in a SYNC flit the payload. -/
def flitAad (h : W64) (pay : List Byte) (sync : Bool) : List Byte := bytesOf 8 h.toNat ++ (if sync then pay else [])

/-- The first 96 bits of the GCM tag (R268). -/
def flitTag (k : BitVec 256) (n : List Byte) (h : W64) (pay : List Byte) (sync : Bool) : List Byte :=
  (Aes.gcmTag (keyOctets k) n (flitAad h pay sync) (if sync then [] else pay)).take 12

end Sys2Proof.Machine
end

