-- ==== Sys2Proof/Machine/LinkOps.lean ====
section
/-! DEFINITION. The link layer: flits, replay, credits, training, lane takeover, failure (R264 to R278,
R284, R292, R336 to R342, R363). -/

namespace Sys2Proof.Machine

/-! ## Fields and registers -/

/-- Fields of the flit header (R269). -/
def flType (h : W64) : Nat := fld h 63 60
def flSeq (h : W64) : Nat := fld h 59 48
def flAck (h : W64) : Nat := fld h 47 36
def flNak (h : W64) : Bool := bit h 35
def flVc (h : W64) : Nat := fld h 34 33
def flNxt (h : W64) : Nat := fld h 32 25
def flCrvc (h : W64) : Nat := fld h 24 23
def flCrn (h : W64) : Nat := fld h 22 13

/-- A flit header (R269). -/
def mkFl (ty seq ack : Nat) (nak : Bool) (vc nxt crvc crn : Nat) (kep : Bool) : W64 :=
  BitVec.ofNat 64 (ty * 2 ^ 60 + seq % 4096 * 2 ^ 48 + ack % 4096 * 2 ^ 36 + (if nak then 2 ^ 35 else 0)
    + vc % 4 * 2 ^ 33 + nxt % 256 * 2 ^ 25 + crvc % 4 * 2 ^ 23 + crn % 1024 * 2 ^ 13
    + (if kep then 2 ^ 12 else 0))

/-- Offset of a register (g) of a lane group's link page (R298). -/
def lnkOff (g o : Nat) : Nat := at' (pgLNK (g / 4)) (o + 0x40 * (g % 4))

/-- Catalogue entry (R334). -/
def ctValid (c : W128) : Bool := bit c 44
def ctSerial (c : W128) : Nat := fld c 127 64
def ctNode (c : W128) : Nat := fld c 63 51
def ctPort (c : W128) : Nat := fld c 50 48
def ctGroup (c : W128) : Nat := fld c 47 46
def ctMinPver (c : W128) : Nat := fld c 43 36
def ctReqFeat (c : W128) : Nat := fld c 35 20

/-- The lane number is pinned (R310). -/
def pinned (s : State) (p l : Nat) : Bool := bit (reg s (at' pgOPT (0x140 + 4 * p))) l

/-- Lane and lane cell of a port's lane. -/
def laneAt (s : State) (p l : Nat) : Lane := getLane s (18 * p + l)
def setLaneAt (s : State) (p l : Nat) (x : Lane) : State := setLane s (18 * p + l) x
def cellAt (s : State) (p l : Nat) : LaneCell := getCell s (18 * (p / 2) + l)

/-- Optical lock of a lane (R307, R311): its ring is LOCKED, its cell's interferometers are on target,
and the cell does not change state. -/
def optLocked (s : State) (p l : Nat) : Bool :=
  (laneAt s p l).ring == .locked && (cellAt s p l).locked && !(cellAt s p l).busy

/-- Role of a lane (R316): passage when its cell is neither in RECEIVE nor DARK. -/
def laneRole (s : State) (p l : Nat) : LaneRole :=
  if 2 ≤ (cellAt s p l).cur then .passage else (laneAt s p l).role

/-- All four slots' lanes are locked. -/
def grpLocked (s : State) (g : Nat) : Bool :=
  (getLink s g).lanes.all (fun l => optLocked s (g / 4) l.val)

/-- A key slot holds the accession's job key (R361). -/
def keyLoaded (s : State) (acc : Nat) : Bool :=
  decide (acc ≠ 0) && s.cus.keys.any (fun e => e.2.toNat == acc)

/-- A lane group takes a state. -/
def Link.go (l : Link) (st : LinkSt) (now : Nat) : Link := { l with st := st, since := now }
def goSt (s : State) (g : Nat) (st : LinkSt) : State := setLink s g ((getLink s g).go st s.clk.dst)

/-- First data word of R297 for a lane group under its owner. -/
def d0Own (s : State) (g : Nat) : W32 := d0Lnk (getLink s g).owner.toNat g

/-! ## Sending -/

/-- What the link keys of a group are derived from (R362, R380): the ends by port side, a one-way group under its
source's node; a group of ROLE 0 under a zero key. -/
def linkRoot (s : State) (g : Nat) : LinkRoot :=
  let l := getLink s g
  let acc := if l.role = 0 then 0 else l.owner.toNat
  let key := if l.role = 0 then 0
    else match s.cus.keys.find? (fun e => decide (e.2.toNat = acc)) with
      | some e => tget 0 s.cus.keyVals e.1
      | none => 0
  let own := s.top.node.toNat
  let peer := ctNode l.cat
  let ends := match grpMode s g with
    | 1 => (own, own)
    | 2 => (peer, peer)
    | _ => if g / 4 % 2 = 0 then (own, peer) else (peer, own)
  { key := keyOctets key, acc := acc, plus := ends.1, minus := ends.2, axis := g / 8, group := g % 4 }

/-- Direction of the flits a group sends and of those it receives (R362). -/
def txDir (g : Nat) : Nat := g / 4 % 2
def rxDir (g : Nat) : Nat := 1 - g / 4 % 2

/-- The keys that a group holds (R362, R364): its own direction's for its epoch, the peer's for E and E + 1. -/
def holdKeys (s : State) (g : Nat) : State :=
  let l := getLink s g
  let r := linkRoot s g
  let put := fun (t : Tab (BitVec 256)) (e d : Nat) => tput 0 t (2 * e + d) (linkKey r d e)
  setLink s g { l with keys := put (put (put [] l.epoch (txDir g)) l.rxEpoch (rxDir g)) (l.rxEpoch + 1) (rxDir g) }

/-- A flit as it leaves (R268, R363): a training flit and the reverse idle of a one-way group carry no tag and travel in
clear, a SYNC flit is authenticated only. -/
def sealFlit (s : State) (g ty : Nat) (h : W64) (pay : List Byte) : Flit :=
  let l := getLink s g
  let k := tget 0 l.keys (2 * l.epoch + txDir g)
  let n := flitNonce l.fcTx (txDir g) l.kep
  let bare := decide (ty = 2) || decide (grpMode s g = 2)
  let c := if bare || decide (ty = 3) then pay else Aes.gcmCrypt (keyOctets k) n pay
  let tag := if bare then List.replicate 12 0 else flitTag k n h c (decide (ty = 3))
  { hdr := h, pay := c, tag := tag, crc := crc32c (bytesOf 8 h.toNat ++ c ++ tag) }

/-- Send one flit (R268, R272, R275, R363): it carries the current ACK, a NAK that is due, and the
credit total of the next VC in turn; a one-way group carries none of them (R309). -/
def sendFlit (s : State) (g ty seq vc nxt : Nat) (pay : List Byte) : State :=
  let l := getLink s g
  let two := decide (grpMode s g = 0)
  let h := mkFl ty seq (if two then l.rxSeq else 0) (two && l.nakOut) vc nxt (if two then l.crvc else 0)
    (if two then freedCells l l.crvc else 0) l.kep
  let f := sealFlit s g ty h (fit 0 232 pay)
  emit (setLink s g { l with nakOut := false, crvc := (l.crvc + 1) % 4, fcTx := l.fcTx + 1 })
    (.flit ⟨Fin.ofNat 6 (g / 4), Fin.ofNat 4 (g % 4)⟩ f)

/-- A flit as a receiver reads it: the verdicts of CRC and tag, header, payload in clear (R270, R363). -/
structure RxFlit where
  crcOk : Bool
  tagOk : Bool
  hdr   : W64
  pay   : List Byte
deriving DecidableEq, Repr

/-- Epoch whose key a received flit chooses by its KEP (R364). -/
def rxEpochOf (l : Link) (h : W64) : Nat := if bit h 12 = decide (l.rxEpoch % 2 = 1) then l.rxEpoch else l.rxEpoch + 1

/-- A flit without a tag: training, and the reverse direction of a one-way group (R278, R363). -/
def bareFlit (s : State) (g : Nat) (h : W64) : Bool := decide (flType h = 2) || decide (grpMode s g = 1)

/-- Check and decrypt a received flit (R268, R270, R363, R364). -/
def openFlit (s : State) (g : Nat) (f : Flit) : RxFlit :=
  let l := getLink s g
  let sync := decide (flType f.hdr = 3)
  let k := tget 0 l.keys (2 * rxEpochOf l f.hdr + rxDir g)
  let n := flitNonce l.fcRx (rxDir g) (bit f.hdr 12)
  let bare := bareFlit s g f.hdr
  { crcOk := crc32c (bytesOf 8 f.hdr.toNat ++ f.pay ++ f.tag) == f.crc
    tagOk := bare || f.tag == flitTag k n f.hdr f.pay sync
    hdr := f.hdr
    pay := if bare || sync then f.pay else Aes.gcmCrypt (keyOctets k) n f.pay }

/-- A flit with a good tag under the key of E + 1 takes the receiver to E + 1 (R364). -/
def stepEpoch (s : State) (g : Nat) (f : RxFlit) : State :=
  let l := getLink s g
  if f.crcOk && f.tagOk && !bareFlit s g f.hdr && decide (rxEpochOf l f.hdr ≠ l.rxEpoch)
  then holdKeys (setLink s g { l with rxEpoch := l.rxEpoch + 1 }) g else s

/-- An idle flit, with a lane-management record or without. -/
def sendIdle (s : State) (g : Nat) (pay : List Byte) : State := sendFlit s g 0 0 0 0xFF pay

/-- Bytes of a lane-management record (R319). -/
def recBytes (r : LaneRec) : List Byte :=
  [BitVec.ofNat 8 r.opc, BitVec.ofNat 8 r.slot.val, BitVec.ofNat 8 r.old.val, BitVec.ofNat 8 r.new.val]
    ++ bytesOf 4 r.txn.toNat

/-- The record that bytes 0 to 15 of an idle flit hold; none with OPC 0 or a reserved one. -/
def recOf (pay : List Byte) : Option LaneRec :=
  let n := fun i => (pay.getD i 0).toNat
  if 1 ≤ n 0 ∧ n 0 ≤ 7 ∧ n 1 < 4 ∧ n 2 < 18 ∧ n 3 < 18 then
    some { opc := n 0, slot := Fin.ofNat 4 (n 1), old := Fin.ofNat 18 (n 2), new := Fin.ofNat 18 (n 3),
           txn := BitVec.ofNat 32 (ofBytes ((pay.drop 4).take 4)) }
  else none

/-- The module's identity record for a lane group (R336). -/
def identRec (s : State) (g : Nat) : List Byte :=
  let l := getLink s g
  let w := (serial s).toNat * 2 ^ 192 + s.top.node.toNat * 2 ^ 179 + g / 4 * 2 ^ 176 + g % 4 * 2 ^ 174
    + l.owner.toNat * 2 ^ 160 + Config.fwver.toNat * 2 ^ 144 + Config.pver.toNat * 2 ^ 136
    + Config.features.toNat * 2 ^ 120 + s.top.epoch.toNat * 2 ^ 88
  let b := (bytesOf 32 w).drop 4
  bytesOf 4 (crc32c b).toNat ++ b

/-- A training flit (R277, R278, R336). -/
def sendTraining (s : State) (g : Nat) (pay : List Byte) : State :=
  let s := sendFlit s g 2 0 0 0xFF pay
  let l := getLink s g
  setLink s g { l with trainAt := s.clk.dst }

/-- Training flit of ALIGN: each lane slot carries port, group and lane number; where in the slot's
bytes is the model's choice (log 50). -/
def alignPay (s : State) (g : Nat) : List Byte :=
  let l := getLink s g
  ((List.range 4).zip l.lanes).flatMap (fun e =>
    fit 0 (if e.1 = 0 then 56 else 64)
      [BitVec.ofNat 8 (g / 4), BitVec.ofNat 8 (g % 4), BitVec.ofNat 8 e.2.val])

/-- Credit data of CREDIT (R275, R277, R363): the limit, the next FC and the key epoch; their places
are the model's choice (log 50). -/
def creditPay (s : State) (g : Nat) : List Byte :=
  let l := getLink s g
  bytesOf 2 (fld (reg s (lnkOff g 0x10C)) 9 0) ++ bytesOf 6 0 ++ bytesOf 8 (l.fcTx + 1) ++ bytesOf 4 l.epoch

/-- Conditions under which the hub lets a group be enabled (R335, R342, R365). -/
def enableOk (s : State) (g : Nat) : Bool :=
  let l := getLink s g
  ctValid l.cat && decide (l.role ≠ 2) && (decide (l.role ≠ 1) || keyLoaded s l.owner.toNat)

/-- DOWN is left whenever its condition holds (R277, R278, R298): a one-way source goes UP with its
lasers at full power, any other group to ALIGN. The group derives its keys (R362). -/
def tryUp (s : State) (g : Nat) : State :=
  let l := getLink s g
  if l.st = .down ∧ l.en ∧ enableOk s g ∧ grpLocked s g then
    if grpMode s g = 1 then
      if l.lanes.all (fun x => (laneAt s (g / 4) x.val).laser == .full) then holdKeys (goSt s g .up) g else s
    else
      let s := holdKeys (setLink s g { l.go .align s.clk.dst with locked := false, exch := false }) g
      if grpMode s g = 0 then sendTraining s g (alignPay s g) else s
  else s

/-- Every group of a port, or of the module. -/
def tryUpPort (s : State) (p : Nat) : State := [0, 1, 2, 3].foldl (fun s k => tryUp s (4 * p + k)) s
def tryUpAll (s : State) : State := (List.range 24).foldl tryUp s

/-! ## Replay (R271 to R273) -/

/-- The flit is acknowledged. -/
def acked (l : Link) (f : RFlit) : Bool := decide ((l.ack + 4096 - f.seq) % 4096 < 2048)

/-- Stream byte of a VC up to which everything is acknowledged. -/
def ackedTo (l : Link) (vc : Nat) : Nat :=
  match l.replay.find? (fun f => decide (f.vc = vc) && !acked l f) with
  | some f => f.at'
  | none => tget 0 l.txPos vc

/-- Free what R273 lets go: a flit acknowledged in which no packet begins that is not wholly so. -/
def freeReplay (l : Link) : Link :=
  let fl := l.flying.filter (fun p => decide (ackedTo l p.vc < p.hi))
  { l with
    flying := fl
    resend := l.resend.filter (fun f => !acked l f)
    replay := l.replay.filter (fun f => !acked l f
      || fl.any (fun p => decide (p.vc = f.vc) && decide (f.at' ≤ p.lo) && decide (p.lo < f.at' + 232))) }

/-- Flits that wait for their acknowledgement. -/
def unacked (l : Link) : List RFlit := l.replay.filter (fun f => !acked l f)

/-- The group enters RETRAIN (R277): it sends idles only and holds replay. -/
def enterRetrain (s : State) (g : Nat) : State :=
  let s := bump s (lnkOff g 0x12C) 1
  let l := getLink s g
  let s := setLink s g { l.go .retrain s.clk.dst with locked := false, exch := false, resend := [] }
  sendTraining s g (alignPay s g)

/-- Resend from ACK + 1 (R272); where some flit was resent four times already, the group retrains. -/
def resendAll (s : State) (g : Nat) : State :=
  let l := getLink s g
  if (unacked l).isEmpty then s
  else if (unacked l).any (fun f => decide (4 ≤ f.tries)) then enterRetrain s g
  else
    let s := bump s (lnkOff g 0x118) 1
    setLink s g { l with resend := unacked l, ackAt := s.clk.dst }

/-- ACK, NAK and credits of a flit that passed its checks (R272, R275). -/
def applyFields (s : State) (g : Nat) (h : W64) : State :=
  let l := getLink s g
  let step := (flAck h + 4096 - l.ack) % 4096
  let l := if 1 ≤ step ∧ step ≤ (l.seq + 4096 - l.ack) % 4096
    then freeReplay { l with ack := flAck h, ackAt := s.clk.dst } else l
  let s := setLink s g { l with crn := tput 0 l.crn (flCrvc h) (flCrn h) }
  if flNak h ∧ l.st = .up then resendAll s g else s

/-! ## Failure (R267, R292) -/

/-- Lane groups of a port that an edition gives the job and that are not FAILED; a one-way group carries multicast
packets of its source only (R309). -/
def liveGrps (s : State) (j ed p : Nat) (mc : Bool) : List Nat :=
  [0, 1, 2, 3].filter (fun g => edLgm s j ed p g && (getLink s (4 * p + g)).st != .failed
    && (decide (grpMode s (4 * p + g) = 0) || (mc && decide (grpMode s (4 * p + g) = 1))))

/-- Lane group with the most free credits on a VC among them, lower index on a tie (R286). -/
def bestLive (s : State) (j ed p vc : Nat) (mc : Bool) : Option Nat :=
  (liveGrps s j ed p mc).foldl (fun (b : Option Nat) g =>
    match b with
    | none => some g
    | some x => if freeCred (getLink s (4 * p + x)) vc < freeCred (getLink s (4 * p + g)) vc
                then some g else some x) none

/-- The slot whose editions route an accession's packets: its resident job's, else one that faulted
or ended under it. -/
def edSlot (s : State) (acc : Nat) : Option Nat :=
  match residentAcc s acc with
  | some j => some j
  | none => [0, 1, 2, 3].find? (fun j => decide ((getJob s j).st ≠ .free) && (getJob s j).acc.toNat == acc)

/-- Append a packet to an egress queue, with one more hop (R286, R290). -/
def putEgress (s : State) (g vc : Nat) (p : Packet) : State :=
  let l := getLink s g
  let p := { p with hdr := hdrPut p.hdr 12 6 (pkHops p + 1) }
  setLink s g { l with egress := tput [] l.egress vc (tget [] l.egress vc ++ [p]) }

/-- Route a packet onward by edition `ed` of slot j, from lane group `g` and VC `vc` (R286, R287, R290,
R292 step 6): the other edition is used where `ed` leads onto failed groups only. -/
def routeOn (s : State) (j ed g vc : Nat) (p : Packet) : State :=
  if 80 ≤ pkHops p + 1 then rtrDrop s 0x0C08 (pkAcc p) (pkAcc p) g (pkMid p)
  else
    let ph := pkPH p || decide (pkVia p = ownNode s)
    let p := { p with hdr := hdrPut (hdrPut p.hdr 73 73 (if ph then 1 else 0)) 72 72 ed }
    match nextHop s j ed (if ph then pkDst p else pkVia p) with
    | .port x =>
      let after := decide (g / 4 / 2 = x / 2) && (ph == decide (2 ≤ vc)) && decide (vc % 2 = 1)
      let v := outVc s j ed x ph after
      match bestLive s j ed x v false with
      | some k => putEgress s (4 * x + k) v p
      | none => rtrDrop s 0x0C07 (pkAcc p) (pkAcc p) g (pkMid p)
    | _ => rtrDrop s 0x0C07 (pkAcc p) (pkAcc p) g (pkMid p)

/-- The edition gives the job groups on a port, and none of them is alive (R292 step 6). -/
def portFailed (s : State) (j ed x : Nat) (mc : Bool) : Bool :=
  ([0, 1, 2, 3].any (edLgm s j ed x)) && (liveGrps s j ed x mc).isEmpty

/-- The edition leads onto lane groups of the job that have all failed (R292 step 6). -/
def edFailed (s : State) (j ed : Nat) (p : Packet) : Bool :=
  let ph := pkPH p || decide (pkVia p = ownNode s)
  match nextHop s j ed (if ph then pkDst p else pkVia p) with
  | .port x => portFailed s j ed x false
  | _ => false

/-- A multicast packet goes on along its line (R289), from lane group `g` and VC `vc`, by edition `ed`; a one-way
source sends VC 2 only (R309). -/
def routeMc (s : State) (j ed g vc : Nat) (p : Packet) : State :=
  let x := 2 * pkMCD p + pkMCN p
  let p := { p with hdr := hdrPut p.hdr 72 72 ed }
  let v := outVc s j ed x true (decide (g / 4 / 2 = x / 2) && decide (vc = 3))
  match bestLive s j ed x v true with
  | some k => putEgress s (4 * x + k) (if grpMode s (4 * x + k) = 1 then 2 else v) p
  | none => rtrDrop s 0x0C07 (pkAcc p) (pkAcc p) g (pkMid p)

/-- A multicast packet, given the other edition where its own leads onto failed groups (R292 step 6). -/
def stampMc (s : State) (j g vc : Nat) (p : Packet) : State :=
  let ed := pkED p
  if portFailed s j ed (2 * pkMCD p + pkMCN p) true && edValid s j (1 - ed) then
    routeMc (bump s (at' pgRTR (0x104 + 0x40 * j)) 1) j (1 - ed) g vc p
  else routeMc s j ed g vc p

/-- Route with restamping (R292 step 6). -/
def routeStamp (s : State) (j g vc : Nat) (p : Packet) : State :=
  let ed := pkED p
  if edFailed s j ed p && edValid s j (1 - ed) then
    routeOn (bump s (at' pgRTR (0x104 + 0x40 * j)) 1) j (1 - ed) g vc p
  else routeOn s j ed g vc p

/-- Re-inject a packet from replay under the new edition (R292 step 4): phase 0 with a new VIA. -/
def reinject (s : State) (j ed g : Nat) (t : TxPkt) : State :=
  let via := chooseVia s j ed (g % 4) (pkDst t.pkt)
  let h := hdrPut (hdrPut (hdrPut t.pkt.hdr 70 70 1) 72 72 ed) 12 6 (pkHops t.pkt - 1)
  let h := if pkPH t.pkt then h else hdrPut h 86 74 via
  routeOn (fresh s) j ed g t.vc { t.pkt with hdr := h }

/-- Non-empty partial packets of a group's ingress are discarded and counted (R292 step 2). -/
def dropPartial (s : State) (g : Nat) : State :=
  let l := getLink s g
  let n := (l.stream.filter (fun e => !e.2.isEmpty)).length
  setLink (bump s (lnkOff g 0x128) n) g { l with stream := [], synced := [] }

/-- Steps 3 to 6 of R292 for the owner's job: the other edition, or a fault; then replay and what waits
behind it move to other groups. -/
def failover (s : State) (g j : Nat) (l : Link) : State :=
  let ed := edActive s j
  if edValid s j (1 - ed) then
    let s := setReg s (at' pgRTR (0x100 + 0x40 * j)) (put32 (rtrEd s j) 0 0 (1 - ed))
    let s := post s pgRTR sevWarning 0x0C04 l.owner (d0Lnk l.owner.toNat g) 0
    let mc := l.flying.filter (fun t => pkMC t.pkt)
    let s := mc.foldl (fun s t =>
      if resident (getJob s j).st then
        jobFault (post s (pgLNK (g / 4)) sevFault 0x0C05 l.owner (d0Lnk l.owner.toNat g)
          (BitVec.ofNat 32 (pkMid t.pkt))) j
      else s) s
    let s := (l.flying.filter (fun t => !pkMC t.pkt)).foldl (fun s t => reinject s j (1 - ed) g t) s
    -- what waits is given the other edition, and counts (step 6)
    let s := bump s (at' pgRTR (0x104 + 0x40 * j)) (l.inj.length + sumNat (l.egress.map (fun e => e.2.length)))
    let s := l.egress.foldl (fun s e => e.2.foldl (fun s p =>
      let p := { p with hdr := hdrPut p.hdr 12 6 (pkHops p - 1) }
      if pkMC p then routeMc s j (1 - ed) g e.1 p else routeOn s j (1 - ed) g e.1 p) s) s
    originateAll s j (g % 4) l.inj
  else
    jobFault (post s pgRTR sevFault 0x0C07 l.owner (d0Lnk l.owner.toNat g) 0) j

/-- A lane at full power goes to safe power; a laser that is off or blocked stays so. -/
def LaserSt.down (x : LaserSt) : LaserSt := if x = .full then .safe else x

/-- Running migrations of a port that `q` picks end without a switch: their new lanes are free at safe power. -/
def endMigs (s : State) (p : Nat) (q : Migration → Bool) : State :=
  let ms := (tget [] s.opt.migs p).filter q
  let s := { s with opt := { s.opt with migs := tput [] s.opt.migs p ((tget [] s.opt.migs p).filter (fun m => !q m)) } }
  ms.foldl (fun s m => let x := laneAt s p m.new.val; setLaneAt s p m.new.val { x with laser := x.laser.down }) s

/-- A lane group leaves UP or RETRAIN for FAILED (R292); its migrations end. -/
def linkFail (s : State) (g : Nat) : State :=
  let s := endMigs s (g / 4) (fun m => decide (m.g.val = g % 4))
  let s := post s (pgLNK (g / 4)) sevWarning 0x0C03 (getLink s g).owner (d0Own s g) 0
  let s := dropPartial s g
  let l := getLink s g
  let s := setLink s g { l.go .failed s.clk.dst with
    replay := [], resend := [], flying := [], backlog := [], egress := [], inj := [], late := [], nak := false,
    nakOut := false }
  match residentAcc s l.owner.toNat with
  | some j => failover s g j l
  | none => s

/-- A one-way group leaves UP (R278): the source goes to FAILED by R292, a receiver trains again. -/
def onewayLost (s : State) (g : Nat) : State :=
  if grpMode s g = 1 then linkFail s g
  else
    let s := bump (dropPartial s g) (lnkOff g 0x12C) 1
    let l := getLink s g
    setLink s g { l.go .align s.clk.dst with locked := false, exch := false }

/-- The group and slot that use a lane. -/
def slotOf (s : State) (p l : Nat) : Option (Nat × Nat) :=
  [0, 1, 2, 3].findSome? (fun k =>
    (findIdx? (fun x => decide (x.val = l)) (getLink s (4 * p + k)).lanes 0).map (fun e => (4 * p + k, e.1)))

/-- The migration whose new lane this is. -/
def migNew (s : State) (p l : Nat) : Option Migration :=
  (tget [] s.opt.migs p).find? (fun m => decide (m.new.val = l))

/-- A lane that a new use may take (R310, R316, R320): free, not pinned, and no running migration's new lane. -/
def laneFree (s : State) (p l : Nat) : Bool :=
  laneRole s p l == .free && !pinned s p l && (migNew s p l).isNone

/-- Lowest free, unpinned lane of a port (R318). -/
def freeLane (s : State) (p : Nat) : Option Nat := (List.range 18).find? (laneFree s p)

/-- The spare that takes a failed lane's slot (R267, R316, R320): trained and locked, a reserve lane
only when no free one exists. -/
def spareLane (s : State) (p : Nat) : Option Nat :=
  let ok := fun (l : Nat) => !pinned s p l && optLocked s p l && (laneAt s p l).lp
  if (freeLane s p).isSome then (List.range 18).find? (fun l => laneFree s p l && ok l)
  else (List.range 18).find? (fun l => laneRole s p l == .reserve && ok l)

/-- A spare takes slot k of a group (R267, R302): replay resends from the last acknowledged flit. -/
def takeSlot (s : State) (g k old new : Nat) : State :=
  let p := g / 4
  let o := laneAt s p old
  let s := setLaneAt s p old { o with role := .failed, laser := o.laser.down }
  let n := laneAt s p new
  let s := setLaneAt s p new { n with role := .slot }
  let l := getLink s g
  let l := { l with lanes := setAt l.lanes k (Fin.ofNat 18 new) }
  let again := decide (l.st = .up) && !(unacked l).isEmpty
  let s := if again then bump s (lnkOff g 0x118) 1 else s
  setLink s g (if again then { l with resend := unacked l } else l)

/-- A lane that serves a slot fails (R267, R277, R278, R310): a spare takes the slot; two lanes that fail at once lead to
RETRAIN, a lane without a spare to FAILED. A lane in passage serves only a one-way group that taps it (R309, R316). A
running migration of the slot ends, and its new lane may be the spare; an old lane whose slot has moved on is failed
when its migration ends (R318). -/
def laneFail (s : State) (p l : Nat) : State :=
  let role := laneRole s p l
  match slotOf s p l with
  | none =>
    if role = .slot ∧ (tget [] s.opt.migs p).any (fun m => decide (m.old.val = l)) then
      setLaneAt s p l { laneAt s p l with role := .failed }
    else s
  | some (g, k) =>
    let lk := getLink s g
    if grpMode s g = 1 ∨ grpMode s g = 2 then
      (if lk.st = .up ∧ (role = .slot ∨ role = .passage) then onewayLost s g else s)
    else if role ≠ .slot then s
    else
      let twice := decide (lk.st = .up) && lk.failAt == some s.clk.dst
      let s := endMigs (setLink s g { lk with failAt := some s.clk.dst }) p (fun m => decide (m.old.val = l))
      match (if pinned s p l then none else spareLane s p) with
      | some n => if twice then enterRetrain (takeSlot s g k l n) g else takeSlot s g k l n
      | none => if lk.st = .up then linkFail s g else s

/-! ## Identity and readiness (R336 to R339) -/

/-- Some lane group is in HALT. -/
def anyHalt (s : State) : Bool := (List.range 24).any (fun g => (getLink s g).st == .halt)

/-- TOP_STATUS.READY (R339); when it falls, a warning with first data word `d0` and the page's interrupt. -/
def topCheckD (s : State) (d0 : W32) : State :=
  let r := decide (s.top.epoch ≠ 0) && !anyHalt s
  let was := s.top.ready
  let s := { s with top := { s.top with ready := r } }
  if was && !r then raiseInt (post s pgTOP sevWarning 0x0E01 0 d0 0) pgTOP 0 else s

/-- The same, where a lane group makes it fall. -/
def topCheck (s : State) (g : Nat) : State := topCheckD s (d0Own s g)

/-- Fields of an identity record (R336). -/
def idNode (r : W256) : Nat := fld r 191 179
def idPort (r : W256) : Nat := fld r 178 176
def idGroup (r : W256) : Nat := fld r 175 174
def idOwner (r : W256) : Nat := fld r 171 160
def idPver (r : W256) : Nat := fld r 143 136
def idFeat (r : W256) : Nat := fld r 135 120
def idEpoch (r : W256) : Nat := fld r 119 88

/-- First failing check of R338, in order; a one-way receiver must meet its source's version and features itself
(R278). -/
def identReason (s : State) (g : Nat) (r : W256) : Option Nat :=
  let l := getLink s g
  let c := l.cat
  if idNode r ≠ ctNode c then some 1
  else if fld r 255 192 ≠ ctSerial c then some 2
  else if idPort r ≠ ctPort c then some 3
  else if idGroup r ≠ ctGroup c then some 4
  else if idPort r ≠ g / 4 ^^^ 1 then some 5
  else if idOwner r ≠ l.owner.toNat then some 6
  else if idEpoch r ≠ s.top.epoch.toNat then some 7
  else if idPver r < ctMinPver c ∨ (grpMode s g = 2 ∧ Config.pver.toNat < idPver r) then some 8
  else if ctReqFeat c &&& idFeat r ≠ ctReqFeat c
      ∨ (grpMode s g = 2 ∧ Config.features.toNat &&& idFeat r ≠ idFeat r) then some 9
  else none

/-- A record is rejected (R338): HALT, the count, the latched reason, the entry. -/
def identReject (s : State) (g : Nat) (r : W256) (why : Nat) : State :=
  let s := bump s (at' pgTOP 0x144) 1
  let s := post s (pgLNK (g / 4)) sevError 0x0C02 (getLink s g).owner (d0Own s g)
    (BitVec.ofNat 32 (idPort r * 2 ^ 29 + idGroup r * 2 ^ 27 + idNode r * 2 ^ 13 + why))
  let l := getLink s g
  topCheck (setLink s g { l.go .halt s.clk.dst with reason := why }) g

/-- A record received in IDENT (R277, R278, R336, R338). -/
def takeIdent (s : State) (g : Nat) (pay : List Byte) : State :=
  let r : W256 := BitVec.ofNat 256 (ofBytes (pay.take 32))
  if fld r 31 0 ≠ (crc32c ((pay.drop 4).take 28)).toNat then s
  else
    let l := getLink s g
    let s := setLink s g { l with peer := r }
    match identReason s g r with
    | some why => identReject s g r why
    | none =>
      if grpMode s g = 2 then
        let fc := ofBytes ((pay.drop 32).take 8)
        holdKeys (setLink s g { l with
          peer := r, ver := BitVec.ofNat 8 (idPver r), feat := BitVec.ofNat 16 (idFeat r)
          exch := true, since := s.clk.dst, fcRx := fc + 1, rxEpoch := fc / 2 ^ 32 }) g
      else
        let s := setLink s g { l.go .credit s.clk.dst with
          peer := r, exch := false, ver := BitVec.ofNat 8 (min Config.pver.toNat (idPver r)),
          feat := Config.features &&& BitVec.ofNat 16 (idFeat r) }
        sendTraining s g (creditPay s g)

/-! ## Coming up -/

/-- First link-up (R277): SEQ, ACK and CRN start at 0 on both sides. -/
def Link.fresh (l : Link) (now : Nat) : Link :=
  { l.go .up now with
    seq := 0, ack := 0, rxSeq := 0, nak := false, nakOut := false, replay := [], resend := []
    ackAt := now, txPos := [], sent := [], crn := [], rxn := [], crvc := 0, stream := [], synced := []
    inAt := l.inAt.map (fun e => (e.1, e.2.map (fun _ => 0))), partAt := []
    flying := [], backlog := [], failAt := none, syncAt := now }

/-- RETRAIN ends (R277): SEQ, ACK and replay stay; everything unacknowledged is resent, and its resends count anew
(log 87). -/
def retrained (s : State) (g : Nat) : State :=
  let l := getLink s g
  if l.st = .retrain ∧ l.locked ∧ l.exch then
    let again := !(unacked l).isEmpty
    let s := if again then bump s (lnkOff g 0x118) 1 else s
    setLink s g { l.go .up s.clk.dst with
      resend := unacked l, replay := l.replay.map (fun f => { f with tries := 0 }), ackAt := s.clk.dst, failAt := none }
  else s

/-- Credit data received in CREDIT or RETRAIN (R275, R277, R363). -/
def takeCredit (s : State) (g : Nat) (pay : List Byte) : State :=
  let l := getLink s g
  let s := holdKeys (setLink s g { l with
    peerLim := ofBytes (pay.take 2), fcRx := ofBytes ((pay.drop 8).take 8)
    rxEpoch := ofBytes ((pay.drop 16).take 4), exch := true }) g
  retrained s g

/-- A training flit received (R277, R278). -/
def takeTraining (s : State) (g : Nat) (pay : List Byte) : State :=
  let l := getLink s g
  match l.st with
  | .ident => if grpMode s g = 2 ∧ l.exch then s else takeIdent s g pay
  | .credit | .retrain => takeCredit s g pay
  | .up =>
    if grpMode s g = 2 ∧ ofBytes ((pay.drop 32).take 8) + 1 ≠ l.fcRx then onewayLost s g else s
  | _ => s

/-- Count a received flit position (R363). -/
def countRx (s : State) (g : Nat) : State :=
  let l := getLink s g
  match l.st with
  | .credit | .up | .retrain | .ident => setLink s g { l with fcRx := l.fcRx + 1 }
  | _ => s

/-- A passage group whose cell receives: every flit is discarded, with one error (R342). -/
def passState (s : State) (g : Nat) : State :=
  let l := getLink s g
  if l.passErr || !(l.lanes.any (fun x => decide ((cellAt s (g / 4) x.val).cur ≤ 1))) then s
  else setLink (post s pgTOP sevError 0x0E03 l.owner (d0Own s g) 0) g { l with passErr := true }

/-- A flit whose CRC or tag fails (R270): counted, and an authentication failure logged. -/
def badFlit (s : State) (g : Nat) (crcOk : Bool) : State :=
  if crcOk then
    post (bump s (lnkOff g 0x114) 1) (pgLNK (g / 4)) sevWarning 0x0C01 (getLink s g).owner (d0Own s g) 0
  else bump s (lnkOff g 0x110) 1

/-! ## Packets out of the stream (R279, R289, R290) -/

/-- A packet as bytes of its stream (R279, R479). -/
def pktBytes (p : Packet) : List Byte := bytesOf 16 p.hdr.toNat ++ bytesOf 16 p.hdr2.toNat ++ p.pay

/-- Whole packets at the front of a byte stream that ends with a flit: MT 0 is pad to the flit's end. -/
def parseStream : Nat → List Byte → List Packet × List Byte
  | 0, b => ([], b)
  | n + 1, b =>
    if b.length < 16 then ([], b)
    else
      let h : W128 := BitVec.ofNat 128 (ofBytes (b.take 16))
      let k := 32 + fld h 21 13
      if fld h 127 125 = 0 then ([], [])
      else if b.length < k then ([], b)
      else
        let p : Packet := { hdr := h, hdr2 := BitVec.ofNat 128 (ofBytes ((b.drop 16).take 16)),
                            pay := (b.drop 32).take (k - 32) }
        let r := parseStream n (b.drop k)
        (p :: r.1, r.2)

/-- MC with DST off its line, in no dimension, or on a message type that multicasts not (R289, R290). -/
def badMC (s : State) (p : Packet) : Bool :=
  pkMC p && (decide (pkMCD p = 3) || decide (pkMT p ≠ mtPUT ∧ pkMT p ≠ mtSIGNAL)
    || [0, 1, 2].any (fun d => decide (d ≠ pkMCD p) && decide (coord d (pkDst p) ≠ coord d (ownNode s))))

/-- A whole packet that started in data flit `n` of its VC enters its ingress queue, or is dropped (R290). -/
def takePacket (s : State) (g vc n : Nat) (p : Packet) : State :=
  let o := (getLink s g).owner.toNat
  if o = 0 ∨ o ≠ pkAcc p then rtrDrop s 0x0C06 o (pkAcc p) g (pkMid p)
  else if 6 ≤ pkMT p || badMC s p then rtrDrop s 0x0C09 (pkAcc p) (pkAcc p) g (pkMid p)
  else
    let l := getLink s g
    setLink s g { l with ingress := tput [] l.ingress vc (tget [] l.ingress vc ++ [p])
                         inAt := tput [] l.inAt vc (tget [] l.inAt vc ++ [n]) }

/-- A data payload is appended to its VC's stream, and whole packets leave it (R279). A rest shorter
than a header is pad when the next flit starts with a packet (log 51). -/
def takePay (s : State) (g : Nat) (h : W64) (pay : List Byte) : State :=
  let vc := flVc h
  let l := getLink s g
  let old := tget [] l.stream vc
  let ok := tget true l.synced vc
  let pay := fit 0 232 pay
  let b := if ok then (if flNxt h = 0 then pay else old ++ pay)
    else if flNxt h ≤ 231 then pay.drop (flNxt h) else []
  let r := parseStream b.length b
  let n := tget 0 l.rxn vc
  let first := if ok && !old.isEmpty && decide (flNxt h ≠ 0) then tget 0 l.partAt vc else n
  let s := setLink s g { l with
    stream := tput [] l.stream vc r.2
    synced := tput true l.synced vc (ok || decide (flNxt h ≤ 231))
    partAt := tput 0 l.partAt vc (if r.1.isEmpty then first else n)
    rxn := tput 0 l.rxn vc (n + 1) }
  ((List.range r.1.length).zip r.1).foldl (fun s e => takePacket s g vc (if e.1 = 0 then first else n) e.2) s

/-- A discarded data flit leads to a NAK (R270, R272). -/
def sendNak (s : State) (g : Nat) : State :=
  let l := getLink s g
  setLink s g { l with nak := true, nakOut := true }

/-- A data flit that passed its checks on a two-way group (R272). -/
def takeData (s : State) (g : Nat) (f : RxFlit) : State :=
  let s := applyFields s g f.hdr
  let l := getLink s g
  if l.st ≠ .up then s
  else if flSeq f.hdr = (l.rxSeq + 1) % 4096 then
    takePay (setLink s g { l with rxSeq := flSeq f.hdr, nak := false }) g f.hdr f.pay
  else if (l.rxSeq + 4096 - flSeq f.hdr) % 4096 < 2048 then s
  else if l.nak then s else sendNak s g

/-- A one-way receiver loses its place in the stream (R279, R309). -/
def loseStream (s : State) (g : Nat) : State :=
  let l := getLink s g
  let vc := 2
  let part := !(tget [] l.stream vc).isEmpty
  let s := if part then bump s (lnkOff g 0x128) 1 else s
  setLink s g { l with stream := tput [] l.stream vc [], synced := tput true l.synced vc false }

/-- The group receives flits (R277, R278): its codewords are locked and its keys agreed, or being agreed. -/
def receives (s : State) (g : Nat) : Bool :=
  let l := getLink s g
  l.st == .credit || l.st == .up || l.st == .retrain || (decide (grpMode s g = 2) && l.st == .ident && l.exch)

/-- The FEC's findings count per lane (R267, R298). -/
def countFec (s : State) (g : Nat) (f : RxWire) : State :=
  ((getLink s g).lanes.zip f.fec).foldl (fun s e => match e.2 with
    | some .corrected => bump s (at' (pgLNK (g / 4)) (0x300 + 8 * e.1.val)) 1
    | some .uncorrectable => bump s (at' (pgLNK (g / 4)) (0x304 + 8 * e.1.val)) 1
    | _ => s) s

/-- A flit of type `ty` received on a lane group that may receive it (R270, R342, R363, R364): a passage group discards
it; FEC and position count; a flit that fails a check counts and `bad` follows, a good one is opened and `good` acts. -/
def rxFlit (s : State) (g ty : Nat) (w : RxWire) (bad : State → State) (good : State → RxFlit → State) : State :=
  if flType w.flit.hdr ≠ ty then s
  else if (getLink s g).role = 2 then passState s g
  else
    let s := countFec s g w
    if !receives s g then s
    else
      let f := openFlit s g w.flit
      let s := countRx s g
      if !f.crcOk || !f.tagOk then bad (badFlit s g f.crcOk)
      else good (stepEpoch s g f) f

/-- A data flit received (R270, R272, R309, R380): a bad one leads to a NAK, on a one-way receiver to the loss of its
place. -/
def recvData (s : State) (g : Nat) (w : RxWire) : State :=
  let one := decide (grpMode s g = 2)
  rxFlit s g 1 w (fun s => if one then loseStream s g else sendNak s g) (fun s f =>
    if one then
      takePay (if (getLink s g).st = .ident then setLink s g ((getLink s g).fresh s.clk.dst) else s) g f.hdr f.pay
    else if (getLink s g).st = .up then takeData s g f else s)

/-! ## SYNC (R29, R30, R284, R379) -/

/-- A 72-bit stamp: Datestamp and fine phase. -/
def stamp (s : State) : Nat := s.clk.dst * 256 + s.clk.fine.toNat

/-- The module is the time root (R333): its node ID, once written, equals the time-root ID. Before
TOP_NODE is written, ROOT has its reset value 0 (R51; log 63). -/
def isRoot (s : State) : Bool := s.top.named && decide (s.top.node = s.top.root)

/-- Two-way groups in UP that have measured an offset. -/
def steerGrps (s : State) : List Nat :=
  (List.range 24).filter (fun g => (getLink s g).st == .up && decide (grpMode s g = 0)
    && decide ((getLink s g).syncN ≠ 0))

/-- Weighted mean of a value over groups, 0 where no weight counts. -/
def wMean (w : Nat → Nat) (f : Nat → Int) (gs : List Nat) : Int :=
  let t := sumNat (gs.map w)
  if t = 0 then 0 else ((gs.map (fun g => (w g : Int) * f g)).foldl (· + ·) 0) / (t : Int)

/-- The steered offset is above 500 ps: one step of 1/256 of a tick is 125/192 ps (R7, R32). -/
def offHigh (t : Int) : Bool := decide (96000 < 125 * t.natAbs)

/-- OFFSET_PS of an offset. DESIGN CHOICE: the rule does not say how 125/192 ps is rounded; the model takes the floor
(log 126). -/
def offsetPs (t : Int) : Int := t * 125 / 192

/-- Set the steered offset, in 1/256 of a tick, and note when it crosses ±500 ps (R32, R51, R379). -/
def steerTo (s : State) (t : Int) : State :=
  let c := s.clk
  { s with clk := { c with target := t, since := if offHigh c.target == offHigh t then c.since else c.dst } }

/-- Apply an offset (R28, R379): before READY a correction beyond one tick is a step of whole ticks. -/
def steer (s : State) (t : Int) : State :=
  if !s.bup.ready ∧ 256 < t.natAbs then
    let k := Int.tdiv t 256
    let s := { s with clk := { s.clk with dst := ((s.clk.dst : Int) + k).toNat } }
    steerTo s (t - 256 * k)
  else steerTo s t

/-- A rate in 0.001 ppm from a change of offset, in 1/256 of a tick, over `n` ticks (R30). -/
def rateOf (d : Int) (n : Nat) : Int := d * 1000000000 / (256 * n : Nat)

/-- An offset measured on a port (R29, R30): after 16 SYNC intervals the change since then gives the rate to the peer,
over the ticks that have passed, and a new measurement begins. -/
def takeOffset (now : Nat) (o : Int) (l : Link) : Link :=
  if l.syncN = 0 then { l with offs := o, offs16 := o, offsAt := now, syncN := 1 }
  else if l.syncN < 16 then { l with offs := o, syncN := l.syncN + 1 }
  else { l with offs := o, offs16 := o, offsAt := now, syncN := 1,
                rate := some (rateOf (o - l.offs16) (max 1 (now - l.offsAt))), rateNew := true }

/-- The stamps of a SYNC flit (R284): half the round trip is the delay (R29). -/
def takeSync (s : State) (g : Nat) (pay : List Byte) : State :=
  let t1 := ofBytes (pay.take 9)
  let e1 := ofBytes ((pay.drop 9).take 9)
  let e2 := ofBytes ((pay.drop 18).take 9)
  let now := stamp s
  let l := getLink s g
  let l := { l with peerT1 := t1, peerRx := now }
  if e1 = 0 then setLink s g l
  else
    -- step 11 of R376: the Datestamp acquires the machine's time
    let s := { s with bup := { s.bup with phase := if s.bup.isLocal then max 11 s.bup.phase else s.bup.phase } }
    let o : Int := (((e2 : Int) - e1) + ((t1 : Int) - now)) / 2
    let s := setLink s g (takeOffset s.clk.dst o l)
    if isRoot s then s
    else steer s (wMean (fun g => Config.portWeight (g / 4)) (fun g => (getLink s g).offs) (steerGrps s))

end Sys2Proof.Machine
end

