-- ==== Sys2Proof/Machine/CusOps.lean ====
section
/-! DEFINITION. Custody: records, results, commit conditions, zeroising (R351 to R371, R434). -/

namespace Sys2Proof.Machine

/-! ## The record (R354, R355) -/

def recNonce (w : BitVec 2048) : Nat := fld w 31 0
def recOp (w : BitVec 2048) : Nat := fld w 39 32
def recTgt (w : BitVec 2048) : Nat := fld w 47 40
def recAcc (w : BitVec 2048) : Nat := fld w 59 48
def recArg (w : BitVec 2048) : Nat := fld w 127 64

/-- Named quadrants of a record whose target is a quadrant mask. -/
def recQuads (w : BitVec 2048) : List Nat := [0, 1, 2, 3].filter (fun q => (recTgt w).testBit q)

/-- Named lane group of a GROUP_OWN. -/
def recGrp (w : BitVec 2048) : Nat := 4 * (recTgt w % 8) + recTgt w / 8 % 4

/-- The record keeps the rules of R355 and the reserved bytes of R354, but for what its ACC column asks of the map (log
60). -/
def recFormat (w : BitVec 2048) : Bool :=
  let op := recOp w
  let t := recTgt w
  let a := recAcc w
  let g := recArg w
  let plain := decide (fld w 1279 128 = 0)
  decide (fld w 63 60 = 0) && decide (fld w 2047 1280 = 0) && (plain || decide (op = 4)) &&
  (match op with
   | 1 => decide (t < 16) && decide (a ≠ 0) && decide (g < 2)
   | 2 | 6 | 7 => decide (t < 16) && decide (a ≠ 0) && decide (g = 0)
   | 3 => decide (t < 32) && decide (t % 8 < 6) && decide (g < 3) && (decide (a = 0) == decide (g = 0))
   | 4 | 5 => decide (t < 4) && decide (a ≠ 0) && decide (g = 0)
   | 8 => decide (a = 0) && decide (g < 2 ^ 32)
   | 9 | 10 => decide (t = 0) && decide (a = 0) && decide (g = 0)
   | _ => false)

/-! ## Result codes (R374) -/

def rStaged : Nat := 1
def rCommitted : Nat := 2
def rBadsig : Nat := 3
def rBusy : Nat := 4
def rSameparty : Nat := 5
def rExpired : Nat := 6
def rNonce : Nat := 7
def rRefused : Nat := 8
def rLocked : Nat := 9
def rUnwrap : Nat := 10
def rCancelled : Nat := 11
def rFormat : Nat := 12

def partyBit (p : Party) : Nat := match p with | .host => 0 | .bmc => 1

/-- Data words of R373. -/
def d0Cus (w : BitVec 2048) : W32 := BitVec.ofNat 32 (recOp w * 2 ^ 24 + recNonce w % 2 ^ 24)
def d1Cus (r : Nat) (p : Party) : W32 := BitVec.ofNat 32 (partyBit p * 256 + r)

/-- A custody entry about a record (R373). -/
def cusPost (s : State) (sev code : Nat) (w : BitVec 2048) (r : Nat) (p : Party) : State :=
  post s pgCUS sev code (BitVec.ofNat 12 (recAcc w)) (d0Cus w) (d1Cus r p)

/-! ## The BMC path (R432, R434) -/

/-- The endpoint answers: powered, past step 2, its domain running, no module reset (R391, R402, R432). -/
def mgtLive (s : State) : Bool :=
  s.bup.railsOn && decide (2 ≤ s.bup.phase) && !s.clk.mgmtDead
    && (match s.bup.rst with | some r => r.scope != 5 | none => true)

/-- A message other than MCTP control is taken: an endpoint ID is assigned (R432). -/
def mgtAddressed (s : State) : Bool := mgtLive s && decide (s.mgt.eid ≠ 0)

/-- A vendor command begins (R434); code 3 while the previous one runs, and before custody serves (log 61). -/
def vendor (s : State) (cmd : Nat) (f : State → State) : State :=
  if !mgtAddressed s then s
  else if s.mgt.busy || !pageLive s pgCUS then emit s (.mctp cmd 3 [])
  else f { s with mgt := { s.mgt with busy := true } }

/-- The response to a BMC custody request: CUS_RESULT. -/
def answer (s : State) (p : Party) (cmd : Nat) : State :=
  match p with
  | .host => s
  | .bmc => emit { s with mgt := { s.mgt with busy := false } } (.mctp cmd 0 [BitVec.ofNat 8 s.cus.result])

/-- A result is set: CUS_RESULT with its interrupt, CUS_REFUSE where R358 asks for one, the response. -/
def cusEnd (s : State) (p : Party) (cmd : Nat) (w : BitVec 2048) (r : Nat) : State :=
  let s := raiseInt { s with cus := { s.cus with result := r, badRun := if r = rBadsig then s.cus.badRun + 1 else 0 } }
    pgCUS 0
  let s := if [rStaged, rCommitted, rExpired, rCancelled].contains r then s
    else cusPost s sevWarning 0x0F02 w r p
  answer s p cmd

/-- The pending staging is discarded. -/
def cusDiscard (s : State) : State :=
  { s with cus := { s.cus with busy := false, commit := none, pend := 0, dline := 0 } }

/-- A bad signature (R358, R359): counted; the third in a row locks custody for 60 s. -/
def cusBadsig (s : State) (p : Party) (cmd : Nat) (w : BitVec 2048) : State :=
  let s := cusEnd (bump s (at' pgCUS 0x110) 1) p cmd w rBadsig
  if s.cus.badRun < 3 then s
  else
    let s := cusDiscard s
    cusPost { s with cus := { s.cus with badRun := 0, lockAt := some (s.clk.dst + 60000 * msTicks) } }
      sevError 0x0F04 w rBadsig p

/-! ## Zeroising (R369) -/

/-- Zeroise a quadrant: SRAM of all its clusters, bundle queues, accumulators, and its staged cells of
the queue pool. Waiting BAR2 reads hold no data and stay. -/
def zeroise (s : State) (q : Nat) : State :=
  let s := zeroRegions s (fun r => decide (2 ^ 20 ≤ r) && (r >>> 11) % 4 == q)
  { s with
    cores := tmap Core.reset (fun k c => if k / 1536 = q
      then { c with bq := [], acc := [], mxFly := [], stFly := [], mvFly := [], tdFly := [], mq := [] } else c) s.cores
    clus := tmap Cluster.reset (fun k c => if k / 16 = q
      then { c with re := { c.re with fly := [] }, rt := { c.rt with fly := [] } } else c) s.clus
    fab := { s.fab with
      arrive := s.fab.arrive.filter (fun a => a.q.val != q)
      msgs := s.fab.msgs.filter (fun m => m.q.val != q)
      getQ := s.fab.getQ.filter (fun r => r.q.val != q) }
    bar2 := s.bar2.filter (fun r => r.q.val != q || r.data.isNone)
    cus := { s.cus with zbusy := s.cus.zbusy ||| BitVec.ofNat 4 (2 ^ q) } }

/-- Number of the XTS data unit of an HBM byte (R366): linear stack byte over 32 in [31:0], stack in [33:32]. -/
def xtsUnit (a : Nat) : Nat := a % 2 ^ 37 / 32 + stackOf a * 2 ^ 32

/-- What the stack holds for the data unit at `a`, its ciphertext, which the check code covers (R152, R366). Memory
lists HBM as its controllers read it under the present key. -/
def stackUnit (s : State) (a : Nat) : List Byte :=
  Aes.xtsEnc (bytesOf 64 (tget 0 s.cus.xts (quadOf a)).toNat) (xtsUnit a) (rdBytes s a 32)

/-- Fresh XTS key for a quadrant (R367): a unit that was written reads as its old ciphertext under the new key, every
other byte as unknown. Errors of the stack stay, since the check code covers the ciphertext. -/
def freshKey (s : State) (q : Nat) : State :=
  let us := ((s.mem.filter (fun e => regionOf e.1 == q)).map (fun e => e.1 / 32 * 32)).eraseDups
  let new := Config.xtsKey s.draws
  let cells := us.flatMap (fun u => cellsAt u (Aes.xtsDec (bytesOf 64 new.toNat) (xtsUnit u) (stackUnit s u)))
  let s := loseRegion (fresh s) q
  wrCells { s with cus := { s.cus with xts := tput 0 s.cus.xts q new } } cells

/-- The seal bit of a quadrant (R351). -/
def sealed (s : State) (q : Nat) : Bool := bit s.cus.seals q

def setSeal (s : State) (q : Nat) (on : Bool) : State :=
  let m := BitVec.ofNat 4 (2 ^ q)
  { s with cus := { s.cus with seals := if on then s.cus.seals ||| m else s.cus.seals &&& ~~~ m } }

def setOwner (s : State) (q : Nat) (a : BitVec 12) : State :=
  { s with cus := { s.cus with own := tput 0 s.cus.own q a } }

/-! ## Commit conditions (R340, R341, R355) -/

/-- The accession owns a quadrant here. -/
def ownsHere (s : State) (a : Nat) : Bool := [0, 1, 2, 3].any (fun q => (owner s q).toNat == a)

/-- A job of the accession is resident on a quadrant. -/
def residentJobOn (s : State) (a q : Nat) : Bool :=
  match residentOn s q with
  | some j => (accOf s j).toNat == a
  | none => false

/-- A cell of the group's lanes is in PASS or TAP with HOLD (R340). -/
def heldPass (s : State) (g : Nat) : Bool :=
  (getLink s g).lanes.any (fun l =>
    let c := cellAt s (g / 4) l.val
    c.hold && decide (2 ≤ c.cur ∧ c.cur ≤ 4))

/-- GROUP_OWN may commit (R340, R341). That ROLE 2 accepts an opposite record still at ROLE 0, and that
residence means owning a quadrant here, is DEDUCED (log 62). -/
def groupOk (s : State) (g a role : Nat) : Bool :=
  let l := getLink s g
  let o := getLink s (4 * (g / 4 ^^^ 1) + g % 4)
  (l.st == .down)
  && (!heldPass s g || (decide (role = 2) && decide (l.role = 0)))
  && (decide (role ≠ 1) || ownsHere s a)
  && (decide (role ≠ 2) || (!ownsHere s a && (decide (o.role = 0) || (decide (o.role = 2) && o.owner.toNat == a))))

/-- The lock fuse of the group of a fuse row is blown (R355, R465). -/
def rowLocked (s : State) (row : Nat) : Bool :=
  groupLocked s (row / 16)

/-- Accession in a key slot, 0 where it is free (R361). -/
def keyAcc (s : State) (k : Nat) : Nat := (tget 0 s.cus.keys k).toNat

/-- The ACC column of R355 against the map as it stands: the owner of the named quadrants, an owner of a quadrant here,
the accession of the slot. A record that breaks it ends with FORMAT. -/
def accOk (s : State) (w : BitVec 2048) : Bool :=
  let a := recAcc w
  match recOp w with
  | 2 | 6 | 7 => (recQuads w).all (fun q => (owner s q).toNat == a)
  | 4 => ownsHere s a
  | 5 => decide (keyAcc s (recTgt w) = a)
  | _ => true

/-- The commit conditions of R355 against the map as it stands. -/
def commitOk (s : State) (w : BitVec 2048) : Bool :=
  let a := recAcc w
  let idle := (recQuads w).all (fun q => !residentJobOn s a q)
  match recOp w with
  | 1 => (recQuads w).all (fun q => owner s q == 0) && !(decide (recArg w % 2 = 1) && s.cus.debug)
  | 2 | 7 => idle
  | 3 => groupOk s (recGrp w) a (recArg w % 4)
  | 4 => decide (keyAcc s (recTgt w) = 0) && !s.cus.debug
  | 5 => (List.range 24).all (fun g =>
      let l := getLink s g
      l.owner.toNat != a || l.st == .down || l.st == .halt || l.st == .failed)
  | 6 => !s.cus.debug
  | 8 => !rowLocked s (recTgt w)
  | _ => true

/-! ## Stage, confirm, commit (R357, R358) -/

/-- The record that stands in CUS_STAGE (R354, R374). -/
def stagedWord (s : State) : BitVec 2048 :=
  BitVec.ofNat 2048 (ofBytes ((List.range 64).flatMap (fun w => bytesOf 4 (tget 0 s.cus.stage w).toNat)))

/-- Ticks of the 10 s deadline. -/
def stageTicks : Nat := 10000 * msTicks

/-- The signature that stands in CUS_SIG (R374). -/
def stagedSig (s : State) : BitVec 768 :=
  BitVec.ofNat 768 (ofBytes ((List.range 24).flatMap (fun w => bytesOf 4 (tget 0 s.cus.sig w).toNat)))

/-- A stage is issued (R357): it waits for its verification, or gets LOCKED. -/
def stageIssue (s : State) (p : Party) (w : BitVec 2048) (sig : BitVec 768) : State :=
  if s.cus.lockAt.isSome then cusEnd s p 1 w rLocked
  else { s with cus := { s.cus with verify := s.cus.verify ++ [{ party := p, word := w, sig := sig }] } }

/-- Another party's staging was made at this very Datestamp. -/
def stageTie (s : State) (p : Party) : Bool :=
  s.cus.busy && decide (s.cus.origin ≠ p) && decide (s.cus.dline = s.clk.dst + stageTicks)

/-- A record that passed its checks becomes the pending one. -/
def stageKeep (s : State) (p : Party) (w : BitVec 2048) (nonce : W32) : State :=
  cusEnd { s with cus := { s.cus with busy := true, origin := p, pend := w, commit := none, nonce := nonce,
                                      dline := s.clk.dst + stageTicks } } p 1 w rStaged

/-- A stage is verified (R356 to R358): signature, format, nonce, BUSY, in this order (log 60). Of two
stages at one Datestamp the BMC's is kept. -/
def stageVerify (s : State) (p : Party) (w : BitVec 2048) (sig : BitVec 768) : State :=
  let tie := stageTie s p
  let n := if tie then s.cus.nonce.toNat + 2 ^ 32 - 1 else s.cus.nonce.toNat
  if s.cus.lockAt.isSome then cusEnd s p 1 w rLocked
  else if !sigOk s (partyBit p) 0x53 w sig then cusBadsig s p 1 w
  else if !recFormat w || !accOk s w then cusEnd s p 1 w rFormat
  else if recNonce w ≠ n % 2 ^ 32 then cusEnd s p 1 w rNonce
  else if tie then
    match p with
    | .host => cusEnd s p 1 w rBusy
    | .bmc =>
      let old := s.cus.pend
      cusEnd (stageKeep s p w s.cus.nonce) .host 1 old rBusy
  else if s.cus.busy then cusEnd s p 1 w rBusy
  else stageKeep s p w (s.cus.nonce + 1)

/-- A confirm is issued and verified (R356 to R358, R361). -/
def confirmVerify (s : State) (p : Party) (w : BitVec 2048) (sig : BitVec 768) : State :=
  let c := s.cus
  if c.lockAt.isSome then cusEnd s p 2 w rLocked
  else if !c.busy then
    cusEnd s p 2 w (if c.dline ≠ 0 ∧ c.dline < s.clk.dst ∧ w = c.pend then rExpired else rNonce)
  else if c.dline < s.clk.dst then cusEnd s p 2 w rExpired
  else if !sigOk s (partyBit p) 0x43 w sig ∨ w ≠ c.pend then cusBadsig s p 2 w
  else if p = c.origin then cusEnd s p 2 w rSameparty
  else if !accOk s w then cusEnd (cusDiscard s) p 2 w rFormat
  else if !commitOk s w then cusEnd (cusDiscard s) p 2 w rRefused
  else if recOp w = 4 ∧ (unwrapKey s w).isNone then cusEnd (cusDiscard s) p 2 w rUnwrap
  else { s with cus := { c with commit := some { party := p, word := w, sig := sig } } }

/-- A confirmed record with operation `op` is applied whole by `f` (R357 step 5, R360), or refused where
its condition no longer holds (FORMAT where the map no longer bears its ACC). -/
def commitRow (s : State) (op : Nat) (f : State → BitVec 2048 → State) : State :=
  match s.cus.commit with
  | none => s
  | some r =>
    if recOp r.word ≠ op then s
    else
      let acc := accOk s r.word
      let ok := commitOk s r.word
      let s := cusDiscard s
      if !acc then cusEnd s r.party 2 r.word rFormat
      else if ok then cusEnd (cusPost (f s r.word) sevWarning 0x0F01 r.word rCommitted r.party) r.party 2 r.word rCommitted
      else cusEnd s r.party 2 r.word rRefused

end Sys2Proof.Machine
end

