-- ==== Sys2Proof/Machine/FnApprox.lean ====
section
/-! DEFINITION. The true results of EXP, LOG, TANH, SIGMOID and GELU, close enough to hold a value of the unit to
its bound (R110). -/

namespace Sys2Proof.Machine

/-- Fraction bits of the fixed-point sums below. -/
def fpBits : Nat := 176

/-- A real number's approximation n / 2^176. -/
def fixed (n : Nat) : Ext := .fin false n (-(fpBits : Int))

/-- ln 2 as the sum of 1 / (k 2^k), k from 1 to n, in units of 2^-176. -/
def ln2Sum : Nat → Nat
  | 0 => 0
  | n + 1 => ln2Sum n + 2 ^ fpBits / ((n + 1) * 2 ^ (n + 1))

/-- ln 2 in units of 2^-176. -/
def ln2Fix : Nat := ln2Sum fpBits

/-- 1 + r/k (1 + r/(k+1) ( ... )), n terms, r in units of 2^-176: from k = 1 the series of e^r. -/
def expSeries : Nat → Nat → Nat → Nat
  | 0, _, _ => 2 ^ fpBits
  | n + 1, k, r => 2 ^ fpBits + r * expSeries n (k + 1) r / (k * 2 ^ fpBits)

/-- A finite value in units of 2^-176, toward minus infinity. -/
def fixOf : Ext → Int
  | .fin n m e =>
    let a : Int := if 0 ≤ e + fpBits then (m <<< (e + fpBits).toNat : Nat) else (m >>> (-(e + fpBits)).toNat : Nat)
    if n then -a else a
  | _ => 0

/-- |x| is at least 256: e^x is then beyond every FP32 value, or below every one. -/
def farOut (x : Ext) : Bool := !x.isZero && decide (8 ≤ x.log2)

/-- e^x of a finite x with |x| below 256. -/
def expNear (x : Ext) : Ext :=
  let v := fixOf x
  let k := v / (ln2Fix : Int)
  .fin false (expSeries 48 1 (v - k * ln2Fix).toNat) (k - fpBits)

/-- The true e^x: past 256 either way it is 2^300 or 2^-300, which FP32 cannot tell from it. -/
def trueExp (x : Ext) : Ext :=
  if x.isInf || farOut x then (if x.isNeg then .fin false 1 (-300) else .fin false 1 300) else expNear x

/-- z + z^3/3 + z^5/5 + ..., n terms from 1/(2k+1) on, z and its power in units of 2^-176. -/
def artanhSeries : Nat → Nat → Nat → Nat → Nat
  | 0, _, _, _ => 0
  | n + 1, k, z2, p => p / (2 * k + 1) + artanhSeries n (k + 1) z2 (p * z2 / 2 ^ fpBits)

/-- The true ln x of a finite x > 0: ln m + k ln 2 with m from 1 to 2. -/
def trueLog (x : Ext) : Ext :=
  match x with
  | .fin _ m e =>
    let k := Nat.log2 m
    let z := ((m - 2 ^ k) <<< fpBits) / (m + 2 ^ k)
    let t : Int := 2 * (artanhSeries 64 0 (z * z / 2 ^ fpBits) z : Nat) + ((k : Int) + e) * ln2Fix
    Ext.ofUnits (-(fpBits : Int)) t false
  | _ => Ext.zero

/-- The true tanh x = (e^2x - 1) / (e^2x + 1). -/
def trueTanh (x : Ext) : Ext :=
  let e := trueExp (Ext.mul (.fin false 1 1) x)
  Ext.div (Ext.sub e Ext.one) (Ext.add e Ext.one)

/-- The true 1 / (1 + e^-x). -/
def trueSigmoid (x : Ext) : Ext :=
  let e := trueExp x
  Ext.div e (Ext.add e Ext.one)

/-- The rational p / 10^k. -/
def ratio (p k : Nat) : Ext := Ext.div (.fin false p 0) (.fin false (10 ^ k) 0)

/-- The true 0.5x(1 + tanh u) with u = 0.79788456(x + 0.044715x^3), that is x / (1 + e^-2u) (R110). -/
def trueGelu (x : Ext) : Ext :=
  let x3 := Ext.mul x (Ext.mul x x)
  let u := Ext.mul (ratio 79788456 8) (Ext.add x (Ext.mul (ratio 44715 6) x3))
  Ext.mul x (trueSigmoid (Ext.mul (.fin false 1 1) u))

/-- What an FP32 code stands for beside a true result: an infinity for 2^128, where the range ends. -/
def rangeVal (w : W32) : Ext :=
  match val w with
  | .inf n => .fin n 1 128
  | v => v

/-- The bound of R110 at the true result y: n ulp of FP32 there, or 2^-126 where that is larger, and 2^-40 ulp more
for what y itself may be off. -/
def fnBound (n : Nat) (y : Ext) : Ext :=
  Ext.emax (.fin false 1 (-126)) (if y.isZero then Ext.zero else .fin false (n * 2 ^ 40 + 1) (y.log2 - 63))

/-- An FP32 value stands within the bound of a true result (R110). A true result from 2^128 on is an infinity. -/
def fnWithin (n : Nat) (y : Ext) (w : W32) : Bool :=
  !(val w).isNan && (if !y.isZero && decide (128 ≤ y.log2) then decide (w = rne y)
    else !(Ext.gt (Ext.sub (rangeVal w) y).mag (fnBound n y)))

/-- A value of a function: the unit's own where its bound allows it, else the true result rounded (R110). The unit's
value is free (log 9), so this is any value that the bound allows. -/
def boundedFn (n : Nat) (y : Ext) (w : W32) : W32 := if fnWithin n y w then w else rne y

end Sys2Proof.Machine
end

