-- ==== Sys2Proof/Machine/MatrixOps.lean ====
section
/-! DEFINITION. The matrix unit: latch checks, products, loads and stores (R73, R85 to R102). -/

namespace Sys2Proof.Machine

def mxAcc (w : W64) : Nat := fld w 57 56
def mxTda (w : W64) : Nat := fld w 55 50
def mxTdb (w : W64) : Nat := fld w 49 44
def mxTdc (w : W64) : Nat := fld w 43 38
def mxMsk (w : W64) : Nat := fld w 37 34
def mxRnd (w : W64) : Nat := fld w 32 31
def mxScl (w : W64) : Nat := fld w 30 14

/-- ILLEGAL_OP of a matrix slot (R60, R61, R73, R84, R97). -/
def mxIllegal (w : W64) : Bool :=
  let op := fld w 63 58
  let ab := decide (mxTda w ≠ 0) || decide (mxTdb w ≠ 0)
  let tc := decide (mxTdc w ≠ 0)
  let zs := bit w 33
  let rn := decide (mxRnd w ≠ 0)
  let sc := decide (mxScl w ≠ 0)
  decide (6 < op) || decide (fld w 13 0 ≠ 0) || decide (mxRnd w = 3)
  || (if op = 0 then decide (w ≠ 0)
      else if op ≤ 2 then tc || rn || sc
      else if op = 3 then ab || zs || rn || sc
      else if op = 4 then ab || zs || sc
      else if op = 5 then ab || zs || sclBad (mxScl w)
      else ab || tc || zs || rn || sc)

/-- MX_FORMAT (R85, R92, R93, R96). -/
def mxFormat (op : Nat) (a b t : Td) : Bool :=
  if op ≤ 2 then
    decide (rateClass a.fmt = 0) || decide (rateClass a.fmt ≠ rateClass b.fmt) || b.spe
    || (isMx a.fmt && a.tr) || (isMx b.fmt && !b.tr) || (a.spe && a.tr)
  else
    decide (7 < t.fmt) || t.spe || (if op = 3 then t.tr && isMx t.fmt else t.tr)

/-- MX_SHAPE (R86, R96). -/
def mxShape (op : Nat) (a b t : Td) : Bool :=
  if op ≤ 2 then
    let k := a.pCols
    let mx := isMx a.fmt || isMx b.fmt
    decide (64 < a.pRows) || decide (64 < b.pCols) || decide (k ≠ b.pRows)
    || (mx && decide (k % 32 ≠ 0)) || (a.spe && mx && decide (k % 64 ≠ 0))
  else decide (64 < t.pRows) || decide (64 < t.pCols)

/-- MX_HAZARD (R101): the accumulator's last writer is not complete, unless MMA follows MMA or MMZ. -/
def mxHazard (s : State) (c : Core) (op a : Nat) : Bool :=
  decide (s.clk.dst < tget 0 c.accDue a) && !(op == 1 && bit c.accMma a)

/-- The one code that a matrix slot raises at the latch, if any (R480). -/
def mxCheck (s : State) (c : Core) (w : W64) : Option Nat :=
  let op := fld w 63 58
  if mxIllegal w then some 0x0303
  else if op = 0 then none
  else
    let a := tdLatch c (mxTda w)
    let b := tdLatch c (mxTdb w)
    let t := tdLatch c (mxTdc w)
    if op ≤ 2 ∧ (a.2 ∨ b.2) ∨ (3 ≤ op ∧ op ≤ 5 ∧ t.2) then some 0x0304
    else if op ≠ 6 ∧ mxFormat op a.1 b.1 t.1 then some 0x0401
    else if op ≠ 6 ∧ mxShape op a.1 b.1 t.1 then some 0x0402
    else if mxHazard s c op (mxAcc w) then some 0x0404
    else none

/-- Accumulator element. -/
def accGet (c : Core) (a m n : Nat) : W32 := tget 0 c.acc (4096 * a + 64 * m + n)
def accPut (c : Core) (a m n : Nat) (v : W32) : Core :=
  { c with acc := tput 0 c.acc (4096 * a + 64 * m + n) v }

/-- Metadata nibble of group g of row r (R93). -/
def nibble (rd : Nat → Byte) (c : CoreId) (t : Td) (r g : Nat) : Nat :=
  let b := (rd (nibbleAddr c t r g)).toNat
  if (r * (t.cols / 4) + g) % 2 = 0 then b % 16 else b / 16

/-- Groups of four logical columns of block j of a sparse TDA. -/
def blockGroups (t : Td) (j : Nat) : List Nat := ((List.range 16).map (16 * j + ·)).filter (· < t.cols / 4)

/-- Logical K positions of the stored values of block j of row r of a sparse TDA, nibble by nibble (R93). -/
def sparsePos (rd : Nat → Byte) (c : CoreId) (t : Td) (r j : Nat) : List Nat :=
  (blockGroups t j).flatMap (fun g => let n := nibble rd c t r g; [4 * g + n % 4, 4 * g + n / 4])

/-- A nibble of block j has IDX0 >= IDX1 (R94). -/
def badMeta (rd : Nat → Byte) (c : CoreId) (t : Td) (j : Nat) : Bool :=
  (List.range t.rows).any (fun r => (blockGroups t j).any (fun g =>
    let n := nibble rd c t r g; decide (n / 4 ≤ n % 4)))

/-- Sum block j of an MMA or MMZ into every element of the accumulator, one rounding each (R88, R91); the first
block of an MMZ starts from 0. -/
def mmaBlock (rd : Nat → Byte) (cid : CoreId) (op acc : Nat) (a b : Td) (j : Nat) (c : Core) : Core :=
  let ks := ((List.range 32).map (32 * j + ·)).filter (· < kStored a)
  let kb := if a.spe then (List.range 64).map (64 * j + ·) else ks
  let cols := (List.range b.pCols).map (fun n =>
    kb.map (fun k => if k < a.pCols then presented rd cid b k n else Ext.zero))
  (List.range a.pRows).foldl (fun c m =>
    let as := ks.map (fun k => presented rd cid a m k)
    let ps := if a.spe then sparsePos rd cid a m j else []
    ((List.range cols.length).zip cols).foldl (fun c e =>
      let bs := if a.spe then ps.map (fun p => e.2.getD (p - 64 * j) Ext.zero) else e.2
      let r := accBlocks (if op = 2 ∧ j = 0 then 0 else accGet c acc m e.1) [(as.zip bs).map (fun p => Ext.mul p.1 p.2)]
      let c := accPut c acc m e.1 r.1
      if r.2 then { c with trunc := setFlag c.trunc acc true } else c) c) c

/-- Latched inputs of one launch: the bundle's OFFSET, the job time, and the core as it stood. -/
structure Latch where
  off : Nat
  jt  : Nat
  core : Core
deriving DecidableEq, Repr

/-! ## Operations in flight -/

/-- What a line that an operation holds reads as, for operand `k`; for the matrix unit any. -/
def heldByte (h : List (Nat × Nat × List Byte)) (k : Option Nat) (a : Nat) : Byte :=
  match h.find? (fun e => e.2.1 == a / 64 && (match k with | some n => e.1 == n | none => true)) with
  | some e => e.2.2.getD (a % 64) 0
  | none => 0

/-- Read a 64 B line: the check of R148 on its words that hold wanted bytes, then the line. -/
def readLine (s : State) (w : Who) (line : Nat) (want : Nat → Bool) : State × Option (List Byte) :=
  let r := if s.flaws.isEmpty then (s, true)
    else readCheck s w (((List.range 64).map (64 * line + ·)).filter want)
  (r.1, if r.2 then some (rdBytes s (64 * line) 64) else none)

/-- An operation of a matrix or stream slot as it is launched: everything it needs is latched (R57). -/
def newOp (s : State) (cid : CoreId) (l : Latch) (w : W64) (tds : List Nat) (tag unit scl : Nat)
    (due : Nat) (msk : Nat) (evs : List Ev) : OpFly :=
  let k := getClu s cid.cl.key
  let q := cid.cl.q.val
  let live := !maskedBy k l.jt cid.k.val msk
  { due := s.clk.dst + cyc due, w := w, tds := tds.map (fun n => tget 0 l.core.td n), off := l.off,
    scl := sclF k l.jt scl, step := stepOf s cid.cl l.jt, tol := tolOf s cid.cl,
    draw := drawOf s cid.cl l.jt tag cid.k.val unit
    pad := padKey w (l.jt - (match jobOn s q with | some j => (getJob s j).s | none => 0))
    live := live, plan := if live then placeEvs s.clk.dst evs else [], held := [], outD := [], outR := [],
    sums := [], cnt := Counts.none, trunc := 0 }

/-- Put an operation into the matrix unit: busy until launch + I (R58, R100). -/
def mxIssue (s : State) (cid : CoreId) (i : Nat) (f : OpFly) : State :=
  let c := getCore s cid
  setCore s cid { c with mxBusy := s.clk.dst + cyc i, mxFly := c.mxFly ++ [f] }

/-- Note the writer of an accumulator (R100, R101). -/
def accWriter (c : Core) (a iss due : Nat) (mma : Bool) : Core :=
  { c with accIss := tput 0 c.accIss a iss, accDue := tput 0 c.accDue a due,
           accMma := setFlag c.accMma a mma }

/-- Start an MMA or MMZ (R88, R99, R100): MMZ clears the truncation flag (R91). -/
def startMma (s : State) (cid : CoreId) (l : Latch) (w : W64) (op : Nat) : State :=
  let a := (tdLatch l.core (mxTda w)).1
  let b := (tdLatch l.core (mxTdb w)).1
  let p := mmaPlan cid a b
  let due := p.1 + 12
  let f := newOp s cid l w [mxTda w, mxTdb w] 0 0 0 due (mxMsk w) p.2
  if !f.live then mxIssue s cid p.1 f
  else
    let c := getCore s cid
    let c := { c with trunc := if op = 2 then setFlag c.trunc (mxAcc w) false else c.trunc }
    let c := accWriter c (mxAcc w) (s.clk.dst + cyc p.1) (s.clk.dst + cyc due) true
    mxIssue (setCore s cid c) cid p.1 f

/-- Start an ALD (R96, R100): its elements stand in the accumulator by launch + I + 4. -/
def startAld (s : State) (cid : CoreId) (l : Latch) (w : W64) : State :=
  let t := (tdLatch l.core (mxTdc w)).1
  let p := loadPlan cid t
  let f := newOp s cid l w [mxTdc w] 0 0 0 (p.1 + 4) (mxMsk w)
    (p.2 ++ [{ at' := p.1 + 3, kind := .calc, grp := 0, sub := 0, line := 0, prio := 0 }])
  if !f.live then mxIssue s cid p.1 f
  else
    let c := getCore s cid
    let c := { c with trunc := setFlag c.trunc (mxAcc w) false }
    let c := accWriter c (mxAcc w) (s.clk.dst + cyc p.1) (s.clk.dst + cyc (p.1 + 4)) false
    mxIssue (setCore s cid c) cid p.1 f

/-- Start an AST or ASTS (R96, R100, R185): what it stores is formed from the accumulator as it stands. -/
def startAst (s : State) (cid : CoreId) (l : Latch) (w : W64) (scaledOp : Bool) : State :=
  let t := (tdLatch l.core (mxTdc w)).1
  let p := storePlan cid t
  let f := newOp s cid l w [mxTdc w] t.tag 0 (mxScl w) (p.1 + 4) (mxMsk w) p.2
  if !f.live then mxIssue s cid p.1 f
  else
    let c := getCore s cid
    let a := mxAcc w
    let g := if scaledOp then Ext.mul f.scl else id
    let rows := (List.range t.rows).map (fun m => (List.range t.cols).map (fun n => g (val (accGet c a m n))))
    let o := storeTile cid t (mxRnd w) f.tol f.draw (Config.padBits f.pad) rows
    mxIssue s cid p.1 { f with outD := o.1, cnt := { o.2.2 with trunc := if truncFlag c a then 1 else 0 } }

/-- Start an ACLR (R96, R100). -/
def startAclr (s : State) (cid : CoreId) (l : Latch) (w : W64) : State :=
  let f := newOp s cid l w [] 0 0 0 1 (mxMsk w) []
  if !f.live then mxIssue s cid 1 f
  else
    let c := getCore s cid
    let a := mxAcc w
    let c := { c with acc := c.acc.filter (fun e => e.1 / 4096 ≠ a), trunc := setFlag c.trunc a false }
    let c := accWriter c a (s.clk.dst + 4) (s.clk.dst + 4) false
    mxIssue (setCore s cid c) cid 1 f

/-- The matrix slot starts its unit (R57, R58). -/
def mxStart (s : State) (cid : CoreId) (l : Latch) (w : W64) : State :=
  let op := fld w 63 58
  if op = 0 then s
  else if s.clk.dst < (getCore s cid).mxBusy then unitBusy s cid l.off 1
  else if op ≤ 2 then startMma s cid l w op
  else if op = 3 then startAld s cid l w
  else if op = 4 then startAst s cid l w false
  else if op = 5 then startAst s cid l w true
  else startAclr s cid l w

/-! ## What an operation does in its cycles -/

/-- Bytes that the matrix unit reads of a line: of its tiles, and of A's metadata. -/
def mxWants (cid : CoreId) (ts : List Td) (a : Nat) : Bool :=
  ts.any (fun t => (tileAddrs cid t).contains a
    || (t.spe && (List.range t.rows).any (fun r => (List.range (t.cols / 4)).any (fun g => nibbleAddr cid t r g == a))))

/-- A line is read: an operation keeps it, under the chunk or operand of the event. -/
def lineIn (s : State) (cid : CoreId) (ts : List Td) (f : OpFly) (e : Ev) : State × OpFly :=
  let r := readLine s (whoOf s cid.cl.q.val) e.line (mxWants cid ts)
  match r.2 with
  | some b => (r.1, { f with held := f.held.filter (fun h => !(h.1 == e.sub && h.2.1 == e.line)) ++ [(e.sub, e.line, b)] })
  | none => (r.1, f)

/-- Results of `cs` that lie in the line of a write event, and the rest. -/
def lineOut (cs : List Host.Cell) (line : Nat) : List Host.Cell × List Host.Cell :=
  cs.partition (fun c => lineOf c.1 == line)

/-- The blocks of an MMA whose chunks are still to be summed need only these lines. -/
def keepLines (f : OpFly) (j : Nat) : OpFly := { f with held := f.held.filter (fun h => decide (j < h.1)) }

/-- The summary of a finished operation goes to the shadow unit; a masked one counts nothing (R64, R184). -/
def opSummary (s : State) (c : CoreId) (tag rtag : Nat) (f : OpFly) : State :=
  if f.live then
    handSummary s c.cl.key { src := c.k.val, tag := tag, step := f.step, cnt := f.cnt, rtag := rtag, rtrunc := f.trunc }
  else s

/-- An event of a matrix operation (R88, R94, R96). A block is summed when its summing ends, at ce[j] (R99), and
its metadata is read when the last line of its chunk is: the blocks summed before that stay (DEDUCED, log 121). -/
def mxEvent (s : State) (cid : CoreId) (f : OpFly) (e : Ev) : State × OpFly :=
  let op := fld f.w 63 58
  let acc := mxAcc f.w
  let ts := f.tds.map tdOf
  let a := ts.getD 0 (tdOf 0)
  let b := ts.getD 1 (tdOf 0)
  let rd := heldByte f.held none
  match e.kind with
  | .rd => lineIn s cid ts f e
  | .wr =>
    let o := lineOut f.outD e.line
    (store s (whoOf s cid.cl.q.val) o.1, { f with outD := o.2 })
  | .calc =>
    if op = 3 then
      (setCore s cid ((List.range a.pRows).foldl (fun c m =>
        (List.range a.pCols).foldl (fun c n => accPut c acc m n (rne (presented rd cid a m n))) c) (getCore s cid)), f)
    else if e.sub = 0 then
      (if a.spe && badMeta rd cid a e.grp then slotFault s cid f.off 0x0403 1 else s, f)
    else (setCore s cid (mmaBlock rd cid op acc a b e.grp (getCore s cid)), keepLines f e.grp)

end Sys2Proof.Machine
end

