-- ==== Sys2Proof/Machine/StreamOps.lean ====
section
/-! DEFINITION. The stream unit and the reduction unit (R74, R75, R103 to R121). -/

namespace Sys2Proof.Machine

def stTdd (w : W64) : Nat := fld w 57 52
def stTdx (w : W64) : Nat := fld w 51 46
def stTdy (w : W64) : Nat := fld w 45 40
def stMsk (w : W64) : Nat := fld w 39 36
def stRnd (w : W64) : Nat := fld w 35 34
def stScl (w : W64) : Nat := fld w 33 17
def stTdz (w : W64) : Nat := fld w 16 11
def stRed (w : W64) : Nat := fld w 10 8
def stTdr (w : W64) : Nat := fld w 7 2

/-- Which operands an opcode uses (R107). -/
def stUsesX (op : Nat) : Bool := decide (op ≠ 0x18)
def stUsesY (op : Nat) : Bool :=
  (decide (1 ≤ op) && decide (op ≤ 6)) || op == 0x0A || op == 0x0C || op == 0x0D
def stUsesZ (op : Nat) : Bool := op == 4 || op == 0x0C
def stUsesS (op : Nat) : Bool := op == 9 || op == 0x0A || op == 0x0B || op == 0x18
def stUsesRnd (op : Nat) : Bool := decide (op ≠ 0x0F)

/-- ILLEGAL_OP of a stream slot (R60, R61, R74, R84, R107, R108). -/
def stIllegal (w : W64) : Bool :=
  let op := fld w 63 58
  if op = 0 then decide (w ≠ 0)
  else
    decide (0x18 < op) || decide (fld w 1 0 ≠ 0) || decide (stRnd w = 3) || decide (4 < stRed w)
    || (!stUsesX op && decide (stTdx w ≠ 0)) || (!stUsesY op && decide (stTdy w ≠ 0))
    || (!stUsesZ op && decide (stTdz w ≠ 0)) || (!stUsesS op && decide (stScl w ≠ 0))
    || (!stUsesRnd op && decide (stRnd w ≠ 0)) || (stUsesS op && sclBad (stScl w))
    || (decide (stRed w = 0) && decide (stTdr w ≠ 0))

/-- Source descriptors by number, in field order x, y, z. -/
def stSrcs (w : W64) : List Nat :=
  let op := fld w 63 58
  (if stUsesX op then [stTdx w] else []) ++ (if stUsesY op then [stTdy w] else [])
    ++ (if stUsesZ op then [stTdz w] else [])

/-- Formats of stream operands (R103). -/
def stFmtOk (f : Nat) : Bool := decide (f ≤ 8) || f == 11

/-- An operand breaks R103 or R104. -/
def stOperandBad (t : Td) : Bool :=
  !stFmtOk t.fmt || t.spe || t.tr || (isMx t.fmt && decide (t.cols % 32 ≠ 0))

/-- ST_FORMAT (R103, R104, R105). -/
def stFormat (op : Nat) (d : Td) (srcs : List Td) (red : Nat) (r : Td) : Bool :=
  stOperandBad d || srcs.any stOperandBad
  || (decide (red ≠ 0) && (stOperandBad r || decide (r.fmt ≠ 0)))
  || (op == 0x0F && srcs.any (fun x => decide (x.fmt ≠ d.fmt)))

/-- A shape mismatch under R75. -/
def stShape (d : Td) (srcs : List Td) : Bool :=
  srcs.any (fun x => decide (x.cols ≠ d.cols) || (decide (x.rows ≠ d.rows) && decide (x.rows ≠ 1)))

/-- Byte ranges of two tiles meet (R106). -/
def overlap (a b : Td) : Bool :=
  a.loc == b.loc && decide (64 * a.base < b.endByte) && decide (64 * b.base < a.endByte)

/-- ST_ALIAS (R106). DESIGN CHOICE: a source is 'd itself' when its LOC, BASE, STRIDE and FMT are d's; ROWS is not compared,
so that a broadcast source of one row on d's own place passes (log 129). -/
def stAlias (d : Td) (srcs : List Td) (red : Nat) (r : Td) : Bool :=
  srcs.any (fun x => overlap x d
    && !(x.loc == d.loc && x.base == d.base && x.stride == d.stride && x.fmt == d.fmt))
  || (decide (red ≠ 0) && (overlap r d || srcs.any (overlap r)))

/-- ST_RED (R118). -/
def stRedBad (d : Td) (red : Nat) (r : Td) : Bool :=
  if red = 0 then false
  else if red ≤ 3 then !(redPacked d r || redSpread d r)
  else !(decide (r.rows = 1) && decide (r.cols = d.cols) && decide (d.cols ≤ 256))

/-- The one code that a stream slot raises at the latch, if any (R480). -/
def stCheck (c : Core) (w : W64) : Option Nat :=
  let op := fld w 63 58
  if stIllegal w then some 0x0303
  else if op = 0 then none
  else
    let d := tdLatch c (stTdd w)
    let xs := (stSrcs w).map (tdLatch c)
    let r := tdLatch c (stTdr w)
    let red := stRed w
    let srcs := xs.map Prod.fst
    if d.2 ∨ xs.any Prod.snd ∨ (red ≠ 0 ∧ r.2) then some 0x0304
    else if stFormat op d.1 srcs red r.1 then some 0x0501
    else if stShape d.1 srcs then some 0x0304
    else if stAlias d.1 srcs red r.1 then some 0x0502
    else if stRedBad d.1 red r.1 then some 0x0503
    else none

/-- SIGN: -1, 0 or +1; SIGN of a zero is +0 (R74, R111). -/
def signOf (x : Ext) : Ext :=
  if x.isNan then .nan else if x.isZero then Ext.zero else if x.isNeg then .fin true 1 0 else Ext.one

/-- CLIP with |s| (R74, R111). -/
def clipOf (s x : Ext) : Ext := Ext.emin (Ext.emax x (Ext.negate s.mag)) s.mag

/-- A function of the exact input value. -/
def onCanon (f : Bool → Nat → Int → W32) (x : Ext) : W32 := f x.canon.1 x.canon.2.1 x.canon.2.2

/-- The FP32 value of a function with bounds: free within the bound (R110), but for the special values of R111. -/
def fnExp (x : Ext) : W32 :=
  if x.isNan then qnan else if x.isInf && !x.isNeg then 0x7F800000
  else boundedFn 2 (trueExp x) (onCanon Config.expF x)
def fnLog (x : Ext) : W32 :=
  if x.isNan then qnan else if x.isZero then 0xFF800000 else if x.isNeg then qnan
  else if x.isInf then 0x7F800000 else boundedFn 2 (trueLog x) (onCanon Config.logF x)
def fnTanh (x : Ext) : W32 := if x.isNan then qnan else boundedFn 3 (trueTanh x) (onCanon Config.tanhF x)
def fnSigmoid (x : Ext) : W32 := if x.isNan then qnan else boundedFn 3 (trueSigmoid x) (onCanon Config.sigmoidF x)
def fnGelu (x : Ext) : W32 :=
  if x.isNan then qnan
  else if x.isInf then (if x.isNeg then 0x80000000 else 0x7F800000)
  else boundedFn 4 (trueGelu x) (onCanon Config.geluF x)
/-- RECIP and RSQRT, correctly rounded (R110, R111). -/
def fnRecip (x : Ext) : W32 := rne (Ext.recip x)
def fnRsqrt (x : Ext) : W32 := rne (Ext.rsqrt x)

/-- The exact result of one element, before the rounding into d (R74, R109, R111). -/
def streamElem (op : Nat) (s x y z : Ext) : Ext :=
  if op = 0x01 then Ext.add x y
  else if op = 0x02 then Ext.sub x y
  else if op = 0x03 then Ext.mul x y
  else if op = 0x04 then Ext.add (Ext.mul x y) z
  else if op = 0x05 then Ext.emin x y
  else if op = 0x06 then Ext.emax x y
  else if op = 0x07 then x.mag
  else if op = 0x08 then x.negate
  else if op = 0x09 then Ext.mul s x
  else if op = 0x0A then Ext.add (Ext.mul s x) y
  else if op = 0x0B then (if s.isNan ∨ x.isNan then .nan else clipOf s x)
  else if op = 0x0C then (if z.isZero then y else x)
  else if op = 0x0D then (if Ext.gt x y then Ext.one else Ext.zero)
  else if op = 0x0E then x
  else if op = 0x10 then val (fnExp x)
  else if op = 0x11 then val (fnLog x)
  else if op = 0x12 then val (fnRecip x)
  else if op = 0x13 then val (fnRsqrt x)
  else if op = 0x14 then val (fnTanh x)
  else if op = 0x15 then val (fnSigmoid x)
  else if op = 0x16 then val (fnGelu x)
  else if op = 0x17 then signOf x
  else s

/-- The k-th source of a slot, zero where the opcode has none. -/
def nthSrc (vs : List Ext) (used : Bool) (n : Nat) : Ext := if used then vs.getD n Ext.zero else Ext.zero

/-- The exact result of an element from its sources in field order. -/
def streamVal (op : Nat) (sv : Ext) (vs : List Ext) : Ext :=
  let ux := if stUsesX op then 1 else 0
  let uy := if stUsesY op then 1 else 0
  streamElem op sv (nthSrc vs (stUsesX op) 0) (nthSrc vs (stUsesY op) ux) (nthSrc vs (stUsesZ op) (ux + uy))

/-- Element of source number n for a row and column of d, from the lines that the operand holds (R75, R114). -/
def heldElem (f : OpFly) (cid : CoreId) (n : Nat) (x : Td) (r k : Nat) : Ext :=
  tileElem (heldByte f.held (some n)) cid x (srcRowOf x r) k

/-- Counts of a COPY: every element is stored as read, so nothing is rounded, clamped or beyond the format
(R105, R183). -/
def copyCounts (vs : List Ext) : Counts :=
  { Counts.none with elem := vs.length, zero := (vs.filter Ext.isZero).length, nan := (vs.filter Ext.isNan).length }

/-- Bytes of one beat of a COPY, as the source holds them (R105). DESIGN CHOICE: of format 0xB the last byte of
a row is copied whole, the bits past COLS with it; the spec says nothing of them (log 9). -/
def copyCells (f : OpFly) (cid : CoreId) (d x : Td) (r : Nat) (ks : List Nat) : List Host.Cell :=
  (firsts [] (ks.flatMap (elemBytes d.fmt d.stored))).map (fun b =>
    (rowAddr cid d r + b, heldByte f.held (some 0) (rowAddr cid x (srcRowOf x r) + b)))

/-- Bytes, stored values and counts of one beat of results: row r, columns from `k0` (R112, R171 to R173). -/
def beatOut (f : OpFly) (cid : CoreId) (d : Td) (r k0 : Nat) (xs : List Ext) : List Host.Cell × List Ext × Counts :=
  let rnd := stRnd f.w
  let us := (List.range xs.length).map (fun i => if rnd = 1 then drawAt f.draw d.cols r (k0 + i) else 0)
  let a := rowAddr cid d r + k0 * fmtBits d.fmt / 8
  let o := encodeRow d.fmt rnd us (Config.padBits f.pad) a xs
  let n := cdiv (xs.length * fmtBits d.fmt) 8
  -- the scale byte of an MX beat's block stands in the row's tail (R170)
  (cellsAt a (o.bytes.take n)
      ++ cellsAt (rowAddr cid d r + cdiv (d.cols * fmtBits d.fmt) 8 + k0 / 32) (o.bytes.drop n),
    o.vals, o.cnt)

/-- Wide shadow of one beat (R185): its bytes, and how many elements miss. -/
def beatShadow (f : OpFly) (cid : CoreId) (d : Td) (r k0 : Nat) (xs ys : List Ext) : List Host.Cell × Nat :=
  let o := shadowRow cid d f.tol r xs ys
  (o.1.map (fun c => (c.1 + 4 * k0, c.2)), o.2)

/-- What a row sum, row max or row sum of squares folds a beat into (R119): the running value, block truncations. -/
def foldRow (red : Nat) (first : Bool) (a : W32) (vs : List Ext) : W32 × Nat :=
  if red = 2 then (rne (rowMax (if first then vs else val a :: vs)), 0)
  else
    let ps := if red = 3 then vs.map (fun v => Ext.mul v v) else vs
    let r := accBlocks (if first then 0 else a) [ps]
    (r.1, if r.2 then 1 else 0)

/-- Column sums: one FP32 add per row and column, from +0 (R119). -/
def foldCols (first : Bool) (sums : List W32) (k0 : Nat) (vs : List Ext) : List W32 :=
  sums.take k0 ++ ((List.range vs.length).zip vs).map (fun p =>
    rne (Ext.add (val (if first then 0 else sums.getD (k0 + p.1) 0)) p.2)) ++ sums.drop (k0 + vs.length)

/-- Fold the stored values of a beat, and form TDR's bytes when a result is complete (R118 to R120). -/
def beatReduce (f : OpFly) (cid : CoreId) (d t : Td) (j : Nat) (vs : List Ext) : OpFly :=
  let red := stRed f.w
  let nbr := beatsPerRow d
  let r := j / nbr
  let k := j % nbr
  if red = 0 then f
  else if red = 4 then
    let sums := foldCols (decide (r = 0)) f.sums (32 * k) vs
    { f with sums := sums
             outR := if j + 1 = numBeats d then cellsAt (rowAddr cid t 0) (sums.flatMap (fun w => bytesOf 4 w.toNat)) else [] }
  else
    let o := foldRow red (decide (k = 0)) (f.sums.headD 0) vs
    let bytes := bytesOf 4 o.1.toNat
    { f with sums := [o.1], trunc := f.trunc + o.2
             outR := f.outR ++ (if k + 1 ≠ nbr then []
               else if redPacked d t && !redSpread d t then cellsAt (rowAddr cid t 0 + 4 * r) bytes
               else cellsAt (rowAddr cid t r) ((List.replicate d.cols bytes).flatten)) }

/-- A beat (R113): its results are formed from the lines that the operands hold, and wait for their groups. -/
def streamBeat (f : OpFly) (cid : CoreId) (d t : Td) (srcs : List Td) (j : Nat) : OpFly :=
  let op := fld f.w 63 58
  let e := beatElems d j
  let k0 := e.2.headD 0
  let vs := e.2.map (fun k => ((List.range srcs.length).zip srcs).map (fun p => heldElem f cid p.1 p.2 e.1 k))
  let xs := if op = 0x0F then vs.map (fun v => v.headD Ext.zero) else vs.map (streamVal op f.scl)
  let o := if op = 0x0F then (copyCells f cid d (srcs.getD 0 d) e.1 e.2, xs, copyCounts xs)
    else beatOut f cid d e.1 k0 xs
  let sh := beatShadow f cid d e.1 k0 xs o.2.1
  beatReduce { f with outD := f.outD ++ o.1 ++ sh.1, cnt := f.cnt.plus { o.2.2 with shx := sh.2 } } cid d t j o.2.1

/-- Destination, sources in field order, and TDR of a stream operation. -/
def stTds (f : OpFly) : Td × List Td × Td :=
  let ts := f.tds.map tdOf
  (ts.headD (tdOf 0), (ts.drop 1).dropLast, ts.getLastD (tdOf 0))

/-- The lines that a beat's operands needed: an operand holds no other after it (R114). -/
def keepHeld (f : OpFly) (cid : CoreId) (d : Td) (srcs : List Td) (j : Nat) : OpFly :=
  let need := srcs.map (fun x => srcLines cid d x j)
  { f with held := f.held.filter (fun h => (need.getD h.1 []).contains h.2.1) }

/-- An event of a stream operation (R113, R114, R120). -/
def stEvent (s : State) (cid : CoreId) (f : OpFly) (e : Ev) : State × OpFly :=
  let ts := stTds f
  match e.kind with
  | .rd => lineIn s cid ts.2.1 f e
  | .calc =>
    let g := streamBeat f cid ts.1 ts.2.2 ts.2.1 e.grp
    (s, keepHeld g cid ts.1 ts.2.1 e.grp)
  | .wr =>
    let o := lineOut (if e.sub = 0 then f.outD else f.outR) e.line
    (store s (whoOf s cid.cl.q.val) o.1, if e.sub = 0 then { f with outD := o.2 } else { f with outR := o.2 })

/-- The stream slot starts its unit (R57, R58, R64, R109, R115): everything is latched, and the groups follow
in their cycles. -/
def stStart (s : State) (cid : CoreId) (l : Latch) (w : W64) : State :=
  let op := fld w 63 58
  if op = 0 then s
  else if s.clk.dst < (getCore s cid).stBusy then unitBusy s cid l.off 2
  else
    let d := (tdLatch l.core (stTdd w)).1
    let p := streamPlan cid d ((stSrcs w).map (fun n => (tdLatch l.core n).1)) (stRed w) (tdLatch l.core (stTdr w)).1
    let f := newOp s cid l w ([stTdd w] ++ stSrcs w ++ [stTdr w]) d.tag 1 (stScl w) p.1 (stMsk w) p.2
    let c := getCore s cid
    setCore s cid { c with stBusy := s.clk.dst + cyc p.1, stFly := c.stFly ++ [f] }

end Sys2Proof.Machine
end

