-- ==== Sys2Proof/Machine/MoveOps.lean ====
section
/-! DEFINITION. The move engine: the slot's checks, queue, issue and completion (R76, R153 to R162, R481). -/

namespace Sys2Proof.Machine

def mvMd (w : W64) : Nat := fld w 57 51
def mvTd (w : W64) : Nat := fld w 50 45
def mvMsk (w : W64) : Nat := fld w 44 41
def mvCC (w : W64) : Nat := fld w 40 36
def mvCCE (w : W64) : Bool := bit w 35
def mvSstep (w : W64) : Nat := fld w 34 29
/-- OFS as the signed offset of MOV, PUT, GET and RED (R76, R154). -/
def mvOfs (w : W64) : Int := sfld w 28 12

/-- ILLEGAL_OP of a move slot (R60, R65, R84, R481). -/
def mvIllegal (w : W64) : Bool :=
  let op := fld w 63 58
  let md := decide (mvMd w ≠ 0)
  let td := decide (mvTd w ≠ 0)
  let msk := decide (mvMsk w ≠ 0)
  let st := decide (mvSstep w ≠ 0)
  if op = 0 then decide (w ≠ 0)
  else
    decide (7 < op) || decide (fld w 11 0 ≠ 0) || (!mvCCE w && decide (mvCC w ≠ 0))
    || (if op = opMOV then td || st
        else if op = opPUT ∨ op = opGET then td || msk || st
        else if op = opRED then td || msk
        else if op = opSIG then td || msk || st || decide (fld w 28 12 ≠ 0)
        else md || msk || st || bit w 28)

/-- The move descriptor that a slot names. -/
def mdOf (c : Core) (w : W64) : W256 := tget 0 c.md (mvMd w)

/-- The one code that a move slot raises at the latch, if any (R157, R480). -/
def mvCheck (s : State) (cid : CoreId) (j : Nat) (c : Core) (w : W64) : Option Nat :=
  let op := fld w 63 58
  if mvIllegal w then some 0x0303
  else if op = 0 ∨ op = opLDTD ∨ op = opSTTD then none
  else moveCheck s cid j op (mdOf c w) (mvOfs w)

/-- Moves that stand in the queue: waiting, or issued and not yet at start + N (R58, R159). -/
def queued (s : State) (c : Core) : Nat :=
  c.mq.length + (c.mvFly.filter (fun m => match m.start with
    | some t => decide (s.clk.dst < t + cyc m.lines)
    | none => true)).length

/-- The engine issues a line of a queued move in this core cycle (R481). -/
def issuing (s : State) (c : Core) : Bool :=
  c.mvFly.any (fun m => match m.start with
    | some t => decide (t ≤ s.clk.dst) && decide (s.clk.dst < t + cyc m.lines)
    | none => false)

/-- Shelf byte address of LDTD and STTD. -/
def tdByte (w : W64) : Nat := fld w 27 12 * 16

/-- Descriptor writes on one TD that become visible at the same core edge (R68). -/
def tdMeet (dst jt : Nat) (p q : TdPend) : Bool := p.td == q.td && tdEdge dst jt p == tdEdge dst jt q

/-- The loser of a descriptor-write collision is dropped: counted and logged as TD_COLLISION, and the job faults
as in R45 (R68, R84). The entry names the write that was dropped. -/
def tdCollide (s : State) (cl : Clu) (p : TdPend) : State :=
  let s := bump s (at' (pgCLU cl.q.val cl.c.val) 0x104) 1
  coreFault s cl.key 0x0306 p.d0 (BitVec.ofNat 32 p.slot)

/-- A descriptor write is on its way: of two that reach one descriptor in one core cycle the one of better rank
stays (R68). -/
def addTd (s : State) (cid : CoreId) (jt : Nat) (p : TdPend) : State :=
  let c := getCore s cid
  match c.tdPend.find? (tdMeet s.clk.dst jt p) with
  | none => setCore s cid { c with tdPend := c.tdPend ++ [p] }
  | some q =>
    if p.rank < q.rank then tdCollide (setCore s cid { c with tdPend := c.tdPend.erase q ++ [p] }) cid.cl q
    else tdCollide s cid.cl p

/-- LDTD: 16 bytes read in the launch cycle, landing at launch + 9, visible from launch + 10 (R68, R481). -/
def startLdtd (s : State) (cid : CoreId) (l : Latch) (w : W64) : State :=
  let a := shelfAddr cid (tdByte w)
  let rc := readCheck s (whoOf s cid.cl.q.val) ((List.range 16).map (a + ·))
  if !rc.2 then rc.1
  else
    let s := rc.1
    let c := getCore s cid
    let o : TdOp := { due := s.clk.dst + cyc 9, cc := if mvCCE w then some (mvCC w) else none, load := some (mvTd w)
                      plan := [⟨s.clk.dst, .rd, 0, 0, lineOf a, 2⟩], out := [] }
    addTd (setCore s cid { c with tdFly := c.tdFly ++ [o] }) cid l.jt
      { byJob := false, vis := s.clk.dst + cyc 10, td := mvTd w, val := BitVec.ofNat 128 (rdNum s a 16),
        ovr := false, rank := 1, d0 := d0Core cid.k.val l.off, slot := 3 }

/-- STTD: the descriptor as latched goes to 16 shelf bytes in the launch cycle, in place at launch + 1 (R481). -/
def startSttd (s : State) (cid : CoreId) (l : Latch) (w : W64) : State :=
  let a := shelfAddr cid (tdByte w)
  let c := getCore s cid
  setCore s cid { c with tdFly := c.tdFly ++ [
    { due := s.clk.dst + cyc 1, cc := if mvCCE w then some (mvCC w) else none, load := none
      plan := [⟨s.clk.dst, .wr, 0, 0, lineOf a, 2⟩]
      out := cellsAt a (bytesOf 16 (tget 0 l.core.td (mvTd w)).toNat) }] }

/-- Queue a move (R58): masked MOVs keep their place and duration. -/
def queueMove (s : State) (cid : CoreId) (j : Nat) (l : Latch) (w : W64) : State :=
  let op := fld w 63 58
  let c := getCore s cid
  if 8 ≤ queued s c then unitBusy s cid l.off 3
  else
    let k := getClu s cid.cl.key
    let md := mdOf l.core w
    let lp := if op = opMOV then
        (match mdEnds s cid op md (mvOfs w) with
         | some (a, some b) => movLatency s cid j a b
         | _ => 0) else 0
    let m : Move :=
      { op := op, md := md, mdIdx := mvMd w, ofs := mvOfs w,
        cc := if mvCCE w then some (mvCC w) else none,
        step := if op = opRED then sReg k l.jt (mvSstep w) else 0
        launch := s.clk.dst, lines := moveLines s cid op md (mvOfs w), lp := lp, start := none,
        plan := [], held := [], masked := op == opMOV && maskedBy k l.jt cid.k.val (mvMsk w) }
    setCore s cid { c with mq := c.mq ++ [m] }

/-- The move slot acts (R57, R58, R481). -/
def mvStart (s : State) (cid : CoreId) (j : Nat) (l : Latch) (w : W64) : State :=
  let op := fld w 63 58
  if op = 0 then s
  else if op = opLDTD then startLdtd s cid l w
  else if op = opSTTD then startSttd s cid l w
  else queueMove s cid j l w

/-! ## Issue -/

/-- The other end of a move that is not the issuing core's (R20): its quadrant. -/
def otherQuad (c : CoreId) (a : End) (b : Option End) : Nat :=
  match b with
  | none => a.g.q
  | some b => if a.own ∧ b.own then c.cl.q.val else if a.own ∧ b.here then b.g.q else if b.own ∨ a.here then a.g.q
    else c.cl.q.val

/-- A move across a closed neighbour link is dropped, counted and logged by the quadrant, and the job faults
(R20). DESIGN CHOICE: the spec gives this entry no code and no data words; it carries the core in the first and
the slot with the MD index in the second, as R84 and R164 lay out a move slot's (log 85). -/
def closedLink (s : State) (cid : CoreId) (j : Nat) (m : Move) : State :=
  let c := getCore s cid
  let s := setCore s cid { c with mq := c.mq.drop 1 }
  let s := post s (pgQD cid.cl.q.val) sevFault Config.closedLinkCode (accOf s j)
    (d0Core cid.k.val 0) (BitVec.ofNat 32 (3 + 4 * m.mdIdx))
  jobFault s j

/-- The path of a move between two quadrants uses a neighbour link that is closed (R20). -/
def pathClosed (s : State) (j q r : Nat) : Bool :=
  decide (q ≠ r) && (match pathOf s j q r with
    | .hub => false
    | .link => !nbrOpen s q r
    | .via m => !nbrOpen s q m.val || !nbrOpen s m.val r)

/-- Take the head of the queue into flight from Datestamp `t` with its events (R159). -/
def issueHead (s : State) (cid : CoreId) (t : Nat) (m : Move) (evs : List Ev) : State :=
  let c := getCore s cid
  setCore s cid { c with mq := c.mq.drop 1, mvFree := t + cyc m.lines,
                         mvFly := c.mvFly ++ [{ m with start := some t, plan := placeEvs t evs }] }

/-- Priority of a move engine's line: on a shelf 1 for a write and 2 for a read, 1 on a folio; on a pool 1 for a
write and 5 for a read (R45, R116). -/
def mvPrio (l : Nat) (wr : Bool) : Nat :=
  if wr then 1 else if spaceOf (64 * l) = 3 then 2 else if spaceOf (64 * l) = 2 then 5 else 1

/-- Issue cycles of a move with the row and, where there is one, the source and the destination line (R159). -/
def issueSlots (a : End) (b : Option End) : List (Nat × Option Nat × Option Nat) :=
  (List.range a.n).flatMap (fun r =>
    let sl := firsts [] ((a.rowAddrs r).map lineOf)
    let dl := match b with | some b => firsts [] ((b.rowAddrs r).map lineOf) | none => []
    (List.range (max sl.length dl.length)).map (fun i => (r, sl[i]?, dl[i]?)))

/-- Events of a move (R159, R160): a line is read in its issue cycle and written Lp cycles later, so that the last
one is in place at start + N + Lp; with TRS no byte of a row is known before all are read, and every line is
written at the end. DESIGN CHOICE: the spec fixes the issue and the completion, not the cycle of each access at
the far end (log 122). A PUT or RED is handed to the hub when its last line is read. -/
def movePlan (m : Move) (a : End) (b : Option End) : List Ev :=
  let ev := fun (k : EvKind) (t r l : Nat) => ({ at' := t, kind := k, grp := r, sub := 0, line := l,
                                                 prio := mvPrio l (k == .wr) } : Ev)
  let trs := mdTrs m.md
  let sl := issueSlots a (if trs then none else b)
  let at1 := fun (t : Nat) (x : Option (Nat × Option Nat × Option Nat)) =>
    match x with | some (r, some l, _) => [ev .rd t r l] | _ => []
  let at2 := fun (t : Nat) (x : Option (Nat × Option Nat × Option Nat)) =>
    match x with | some (r, _, some l) => [ev .wr t r l] | _ => []
  let n := sl.length
  match b with
  | none => ((List.range n).zip sl).flatMap (fun p => at1 p.1 (some p.2)) ++ [ev .calc (n - 1) 0 0]
  | some b =>
    if m.op ≠ opMOV then ((List.range n).zip sl).flatMap (fun p => at1 p.1 (some p.2)) ++ [ev .calc (n - 1) 0 0]
    else if trs then
      ((List.range n).zip sl).flatMap (fun p => at1 p.1 (some p.2))
        ++ (List.range b.n).flatMap (fun r => (firsts [] ((b.rowAddrs r).map lineOf)).map (ev .wr (n - 1 + m.lp) r))
    else
      let pad := List.replicate m.lp none
      let rds := sl.map some ++ pad
      let wrs := pad ++ sl.map some
      ((List.range (n + m.lp)).zip (rds.zip wrs)).flatMap (fun p => at1 p.1 p.2.1 ++ at2 p.1 p.2.2)

/-- Start a SIG (R281): one packet. -/
def startSig (s : State) (cid : CoreId) (j t : Nat) (m : Move) : State :=
  match gaParse (mdDst m.md) with
  | none => s
  | some g =>
    let s := issueHead s cid t m []
    let w := g.q * 2 ^ 62 + g.cl * 2 ^ 58 + mdRcc m.md * 2 ^ 53 + mdRows m.md * 2 ^ 37
    sendMessages s j (mdLg m.md) mtSIGNAL g.node (fun _ => BitVec.ofNat 128 w) [(0, [])]

/-- Lowest free GET tag of a quadrant (R283). -/
def freeTag (s : State) (q : Nat) : Option Nat :=
  (List.range 64).find? (fun t => !((tget [] s.fab.gets q).any (fun x => x.tag == t)))

/-- Start a GET: one GET packet under a tag, or GET_FULL (R283). -/
def startGet (s : State) (cid : CoreId) (j t : Nat) (m : Move) (a : End) : State :=
  let q := cid.cl.q.val
  match freeTag s q with
  | none =>
    let s := issueHead s cid t m []
    let s := post s pgRTR sevFault 0x0C0C (accOf s j) (d0Lnk (accOf s j).toNat (mdLg m.md)) 0
    jobFault s j
  | some tag =>
    let s := issueHead s cid t m []
    let gt : GetTag := { tag := tag, core := cid, mv := { m with start := some t }, got := [] }
    let s := { s with fab := { s.fab with gets := tput [] s.fab.gets q (tget [] s.fab.gets q ++ [gt]) } }
    let w := gaWord a.g a.x.toNat * 2 ^ 64 + mdRowlen m.md * 2 ^ 48 + mdRows m.md * 2 ^ 32
      + fld m.md 95 72 * 2 ^ 8 + q * 2 ^ 6 + tag
    sendMessages s j (mdLg m.md) mtGET a.g.node (fun _ => BitVec.ofNat 128 w) [(0, [])]

/-- Start the head of the queue at Datestamp `t` (R159). -/
def startMove (s : State) (cid : CoreId) (j t : Nat) (m : Move) : State :=
  if m.op = opSIG then startSig s cid j t m
  else match mdEnds s cid m.op m.md m.ofs with
    | none => s
    | some (a, b) =>
      if m.op = opGET then startGet s cid j t m a
      else if m.masked then issueHead s cid t m []
      else if pathClosed s j cid.cl.q.val (otherQuad cid a b) then closedLink s cid j m
      else issueHead s cid t m (movePlan m a b)

/-- When a move completes (R160, R161); a GET when its last byte lands. -/
def moveDue (m : Move) : Option Nat :=
  match m.start with
  | none => none
  | some t => if m.op = opGET then none
              else if m.op = opMOV then some (t + cyc (m.lines + m.lp)) else some (t + cyc m.lines)

/-- A queued move is complete: counted in CLU_MOVE_CNT, and its counter credited (R161, R166). -/
def moveDone (s : State) (cid : CoreId) (cc : Option Nat) : State :=
  let s := bump s (at' (pgCLU cid.cl.q.val cid.cl.c.val) 0x188) 1
  match cc with
  | some n => credit s cid.cl.key n 1
  | none => s

/-! ## What a move does in its cycles -/

/-- What a line that a move has read reads as. -/
def movedByte (h : List (Nat × List Byte)) (a : Nat) : Byte :=
  match h.find? (fun e => e.1 == a / 64) with
  | some e => e.2.getD (a % 64) 0
  | none => 0

/-- Packed source rows as they reach the destination, with TRS applied (R155). -/
def movedRows (m : Move) (a : End) : List (List Byte) :=
  let rows := (List.range a.n).map (fun r => (a.rowAddrs r).map (movedByte m.held))
  if mdTrs m.md then transposeRows (2 ^ mdEsz m.md) rows (mdRowlen m.md / 2 ^ mdEsz m.md) else rows

/-- A controller accepts the request of one line in a memory-port slot (R150), outside the cycles of its update engine
(R228), within its window (R151). DESIGN
CHOICE: what a request outside the slots does is not said; it is taken as a collision at the controller's port
(log 7). -/
def portAccept (s : State) (j : Nat) (w : Who) (line : Nat) : State × Bool :=
  let a := 64 * line
  if spaceOf a ≠ 0 then (s, true)
  else if !slotNow s j .memPort (3 * quadOf a + stackOf a) then
    (collide s (pgMC (quadOf a) (stackOf a)) 0 (quadOf a) (3 + stackOf a) (3 + stackOf a), false)
  else
    let p := portMeet s (3 * quadOf a + stackOf a)
    if p.2 then hbmAccept p.1 w (quadOf a) (stackOf a) s.clk.dst 1 a else p

/-- The hub takes what a PUT or RED has read: messages of R281, or the context's packed bytes. -/
def moveSend (s : State) (cid : CoreId) (j : Nat) (m : Move) (a : End) (b : Option End) : State :=
  match b with
  | none => takeRed s cid (mdCtx m.md) (mdBkt m.md) m.step (movedRows m a).flatten
  | some b =>
    let rows := ((List.range b.n).map b.row).zip (movedRows m a)
    let tail := b.g.q * 2 ^ 62 + (if 2 ≤ b.g.space then b.g.cl * 2 ^ 58 else 0)
      + mdRcc m.md * 2 ^ 53 + (if mdCcr m.md then 2 ^ 52 else 0)
    sendMessages s j (mdLg m.md) mtPUT b.g.node
      (fun x => BitVec.ofNat 128 (gaWord b.g x * 2 ^ 64 + tail)) (cutRows rows)

/-- Bytes that a destination line of row r takes. -/
def lineCells (m : Move) (a b : End) (r line : Nat) : List Host.Cell :=
  if mdTrs m.md then
    (((b.rowAddrs r).zip ((movedRows m a).getD r [])).filter (fun e => lineOf e.1 == line))
  else (((a.rowAddrs r).zip (b.rowAddrs r)).filter (fun e => lineOf e.2 == line)).map
    (fun e => (e.2, movedByte m.held e.1))

/-- An event of a move: a line read or written where its memory accepts it (R148, R150, R151), or the hub's part. -/
def mvEvent (s : State) (cid : CoreId) (m : Move) (e : Ev) : State × Move :=
  match jobOn s cid.cl.q.val, mdEnds s cid m.op m.md m.ofs with
  | some j, some (a, b) =>
    let w := whoOf s cid.cl.q.val
    match e.kind with
    | .calc => (moveSend s cid j m a b, m)
    | .rd =>
      let p := portAccept s j w e.line
      if !p.2 then (p.1, m)
      else
        let r := readLine p.1 w e.line (fun x => (a.rowAddrs e.grp).contains x)
        (r.1, match r.2 with | some x => { m with held := (e.line, x) :: m.held } | none => m)
    | .wr =>
      let p := portAccept s j w e.line
      match b with
      | some b => if p.2 then (store p.1 w (lineCells m a b e.grp e.line), m) else (p.1, m)
      | none => (p.1, m)
  | _, _ => (s, m)

/-- An event of an LDTD or STTD: the load was taken at the latch; the store's bytes go out. -/
def tdEvent (s : State) (cid : CoreId) (o : TdOp) (e : Ev) : State × TdOp :=
  if e.kind = .wr then (store s (whoOf s cid.cl.q.val) o.out, { o with out := [] }) else (s, o)

end Sys2Proof.Machine
end

