-- ==== Sys2Proof/Machine/Launch.lean ====
section
/-! DEFINITION. Launching a bundle: sequencer, latch, control slot, units, holds (R37 to R49, R56 to R59, R71). -/

namespace Sys2Proof.Machine

/-- The job for which the units of a quadrant act at this edge: the running one, or one that faulted in this core
cycle and whose units stop at the next core edge (R46). -/
def runQuad (s : State) (q : Nat) : Option Nat :=
  match runningOn s q with
  | some j => some j
  | none => stoppingOn s q

/-- The job in which a core runs. -/
def runSlot (s : State) (c : CoreId) : Option Nat := runQuad s c.cl.q.val

/-- Segments of a slot's image. -/
def segsOf (s : State) (j : Nat) : List Seg :=
  match (getJob s j).img with
  | some i => i.segs
  | none => []

/-- The whole stream of a core, segment after segment (R34, R70). -/
def coreStream (s : State) (j : Nat) (c : CoreId) : List W256 :=
  (segsOf s j).flatMap (fun g => tget [] g.streams c.key)

/-- Job time of the origin of a unit's current segment: `seg` counts the segments it has taken. -/
def originOf (s : State) (j seg : Nat) : Nat :=
  (getJob s j).s + (match (segsOf s j)[seg - 1]? with | some g => g.origin | none => 0)

/-- Next bundle of a core with its launch offset: a loop's body in iteration i is shifted by i
periods (R71). -/
def nextBn (c : Core) : Option (W256 × Nat) :=
  match c.loop with
  | some l =>
    match (if l.iter = 0 then c.bq.head? else l.body[l.idx]?) with
    | some b => some (b, bnOffset b + l.iter * l.per)
    | none => none
  | none => match c.bq.head? with
    | some b => some (b, bnOffset b)
    | none => none

/-- Consume the next bundle; the loop goes on to its next body bundle or iteration (R71). -/
def popBn (c : Core) : Core :=
  match c.loop with
  | some l =>
    let bq := if l.iter = 0 then c.bq.drop 1 else c.bq
    let l' := if l.idx + 1 < l.body.length then some { l with idx := l.idx + 1 }
      else if l.iter + 1 < l.n then some { l with idx := 0, iter := l.iter + 1 } else none
    { c with bq := bq, loop := l' }
  | none => { c with bq := c.bq.drop 1 }

/-- Bundles of a loop body that the queue still holds though they have launched (R71). -/
def heldBody (c : Core) : Nat :=
  match c.loop with
  | none => 0
  | some l =>
    if l.n ≤ 1 then 0
    else if l.iter = 0 then l.idx
    else if l.iter + 1 < l.n then l.body.length else l.body.length - l.idx

/-- A bundle that is due and not in the queue (R56): the next one of the stream. -/
def missing (s : State) (j : Nat) (cid : CoreId) (c : Core) : Option (W256 × Nat) :=
  match (coreStream s j cid)[c.sp]? with
  | none => none
  | some b =>
    let off := bnOffset b
    some (b, off)

/-- What the sequencer finds at the current edge. -/
inductive Look where
  | nothing
  | underrun (off : Nat)
  | order (off : Nat)
  | due (b : W256) (off : Nat)
deriving DecidableEq, Repr

/-- The next bundle of a READY core whose bundle a row names by `p`: due now, late or out of order
(R38), or due and not fetched (R56). -/
def look (s : State) (j : Nat) (cid : CoreId) (p : W256 → Bool) : Look :=
  let c := getCore s cid
  let job := getJob s j
  let jt := jobTime s job
  let org := originOf s j c.seg
  if c.st ≠ .ready ∨ job.held then .nothing
  else match nextBn c with
    | none =>
      match missing s j cid c with
      | some (b, off) => if p b && decide (org + 4 * off ≤ jt) then .underrun (bnOffset b) else .nothing
      | none => .nothing
    | some (b, off) =>
      if !p b ∨ jt < org + 4 * off then .nothing
      else if decide (org + 4 * off < jt) || (match c.last with | some l => decide (off ≤ l) | none => false)
        then .order (bnOffset b)
      else .due b off

/-! ## The control slot (R60, R70 to R72, R77) -/

/-- ILLEGAL_OP of the timing word and control slot (R37, R60, R70). -/
def ctlIllegal (b : W256) : Bool :=
  let w := bnCtl b
  let op := ctlOp b
  (bnWait b && bnHP b) || (!bnWait b && decide (bnCtr b ≠ 0))
  || (if op ≤ 1 then decide (fld w 25 0 ≠ 0)
      else if op = 2 then decide (fld w 3 0 ≠ 0)
      else if op = 3 then decide (fld w 19 18 = 3) || decide (fld w 3 0 ≠ 0)
      else if op = 4 then decide (fld w 4 0 ≠ 0)
      else if op = 5 then decide (fld w 9 0 ≠ 0)
      else true)

/-- LAUNCH_ORDER of a LOOP (R71): `body` are the bundles that follow, `next` the one after them. -/
def loopBad (k n : Nat) (per : Int) (body : List W256) (next : Option W256) : Bool :=
  decide (k = 0) || decide (n = 0) || decide (body.length < k)
  || body.any (fun b => ctlOp b == 1 || ctlOp b == 2)
  || (match body.head?, body.getLast? with
      | some f, some l =>
        decide (per ≤ (bnOffset l : Int) - bnOffset f)
        || (match next with
            | some x => decide ((bnOffset x : Int) ≤ bnOffset l + ((n : Int) - 1) * per)
            | none => true)
      | _, _ => true)

/-- LOOP starts: its body are the next K bundles of the stream (R71). -/
def actLoop (s : State) (cid : CoreId) (j : Nat) (l : Latch) (w : W32) : State :=
  let c := getCore s cid
  let k := fld w 25 21
  let n := fld w 20 10
  let per := (sReg (getClu s cid.cl.key) l.jt (fld w 9 4)).toInt
  let rest := (coreStream s j cid).drop (c.sp - c.bq.length)
  let body := rest.take k
  if loopBad k n per body (rest[k]?) then slotFault s cid l.off 0x0301 0
  else setCore s cid { c with loop := some { body := body, n := n, per := per.toNat, iter := 0, idx := 0 } }

/-- Replace a 14-bit field of a descriptor word at bit `lo`. -/
def tdField (w : W128) (lo v : Nat) : W128 := hdrPut w (lo + 13) lo v

/-- TDADD (R68, R70, R72): takes effect after the latch of its bundle, so that the next launch sees it. -/
def actTdadd (s : State) (cid : CoreId) (l : Latch) (w : W32) : State :=
  let t := fld w 25 20
  let lo := if fld w 19 18 = 0 then 50 else if fld w 19 18 = 1 then 68 else 82
  let old := tget 0 (getCore s cid).td t
  let v : Int := (fld old (lo + 13) lo : Int) + sfld w 17 4
  addTd s cid l.jt
    { byJob := false, vis := s.clk.dst + 4, td := t, val := tdField old lo (v % 16384).toNat,
      ovr := decide (v < 0) || decide (16383 < v), rank := 2, d0 := d0Core cid.k.val l.off, slot := 0 }

/-- The trace record of a MARK: CODE, core number, logical cluster, Datestamp (R70; layout log 40). -/
def markRec (s : State) (cid : CoreId) (code : Nat) : List Byte :=
  bytesOf 2 code ++ bytesOf 1 cid.k.val ++ bytesOf 1 cid.cl.key ++ bytesOf 8 s.clk.dst

/-- END (R59, R70): the sequencer is IDLE, or DONE after the last segment. -/
def actEnd (s : State) (cid : CoreId) (j : Nat) : State :=
  let c := getCore s cid
  setCore s cid { c with st := if (segsOf s j).length ≤ c.seg then .done else .idle, loop := none }

/-- The control slot takes effect (R57, R70). -/
def ctlAct (s : State) (cid : CoreId) (j : Nat) (l : Latch) (b : W256) : State :=
  let w := bnCtl b
  let op := ctlOp b
  if op = 1 then actEnd s cid j
  else if op = 2 then actLoop s cid j l w
  else if op = 3 then actTdadd s cid l w
  else if op = 4 then credit s cid.cl.key (fld w 25 21) (fld w 20 5)
  else if op = 5 then pushRec s 7 (markRec s cid (fld w 25 10))
  else s

/-! ## The launch (R49, R57, R58) -/

/-- Entry n of the power profile is a phase mark (R49). -/
def phaseMark (p : List W32) (n : Nat) : Bool :=
  decide (1 ≤ n) && decide (n < p.length) && decide (p[n]? ≠ p[n - 1]?)

/-- A PFT bundle at job time `jt` with no phase mark near (R49): one warning per entry and job. -/
def skewCheck (s : State) (j jt : Nat) : State :=
  let job := getJob s j
  let m := (jt - job.s) / 6000
  let p := match job.img with | some i => i.power | none => []
  if phaseMark p (m - 1) || phaseMark p m || phaseMark p (m + 1) || job.skew.contains m then s
  else
    let s := post s pgSCH sevWarning 0x0208 job.acc (d0Sch job.acc j 0) 0
    setJob s j { job with skew := m :: job.skew }

/-- The failing slots of a bundle with their codes, in the order of R480. -/
def latchFaults (s : State) (cid : CoreId) (j : Nat) (c : Core) (b : W256) : List (Nat × Nat) :=
  let f := fun (slot : Nat) (o : Option Nat) => match o with | some code => [(slot, code)] | none => []
  f 0 (if ctlIllegal b then some 0x0303 else none) ++ f 1 (mxCheck s c (bnMx b))
    ++ f 2 (stCheck c (bnSt b)) ++ f 3 (mvCheck s cid j c (bnMv b))

/-- Second data word of R84 and R164: the slot, and for a move slot the MD index. -/
def d1Slot (slot code : Nat) (b : W256) : W32 :=
  BitVec.ofNat 32 (slot + (if 0x0700 ≤ code then 4 * mvMd (bnMv b) else 0))

/-- Slots whose unit is busy, or whose queue is full (R58). -/
def busySlots (s : State) (c : Core) (b : W256) : List Nat :=
  (if mxOp b ≠ 0 ∧ s.clk.dst < c.mxBusy then [1] else [])
  ++ (if stOp b ≠ 0 ∧ s.clk.dst < c.stBusy then [2] else [])
  ++ (if 1 ≤ mvOp b ∧ mvOp b ≤ 5 ∧ 8 ≤ queued s c then [3] else [])

/-- A bundle at job time `jt` (R57, R58): everything is latched and checked first; then the
control slot acts and the units start; a busy unit drops its slot alone. -/
def latchBundle (s : State) (cid : CoreId) (j jt : Nat) (b : W256) (off : Nat) : State :=
  let c := settleTd s.clk.dst jt (getCore s cid)
  let l : Latch := { off := bnOffset b, jt := jt, core := c }
  let fs := latchFaults s cid j c b
  let c' := { popBn c with last := some off, st := .ready, missed := false,
                           hpAt := if bnHP b then some jt else c.hpAt }
  let s := setCore s cid c'
  let s := if bnPft b then skewCheck s j jt else s
  if !fs.isEmpty then
    coreFaults s cid.cl.key (fs.map (fun f => (f.2, d0Core cid.k.val l.off, d1Slot f.1 f.2 b)))
  else
    let busy := busySlots s c b
    let s := ctlAct s cid j l b
    let s := if busy.contains 1 then s else mxStart s cid l (bnMx b)
    let s := if busy.contains 2 then s else stStart s cid l (bnSt b)
    let s := if busy.contains 3 then s else mvStart s cid j l (bnMv b)
    if busy.isEmpty then s
    else
      let s := bump s (at' (pgCLU cid.cl.q.val cid.cl.c.val) 0x104) busy.length
      coreFaults s cid.cl.key
        (busy.map (fun n => (0x0305, d0Core cid.k.val l.off, BitVec.ofNat 32 n)))

/-- Number of the next bundle in its core's streams: in a later iteration of a loop the queue still holds the body
(R71). -/
def bnNumber (c : Core) : Nat :=
  let n := c.sp - c.bq.length
  match c.loop with
  | some l => if l.iter = 0 then n else n - l.body.length + l.idx
  | none => n

/-- Launch a bundle: its four words are read from the bundle queue, whose check code may find an error (R148); with an
uncorrectable one no bundle is delivered and nothing launches. -/
def launchBundle (s : State) (cid : CoreId) (j jt : Nat) (b : W256) (off : Nat) : State :=
  let a := bqAddr cid (bnNumber (getCore s cid))
  let r := readCheck s (whoOf s cid.cl.q.val) [a, a + 8, a + 16, a + 24]
  if r.2 then latchBundle r.1 cid j jt b off else r.1

/-- Do at a core edge what `f` finds due on a core. -/
def onEdge (s : State) (cid : CoreId) (f : State → Nat → Option State) : State :=
  match runSlot s cid with
  | some j => (f s j).getD s
  | none => s

/-- A sequencer that finds its next bundle out of order or not fetched faults the job and stands in FAULT (R46, R56,
R59): it raises the code once. -/
def seqFault (s : State) (cid : CoreId) (off code : Nat) : State :=
  let s := slotFault s cid off code 0
  setCore s cid { getCore s cid with st := .fault }

/-- What a launch row finds due: the bundle that `p` names at its time (R38, R59), or that it is out of
order (R38) or was not fetched (R56). A WAIT bundle launches by its own rows, an HP bundle not while a
hold is pending (R42). -/
def launchDue (cid : CoreId) (p : W256 → Bool) (s : State) (j : Nat) : Option State :=
  match look s j cid p with
  | .nothing => none
  | .underrun off => some (seqFault s cid off 0x0302)
  | .order off => some (seqFault s cid off 0x0301)
  | .due b off =>
    if bnWait b && !bnHP b then none
    else if bnHP b && !bnWait b && (getJob s j).pend then none
    else some (launchBundle s cid j (jobTime s (getJob s j)) b off)

/-- The launch row of a bundle that `p` names. -/
def launch (s : State) (cid : CoreId) (p : W256 → Bool) : State := onEdge s cid (launchDue cid p)

/-! ## Waits and holds (R39, R42 to R44) -/

/-- The counter missed its target at the deadline `d`, a job time (R39, R78). -/
def missedAt (s : State) (job : Job) (clu n d : Nat) : Bool :=
  let k := getCtr s clu n
  if 0 < k.deficit then true else decide ((d + job.h) / 4 ≤ k.met / 4)

/-- The bundle before which a core may meet a hold epoch: its next one, or the one after a late WAIT
bundle that still waits, queued or not (R42). -/
def epochBn (s : State) (j : Nat) (cid : CoreId) (c : Core) : Option (W256 × Nat) :=
  if c.st = .ready then nextBn c
  else if c.st = .waiting ∧ c.missed then
    let late := match nextBn c with | some (b, _) => ctlOp b == 1 | none => true
    if late then none
    else match nextBn (popBn c) with
      | some x => some x
      | none => missing s j cid c
  else none

/-- Hold epoch now: some core of the job has an HP bundle due at this job time (R41, R42). -/
def epochNow (s : State) (j : Nat) : Bool :=
  let jt := jobTime s (getJob s j)
  s.cores.any (fun e =>
    (jobQuads s j).contains (e.1 / 1536)
    && (match epochBn s j (coreOfKey e.1) e.2 with
        | some (b, off) => bnHP b && !bnWait b && decide (originOf s j e.2.seg + 4 * off = jt)
        | none => false))

/-- Datestamp at which the last late counter reached its target; none while one is short (R42). -/
def allMet (s : State) (job : Job) : Option Nat :=
  if job.late.all (fun l => decide ((getCtr s l.core.cl.key l.cc).deficit ≤ 0)) then
    some (maxNat (job.late.map (fun l => (getCtr s l.core.cl.key l.cc).met)))
  else none

/-- Release Datestamp R for a hold at epoch `e` (R42). -/
def releaseAt (s : State) (job : Job) (e : Nat) : Option Nat :=
  (allMet s job).map (fun t => 4 * cdiv (max (t + 1024) (e + job.h)) 4)

/-- At a release, one core's late bundle launches, then its HP bundle at E (R42). -/
def releaseCore (j e : Nat) (s : State) (k : Nat) : State :=
  let cid := coreOfKey k
  let go := fun (s : State) (late : Bool) =>
    let c := getCore s cid
    match nextBn c with
      | none => s
      | some (b, off) =>
        if late then (if c.st = .waiting ∧ c.missed then launchBundle s cid j e b off else s)
        else if (c.st = .ready ∨ c.st = .held) ∧ bnHP b ∧ ¬ bnWait b ∧ originOf s j c.seg + 4 * off = e
        then launchBundle s cid j e b off
        else if c.st = .held then setCore s cid { c with st := .ready } else s
  go (go s true) false

end Sys2Proof.Machine
end

