-- ==== Sys2Proof/Machine/Scalar.lean ====
section
/-! DEFINITION. Meanings: the control core (R62, R64, R77, R80 to R83). -/

namespace Sys2Proof.Machine

/-- Newest value of an S (0 to 63) or M (64 to 71) register (R80). -/
def curReg (k : Cluster) (r : Nat) : BitVec 96 :=
  match k.sw.find? (fun w => w.reg == r) with
  | some w => w.val
  | none => 0
def curS (k : Cluster) (r : Nat) : W32 := if r = 0 then 0 else BitVec.ofNat 32 (curReg k r).toNat
def curM (k : Cluster) (m : Nat) : BitVec 96 := curReg k (64 + m)

/-- Older writes of a register that a launch at job time `t` or later can still see (R62). -/
def keepSeen (t r : Nat) : Bool → List SWrite → List SWrite
  | _, [] => []
  | done, w :: l =>
    if w.reg ≠ r then w :: keepSeen t r done l
    else if done then keepSeen t r done l
    else w :: keepSeen t r (decide (w.at' + 24 ≤ t)) l

/-- A write of a register retires at job time `t` (R62); writes to S0 are discarded (R83). -/
def regWrite (k : Cluster) (t r : Nat) (v : BitVec 96) : Cluster :=
  if r = 0 then k else { k with sw := { at' := t, reg := r, val := v } :: keepSeen t r false k.sw }

/-- Origin of the latest segment whose origin job time has reached; segment 0 before it (R80). -/
def curOrigin (s : State) (j t : Nat) : Nat :=
  let js := (getJob s j).s
  (segsOf s j).foldl (fun o g => if js + g.origin ≤ t then js + g.origin else o) (originOf s j 0)

/-- CC_ILLEGAL (R82, R84). -/
def ccIllegal (s : State) (clu pc : Nat) : State :=
  coreFault s clu 0x0308 (d0Core 0xFF pc) 0

/-- What one instruction does: its new state, the next pc, and whether a branch was taken; or illegal. -/
abbrev CtlRes := Option (State × Int × Bool)

/-- Issue one instruction of the cluster's control core at a control edge (R80): `p` names the
opcodes of the row, `f` the effect. -/
def ctlStep (s : State) (cl : Clu) (p : Nat → Bool) (f : Nat → W32 → Nat → CtlRes) : State :=
  match runQuad s cl.q.val with
  | none => s
  | some j =>
    let k := getClu s cl.key
    let job := getJob s j
    let jt := jobTime s job
    let stalled : Bool := match k.stall with | some t => decide ((jt : Int) < t) | none => false
    let w := tget 0 k.imem k.pc
    if ¬ k.on ∨ job.held ∨ s.clk.dst % 6 ≠ 0 ∨ s.clk.dst < k.nextJ ∨ stalled = true ∨ p (fld w 31 26) = false then s
    else match f j w jt with
      | none => ccIllegal s cl.key k.pc
      | some (s', npc, taken) =>
        if npc < 0 ∨ 4095 < npc then ccIllegal s' cl.key k.pc
        else
          let k' := getClu s' cl.key
          setClu s' cl.key { k' with pc := npc.toNat, nextJ := s.clk.dst + (if taken then 12 else 6),
                                     stall := if decide (fld w 31 26 = 0x0E) then k'.stall else none }

/-- Fields of R81. -/
def ciD (w : W32) : Nat := fld w 25 20
def ciA (w : W32) : Nat := fld w 19 14
def ciB (w : W32) : Nat := fld w 13 8
def ciImm (w : W32) : Int := sfld w 13 0
def immW (w : W32) : W32 := BitVec.ofInt 32 (ciImm w)

/-- Go on to the next instruction. -/
def ctlNext (s : State) (cl : Clu) : CtlRes := some (s, (getClu s cl.key).pc + 1, false)

/-- Write S[D] and go on. -/
def ctlSet (s : State) (cl : Clu) (jt d : Nat) (v : W32) : CtlRes :=
  let k := getClu s cl.key
  some (setClu s cl.key (regWrite k jt d (v.setWidth 96)), k.pc + 1, false)

/-- Shifts: 0 SLL, 1 SRL, 2 SRA. -/
def shiftBy (sel : Nat) (a : W32) (n : Nat) : W32 :=
  if sel = 0 then a <<< n else if sel = 1 then a >>> n else a.sshiftRight n

/-- FTOI (R83): nearest even, saturating, NaN gives 0. -/
def ftoi (x : Ext) : W32 :=
  if x.isNan then 0
  else if x.isInf then (if x.isNeg then 0x80000000 else 0x7FFFFFFF)
  else BitVec.ofInt 32 (max (-2147483648) (min 2147483647 (Ext.roundInt x)))

/-- ALU functions (R82, R83); none for a reserved FN. -/
def aluFn (fn : Nat) (a b : W32) : Option W32 :=
  if fn = 0x00 then some (a + b)
  else if fn = 0x01 then some (a - b)
  else if fn = 0x02 then some (a &&& b)
  else if fn = 0x03 then some (a ||| b)
  else if fn = 0x04 then some (a ^^^ b)
  else if fn = 0x05 then some (shiftBy 0 a (b.toNat % 32))
  else if fn = 0x06 then some (shiftBy 1 a (b.toNat % 32))
  else if fn = 0x07 then some (shiftBy 2 a (b.toNat % 32))
  else if fn = 0x08 then some (a * b)
  else if fn = 0x09 then some (if a.toInt ≤ b.toInt then a else b)
  else if fn = 0x0A then some (if b.toInt ≤ a.toInt then a else b)
  else if fn = 0x0B then some (if a.toInt < b.toInt then 1 else 0)
  else if fn = 0x0C then some (if a.toNat < b.toNat then 1 else 0)
  else if fn = 0x10 then some (rne (Ext.add (val a) (val b)))
  else if fn = 0x11 then some (rne (Ext.sub (val a) (val b)))
  else if fn = 0x12 then some (rne (Ext.mul (val a) (val b)))
  else if fn = 0x13 then some (rne (Ext.emin (val a) (val b)))
  else if fn = 0x14 then some (rne (Ext.emax (val a) (val b)))
  else if fn = 0x15 then some (rne (Ext.ofUnits 0 a.toInt false))
  else if fn = 0x16 then some (ftoi (val a))
  else none

/-- ALU (R82); a word with a reserved opcode is illegal here too (log 22). -/
def execAlu (cl : Clu) (s : State) : Res :=
  .next (ctlStep s cl (fun op => op == 0 || decide (0x14 < op)) (fun _ w jt =>
    if fld w 31 26 ≠ 0 then none
    else
      let k := getClu s cl.key
      match aluFn (fld w 7 0) (curS k (ciA w)) (curS k (ciB w)) with
      | some v => ctlSet s cl jt (ciD w) v
      | none => none))

/-- ADDI (R82). -/
def execAddi (cl : Clu) (s : State) : Res :=
  .next (ctlStep s cl (fun op => op == 1) (fun _ w jt => ctlSet s cl jt (ciD w) (curS (getClu s cl.key) (ciA w) + immW w)))

/-- ANDI (R82). -/
def execAndi (cl : Clu) (s : State) : Res :=
  .next (ctlStep s cl (fun op => op == 2) (fun _ w jt => ctlSet s cl jt (ciD w) (curS (getClu s cl.key) (ciA w) &&& immW w)))

/-- ORI (R82). -/
def execOri (cl : Clu) (s : State) : Res :=
  .next (ctlStep s cl (fun op => op == 3) (fun _ w jt => ctlSet s cl jt (ciD w) (curS (getClu s cl.key) (ciA w) ||| immW w)))

/-- XORI (R82). -/
def execXori (cl : Clu) (s : State) : Res :=
  .next (ctlStep s cl (fun op => op == 4) (fun _ w jt => ctlSet s cl jt (ciD w) (curS (getClu s cl.key) (ciA w) ^^^ immW w)))

/-- SHI (R82). -/
def execShi (cl : Clu) (s : State) : Res :=
  .next (ctlStep s cl (fun op => op == 5) (fun _ w jt =>
    if fld w 6 5 = 3 ∨ fld w 13 7 ≠ 0 then none
    else ctlSet s cl jt (ciD w) (shiftBy (fld w 6 5) (curS (getClu s cl.key) (ciA w)) (fld w 4 0))))

/-- LUI (R82). -/
def execLui (cl : Clu) (s : State) : Res :=
  .next (ctlStep s cl (fun op => op == 6) (fun _ w jt =>
    ctlSet s cl jt (ciD w) (BitVec.ofNat 32 (fld w 19 0 * 4096))))

/-- Data address S[A] + IMM: a word address below 64 KiB, or none (R80, R82). -/
def dataAddr (k : Cluster) (w : W32) : Option Nat :=
  let a := (curS k (ciA w)).toInt + ciImm w
  if a < 0 ∨ 65535 < a ∨ a % 4 ≠ 0 then none else some a.toNat

/-- LW (R82). -/
def execLw (cl : Clu) (s : State) : Res :=
  .next (ctlStep s cl (fun op => op == 7) (fun _ w jt =>
    let k := getClu s cl.key
    match dataAddr k w with
    | some a => ctlSet s cl jt (ciD w) (tget 0 k.dmem (a / 4))
    | none => none))

/-- SW (R82). -/
def execSw (cl : Clu) (s : State) : Res :=
  .next (ctlStep s cl (fun op => op == 8) (fun _ w _ =>
    let k := getClu s cl.key
    match dataAddr k w with
    | some a => ctlNext (setClu s cl.key { k with dmem := tput 0 k.dmem (a / 4) (curS k (ciD w)) }) cl
    | none => none))

/-- A branch by IMM instructions when `t` holds. -/
def ctlBranch (s : State) (cl : Clu) (w : W32) (t : W32 → W32 → Bool) : CtlRes :=
  let k := getClu s cl.key
  if t (curS k (ciD w)) (curS k (ciA w)) then some (s, k.pc + ciImm w, true)
  else ctlNext s cl

/-- BEQ (R82). -/
def execBeq (cl : Clu) (s : State) : Res :=
  .next (ctlStep s cl (fun op => op == 9) (fun _ w _ => ctlBranch s cl w (fun a b => a == b)))

/-- BNE (R82). -/
def execBne (cl : Clu) (s : State) : Res :=
  .next (ctlStep s cl (fun op => op == 10) (fun _ w _ => ctlBranch s cl w (fun a b => a != b)))

/-- BLT (R82). -/
def execBlt (cl : Clu) (s : State) : Res :=
  .next (ctlStep s cl (fun op => op == 11) (fun _ w _ => ctlBranch s cl w (fun a b => decide (a.toInt < b.toInt))))

/-- BGE (R82). -/
def execBge (cl : Clu) (s : State) : Res :=
  .next (ctlStep s cl (fun op => op == 12) (fun _ w _ => ctlBranch s cl w (fun a b => decide (b.toInt ≤ a.toInt))))

/-- JMP (R82). -/
def execJmp (cl : Clu) (s : State) : Res :=
  .next (ctlStep s cl (fun op => op == 0x0D) (fun _ w _ =>
    some (s, (getClu s cl.key).pc + sfld w 25 0, true)))

/-- WAITJ (R80, R82): stall until job time reaches the current origin + 4 (S[A] + IMM). DESIGN CHOICE: the origin is that
of the segment in which WAITJ issues, also where a later one begins while it stalls (log 128). -/
def execWaitj (cl : Clu) (s : State) : Res :=
  .next (ctlStep s cl (fun op => op == 0x0E) (fun j w jt =>
    let k := getClu s cl.key
    let t : Int := curOrigin s j jt + 4 * ((curS k (ciA w)).toInt + ciImm w)
    ctlNext (setClu s cl.key { k with stall := if (jt : Int) < t then some t else none }) cl))

/-- ARMC (R77, R82). -/
def execArmc (cl : Clu) (s : State) : Res :=
  .next (ctlStep s cl (fun op => op == 0x0F) (fun _ w _ =>
    let k := getClu s cl.key
    ctlNext (ctrAdd s cl.key (fld w 25 21) (curS k (fld w 20 15)).toInt (some (fld w 14 0))) cl))

/-- MGET (R82). -/
def execMget (cl : Clu) (s : State) : Res :=
  .next (ctlStep s cl (fun op => op == 0x11) (fun _ w jt =>
    if fld w 1 0 = 3 ∨ fld w 13 2 ≠ 0 ∨ fld w 19 17 ≠ 0 then none
    else ctlSet s cl jt (ciD w)
      (BitVec.ofNat 32 ((curM (getClu s cl.key) (fld w 16 14)).toNat >>> (32 * fld w 1 0)))))

/-- RDCC (R82): DEF as it stood at the end of the previous core cycle (R78, log 45). -/
def execRdcc (cl : Clu) (s : State) : Res :=
  .next (ctlStep s cl (fun op => op == 0x12) (fun _ w jt =>
    if fld w 13 5 ≠ 0 then none
    else ctlSet s cl jt (ciD w) (BitVec.ofInt 32 (getCtr s cl.key (fld w 4 0)).deficit)))

/-- RDJ (R80, R82). DESIGN CHOICE: at a control edge between core edges, J less the origin is 2 mod 4, and the quotient by
4 takes the floor, which the rule leaves open (log 128). -/
def execRdj (cl : Clu) (s : State) : Res :=
  .next (ctlStep s cl (fun op => op == 0x13) (fun j w jt =>
    ctlSet s cl jt (ciD w) (BitVec.ofInt 32 (((jt : Int) - curOrigin s j jt) / 4))))

/-- One core takes a TDW of instruction `pc`: visible at the first core edge from T + 24 on; an LDTD or TDADD that
reaches the descriptor in the same core cycle wins (R62, R68, R83). -/
def tdwCore (jt pc td : Nat) (v : W128) (s : State) (cid : CoreId) : State :=
  addTd s cid jt { byJob := true, vis := 4 * cdiv (jt + 24) 4, td := td, val := v, ovr := false, rank := 3,
                   d0 := d0Core 0xFF pc, slot := 0 }

/-- TDW (R68, R82): four S registers to TDn of every core of the mask. -/
def execTdw (cl : Clu) (s : State) : Res :=
  .next (ctlStep s cl (fun op => op == 0x14) (fun _ w jt =>
    let a := fld w 16 11
    if 60 < a ∨ fld w 10 0 ≠ 0 then none
    else
      let k := getClu s cl.key
      let m := curM k (fld w 25 23)
      let v : W128 := BitVec.ofNat 128 ((curS k a).toNat + (curS k (a + 1)).toNat * 2 ^ 32
        + (curS k (a + 2)).toNat * 2 ^ 64 + (curS k (a + 3)).toNat * 2 ^ 96)
      let ks := (List.range 96).filter (fun n => bit m n)
      ctlNext (ks.foldl (fun s n => tdwCore jt k.pc (fld w 22 17) v s { cl := cl, k := Fin.ofNat 96 n }) s) cl))

end Sys2Proof.Machine
end

