-- ==== Sys2Proof/Machine/CmdOps.lean ====
section
/-! DEFINITION. Command streams of the row engine and the route unit: fetch, launch, completion
(R127 to R129, R193, R211). -/

namespace Sys2Proof.Machine

/-- The row engine (false) or the route unit (true) of a cluster. -/
def unitOf (rt : Bool) (k : Cluster) : CmdUnit := if rt then k.rt else k.re
def setUnit (s : State) (clu : Nat) (rt : Bool) (u : CmdUnit) : State :=
  let k := getClu s clu
  setClu s clu (if rt then { k with rt := u } else { k with re := u })

def unitPage (rt : Bool) (clu : Nat) : Nat := if rt then pgRT (clu / 16) (clu % 16) else pgRE (clu / 16) (clu % 16)

/-- OFFSET and OP of a command (R130, R194). -/
def cmOff (w : W256) : Nat := fld w 255 232
def cmOp (w : W256) : Nat := fld w 231 226

/-- The whole command stream of a unit, segment after segment. -/
def unitStream (s : State) (j clu : Nat) (rt : Bool) : List W256 :=
  (segsOf s j).flatMap (fun g => tget [] (if rt then g.rt else g.re) clu)

/-- A fault of the row engine or route unit, logged under its own page (R142, R212, R456); `hi` fills bits [31:16]
of the second word. -/
def unitFault (s : State) (clu : Nat) (rt : Bool) (code off op hi : Nat) : State :=
  faultsAt s clu (unitPage rt clu) [(code, d0Core (if rt then 0xFD else 0xFE) off,
    BitVec.ofNat 32 (op % 64 + hi % 65536 * 65536))]

/-- Codes of order, busy and underrun (R142, R212). -/
def unitCode (rt : Bool) (n : Nat) : Nat := (if rt then 0x0900 else 0x0600) + n

/-- A fetch slot (R127, R193): one 64 B line, two commands, into the free places of the queue. DESIGN CHOICE: the
rule speaks of a full queue only; a slot that finds one free place takes one of the two commands, and a slot past
the end of the stream takes nothing and is not counted (log 23). -/
def unitFetch (s : State) (cl : Clu) (rt : Bool) : State :=
  match residentOn s cl.q.val with
  | none => s
  | some j =>
    let u := unitOf rt (getClu s cl.key)
    if (getJob s j).st = .admitting then s
    else if 16 ≤ u.q.length then bump s (at' (unitPage rt cl.key) (if rt then 0x118 else 0x110)) 1
    else
      let cs := ((unitStream s j cl.key rt).drop u.sp).take (min 2 (16 - u.q.length))
      setUnit s cl.key rt { u with q := u.q ++ cs, sp := u.sp + cs.length }

/-- A command is complete: counted (R143, R213). -/
def countCmd (s : State) (clu : Nat) (rt : Bool) : State :=
  bump s (at' (unitPage rt clu) (if rt then 0x114 else 0x10C)) 1

/-- Launch row of a command whose opcode `p` names (R128): underrun, order and busy are reported,
else the command leaves the queue and `f` acts on the slot, job time and command. -/
def unitLaunch (s : State) (cl : Clu) (rt : Bool) (p : Nat → Bool)
    (f : State → Nat → Nat → W256 → State) : State :=
  match runQuad s cl.q.val with
  | none => s
  | some j =>
    let u := unitOf rt (getClu s cl.key)
    let job := getJob s j
    let jt := jobTime s job
    let org := originOf s j u.seg
    if u.done ∨ job.held then s
    else match u.q.head? with
      | none =>
        match (unitStream s j cl.key rt)[u.sp]? with
        | none => s
        | some w =>
          if p (cmOp w) && decide (org + 4 * cmOff w ≤ jt)
          then unitFault s cl.key rt (unitCode rt 6) (cmOff w) (cmOp w) 0 else s
      | some w =>
        let t := org + 4 * cmOff w
        if p (cmOp w) = false ∨ jt < t then s
        else if decide (t < jt) || (match u.last with | some l => decide (cmOff w ≤ l) | none => false)
        then unitFault s cl.key rt (unitCode rt 4) (cmOff w) (cmOp w) 0
        else
          let s := setUnit s cl.key rt { u with q := u.q.drop 1, last := some (cmOff w) }
          if s.clk.dst < u.busy then unitFault s cl.key rt (unitCode rt 5) (cmOff w) (cmOp w) 0
          else f s j jt w

/-- A command as it is launched: everything that it needs is latched (R132, R196). `core` is its core field of R174. -/
def newCmd (s : State) (cl : Clu) (jt : Nat) (w : W256) (cc : Option Nat) (tag core : Nat) : CmdFly :=
  { due := 0, w := w, cc := cc, jt := jt, sclA := 0, sclB := 0, step := stepOf s cl jt,
    draw := drawOf s cl jt tag core 2, plan := [], held := [], out := [], nums := [], cnt := Counts.none,
    mask := none, nan := 0, experts := [] }

/-- The unit runs a command for I core cycles: its events follow in their cycles (R136, R137, R211). -/
def unitIssue (s : State) (cl : Clu) (rt : Bool) (i : Nat) (f : CmdFly) (evs : List Ev) : State :=
  let u := unitOf rt (getClu s cl.key)
  let due := s.clk.dst + cyc i
  setUnit s cl.key rt { u with busy := due, fly := u.fly ++ [{ f with due := due, plan := placeEvs s.clk.dst evs }] }

/-- The segment's stream has ended (R128). -/
def unitEnd (s : State) (cl : Clu) (rt : Bool) : State :=
  let s := countCmd s cl.key rt
  let u := unitOf rt (getClu s cl.key)
  setUnit s cl.key rt { u with done := true }

/-- Count assignments and drops of one expert, saturating (R197, R198). -/
def countExpert (k : Cluster) (e : Nat × Nat × Nat) : Cluster :=
  { k with assign := tput 0 k.assign e.1 (min 0xFFFFFFFF (tget 0 k.assign e.1 + e.2.1)),
           drop := tput 0 k.drop e.1 (min 0xFFFFFFFF (tget 0 k.drop e.1 + e.2.2)) }

/-- A drop counter of an expert rises from 0: interrupt bit 0 of the route page (R460). -/
def dropInt (s : State) (clu : Nat) (es : List (Nat × Nat × Nat)) : State :=
  if es.any (fun e => decide (0 < e.2.2) && decide (tget 0 (getClu s clu).drop e.1 = 0))
  then raiseInt s (pgRT (clu / 16) (clu % 16)) 0 else s

/-- Or a word into a flag register. -/
def orReg (s : State) (off : Nat) (v : W32) : State := setReg s off (reg s off ||| v)

/-- The mask that a GATE writes retires at launch + I (R200). -/
def writeMask (s : State) (cl : Clu) (due : Nat) (m : Option (Nat × BitVec 96)) : State :=
  match m with
  | none => s
  | some (mi, v) =>
    let h := match jobOn s cl.q.val with | some j => (getJob s j).h | none => 0
    setClu s cl.key (regWrite (getClu s cl.key) (due - h) (64 + mi) v)

/-- What a GATE adds to its experts' counters; kept with its core cycle, since a CLR of that cycle comes first (R213). -/
def gateCount (s : State) (clu : Nat) (es : List (Nat × Nat × Nat)) : State :=
  if es.isEmpty then s
  else
    let s := dropInt s clu es
    let k := es.foldl countExpert (getClu s clu)
    let n := s.clk.dst / 4
    setClu s clu { k with gateUpd := (n, (if k.gateUpd.1 = n then k.gateUpd.2 else []) ++ es) }

/-- The oldest command that is due is complete (R138, R211): counted, its watch summary handed on (R184), a GATE's
mask and counts in place, its completion counter credited. -/
def unitComplete (s : State) (cl : Clu) (rt : Bool) : State :=
  let u := unitOf rt (getClu s cl.key)
  match findIdx? (fun f => decide (f.due ≤ s.clk.dst)) u.fly 0 with
  | none => s
  | some (i, f) =>
    let s := countCmd (setUnit s cl.key rt { u with fly := removeAt u.fly i }) cl.key rt
    let s := if f.nan = 0 then s else bump s (at' (unitPage rt cl.key) 0x10C) f.nan
    let s := writeMask (gateCount s cl.key f.experts) cl f.due f.mask
    let s := if !rt && decide (cmOp f.w ≤ 8)
      then handSummary s cl.key { src := 96, tag := fld f.w 221 212, step := f.step, cnt := f.cnt } else s
    match f.cc with
    | some n => credit s cl.key n 1
    | none => s

/-- Pool address of row r of an operand at BASE and STRIDE, in units of 64 B. -/
def poolRowAt (cl : Clu) (base stride r : Nat) : Nat := poolAddr cl.q.val cl.c.val (64 * base + 64 * stride * r)

/-- Exact values of a packed row at `a`, by what a byte reads as. -/
def packedRow (rd : Nat → Byte) (a fmt cols : Nat) : List Ext := (List.range cols).map (rowElem rd a fmt cols)

/-- Cells, and counts, of a row of exact values rounded into a packed row at `a` (R171 to R174, R183). -/
def packRow (d : Draw) (fmt rnd cols r a : Nat) (xs : List Ext) : List Host.Cell × Counts :=
  let us := (List.range xs.length).map (fun i => if rnd = 1 then drawAt d cols r i else 0)
  let o := encodeRow fmt rnd us (fun _ => 0) a xs
  (cellsAt a o.bytes, o.cnt)

/-- Words as a table from key `b` on; words of 0 are not listed. -/
def wordsFrom (b : Nat) (ws : List W32) : Tab W32 :=
  (((List.range ws.length).map (b + ·)).zip ws).filter (fun e => e.2 ≠ 0)

end Sys2Proof.Machine
end

