-- ==== Sys2Proof/Machine/RowEngine.lean ====
section
/-! DEFINITION. Meanings: the row engine (R127 to R141). -/

namespace Sys2Proof.Machine

/-! ## Fields and checks (R130 to R132) -/

def reFmt (w : W256) : Nat := fld w 225 222
def reTag (w : W256) : Nat := fld w 221 212
def reSeps (w : W256) : Nat := fld w 211 206
def reScx (w : W256) : Nat := fld w 205 200
def reCC (w : W256) : Option Nat := if bit w 194 then some (fld w 199 195) else none
def reSrc (w : W256) : Nat := fld w 191 173
def reAux (w : W256) : Nat := fld w 172 154
def reDst (w : W256) : Nat := fld w 153 135
def reRows (w : W256) : Nat := fld w 127 112
def reCols (w : W256) : Nat := fld w 111 96
def reStride (w : W256) : Nat := fld w 95 77
def reMgb (w : W256) : Nat := fld w 76 63

/-- RE_FORMAT (R131): reserved opcode, unused field not 0, FMT outside the table. DESIGN CHOICE: with CCE = 0 a
command uses no CC, and a CC other than 0 is then taken as an unused field; R130 and R131 do not say (log 123). -/
def reFormatBad (w : W256) : Bool :=
  let op := cmOp w
  let nz := fun (n : Nat) => decide (n ≠ 0)
  let rsv := nz (fld w 193 192) || nz (fld w 134 128) || nz (fld w 62 0)
  let ccBad := !bit w 194 && nz (fld w 199 195)
  let tag := nz (reTag w)
  let seps := nz (reSeps w)
  let scx := nz (reScx w)
  let src := nz (reSrc w)
  let aux := nz (reAux w)
  let dst := nz (reDst w)
  let shape := nz (reCols w) || nz (reStride w)
  let mgb := nz (reMgb w)
  if op ≤ 1 then decide (w.toNat % 2 ^ 226 ≠ 0)
  else if op ≤ 3 then rsv || ccBad || decide (2 < reFmt w) || scx || aux
  else if op = 4 then rsv || ccBad || decide (2 < reFmt w) || scx || aux || seps
  else if op ≤ 7 then rsv || ccBad || decide (2 < reFmt w) || scx || seps
  else if op = 8 then rsv || ccBad || nz (reFmt w) || mgb
  else if op = 9 then rsv || ccBad || nz (reFmt w) || tag || seps || scx || src || aux || shape
  else if op = 10 then rsv || ccBad || nz (reFmt w) || tag || seps || scx || aux || dst || shape
  else true

/-- Bytes of an element of a row operand. -/
def fmtBytes (f : Nat) : Nat := if f = 0 then 4 else 2

/-- One pool operand of a row command breaks R132. -/
def reOperandBad (w : W256) (base sz : Nat) : Bool :=
  let rb := reCols w * sz
  (decide (1 < reRows w) && decide (64 * reStride w < rb))
  || decide (31457280 < 64 * base + 64 * reStride w * (reRows w - 1) + rb)

/-- The scalar is positive and normal FP32 (R132). -/
def posNormal (w : W32) : Bool :=
  decide (w.toNat < 0x7F800000) && decide (0x00800000 ≤ w.toNat)

/-- The code that a command raises at the launch edge, if any (R131, R132). -/
def reCheck (k : Cluster) (jt : Nat) (w : W256) : Option Nat :=
  let op := cmOp w
  let f := fmtBytes (reFmt w)
  if reFormatBad w then some 0x0601
  else if op ≤ 1 then none
  else if reRows w = 0 ∨ (op ≤ 8 ∧ reCols w = 0) ∨ (op ≤ 7 ∧ 16384 < reCols w)
      ∨ (op = 8 ∧ (reRows w ≠ 32 ∨ 4096 < reCols w)) then some 0x0602
  else if (op = 8 ∧ reSeps w = 63)
      ∨ (op ≤ 7 ∧ reOperandBad w (reSrc w) f)
      ∨ (2 ≤ op ∧ op ≤ 4 ∧ reOperandBad w (reDst w) f)
      ∨ (5 ≤ op ∧ op ≤ 7 ∧ (reOperandBad w (reAux w) 2 ∨ reOperandBad w (reDst w) 2))
      ∨ (op = 8 ∧ (reOperandBad w (reAux w) 4 ∨ reOperandBad w (reDst w) 4
          ∨ 31457280 < 64 * reSrc w + 4096))
      ∨ (op = 9 ∧ 31457280 < 64 * reDst w + 8 * reRows w)
      ∨ (op = 10 ∧ 31457280 < 64 * reSrc w + 8 * reRows w)
      ∨ (op ≠ 8 ∧ 1048576 < 64 * reMgb w + 8 * reRows w)
      ∨ (op = 8 ∧ posNormal (sReg k jt (reSeps w + 1)) = false) then some 0x0603
  else none

/-- Issue interval (R136, R137). -/
def reInterval (w : W256) : Nat :=
  let op := cmOp w
  if op ≤ 7 then 32 + reRows w * (if op = 3 then 2 else 3) * cdiv (reCols w) 64
  else if op = 8 then 1120 + 16 * reCols w
  else 32 + cdiv (reRows w) 32

/-- Marginalia byte of record r. -/
def recAddr (cl : Clu) (w : W256) (r : Nat) : Nat := margAddr cl.q.val cl.c.val (64 * reMgb w + 8 * r)

/-- A record's bytes: first value in [63:32], second in [31:0] (R133). -/
def recCells (cl : Clu) (w : W256) (r : Nat) (a b : W32) : List Host.Cell :=
  cellsAt (recAddr cl w r) (bytesOf 4 b.toNat ++ bytesOf 4 a.toNat)

/-- The word at `a`, by what a byte reads as. -/
def wordAt (rd : Nat → Byte) (a : Nat) : W32 := BitVec.ofNat 32 (ofBytes ((List.range 4).map (fun b => rd (a + b))))

/-- The record of row r, by what a byte reads as. -/
def recRead (rd : Nat → Byte) (cl : Clu) (w : W256) (r : Nat) : W32 × W32 :=
  (wordAt rd (recAddr cl w r + 4), wordAt rd (recAddr cl w r))

/-! ## Rows (R133, R134) -/

/-- recip(n), the reciprocal of the row length (R133). -/
def rnOf (n : Nat) : Ext := val (fnRecip (.fin false n 0))

def negInf : Ext := .inf true

/-- rho of NORMF and RMSF over the values d. -/
def rhoOf (eps : Ext) (d : List Ext) : W32 :=
  let v := fp (Ext.mul (val (rowSum (d.map (fun x => Ext.mul x x))).1) (rnOf d.length))
  fnRsqrt (fp (Ext.add v eps))

/-- NORMF and RMSF of one row: the record and the values before out_f. -/
def normRow (rms : Bool) (eps : Ext) (x : List Ext) : W32 × W32 × List Ext :=
  let mu := rne (Ext.mul (val (rowSum x).1) (rnOf x.length))
  let d := if rms then x else x.map (fun v => fp (Ext.sub v (val mu)))
  let rho := rhoOf eps d
  (if rms then 0 else mu, rho, d.map (fun v => fp (Ext.mul v (val rho))))

/-- SMXF of one row. -/
def smxRow (x : List Ext) : W32 × W32 × List Ext :=
  let m := rowMax x
  if m = negInf then (rne m, 0, x.map (fun _ => Ext.zero))
  else
    let e := x.map (fun v => val (fnExp (fp (Ext.sub v m))))
    let q := fnRecip (val (rowSum e).1)
    (rne m, q, e.map (fun v => fp (Ext.mul v (val q))))

/-- NORMB and RMSB of one row: the values before out_g. -/
def normBack (rms : Bool) (st : W32 × W32) (x g : List Ext) : List Ext :=
  let rho := val st.2
  let h := x.map (fun v => fp (Ext.mul (if rms then v else fp (Ext.sub v (val st.1))) rho))
  let a := if rms then Ext.zero else fp (Ext.mul (val (rowSum g).1) (rnOf x.length))
  let b := fp (Ext.mul (val (rowSum ((g.zip h).map (fun p => Ext.mul p.1 p.2))).1) (rnOf x.length))
  (g.zip h).map (fun p =>
    fp (Ext.mul rho (fp (Ext.sub (Ext.sub p.1 a) (Ext.mul p.2 b)))))

/-- SMXB of one row. -/
def smxBack (st : W32 × W32) (x g : List Ext) : List Ext :=
  let m := val st.1
  if m = negInf then x.map (fun _ => Ext.zero)
  else
    let h := x.map (fun v => fp (Ext.mul (val (fnExp (fp (Ext.sub v m)))) (val st.2)))
    let c := val (rowSum ((g.zip h).map (fun p => Ext.mul p.1 p.2))).1
    (g.zip h).map (fun p => Ext.mul p.2 (Ext.sub p.1 c))

/-! ## SOLVE (R140) -/

/-- The factors so far: w and l by 32 i + j, the pivots, and how many were floored. -/
structure Factor where
  w    : Tab W32
  l    : Tab W32
  dd   : Tab W32
  low  : Nat
deriving DecidableEq, Repr

def neg32 (x : W32) : W32 := x ^^^ 0x80000000

/-- Column j of the factorisation. -/
def factorCol (a : Nat → Nat → W32) (lam flo : W32) (f : Factor) (j : Nat) : Factor :=
  let d0 := rne (Ext.add (val (a j j)) (val lam))
  let d1 := (List.range j).foldl (fun d k =>
    fma32 (neg32 (tget 0 f.w (32 * j + k))) (tget 0 f.l (32 * j + k)) d) d0
  let ok := !(val d1).isNan && decide (Ext.cmp (val d1) (val flo) ≠ -1)
  let d := if ok then d1 else flo
  let f := { f with dd := tput 0 f.dd j d, low := if ok then f.low else f.low + 1 }
  ((List.range 32).filter (j < ·)).foldl (fun f i =>
    let t := (List.range j).foldl (fun t k =>
      fma32 (neg32 (tget 0 f.w (32 * i + k))) (tget 0 f.l (32 * j + k)) t) (a i j)
    { f with w := tput 0 f.w (32 * i + j) t,
             l := tput 0 f.l (32 * i + j) (rne (Ext.div (val t) (val d))) }) f

def factorAll (a : Nat → Nat → W32) (lam flo : W32) : Factor :=
  (List.range 32).foldl (factorCol a lam flo) { w := [], l := [], dd := [], low := 0 }

/-- One column of X from one column of B: forward with k ascending, backward with k descending. -/
def solveCol (f : Factor) (b : List W32) : List W32 :=
  let zz := (List.range 32).foldl (fun (zz : List W32) i =>
    zz ++ [(List.range i).foldl (fun z k =>
      fma32 (neg32 (tget 0 f.l (32 * i + k))) (zz.getD k 0) z) (b.getD i 0)]) []
  (List.range 32).foldl (fun (xx : List W32) n =>
    -- xx holds x[i + 1] to x[31]
    let i := 31 - n
    let x0 := rne (Ext.div (val (zz.getD i 0)) (val (tget 0 f.dd i)))
    (List.range n).foldl (fun x m =>
      let k := 31 - m
      fma32 (neg32 (tget 0 f.l (32 * k + i))) (xx.getD (k - (i + 1)) 0) x) x0 :: xx) []

/-! ## Events (R136, R137) -/

/-- Passes per row, k of R136. -/
def rePasses (w : W256) : Nat := if cmOp w = 3 then 2 else 3

/-- Lines of elements 64c to 64c + 63 of a packed row of n elements of `sz` bytes at `a`. -/
def passLines (a n sz c : Nat) : List Nat :=
  (List.range (cdiv (min (64 * sz) (n * sz - 64 * c * sz)) 64)).map (lineOf a + c * sz + ·)

/-- Accesses of a pass over a row: in cycle c elements 64c to 64c + 63 (R136), at priority 2 of R45. -/
def rePass (t : Nat) (kind : EvKind) (r sub a n sz : Nat) : List Ev :=
  (List.range (cdiv n 64)).flatMap (fun c =>
    (passLines a n sz c).map (fun l => { at' := t + c, kind := kind, grp := r, sub := sub, line := l, prio := 2 }))

/-- An event without an access. -/
def calcEv (t grp sub : Nat) : Ev := { at' := t, kind := .calc, grp := grp, sub := sub, line := 0, prio := 0 }

/-- Events of NORMF to SMXB (R136): operand 0 is x, 1 g, 2 the record read; 3 is y or dx, 4 the record written. A
row's values are formed when its last reading pass ends. -/
def rowsPlan (cl : Clu) (w : W256) : List Ev :=
  let op := cmOp w
  let k := rePasses w
  let n := reCols w
  let rb := cdiv n 64
  let sz := fmtBytes (reFmt w)
  (List.range (reRows w)).flatMap (fun r =>
    let b := fun p => 32 + (k * r + p) * rb
    let row := fun base => poolRowAt cl base (reStride w) r
    let rec' := fun t kind sub => ({ at' := t, kind := kind, grp := r, sub := sub, line := lineOf (recAddr cl w r), prio := 2 } : Ev)
    (if op ≤ 4 then rePass (b 0) .rd r 0 (row (reSrc w)) n sz
      else rec' (b 0) .rd 2 :: rePass (b 0) .rd r 0 (row (reSrc w)) n sz ++ rePass (b 1) .rd r 1 (row (reAux w)) n 2)
    ++ [calcEv (b (k - 1) - 1) r 0]
    ++ (if op ≤ 4 then rec' (b (k - 1)) .wr 4 :: rePass (b (k - 1)) .wr r 3 (row (reDst w)) n sz
        else rePass (b (k - 1)) .wr r 3 (row (reDst w)) n 2))

/-- Line of element [i][j] of B or X. -/
def colLine (cl : Clu) (w : W256) (base j i : Nat) : Nat := lineOf (poolRowAt cl base (reStride w) i + 4 * j)

/-- Events of SOLVE (R137): row i of A in cycle i, then column by column. The lower triangle alone is read (R140). -/
def solvePlan (cl : Clu) (w : W256) : List Ev :=
  let ev := fun t kind grp sub l => ({ at' := t, kind := kind, grp := grp, sub := sub, line := l, prio := 2 } : Ev)
  (List.range 32).flatMap (fun i =>
      (List.range (cdiv (4 * (i + 1)) 64)).map (fun n => ev i .rd i 0 (lineOf (poolRowAt cl (reSrc w) 2 i) + n)))
    ++ [calcEv 31 0 0]
    ++ (List.range (reCols w)).flatMap (fun j =>
      (List.range 32).map (fun i => ev (1120 + 16 * j) .rd j 1 (colLine cl w (reAux w) j i))
        ++ [calcEv (1135 + 16 * j) j 1]
        ++ (List.range 32).map (fun i => ev (1135 + 16 * j) .wr j 3 (colLine cl w (reDst w) j i)))

/-- Source and destination of MSPILL and MFILL. -/
def copyEnds (cl : Clu) (w : W256) : Nat × Nat :=
  let m := recAddr cl w 0
  if cmOp w = 9 then (m, poolRowAt cl (reDst w) 0 0) else (poolRowAt cl (reSrc w) 0 0, m)

/-- Events of MSPILL and MFILL: 256 B a cycle from cycle 32 (R137). -/
def copyPlan (cl : Clu) (w : W256) : List Ev :=
  let n := 8 * reRows w
  let e := copyEnds cl w
  (List.range (cdiv n 256)).flatMap (fun c =>
    let ls := (List.range (cdiv (min 256 (n - 256 * c)) 64)).map (4 * c + ·)
    ls.map (fun l => ({ at' := 32 + c, kind := .rd, grp := c, sub := 0, line := lineOf e.1 + l, prio := 2 } : Ev))
      ++ [calcEv (32 + c) c 0]
      ++ ls.map (fun l => ({ at' := 32 + c, kind := .wr, grp := c, sub := 3, line := lineOf e.2 + l, prio := 2 } : Ev)))

/-- Events of a command, in core cycles from its launch. -/
def rePlan (cl : Clu) (w : W256) : List Ev :=
  if cmOp w ≤ 7 then rowsPlan cl w else if cmOp w = 8 then solvePlan cl w else copyPlan cl w

/-! ## What a command does in its cycles -/

/-- Bytes that an event reads of its line. -/
def reWants (cl : Clu) (w : W256) (e : Ev) (a : Nat) : Bool :=
  let within := fun b n => decide (b ≤ a) && decide (a < b + n)
  if cmOp w = 8 then
    if e.sub = 0 then within (poolRowAt cl (reSrc w) 2 e.grp) (4 * (e.grp + 1))
    else (List.range 32).any (fun i => within (poolRowAt cl (reAux w) (reStride w) i + 4 * e.grp) 4)
  else if 9 ≤ cmOp w then within (copyEnds cl w).1 (8 * reRows w)
  else if e.sub = 2 then within (recAddr cl w e.grp) 8
  else if e.sub = 0 then within (poolRowAt cl (reSrc w) (reStride w) e.grp) (reCols w * fmtBytes (reFmt w))
  else within (poolRowAt cl (reAux w) (reStride w) e.grp) (2 * reCols w)

/-- A row of NORMF to SMXB is formed from the lines held (R133, R134): its bytes wait for the writing pass. -/
def reRow (cl : Clu) (f : CmdFly) (r : Nat) : CmdFly :=
  let w := f.w
  let op := cmOp w
  let rd := fun n => heldByte f.held (some n)
  let x := packedRow (rd 0) (poolRowAt cl (reSrc w) (reStride w) r) (reFmt w) (reCols w)
  let dst := poolRowAt cl (reDst w) (reStride w) r
  let done := fun (o : List Host.Cell × Counts) (rest : List Host.Cell) =>
    { f with held := [], out := rest ++ o.1, cnt := f.cnt.plus o.2 }
  if op ≤ 4 then
    let v := if op = 4 then smxRow x else normRow (op == 3) (val f.sclA) x
    done (packRow f.draw (reFmt w) 0 (reCols w) r dst v.2.2) (recCells cl w r v.1 v.2.1)
  else
    let g := packedRow (rd 1) (poolRowAt cl (reAux w) (reStride w) r) 1 (reCols w)
    let st := recRead (rd 2) cl w r
    done (packRow f.draw 1 1 (reCols w) r dst (if op = 7 then smxBack st x g else normBack (op == 6) st x g)) []

/-- The factors of SOLVE as kept between its columns: l at 32 i + j, the pivots from 1024 on. -/
def keptFactor (f : CmdFly) : Factor :=
  { w := [], l := f.nums, dd := (List.range 32).filterMap (fun j =>
      let d := tget 0 f.nums (1024 + j); if d = 0 then none else some (j, d)), low := 0 }

/-- SOLVE factors A once it is read, and counts its floored pivots then (R140, R141). DESIGN CHOICE: the rule gives
the counting no cycle (log 123). -/
def reFactor (s : State) (cl : Clu) (f : CmdFly) : State × CmdFly :=
  let a := fun i j => wordAt (heldByte f.held (some 0)) (poolRowAt cl (reSrc f.w) 2 i + 4 * j)
  let x := factorAll a f.sclA f.sclB
  let pg := pgRE cl.q.val cl.c.val
  let s := if x.low = 0 then s
    else orReg (bump s (at' pg 0x108) x.low) (at' pg (if reScx f.w < 32 then 0x100 else 0x104))
      (BitVec.ofNat 32 (2 ^ (reScx f.w % 32)))
  (s, { f with held := [], nums := x.l ++ x.dd.map (fun e => (1024 + e.1, e.2)) })

/-- Column j of X (R140). -/
def reColumn (cl : Clu) (f : CmdFly) (j : Nat) : CmdFly :=
  let b := (List.range 32).map (fun i =>
    wordAt (heldByte f.held (some 1)) (poolRowAt cl (reAux f.w) (reStride f.w) i + 4 * j))
  let x := solveCol (keptFactor f) b
  let os := ((List.range 32).zip x).map (fun p =>
    packRow f.draw 0 0 (reCols f.w) p.1 (poolRowAt cl (reDst f.w) (reStride f.w) p.1 + 4 * j) [val p.2])
  { f with held := [], out := os.flatMap Prod.fst, cnt := os.foldl (fun c o => c.plus o.2) f.cnt }

/-- The bytes that MSPILL or MFILL holds go to their destination. -/
def reCopied (cl : Clu) (f : CmdFly) : CmdFly :=
  let e := copyEnds cl f.w
  let cs := f.held.flatMap (fun h => ((List.range 64).map (64 * h.2.1 + ·)).zip h.2.2)
  { f with held := []
           out := (cs.filter (fun c => decide (c.1 < e.1 + 8 * reRows f.w))).map (fun c => (c.1 + e.2 - e.1, c.2)) }

/-- An event of a row-engine command (R136, R137). -/
def reEvent (s : State) (cl : Clu) (f : CmdFly) (e : Ev) : State × CmdFly :=
  let w := whoOf s cl.q.val
  match e.kind with
  | .rd =>
    let r := readLine s w e.line (reWants cl f.w e)
    (r.1, match r.2 with | some b => { f with held := f.held ++ [(e.sub, e.line, b)] } | none => f)
  | .calc =>
    if cmOp f.w ≤ 7 then (s, reRow cl f e.grp)
    else if 9 ≤ cmOp f.w then (s, reCopied cl f)
    else if e.sub = 0 then reFactor s cl f else (s, reColumn cl f e.grp)
  | .wr =>
    let o := lineOut f.out e.line
    (store s w o.1, { f with out := o.2 })

/-- A row-engine command at its launch edge (R132): latched and checked, then run. -/
def reRun (cl : Clu) (s : State) (_j jt : Nat) (w : W256) : State :=
  let k := getClu s cl.key
  match reCheck k jt w with
  | some code => unitFault s cl.key false code (cmOff w) (cmOp w) 0
  | none =>
    if cmOp w = 0 then countCmd s cl.key false
    else if cmOp w = 1 then unitEnd s cl false
    else
      let f := newCmd s cl jt w (reCC w) (reTag w) 0x7F
      unitIssue s cl false (reInterval w)
        { f with sclA := sReg k jt (reSeps w), sclB := sReg k jt (reSeps w + 1) } (rePlan cl w)

/-! ## Rows of the table -/

/-- RE_FETCH_SLOT (R127). -/
def execReFetchSlot (cl : Clu) (s : State) : Res := .next (unitFetch s cl false)
/-- RE_NOP (R131); a command with a reserved opcode raises RE_FORMAT here (log 22). -/
def execReNop (cl : Clu) (s : State) : Res :=
  .next (unitLaunch s cl false (fun op => op == 0 || decide (10 < op)) (reRun cl))
/-- RE_END (R128). -/
def execReEnd (cl : Clu) (s : State) : Res := .next (unitLaunch s cl false (· == 1) (reRun cl))
/-- NORMF (R133). -/
def execNormf (cl : Clu) (s : State) : Res := .next (unitLaunch s cl false (· == 2) (reRun cl))
/-- RMSF (R133). -/
def execRmsf (cl : Clu) (s : State) : Res := .next (unitLaunch s cl false (· == 3) (reRun cl))
/-- SMXF (R133). -/
def execSmxf (cl : Clu) (s : State) : Res := .next (unitLaunch s cl false (· == 4) (reRun cl))
/-- NORMB (R134). -/
def execNormb (cl : Clu) (s : State) : Res := .next (unitLaunch s cl false (· == 5) (reRun cl))
/-- RMSB (R134). -/
def execRmsb (cl : Clu) (s : State) : Res := .next (unitLaunch s cl false (· == 6) (reRun cl))
/-- SMXB (R134). -/
def execSmxb (cl : Clu) (s : State) : Res := .next (unitLaunch s cl false (· == 7) (reRun cl))
/-- SOLVE (R140). -/
def execSolve (cl : Clu) (s : State) : Res := .next (unitLaunch s cl false (· == 8) (reRun cl))
/-- MSPILL (R132, R137). -/
def execMspill (cl : Clu) (s : State) : Res := .next (unitLaunch s cl false (· == 9) (reRun cl))
/-- MFILL (R132, R137). -/
def execMfill (cl : Clu) (s : State) : Res := .next (unitLaunch s cl false (· == 10) (reRun cl))
/-- RE_COMMAND_COMPLETE (R138). -/
def execReCommandComplete (cl : Clu) (s : State) : Res := .next (unitComplete s cl false)

/-- RE_PIVOT_FLAG_CLEAR (R141, R457): flags written as 1 clear, unless hardware sets them in the
same clock. -/
def execRePivotFlagClear (cl : Clu) (hi : Bool) (v hw : W32) (s : State) : Res :=
  .next (
    let o := if hi then 0x104 else 0x100
    let off := at' (pgRE cl.q.val cl.c.val) o
    hostWrite s (pgRE cl.q.val cl.c.val) o (fun s => setReg s off ((reg s off &&& ~~~v) ||| hw)))

end Sys2Proof.Machine
end

