-- ==== Sys2Proof/Machine/Route.lean ====
section
/-! DEFINITION. Meanings: the route unit (R193 to R211). -/

namespace Sys2Proof.Machine

/-! ## Fields and checks (R194 to R196) -/

def rtFmt (w : W256) : Nat := fld w 225 222
def rtTag (w : W256) : Nat := fld w 221 212
def rtK (w : W256) : Nat := fld w 211 208
def rtWM (w : W256) : Nat := fld w 207 206
def rtRnd (w : W256) : Nat := fld w 205 204
def rtMI (w : W256) : Nat := fld w 203 201
def rtCC (w : W256) : Option Nat := if bit w 195 then some (fld w 200 196) else none
def rtSrc (w : W256) : Nat := fld w 191 173
def rtAux (w : W256) : Nat := fld w 172 154
def rtDst (w : W256) : Nat := fld w 153 135
def rtLst (w : W256) : Nat := fld w 134 116
def rtN (w : W256) : Nat := fld w 111 96
def rtE (w : W256) : Nat := fld w 95 87
def rtCapt (w : W256) : Nat := fld w 86 79
def rtCols (w : W256) : Nat := fld w 78 63
def rtNL (w : W256) : Nat := fld w 62 58
def rtRG (w : W256) : Nat := fld w 57 50

def rtCap (w : W256) : Nat := 64 * rtCapt w
def rtSz (w : W256) : Nat := fmtBytes (rtFmt w)
/-- Lines of a row and of a record, p and pr. -/
def rtP (w : W256) : Nat := cdiv (rtCols w * rtSz w) 64
def rtPr (w : W256) : Nat := cdiv (8 + 2 * rtCols w) 64

/-- RT_FORMAT (R195, R202, R203). FMT has the two codes 0 and 1 (R194). CC and CCE are used by every opcode but NOP
and END, with CCE = 0 too (R195). -/
def rtFormatBad (w : W256) : Bool :=
  let op := cmOp w
  let nz := fun (n : Nat) => decide (n ≠ 0)
  let rsv := nz (fld w 194 192) || nz (fld w 115 112) || nz (fld w 49 0)
  let fmt := nz (rtFmt w)
  let tag := nz (rtTag w)
  let k := nz (rtK w)
  let wm := nz (rtWM w)
  let rnd := nz (rtRnd w)
  let mi := nz (rtMI w)
  let src := nz (rtSrc w)
  let aux := nz (rtAux w)
  let lst := nz (rtLst w)
  let ec := nz (rtE w) || nz (rtCapt w)
  let cols := nz (rtCols w)
  let nl := nz (rtNL w)
  let rg := nz (rtRG w)
  let base := rsv || decide (1 < rtFmt w) || decide (rtRnd w = 3) || decide (rtWM w = 3)
  if op ≤ 1 then decide (w.toNat % 2 ^ 226 ≠ 0)
  else if op = 2 then base || tag || rnd || cols || nl || rg
  else if op = 3 then base || k || mi || lst || nl || rg || decide (rtWM w = 2)
  else if op = 4 then base || mi || nl || rg || decide (rtWM w = 2)
  else if op = 5 then base || tag || wm || rnd || mi || nl || rg
  else if op = 6 then base || tag || k || wm || rnd || mi || src || aux || ec || nl
  else if op = 7 then base || k || wm || mi || aux || ec || nl || rg
  else if op = 8 then base || fmt || k || wm || mi || aux || lst || ec || rg
  else true

/-- Pool operands of a command with their extents in bytes (R196). -/
def rtOperands (w : W256) : List (Nat × Nat) :=
  let op := cmOp w
  let n := rtN w
  let cells := rtE w * rtCap w
  let lists := cells * 8 + 4 * rtE w
  let pt := 64 * rtP w
  let rs := 64 * rtPr w
  if op = 2 then [(rtSrc w, n * (64 * cdiv (rtE w * rtSz w) 64)), (rtAux w, 192), (rtDst w, lists),
                  (rtLst w, n * rtK w * 4)]
  else if op = 3 then [(rtSrc w, n * pt), (rtAux w, lists), (rtDst w, cells * pt)]
  else if op = 4 then [(rtSrc w, cells * pt), (rtAux w, lists), (rtDst w, n * pt), (rtLst w, n * rtK w * 4)]
  else if op = 5 then [(rtSrc w, n * pt), (rtAux w, cells * pt), (rtDst w, n * rtK w * 4),
                       (rtLst w, n * rtK w * 4)]
  else if op = 6 then [(rtDst w, n * pt), (rtLst w, 4 * n)]
  else if op = 7 then [(rtSrc w, n * pt), (rtDst w, n * rs), (rtLst w, 4 * n)]
  else [(rtSrc w, rtNL w * n * rs), (rtDst w, rtNL w * n * rs)]

/-- Region RG of the job. -/
def rtRegion (s : State) (j : Nat) (w : W256) : W128 := (regionsOf s j).getD (rtRG w) 0

/-- GATHER's region lacks LR or does not lie in HBM of the cluster's own quadrant (R196). -/
def rtRegionBad (s : State) (j : Nat) (cl : Clu) (w : W256) : Bool :=
  let r := rtRegion s j w
  !rgPerm r 35 || decide (1 < rgSpace r)
  || (match rgGA s r with | some g => g.q != cl.q.val | none => true)

/-- The code that a command raises at the launch edge, if any (R195, R196). -/
def rtCheck (s : State) (j : Nat) (cl : Clu) (w : W256) : Option Nat :=
  let op := cmOp w
  if rtFormatBad w then some 0x0901
  else if op ≤ 1 then none
  else if rtN w = 0 ∨ (op ≤ 5 ∧ (rtE w = 0 ∨ rtCapt w = 0 ∨ 256 < rtE w))
      ∨ ((op = 2 ∨ op = 4 ∨ op = 5) ∧ (rtK w = 0 ∨ 8 < rtK w ∨ rtE w < rtK w))
      ∨ (3 ≤ op ∧ rtCols w = 0) ∨ (op = 8 ∧ (rtNL w = 0 ∨ 16 < rtNL w)) then some 0x0902
  else if (rtOperands w).any (fun x => decide (31457280 < 64 * x.1 + x.2))
      || (op == 6 && rtRegionBad s j cl w) then some 0x0903
  else none

/-- ceil(log2 n). -/
def clog2 (n : Nat) : Nat := if n ≤ 1 then 0 else Nat.log2 (n - 1) + 1

/-- Issue interval (R211). -/
def rtInterval (w : W256) : Nat :=
  let op := cmOp w
  let n := rtN w
  let p4 := cdiv (rtP w) 4
  if op = 2 then 64 + n * (cdiv (rtE w * rtSz w) 256 + rtK w) + cdiv (rtE w * rtCap w * 8) 256
  else if op = 3 then 32 + rtE w * rtCap w * p4
  else if op = 4 then 32 + n * (rtK w * p4 + 1)
  else if op = 5 then 32 + n * rtK w * 2 * p4
  else if op = 6 then 32 + cdiv n 64 + n * p4 + 240
  else if op = 7 then 32 + cdiv n 64 + cdiv (n * clog2 (max n 2)) 16 + n * cdiv (rtPr w) 4
  else 32 + cdiv (rtNL w * n) 4 + rtNL w * n * cdiv (rtPr w) 4

/-! ## Pool helpers -/

def rtAddr (cl : Clu) (base off : Nat) : Nat := poolAddr cl.q.val cl.c.val (64 * base + off)
/-- Row r of packed rows: exact values. -/
def rtRow (s : State) (cl : Clu) (w : W256) (base r : Nat) : List Ext :=
  packedRow (rdByte s) (poolRowAt cl base (rtP w) r) (rtFmt w) (rtCols w)
def rtNum (s : State) (cl : Clu) (base off n : Nat) : Nat := rdNum s (rtAddr cl base off) n
/-- Addresses of n bytes of an operand. -/
def rtBytes (cl : Clu) (base off n : Nat) : List Nat := (List.range n).map (fun b => rtAddr cl base off + b)
/-- Addresses of a packed row. -/
def rtRowBytes (cl : Clu) (w : W256) (base r : Nat) : List Nat :=
  rtBytes cl base (64 * rtP w * r) (rtCols w * rtSz w)

/-- A route command as launched; its draws have unit 2 and core 0x7E (R205). -/
def rtCmd (s : State) (cl : Clu) (jt : Nat) (w : W256) : CmdFly := newCmd s cl jt w (rtCC w) (rtTag w) 0x7E

/-- Bytes of a destination row of exact values, rounded by RND under TAG. -/
def rtEncode (d : Draw) (rnd fmt cols r : Nat) (xs : List Ext) : List Byte :=
  let us := (List.range xs.length).map (fun i => if rnd = 1 then drawAt d cols r i else 0)
  (encodeRow fmt rnd us (fun _ => 0) 0 xs).bytes

/-! ## GATE (R197 to R201) -/

/-- a ranks before b: higher first, NaN below -inf, equal values by lower index. -/
def gateBefore (a b : Ext × Nat) : Bool :=
  if a.1.isNan then b.1.isNan && decide (a.2 < b.2)
  else if b.1.isNan then true
  else if Ext.cmp a.1 b.1 = 1 then true
  else decide (Ext.cmp a.1 b.1 = 0) && decide (a.2 < b.2)

/-- Insert into a ranked list. -/
def gateIns (x : Ext × Nat) : List (Ext × Nat) → List (Ext × Nat)
  | [] => [x]
  | y :: r => if gateBefore x y then x :: y :: r else y :: gateIns x r

/-- The logits of a token ranked. -/
def gateRank (xs : List Ext) : List (Ext × Nat) :=
  ((xs.zip (List.range xs.length))).foldl (fun a x => gateIns x a) []

/-- Soft-maximum of values by the arithmetic of SMXF (R133). -/
def softmax (xs : List Ext) : List W32 := (smxRow xs).2.2.map rne

/-- Choices of a token: expert and weight by rank (R197). -/
def gateToken (w : W256) (xs : List Ext) : List (Nat × W32) :=
  let top := (gateRank xs).take (rtK w)
  if rtWM w = 0 then
    let sm := softmax xs
    top.map (fun t => (t.2, sm.getD t.2 0))
  else if rtWM w = 1 then
    ((top.map Prod.snd).zip (softmax (top.map Prod.fst)))
  else top.map (fun t => (t.2, rne t.1))

/-- State of the slot assignment: counts, list entries by expert * CAP + slot, table words by t * K + r,
assignments and drops by expert. -/
structure GateSt where
  cnt   : Tab Nat
  lists : Tab W64
  asg   : Tab W32
  acc   : Tab Nat
  drop  : Tab Nat
deriving DecidableEq, Repr

/-- One choice of token t at rank r. -/
def gatePut (w : W256) (r : Nat) (g : GateSt) (t : Nat) (c : Nat × W32) : GateSt :=
  let x := c.1
  let n := tget 0 g.cnt x
  if n < rtCap w then
    { g with
      cnt := tput 0 g.cnt x (n + 1)
      lists := tput 0 g.lists (x * rtCap w + n)
        (BitVec.ofNat 64 (c.2.toNat * 2 ^ 32 + 2 ^ 31 + r * 2 ^ 16 + t % 65536))
      asg := tput 0 g.asg (t * rtK w + r) (BitVec.ofNat 32 (2 ^ 31 + r * 2 ^ 24 + n * 2 ^ 8 + x))
      acc := tput 0 g.acc x (tget 0 g.acc x + 1) }
  else
    { g with
      asg := tput 0 g.asg (t * rtK w + r) (BitVec.ofNat 32 (r * 2 ^ 24 + x))
      drop := tput 0 g.drop x (tget 0 g.drop x + 1) }

/-- All choices, every first choice before any second (R197). -/
def gateAssign (w : W256) (cs : List (List (Nat × W32))) : GateSt :=
  (List.range (rtK w)).foldl (fun g r =>
    ((List.range cs.length).zip cs).foldl (fun g e =>
      match e.2[r]? with
      | some c => gatePut w r g e.1 c
      | none => g) g) { cnt := [], lists := [], asg := [], acc := [], drop := [] }

/-- The mask of R200 from the core map and the counts. -/
def gateMask (s : State) (cl : Clu) (w : W256) (g : GateSt) : BitVec 96 :=
  BitVec.ofNat 96 (sumNat ((List.range 96).map (fun j =>
    let m := rtNum s cl (rtAux w) (2 * j) 2
    if m ≠ 0xFFFF ∧ 64 * (m / 256) < tget 0 g.cnt (m % 256) then 2 ^ j else 0)))

/-- Logits of token t. -/
def rtLogits (s : State) (cl : Clu) (w : W256) (t : Nat) : List Ext :=
  packedRow (rdByte s) (poolRowAt cl (rtSrc w) (cdiv (rtE w * rtSz w) 64) t) (rtFmt w) (rtE w)

/-- The slot assignment of a GATE from its logits. -/
def gateRun (s : State) (cl : Clu) (w : W256) : GateSt :=
  gateAssign w ((List.range (rtN w)).map (fun t => gateToken w (rtLogits s cl w t)))

/-- What GATE computes (R197 to R200). -/
def rtGate (s : State) (cl : Clu) (f : CmdFly) : CmdFly :=
  let w := f.w
  let g := gateRun s cl w
  let ls := cellsAt (rtAddr cl (rtDst w) 0)
    (((List.range (rtE w * rtCap w)).flatMap (fun i => bytesOf 8 (tget 0 g.lists i).toNat))
      ++ (List.range (rtE w)).flatMap (fun x => bytesOf 4 (tget 0 g.cnt x)))
  let as := cellsAt (rtAddr cl (rtLst w) 0)
    ((List.range (rtN w * rtK w)).flatMap (fun i => bytesOf 4 (tget 0 g.asg i).toNat))
  { f with
    out := ls ++ as, mask := some (rtMI w, gateMask s cl w g)
    nan := ((List.range (rtN w)).filter (fun t => (rtLogits s cl w t).any Ext.isNan)).length
    experts := (List.range (rtE w)).filterMap (fun x =>
      let a := tget 0 g.acc x
      let d := tget 0 g.drop x
      if a = 0 ∧ d = 0 then none else some (x, a, d)) }

/-! ## DISPATCH, COMBINE, WGRAD (R202 to R204) -/

/-- List entry of slot i (expert * CAP + slot). -/
def listEntry (s : State) (cl : Clu) (w : W256) (i : Nat) : W64 := BitVec.ofNat 64 (rtNum s cl (rtAux w) (8 * i) 8)

/-- Row i of DISPATCH (R202). -/
def rtDispatch (s : State) (cl : Clu) (f : CmdFly) (i : Nat) : CmdFly :=
  let w := f.w
  let nb := rtCols w * rtSz w
  let e := listEntry s cl w i
  let t := fld e 15 0
  let row :=
    if !bit e 31 then List.replicate nb (0 : Byte)
    else if rtWM w = 0 then rdBytes s (rtAddr cl (rtSrc w) (t * (64 * rtP w))) nb
    else
      let x := val (BitVec.ofNat 32 (fld e 63 32))
      rtEncode f.draw (rtRnd w) (rtFmt w) (rtCols w) i ((rtRow s cl w (rtSrc w) t).map (Ext.mul x))
  { f with out := cellsAt (rtAddr cl (rtDst w) (i * (64 * rtP w))) row }

/-- Assignment (t, r): valid, and expert * CAP + slot. -/
def asgEntry (s : State) (cl : Clu) (w : W256) (t r : Nat) : Bool × Nat :=
  let a : W32 := BitVec.ofNat 32 (rtNum s cl (rtLst w) (4 * (t * rtK w + r)) 4)
  (bit a 31, fld a 7 0 * rtCap w + fld a 23 8)

/-- Row t of COMBINE (R203). -/
def rtCombine (s : State) (cl : Clu) (f : CmdFly) (t : Nat) : CmdFly :=
  let w := f.w
  let acc := (List.range (rtK w)).foldl (fun (acc : List W32) r =>
    let a := asgEntry s cl w t r
    if a.1 then
      let x := if rtWM w = 1 then val (BitVec.ofNat 32 (fld (listEntry s cl w a.2) 63 32)) else Ext.one
      (acc.zip (rtRow s cl w (rtSrc w) a.2)).map (fun p => rne (Ext.add (val p.1) (Ext.mul x p.2)))
    else acc) (List.replicate (rtCols w) 0)
  let bs := rtEncode f.draw (rtRnd w) (rtFmt w) (rtCols w) t (acc.map val)
  { f with out := cellsAt (rtAddr cl (rtDst w) (t * (64 * rtP w))) bs }

/-- Element i = t K + r of WGRAD (R204). -/
def rtWgrad (s : State) (cl : Clu) (f : CmdFly) (i : Nat) : CmdFly :=
  let w := f.w
  let t := i / rtK w
  let a := asgEntry s cl w t (i % rtK w)
  let x : W32 := if a.1 then
      (rowSum (((rtRow s cl w (rtSrc w) t).zip (rtRow s cl w (rtAux w) a.2)).map (fun p => Ext.mul p.1 p.2))).1
    else 0
  { f with out := cellsAt (rtAddr cl (rtDst w) (4 * i)) (bytesOf 4 x.toNat) }

/-! ## GATHER, PACK, MERGE (R207 to R210) -/

/-- Index i of the list at LST. -/
def lstIndex (s : State) (cl : Clu) (w : W256) (i : Nat) : Nat := rtNum s cl (rtLst w) (4 * i) 4
def nullIdx : Nat := 0xFFFFFFFF

/-- First entry of GATHER's list that is not below the row count (R207). -/
def gatherBad (s : State) (j : Nat) (cl : Clu) (w : W256) : Option Nat :=
  let rows := rgLen (rtRegion s j w) / (64 * rtP w)
  (List.range (rtN w)).find? (fun i =>
    let x := lstIndex s cl w i
    decide (x ≠ nullIdx) && decide (rows ≤ x))

/-- Addresses of the bytes of a table row. -/
def tableRow (s : State) (j : Nat) (w : W256) (x : Nat) : List Nat :=
  match rgGA s (rtRegion s j w) with
  | some g => (List.range (rtCols w * rtSz w)).map (fun b => gaByte g (g.byte + x * (64 * rtP w) + b))
  | none => []

/-- A GATHER takes bytes 256 c on of destination row i: a null row is +0 and counts, else the lines of the table row
are read as the stack accepts them (R151, R207). The rule places neither port nor cycle; the requests go at the pace
of I, in memory-port slots (log 123). -/
def rtGatherRow (s : State) (j : Nat) (cl : Clu) (f : CmdFly) (i c : Nat) : State × CmdFly :=
  let w := f.w
  let as := ((tableRow s j w (tget 0 f.nums i).toNat).drop (256 * c)).take 256
  let n := min 256 (rtCols w * rtSz w - 256 * c)
  let keep := fun (bs : List Byte) => { f with held := f.held ++ [(i, c, bs)] }
  if (tget 0 f.nums i).toNat = nullIdx then
    (if c = 0 then bump s (at' (pgRT cl.q.val cl.c.val) 0x110) 1 else s, keep (List.replicate n 0))
  else
    let who := whoOf s cl.q.val
    let p := (linesOf as).foldl (fun (a : State × Bool) l => if a.2 then portAccept a.1 j who l else a) (s, true)
    let rc := if p.2 then readCheck p.1 who as else p
    (rc.1, if rc.2 then keep (as.map (rdByte rc.1)) else f)

/-- Bytes 256 c on of row i of a GATHER reach the pool. -/
def rtGathered (cl : Clu) (f : CmdFly) (i c : Nat) : CmdFly :=
  match f.held.find? (fun h => h.1 == i && h.2.1 == c) with
  | some h => { f with held := f.held.erase h
                       out := cellsAt (rtAddr cl (rtDst f.w) (i * (64 * rtP f.w) + 256 * c)) h.2.2 }
  | none => f

/-- Record bytes of R208: index, count, BF16 values. -/
def ivRecord (w : W256) (x n : Nat) (vals : List Byte) : List Byte :=
  fit 0 (64 * rtPr w) (bytesOf 4 x ++ bytesOf 2 (min n 65535) ++ [0, 0] ++ vals)

/-- A null record. -/
def ivNull (w : W256) : List Byte := ivRecord w nullIdx 0 []

/-- Insert an index into a strictly rising list. -/
def insIdx (x : Nat) : List Nat → List Nat
  | [] => [x]
  | y :: r => if x < y then x :: y :: r else if x = y then y :: r else y :: insIdx x r

/-- Distinct indices, rising. -/
def distinctIdx (xs : List Nat) : List Nat := xs.foldl (fun a x => insIdx x a) []

/-- Where a command keeps its sorted distinct indices, and how many there are; the list itself stands from 0 on. -/
def keySorted : Nat := 2 ^ 20
def keyCount : Nat := 2 ^ 21

/-- The index list of a command, read and sorted (R207, R209, R210). -/
def keepList (f : CmdFly) (xs : List Nat) : CmdFly :=
  let vs := distinctIdx (xs.filter (· != nullIdx))
  { f with nums := wordsFrom 0 (xs.map (BitVec.ofNat 32)) ++ wordsFrom keySorted (vs.map (BitVec.ofNat 32))
             ++ wordsFrom keyCount [BitVec.ofNat 32 vs.length] }

/-- Positions of the list at which index v stands. -/
def listPos (f : CmdFly) (n : Nat) (v : W32) : List Nat := (List.range n).filter (fun i => tget 0 f.nums i == v)

/-- Output record e of PACK or MERGE: null from the distinct count on (R209, R210); `rows` are the values at a list
position, `cnt` its contributions, `n` the length of the list. -/
def rtRecord (cl : Clu) (f : CmdFly) (n e : Nat) (rows : Nat → List Ext) (cnt : Nat → Nat) : CmdFly :=
  let w := f.w
  let v := tget 0 f.nums (keySorted + e)
  let is := listPos f n v
  let acc := is.foldl (fun (acc : List W32) i => (acc.zip (rows i)).map (fun p => rne (Ext.add (val p.1) p.2)))
    (List.replicate (rtCols w) 0)
  let bs := if e < (tget 0 f.nums keyCount).toNat then
      ivRecord w v.toNat (sumNat (is.map cnt)) (rtEncode f.draw (rtRnd w) 1 (rtCols w) e (acc.map val))
    else ivNull w
  { f with out := cellsAt (rtAddr cl (rtDst w) (e * (64 * rtPr w))) bs }

/-- Positions that record e of PACK or MERGE sums. -/
def recPos (f : CmdFly) (n e : Nat) : List Nat :=
  if e < (tget 0 f.nums keyCount).toNat then listPos f n (tget 0 f.nums (keySorted + e)) else []

/-- INDEX of record r of list i. -/
def mergeIdx (s : State) (cl : Clu) (w : W256) (i r : Nat) : Nat :=
  rtNum s cl (rtSrc w) ((i * rtN w + r) * (64 * rtPr w)) 4

/-- Indices of a list rise strictly over its non-null records. -/
def risingIdx : Option Nat → List Nat → Bool
  | _, [] => true
  | p, x :: r =>
    if x = nullIdx then risingIdx p r
    else (match p with | some y => decide (y < x) | none => true) && risingIdx (some x) r

/-- Some list of MERGE is not sorted, with the position of the first such list (R210). -/
def mergeBad (s : State) (cl : Clu) (w : W256) : Bool :=
  (List.range (rtNL w)).any (fun i => !risingIdx none ((List.range (rtN w)).map (mergeIdx s cl w i)))

/-- Values and count of input record i of MERGE. -/
def mergeRow (s : State) (cl : Clu) (w : W256) (i : Nat) : List Ext :=
  (List.range (rtCols w)).map (fun c => bfVal (rtNum s cl (rtSrc w) (i * (64 * rtPr w) + 8 + 2 * c) 2))
def mergeCnt (s : State) (cl : Clu) (w : W256) (i : Nat) : Nat := rtNum s cl (rtSrc w) (i * (64 * rtPr w) + 4) 2

/-! ## Events (R211) -/

/-- What a step has formed is written. -/
def wroteEv (t grp : Nat) : Ev := { at' := t, kind := .wr, grp := grp, sub := 0, line := 0, prio := 0 }

/-- Steps of a command: each is worked out in its cycle and written in it. `t` is the last cycle of step 0, which
reads a list and writes nothing, `first` the cycle after which rows come, `n` the rows and `p` the cycles of each. -/
def rtSteps (t first n p : Nat) : List Ev :=
  (if t = 0 then [] else [calcEv (t - 1) 0 0])
    ++ (List.range n).flatMap (fun i =>
      [calcEv (first + (i + 1) * p - 1) i 1, wroteEv (first + (i + 1) * p - 1) i])

/-- Events of GATHER: its list, then the requests row by row at four lines a cycle, each written 240 cycles later. -/
def gatherPlan (w : W256) : List Ev :=
  let t := 32 + cdiv (rtN w) 64
  let p4 := cdiv (rtP w) 4
  let n := rtN w * p4
  calcEv (t - 1) 0 0 :: (List.range (n + 240)).flatMap (fun x =>
    (if x < n then [calcEv (t + x) (x / p4) (1 + x % p4)] else [])
    ++ (if 240 ≤ x then
          [calcEv (t + x) ((x - 240) / p4) (2 ^ 20 + (x - 240) % p4),
           wroteEv (t + x) ((x - 240) / p4)] else []))

/-- Events of a route command. DESIGN CHOICE: R211 gives the interval and no cycle of an access. A command works row by
row at the pace that the formula of its interval gives a row; its pool accesses stand in the slots that the table grants
it and so meet nothing (log 123). -/
def rtPlan (w : W256) : List Ev :=
  let op := cmOp w
  let n := rtN w
  let p4 := cdiv (rtP w) 4
  let pr4 := cdiv (rtPr w) 4
  if op = 2 then rtSteps 0 (rtInterval w - 1) 1 1
  else if op = 3 then rtSteps 0 32 (rtE w * rtCap w) p4
  else if op = 4 then rtSteps 0 32 n (rtK w * p4 + 1)
  else if op = 5 then rtSteps 0 32 (n * rtK w) (2 * p4)
  else if op = 6 then gatherPlan w
  else if op = 7 then
    let t := 32 + cdiv n 64 + cdiv (n * clog2 (max n 2)) 16
    rtSteps t t n pr4
  else
    let t := 32 + cdiv (rtNL w * n) 4
    rtSteps t t (rtNL w * n) pr4

/-- Bytes that a step reads. -/
def rtReads (s : State) (cl : Clu) (f : CmdFly) (e : Ev) : List Nat :=
  let w := f.w
  let op := cmOp w
  let n := rtN w
  let asgs := fun t r => rtBytes cl (rtLst w) (4 * (t * rtK w + r)) 4
  if op = 2 then
    (List.range n).flatMap (fun t => rtBytes cl (rtSrc w) (64 * cdiv (rtE w * rtSz w) 64 * t) (rtE w * rtSz w))
      ++ rtBytes cl (rtAux w) 0 192
  else if op = 3 then
    let x := listEntry s cl w e.grp
    rtBytes cl (rtAux w) (8 * e.grp) 8 ++ (if bit x 31 then rtRowBytes cl w (rtSrc w) (fld x 15 0) else [])
  else if op = 4 then (List.range (rtK w)).flatMap (fun r =>
    let a := asgEntry s cl w e.grp r
    asgs e.grp r ++ (if a.1 then rtRowBytes cl w (rtSrc w) a.2
      ++ (if rtWM w = 1 then rtBytes cl (rtAux w) (8 * a.2) 8 else []) else []))
  else if op = 5 then
    let a := asgEntry s cl w (e.grp / rtK w) (e.grp % rtK w)
    asgs (e.grp / rtK w) (e.grp % rtK w)
      ++ (if a.1 then rtRowBytes cl w (rtSrc w) (e.grp / rtK w) ++ rtRowBytes cl w (rtAux w) a.2 else [])
  else if op = 8 then
    if e.sub = 0 then (List.range (rtNL w * n)).flatMap (fun i => rtBytes cl (rtSrc w) (i * (64 * rtPr w)) 4)
    else (recPos f (rtNL w * n) e.grp).flatMap (fun i =>
      rtBytes cl (rtSrc w) (i * (64 * rtPr w) + 4) 2 ++ rtBytes cl (rtSrc w) (i * (64 * rtPr w) + 8) (2 * rtCols w))
  else if e.sub = 0 then rtBytes cl (rtLst w) 0 (4 * n)
  else if op = 7 then (recPos f n e.grp).flatMap (rtRowBytes cl w (rtSrc w))
  else []

/-- A command that a fault of its own ends writes nothing more. -/
def rtDead (s : State) (cl : Clu) (f : CmdFly) (code hi : Nat) : State × CmdFly :=
  (unitFault s cl.key true code (cmOff f.w) (cmOp f.w) hi, { f with plan := [], out := [] })

/-- A step of a route command whose bytes have been read. -/
def rtWork (s : State) (j : Nat) (cl : Clu) (f : CmdFly) (e : Ev) : State × CmdFly :=
  let w := f.w
  let op := cmOp w
  let n := rtN w
  let xs := (List.range n).map (lstIndex s cl w)
  if op = 2 then (s, rtGate s cl f)
  else if op = 3 then (s, rtDispatch s cl f e.grp)
  else if op = 4 then (s, rtCombine s cl f e.grp)
  else if op = 5 then (s, rtWgrad s cl f e.grp)
  else if op = 6 then
    if e.sub = 0 then
      match gatherBad s j cl w with
      | some i => rtDead s cl f 0x0907 i
      | none => (s, keepList f xs)
    else if e.sub < 2 ^ 20 then rtGatherRow s j cl f e.grp (e.sub - 1)
    else (s, rtGathered cl f e.grp (e.sub - 2 ^ 20))
  else if op = 7 then
    (s, if e.sub = 0 then keepList f xs else rtRecord cl f n e.grp (rtRow s cl w (rtSrc w)) (fun _ => 1))
  else if e.sub = 0 then
    if mergeBad s cl w then rtDead s cl f 0x0908 0
    else (s, keepList f ((List.range (rtNL w * n)).map (fun i => rtNum s cl (rtSrc w) (i * (64 * rtPr w)) 4)))
  else (s, rtRecord cl f (rtNL w * n) e.grp (mergeRow s cl w) (mergeCnt s cl w))

/-- An event of a route command (R197 to R211): a step reads and works, and what it forms is written in its cycle. -/
def rtEvent (s : State) (cl : Clu) (f : CmdFly) (e : Ev) : State × CmdFly :=
  match e.kind with
  | .wr => (store s (whoOf s cl.q.val) f.out, { f with out := [] })
  | _ =>
    match jobOn s cl.q.val with
    | none => (s, f)
    | some j =>
      let rc := readCheck s (whoOf s cl.q.val) (rtReads s cl f e)
      if rc.2 then rtWork rc.1 j cl f e else (rc.1, { f with plan := [], out := [] })

/-- A route command at its launch edge (R196): latched and checked, then run. -/
def rtRun (cl : Clu) (s : State) (j jt : Nat) (w : W256) : State :=
  match rtCheck s j cl w with
  | some code => unitFault s cl.key true code (cmOff w) (cmOp w) 0
  | none =>
    if cmOp w = 0 then countCmd s cl.key true
    else if cmOp w = 1 then unitEnd s cl true
    else
      let s := unitIssue s cl true (rtInterval w) (rtCmd s cl jt w) (rtPlan w)
      if cmOp w = 2 then
        setClu s cl.key { getClu s cl.key with
          gate := some { mi := rtMI w, off := cmOff w, launch := s.clk.dst, due := s.clk.dst + cyc (rtInterval w) } }
      else s

/-! ## MSET and a running GATE (R64, R82, R201) -/

/-- Replace word PART of a mask (R82). -/
def maskWord (m : BitVec 96) (part : Nat) (v : W32) : BitVec 96 :=
  let hole : BitVec 96 := ~~~((0xFFFFFFFF : BitVec 96) <<< (32 * part))
  (m &&& hole) ||| ((v.setWidth 96) <<< (32 * part))

/-- The GATE that an MSET of mask `mi` meets. -/
def gateMeets (s : State) (k : Cluster) (mi : Nat) : Option GateRun :=
  match k.gate with
  | some g => if g.mi = mi ∧ g.launch ≤ s.clk.dst ∧ s.clk.dst ≤ g.due then some g else none
  | none => none

/-- The collision of R201: the GATE's mask is written, the MSET is dropped, counted and logged under the route unit's
page, and the job faults. The job's units stop before launch + I, so the mask is formed from the pool as it stands and
its write retires at launch + I (DESIGN CHOICE: the rule asks for the write and the fault stops the GATE, log 123). -/
def gateWins (s : State) (cl : Clu) (g : GateRun) : State :=
  let s := match (getClu s cl.key).rt.fly.find? (fun f => cmOp f.w == 2 && f.due == g.due) with
    | some f => writeMask s cl g.due (some (g.mi, match f.mask with
        | some m => m.2
        | none => gateMask s cl f.w (gateRun s cl f.w)))
    | none => s
  unitFault (bump s (at' (pgCLU cl.q.val cl.c.val) 0x104) 1) cl.key true 0x0909 g.off 2 0

/-- MSET (R64, R82). -/
def execMset (cl : Clu) (s : State) : Res :=
  .next (ctlStep s cl (fun op => op == 0x10) (fun _ w jt =>
    let part := fld w 22 21
    let fn := fld w 14 12
    if part = 3 ∨ 3 < fn ∨ fld w 11 0 ≠ 0 then none
    else
      let k := getClu s cl.key
      let mi := fld w 25 23
      let m := curM k mi
      let old : W32 := BitVec.ofNat 32 (m.toNat >>> (32 * part))
      let a := curS k (fld w 20 15)
      let v := if fn = 0 then a else if fn = 1 then old &&& a else if fn = 2 then old ||| a else old &&& ~~~a
      match gateMeets s k mi with
      | some g => ctlNext (gateWins s cl g) cl
      | none => ctlNext (setClu s cl.key (regWrite k jt (64 + mi) (maskWord m part v))) cl))

/-! ## Rows of the table -/

/-- RT_FETCH_SLOT (R193). -/
def execRtFetchSlot (cl : Clu) (s : State) : Res := .next (unitFetch s cl true)
/-- RT_NOP (R195); a command with a reserved opcode raises RT_FORMAT here (log 22). -/
def execRtNop (cl : Clu) (s : State) : Res :=
  .next (unitLaunch s cl true (fun op => op == 0 || decide (8 < op)) (rtRun cl))
/-- RT_END (R195). -/
def execRtEnd (cl : Clu) (s : State) : Res := .next (unitLaunch s cl true (· == 1) (rtRun cl))
/-- GATE (R197). -/
def execGate (cl : Clu) (s : State) : Res := .next (unitLaunch s cl true (· == 2) (rtRun cl))
/-- DISPATCH (R202). -/
def execDispatch (cl : Clu) (s : State) : Res := .next (unitLaunch s cl true (· == 3) (rtRun cl))
/-- COMBINE (R203). -/
def execCombine (cl : Clu) (s : State) : Res := .next (unitLaunch s cl true (· == 4) (rtRun cl))
/-- WGRAD (R204). -/
def execWgrad (cl : Clu) (s : State) : Res := .next (unitLaunch s cl true (· == 5) (rtRun cl))
/-- GATHER (R207). -/
def execGather (cl : Clu) (s : State) : Res := .next (unitLaunch s cl true (· == 6) (rtRun cl))
/-- PACK (R209). -/
def execPack (cl : Clu) (s : State) : Res := .next (unitLaunch s cl true (· == 7) (rtRun cl))
/-- MERGE (R210). -/
def execMerge (cl : Clu) (s : State) : Res := .next (unitLaunch s cl true (· == 8) (rtRun cl))
/-- RT_COMMAND_COMPLETE (R211). -/
def execRtCommandComplete (cl : Clu) (s : State) : Res := .next (unitComplete s cl true)

/-- RT_CLR (R213): RT_SEL takes the expert, and CLR zeroes its counters; what a GATE added in this core cycle stays. -/
def execRtClr (cl : Clu) (v : W32) (s : State) : Res :=
  .next (hostWrite s (pgRT cl.q.val cl.c.val) 0x100 (fun s =>
    let x := fld v 7 0
    let s := setReg s (at' (pgRT cl.q.val cl.c.val) 0x100) (BitVec.ofNat 32 x)
    if bit v 31 then
      let k := getClu s cl.key
      let late := if k.gateUpd.1 = s.clk.dst / 4 then k.gateUpd.2.filter (fun e => e.1 == x) else []
      setClu s cl.key (late.foldl countExpert { k with assign := tput 0 k.assign x 0, drop := tput 0 k.drop x 0 })
    else s))

end Sys2Proof.Machine
end

