-- ==== Sys2Proof/Machine/Engine.lean ====
section
/-! DEFINITION. A core cycle on the grid: the accesses that meet (R45, R116, R147, R481), the events of the
operations in flight, and what happens when the cycle ends. -/

namespace Sys2Proof.Machine

/-- An access of this core cycle: the bank or port it uses, the operation it belongs to, its priority, the 64 B
line, whether it writes, and the user whose slots of a pool it stands in (R147). -/
structure Use where
  res  : Nat
  op   : Nat
  prio : Nat
  line : Nat
  wr   : Bool
  user : SlotUse
deriving DecidableEq, Repr

/-- Events of a plan whose Datestamp has come. -/
def dueEvs (s : State) (p : List Ev) : List Ev := p.takeWhile (fun e => decide (e.at' ≤ s.clk.dst))

/-- Accesses of a plan in this cycle. -/
def usesOf (s : State) (user : Bool → SlotUse) (op : Nat) (p : List Ev) : List Use :=
  (dueEvs s p).filterMap (fun e =>
    match e.kind with
    | .calc => none
    | k => (resOf e.line (k == .wr)).map (fun r => ⟨r, op, e.prio, e.line, k == .wr, user (k == .wr)⟩))

/-- Number of an operation: its core, its unit (0 matrix, 1 stream, 2 LDTD or STTD, 3 move) and its place; a row
engine's, after those of the cores, under its cluster. -/
def opId (key unit i : Nat) : Nat := (key * 4 + unit) * 1024 + i

/-- Accesses of the operations of a list. -/
def listUses {α : Type} (s : State) (key unit : Nat) (user : Bool → SlotUse)
    (plan : α → List Ev) (l : List α) : List Use :=
  ((List.range l.length).zip l).flatMap (fun e => usesOf s user (opId key unit e.1) (plan e.2))

/-- A core reaches a pool through the core network and writes one through the quadrant network (R45). -/
def coreUser (wr : Bool) : SlotUse := if wr then .poolNet else .poolCore

/-- First key after the cores'. -/
def cluKey (k : Nat) : Nat := 6144 + k

/-- Accesses of a core. An LDTD or STTD that meets a line of a queued move has lost already (R481). -/
def coreUses (s : State) (key : Nat) (c : Core) : List Use :=
  listUses s key 0 coreUser OpFly.plan c.mxFly ++ listUses s key 1 coreUser OpFly.plan c.stFly
    ++ (if issuing s c then [] else listUses s key 2 coreUser TdOp.plan c.tdFly)
    ++ listUses s key 3 coreUser Move.plan c.mvFly

/-- Every access of this cycle. The route unit's stand in slots of its own (R211, log 123). -/
def allUses (s : State) : List Use :=
  s.cores.flatMap (fun e => coreUses s e.1 e.2)
    ++ s.clus.flatMap (fun e => listUses s (cluKey e.1) 0 (fun _ => .poolRow) CmdFly.plan e.2.re.fly)

/-- Another unit's access on the same bank or port comes first (R45, R116). Of two of one priority the lower core and
unit comes first (DESIGN CHOICE: the spec ranks ports, not two accesses of one; a unit's own accesses do not meet; log
113). -/
def beats (v u : Use) : Bool :=
  v.res == u.res && v.op / 1024 != u.op / 1024 && (decide (v.prio < u.prio) || (v.prio == u.prio && decide (v.op < u.op)))

/-- A pool access comes in a slot that the pool's table grants to its user (R147). -/
def granted (s : State) (u : Use) : Bool :=
  let a := 64 * u.line
  if spaceOf a ≠ 2 then true
  else match jobOn s (quadOf a) with
    | none => true
    | some j => slotNow s j u.user (16 * quadOf a + cluOf a)

/-- Accesses that a bank or port carries in a core cycle: a pool bank one each network cycle (R147). DESIGN CHOICE:
which of the two network cycles an access of a core cycle takes is not said; a third access collides (log 113). -/
def carries (u : Use) : Nat := if spaceOf (64 * u.line) = 2 then 2 else 1

/-- The port that an access loses to: 0 where it is in no slot of its own (log 113). -/
def losesTo (s : State) (us : List Use) (u : Use) : Option Nat :=
  if !granted s u then some 0
  else
    let bs := us.filter (fun v => beats v u)
    if bs.length < carries u then none
    else (bs.find? (fun v => !(bs.any (fun w => beats w v)))).map Use.prio

/-- Accesses dropped in this cycle with the priority they lost to; one for each operation and bank or port. -/
def losers (s : State) : List (Use × Nat) :=
  let us := allUses s
  us.foldl (fun l u =>
    if l.any (fun x => x.1.op == u.op && x.1.res == u.res) then l
    else match losesTo s us u with
      | some p => l ++ [(u, p)]
      | none => l) []

/-- Cores whose LDTD or STTD meets a line of a queued move (R481). -/
def tdMeetings (s : State) : List Nat :=
  (s.cores.filter (fun e => issuing s e.2 && e.2.tdFly.any (fun o => !(dueEvs s o.plan).isEmpty))).map Prod.fst

/-- Count and log the collisions of the cycle, under the cluster of the memory (R45). -/
def reportLosers (s : State) (ls : List (Use × Nat)) (tds : List Nat) : State :=
  let s := ls.foldl (fun s l =>
    let a := 64 * l.1.line
    collide s (pgCLU (quadOf a) (cluOf a)) 0x104 (quadOf a) l.2 l.1.prio) s
  tds.foldl (fun s k => cluCollide s (coreOfKey k).cl { hi := 2, lo := 2 }) s

/-- An event is carried: its operation has not lost the bank or port it uses. -/
def carried (ls : List (Use × Nat)) (op : Nat) (e : Ev) : Bool :=
  match resOf e.line (e.kind == .wr) with
  | none => true
  | some r => e.kind == .calc || !(ls.any (fun l => l.1.op == op && l.1.res == r))

/-- The events of one phase of a cycle: reads and sums first, then writes. -/
def phaseEvs (s : State) (wr : Bool) (p : List Ev) : List Ev := (dueEvs s p).filter (fun e => (e.kind == .wr) == wr)

/-- One operation's part in a phase. -/
def runEvs {α : Type} (ls : List (Use × Nat)) (op : Nat) (f : State → α → Ev → State × α) (evs : List Ev)
    (x : State × α) : State × α :=
  (evs.filter (carried ls op)).foldl (fun y e => f y.1 y.2 e) x

/-- Do a phase for the operations of one unit of a core. -/
def unitPhase {α : Type} (ls : List (Use × Nat)) (wr : Bool) (key unit : Nat) (get : Core → List α)
    (put : Core → List α → Core) (plan : α → List Ev) (drop : α → List Ev → α)
    (f : State → CoreId → α → Ev → State × α) (s : State) : State :=
  let cid := coreOfKey key
  (List.range (get (getCore s cid)).length).foldl (fun s i =>
    match (get (getCore s cid))[i]? with
    | none => s
    | some x =>
      let evs := phaseEvs s wr (plan x)
      -- after the second phase the events of the cycle are done
      let n := (dueEvs s (plan x)).length
      let r := runEvs ls (opId key unit i) (fun s x e => f s cid x e) evs (s, x)
      if evs.isEmpty && (!wr || n == 0) then s
      else
        let y := if wr then drop r.2 ((plan x).drop n) else r.2
        let c := getCore r.1 cid
        setCore r.1 cid (put c (setAt (get c) i y))) s

/-- A phase of one core. -/
def corePhase (ls : List (Use × Nat)) (tds : List Nat) (wr : Bool) (s : State) (key : Nat) : State :=
  let s := if tds.contains key then s
    else unitPhase ls wr key 2 Core.tdFly (fun c l => { c with tdFly := l }) TdOp.plan
      (fun o p => { o with plan := p }) tdEvent s
  let s := unitPhase ls wr key 0 Core.mxFly (fun c l => { c with mxFly := l }) OpFly.plan
      (fun o p => { o with plan := p }) mxEvent s
  let s := unitPhase ls wr key 1 Core.stFly (fun c l => { c with stFly := l }) OpFly.plan
      (fun o p => { o with plan := p }) stEvent s
  unitPhase ls wr key 3 Core.mvFly (fun c l => { c with mvFly := l }) Move.plan
      (fun o p => { o with plan := p }) mvEvent s

/-- An LDTD or STTD that a collision drops: no descriptor is written and no counter credited. -/
def dropTd (ls : List (Use × Nat)) (tds : List Nat) (s : State) (key : Nat) : State :=
  let cid := coreOfKey key
  let c := getCore s cid
  let lost := fun (i : Nat) (o : TdOp) => !(dueEvs s o.plan).isEmpty
    && (tds.contains key || ls.any (fun l => l.1.op == opId key 2 i))
  let es := (List.range c.tdFly.length).zip c.tdFly
  if es.any (fun e => lost e.1 e.2) then
    let gone := (es.filter (fun e => lost e.1 e.2)).filterMap (fun e => e.2.load)
    setCore s cid { c with
      tdFly := (es.filter (fun e => !lost e.1 e.2)).map Prod.snd
      tdPend := c.tdPend.filter (fun p => !(p.rank == 1 && gone.contains p.td && p.vis == s.clk.dst + cyc 10)) }
  else s

/-- A core with an event in this cycle. -/
def coreDue (s : State) (c : Core) : Bool :=
  c.mxFly.any (fun f => !(dueEvs s f.plan).isEmpty) || c.stFly.any (fun f => !(dueEvs s f.plan).isEmpty)
    || c.tdFly.any (fun f => !(dueEvs s f.plan).isEmpty) || c.mvFly.any (fun f => !(dueEvs s f.plan).isEmpty)

/-- What an event of a row engine or route unit does. -/
def cmdEvent (rt : Bool) (s : State) (cl : Clu) (f : CmdFly) (e : Ev) : State × CmdFly :=
  if rt then rtEvent s cl f e else reEvent s cl f e

/-- A cluster by its key. -/
def cluOfKey (k : Nat) : Clu := { q := Fin.ofNat 4 (k / 16), c := Fin.ofNat 16 k }

/-- A phase of a row engine or route unit. -/
def cmdPhase (ls : List (Use × Nat)) (rt wr : Bool) (s : State) (k : Nat) : State :=
  (List.range (unitOf rt (getClu s k)).fly.length).foldl (fun s i =>
    match (unitOf rt (getClu s k)).fly[i]? with
    | none => s
    | some x =>
      let evs := phaseEvs s wr x.plan
      let n := (dueEvs s x.plan).length
      if evs.isEmpty && (!wr || n == 0) then s
      else
        let r := (evs.filter (fun e => rt || carried ls (opId (cluKey k) 0 i) e)).foldl
          (fun y e => cmdEvent rt y.1 (cluOfKey k) y.2 e) (s, x)
        let y := if wr then { r.2 with plan := r.2.plan.drop n } else r.2
        let u := unitOf rt (getClu r.1 k)
        setUnit r.1 k rt { u with fly := setAt u.fly i y }) s

/-- A cluster whose row engine or route unit has an event in this cycle. -/
def cluDue (s : State) (k : Cluster) : Bool :=
  (k.re.fly ++ k.rt.fly).any (fun f => !(dueEvs s f.plan).isEmpty)

/-- A phase of a core cycle on every unit with an event in it. -/
def phase (ls : List (Use × Nat)) (tds cores clus : List Nat) (wr : Bool) (s : State) : State :=
  let s := cores.foldl (corePhase ls tds wr) s
  clus.foldl (fun s k => cmdPhase ls true wr (cmdPhase ls false wr s k) k) s

/-- Everything that falls due in the clusters at this Datestamp: collisions first, then the reads, then the writes. -/
def runCores (s : State) : State :=
  let cores := (s.cores.filter (fun e => coreDue s e.2)).map Prod.fst
  let clus := (s.clus.filter (fun e => cluDue s e.2)).map Prod.fst
  if cores.isEmpty && clus.isEmpty then s
  else
    let ls := losers s
    let tds := tdMeetings s
    let s := reportLosers s ls tds
    let s := cores.foldl (dropTd ls tds) s
    phase ls tds cores clus true (phase ls tds cores clus false s)

/-- The commands of a row engine or route unit run to their end at once (R392). -/
def drainUnit (s : State) (k : Nat) (rt : Bool) : State :=
  (unitOf rt (getClu s k)).fly.foldl (fun s f =>
    (f.plan.foldl (fun x e => cmdEvent rt x.1 (cluOfKey k) x.2 e) (s, f)).1) s

/-- The operations of a core run to their end at once (R392: at a reset, running slots finish). -/
def drainCore (s : State) (cid : CoreId) : State :=
  let all := fun (s : State) (c : Core) =>
    let a := c.tdFly.foldl (fun s o => (o.plan.foldl (fun x e => tdEvent x.1 cid x.2 e) (s, o)).1) s
    let a := c.mxFly.foldl (fun s o => (o.plan.foldl (fun x e => mxEvent x.1 cid x.2 e) (s, o)).1) a
    let a := c.stFly.foldl (fun s o => (o.plan.foldl (fun x e => stEvent x.1 cid x.2 e) (s, o)).1) a
    c.mvFly.foldl (fun s o => (o.plan.foldl (fun x e => mvEvent x.1 cid x.2 e) (s, o)).1) a
  all s (getCore s cid)

/-! ## The end of a core cycle -/

/-- Job time of a quadrant's units at Datestamp `t`. -/
def timeAt (s : State) (q t : Nat) : Nat :=
  match jobOn s q with
  | some j => if (getJob s j).held then (getJob s j).e else t - (getJob s j).h
  | none => t

/-- Descriptor writes that the core edge at Datestamp `t` sees go into their tables (R62, R68). -/
def settleTds (s : State) (t : Nat) : State :=
  (s.cores.filter (fun e => !e.2.tdPend.isEmpty)).foldl (fun s e =>
    let cid := coreOfKey e.1
    setCore s cid (settleTd t (timeAt s cid.cl.q.val t) (getCore s cid))) s

/-- The core cycle that ends before the edge at `t`: counters take their sums (R78), descriptors the writes of
the edge before, and the units of faulted jobs stop (R46). -/
def cycleEnd (s : State) (t : Nat) : State :=
  let s := s.dirty.foldl ctrSettle { s with dirty := [] }
  let s := settleTds s (t - 4)
  (s.stops.map Prod.fst).foldl stopQuad s

end Sys2Proof.Machine
end

