-- ==== Sys2Proof/Machine/LaneOps.lean ====
section
/-! DEFINITION. Lanes and lane cells: lasers, rings, spares, migration, calibration, open-fibre control
(R301 to R326). -/

namespace Sys2Proof.Machine

/-- First data word of R326 for a lane, or for a cell by its port A. -/
def d0Opt (p l : Nat) : W32 := BitVec.ofNat 32 (p % 8 * 2 ^ 29 + l % 32 * 2 ^ 24)

/-- Accession of the group whose slot a lane serves, 0 if none. -/
def laneAcc (s : State) (p l : Nat) : BitVec 12 :=
  match slotOf s p l with
  | some (g, _) => if laneRole s p l = .slot then (getLink s g).owner else 0
  | none => 0

/-- An entry of the photonic engine about a lane (R326). -/
def optPost (s : State) (sev code p l : Nat) (d1 : W32) : State :=
  post s pgOPT sev code (laneAcc s p l) (d0Opt p l) d1

/-- A signed number as a data word. -/
def iWord (i : Int) : W32 := BitVec.ofInt 32 i

/-- Set a laser (R312): rising from off starts the ring's sweep, turning off stops the ring. -/
def Lane.light (x : Lane) (st : LaserSt) (now : Nat) : Lane :=
  if st = .off then { x with laser := .off, ring := .off, ringAt := now }
  else if x.laser = .off ∨ x.laser = .blocked then { x with laser := st, ring := .sweep, ringAt := now, sweeps := 0 }
  else { x with laser := st }

def laserTo (s : State) (p l : Nat) (st : LaserSt) : State :=
  setLaneAt s p l ((laneAt s p l).light st s.clk.dst)

/-! ## Rising to full power (R324) -/

/-- R305 lights the laser of port p in a TAP state: A in TAP_AB, B in TAP_BA. -/
def tapLit (cur p : Nat) : Bool := decide (cur = 3 + p % 2)

/-- Uses of a lane that allow full power (R324), in a cell state that lights the laser (R305). -/
def riseUse (s : State) (p l : Nat) : Bool :=
  let x := laneAt s p l
  let cur := (cellAt s p l).cur
  tapLit cur p || (decide (cur = 1) && (x.role == .slot || x.role == .calibrating || (migNew s p l).isSome))

/-- Everything R314, R323 and R324 ask before a laser at safe power rises. -/
def riseOk (s : State) (p l : Nat) : Bool :=
  let x := laneAt s p l
  x.laser == .safe && riseUse s p l && x.lp && decide (x.lpSince + msTicks ≤ s.clk.dst)
    && x.ring == .locked && decide (600 ≤ s.opt.temp) && !s.opt.hot
    && (match x.clearAt with | some t => decide (t + 100 * msTicks ≤ s.clk.dst) | none => true)

/-! ## Lane-management records (R318, R319) -/

/-- The record of a migration with an OPC. -/
def Migration.record (m : Migration) (opc : Nat) : LaneRec :=
  { opc := opc, slot := m.slot, old := m.old, new := m.new, txn := m.txn }

/-- Replace a port's migration of the same transaction, slot and new lane. -/
def putMig (s : State) (p : Nat) (m : Migration) : State :=
  { s with opt := { s.opt with migs := tput [] s.opt.migs p ((tget [] s.opt.migs p).map (fun x =>
      if x.txn = m.txn ∧ x.g = m.g ∧ x.new = m.new then m else x)) } }
def dropMig (s : State) (p : Nat) (m : Migration) : State :=
  { s with opt := { s.opt with migs := tput [] s.opt.migs p ((tget [] s.opt.migs p).filter (fun x =>
      !(decide (x.txn = m.txn ∧ x.g = m.g ∧ x.new = m.new)))) } }

/-- The migration that a received record names. -/
def migOf (s : State) (g : Nat) (r : LaneRec) : Option Migration :=
  (tget [] s.opt.migs (g / 4)).find? (fun m =>
    decide (m.txn = r.txn ∧ m.g.val = g % 4 ∧ m.new = r.new ∧ m.old = r.old ∧ m.slot = r.slot))

/-- Send a record in an idle flit (R319). -/
def sendRec (s : State) (p : Nat) (m : Migration) (opc : Nat) : State :=
  let s := sendIdle s (4 * p + m.g.val) (recBytes (m.record opc))
  putMig s p { m with sentAt := s.clk.dst, sent := if m.sent.contains opc then m.sent else opc :: m.sent }

/-- Every VC of the group stands at a packet boundary and nothing waits to be resent (R318 step 5). -/
def atBoundary (l : Link) : Bool := l.resend.isEmpty && l.backlog.all (fun e => e.2.isEmpty)

/-- SWITCH is due: READY went and came. -/
def switchDue (m : Migration) : Bool := m.sent.contains 2 && m.got.contains 2 && !m.sent.contains 3

/-- Send the SWITCH that is due on a group, at a packet boundary. -/
def trySwitch (s : State) (g : Nat) : State :=
  if atBoundary (getLink s g) && (getLink s g).st == .up then
    match (tget [] s.opt.migs (g / 4)).find? (fun m => decide (m.g.val = g % 4) && switchDue m) with
    | some m => sendRec s (g / 4) m 3
    | none => s
  else s

/-- Codewords lock on the new lanes of a group's migrations, and their skew is gone (R318 step 4): READY goes out for
each whose lane is at full power here and whose ring is LOCKED. -/
def sendReady (s : State) (g : Nat) : State :=
  let p := g / 4
  ((tget [] s.opt.migs p).filter (fun m => decide (m.g.val = g % 4) && !m.sent.contains 2
      && (laneAt s p m.new.val).laser == .full && (laneAt s p m.new.val).ring == .locked)).foldl
    (fun s m => trySwitch (sendRec s p m 2) g) s

/-- A laser rises if it may (R324). -/
def tryRise (s : State) (p l : Nat) : State :=
  if riseOk s p l then
    let s := laserTo s p l .full
    tryUpPort s p
  else s

/-- Migrate a slot off a lane (R318): REQUEST, or CALREQ for calibration (R321). -/
def startMig (s : State) (g k old new : Nat) (cal : Bool) : State :=
  let p := g / 4
  let t := tget 0 s.opt.txn p
  let m : Migration := { txn := t, slot := Fin.ofNat 4 k, g := Fin.ofNat 4 (g % 4), old := Fin.ofNat 18 old,
                         new := Fin.ofNat 18 new, cal := cal, init := true, start := s.clk.dst,
                         sentAt := s.clk.dst, sent := [], got := [] }
  let s := { s with opt := { s.opt with txn := tput 0 s.opt.txn p (t + 1)
                                        migs := tput [] s.opt.migs p (tget [] s.opt.migs p ++ [m]) } }
  tryRise (sendRec s p m (if cal then 6 else 1)) p new

/-- A slot of a group is already moving. -/
def migrating (s : State) (g k : Nat) : Bool :=
  (tget [] s.opt.migs (g / 4)).any (fun m => decide (m.g.val = g % 4 ∧ m.slot.val = k))

/-! ## Calibration (R320, R321) -/

/-- Calibration gives the frequency counter back (R403). -/
def freeCounter (s : State) : State :=
  if s.clk.fcHolder = 2 then { s with clk := { s.clk with fcHolder := 0 } } else s

/-- A calibration is abandoned: its lanes return to free through SWEEP and ACQUIRE (R320). -/
def abortCal (s : State) : State :=
  match s.opt.calOn with
  | none => s
  | some x =>
    let back := fun (s : State) (p : Nat) =>
      let y := laneAt s p x.i.val
      if y.role = .calibrating then
        setLaneAt s p x.i.val { y with role := .free, ring := .sweep, ringAt := s.clk.dst, sweeps := 0,
                                       laser := y.laser.down }
      else s
    let s := back (back s (2 * x.axis.val)) (2 * x.axis.val + 1)
    freeCounter { s with opt := { s.opt with calOn := none } }

/-- The slot of a faded lane can move: its group talks, its number is not fixed, and no migration of it runs. -/
def movable (s : State) (p l : Nat) : Option (Nat × Nat) :=
  match slotOf s p l with
  | none => none
  | some (g, k) =>
    if laneRole s p l ≠ .slot ∨ pinned s p l ∨ migrating s g k ∨ (getLink s g).st ≠ .up ∨ grpMode s g ≠ 0 then none
    else some (g, k)

/-- A slot moves off its lane to a free one; without one, a calibration of the axis that holds a lane gives it back
(R317, R318, R320). -/
def moveOff (s : State) (g k l : Nat) (cal : Bool) : State :=
  let p := g / 4
  match freeLane s p with
  | some n => startMig s g k l n cal
  | none => match s.opt.calOn with
    | some x => if x.axis.val = p / 2 ∧ ¬ cal then abortCal s else s
    | none => s

/-- A fault or fade moves a slot off a lane, where it can move (R317, R320). -/
def moveSlot (s : State) (p l : Nat) : State :=
  match movable s p l with
  | none => s
  | some (g, k) => moveOff s g k l false

/-- Retire a laser (R317): off for good, counted, logged, and in the soft map (R388). -/
def retire (s : State) (p l : Nat) : State :=
  let x := laneAt s p l
  let s := bump (optPost s sevWarning 0x0D03 p l (iWord x.fade)) (at' pgOPT 0x194) 1
  let s := setLaneAt s p l { x.light .off s.clk.dst with role := .retired, deferred := false }
  let id : LaneId := { p := Fin.ofNat 6 p, l := Fin.ofNat 18 l }
  { s with bup := { s.bup with lanesBad := if s.bup.lanesBad.contains id then s.bup.lanesBad
                                           else s.bup.lanesBad ++ [id] } }

/-- Slots of a port that wait for a move move, in ascending order of their lanes, as far as free lanes go (R317). -/
def moveWaiting (s : State) (p : Nat) : State :=
  (List.range 18).foldl (fun s l =>
    if 2 ≤ (laneAt s p l).stage ∧ (movable s p l).isSome then moveSlot s p l else s) s

/-- A free, unpinned lane stands beside lane i on a port (R320). -/
def spareBeside (s : State) (p i : Nat) : Bool := (List.range 18).any (fun l => decide (l ≠ i) && laneFree s p l)

/-- Some lane of a port is free. -/
def someFree (s : State) (p : Nat) : Bool := (List.range 18).any (laneFree s p)

/-- A lane of the port became free: slots that wait for one move, and calibration of the axis goes on once both of its
ports have a free lane (R317, R320). -/
def onFree (s : State) (p : Nat) : State :=
  let s := moveWaiting s p
  let ax := p / 2
  if someFree s (2 * ax) && someFree s (2 * ax + 1) then
    { s with opt := { s.opt with paused := tput false s.opt.paused ax false } }
  else s

/-- A group that has come up lets the slots that waited for it move (R317). -/
def upMoves (was s : State) (g : Nat) : State :=
  if (getLink was g).st ≠ .up ∧ (getLink s g).st = .up then moveWaiting s (g / 4) else s

/-- Slot of a port that a migration moves, as a key. -/
def Migration.key (p : Nat) (m : Migration) : Nat := 16 * p + 4 * m.g.val + m.slot.val

/-- A migration has ended: what it was stays, so that a late record of its transaction is answered (R319). -/
def keepPast (s : State) (p : Nat) (m : Migration) : State :=
  { dropMig s p m with opt := { (dropMig s p m).opt with past := tput none s.opt.past (m.key p) (some m) } }

/-- Step 8 of R318, once both directions have switched: what becomes of the old lane. -/
def endMig (s : State) (p : Nat) (m : Migration) : State :=
  let s := keepPast s p m
  let x := laneAt s p m.old.val
  if x.role = .failed then setLaneAt s p m.old.val { x with laser := x.laser.down }
  else if m.cal then setLaneAt s p m.old.val { x with role := .calibrating }
  else if 3 ≤ x.stage then retire s p m.old.val
  else setLaneAt s p m.old.val { x with role := .reserve, laser := x.laser.down }

def endIfDone (s : State) (p : Nat) (m : Migration) : State :=
  if m.got.contains 3 && m.got.contains 4 then endMig s p m else putMig s p m

/-- The ended migration that a received record names. -/
def pastOf (s : State) (g : Nat) (r : LaneRec) : Option Migration :=
  match tget none s.opt.past (16 * (g / 4) + 4 * (g % 4) + r.slot.val) with
  | some m => if m.txn = r.txn ∧ m.new = r.new ∧ m.old = r.old then some m else none
  | none => none

/-- A record of an ended migration goes out. -/
def sendPast (s : State) (p : Nat) (m : Migration) (opc : Nat) : State :=
  let s := sendIdle s (4 * p + m.g.val) (recBytes (m.record opc))
  let m := { m with sentAt := s.clk.dst, sent := if m.sent.contains opc then m.sent else opc :: m.sent }
  { s with opt := { s.opt with past := tput none s.opt.past (m.key p) (some m) } }

/-- A record of an ended transaction comes again: SWITCH is answered by DONE. R319 names no answer to ABORT and CALDONE:
the end that did not start the transaction answers with the same record, which ends the repetition (log 134). -/
def takePast (s : State) (g : Nat) (r : LaneRec) : State :=
  let p := g / 4
  match pastOf s g r with
  | none => s
  | some m =>
    if r.opc = 3 then (if m.got.contains 3 then sendPast s p m 4 else s)
    else if r.opc = 5 ∨ r.opc = 7 then
      if m.init then
        let m := { m with got := if m.got.contains r.opc then m.got else r.opc :: m.got }
        { s with opt := { s.opt with past := tput none s.opt.past (m.key p) (some m) } }
      else sendPast s p m r.opc
    else s

/-- REQUEST or CALREQ received (R318, R321): the new lane rises and duplicate sending starts; a record that does not fit
this end's lanes, or that moves a lane whose number is fixed here (R310), is ignored. -/
def takeRequest (s : State) (g : Nat) (r : LaneRec) (cal : Bool) : State :=
  let p := g / 4
  let l := getLink s g
  match migOf s g r with
  | some m => if m.sent.contains 2 then sendRec s p m 2 else s
  | none =>
    if l.st ≠ .up ∨ grpMode s g ≠ 0 ∨ l.lanes[r.slot.val]? ≠ some r.old ∨ laneFree s p r.new.val = false
        ∨ pinned s p r.old.val ∨ migrating s g r.slot.val then s
    else
      let m : Migration := { txn := r.txn, slot := r.slot, g := Fin.ofNat 4 (g % 4), old := r.old, new := r.new,
                             cal := cal, init := false, start := s.clk.dst, sentAt := s.clk.dst, sent := [],
                             got := [r.opc] }
      tryRise { s with opt := { s.opt with migs := tput [] s.opt.migs p (tget [] s.opt.migs p ++ [m]) } } p r.new.val

/-- READY received. -/
def takeReady (s : State) (g : Nat) (r : LaneRec) : State :=
  match migOf s g r with
  | none => s
  | some m => trySwitch (putMig s (g / 4) { m with got := if m.got.contains 2 then m.got else 2 :: m.got }) g

/-- SWITCH received: the receiver takes the slot from the new lane and answers DONE. -/
def takeSwitch (s : State) (g : Nat) (r : LaneRec) : State :=
  let p := g / 4
  match migOf s g r with
  | none => takePast s g r
  | some m =>
    let l := getLink s g
    let s := setLink s g { l with lanes := setAt l.lanes m.slot.val m.new }
    let s := setLaneAt s p m.new.val { laneAt s p m.new.val with role := .slot }
    let m := { m with got := if m.got.contains 3 then m.got else 3 :: m.got }
    let s := sendRec (putMig s p m) p m 4
    match migOf s g r with
    | some m => endIfDone s p m
    | none => s

/-- DONE received: the old lane is no longer sent on; counted and logged. -/
def takeDone (s : State) (g : Nat) (r : LaneRec) : State :=
  let p := g / 4
  match migOf s g r with
  | none => s
  | some m =>
    if m.got.contains 4 ∨ ¬ m.sent.contains 3 then s
    else
      let s := bump s (at' pgOPT 0x190) 1
      let s := optPost s sevWarning 0x0D02 p m.old.val (BitVec.ofNat 32 m.new.val)
      endIfDone s p { m with got := 4 :: m.got }

/-- A migration is given up: the new lane is failed, and the initiator tries the next free lane. -/
def giveUpMig (s : State) (p : Nat) (m : Migration) : State :=
  let s := keepPast s p m
  let x := laneAt s p m.new.val
  let s := setLaneAt s p m.new.val { x with role := .failed, laser := x.laser.down }
  if m.init then
    match movable s p m.old.val with
    | some (g, k) => moveOff s g k m.old.val m.cal
    | none => s
  else s

/-- ABORT received: the migration ends, and the record is answered (log 134). -/
def takeAbort (s : State) (g : Nat) (r : LaneRec) : State :=
  match migOf s g r with
  | none => takePast s g r
  | some m =>
    if m.got.contains 3 then s
    else
      let s := giveUpMig s (g / 4) m
      if m.init then s else takePast s g r

/-! ## What a calibration measures (R313, R315, R321) -/

/-- Elements a calibration of a cell measures: its two rings, its six interferometers. -/
def cellElems (ax i : Nat) : List Nat :=
  [36 * ax + i, 36 * ax + 18 + i] ++ (List.range 6).map (fun k => 108 + 6 * (18 * ax + i) + k)

/-- The figures of a table that a calibration sets, as free values. -/
def calTab (f : Nat → Int) (ns : List Nat) (t : Tab (Option Int)) : Tab (Option Int) :=
  ns.foldl (fun t n => tput none t n (some (f n))) t

/-- Steps 2 to 6 of R321: the fade of both lasers, the set points of the rings and of the interferometers, the
receivers' three thresholds and the feedforward coefficients are measured: free values (log 9). -/
def measureCell (s : State) (ax i : Nat) : State :=
  let ls := [36 * ax + i, 36 * ax + 18 + i]
  let s := ls.foldl (fun s k => setLane s k { getLane s k with fade := Config.calFade s.draws k }) s
  let es := cellElems ax i
  fresh { s with opt := { s.opt with
    setPt := calTab (Config.calSetPoint s.draws) es s.opt.setPt
    thr := calTab (Config.calThreshold s.draws) (ls.flatMap (fun k => [3 * k, 3 * k + 1, 3 * k + 2])) s.opt.thr
    ff := calTab (Config.ffRefit s.draws) (es.flatMap (fun e => (List.range 5).map (5 * e + ·))) s.opt.ff } }

/-- A figure of an element's feedforward (R315): coupling coefficient of quadrant k, or for k = 4 the site delay in
root ticks. -/
def ffFigure (s : State) (e k : Nat) : Int := (tget none s.opt.ff (5 * e + k)).getD (Config.ffFactory (5 * e + k))

/-- The feedforward change that stands on an element's heater (R315): minus the heating predicted at its site, started
10 us before the heat arrives there. With FF_EN = 0 there is none. -/
def heaterFf (s : State) (e : Nat) : Int :=
  if bit (reg s (at' pgOPT 0x100)) 1 then
    -([0, 1, 2, 3].map (fun q =>
      ffFigure s e q * aheadAt s.opt.ahead q ((s.clk.dst : Int) + 10 * usTicks - ffFigure s e 4))).foldl (· + ·) 0
  else 0

/-- What a lane is after its calibration (R317, R321): free; one that faded meanwhile reserve, or retired. -/
def calFreed (s : State) (p l : Nat) : State :=
  let x := laneAt s p l
  if x.role ≠ .calibrating then s
  else if 2 ≤ x.stage then setLaneAt s p l { x with role := .reserve, laser := x.laser.down }
  else onFree (setLaneAt s p l { x with role := .free, laser := x.laser.down }) p

/-- CALDONE (R321): the lane becomes free. The end that asked for the calibration sends CALDONE under the transaction of
its CALREQ; the other end answers it (log 134). When no lane of the cell is left under calibration, this module's
calibration ends, is counted, gives the counter back and takes what it measured. -/
def calDone (s : State) (g : Nat) (r : LaneRec) : State :=
  let p := g / 4
  let mine := match s.opt.calOn with
    | some c => decide (c.axis.val = p / 2) && decide (c.i = r.old)
    | none => false
  if (laneAt s p r.old.val).role ≠ .calibrating then takePast s g r
  else if !mine then takePast (calFreed s p r.old.val) g r
  else
    let s := match pastOf s g r with
      | some m => if m.init ∧ (getLink s g).st = .up ∧ grpMode s g = 0 then sendPast s p m 7 else s
      | none => s
    let s := calFreed s p r.old.val
    let ax := p / 2
    if (laneAt s (2 * ax) r.old.val).role = .calibrating ∨ (laneAt s (2 * ax + 1) r.old.val).role = .calibrating then s
    else
      let s := bump (freeCounter s) (at' pgOPT 0x1A0) 1
      measureCell { s with opt := { s.opt with calOn := none } } ax r.old.val

/-- What a record received on a group does, by its OPC (R319). -/
def takeRec (s : State) (g : Nat) (r : LaneRec) : State :=
  match r.opc with
  | 1 => takeRequest s g r false
  | 2 => takeReady s g r
  | 3 => takeSwitch s g r
  | 4 => takeDone s g r
  | 5 => takeAbort s g r
  | 6 => takeRequest s g r true
  | 7 => calDone s g r
  | _ => s

/-- The OPC whose answer is outstanding, to be repeated (R319): ABORT and CALDONE until they come back (log 134), SWITCH
until DONE, READY until SWITCH, REQUEST or CALREQ until READY. -/
def unanswered (m : Migration) : Option Nat :=
  if m.init ∧ m.sent.contains 7 then (if m.got.contains 7 then none else some 7)
  else if m.init ∧ m.sent.contains 5 then (if m.got.contains 5 then none else some 5)
  else if m.sent.contains 3 ∧ ¬ m.got.contains 4 then some 3
  else if m.sent.contains 2 ∧ ¬ m.got.contains 3 then some 2
  else if m.init ∧ ¬ m.got.contains 2 then some (if m.cal then 6 else 1)
  else none

/-! ## Cells (R305 to R308) -/

/-- Lasers of a cell's lane as a state in effect asks: off, or lit at safe power (R305). -/
def cellLight (s : State) (p l cur : Nat) : State :=
  let x := laneAt s p l
  let off := decide (cur = 0) || decide (cur = 2) || (decide (cur = 3) && decide (p % 2 = 1))
    || (decide (cur = 4) && decide (p % 2 = 0))
  let st : LaserSt :=
    if x.role = .retired then .off
    else if off then .off
    else if cur = 5 then .safe
    else if x.laser = .full then .full else .safe
  -- an output fed by forwarded light is blocked without light on its own receive fibre (R323)
  let fwd := decide (cur = 2) || (decide (cur = 3) && decide (p % 2 = 1)) || (decide (cur = 4) && decide (p % 2 = 0))
  let s := setLaneAt s p l (x.light st s.clk.dst)
  if fwd && !x.lp then setLaneAt s p l { laneAt s p l with laser := .blocked } else s

/-- A cell's requested state takes effect (R307). -/
def settleCell (s : State) (x : Nat) : State :=
  let c := getCell s x
  let s := setCell s x { c with busy := false, cur := c.state }
  let p := 2 * (x / 18)
  let s := cellLight (cellLight s p (x % 18) c.state) (p + 1) (x % 18) c.state
  tryUpPort (tryUpPort s p) (p + 1)

/-- Every laser above safe power goes to safe power (R314). -/
def allSafe (s : State) : State :=
  { s with lanes := tmap Lane.reset (fun _ x => if x.laser = .full then { x with laser := .safe } else x) s.lanes }

end Sys2Proof.Machine
end

