-- ==== Sys2Proof/Machine/PowerOps.lean ====
section
/-! DEFINITION. Throttle, data words of die events, and the loss of power (R407 to R416, R441). -/

namespace Sys2Proof.Machine

/-- A die in throttle, numbered as PWR_THR does: 0 to 3 quadrants, 4 hub, 5 to 16 HBM stacks (R419). -/
def inThrottle (s : State) (i : Nat) : Bool := bit s.pwr.thr i

/-- The hub, or a die of the quadrant, is in throttle (R412). -/
def quadThrottle (s : State) (q : Nat) : Bool :=
  inThrottle s 4 || inThrottle s q || [0, 1, 2].any (fun st => inThrottle s (5 + 3 * q + st))

/-- First data word of a die event (R416): HBM stacks are coded from 8 up. -/
def d0Die (i : Nat) (v : Int) : W32 :=
  BitVec.ofNat 32 ((if i < 5 then i else i + 3) * 2 ^ 27 + (v % 65536).toNat)

/-- Everything that power held is lost (R407, R413, R441): what stays is the pins, the fuses, and what the
model keeps of the outside (waiting commands, what left, the draw counter). HBM bytes are unknown
afterwards. -/
def powerDown (s : State) (pwrEn shut tripN : Bool) : State :=
  let t : State := { State.reset with
    pending := s.pending, out := s.out, draws := s.draws, stale := s.stale
    bup := { Bringup.reset with pwrEn := pwrEn, perst := s.bup.perst }
    cus := { Custody.reset with fuses := s.cus.fuses }
    pwr := { Power.reset with shut := shut, tripN := tripN } }
  [0, 1, 2, 3].foldl loseRegion t

end Sys2Proof.Machine
end

