-- ==== Sys2Proof/Machine/ResetOps.lean ====
section
/-! DEFINITION. Bring-up, repair and resets: their shared steps (R376 to R396). -/

namespace Sys2Proof.Machine

/-! ## Lanes at bring-up (R265, R386) -/

/-- Good, unretired lanes of a port. -/
def goodLanes (s : State) (p : Nat) : List Nat :=
  (List.range 18).filter (fun l => !s.bup.lanesBad.any (fun b => b.p.val == p && b.l.val == l))

/-- Lanes of the port's 16 slots in order: lane n, or where it is bad the next of lanes 16 and 17; with
fewer than 16 good lanes the lowest good ones in order (R386). -/
def slotLanes (s : State) (p : Nat) : List Nat :=
  let good := goodLanes s p
  if good.length < 16 then good
  else
    let spare := good.filter (fun l => decide (16 ≤ l))
    ((List.range 16).foldl (fun (a : List Nat × List Nat) l =>
      if good.contains l then (a.1 ++ [l], a.2) else (a.1 ++ a.2.take 1, a.2.drop 1)) ([], spare)).1

/-- A lane group that its port can run (BUP_GRPCAP, R386). -/
def grpAvail (s : State) (g : Nat) : Bool := decide (4 * (g % 4) + 4 ≤ (slotLanes s (g / 4)).length)

/-- Lanes of a group; one that cannot be filled takes bad lanes and so never locks. -/
def grpLanes (s : State) (g : Nat) : List (Fin 18) :=
  let own := ((slotLanes s (g / 4)).drop (4 * (g % 4))).take 4
  let bad := (List.range 18).filter (fun l => !(goodLanes s (g / 4)).contains l)
  ((own ++ bad ++ [bad.getD 0 0, bad.getD 0 0, bad.getD 0 0, bad.getD 0 0]).take 4).map (Fin.ofNat 18)

/-- Role of a lane after bring-up or a hub reset (R316). -/
def bootRole (s : State) (p l : Nat) : LaneRole :=
  let sl := slotLanes s p
  if !(goodLanes s p).contains l then (if (laneAt s p l).role = .retired then .retired else .failed)
  else if (sl.take (sl.length / 4 * 4)).contains l then .slot else .free

/-- Every group starts on its lanes, with everything else of it at reset. -/
def assignLanes (s : State) : State :=
  let s := (List.range 24).foldl (fun s g => setLink s g { Link.reset (g % 4) with lanes := grpLanes s g }) s
  (List.range 108).foldl (fun s k => setLane s k { getLane s k with role := bootRole s (k / 18) (k % 18), deferred := false }) s

/-- Step 8 of R376: the die is warm, every unretired laser at safe power, every ring locked; a held cell's lanes are left
as they are (R308). DESIGN CHOICE: R305 keeps the lasers of a DARK cell off and R307 makes every cell DARK at power-on;
the model runs the step and then turns those lasers off, so that their rings sweep again when the cell lights them (log
134). -/
def lightLanes (s : State) : State :=
  let s := (List.range 108).foldl (fun s k =>
    let x := getLane s k
    if (getCell s (18 * (k / 36) + k % 18)).hold then s
    else
      let good := !(decide (x.role = .failed) || decide (x.role = .retired))
      setLane s k { x with laser := if good then .safe else .off, ring := if good then .locked else .off
                           ringAt := s.clk.dst, sweeps := 0 }) s
  { s with opt := { s.opt with temp := max 600 s.opt.temp } }

/-- Cells without HOLD go DARK (R307, R308). -/
def darkCells (s : State) : State :=
  (List.range 54).foldl (fun s x =>
    if (getCell s x).hold then s
    else
      let s := setCell s x LaneCell.reset
      cellLight (cellLight s (2 * (x / 18)) (x % 18) 0) (2 * (x / 18) + 1) (x % 18) 0) s

/-! ## Repair (R383 to R388) -/

/-- A unit is bad by itself or with its cluster. -/
def unitBad (s : State) (u : BadUnit) : Bool :=
  let all := s.bup.fused ++ s.bup.soft
  all.contains u || all.contains { u with core := none }

/-- Number of a unit's core in the repair codes (R394). -/
def unitCore (u : BadUnit) : Nat := match u.core with | some k => k.val | none => 0x7F

/-- A soft entry is made (R383), with RPR_SOFT where the self-test found the unit. -/
def addSoft (s : State) (u : BadUnit) (log : Bool) : State :=
  if unitBad s u then s
  else
    let s := bump s (at' pgRPR 0x130) 1
    let s := if log then post s pgRPR sevWarning 0x1005 0 (d0Rpr u.q.val u.cl.val (unitCore u)) 0 else s
    { s with bup := { s.bup with soft := s.bup.soft ++ [u] } }

/-- RPR_SHORT for a quadrant that offers fewer than 16 clusters (R386). -/
def shortCheck (s : State) (q : Nat) : State :=
  if offered s q < 16 then post s pgRPR sevWarning 0x1006 0 (BitVec.ofNat 32 (q * 2 ^ 30 + 0x7F * 2 ^ 16)) 0 else s

/-- Bank of an SRAM row and how many spare rows it has (R147, R382): 4 banks a shelf, 32 a pool. -/
def rowBank (row : Nat) : Nat := (64 * row) >>> 28 * 32 + (if spaceOf (64 * row) = 3 then row % 4 else row % 32)
def bankSpares (row : Nat) : Nat := if spaceOf (64 * row) = 3 then 8 else 16

/-- A pending SRAM row is replaced, or with no spare row left its core or cluster fails (R382, R388). -/
def replaceRow (s : State) (row : Nat) : State :=
  let a := 64 * row
  let n := tget 0 s.bup.spares (rowBank row)
  let s := { s with flaws := s.flaws.filter (fun f => decide (f.1 / 64 ≠ row)) }
  if n < bankSpares row then { s with bup := { s.bup with spares := tput 0 s.bup.spares (rowBank row) (n + 1) } }
  else
    let cl := (placement s (quadOf a)).getD (cluOf a) 0
    addSoft s { q := Fin.ofNat 4 (quadOf a), cl := Fin.ofNat 17 cl,
                core := if spaceOf a = 3 then some (Fin.ofNat 100 (physCore s (quadOf a) (cluOf a) ((a >>> 28) % 128)))
                        else none } true

/-- A row that the march test covers: of a shelf or a cluster pool (R147, R382). -/
def testedRow (row : Nat) : Bool := spaceOf (64 * row) == 3 || spaceOf (64 * row) == 2

/-- Self-test of the quadrants that `p` picks (R382, R383): failing rows are replaced from the spares of their bank,
failing units make soft entries. -/
def selfTest (s : State) (b : BringUp) (p : Nat → Bool) : State :=
  let us := b.tested.filter (fun u => p u.q.val)
  let s := us.foldl (fun s u => addSoft s u true) { s with bup := { s.bup with tested := us } }
  (b.badRows.filter (fun r => testedRow r && p (quadOf (64 * r)))).foldl replaceRow s

/-- Post-package repair of a stack's pending rows (R152, R388): the errors of a repaired row are gone; a bank with no
repair left keeps its row pending. -/
def runPpr (s : State) (m : Nat) : State :=
  let x := getMc s m
  let keep := x.ppr.filter (fun r => !Config.pprLeft m r)
  let s := keep.foldl (fun s _ => post s pgRPR sevError 0x1008 0 (BitVec.ofNat 32 (m / 3 * 2 ^ 30)) 0) s
  let gone := (x.ppr.filter (Config.pprLeft m)).flatMap (fun r => (rowFlaws s m r).map Prod.fst)
  let s := setMc { s with flaws := s.flaws.filter (fun f => !gone.contains f.1) } m { x with ppr := keep, seen := [], prev := [] }
  setReg s (at' (pgMC (m / 3) (m % 3)) 0x118) (BitVec.ofNat 32 keep.length)

/-- Something of the quadrant waits for its reset. -/
def repairPending (s : State) (q : Nat) : Bool :=
  s.bup.pendSoft.any (fun u => u.q.val == q) || s.bup.pendRows.any (fun r => quadOf (64 * r) == q)
    || [0, 1, 2].any (fun st => !(getMc s (3 * q + st)).ppr.isEmpty)

/-- What a reset of the quadrant puts into effect (R388, R389). -/
def applyRepairs (s : State) (q : Nat) : State :=
  let rows := s.bup.pendRows.filter (fun r => quadOf (64 * r) == q)
  let units := s.bup.pendSoft.filter (fun u => u.q.val == q)
  let s := rows.foldl replaceRow s
  let s := units.foldl (fun s u => addSoft s u false) s
  let s := [0, 1, 2].foldl (fun s st => runPpr s (3 * q + st)) s
  { s with bup := { s.bup with
      pendRows := s.bup.pendRows.filter (fun r => quadOf (64 * r) != q)
      pendSoft := s.bup.pendSoft.filter (fun u => u.q.val != q)
      ceWords := s.bup.ceWords.filter (fun w => quadOf w != q) } }

/-- A quadrant comes back with its repairs and, where asked or needed, its self-test. -/
def reviveQuad (b : BringUp) (test : Bool) (s : State) (q : Nat) : State :=
  if repairPending s q || test then shortCheck (selfTest (applyRepairs s q) b (· == q)) q else s

/-! ## Bring-up (R376 to R380) -/

/-- An entry of bring-up with the phase as second data word (R394). -/
def bupPost (s : State) (sev code phase : Nat) : State := post s pgBUP sev code 0 0 (BitVec.ofNat 32 phase)

/-- A crystal's count lies within 12 % of nominal (R405). -/
def countOk (n nominal : Nat) : Bool := decide (88 * nominal ≤ 100 * n) && decide (100 * n ≤ 112 * nominal)

/-- Step 4 (R405): 2^16 edges of the fast oscillator hold 8,192 of XTAL_A and 51,200 of XTAL_B. -/
def clocksOk (b : BringUp) : Bool := countOk b.cntA 8192 && countOk b.cntB 51200

/-- A failed row group holds custody keys, which keeps the module from LOCAL in phase 3 (R466). -/
def fuseFail (b : BringUp) : Bool := (List.range 16).any (fun g => bit b.fuseCrc g && keyGroup g)

/-- The steps up to `hi` that keep the module from LOCAL, in order (R378, R466). -/
def failedSteps (b : BringUp) (hi : Nat) : List Nat :=
  ((List.range 10).filter (fun k => decide (1 ≤ k ∧ k ≤ hi)
    && (b.overrun.any (fun x => decide (x.val = k)) || (decide (k = 3) && fuseFail b))))

/-- BUP_TIMEOUT for each overrun step; FAILPH keeps the last (R378; log 132). -/
def bupOverruns (s : State) (ks : List Nat) : State :=
  ks.foldl (fun s k => bupPost { s with bup := { s.bup with failph := k } } sevError 0x1003 k) s

/-- Steps 3 to 9 of R376, at power-on and after a module reset. A step that overran keeps the module from LOCAL; the
others run to their ends (R378). -/
def bringUp (s : State) (b : BringUp) : State :=
  let s := { s with cus := { s.cus with sensed := s.cus.fuses, crcStat := b.fuseCrc } }
  let s := { s with
    bup := { s.bup with phase := 3, failph := 0, isLocal := false, ready := false, boot := 0, upAt := none
                        fused := fusedMap s b.fuseCrc } }
  if !clocksOk b then
    bupPost { bupOverruns s (failedSteps b 3) with bup := { (bupOverruns s (failedSteps b 3)).bup with phase := 4 } }
      sevError 0x1004 4
  else
    let s := { s with
      clk := { Clock.reset with stopped := s.clk.stopped, mgmtDead := s.clk.mgmtDead }
      bup := { s.bup with deadStk := b.stackFail
                          lanesBad := (s.bup.lanesBad ++ fusedLanes s b.fuseCrc ++ b.badLanes).eraseDups } }
    let s := [0, 1, 2, 3].foldl freshKey s
    let s := [0, 1, 2, 3].foldl applyRepairs s
    let s := selfTest s b (fun _ => true)
    let s := [0, 1, 2, 3].foldl shortCheck (darkCells (lightLanes (assignLanes s)))
    let s := { s with bup := { s.bup with phase := 9 } }
    match failedSteps b 9 with
    | k :: r => bupOverruns s (k :: r)
    | [] => raiseInt (bupPost { s with bup := { s.bup with isLocal := true } } sevWarning 0x1001 9) pgBUP 0

/-- Steps 10 to 12 against their bounds (R376, R378), counted in root ticks from step 4, where the Datestamp starts
(log 132): 0.5 s from LOCAL, 2.5 s from the first group in UP, 9.0 s. -/
def bootTick (s : State) : State :=
  if !s.bup.isLocal || s.bup.ready then s
  else
    let n := s.bup.boot + 1
    let up := if s.bup.upAt.isNone && (List.range 24).any (fun g => (getLink s g).st == .up) then some n else s.bup.upAt
    let s := { s with bup := { s.bup with boot := n, upAt := up } }
    let s := if n = 500 * msTicks ∧ s.bup.phase < 10 then bupOverruns s [10] else s
    let s := if up = some (n - 2500 * msTicks) ∧ 2500 * msTicks < n ∧ s.clk.unlocked then bupOverruns s [11] else s
    if n = 9000 * msTicks then bupOverruns s [12] else s

/-! ## Resets (R391 to R393) -/

/-- The registers of pages return to their reset values (R454). -/
def clearPages (s : State) (p : Nat → Bool) : State := { s with regs := s.regs.filter (fun e => !p (e.1 / 4096)) }

/-- The contents of regions become undefined. -/
def loseAll (s : State) (rs : List Nat) : State := rs.foldl loseRegion s

/-- Regions of a cluster's shelves, and its marginalia store. -/
def sramRegions (q c : Nat) : List Nat :=
  (List.range 96).map (fun k => regionOf (shelfAddr ⟨⟨Fin.ofNat 4 q, Fin.ofNat 16 c⟩, Fin.ofNat 96 k⟩ 0))
    ++ [regionOf (margAddr q c 0)]

/-- Arrivals with a byte that `p` picks are discarded and counted (R392). -/
def absorbAt (s : State) (p : Arrival → Bool) : State :=
  let n := (s.fab.arrive.filter p).length
  { bump s (at' pgBUP 0x114) n with fab := { (bump s (at' pgBUP 0x114) n).fab with
      arrive := s.fab.arrive.filter (fun a => !p a) } }

/-- A core is reset (R391): its job faults, and its shelf is undefined afterwards. -/
def resetCore (s : State) (c : CoreId) : State :=
  let s := drainCore s c
  let mine := fun (a : Arrival) => a.writes.any (fun w =>
    (spaceOf w.1 == 3 || spaceOf w.1 == 4) && quadOf w.1 == c.cl.q.val && cluOf w.1 == c.cl.c.val
      && (w.1 >>> 28) % 128 == c.k.val)
  let s := faultOpt (absorbAt s mine) (residentOn s c.cl.q.val)
  loseRegion (setCore s c Core.reset) (regionOf (shelfAddr c 0))

/-- A cluster and its cores are reset (R391). -/
def resetCluster (s : State) (q c : Nat) : State :=
  let k := 16 * q + c
  let mine := s.cores.filter (fun e => e.1 / 96 == k)
  let s := mine.foldl (fun s e => drainCore s (coreOfKey e.1)) s
  let s := drainUnit (drainUnit s k false) k true
  let hit := fun (a : Arrival) => a.writes.any (fun w => decide (2 ≤ spaceOf w.1) && quadOf w.1 == q && cluOf w.1 == c)
    || (match a.credit with | some (x, _, _) => x.q.val == q && x.c.val == c | none => false)
  let s := faultOpt (absorbAt s hit) (residentOn s q)
  let s := setClu { s with cores := s.cores.filter (fun e => e.1 / 96 != k) } k Cluster.reset
  let s := clearPages s (fun p => [pgCLU q c, pgRE q c, pgSHW q c, pgRT q c].contains p)
  loseAll s (sramRegions q c)

/-- BAR2 requests waiting for a quadrant complete with Unsupported Request (R392). -/
def refuseBar2 (s : State) (q : Nat) : State :=
  let s1 := (s.bar2.filter (fun r => r.q.val == q && r.data.isNone)).foldl (fun s r => emit s (.cpl 1 r.tag [])) s
  { s1 with bar2 := s.bar2.filter (fun r => r.q.val != q) }

/-- A quadrant is reset (R391, R392): its job faults, clusters, controllers and engines reset; HBM, its key
and the seal bit stay; a sealed quadrant is zeroised (R369). -/
def resetQuad (s : State) (q : Nat) : State :=
  let s := absorbAt (refuseBar2 s q) (fun a => a.q.val == q)
  let s := faultOpt s (residentOn s q)
  let s := { s with
    cores := s.cores.filter (fun e => e.1 / 1536 != q)
    clus := s.clus.filter (fun e => e.1 / 16 != q)
    ues := s.ues.filter (fun e => e.1 / 3 != q), stops := tput none s.stops q none
    mcs := tmap Mc.reset (fun m x => if m / 3 = q then { Mc.reset with ppr := x.ppr } else x) s.mcs }
  let s := clearPages s (fun p => decide (0x1000 ≤ p) && p / 0x100 % 0x10 == q)
  if sealed s q then zeroise s q
  else loseAll s ((List.range 16).flatMap (sramRegions q))

/-- The hub is reset (R344, R371, R391): every job faults and every slot reads FREE; router, link layer,
queue pool, engines, catalogue, custody state and all quadrants reset; held cells keep their state. -/
def resetHub (s : State) : State :=
  let s := if s.top.ready then post s pgTOP sevWarning 0x0E01 0 0 0 else s
  let s := [0, 1, 2, 3].foldl jobFault s
  let s := [0, 1, 2, 3].foldl resetQuad s
  let s := [0, 1, 2, 3].foldl freshKey s
  let s := abortCal s
  let s := { s with
    jobs := [], grps := [], ctxs := [], cready := [], bar2 := []
    fab := Fabric.reset, top := Topology.reset
    opt := { s.opt with migs := [] }
    cus := { Custody.reset with fuses := s.cus.fuses, sensed := s.cus.sensed, crcStat := s.cus.crcStat,
                                xts := s.cus.xts, zbusy := s.cus.zbusy } }
  let s := darkCells (assignLanes s)
  clearPages s (fun p => decide (9 ≤ p) && !([0xA, 0xB, 0x10].contains p))

/-- The module is reset (R391): the hub's reset, and PCIe, management and the clock root; the Ledger and
the soft entries stay. The root stands still until bring-up runs its step 4 again. -/
def resetModule (s : State) : State :=
  let s := resetHub s
  let s := { s with
    rings := [], ringRr := 0, sync := Sync.reset
    mgt := { Mgmt.reset with smbus := s.mgt.smbus }
    clk := { Clock.reset with dst := s.clk.dst, fine := s.clk.fine, stopped := s.clk.stopped,
                              mgmtDead := s.clk.mgmtDead }
    bup := { s.bup with bar0 := false, phase := 2, failph := 0, isLocal := false, ready := false } }
  clearPages s (· != pgLDG)

/-- A reset of some scope is asked for (R393): a wider one takes over from one in progress. -/
def startReset (s : State) (r : ResetRun) (f : State → State) : State :=
  let go := { f s with bup := { (f s).bup with rst := some r } }
  match s.bup.rst with
  | none => go
  | some o => if o.scope < r.scope then go else post s pgBUP sevWarning 0x100A 0 0 0

/-- A write of RST_CTL whose scope is `k` (R395). -/
def rstCtl (s : State) (k : Nat) (v : W32) (f : State → State) : State :=
  hostWrite s pgBUP 0x10C (fun s =>
    if fld v 2 0 ≠ k then s
    else startReset s { scope := k, q := Fin.ofNat 4 (fld v 4 3), cl := fld v 8 5, k := fld v 15 9, test := bit v 16 } f)

end Sys2Proof.Machine
end

