-- ==== Sys2Proof/Machine/Bringup.lean ====
section
/-! DEFINITION. Meanings: bring-up, resets and repair (R376 to R397). -/

namespace Sys2Proof.Machine

/-- POWER_ON (R376 to R386, R432): PWR_EN rises; with the input within 40 V to 60 V the module powers up and
runs to LOCAL. -/
def execPowerOn (b : BringUp) (s : State) : Res :=
  .next (
    if s.bup.pwrEn then s
    else
      let s := powerDown s true false s.pwr.tripN
      let s := setReg s (at' pgPWR 0x100) (BitVec.ofNat 32 (b.cv % 65536))
      if b.cv < 4000 ∨ 6000 < b.cv ∨ ¬ s.pwr.tripN then s
      else
        bringUp { s with
          bup := { s.bup with railsOn := true, bar0 := s.bup.perst, mgtSel := b.mgtSel, phase := 2 }
          mgt := { s.mgt with smbus := b.mgtSel } } b)

/-- BUP_READY (R379): LOCAL, and the Datestamp locked or this module the time root. -/
def execBupReady (s : State) : Res :=
  .next (
    if s.bup.isLocal ∧ ¬ s.bup.ready ∧ s.bup.rst.isNone
        ∧ (isRoot s ∨ (¬ s.clk.unlocked ∧ steerGrps s ≠ [])) then
      raiseInt (bupPost { s with bup := { s.bup with ready := true, phase := 12 } } sevWarning 0x1002 12) pgBUP 1
    else s)

/-- PERST_N_RISE (R377): BAR0 decodes once step 2 is complete. -/
def execPerstNRise (s : State) : Res :=
  .next { s with bup := { s.bup with perst := true, bar0 := s.bup.railsOn && decide (2 ≤ s.bup.phase) } }

/-- A cluster that the quadrant offers. -/
def hasCluster (s : State) (v : W32) : Bool := decide (fld v 8 5 < offered s (fld v 4 3))

/-- CORE_RESET (R391, R395): a core that is not offered names nothing. -/
def execCoreReset (v : W32) (s : State) : Res :=
  .next (
    if hasCluster s v ∧ fld v 15 9 < 96 then
      rstCtl s 1 v (fun s =>
        resetCore s ⟨⟨Fin.ofNat 4 (fld v 4 3), Fin.ofNat 16 (fld v 8 5)⟩, Fin.ofNat 96 (fld v 15 9)⟩)
    else s)

/-- CLUSTER_RESET (R391, R395). -/
def execClusterReset (v : W32) (s : State) : Res :=
  .next (if hasCluster s v then rstCtl s 2 v (fun s => resetCluster s (fld v 4 3) (fld v 8 5)) else s)

/-- QUADRANT_RESET (R369, R391 to R393). -/
def execQuadrantReset (v : W32) (s : State) : Res :=
  .next (rstCtl s 3 v (fun s => resetQuad s (fld v 4 3)))

/-- HUB_RESET (R344, R371, R391 to R393). -/
def execHubReset (v : W32) (s : State) : Res := .next (rstCtl s 4 v resetHub)

/-- MODULE_RESET (R371, R391): by RST_CTL, or by PERST_N held low while the module is powered. -/
def execModuleReset (cause : ModReset) (s : State) : Res :=
  .next (match cause with
    | .rstCtl v => rstCtl s 5 v resetModule
    | .perst =>
      let r : ResetRun := { scope := 5, q := 0, cl := 0, k := 0, test := false }
      let s := { s with bup := { s.bup with perst := false, bar0 := false } }
      if !s.bup.railsOn then s
      else match s.bup.rst with
        | some o => if o.scope = 5 then s else { resetModule s with bup := { (resetModule s).bup with rst := some r } }
        | none => { resetModule s with bup := { (resetModule s).bup with rst := some r } })

/-- RESET_COMPLETE (R388, R389, R391): the scope returns to service with its repairs in effect; a module
reset runs bring-up from fuse sensing. -/
def execResetComplete (b : BringUp) (s : State) : Res :=
  .next (match s.bup.rst with
    | none => s
    | some r =>
      let s := { s with bup := { s.bup with rst := none } }
      match r.scope with
      | 3 => reviveQuad b r.test s r.q.val
      | 4 => darkCells ([0, 1, 2, 3].foldl (reviveQuad b r.test) s)
      | 5 => bringUp { s with bup := { s.bup with bar0 := s.bup.perst } } b
      | _ => s)

/-- RPR_ADD (R387, R388, R397): a soft entry for a core or cluster becomes pending, while no job is
resident on the quadrant. -/
def execRprAdd (v : W32) (s : State) : Res :=
  .next (hostWrite s pgRPR 0x134 (fun s =>
    let q := fld v 1 0
    let k := fld v 13 7
    if (residentOn s q).isSome ∨ 17 ≤ fld v 6 2 ∨ (100 ≤ k ∧ k ≠ 0x7F) then s
    else
      let u : BadUnit := { q := Fin.ofNat 4 q, cl := Fin.ofNat 17 (fld v 6 2),
                           core := if k = 0x7F then none else some (Fin.ofNat 100 k) }
      if unitBad s u then s else pendUnit s u))

/-- Jobs whose traffic uses a die-to-die link: 0 to 3 name the quadrants, 4 the hub (R390). -/
def linkJobs (s : State) (a b : Nat) : List Nat :=
  [0, 1, 2, 3].filter (fun j => (getJob s j).st == .running
    && (decide (a = 4) || (jobQuads s j).contains a) && (decide (b = 4) || (jobQuads s j).contains b))

/-- D2D_LOST (R390): logged for every job whose traffic uses the link, which faults. -/
def execD2dLost (a b : Nat) (s : State) : Res :=
  .next (
    if !(nbrPair a b || (decide (a = 4) && decide (b < 4)) || (decide (b = 4) && decide (a < 4))) then s
    else match linkJobs s a b with
      | [] => bupPost s sevError 0x1009 0
      | js => js.foldl (fun s j => jobFault (post s pgBUP sevFault 0x1009 (accOf s j) 0 0) j) s)

end Sys2Proof.Machine
end

