-- ==== Sys2Proof/Machine/MsgOps.lean ====
section
/-! DEFINITION. Arriving packets: ingress queues, the message table, remote checks, landing, GET replies
(R158, R163, R281 to R283, R289, R296, R309). -/

namespace Sys2Proof.Machine

/-! ## Queues and their errors (R296, R482) -/

/-- Number of a lane group's ingress queue on a VC. -/
def qIngress (g vc : Nat) : Nat := 0x20 + 4 * g + vc

/-- An uncorrectable error of classes 1 to 3: the packet is dropped, and the job of `acc` faults. -/
def qpUe (s : State) (acc g mid : Nat) : State :=
  let s := bump s (at' pgQP 0x11C) 1
  match residentAcc s acc with
  | some j => jobFault (post s pgQP sevFault 0x0C0E (accOf s j) (d0Lnk acc g) (BitVec.ofNat 32 mid)) j
  | none => post s pgQP sevError 0x0C0E (BitVec.ofNat 12 acc) (d0Lnk acc g) (BitVec.ofNat 32 mid)

/-- Head of an ingress queue, and its removal. -/
def inHead (s : State) (g vc : Nat) : Option Packet := (tget [] (getLink s g).ingress vc).head?
def popIn (s : State) (g vc : Nat) : State :=
  let l := getLink s g
  setLink s g { l with ingress := tput [] l.ingress vc ((tget [] l.ingress vc).drop 1)
                       inAt := tput [] l.inAt vc ((tget [] l.inAt vc).drop 1) }

/-- Take the head of an ingress queue off, checked; `f` then acts on it. -/
def takeIn (s : State) (g vc : Nat) (p : Packet) (f : State → State) : State :=
  let c := qCheck (popIn s g vc) (qIngress g vc)
  if c.2 = 0 then f c.1
  else qpUe c.1 (if c.2 = 3 then (getLink s g).owner.toNat else pkAcc p) g (pkMid p)

/-- The packet is for this hub (R286, R289): multicast, or at DST in phase 1. -/
def isHere (s : State) (p : Packet) : Bool :=
  pkMC p || (decide (pkDst p = ownNode s) && (pkPH p || decide (pkVia p = ownNode s)))

/-- Count for an accession's slot at a register (j) of the router page. -/
def bumpRtr (s : State) (acc o : Nat) : State :=
  match edSlot s acc with
  | some j => bump s (at' pgRTR (o + 0x40 * j)) 1
  | none => s

/-- The accession's job faulted and its slot still shows it (R46). -/
def faultedAcc (s : State) (acc : Nat) : Bool :=
  (residentAcc s acc).isNone
    && [0, 1, 2, 3].any (fun j => (getJob s j).st == .faulted && (getJob s j).acc.toNat == acc)

/-! ## The second header half (R280) -/

def h2Addr (p : Packet) : Nat := fld p.hdr2 127 64
def h2CQ (p : Packet) : Nat := fld p.hdr2 63 62
def h2CCL (p : Packet) : Nat := fld p.hdr2 61 58
def h2CC (p : Packet) : Nat := fld p.hdr2 57 53
def h2CCR (p : Packet) : Bool := bit p.hdr2 52
def h2Credit (p : Packet) : Nat := fld p.hdr2 52 37
def h2Rowlen (p : Packet) : Nat := fld p.hdr2 63 48
def h2Rows (p : Packet) : Nat := fld p.hdr2 47 32
def h2Sstr (p : Packet) : Int := sfld p.hdr2 31 8
def h2RQ (p : Packet) : Nat := fld p.hdr2 7 6
def h2Tag (p : Packet) : Nat := fld p.hdr2 5 0
def h2Roff (p : Packet) : Nat := fld p.hdr2 127 96
def h2RTag (p : Packet) : Nat := fld p.hdr2 95 90
def h2RRQ (p : Packet) : Nat := fld p.hdr2 89 88

/-! ## Remote checks (R158) -/

/-- The address decodes, its quadrant belongs to the accession, and one region of the job holds the
extent with the permission. -/
def remoteOk (s : State) (acc a lo hi : Nat) (loI hiI : Int) (perm : Nat) : Bool :=
  match residentAcc s acc, gaParse a with
  | some j, some g => decide (g.node = ownNode s) && gaOk s g loI && gaOk s g hiI
      && (jobQuads s j).contains g.q && regionHolds s (regionsOf s j) g lo hi perm
  | _, _ => false

/-- MV_REMOTE (R158, R164): under the quadrant's page; the receiving job faults. -/
def mvRemote (s : State) (p : Packet) (a : Nat) : State :=
  let pg := pgQD (a / 2 ^ 39 % 4)
  let d0 : W32 := BitVec.ofNat 32 (a / 2 ^ 32)
  let d1 : W32 := BitVec.ofNat 32 a
  let key := fun (m : Msg) => m.acc.toNat == pkAcc p && m.src == pkSrc p && m.mid.toNat == pkMid p
  let s := { s with fab := { s.fab with msgs := s.fab.msgs.filter (fun m => !key m) } }
  match residentAcc s (pkAcc p) with
  | some j => jobFault (post s pg sevFault 0x0706 (accOf s j) d0 d1) j
  | none => post s pg sevError 0x0706 (BitVec.ofNat 12 (pkAcc p)) d0 d1

/-! ## The message table (R282) -/

/-- The entry of a packet's message. -/
def msgOf (s : State) (p : Packet) : Option Msg :=
  s.fab.msgs.find? (fun m => m.acc.toNat == pkAcc p && m.src == pkSrc p && m.mid.toNat == pkMid p)

/-- A copy of a packet received, or a packet that meets a tombstone. -/
def msgDup (s : State) (p : Packet) : Bool :=
  match msgOf s p with
  | some m => m.tomb.isSome || m.got.any (fun e => e.1 == pkPidx p)
  | none => false

/-- The destination of an outstanding GET's byte i of the packed source stream (R283). -/
def getDest (s : State) (t : GetTag) (off : Nat) (pay : List Byte) : List Host.Cell :=
  match mdEnds s t.core t.mv.op t.mv.md t.mv.ofs with
  | some (_, some e) =>
    ((List.range pay.length).zip pay).map (fun x =>
      let i := off + x.1
      (gaByte e.g (e.row (i / max 1 e.len) + i % max 1 e.len), x.2))
  | _ => []

/-- The outstanding GET that a reply names. -/
def tagOf (s : State) (p : Packet) : Option GetTag :=
  if (quadAcc s (h2RRQ p)).toNat = pkAcc p then
    (tget [] s.fab.gets (h2RRQ p)).find? (fun t => t.tag == h2RTag p)
  else none

/-- What a complete message does when it lands: its bytes, its credit, its GET (R77, R281, R283). -/
def arrivalOf (s : State) (j : Nat) (m : Msg) : Arrival :=
  let ps := m.got.map Prod.snd
  let cells := sumNat (ps.map pktCells)
  let base : Arrival := { q := m.q, writes := [], credit := none, ctx := none, get := none, job := j, cells := cells
                          link := m.link, mid := m.mid }
  let mine := fun q => (jobQuads s j).contains q
  match ps with
  | [] => base
  | p :: _ =>
    let clu : Clu := ⟨Fin.ofNat 4 (h2CQ p), Fin.ofNat 16 (h2CCL p)⟩
    if pkMT p = mtSIGNAL then
      { base with credit := if mine (h2CQ p) then some (clu, h2CC p, h2Credit p) else none }
    else if pkMT p = mtREPLY then
      let fresh := match tagOf s p with
        | some t => ps.filter (fun p => !(t.got.any (fun e => e.1 == h2Roff p)))
        | none => []
      { base with
        writes := match tagOf s p with
          | some t => fresh.flatMap (fun p => getDest s t (h2Roff p) p.pay)
          | none => []
        get := some (h2RTag p)
        offs := fresh.map (fun p => (h2Roff p, p.pay.length)) }
    else
      { base with
        writes := ps.flatMap (fun p => match gaParse (h2Addr p) with
          | some g => cellsAt 0 p.pay |>.map (fun c => (gaByte g (g.byte + c.1), c.2))
          | none => [])
        credit := if h2CCR p ∧ mine (h2CQ p) then some (clu, h2CC p, 1) else none }

/-- A packet goes into its message's entry; the last one completes it. -/
def msgPut (s : State) (j g q : Nat) (p : Packet) : State :=
  let m : Msg := match msgOf s p with
    | some m => m
    | none => { q := Fin.ofNat 4 q, acc := BitVec.ofNat 12 (pkAcc p), src := pkSrc p, mid := BitVec.ofNat 32 (pkMid p),
                n := pkNpm1 p + 1, got := [], open' := s.clk.dst, tomb := none, link := g }
  let key := fun (x : Msg) => x.acc == m.acc && x.src == m.src && x.mid == m.mid
  let rest := s.fab.msgs.filter (fun x => !key x)
  let m := { m with got := m.got ++ [(pkPidx p, p)] }
  if m.got.length < m.n then { s with fab := { s.fab with msgs := rest ++ [m] } }
  else { s with fab := { s.fab with msgs := rest ++ [{ m with got := [], tomb := some s.clk.dst }]
                                    arrive := s.fab.arrive ++ [arrivalOf s j m] } }

/-- Entries of a job: 1,024 for each of its quadrants (R282). -/
def msgFull (s : State) (j : Nat) (p : Packet) : Bool :=
  (msgOf s p).isNone
    && decide (1024 * (jobQuads s j).length
        ≤ (s.fab.msgs.filter (fun m => m.acc == accOf s j)).length)

/-- A packet of a message, off its queue (R282): duplicates are counted, a full table faults. -/
def msgTake (s : State) (g q : Nat) (p : Packet) : State :=
  match residentAcc s (pkAcc p) with
  | none => s
  | some j =>
    if msgDup s p then bump s (at' pgRTR (0x10C + 0x40 * j)) 1
    else if msgFull s j p then
      jobFault (post s pgRTR sevFault 0x0C0A (accOf s j) (d0Lnk (pkAcc p) g) (BitVec.ofNat 32 (pkMid p))) j
    else msgPut s j g q p

/-- The arrival class has no cell for a packet that must wait there (R294). -/
def mustWait (s : State) (p : Packet) : Bool :=
  (residentAcc s (pkAcc p)).isSome && !msgDup s p && !clsRoom s 3 (pktCells p)

/-- A one-way packet that finds the arrival class full (R309). -/
def mcOvf (s : State) (g : Nat) (p : Packet) : State :=
  let s := bump s (at' pgOPT 0x1A4) 1
  let l := match (getLink s g).lanes with | x :: _ => x.val | [] => 0
  match residentAcc s (pkAcc p) with
  | some j => jobFault (post s pgOPT sevFault 0x0D0A (accOf s j) (BitVec.ofNat 32 (g / 4 * 2 ^ 29 + l * 2 ^ 24)) 0) j
  | none => s

/-- Each hub forwards a multicast packet along its line (R289), but for the end of the line and a one-way
receiver, past which the light goes on by itself (R309). -/
def mcForward (s : State) (g vc : Nat) (p : Packet) : State :=
  if !pkMC p || decide (pkDst p = ownNode s) || decide (grpMode s g = 2) then s
  else if 80 ≤ pkHops p + 1 then rtrDrop s 0x0C08 (pkAcc p) (pkAcc p) g (pkMid p)
  else match edSlot s (pkAcc p) with
  | none => rtrDrop s 0x0C07 (pkAcc p) (pkAcc p) g (pkMid p)
  | some j => stampMc s j g vc p

/-- The row of a message packet: type `mt` at the head of an ingress queue and for this hub; it waits
where the arrival class is full (R294), else it is forwarded if multicast, and `f` takes the local copy. -/
def msgRow (s : State) (g vc mt : Nat) (store : Bool) (f : State → Packet → State) : State :=
  match inHead s g vc with
  | none => s
  | some p =>
    if pkMT p ≠ mt ∨ ¬ isHere s p then s
    else if store && mustWait s p then
      (if grpMode s g = 2 then mcOvf (popIn s g vc) g p else s)
    else takeIn s g vc p (fun s => f (mcForward s g vc p) p)

/-! ## Landing -/

/-- Charge landing bytes to the windows of R151, stack by stack. -/
def chargeCells (s : State) (w : Who) (cs : List Host.Cell) : State × Bool :=
  (List.range 12).foldl (fun (a : State × Bool) m =>
    let ls := linesOf ((cs.map Prod.fst).filter (fun x =>
      decide (spaceOf x = 0) && decide (quadOf x = m / 3) && decide (stackOf x = m % 3)))
    if a.2 && !ls.isEmpty then hbmAccept a.1 w (m / 3) (m % 3) s.clk.dst ls.length (64 * ls.getD 0 0)
    else a) (s, true)

/-- Bytes of a GET have landed (R161, R283): the last ones free the tag and complete the move. -/
def getLanded (s : State) (q tag : Nat) (offs : List (Nat × Nat)) : State :=
  let ts := tget [] s.fab.gets q
  match ts.find? (fun t => t.tag == tag) with
  | none => s
  | some t =>
    -- a piece counts once, however often it landed
    let t := { t with got := offs.foldl (fun l o => if l.any (fun e => e.1 == o.1) then l else l ++ [o]) t.got }
    let all := decide (mdRows t.mv.md * mdRowlen t.mv.md ≤ sumNat (t.got.map Prod.snd))
    let rest := ts.filter (fun x => x.tag != tag)
    let s := { s with fab := { s.fab with gets := tput [] s.fab.gets q (if all then rest else rest ++ [t]) } }
    if all then
      let c := getCore s t.core
      let s := setCore s t.core { c with mvFly := c.mvFly.filter (fun m =>
        !(decide (m.op = opGET ∧ m.launch = t.mv.launch ∧ m.mdIdx = t.mv.mdIdx))) }
      moveDone s t.core t.mv.cc
    else s

/-- An arrival slot of the job reaches the quadrant now (R163). -/
def arrSlot (s : State) (j q : Nat) : Bool := slotNow s j .arrival q

/-- An arrival lands (R163) and credits once (R77, R281). -/
def land (s : State) (a : Arrival) : State :=
  let w : Who := { acc := accOf s a.job, job := some a.job }
  let c := chargeCells s w a.writes
  if !c.2 then c.1
  else
    let s := store c.1 w a.writes
    if !resident (getJob s a.job).st then s
    else
      let s := match a.credit with
        | some (cl, n, k) => credit s cl.key n k
        | none => s
      match a.get with
      | some t => getLanded s a.q.val t a.offs
      | none => s

/-- Remove the arrival at a position of the class. -/
def popArr (s : State) (i : Nat) : State :=
  { s with fab := { s.fab with arrive := removeAt s.fab.arrive i } }

/-- Ticks of a tombstone's life (R299). -/
def tombTicks (s : State) : Nat := (reg s (at' pgRTR 0x110)).toNat * usTicks

/-- The message entry that a table row names. -/
def isMsg (q : Fin 4) (acc src : Nat) (mid : W32) (m : Msg) : Bool :=
  m.q == q && m.acc.toNat == acc && m.src == src && m.mid == mid

end Sys2Proof.Machine
end

