-- ==== Sys2Proof/Machine/Circ.lean ====
section
/-! DEFINITION. Meanings: circulation engine (R248 to R261). -/

namespace Sys2Proof.Machine

/-- The contribution that a REDUCE packet carries (R248). -/
def reduceOf (p : Packet) : Contrib :=
  let h := p.hdr2
  { core := none, acc := fld h 127 116, ctx := fld h 115 108, bkt := fld h 107 92
    step := BitVec.ofNat 32 (fld h 91 60), chunk := fld h 59 36, part := fld h 35 33, down := bit h 32
    wid := fld h 31 30, vote := bit h 29, retx := pkRetx p, src := fld h 27 15, bytes := p.pay }

/-- A down part whose result would find no room for its deliveries waits in ingress (R294). -/
def downWait (s : State) (c : Contrib) : Bool :=
  c.down && (match residentAcc s c.acc with
    | some j => match ctxEntry s j c.ctx with
      | some e =>
        let n := deliveryCells (getCtx s e) c.chunk
        decide (0 < n) && !clsRoom s 3 n
      | none => false
    | none => false)

/-- LAST of a REDUCE packet, which decides nothing (R248, R249). -/
def reduceLast (p : Packet) : Bool := bit p.hdr2 28

/-- The trace record of a REDUCE message, into which LAST is copied (R249). DESIGN CHOICE: the rule names no event and no
layout; the model writes one record for each message taken, its header and the Datestamp (log 133). -/
def reduceRec (s : State) (p : Packet) : List Byte :=
  bytesOf 16 p.hdr2.toNat ++ bytesOf 8 s.clk.dst ++ bytesOf 1 (if reduceLast p then 1 else 0)

/-- REDUCE (R249 to R252, R258, R260, R261): a REDUCE packet for this hub is checked and staged. -/
def execReduce (g : Grp) (vc : Fin 4) (s : State) : Res :=
  .next (match inHead s g.key vc.val with
    | none => s
    | some p =>
      if pkMT p ≠ mtREDUCE ∨ ¬ isHere s p then s
      else if downWait s (reduceOf p) then s
      else takeIn s g.key vc.val p (fun s => takeContrib (pushRec s 7 (reduceRec s p)) (reduceOf p)))

/-- The result of the ready chunk would find no room for its deliveries. -/
def readyWait (s : State) (e chunk : Nat) : Bool :=
  let x := getCtx s e
  let n := deliveryCells x chunk
  cxRoot x.defn && decide (0 < n) && !clsRoom s 3 n

/-- CHUNK_SUM (R252, R254, R255, R257, R258): the narrow chunk at the head of the ready list. -/
def execChunkSum (s : State) : Res :=
  .next (match readyHead s false with
    | none => s
    | some (e, ch) =>
      if readyWait s e ch then s
      else staged s e ch (fun s =>
        let r := sumChunk s (getCtx s e) ch
        passChunk (bump s (at' pgCIR 0x124) r.2) e ch 0 (r.1.flatMap (bytesOf 2))))

/-- VOTE_COUNT (R252, R256 to R258): the vote chunk at the head of the ready list. -/
def execVoteCount (s : State) : Res :=
  .next (match readyHead s true with
    | none => s
    | some (e, ch) =>
      if readyWait s e ch then s
      else staged s e ch (fun s =>
        let x := getCtx s e
        let ns := (List.range (cxElems x.defn ch)).map (voteElem x ch)
        let s := bump s (at' pgCIR 0x12C) (sumNat (ns.map Prod.snd))
        let wo := cxWout x.defn
        if cxRoot x.defn then
          passChunk s e ch 0 (packCodes 2 (fun _ => 0) 0 (ns.map (fun n => voteCode n.1)))
        else
          let ts := ns.map (fun n => thin wo n.1)
          let s := bump s (at' pgCIR 0x120) (ts.filter Prod.snd).length
          passChunk s e ch wo (packCodes (2 ^ wo) (fun _ => 0) 0 (ts.map Prod.fst))))

/-- ROW_FREE_STAGE (R251, R257): a free row takes the waiting parts of the lowest chunk that maps to it, whose cells are
read and checked. -/
def execRowFreeStage (x : Fin 256) (row : Nat) (s : State) : Res :=
  .next (
    let c := getCtx s x.val
    let here := c.ovfl.filter (fun p => decide (rowOf c.defn p.chunk = row))
    match here with
    | [] => s
    | p :: ps =>
      let ch := ps.foldl (fun a q => min a q.chunk) p.chunk
      let go := here.filter (fun p => decide (p.chunk = ch))
      if c.owner = 0 ∨ c.st = .released
          ∨ go.any (fun p => c.parts.any (keepsRow c ch (decide (p.input = cxNin c.defn)))) then s
      else
        staged (setCtx s x.val { c with ovfl := c.ovfl.filter (fun p => decide (p.chunk ≠ ch)) }) x.val ch (fun s =>
          go.foldl (fun s p => stagePart s x.val p) s))

/-- DELIVERY_LANDING (R163, R259, R260): the oldest delivery of the context lands; the last chunk of a
delivery credits its counter, and the context may go back to IDLE. -/
def execDeliveryLanding (x : Fin 256) (s : State) : Res :=
  .next (match findIdx? (fun a => match a.ctx with | some (e, _, _) => e == x.val | none => false) s.fab.arrive 0 with
    | none => s
    | some (i, a) => match a.ctx with
      | none => s
      | some (e, k, ch) =>
        if !arrSlot s a.job a.q.val then s else
        let c := qCheck (popArr s i) (0xA0 + a.q.val)
        if c.2 ≠ 0 then qpUe c.1 (if c.2 = 3 then (owner s a.q.val).toNat else (accOf s a.job).toNat) 0 0
        else
          let s := land c.1 a
          let y := getCtx s e
          if y.owner = 0 ∨ y.st = .released ∨ y.job ≠ a.job then s
          else
            let y := { y with landed := (k, ch) :: y.landed }
            let n := (y.landed.filter (fun p => decide (p.1 = k))).length
            let w := cxCrd y.defn k
            let s := setCtx s e (ctxSettle y)
            if n = cxNch y.defn ∧ crdCCE w then
              match gaParse (cxDlv y.defn k) with
              | some g => credit s (16 * g.q + crdClu w) (crdCC w) 1
              | none => s
            else s)

end Sys2Proof.Machine
end

