-- ==== Sys2Proof/Machine/Control.lean ====
section
/-! DEFINITION. Meanings: the sequencer and the control slot (R39 to R44, R56, R59, R70, R71, R77). -/

namespace Sys2Proof.Machine

/-- FETCH_SLOT (R56): one 64 B line, two bundles, into the free places of the queue; a full queue
fetches nothing and is counted (log 23). An entry written whole loses any error (R148). -/
def execFetchSlot (c : CoreId) (s : State) : Res :=
  .next (match residentOn s c.cl.q.val with
    | none => s
    | some j =>
      let k := getCore s c
      if k.st = .fault ∨ (getJob s j).st = .admitting then s
      else if 64 ≤ k.bq.length + heldBody k then bump s (at' (pgCLU c.cl.q.val c.cl.c.val) 0x108) 1
      else
        let n := min 2 (64 - (k.bq.length + heldBody k))
        let bs := ((coreStream s j c).drop k.sp).take n
        let put := (List.range bs.length).map (fun i => bqAddr c (k.sp + i))
        setCore { s with flaws := s.flaws.filter (fun f => !put.contains (f.1 / 32 * 32)) } c
          { k with bq := k.bq ++ bs, sp := k.sp + bs.length })

/-- WAIT_BUNDLE_REACH_L (R39, R59): the core waits, and D is computed from the counter's window. -/
def execWaitBundleReachL (c : CoreId) (s : State) : Res :=
  .next (onEdge s c (fun s j =>
    match look s j c (fun b => bnWait b && !bnHP b) with
    | .nothing => none
    | .underrun off => some (seqFault s c off 0x0302)
    | .order off => some (seqFault s c off 0x0301)
    | .due b _ =>
      let jt := jobTime s (getJob s j)
      some (setCore s c { getCore s c with
        st := .waiting, missed := false,
        dline := jt + 4 * (getCtr s c.cl.key (bnCtr b)).win })))

/-- WAIT_SATISFIED (R39, R59): at a core edge up to D the counter is satisfied and the bundle launches. -/
def execWaitSatisfied (c : CoreId) (s : State) : Res :=
  .next (onEdge s c (fun s j =>
    let k := getCore s c
    let jt := jobTime s (getJob s j)
    match nextBn k with
    | none => none
    | some (b, off) =>
      if k.st = .waiting ∧ ¬ k.missed ∧ ¬ (getJob s j).held ∧ jt ≤ k.dline ∧ s.clk.dst % 4 = 0
          ∧ ctrMet s c.cl.key (bnCtr b) then some (launchBundle s c j jt b off)
      else none))

/-- MISSED_DEADLINE (R42, R43): D has passed short of the target; the job's hold is pending, and a
core that already issued an HP bundle after D faults the job. -/
def execMissedDeadline (c : CoreId) (s : State) : Res :=
  .next (match runSlot s c with
    | none => s
    | some j =>
      let k := getCore s c
      let job := getJob s j
      match nextBn k with
      | none => s
      | some (b, _) =>
        let n := bnCtr b
        if k.st = .waiting ∧ ¬ k.missed ∧ k.dline ≤ jobTime s job ∧ missedAt s job c.cl.key n k.dline then
          let late : Late := { core := c, cc := n, d := k.dline + job.h }
          let s := setCore s c { k with missed := true }
          let s := if job.pend then s else bump s (at' pgSCH (0x114 + 0x40 * j)) 1
          let s := setJob s j { job with pend := true, late := job.late ++ [late],
                                         first := if job.pend then job.first else some late }
          if s.cores.any (fun e => (jobQuads s j).contains (e.1 / 1536)
              && (match e.2.hpAt with | some t => decide (k.dline < t) | none => false)) then
            let s := post s pgSCH sevFault 0x0205 job.acc (d0Sch job.acc j 0) (BitVec.ofNat 32 late.d)
            jobFault s j
          else s
        else s)

/-- Every row-engine and route command that a hold stops on its way raises RE_ORDER or RT_ORDER, and the job faults
(R129, R193). -/
def holdUnits (s : State) (j : Nat) : State :=
  let qs := jobQuads s j
  let run := (s.clus.filter (fun e => qs.contains (e.1 / 16))).flatMap (fun e =>
    ([false, true].filter (fun rt => decide (s.clk.dst < (unitOf rt e.2).busy))).map (fun rt =>
      (e.1, rt, ((unitOf rt e.2).fly.getLast?.map CmdFly.w).getD 0)))
  if run.isEmpty then s
  else jobFault (run.foldl (fun s x => postFault s x.1 (unitPage x.2.1 x.1)
    (unitCode x.2.1 4, d0Core (if x.2.1 then 0xFD else 0xFE) (cmOff x.2.2), BitVec.ofNat 32 (cmOp x.2.2))) s) j

/-- HOLD_EPOCH_STOP (R42, R59): with a hold pending, job time stops at E and every core of the job
stops before its HP bundle, unless the release falls on this very edge. -/
def execHoldEpochStop (j : Fin 4) (s : State) : Res :=
  .next (
    let job := getJob s j
    let jt := jobTime s job
    let free : Bool := match releaseAt s job jt with | some r => decide (r ≤ s.clk.dst) | none => false
    if job.st = .running ∧ job.pend ∧ ¬ job.held ∧ epochNow s j ∧ free = false then
      let qs := jobQuads s j
      let s := setJob s j { job with held := true, e := jt, stopAt := s.clk.dst }
      let s := holdUnits s j
      if (getJob s j).st ≠ .running then s
      else { s with cores := tmap Core.reset (fun k c =>
          if qs.contains (k / 1536) && c.st == .ready
            && (match nextBn c with
                | some (b, off) => bnHP b && decide (originOf s j c.seg + 4 * off = jt)
                | none => false)
          then { c with st := .held } else c) s.cores }
    else s)

/-- HOLD_RELEASE (R42): at R, H becomes R - E; the late bundles and then the HP bundles issue at J = E. -/
def execHoldRelease (j : Fin 4) (s : State) : Res :=
  .next (
    let job := getJob s j
    let e := jobTime s job
    if job.st = .running ∧ job.pend ∧ (job.held ∨ epochNow s j) ∧ releaseAt s job e = some s.clk.dst then
      let s := setJob s j { job with h := s.clk.dst - e, held := false, pend := false, late := [],
                                     first := none }
      let qs := jobQuads s j
      ((s.cores.map Prod.fst).filter (fun k => qs.contains (k / 1536))).foldl (releaseCore j e) s
    else s)

/-- SCH_HOLD_GIVEUP (R44): a hold longer than the limit faults the job; two entries name the first
late counter and its deadline. -/
def execSchHoldGiveup (j : Fin 4) (s : State) : Res :=
  .next (
    let job := getJob s j
    let lim := (reg s (at' pgSCH (0x110 + 0x40 * j))).toNat * usTicks
    if job.st = .running ∧ job.held ∧ lim < s.clk.dst - job.stopAt then
      match job.first with
      | none => s
      | some l =>
        let s := post s pgSCH sevFault 0x0203 job.acc (d0Sch job.acc j 0)
          (BitVec.ofNat 32 (l.cc + l.core.cl.c.val * 256))
        let s := post s pgSCH sevFault 0x0203 job.acc (d0Sch job.acc j 0) (BitVec.ofNat 32 l.d)
        jobFault s j
    else s)

/-- NOP (R60, R70): a control slot with opcode 0 does nothing, and one with a reserved opcode raises ILLEGAL_OP; the rest of the bundle launches with it (log 22). -/
def execNop (c : CoreId) (s : State) : Res :=
  .next (launch s c (fun b => let op := ctlOp b; op == 0 || decide (5 < op)))

/-- END (R59, R70): the last bundle of a segment's stream. -/
def execEndBundle (c : CoreId) (s : State) : Res :=
  .next (launch s c (fun b => let op := ctlOp b; op == 1))

/-- LOOP (R71): the next K bundles run N times. -/
def execLoop (c : CoreId) (s : State) : Res :=
  .next (launch s c (fun b => let op := ctlOp b; op == 2))

/-- TDADD (R68, R70, R72): DELTA is added to a descriptor field after the latch. -/
def execTdadd (c : CoreId) (s : State) : Res :=
  .next (launch s c (fun b => let op := ctlOp b; op == 3))

/-- CRD (R70, R77): N is subtracted from the counter's DEF. -/
def execCrd (c : CoreId) (s : State) : Res :=
  .next (launch s c (fun b => let op := ctlOp b; op == 4))

/-- MARK (R70): CODE, core number and Datestamp go to the trace queue. -/
def execMark (c : CoreId) (s : State) : Res :=
  .next (launch s c (fun b => let op := ctlOp b; op == 5))

end Sys2Proof.Machine
end

