-- ==== Sys2Proof/Machine/Custody.lean ====
section
/-! DEFINITION. Meanings: custody (R349 to R371). -/

namespace Sys2Proof.Machine

/-- STAGE (R357, R434): through CUS_CMD with the record in CUS_STAGE, or in an MCTP message. -/
def execStage (via : CusVia) (s : State) : Res :=
  .next (match via with
    | .host => hostWrite s pgCUS 0x360 (fun s => stageIssue s .host (stagedWord s) (stagedSig s))
    | .bmc rec sig => vendor s 1 (fun s => stageIssue s .bmc rec sig))

/-- STAGE_VERIFIED (R357, R358): the oldest stage of the party with that record that waits for its verification. -/
def execStageVerified (party : Party) (rec : BitVec 2048) (s : State) : Res :=
  .next (match findIdx? (fun r => decide (r.party = party) && decide (r.word = rec)) s.cus.verify 0 with
    | none => s
    | some (i, r) =>
      stageVerify { s with cus := { s.cus with verify := removeAt s.cus.verify i } } party r.word r.sig)

/-- CONFIRM (R357, R358): as STAGE, of the pending record; the host's record and signature are those in CUS_STAGE and
CUS_SIG. -/
def execConfirm (party : Party) (rec : BitVec 2048) (sig : BitVec 768) (s : State) : Res :=
  .next (match party with
    | .host => hostWrite s pgCUS 0x360 (fun s => confirmVerify s .host (stagedWord s) (stagedSig s))
    | .bmc => vendor s 2 (fun s => confirmVerify s .bmc rec sig))

/-- The staging party cancels; no entry is written (R358). Any other cancel changes nothing. -/
def cancelBy (s : State) (p : Party) : State :=
  let c := s.cus
  if c.busy ∧ c.origin = p ∧ c.commit.isNone then cusEnd (cusDiscard s) p 3 c.pend rCancelled
  else answer s p 3

/-- CANCEL (R358). -/
def execCancel (party : Party) (s : State) : Res :=
  .next (match party with
    | .host => hostWrite s pgCUS 0x360 (fun s => cancelBy s .host)
    | .bmc => vendor s 3 (fun s => cancelBy s .bmc))

/-- QUAD_ASSIGN (R355, R367): owner, seal bit and a fresh key for each named quadrant. -/
def execQuadAssign (s : State) : Res :=
  .next (commitRow s 1 (fun s w => (recQuads w).foldl (fun s q =>
    freshKey (setSeal (setOwner s q (BitVec.ofNat 12 (recAcc w))) q (decide (recArg w % 2 = 1))) q) s))

/-- QUAD_RELEASE (R355, R367, R369). -/
def execQuadRelease (s : State) : Res :=
  .next (commitRow s 2 (fun s w => (recQuads w).foldl (fun s q =>
    freshKey (setSeal (setOwner (zeroise s q) q 0) q false) q) s))

/-- GROUP_OWN (R340): the group's ownership record. -/
def execGroupOwn (s : State) : Res :=
  .next (commitRow s 3 (fun s w =>
    let g := recGrp w
    tryUp (setLink s g { getLink s g with role := recArg w % 4, owner := BitVec.ofNat 12 (recAcc w), passErr := false }) g))

/-- KEY_LOAD (R361, R365): the slot holds the accession's job key; groups that waited for it train. -/
def execKeyLoad (s : State) : Res :=
  .next (commitRow s 4 (fun s w =>
    tryUpAll { s with cus := { s.cus with
      keys := tput 0 s.cus.keys (recTgt w) (BitVec.ofNat 12 (recAcc w))
      keyVals := tput 0 s.cus.keyVals (recTgt w) ((unwrapKey s w).getD 0) } }))

/-- KEY_ERASE (R355). -/
def execKeyErase (s : State) : Res :=
  .next (commitRow s 5 (fun s w =>
    { s with cus := { s.cus with keys := tput 0 s.cus.keys (recTgt w) 0
                                 keyVals := tput 0 s.cus.keyVals (recTgt w) 0 } }))

/-- SEAL (R368). -/
def execSeal (s : State) : Res :=
  .next (commitRow s 6 (fun s w => (recQuads w).foldl (fun s q => setSeal s q true) s))

/-- UNSEAL (R367, R369): a quadrant that is sealed or not is zeroised and unsealed. -/
def execUnseal (s : State) : Res :=
  .next (commitRow s 7 (fun s w => (recQuads w).foldl (fun s q => freshKey (setSeal (zeroise s q) q false) q) s))

/-- FUSE_WRITE (R355, R465): bits are set and never cleared; the row is sensed again at once. -/
def execFuseWrite (s : State) : Res :=
  .next (commitRow s 8 (fun s w =>
    let row := recTgt w
    let v := tget 0 s.cus.fuses row ||| BitVec.ofNat 32 (recArg w)
    { s with cus := { s.cus with fuses := tput 0 s.cus.fuses row v, sensed := tput 0 s.cus.sensed row v } }))

/-- DEBUG_ENABLE (R370), in the order of its five steps. The keys of a ROLE 0 group follow from no secret and are derived
again at once (DEDUCED, R380). -/
def execDebugEnable (s : State) : Res :=
  .next (commitRow s 9 (fun s w =>
    let s := [0, 1, 2, 3].foldl jobFault s
    let s := [0, 1, 2, 3].foldl (fun s q => if sealed s q then setSeal (zeroise s q) q false else s) s
    let s := { s with cus := { s.cus with keys := [], keyVals := [] } }
    let s := (List.range 24).foldl (fun s g =>
      if (getLink s g).role = 1 then
        let s := setLink s g { getLink s g with keys := [] }
        if (getLink s g).st ≠ .failed then linkFail s g else s
      else s) s
    let s := topCheckD s 0
    let s := [0, 1, 2, 3].foldl freshKey s
    cusPost { s with cus := { s.cus with debug := true } } sevError 0x0F06 w rCommitted
      (match s.cus.origin with | .host => .bmc | .bmc => .host)))

/-- DEBUG_DISABLE (R370). -/
def execDebugDisable (s : State) : Res :=
  .next (commitRow s 10 (fun s _ => { s with cus := { s.cus with debug := false } }))

/-- CUS_EXPIRE (R358): at the deadline the pending staging is discarded; the record is kept to answer a
confirm that comes later. A confirm issued in time is verified all the same. -/
def execCusExpire (s : State) : Res :=
  .next (
    let c := s.cus
    if c.busy ∧ c.commit.isNone ∧ c.dline ≤ s.clk.dst then
      cusPost { s with cus := { c with busy := false } } sevWarning 0x0F03 c.pend rExpired c.origin
    else s)

/-- CUS_LOCK_EXPIRY (R359). -/
def execCusLockExpiry (s : State) : Res :=
  .next (match s.cus.lockAt with
    | some t => if t ≤ s.clk.dst then { s with cus := { s.cus with lockAt := none } } else s
    | none => s)

/-- ZEROISE_DONE (R369). -/
def execZeroiseDone (q : Fin 4) (s : State) : Res :=
  .next { s with cus := { s.cus with zbusy := s.cus.zbusy &&& ~~~ BitVec.ofNat 4 (2 ^ q.val) } }

end Sys2Proof.Machine
end

