-- ==== Sys2Proof/Machine/HostOps.lean ====
section
/-! DEFINITION. Host interface, Ledger and sensors: their shared steps (R421 to R449). -/

namespace Sys2Proof.Machine

/-! ## BAR2 (R424 to R426) -/

/-- Fields of HST_WIN (R424). -/
def winIdx (w : W32) : Nat := fld w 8 6
def winStk (w : W32) : Nat := fld w 5 4
def winQd (w : W32) : Nat := fld w 3 2
def winInter (w : W32) : Bool := bit w 1

/-- IDX and STK are in range (R424). -/
def winOk (w : W32) : Bool :=
  if winInter w then decide (winIdx w ≤ 5) && decide (winStk w = 0)
  else decide (winIdx w ≤ 1) && decide (winStk w ≤ 2)

/-- HST_WIN. -/
def winReg (s : State) : W32 := reg s (at' pgHST 0x100)

/-- The BAR2 request that an offset makes through the window in force (R424, R425). -/
def winReq (s : State) (off len tag : Nat) (data : Option (List Byte)) : Bar2 :=
  let w := winReg s
  { q := Fin.ofNat 4 (winQd w), inter := winInter w, st := winStk w, byte := 2 ^ 36 * winIdx w + off, len := len,
    tag := tag, data := data }

/-- Module address of byte i of a request. -/
def Bar2.addr (r : Bar2) (i : Nat) : Nat :=
  if r.inter then hbmInter r.q.val (r.byte + i) else hbmAddr r.q.val r.st (r.byte + i)

/-- Cells of the host class that a request takes. -/
def bar2Cells (data : Option (List Byte)) : Nat := match data with | some d => max 1 (byteCells d.length) | none => 1

/-- A refused read of a sealed quadrant (R368): counted, logged at most once per 1 ms. -/
def sealDeny (s : State) (q : Nat) : State :=
  let s := bump s (at' pgCUS 0x114) 1
  let quiet : Bool := match s.ldg.sealDeny with | none => false | some t => decide (s.clk.dst < t + msTicks)
  if quiet then s
  else
    let s := post s pgCUS sevWarning 0x0F05 (owner s q) 0 0
    { s with ldg := { s.ldg with sealDeny := some s.clk.dst } }

/-- A quadrant has host slots now (R21, R53, R426): all slots with no job resident, none while it admits,
else those that the job's slot tables reserve. -/
def hostSlots (s : State) (q : Nat) : Bool :=
  !quadRst s q && (match residentOn s q with
  | none => true
  | some j => match (getJob s j).img with
    | some _ => slotNow s j .host q
    | none => false)

/-- Whose job a host access that overruns the window of R151 faults: the one running on the quadrant. -/
def hostWho (s : State) (q : Nat) : Who :=
  match runningOn s q with
  | some j => { acc := accOf s j, job := some j }
  | none => { acc := 0, job := none }

/-- A host access faults no job with an uncorrectable error (R152). -/
def noJob : Who := { acc := 0, job := none }

/-- Serve a BAR2 request. A read that the controller drops or cannot correct completes with Completer
Abort (DESIGN CHOICE, log 64). -/
def serveBar2 (s : State) (r : Bar2) : State :=
  let as := (List.range (match r.data with | some d => d.length | none => r.len)).map r.addr
  let c := chargeCells s (hostWho s r.q.val) (as.map (fun a => (a, 0)))
  match r.data with
  | some d => if c.2 then store c.1 noJob (as.zip d) else c.1
  | none =>
    if !c.2 then emit c.1 (.cpl 4 r.tag [])
    else
      let k := readCheck c.1 noJob as
      if k.2 then emit k.1 (.cpl 0 r.tag (as.map (rdByte k.1))) else emit k.1 (.cpl 4 r.tag [])

/-! ## Host moves (R427 to R430) -/

def hmHaddr (d : BitVec 512) : Nat := fld d 63 0
def hmGaddr (d : BitVec 512) : Nat := fld d 127 64
def hmLen (d : BitVec 512) : Nat := fld d 159 128
def hmOp (d : BitVec 512) : Nat := fld d 167 160
def hmIrq (d : BitVec 512) : Bool := bit d 168
def hmCr (d : BitVec 512) : Bool := bit d 169
def hmClu (d : BitVec 512) : Nat := fld d 179 176
def hmCC (d : BitVec 512) : Nat := fld d 184 180
def hmAcc (d : BitVec 512) : Nat := fld d 203 192
/-- Reserved fields: FLG[7:2], CNT[15:9], ACC[15:12], bytes 26 to 59. -/
def hmRsv (d : BitVec 512) : Bool :=
  decide (fld d 175 170 ≠ 0) || decide (fld d 191 185 ≠ 0) || decide (fld d 207 204 ≠ 0) || decide (fld d 479 208 ≠ 0)

/-- Registers of ring r (R446). -/
def ringOff (r o : Nat) : Nat := at' pgHST (o + 0x20 * r)
def ringBase (s : State) (r : Nat) : Nat :=
  (reg s (ringOff r 0x200)).toNat + 2 ^ 32 * (reg s (ringOff r 0x204)).toNat
def ringSize (s : State) (r : Nat) : Nat := 2 ^ fld (reg s (ringOff r 0x208)) 4 0
def ringOn (s : State) (r : Nat) : Bool := bit (reg s (ringOff r 0x208)) 8

/-- Space 0x0 or 0x1 of this module, whole in one unit (R144, R429 status 3). -/
def hmAddrOk (s : State) (d : BitVec 512) : Option GA :=
  match gaParse (hmGaddr d) with
  | none => none
  | some g =>
    if g.space ≤ 1 ∧ g.node = s.top.node.toNat ∧ gaOk s g g.byte ∧ gaOk s g ((g.byte + hmLen d - 1 : Nat) : Int)
    then some g else none

/-- The accession owns the quadrant and has a job resident on it (R429 status 5). -/
def hmCredit (s : State) (d : BitVec 512) (q : Nat) : Bool :=
  (owner s q).toNat == hmAcc d && residentJobOn s (hmAcc d) q

/-- The checks of R429 in order: 0, or the status of the first that fails. -/
def hmCheck (s : State) (d : BitVec 512) : Nat :=
  if hmLen d = 0 then 1
  else if (hmOp d ≠ 1 ∧ hmOp d ≠ 2) ∨ hmRsv d then 2
  else match hmAddrOk s d with
  | none => 3
  | some g =>
    if hmOp d = 2 ∧ sealed s g.q then 4
    else if hmCr d ∧ ¬ hmCredit s d g.q then 5
    else 0

/-- Write STS of the descriptor at a ring's head and advance the head (R429, R430). -/
def hmDone (s : State) (r status : Nat) : State :=
  let x := getRing s r
  let s := emit s (.hostWr (ringBase s r + 64 * x.head + 60) (bytesOf 4 (2 ^ 31 + status)))
  setRing s r { x with head := (x.head + 1) % ringSize s r, last := if status = 0 then x.last else status, run := none,
                       moved := 0, got := [], gaps := [] }

/-- Requests of at most `m` bytes that cover `n` bytes of host memory from an address (R430). -/
def hostReqs (m a n : Nat) : List (Nat × Nat) := (List.range (cdiv n m)).map (fun i => (a + m * i, min m (n - m * i)))

/-- The reads of host memory that a move to the module asks for (R430). -/
def hostReads (s : State) (d : BitVec 512) : State :=
  if hmOp d = 1 then (hostReqs 4096 (hmHaddr d) (hmLen d)).foldl (fun s r => emit s (.hostRd r.1 r.2)) s else s

/-- The writes of host memory of a move to the host (R430). -/
def hostWrites (s : State) (a : Nat) (bs : List Byte) : State :=
  (hostReqs 512 a bs.length).foldl (fun s r => emit s (.hostWr r.1 ((bs.drop (r.1 - a)).take r.2))) s

/-- 64 B lines of a host move. -/
def hmLines (g : GA) (d : BitVec 512) : Nat := rowLines g.byte (hmLen d)

/-- Module addresses of the bytes of its line i. -/
def hmLine (g : GA) (d : BitVec 512) (i : Nat) : List Nat :=
  (((List.range 64).map (64 * (g.byte / 64 + i) + ·)).filter
    (fun b => decide (g.byte ≤ b) && decide (b < g.byte + hmLen d))).map (gaByte g)

/-- Line `i` is requested: within the window of R151; of an OP 2 it is read (R152), and of a quadrant sealed meanwhile no
further line is (R350, R368). -/
def hostLine (s : State) (r : Nat) (g : GA) (d : BitVec 512) : State :=
  let x := getRing s r
  let as := hmLine g d x.moved
  let a0 := as.headD 0
  let gap := fun (s : State) (n : Nat) => setRing s r { x with moved := n, gaps := x.gaps ++ [x.moved] }
  if hmOp d = 2 ∧ sealed s g.q then gap (sealDeny s g.q) (hmLines g d)
  else
    let a := hbmAccept s (hostWho s g.q) (quadOf a0) (stackOf a0) s.clk.dst 1 a0
    if !a.2 then gap a.1 (x.moved + 1)
    else if hmOp d = 1 then setRing a.1 r { x with moved := x.moved + 1 }
    else
      let c := readCheck a.1 noJob as
      if c.2 then setRing c.1 r { x with moved := x.moved + 1, got := x.got ++ as.map (rdByte c.1) }
      else gap c.1 (x.moved + 1)

/-- The running move of a ring on a quadrant, with lines still to request. -/
def ringMove (s : State) (q r : Nat) : Option (GA × BitVec 512) :=
  match (getRing s r).run with
  | none => none
  | some d => match hmAddrOk s d with
    | some g => if g.q = q ∧ (getRing s r).moved < hmLines g d then some (g, d) else none
    | none => none

/-- A core cycle of the host-move engine (R426, R430): in a host slot of a quadrant one line of one ring's move is
requested. DESIGN CHOICE: the spec says that the bytes go in host slots and not how many in one; the lowest ring goes
first, one line in a core cycle (log 64). -/
def hostTick (s : State) : State :=
  [0, 1, 2, 3].foldl (fun s q =>
    match [0, 1, 2, 3].find? (fun r => (ringMove s q r).isSome) with
    | none => s
    | some r => match ringMove s q r with
      | some m => if hostSlots s q then hostLine s r m.1 m.2 else s
      | none => s) s

/-- A ring may give the engine its next descriptor. -/
def ringReady (s : State) (r : Nat) : Bool :=
  let x := getRing s r
  ringOn s r && !x.halt && x.run.isNone && decide (x.head ≠ x.tail)

/-- The ring whose turn it is, in round robin (R428). -/
def ringTurn (s : State) : Option Nat :=
  ([0, 1, 2, 3].map (fun i => (s.ringRr + i) % 4)).find? (ringReady s)

/-- The ring halts (R430). -/
def ringFail (s : State) (r : Nat) : State :=
  let s := post s pgHST sevError 0x1202 0 (BitVec.ofNat 32 (4 * 2 ^ 29 + r)) 6
  let s := hmDone s r 6
  raiseInt (setRing s r { getRing s r with halt := true }) pgHST r

/-- Steps after the last byte (R430): credit, STS, vector. -/
def ringOk (s : State) (r : Nat) (d : BitVec 512) (q : Nat) : State :=
  let s := if hmCr d ∧ hmCredit s d q then credit s (16 * q + hmClu d) (hmCC d) 1 else s
  let s := hmDone s r 0
  if hmIrq d then raiseInt s pgHST r else s

/-- A write of HST_RING_CTL (R446): EN always; SZ of 4 to 16 while EN is 0; RESTART resumes a halted ring. -/
def ringCtl (s : State) (r : Nat) (v : W32) : State :=
  let off := ringOff r 0x208
  let old := reg s off
  let sz := if bit old 8 ∨ fld v 4 0 < 4 ∨ 16 < fld v 4 0 then fld old 4 0 else fld v 4 0
  let s := setReg s off (BitVec.ofNat 32 (sz + (if bit v 8 then 0x100 else 0)))
  if bit v 9 then setRing s r { getRing s r with halt := false } else s

/-! ## Ledger (R437 to R441, R447) -/

/-- The 32 bytes of an entry (R437). -/
def entryBytes (e : Entry) : List Byte :=
  bytesOf 8 e.dst ++ [BitVec.ofNat 8 e.fine.toNat, BitVec.ofNat 8 (e.sev + (if e.loss then 128 else 0))]
    ++ bytesOf 2 e.src ++ bytesOf 2 e.code ++ bytesOf 2 e.acc.toNat ++ bytesOf 4 e.d0.toNat ++ bytesOf 4 e.d1.toNat
    ++ bytesOf 4 e.seq.toNat ++ bytesOf 4 0

/-- Entry in a slot. -/
def ldgSlot (s : State) (n : Nat) : Entry := tget Entry.zero s.ldg.slots n

/-- The Ledger has committed in this core cycle (R438); while the root stands still there are no cycles to count. -/
def ldgSpent (s : State) : Bool := rootRuns s && s.ldg.cycle == some (s.clk.dst / 4)

/-- A reader 8,192 entries behind is moved on by one (R439). -/
def ldgPush (s : State) : State :=
  let l := s.ldg
  let s := if 8192 < l.wr - l.rd then
      let s := lostItem (bump s (at' pgLDG 0x108) 1) 8 1
      { s with ldg := { s.ldg with rd := l.rd + 1 } } else s
  if 8192 < l.wr - l.bmc then
    { s with ldg := { s.ldg with bmc := l.bmc + 1, bmcLost := min 0xFFFFFFFF (l.bmcLost + 1) } } else s

/-! ## Events and sensors (R435) -/

/-- A platform event message, at most 100 in a second to the receiver that is set; the rest is counted. -/
def sendEvent (s : State) (kind val : Nat) : State :=
  if s.mgt.recv = 0 ∨ ¬ mgtAddressed s then s
  else
    let new := decide (s.mgt.evAt + 1000 * msTicks ≤ s.clk.dst)
    let n := if new then 0 else s.mgt.evCount
    if 100 ≤ n then bump s (at' pgMGT 0x108) 1
    else
      emit { s with mgt := { s.mgt with evCount := n + 1, evAt := if new ∨ n = 0 then s.clk.dst else s.mgt.evAt } }
        (.event kind val)

/-- A signed 16-bit field of a register. -/
def s16 (w : W32) (lo : Nat) : Int := sfld w (lo + 15) lo

/-- Value of a sensor now, in the units of its source register (R435). -/
def sensorNow (s : State) (n : Nat) : Int :=
  let r := fun o => reg s (at' pgPWR o)
  if n = 1 then (fld (r 0x100) 15 0 : Nat)
  else if n = 2 then (fld (r 0x100) 31 16 : Nat)
  else if n ≤ 6 then (fld (r (0x110 + 4 * (n - 3))) 15 0 : Nat)
  else if n ≤ 10 then s16 (r (0x120 + 4 * (n - 7))) 0
  else if n = 11 then s16 (r 0x130) 0
  else if n ≤ 23 then tget 0 s.pwr.hbmT (n - 12)
  else if n = 24 then s16 (r 0x140) 0
  else if n = 25 then s16 (r 0x140) 16
  else if n = 26 then s.opt.temp
  else (((List.range 24).filter (fun g => (getLink s g).st == .up)).length : Nat)

/-- Thresholds of a sensor: lower critical and warning, upper warning, critical and fatal (R435). -/
def sensorLimits (n : Nat) : Option Int × Option Int × Option Int × Option Int × Option Int :=
  if n = 1 then (some 3600, some 4000, some 6000, some 6200, none)
  else if n = 2 then (none, none, some 3000, none, none)
  else if n ≤ 6 then (none, none, some 4800, some 5280, none)
  else if n ≤ 11 then (none, none, some 1000, some 1100, some 1150)
  else if n ≤ 23 then (none, none, some 950, some 1050, none)
  else if n = 24 then (none, none, some 400, some 450, none)
  else if n = 25 then (none, none, some 580, some 630, none)
  else if n = 26 then (none, some 600, some 750, some 800, none)
  else (none, none, none, none, none)

/-- State of a sensor: 0 normal, 1 to 3 upper warning, critical, fatal, 4 and 5 lower warning, critical.
The die temperatures of R411 count at their limit, all others beyond it (log 65). -/
def sensorState (n : Nat) (v : Int) : Nat :=
  let l := sensorLimits n
  let at7 := decide (7 ≤ n ∧ n ≤ 23)
  let isHi := fun (t : Option Int) => match t with
    | some t => decide (t < v) || (at7 && decide (t = v))
    | none => false
  let isLo := fun (t : Option Int) => match t with | some t => decide (v < t) | none => false
  if isHi l.2.2.2.2 then 3 else if isHi l.2.2.2.1 then 2 else if isHi l.2.2.1 then 1
  else if isLo l.1 then 5 else if isLo l.2.1 then 4 else 0

/-- What the endpoint tells of a sensor's thresholds: which it offers, then upper warning, critical and fatal and lower
warning and critical as 32-bit values, 0 where there is none. PRESUMED: the spec gives no layout (log 66). -/
def thresholdBytes (n : Nat) : List Byte :=
  let l := sensorLimits n
  let ts := [l.2.2.1, l.2.2.2.1, l.2.2.2.2, l.2.1, l.1]
  BitVec.ofNat 8 (sumNat ((List.range 5).map (fun i => if (ts.getD i none).isSome then 2 ^ i else 0)))
    :: ts.flatMap (fun t => bytesOf 4 ((t.getD 0) % 2 ^ 32).toNat)

/-- One sensor is updated; a change of its state sends an event. -/
def updateSensor (s : State) (n : Nat) : State :=
  let v := sensorNow s n
  let st := sensorState n v
  let old := tget 0 s.mgt.sst n
  let s := { s with mgt := { s.mgt with vals := tput 0 s.mgt.vals n v, sst := tput 0 s.mgt.sst n st } }
  if st = old then s else sendEvent s n st

/-! ## Custody registers (R374, R375) -/

def bl (b : Bool) : Nat := if b then 1 else 0

/-- CUS_STATUS. -/
def cusStatus (s : State) : Nat :=
  let c := s.cus
  256 * c.seals.toNat + 16 * bl (c.zbusy != 0) + 8 * bl c.lockAt.isSome + 4 * bl c.debug
    + 2 * (if c.busy then partyBit c.origin else 0) + bl c.busy

/-- CUS_TIMER: milliseconds left to the deadline. -/
def cusTimer (s : State) : Nat := if s.cus.busy then cdiv (s.cus.dline - s.clk.dst) msTicks else 0

/-- CUS_PEND as 64 words. -/
def cusPend (s : State) : BitVec 2048 := if s.cus.busy then s.cus.pend else 0

end Sys2Proof.Machine
end

