-- ==== Sys2Proof/Machine/HostIf.lean ====
section
/-! DEFINITION. Meanings: host interface, management, Ledger, SYNC_IN, debug (R21, R377, R421 to R449). -/

namespace Sys2Proof.Machine

/-- HST_WIN_WRITE (R424). -/
def execHstWinWrite (v : W32) (s : State) : Res :=
  .next (hostWrite s pgHST 0x100 (fun s =>
    if winOk v then setReg s (at' pgHST 0x100) (v &&& 0x1FF) else badWrite s pgHST 0x100))

/-- BAR2_READ (R368, R425, R426): refused with the window disabled, for a sealed quadrant, or with the hub
in reset; it waits outside, unchanged, while the host class has no cell (R294). -/
def execBar2Read (off len tag : Nat) (s : State) : Res :=
  .next (
    let r := winReq s off len tag none
    if !s.bup.bar0 then s
    else if !bit (winReg s) 0 || !pageLive s pgQP then emit s (.cpl 1 tag [])
    else if sealed s r.q.val then emit (sealDeny s r.q.val) (.cpl 1 tag [])
    else if clsRoom s 5 1 then { s with bar2 := s.bar2 ++ [r] }
    else s)

/-- BAR2_WRITE (R368, R425, R426): a sealed quadrant accepts it; discarded with the window disabled. -/
def execBar2Write (off : Nat) (data : List Byte) (s : State) : Res :=
  .next (
    if !s.bup.bar0 || !bit (winReg s) 0 || !pageLive s pgQP then s
    else if clsRoom s 5 (bar2Cells (some data)) then
      { s with bar2 := s.bar2 ++ [winReq s off data.length 0 (some data)] }
    else s)

/-- HOST_SLOT_SERVICE (R21, R296, R426): the oldest request of the quadrant. A read of a quadrant sealed
since it was queued is refused (R368). -/
def execHostSlotService (q : Fin 4) (s : State) : Res :=
  .next (
    if !hostSlots s q.val then s
    else match findIdx? (fun (r : Bar2) => r.q == q) s.bar2 0 with
    | none => s
    | some (i, r) =>
      let c := qCheck { s with bar2 := removeAt s.bar2 i } (0xB0 + q.val)
      let s := c.1
      if c.2 ≠ 0 then
        let s := post (bump s (at' pgQP 0x11C) 1) pgQP sevError 0x0C0E 0 0 0
        if r.data.isNone then emit s (.cpl 4 r.tag []) else s
      else if r.data.isNone && sealed s q.val then emit (sealDeny s q.val) (.cpl 1 r.tag [])
      else serveBar2 s r)

/-- DOORBELL (R428). -/
def execDoorbell (r : Fin 4) (v : W32) (s : State) : Res :=
  .next (
    let t := fld v 15 0
    if !s.bup.bar0 then s
    else if !pageLive s pgHST ∨ ringSize s r.val ≤ t then badAcc s 4 (4096 * r.val)
    else setRing s r.val { getRing s r.val with tail := t })

/-- HOST_MOVE (R428, R429): the engine takes the descriptor at the head of the ring whose turn it is. -/
def execHostMove (r : Fin 4) (desc : BitVec 512) (s : State) : Res :=
  .next (
    if ringTurn s ≠ some r.val ∨ ¬ pageLive s pgHST then s
    else
      let s := { s with ringRr := (r.val + 1) % 4 }
      let st := hmCheck s desc
      if st = 0 then
        hostReads (setRing s r.val { getRing s r.val with run := some desc, moved := 0, got := [], gaps := [] }) desc
      else
        let s := if st = 4 then (match gaParse (hmGaddr desc) with | some g => sealDeny s g.q | none => s) else s
        hmDone s r.val st)

/-- Bytes that have come for a move to the module land, but of lines that no host slot took or the memory dropped. -/
def hostLand (s : State) (x : Ring) (g : GA) (d : BitVec 512) (data : List Byte) : State :=
  let ls := (List.range (min x.moved (hmLines g d))).filter (fun i => !x.gaps.contains i)
  let cs := ls.flatMap (fun i => (hmLine g d i).map (fun a => (i, a)))
  let at0 := fun (i k : Nat) => 64 * i + k - (if i = 0 then 0 else g.byte % 64)
  let bs := ls.flatMap (fun i => (List.range (hmLine g d i).length).map (at0 i))
  store s noJob (((cs.zip bs).filter (fun c => decide (c.2 < data.length))).map (fun c => (c.1.2, data.getD c.2 0)))

/-- HOST_MOVE_COMPLETE (R430), once every line has had its host slot: the bytes are in place (OP 1) or go to the host (OP
2), then the credit, STS and the vector; a failed completion halts the ring, after the bytes that had come, and so does
data that the memory did not deliver or that a seal keeps in (R350; DESIGN CHOICE, log 64). -/
def execHostMoveComplete (r : Fin 4) (res : HostResult) (s : State) : Res :=
  .next (
    let x := getRing s r.val
    match x.run with
    | none => s
    | some d =>
      match hmAddrOk s d with
      | none => ringFail s r.val
      | some g =>
        match res with
        | .fail data => ringFail (if hmOp d = 1 then hostLand s x g d data else s) r.val
        | .ok data =>
          if x.moved < hmLines g d then s
          else if hmOp d = 1 then ringOk (hostLand s x g d (fit 0 (hmLen d) data)) r.val d g.q
          else if sealed s g.q then ringFail (sealDeny s g.q) r.val
          else if !x.gaps.isEmpty then ringFail s r.val
          else ringOk (hostWrites s (hmHaddr d) x.got) r.val d g.q)

/-- RING_RESTART (R430, R446). -/
def execRingRestart (r : Fin 4) (v : W32) (s : State) : Res :=
  .next (hostWrite s pgHST (0x208 + 0x20 * r.val) (fun s => ringCtl s r.val v))

/-! ## Management (R432 to R436) -/

/-- SET_ENDPOINT_ID (R432). -/
def execSetEndpointId (eid : Byte) (s : State) : Res :=
  .next (if mgtLive s then emit { s with mgt := { s.mgt with eid := eid } } (.mctp 1 0 [eid]) else s)

/-- MCTP_CONTROL (R432, R433): answered, with or without an endpoint ID. -/
def execMctpControl (cmd : Byte) (s : State) : Res :=
  .next (if mgtLive s then emit s (.mctp cmd.toNat 0 []) else s)

/-- PLDM completion codes (PRESUMED, the PLDM base specification; log 66). -/
def pldmError : Nat := 0x01
def pldmUnsupported : Nat := 0x05
def pldmInvalidType : Nat := 0x20
def pldmInvalidSensor : Nat := 0x80

/-- PLDM_REQUEST (R433, R435): types 0 and 2 are answered; thresholds cannot be set. -/
def execPldmRequest (ty : Nat) (req : PldmReq) (s : State) : Res :=
  .next (
    if !mgtAddressed s then s
    else if ty ≠ 0 ∧ ty ≠ 2 then emit s (.mctp 1 pldmInvalidType [])
    else match req with
      | .base cmd => emit s (.mctp 1 (if ty = 0 then 0 else pldmUnsupported) [cmd])
      | .other cmd => emit s (.mctp 1 pldmUnsupported [cmd])
      | .getSensor id =>
        if ty ≠ 2 then emit s (.mctp 1 pldmUnsupported [])
        else if id = 0 ∨ 27 < id then emit s (.mctp 1 pldmInvalidSensor [])
        else emit s (.mctp 1 0 (bytesOf 4 (tget 0 s.mgt.vals id % 2 ^ 32).toNat ++ [BitVec.ofNat 8 (tget 0 s.mgt.sst id)]))
      | .getThresholds id =>
        if ty ≠ 2 then emit s (.mctp 1 pldmUnsupported [])
        else if id = 0 ∨ 27 < id then emit s (.mctp 1 pldmInvalidSensor [])
        else emit s (.mctp 1 0 (thresholdBytes id))
      | .setThreshold _ => emit s (.mctp 1 (if ty = 2 then pldmError else pldmUnsupported) [])
      | .setEventReceiver eid =>
        if ty ≠ 2 then emit s (.mctp 1 pldmUnsupported [])
        else emit { s with mgt := { s.mgt with recv := eid } } (.mctp 1 0 []))

/-- MCTP_DISCARD (R433): a message of any other type. -/
def execMctpDiscard (ty : Nat) (s : State) : Res :=
  .next (if mgtLive s ∧ ty ≠ 0 ∧ ty ≠ 1 ∧ ty ≠ 0x7E then bump s (at' pgMGT 0x104) 1 else s)

/-- A vendor command that ends at once. -/
def vendorNow (s : State) (cmd : Nat) (f : State → State) : State :=
  vendor s cmd (fun s => f { s with mgt := { s.mgt with busy := false } })

/-- CUS_READ (R434). -/
def execCusRead (s : State) : Res :=
  .next (vendorNow s 4 (fun s => emit s (.mctp 4 0
    (bytesOf 4 (cusStatus s) ++ bytesOf 4 s.cus.nonce.toNat ++ bytesOf 4 (cusTimer s) ++ bytesOf 4 s.cus.result
      ++ bytesOf 256 (cusPend s).toNat))))

/-- LDG_READ (R434, R437, R439): the lost count, then up to `count` entries from the BMC pointer. -/
def execLdgRead (count : Nat) (s : State) : Res :=
  .next (vendorNow s 5 (fun s =>
    if count = 0 ∨ 16 < count then emit s (.mctp 5 1 [])
    else
      let l := s.ldg
      let n := min count (l.wr - l.bmc)
      let es := (List.range n).flatMap (fun i => entryBytes (ldgSlot s ((l.bmc + i) % 8192)))
      emit { s with ldg := { l with bmc := l.bmc + n, bmcLost := 0 } } (.mctp 5 0 (bytesOf 4 l.bmcLost ++ es))))

/-- SENSOR_UPDATE (R435). -/
def execSensorUpdate (s : State) : Res :=
  .next (if mgtLive s then ((List.range 27).map (· + 1)).foldl updateSensor s else s)

/-- TELEMETRY_RECORD (R436). -/
def execTelemetryRecord (s : State) : Res :=
  .next (
    if !pageLive s pgMGT || !pageLive s pgQP then s
    else
      let vs := ((List.range 27).map (· + 1)).flatMap (fun n => bytesOf 4 (tget 0 s.mgt.vals n % 2 ^ 32).toNat)
      let r := bytesOf 8 s.clk.dst ++ bytesOf 8 s.mgt.telSeq ++ vs ++ bytesOf 4 0
      let s := pushRec s 6 r
      { s with mgt := { s.mgt with telSeq := s.mgt.telSeq + 1 } })

/-! ## Ledger -/

/-- Lowest source with an entry waiting (R438). -/
def ldgNext (w : List Entry) : Option (Nat × Entry) :=
  let m := w.foldl (fun (a : Option Nat) e => match a with | none => some e.src | some x => some (min x e.src)) none
  match m with
  | none => none
  | some x => findIdx? (fun e => decide (e.src = x)) w 0

/-- LEDGER_COMMIT (R431, R435, R438, R439, R460): at most one entry in a core cycle. -/
def execLedgerCommit (s : State) : Res :=
  .next (if ldgSpent s then s else match ldgNext s.ldg.wait with
    | none => s
    | some (i, e) =>
      let s := itemCheck s 0x202 8 (fun s =>
        { s with ldg := { s.ldg with slots := tput Entry.zero s.ldg.slots (s.ldg.rd % 8192) Entry.zero } })
      let l := s.ldg
      let e := { e with loss := l.loss.contains e.src, seq := BitVec.ofNat 32 l.wr }
      let s := { s with ldg := { l with
        wait := removeAt l.wait i, loss := l.loss.filter (· != e.src)
        slots := tput Entry.zero l.slots (l.wr % 8192) e, wr := l.wr + 1, cycle := some (s.clk.dst / 4) } }
      let s := ldgPush s
      if e.sev < sevError then s else sendEvent (raiseInt s pgLDG 0) 0x100 e.code)

/-- LDG_RD_WRITE (R439, R447): the pointer stays within the 8,192 entries before LDG_WR. -/
def execLdgRdWrite (v : W32) (s : State) : Res :=
  .next (hostWrite s pgLDG 0x104 (fun s =>
    let back := (s.ldg.wr + 2 ^ 32 - v.toNat) % 2 ^ 32
    if 8192 < back ∨ s.ldg.wr < back then s
    else { s with ldg := { s.ldg with rd := s.ldg.wr - back } }))

/-! ## SYNC_IN (R442 to R444, R449) -/

def syncCtl (s : State) : W32 := reg s (at' pgSYNC 0x100)

/-- The reference has precedence (R443). -/
def refActive (s : State) : Bool := isRoot s && bit (syncCtl s) 0

/-- One suppressed trigger edge (R443). -/
def suppress (s : State) : State := if bit (syncCtl s) 1 then bump s (at' pgSYNC 0x110) 1 else s

/-- Ticks of a second. -/
def secTicks : Nat := 1000 * msTicks

/-- An invalid second, or an edge that did not come (R442): EXTREF clears with an entry; the pull stays. -/
def refLost (s : State) : State :=
  post { s with clk := { s.clk with extref := false }, sync := { s.sync with valid := 0 } } pgSYNC sevWarning 0x1203 0 0 0

/-- Discipline to the reference (R28, R30, R379, R442): the pull follows the interval, and the edge is
steered to the nearest multiple of one second. -/
def refSteer (s : State) (gap : Nat) : State :=
  let p := s.clk.pull - ((gap : Int) - secTicks) / 6
  let s := { s with clk := { s.clk with pull := max (-50000) (min 50000 p) } }
  let e : Int := (s.clk.dst % secTicks : Nat)
  let e := if (secTicks : Int) / 2 < e then e - secTicks else e
  steer s (-(256 * e))

/-- PPS_EDGE (R442, R443). -/
def execPpsEdge (bEdges : Nat) (s : State) : Res :=
  .next (
    if !refActive s then s
    else
      let s := suppress s
      let y := s.sync
      let s1 := { s with sync := { y with pps := some s.clk.dst } }
      match y.pps with
      | none => { s1 with sync := { s1.sync with gap := none, valid := 0 } }
      | some t =>
        let gap := s.clk.dst - t
        let near := fun (a b n : Nat) => decide (a ≤ b + n) && decide (b ≤ a + n)
        let ok := near gap secTicks 150000 && near bEdges 10000000 50
          && (match y.gap with | some g => near gap g 600 | none => true)
        let s2 := { s1 with sync := { s1.sync with gap := some gap } }
        if !ok then refLost s2
        else
          let s3 := { s2 with sync := { s2.sync with valid := y.valid + 1 } }
          let s4 := if 3 ≤ y.valid + 1 then { s3 with clk := { s3.clk with extref := true } } else s3
          if s4.clk.extref then refSteer s4 gap else s4)

/-- SYNC_REF_LOST (R442): no edge within 1.0001 s. -/
def execSyncRefLost (s : State) : Res :=
  .next (match s.sync.pps with
    | none => s
    | some t =>
      if refActive s ∧ t + 6000600000 ≤ s.clk.dst then
        let s := refLost s
        { s with sync := { s.sync with pps := none, gap := none } }
      else s)

/-- SYNC_TRIG (R443, R444): an edge on SYNC_IN_A as a debug trigger. -/
def execSyncTrig (s : State) : Res :=
  .next (
    if !pageLive s pgSYNC then s
    else if refActive s then suppress s
    else if !bit (syncCtl s) 1 then s
    else
      let soon : Bool := match s.sync.trig with | some t => decide (s.clk.dst < t + usTicks) | none => false
      if soon then bump s (at' pgSYNC 0x110) 1
      else
        let s := { s with sync := { s.sync with
          trig := some s.clk.dst, dst := s.clk.dst, fine := s.clk.fine
          frozen := s.sync.frozen || bit (syncCtl s) 2 } }
        raiseInt (post s pgSYNC sevWarning 0x1204 0 0 0) pgSYNC 0)

/-- A host read of a register in service: `f` acts and gives the value; 0 where the page is absent or not in
service (its reset value), nothing before BAR0 decodes. -/
def hostRead (s : State) (page off : Nat) (f : State → State × W32) : State :=
  if !s.bup.bar0 then s
  else if pageAbsent s page then emit s (.rd 0)
  else if pageLive s page then
    let r := f s
    emit r.1 (.rd r.2)
  else emit s (.rd (regReset (at' page off)))

/-- SYNC_TRIG_DST_LO_READ (R449). -/
def execSyncTrigDstLoRead (s : State) : Res :=
  .next (hostRead s pgSYNC 0x104 (fun s =>
    ({ s with sync := { s.sync with hi := BitVec.ofNat 32 (s.sync.dst / 2 ^ 32)
                                    fineL := BitVec.ofNat 32 s.sync.fine.toNat } },
     BitVec.ofNat 32 s.sync.dst)))

/-! ## PCIe configuration and debug -/

/-- CONFIGURATION_REQUEST (R377): Request Retry Status until BAR0 decodes. -/
def execConfigurationRequest (s : State) : Res :=
  .next (if s.bup.perst ∧ s.bup.railsOn ∧ 2 ≤ s.bup.phase then emit s (.cfg s.bup.bar0) else s)

/-- The priority of the access of the grid that a debug access of a shelf byte meets on its bank in the core cycle of the
next core edge (R45): debug access has the lowest, 6. -/
def debugMeets (s : State) (a : Nat) : Option Nat :=
  let t := 4 * cdiv s.clk.dst 4
  let us := (allUses { s with clk := { s.clk with dst := t } }).filter (fun u => some u.res == resOf (lineOf a) u.wr)
  (us.find? (fun u => us.all (fun v => decide (u.prio ≤ v.prio)))).map Use.prio

/-- A debug access of a shelf byte: dropped where the grid uses its bank, which faults the job (R45). -/
def debugShelf (s : State) (c : CoreId) (addr : Nat) (f : State → State) : State :=
  if !s.cus.debug ∨ offered s c.cl.q.val ≤ c.cl.c.val then s
  else match debugMeets s (shelfAddr c addr) with
    | some p => cluCollide s c.cl { hi := p, lo := 6 }
    | none => f s

/-- DEBUG_ACCESS (R45, R148, R368, R370): shelf bytes while debug is enabled; boundary scan is always there
and touches no state of the device. A debug instruction that debug opens has no stated effect. -/
def execDebugAccess (a : DebugOp) (s : State) : Res :=
  match a with
  | .boundary => .next s
  | .instr _ => if s.cus.debug then .refused .jtagInstruction else .next s
  | .shelfRead c addr =>
    if 1048576 ≤ addr then .fault .noSuchShelfByte
    else .next (debugShelf s c addr (fun s =>
      let r := readCheck s noJob [shelfAddr c addr]
      if r.2 then emit r.1 (.dbg (rdByte r.1 (shelfAddr c addr))) else r.1))
  | .shelfWrite c addr b =>
    if 1048576 ≤ addr then .fault .noSuchShelfByte
    else .next (debugShelf s c addr (fun s => store s noJob [(shelfAddr c addr, b)]))

end Sys2Proof.Machine
end

