-- ==== Sys2Proof/Machine/Datestamp.lean ====
section
/-! DEFINITION. Meanings: reading and steering the Datestamp (R28 to R32, R51, R52, R379). -/

namespace Sys2Proof.Machine

/-- DST_NOW_LO_READ (R52): LO is returned, HI and FINE are latched. -/
def execDstNowLoRead (s : State) : Res :=
  .next (hostRead s pgDST 0x104 (fun s =>
    ({ s with clk := { s.clk with nowHi := BitVec.ofNat 32 (s.clk.dst / 2 ^ 32)
                                  nowFine := BitVec.ofNat 32 s.clk.fine.toNat } },
     BitVec.ofNat 32 s.clk.dst)))

/-- PHASE_SLEW (R28, R379): once every 4,096 ticks the fine phase moves one step toward the target. It is
read mod 256, and the count of ticks stays (log 75). -/
def execPhaseSlew (s : State) : Res :=
  .next (
    let c := s.clk
    if ¬ rootRuns s ∨ c.dst % 4096 ≠ 0 ∨ c.slewAt = some c.dst ∨ c.target = 0 ∨ ¬ s.bup.ready then s
    else
      let up := decide (0 < c.target)
      let s := { s with clk := { c with fine := if up then c.fine + 1 else c.fine - 1, slewAt := some c.dst } }
      steerTo s (if up then c.target - 1 else c.target + 1))

/-- Trained ports with a measured rate (R30). -/
def rateGrps (s : State) : List Nat := (steerGrps s).filter (fun g => (getLink s g).rate.isSome)

/-- RATE_STEER (R30): once a port has measured anew, the pull moves by the weighted mean rate of the trained ports,
within 50 ppm. -/
def execRateSteer (weights : List Nat) (s : State) : Res :=
  .next (
    let gs := rateGrps s
    if !gs.any (fun g => (getLink s g).rateNew) then s
    else
      let m := wMean (fun g => weights.getD (g / 4) 0) (fun g => (getLink s g).rate.getD 0) gs
      let s := gs.foldl (fun s g => setLink s g { getLink s g with rateNew := false }) s
      if isRoot s then s
      else { s with clk := { s.clk with pull := max (-50000) (min 50000 (s.clk.pull + m)) } })

/-- DST_UNLOCKED (R32, R55): above 500 ps for 1 ms, UNLOCKED is set and every job faults. -/
def execDstUnlocked (s : State) : Res :=
  .next (
    let c := s.clk
    if c.unlocked ∨ offHigh c.target = false ∨ s.clk.dst < c.since + msTicks then s
    else
      let s := post { s with clk := { c with unlocked := true } } pgDST sevFault 0x0207 0 0 0
      [0, 1, 2, 3].foldl jobFault s)

/-- DST_LOCK_REGAINED (R379): within 500 ps for 100 ms, on a module that steers or is the time root. -/
def execDstLockRegained (s : State) : Res :=
  .next (
    let c := s.clk
    if !c.unlocked ∨ offHigh c.target ∨ s.clk.dst < c.since + 100 * msTicks ∨ ¬ rootRuns s
        ∨ (!isRoot s ∧ steerGrps s = []) then s
    else { s with clk := { c with unlocked := false } })

end Sys2Proof.Machine
end

