-- ==== Sys2Proof/Machine/Link.lean ====
section
/-! DEFINITION. Meanings: lanes, flits, training and the link page (R267 to R278, R284, R298, R364, R365). -/

namespace Sys2Proof.Machine

/-- LANE_FAILED (R267): a lane loses lock or alignment, or takes 16 uncorrectable codewords, which counted as they came. -/
def execLaneFailed (l : LaneId) (_cause : LaneFault) (s : State) : Res := .next (laneFail s l.p.val l.l.val)

/-- LNK_SER_WARN (R267): pre-FEC symbol errors above 2.4 in 10,000 over 1 ms; the lane stays in use. -/
def execLnkSerWarn (l : LaneId) (ppb : Nat) (s : State) : Res :=
  .next (
    if ppb ≤ 240000 then s
    else match slotOf s l.p.val l.l.val with
      | some (g, _) => post s (pgLNK l.p.val) sevWarning 0x0C0F (getLink s g).owner (d0Own s g) 0
      | none => post s (pgLNK l.p.val) sevWarning 0x0C0F 0 (d0Lnk 0 (4 * l.p.val)) 0)

/-- DATA_FLIT (R270, R272, R275, R279, R290, R309). -/
def execDataFlit (g : Grp) (f : RxWire) (s : State) : Res := .next (recvData s g.key f)

/-- An idle flit that passed its checks: in CREDIT the first brings the group up once credits are exchanged (R277,
R365), and so it does for a one-way receiver that has accepted a record (R278); a two-way group takes its fields and
its record. -/
def takeIdle (s : State) (k : Nat) (f : RxFlit) : State :=
  if grpMode s k = 2 then
    if (getLink s k).st = .ident then setLink s k ((getLink s k).fresh s.clk.dst) else s
  else
    let s := if (getLink s k).st = .credit ∧ (getLink s k).exch then
        upMoves s (setLink s k ((getLink s k).fresh s.clk.dst)) k else s
    if (getLink s k).st = .credit then s
    else
      let s := applyFields s k f.hdr
      match recOf f.pay with
      | some r => takeRec s k r
      | none => s

/-- IDLE_FLIT (R270, R272, R275, R278, R319, R365); at a one-way source it is partner light, checked by CRC alone. -/
def execIdleFlit (g : Grp) (f : RxWire) (s : State) : Res :=
  .next (rxFlit s g.key 0 f (fun s => if grpMode s g.key = 2 then loseStream s g.key else s)
    (fun s r => if grpMode s g.key = 1 then s else takeIdle s g.key r))

/-- A state in which training flits are read (R277, R278). -/
def trains (st : LinkSt) : Bool := st != .down && st != .failed && st != .halt

/-- TRAINING_FLIT (R270, R277, R278, R336): checked by CRC alone. -/
def execTrainingFlit (g : Grp) (w : RxWire) (s : State) : Res :=
  .next (
    let k := g.key
    let l := getLink s k
    if flType w.flit.hdr ≠ 2 then s
    else if l.role = 2 then passState s k
    else
      let s := countFec s k w
      if ¬ trains l.st ∨ grpMode s k = 1 then s
      else
        let f := openFlit s k w.flit
        let s := countRx s k
        if f.crcOk then upMoves s (takeTraining s k f.pay) k else badFlit s k false)

/-- SYNC_FLIT (R29, R284): on a two-way group its stamps go to the Datestamp's steering; a one-way receiver only checks
and counts it (R309). -/
def execSyncFlit (g : Grp) (w : RxWire) (s : State) : Res :=
  .next (rxFlit s g.key 3 w (fun s => s) (fun s f =>
    if grpMode s g.key ≠ 0 ∨ (getLink s g.key).st ≠ .up then s
    else
      let s := applyFields s g.key f.hdr
      if (getLink s g.key).st = .up then takeSync s g.key f.pay else s))

/-- Bytes of packets that follow one another in a payload (R279): the payload, the place of each packet
that starts in it, the packets left, the bytes of the last that did not fit. -/
def fillPay : List Packet → List Byte → List (Nat × Packet) →
    List Byte × List (Nat × Packet) × List Packet × List Byte
  | [], b, st => (b, st, [], [])
  | p :: r, b, st =>
    if 232 ≤ b.length then (b, st, p :: r, [])
    else
      let c := b ++ pktBytes p
      if 232 ≤ c.length then (c.take 232, st ++ [(b.length, p)], r, c.drop 232)
      else fillPay r c (st ++ [(b.length, p)])

/-- A window of the group covers the job time; in a hold it keeps the state it had at E, where job time stands (R291). -/
def windowOpen (s : State) (j g : Nat) : Bool :=
  match (getJob s j).img with
  | none => false
  | some im =>
    let jt := jobTime s (getJob s j)
    im.segs.any (fun sg => (tget [] sg.windows g).any (fun w =>
      decide ((getJob s j).s + sg.origin + 4 * w.1 ≤ jt) && decide (jt < (getJob s j).s + sg.origin + 4 * w.2)))

/-- A packet of this module's quadrants that has not started yet: its first hop, and no re-injection (R291, R292). -/
def ownFirst (s : State) (p : Packet) : Bool := decide (pkSrc p = ownNode s) && decide (pkHops p = 1) && !pkRetx p

/-- A packet in egress may start its first flit: one of this module only while its group's window is open (R291). -/
def mayStart (s : State) (g : Nat) (p : Packet) : Bool :=
  !ownFirst s p || (match runningAcc s (getLink s g).owner.toNat with
    | some j => windowOpen s j g
    | none => false)

/-- Packets of a VC that may start, and those that wait for their window. -/
def startable (s : State) (g vc : Nat) : List Packet := (tget [] (getLink s g).egress vc).filter (mayStart s g)
def shutOut (s : State) (g vc : Nat) : List Packet := (tget [] (getLink s g).egress vc).filter (fun p => !mayStart s g p)

/-- Send one data flit of a VC (R271, R275, R276, R279, R291); a one-way source keeps no replay (R309). The turn goes
to the next VC with the flit in which a packet ends (DESIGN CHOICE: a flit's rest goes to the same VC, log 132). -/
def sendData (s : State) (g vc : Nat) (two : Bool) : State :=
  let l := getLink s g
  let left := tget [] l.backlog vc
  let f := if 232 ≤ left.length then (left.take 232, [], startable s g vc, left.drop 232)
    else fillPay (startable s g vc) left []
  let ends := (decide (0 < left.length) && decide (left.length ≤ 232))
    || decide ((if f.2.2.2.isEmpty then 0 else 1) < f.2.1.length)
  let pay := fit 0 232 f.1
  let nxt := match f.2.1 with | e :: _ => e.1 | [] => 0xFF
  let at0 := tget 0 l.txPos vc
  let seq := if two then (l.seq + 1) % 4096 else 0
  let l := { l with
    backlog := tput [] l.backlog vc f.2.2.2, egress := tput [] l.egress vc (shutOut s g vc ++ f.2.2.1)
    txPos := tput 0 l.txPos vc (at0 + 232), rr := if ends then (vc + 1) % 4 else vc }
  let l := if two then { l with
      seq := seq, sent := tput 0 l.sent vc (tget 0 l.sent vc + 1)
      ackAt := if (unacked l).isEmpty then s.clk.dst else l.ackAt
      replay := l.replay ++ [{ seq := seq, vc := vc, at' := at0, pay := pay }]
      flying := l.flying ++ f.2.1.map (fun e =>
        { vc := vc, lo := at0 + e.1, hi := at0 + e.1 + 32 + e.2.pay.length, pkt := e.2 }) }
    else l
  sendFlit (setLink s g l) g 1 seq vc nxt pay

/-- NXT of a flit in replay: the first packet that begins in it. -/
def replayNxt (l : Link) (f : RFlit) : Nat :=
  match l.flying.find? (fun p => decide (p.vc = f.vc) && decide (f.at' ≤ p.lo) && decide (p.lo < f.at' + 232)) with
  | some p => p.lo - f.at'
  | none => 0xFF

/-- Send the next flit of replay (R272); an uncorrectable error in it fails the group (R296). -/
def sendReplay (s : State) (g : Nat) (f : RFlit) (r : List RFlit) : State :=
  let l := getLink s g
  let w := tget 0 s.fab.qFlaws g
  if 2 ≤ w then linkFail { s with fab := { s.fab with qFlaws := tput 0 s.fab.qFlaws g 0 } } g
  else
    let s := if w = 1 then { s with fab := { s.fab with qCe := tput 0 s.fab.qCe g (min 0xFFFFFFFF (tget 0 s.fab.qCe g + 1)) } } else s
    let again := l.replay.map (fun x => if x.seq = f.seq then { x with tries := x.tries + 1 } else x)
    sendFlit (setLink s g { l with resend := r, replay := again }) g 1 f.seq f.vc (replayNxt l f) f.pay

/-- VCs with something to send, from the one whose turn it is (R276). -/
def sendable (s : State) (g : Nat) : List Nat :=
  let l := getLink s g
  ([0, 1, 2, 3].map (fun i => (l.rr + i) % 4)).filter (fun v =>
    !(tget [] l.backlog v).isEmpty || !(startable s g v).isEmpty)

/-- What a two-way group in UP sends at a flit boundary. -/
def upFlit (s : State) (g : Nat) : State :=
  let l := getLink s g
  match l.resend with
  | f :: r => sendReplay s g f r
  | [] =>
    if atBoundary l && (tget [] s.opt.migs (g / 4)).any (fun m => decide (m.g.val = g % 4) && switchDue m)
    then trySwitch s g
    else if 768 ≤ l.replay.length then sendIdle (bump s (lnkOff g 0x11C) 1) g []
    else match sendable s g with
      | [] => sendIdle s g []
      | vs => match vs.find? (fun v => decide (0 < freeCred l v)) with
        | some v => sendData s g v true
        | none => sendIdle (bump s (lnkOff g 0x120) 1) g []

/-- The port's link clock runs: neither XTAL_B nor its link loop has stopped (R398, R402). -/
def linkClock (s : State) (p : Nat) : Bool := !bit s.clk.stopped 1 && !bit s.clk.stopped (6 + p)

/-- FLIT_TRANSMIT (R271, R272, R275 to R278, R309): one flit at a flit boundary. -/
def execFlitTransmit (g : Grp) (s : State) : Res :=
  .next (
    let k := g.key
    let l := getLink s k
    let m := grpMode s k
    let due := decide (l.trainAt + 10 * usTicks ≤ s.clk.dst)
    if l.role = 2 ∨ ¬ linkClock s g.p.val then s
    else if m = 1 then
      (if l.st ≠ .up then s
       else if (tget [] l.backlog 2).isEmpty && (startable s k 2).isEmpty then sendIdle s k []
       else sendData s k 2 false)
    else if m = 2 then (if l.st = .down ∨ l.st = .failed ∨ l.st = .halt then s else sendIdle s k [])
    else match l.st with
      | .align => sendTraining s k (alignPay s k)
      | .ident => if due then sendTraining s k (identRec s k) else s
      | .credit => if due ∨ ¬ l.exch then sendTraining s k (creditPay s k) else sendIdle s k []
      | .retrain => if due ∧ l.locked then sendTraining s k (creditPay s k) else sendIdle s k []
      | .up => upFlit s k
      | _ => s)

/-- KEY_EPOCH_CHANGE (R364): FC reached the next multiple of 2^32; the sender takes the next epoch's key. -/
def execKeyEpochChange (g : Grp) (s : State) : Res :=
  .next (
    let l := getLink s g.key
    if l.epoch < l.fcTx / 2 ^ 32 then
      holdKeys (setLink s g.key { l with epoch := l.epoch + 1, kep := !l.kep }) g.key
    else s)

/-- SYNC_SEND (R284): every 65,536 root ticks a group in UP sends its stamps; the reverse direction of a one-way group
carries idles only (R278). -/
def execSyncSend (g : Grp) (s : State) : Res :=
  .next (
    let k := g.key
    let l := getLink s k
    if l.st ≠ .up ∨ 2 ≤ grpMode s k ∨ s.clk.dst < l.syncAt + 65536 then s
    else
      let s := setLink s k { l with syncAt := s.clk.dst }
      sendFlit s k 3 0 0 0xFF (bytesOf 9 (stamp s) ++ bytesOf 9 l.peerT1 ++ bytesOf 9 l.peerRx))

/-- REPLAY_TIMEOUT (R272): 1 us without progress. -/
def execReplayTimeout (g : Grp) (s : State) : Res :=
  .next (
    let l := getLink s g.key
    if l.st = .up ∧ grpMode s g.key = 0 ∧ l.ackAt + usTicks ≤ s.clk.dst then resendAll s g.key else s)

/-- ALIGN_LOCK (R277, R278, R318): codeword lock on four lanes, skew of at most 64 blocks removed; in UP the lock is that
of a migration's new lane against the other slots. -/
def execAlignLock (g : Grp) (skew : Nat) (s : State) : Res :=
  .next (
    let k := g.key
    let l := getLink s k
    if 64 < skew ∨ ¬ grpLocked s k then s
    else match l.st with
      | .align =>
        let s := setLink s k { l.go .ident s.clk.dst with locked := true, exch := false }
        if grpMode s k = 0 then sendTraining s k (identRec s k) else s
      | .retrain =>
        if l.locked then s
        else upMoves s (retrained (sendTraining (setLink s k { l with locked := true }) k (creditPay s k)) k) k
      | .up => if grpMode s k = 0 then sendReady s k else s
      | _ => s)

/-- ALIGN_TIMEOUT (R277, R278): 10 ms without lock. -/
def execAlignTimeout (g : Grp) (s : State) : Res :=
  .next (
    let l := getLink s g.key
    if l.st = .align ∧ l.since + 10 * msTicks ≤ s.clk.dst then
      tryUp (bump (goSt s g.key .down) (lnkOff g.key 0x12C) 1) g.key
    else s)

/-- RETRAIN_TIMEOUT (R277): 1 ms passes in RETRAIN. -/
def execRetrainTimeout (g : Grp) (s : State) : Res :=
  .next (
    let l := getLink s g.key
    if l.st = .retrain ∧ l.since + msTicks ≤ s.clk.dst then linkFail s g.key else s)

/-- CREDIT_AUTH_TIMEOUT (R365): no idle flit passed its tag within 1 ms of CREDIT. -/
def execCreditAuthTimeout (g : Grp) (s : State) : Res :=
  .next (
    let l := getLink s g.key
    if l.st = .credit ∧ l.since + msTicks ≤ s.clk.dst then tryUp (goSt s g.key .down) g.key else s)

/-- ONEWAY_TRAINING_SEND (R278): every 10 us a source sends its record and the FC of that flit. -/
def execOnewayTrainingSend (g : Grp) (s : State) : Res :=
  .next (
    let l := getLink s g.key
    if l.st = .up ∧ grpMode s g.key = 1 ∧ l.trainAt + 10 * usTicks ≤ s.clk.dst then
      sendTraining s g.key (identRec s g.key ++ bytesOf 8 l.fcTx)
    else s)

/-- ONEWAY_IDENT_TIMEOUT (R278): record accepted, but no flit passed its tag within 1 ms. -/
def execOnewayIdentTimeout (g : Grp) (s : State) : Res :=
  .next (
    let l := getLink s g.key
    if l.st = .ident ∧ grpMode s g.key = 2 ∧ l.exch ∧ l.since + msTicks ≤ s.clk.dst then
      tryUp (setLink s g.key { l.go .down s.clk.dst with exch := false }) g.key
    else s)

/-- LNK_ENABLE (R298, R335, R342, R365): the enable bit is set, or the write ignored. -/
def execLnkEnable (g : Grp) (s : State) : Res :=
  .next (hostWrite s (pgLNK g.p.val) (0x100 + 0x40 * g.g.val) (fun s =>
    if enableOk s g.key then tryUp (setLink s g.key { getLink s g.key with en := true }) g.key else s))

/-- LNK_DISABLE (R277): to DOWN, from UP or RETRAIN by way of R292; replay and ingress are freed. DESIGN CHOICE: HALT
is left too, by R277's last row, where R339 says that only RESTART leaves it (log 132). -/
def execLnkDisable (g : Grp) (s : State) : Res :=
  .next (hostWrite s (pgLNK g.p.val) (0x100 + 0x40 * g.g.val) (fun s =>
    let k := g.key
    let s := setLink s k { getLink s k with en := false }
    let l := getLink s k
    if l.st = .down then s
    else
      let s := if l.st = .up ∨ l.st = .retrain then
          linkFail s k else s
      let l := getLink s k
      let s := setLink s k { l.go .down s.clk.dst with
        replay := [], resend := [], flying := [], stream := [], synced := [], ingress := [], inAt := [], locked := false
        exch := false }
      if l.st = .halt then topCheck s k else s))

/-- LNK_RESTART (R277, R339): a FAILED or HALT group goes to DOWN. -/
def execLnkRestart (g : Grp) (s : State) : Res :=
  .next (hostWrite s (pgLNK g.p.val) (0x100 + 0x40 * g.g.val) (fun s =>
    let l := getLink s g.key
    if l.st = .failed ∨ l.st = .halt then tryUp (topCheck (goSt s g.key .down) g.key) g.key else s))

/-- LNK_CRD_LIM_WRITE (R275, R293, R298): 1 to 512, in DOWN only; it moves the ingress class's minimum, and one that
would bring the minimums above the pool is ignored with QP_MIN_REJECT. -/
def execLnkCrdLimWrite (g : Grp) (v : W32) (s : State) : Res :=
  .next (hostWrite s (pgLNK g.p.val) (0x10C + 0x40 * g.g.val) (fun s =>
    let n := fld v 9 0
    let old := fld (reg s (lnkOff g.key 0x10C)) 9 0
    if (getLink s g.key).st ≠ .down ∨ n = 0 ∨ 512 < n then s
    else if poolCells < minSum s - 4 * old + 4 * n then post s pgQP sevWarning 0x0C11 0 (d0Lnk 0 g.key) 0
    else setReg s (lnkOff g.key 0x10C) (BitVec.ofNat 32 n)))

end Sys2Proof.Machine
end

