-- ==== Sys2Proof/Machine/Fabric.lean ====
section
/-! DEFINITION. Meanings: messages, routing, injection and the queue pool (R158, R163, R281 to R300). -/

namespace Sys2Proof.Machine

/-- A packet for a quadrant in reset is discarded and counted (R392, R395). -/
def absorb (s : State) : State := bump s (at' pgBUP 0x114) 1

/-- PUT (R158, R282, R289, R309). -/
def execPut (g : Grp) (vc : Fin 4) (s : State) : Res :=
  .next (msgRow s g.key vc.val mtPUT true (fun s p =>
    let a := h2Addr p
    let n := max 1 p.pay.length
    let b := match gaParse a with | some x => x.byte | none => 0
    if quadRst s (a / 2 ^ 39 % 4) then absorb s
    else if faultedAcc s (pkAcc p) then bumpRtr s (pkAcc p) 0x108
    else if msgDup s p then msgTake s g.key 0 p
    else if remoteOk s (pkAcc p) a b (b + n - 1) b (b + n - 1 : Nat) 32 then
      msgTake s g.key (a / 2 ^ 39 % 4) p
    else mvRemote s p a))

/-- GET (R158, R283): checked and queued for its read. -/
def execGet (g : Grp) (vc : Fin 4) (s : State) : Res :=
  .next (msgRow s g.key vc.val mtGET false (fun s p =>
    let a := h2Addr p
    if quadRst s (a / 2 ^ 39 % 4) then absorb s
    else if faultedAcc s (pkAcc p) then bumpRtr s (pkAcc p) 0x108
    else
      let lo := match gaParse a with
        | some x => (x.byte : Int) + min 0 (((h2Rows p - 1 : Nat) : Int) * h2Sstr p)
        | none => 0
      let hi := match gaParse a with
        | some x => (x.byte : Int) + max 0 (((h2Rows p - 1 : Nat) : Int) * h2Sstr p) + (h2Rowlen p : Int) - 1
        | none => 0
      if remoteOk s (pkAcc p) a lo.toNat hi.toNat lo hi 33 then
        match gaParse a with
        | some x => { s with fab := { s.fab with getQ := s.fab.getQ ++ [{ q := Fin.ofNat 4 x.q, pkt := p, g := g }] } }
        | none => s
      else mvRemote s p a))

/-- GET_REPLY (R282, R283): a reply to no outstanding GET of the job is a duplicate. -/
def execGetReply (g : Grp) (vc : Fin 4) (s : State) : Res :=
  .next (msgRow s g.key vc.val mtREPLY true (fun s p =>
    if quadRst s (h2RRQ p) then absorb s
    else if faultedAcc s (pkAcc p) then bumpRtr s (pkAcc p) 0x108
    else if msgDup s p then msgTake s g.key 0 p
    else match tagOf s p with
      | none => bumpRtr s (pkAcc p) 0x10C
      | some t =>
        if t.got.any (fun e => e.1 == h2Roff p) then bumpRtr s (pkAcc p) 0x10C
        else msgTake s g.key (h2RRQ p) p))

/-- SIGNAL (R281, R282, R289): a one-packet message; without a resident job it is discarded. -/
def execSignal (g : Grp) (vc : Fin 4) (s : State) : Res :=
  .next (msgRow s g.key vc.val mtSIGNAL true (fun s p =>
    if quadRst s (h2CQ p) then absorb s
    else if faultedAcc s (pkAcc p) then bumpRtr s (pkAcc p) 0x108 else msgTake s g.key (h2CQ p) p))

/-- MESSAGE_LANDING (R77, R163, R281, R296): in an arrival slot the oldest message of the quadrant lands. -/
def execMessageLanding (q : Fin 4) (s : State) : Res :=
  .next (match findIdx? (fun a => a.q == q && a.ctx.isNone) s.fab.arrive 0 with
    | none => s
    | some (i, a) =>
      if !arrSlot s a.job q.val then s
      else
        let c := qCheck (popArr s i) (0xA0 + q.val)
        if c.2 = 0 then land c.1 a
        else qpUe c.1 (if c.2 = 3 then (owner s q.val).toNat else (accOf s a.job).toNat) a.link a.mid.toNat)

/-- GET_RESPONSE (R281, R283): in an arrival slot the oldest GET of the quadrant is read and its replies sent. -/
def execGetResponse (q : Fin 4) (s : State) : Res :=
  .next (match findIdx? (fun (r : GetReq) => r.q == q) s.fab.getQ 0 with
    | none => s
    | some (i, r) =>
      let wait := s
      let s := { s with fab := { s.fab with getQ := removeAt s.fab.getQ i } }
      match gaParse (h2Addr r.pkt), residentAcc s (pkAcc r.pkt) with
      | some x, some j =>
        if !arrSlot s j q.val then wait else
        let e : End := ⟨x, x.byte, h2Rows r.pkt, h2Rowlen r.pkt, h2Sstr r.pkt, true, false⟩
        let w : Who := { acc := accOf s j, job := some j }
        let c := chargeEnd s w e (s.clk.dst / 4)
        let c := if c.2 then readCheck c.1 w ((List.range e.n).flatMap e.rowAddrs) else c
        if c.2 then
          let tail := h2Tag r.pkt * 2 ^ 90 + h2RQ r.pkt * 2 ^ 88
          sendMessages c.1 j r.g.g.val mtREPLY (pkSrc r.pkt)
            (fun o => BitVec.ofNat 128 (o * 2 ^ 96 + tail)) (cutRows [(0, (endRows c.1 e).flatten)])
        else c.1
      | _, _ => s)

/-- MSG_TOMB_EXPIRY (R282): a completed entry's life ends. -/
def execMsgTombExpiry (q : Fin 4) (acc src : Nat) (mid : W32) (s : State) : Res :=
  .next { s with fab := { s.fab with msgs := s.fab.msgs.filter (fun m =>
    !(isMsg q acc src mid m && (match m.tomb with | some t => decide (t + tombTicks s ≤ s.clk.dst) | none => false))) } }

/-- MSG_STALE (R282): incomplete for 4 lives, the entry is freed without landing. -/
def execMsgStale (q : Fin 4) (acc src : Nat) (mid : W32) (s : State) : Res :=
  .next (match s.fab.msgs.find? (fun m => isMsg q acc src mid m && m.tomb.isNone
      && decide (m.open' + 4 * tombTicks s ≤ s.clk.dst)) with
    | none => s
    | some m =>
      let s := { s with fab := { s.fab with msgs := s.fab.msgs.filter (fun x => !isMsg q acc src mid x) } }
      post s pgRTR sevWarning 0x0C0B m.acc (d0Lnk acc m.link) mid)

/-- PACKET_TRANSIT (R22, R286, R287, R290, R292): from ingress to egress, or dropped. -/
def execPacketTransit (g : Grp) (vc : Fin 4) (s : State) : Res :=
  .next (match inHead s g.key vc.val with
    | none => s
    | some p =>
      if isHere s p then s
      else takeIn s g.key vc.val p (fun s =>
        match edSlot s (pkAcc p) with
        | none => rtrDrop s (if 80 ≤ pkHops p + 1 then 0x0C08 else 0x0C07) (pkAcc p) (pkAcc p) g.key (pkMid p)
        | some j => routeStamp s j g.key vc.val p))

/-- PACKET_INJECT (R291, R292): the first packet of an injection queue leaves while a window is open; on
a failed group it is given the other edition. -/
def execPacketInject (g : Grp) (s : State) : Res :=
  .next (
    let k := g.key
    let l := getLink s k
    match l.inj, runningAcc s l.owner.toNat with
    | p :: r, some j =>
      if !windowOpen s j k then s
      else
        let c := qCheck (setLink s k { l with inj := r }) (0x80 + k)
        let s := c.1
        if c.2 ≠ 0 then qpUe s (if c.2 = 3 then l.owner.toNat else pkAcc p) k (pkMid p)
        else if l.st = .failed then
          (if edValid s j (1 - pkED p) then
             let s := bump s (at' pgRTR (0x104 + 0x40 * j)) 1
             if pkMC p then routeMc s j (1 - pkED p) k 2 p
             else routeOn s j (1 - pkED p) k (if pkPH p then 2 else 0) p
           else rtrDrop s 0x0C07 (pkAcc p) (pkAcc p) k (pkMid p))
        else putEgress s k (if grpMode s k = 1 then 2 else outVc s j (pkED p) g.p.val (pkPH p) false) p
    | _, _ => s)

/-- What names a packet of this module while it waits: message ID, place in the message, second header half. -/
def waitKey (p : Packet) : Nat × W128 := (fld p.hdr 65 22, p.hdr2)

/-- INJECTION_WINDOW_CLOSE (R291): the packets that have not started, in injection or egress, count once each. -/
def execInjectionWindowClose (g : Grp) (s : State) : Res :=
  .next (
    let l := getLink s g.key
    match runningAcc s l.owner.toNat with
    | none => s
    | some j => match (getJob s j).img with
      | none => s
      | some im =>
        let jt := jobTime s (getJob s j)
        let now := im.segs.any (fun sg => (tget [] sg.windows g.key).any (fun w =>
          decide ((getJob s j).s + sg.origin + 4 * w.2 = jt)))
        let keys := (l.inj ++ (l.egress.flatMap Prod.snd).filter (ownFirst s)).map waitKey
        if now then
          setLink (bump s (lnkOff g.key 0x124) (keys.filter (fun x => !l.late.contains x)).length) g.key
            { l with late := keys }
        else s)

/-- RTR_TBL_WORD_WRITE (R285, R299): a word of the selected edition, unless it is the active one of a
running job. -/
def execRtrTblWordWrite (w : Fin 6) (v : W32) (s : State) : Res :=
  .next (hostWrite s pgRTR (0x204 + 4 * w.val) (fun s =>
    let sel := reg s (at' pgRTR 0x200)
    let j := fld sel 1 0
    let ed := fld sel 2 2
    if (getJob s j).st = .running ∧ edActive s j = ed then
      post s pgRTR sevWarning 0x0C10 (accOf s j) (d0Lnk (accOf s j).toNat 0) 0
    else
      let v := if w.val = 4 then v &&& 0x3F else if w.val = 5 then v &&& 0xFFFFFF else v
      { s with fab := { s.fab with tbl := tput 0 s.fab.tbl (12 * j + 6 * ed + w.val) v } }))

/-- MSG_TOMB_WRITE (R299): 1 to 16,000 us. -/
def execMsgTombWrite (v : W32) (s : State) : Res :=
  .next (hostWrite s pgRTR 0x110 (fun s =>
    if v = 0 ∨ 16000 < v.toNat then badWrite s pgRTR 0x110 else setReg s (at' pgRTR 0x110) v))

/-- QP_CLS_MIN_WRITE (R293, R300): the selected class's minimum; classes 0, 1 and 8 are fixed. -/
def execQpClsMinWrite (v : W32) (s : State) : Res :=
  .next (hostWrite s pgQP 0x104 (fun s =>
    let c := fld (reg s (at' pgQP 0x100)) 3 0
    if c = 0 ∨ c = 1 ∨ 8 ≤ c then s
    else if poolCells < minSum s - clsMinOf s c + v.toNat then post s pgQP sevWarning 0x0C11 0 0 0
    else { s with fab := { s.fab with clsMin := tput 0 s.fab.clsMin c v.toNat } }))

/-- Cells that a data-queue flush frees (R295). -/
def flushed (s : State) (n : Nat) : State := bump s (at' pgQP 0x130) n

/-- Discard what a queue holds (R295, R482). -/
def flushQueue (s : State) (n : Nat) : State :=
  if 0x20 ≤ n ∧ n < 0x80 then
    let g := (n - 0x20) / 4
    let vc := n % 4
    let l := getLink s g
    let l' := { l with ingress := tput [] l.ingress vc [], inAt := tput [] l.inAt vc [] }
    flushed (setLink s g l') (ingressCells l vc - ingressCells l' vc)
  else if 0x80 ≤ n ∧ n < 0x98 then
    let l := getLink s (n - 0x80)
    flushed (setLink s (n - 0x80) { l with inj := [], late := [] }) (injCells l)
  else if 0xA0 ≤ n ∧ n < 0xA4 then
    let q := n - 0xA0
    let as := s.fab.arrive.filter (fun a => a.q.val == q)
    let ms := s.fab.msgs.filter (fun m => m.q.val == q && m.tomb.isNone)
    flushed { s with fab := { s.fab with
      arrive := s.fab.arrive.filter (fun a => a.q.val != q)
      msgs := s.fab.msgs.filter (fun m => !(m.q.val == q && m.tomb.isNone)) } }
      (sumNat (as.map Arrival.cells) + sumNat (ms.map (fun m => sumNat (m.got.map (fun p => pktCells p.2)))))
  else if 0xB0 ≤ n ∧ n < 0xB4 then
    let bs := s.bar2.filter (fun b => b.q.val == n - 0xB0)
    flushed { s with bar2 := s.bar2.filter (fun b => b.q.val != n - 0xB0) }
      (sumNat (bs.map (fun b => match b.data with | some d => max 1 (byteCells d.length) | none => 1)))
  else if 0x100 ≤ n ∧ n < 0x200 then
    let x := getCtx s (n - 0x100)
    let s := setCtx s (n - 0x100) { x with parts := [], ovfl := [], dead := decide (x.owner ≠ 0) }
    flushed { s with cready := s.cready.filter (fun r => r.1 != n - 0x100) } (x.parts.length + x.ovfl.length)
  else if n = 0x200 then
    { lostItem s 6 s.fab.telem.length with fab := { (lostItem s 6 s.fab.telem.length).fab with telem := [] } }
  else if n = 0x201 then
    { lostItem s 7 s.fab.trace.length with fab := { (lostItem s 7 s.fab.trace.length).fab with trace := [] } }
  else if n = 0x202 then
    let s := lostItem s 8 (s.ldg.wr - s.ldg.rd)
    { s with ldg := { s.ldg with rd := s.ldg.wr, bmc := s.ldg.wr } }
  else badWrite s pgQP 0x114

/-- FLUSH (R295, R300, R482): QP_Q_SEL takes the queue number; with bit 31 the queue is emptied. -/
def execFlush (v : W32) (s : State) : Res :=
  .next (hostWrite s pgQP 0x114 (fun s =>
    let s := setReg s (at' pgQP 0x114) (v &&& 0xFFF)
    if bit v 31 then flushQueue s (fld v 11 0) else s))

end Sys2Proof.Machine
end

