-- ==== Sys2Proof/Machine/Matrix.lean ====
section
/-! DEFINITION. Meanings: matrix slot (R73, R85 to R102). -/

namespace Sys2Proof.Machine

/-- MMA (R88): ACC := ACC + A B. -/
def execMma (c : CoreId) (s : State) : Res := .next (launch s c (fun b => mxOp b == 1))

/-- MMZ (R88): ACC := A B. -/
def execMmz (c : CoreId) (s : State) : Res := .next (launch s c (fun b => mxOp b == 2))

/-- ALD (R96): ACC := tile C. -/
def execAld (c : CoreId) (s : State) : Res := .next (launch s c (fun b => mxOp b == 3))

/-- AST (R96): tile C := ACC. -/
def execAst (c : CoreId) (s : State) : Res := .next (launch s c (fun b => mxOp b == 4))

/-- ASTS (R96): tile C := s ACC. -/
def execAsts (c : CoreId) (s : State) : Res := .next (launch s c (fun b => mxOp b == 5))

/-- ACLR (R96): ACC := 0. -/
def execAclr (c : CoreId) (s : State) : Res := .next (launch s c (fun b => mxOp b == 6))

/-- MATRIX_OP_COMPLETE (R100, R184): the oldest matrix operation that is due is complete; an AST or ASTS hands
its summary to the shadow unit. -/
def execMatrixOpComplete (c : CoreId) (s : State) : Res :=
  .next (
    let k := getCore s c
    match findIdx? (fun f => decide (f.due ≤ s.clk.dst)) k.mxFly 0 with
    | none => s
    | some (i, f) =>
      let s := setCore s c { k with mxFly := removeAt k.mxFly i }
      let op := fld f.w 63 58
      if op = 4 ∨ op = 5 then opSummary s c (tdOf (f.tds.getD 0 0)).tag 0 f else s)

end Sys2Proof.Machine
end

