-- ==== Sys2Proof/Machine/Moves.lean ====
section
/-! DEFINITION. Meanings: move slot and move engine (R76, R153 to R161, R481), scrub (R152). -/

namespace Sys2Proof.Machine

/-- MOV (R154): the move slot of a bundle launches. -/
def execMov (c : CoreId) (s : State) : Res := .next (launch s c (fun b => mvOp b == 1))

/-- PUT (R154): the move slot of a bundle launches. -/
def execPutMove (c : CoreId) (s : State) : Res := .next (launch s c (fun b => mvOp b == 2))

/-- GET (R154): the move slot of a bundle launches. -/
def execGetMove (c : CoreId) (s : State) : Res := .next (launch s c (fun b => mvOp b == 3))

/-- RED (R154): the move slot of a bundle launches. -/
def execRed (c : CoreId) (s : State) : Res := .next (launch s c (fun b => mvOp b == 4))

/-- SIG (R154): the move slot of a bundle launches. -/
def execSig (c : CoreId) (s : State) : Res := .next (launch s c (fun b => mvOp b == 5))

/-- LDTD (R68, R481): the move slot of a bundle launches. -/
def execLdtd (c : CoreId) (s : State) : Res := .next (launch s c (fun b => mvOp b == 6))

/-- STTD (R481): the move slot of a bundle launches. -/
def execSttd (c : CoreId) (s : State) : Res := .next (launch s c (fun b => mvOp b == 7))

/-- MOVE_ISSUE_START (R159): the head of the queue starts at the later of its launch and the end of issue before it.
`coll` tells of a meeting at a quadrant-network output, by port (R45): the port of lower index is carried, so the move
starts unless its own cluster's port, 6 to 22, is the one that loses (log 113). -/
def execMoveIssueStart (c : CoreId) (coll : Option Collision) (s : State) : Res :=
  .next (match runSlot s c with
    | none => s
    | some j =>
      let k := getCore s c
      match k.mq with
      | [] => s
      | m :: _ =>
        let t := max m.launch k.mvFree
        if s.clk.dst < t then s
        else match coll with
          | none => startMove s c j t m
          | some x => cluCollide (if x.lo = 6 + c.cl.c.val then s else startMove s c j t m) c.cl x)

/-- MOVE_COMPLETE (R160, R161): the oldest move that is due is complete and credits its counter; else the oldest LDTD
or STTD that is due (R481). Their bytes went out line by line. -/
def execMoveComplete (c : CoreId) (s : State) : Res :=
  .next (
    let k := getCore s c
    match findIdx? (fun m => match moveDue m with | some t => decide (t ≤ s.clk.dst) | none => false) k.mvFly 0 with
    | some (i, m) => moveDone (setCore s c { k with mvFly := removeAt k.mvFly i }) c m.cc
    | none =>
      match findIdx? (fun f => decide (f.due ≤ s.clk.dst)) k.tdFly 0 with
      | none => s
      | some (i, f) =>
        let s := setCore s c { k with tdFly := removeAt k.tdFly i }
        match f.cc with
        | some n => credit s c.cl.key n 1
        | none => s)

/-- Register MC_PPR_PEND of a controller (R165): rows pending post-package repair. -/
def setPpr (s : State) (m : Nat) : State :=
  setReg s (at' (pgMC (m / 3) (m % 3)) 0x118) (BitVec.ofNat 32 (getMc s m).ppr.length)

/-- A row with a corrected error: a second pass that shows one queues it for post-package repair (R152). -/
def scrubHit (s : State) (m row : Nat) : State :=
  let x := getMc s m
  let pend := x.prev.contains row && !x.ppr.contains row
  let s := setMc s m { x with seen := if x.seen.contains row then x.seen else row :: x.seen
                              ppr := if pend then x.ppr ++ [row] else x.ppr }
  let s := if pend then post s pgRPR sevWarning 0x1007 0 (d0Rpr (m / 3) 0 0) 0 else s
  setPpr s m

/-- PATROL_SCRUB (R151, R152): the row is read within the window's allowance, else it waits; corrected errors are
counted, and an uncorrectable one is logged for no job. `errors` tells of a corrected error that no flaw of the model
stands for (log 7). It is deferred in throttle (R412). -/
def execPatrolScrub (m : Fin 12) (row : Nat) (errors newPass : Bool) (s : State) : Res :=
  .next (
    let q := m.val / 3
    let st := m.val % 3
    let n := hbmRow / 64
    if quadThrottle s q || decide (786432 < tget 0 (getMc s m).wins (s.clk.dst / 2048) + 64 * n) then s else
    let who : Who := { acc := 0, job := none }
    let s := (hbmAccept s who q st s.clk.dst n (hbmAddr q st (row * hbmRow))).1
    let x := getMc s m
    let s := setMc s m (if newPass then { x with prev := (x.seen ++ x.prev).eraseDups, seen := [] } else x)
    let fs := rowFlaws s m row
    let ces := fs.filter (fun f => f.2 == 1)
    let s := ces.foldl (fun s f => memCe s f.1) s
    let s := if errors then bump s (at' (pgMC q st) 0x100) 1 else s
    let s := if errors || !ces.isEmpty then scrubHit s m row else s
    (fs.filter (fun f => f.2 == 2)).foldl (fun s f => memUe s who f.1) s)

end Sys2Proof.Machine
end

