-- ==== Sys2Proof/Machine/Optical.lean ====
section
/-! DEFINITION. Meanings: photonic engine (R303 to R329). -/

namespace Sys2Proof.Machine

/-- OPT_LC_WRITE (R306, R307, R328): the selected cell's requested state, tap fraction and HOLD. -/
def execOptLcWrite (v : W32) (s : State) : Res :=
  .next (hostWrite s pgOPT 0x184 (fun s =>
    let sel := reg s (at' pgOPT 0x180)
    let ax := fld sel 1 0
    let i := fld sel 12 8
    let st := fld v 2 0
    let tf := fld v 19 16
    let tap := decide (st = 3) || decide (st = 4)
    if 3 ≤ ax ∨ 18 ≤ i then s
    else if 6 ≤ st ∨ (tap ∧ tf = 0) ∨ (¬ tap ∧ tf ≠ 0) then
      post s pgOPT sevWarning 0x0D09 0 (d0Opt (2 * ax) i) 0
    else
      let x := 18 * ax + i
      let c := getCell s x
      let c := { c with hold := bit v 31 }
      if c.state = st ∧ c.tapf = tf then setCell s x c
      else
        let s := setCell s x { c with state := st, tapf := tf, busy := true, since := s.clk.dst }
        laneFail (laneFail s (2 * ax) i) (2 * ax + 1) i))

/-- LANE_CELL_SETTLED (R305, R307): the requested state takes effect. -/
def execLaneCellSettled (x : CellId) (s : State) : Res :=
  .next (if (getCell s x.key).busy then settleCell s x.key else s)

/-- OPT_GRP_MODE_WRITE (R327): a group's mode while it is DOWN; 3 is reserved. -/
def execOptGrpModeWrite (p : Fin 6) (v : W32) (s : State) : Res :=
  .next (hostWrite s pgOPT (0x160 + 4 * p.val) (fun s =>
    let s := [0, 1, 2, 3].foldl (fun s g =>
      let m := fld v (2 * g + 1) (2 * g)
      if (getLink s (4 * p.val + g)).st = .down ∧ m ≠ 3 then
        setReg s (at' pgOPT (0x160 + 4 * p.val)) (put32 (reg s (at' pgOPT (0x160 + 4 * p.val))) (2 * g + 1) (2 * g) m)
      else s) s
    tryUpPort s p.val))

/-- RING_SWEEP (R312): a resonance leads to ACQUIRE; the third sweep of 2 ms in a row without one to OFF. -/
def execRingSweep (l : LaneId) (found : Bool) (s : State) : Res :=
  .next (
    let p := l.p.val
    let x := getLane s l.key
    if x.ring ≠ .sweep then s
    else if found then setLane s l.key { x with ring := .acquire, ringAt := s.clk.dst, sweeps := 0 }
    else if s.clk.dst < x.ringAt + 2 * msTicks then s
    else if x.sweeps + 1 < 3 then setLane s l.key { x with sweeps := x.sweeps + 1, ringAt := s.clk.dst }
    else
      let s := setLane s l.key { x with ring := .off, sweeps := 0, ringAt := s.clk.dst }
      let s := optPost s sevWarning 0x0D05 p l.l.val 0
      let s := laneFail s p l.l.val
      let y := getLane s l.key
      if y.role = .slot ∨ y.role = .retired then s else setLane s l.key { y with role := .failed })

/-- Ring error within ±4 pm, in 0.1 pm: what the ring stands at is a free value (R311, R327; log 9). -/
def nearErr (n : Nat) : Int := (Config.ringErr n % 81 : Nat) - 40

/-- RING_ACQUIRE_LOCK (R277, R311, R312): within 4 pm for 100 us; lock is reported. -/
def execRingAcquireLock (l : LaneId) (s : State) : Res :=
  .next (
    let p := l.p.val
    let x := getLane s l.key
    if x.ring ≠ .acquire ∨ s.clk.dst < x.ringAt + 100 * usTicks then s
    else
      let s := fresh (setLane s l.key { x with ring := .locked, ringAt := s.clk.dst, sweeps := 0,
                                                ringErr := nearErr s.draws })
      onFree (tryUpPort s p) p)

/-- RING_ACQUIRE_TIMEOUT (R312): 1 ms in ACQUIRE. -/
def execRingAcquireTimeout (l : LaneId) (s : State) : Res :=
  .next (
    let x := getLane s l.key
    if x.ring = .acquire ∧ x.ringAt + msTicks ≤ s.clk.dst then
      setLane s l.key { x with ring := .sweep, ringAt := s.clk.dst, sweeps := 0 }
    else s)

/-- RING_LOCK_LOSS (R311, R312): beyond 25 pm for 10 us; the ring is LOST and at once sweeps again. -/
def execRingLockLoss (l : LaneId) (errTenthPm : Int) (s : State) : Res :=
  .next (
    let x := getLane s l.key
    if x.ring ≠ .locked ∨ errTenthPm.natAbs ≤ 250 then s
    else
      let s := setLane s l.key { x with ring := .sweep, ringAt := s.clk.dst, sweeps := 0, ringErr := errTenthPm }
      laneFail (bump s (at' pgOPT 0x19C) 1) l.p.val l.l.val)

/-- MZI_LOCK_LOSS (R311): beyond 0.2 rad for 10 us; the lanes through the cell lose lock. -/
def execMziLockLoss (x : CellId) (errMrad : Nat) (s : State) : Res :=
  .next (
    let c := getCell s x.key
    if !c.locked ∨ errMrad ≤ 200 then s
    else
      let s := setCell s x.key { c with locked := false, err := errMrad }
      laneFail (laneFail s (2 * x.axis.val) x.i.val) (2 * x.axis.val + 1) x.i.val)

/-- INTERFEROMETER_ON_TARGET (R311): within 0.02 rad again. -/
def execInterferometerOnTarget (x : CellId) (errMrad : Nat) (s : State) : Res :=
  .next (
    let c := getCell s x.key
    if 20 < errMrad then s
    else
      let s := setCell s x.key { c with locked := true, err := errMrad }
      tryUpPort (tryUpPort s (2 * x.axis.val)) (2 * x.axis.val + 1))

/-- PHOTONIC_COOLED (R314): below 75 degrees for 1 s after overheating. -/
def execPhotonicCooled (s : State) : Res :=
  .next (
    if s.opt.hot ∧ s.opt.temp < 750 ∧ s.opt.coolAt + 1000 * msTicks ≤ s.clk.dst then
      { s with opt := { s.opt with hot := false } }
    else s)

/-- One threshold of R317 is met for the first time. -/
def fadeAt (s : State) (p l n : Nat) : State :=
  setLaneAt s p l { laneAt s p l with stage := n }

/-- FADE_MEASURE (R310, R316, R317): warn at -1.5 dB, move the slot at -2.5 dB, at -3.0 dB retire, or defer while the
lane is pinned or no free lane exists; a slot that may move and cannot yet waits for its group to come up. -/
def execFadeMeasure (l : LaneId) (fade : Int) (s : State) : Res :=
  .next (
    let p := l.p.val
    let i := l.l.val
    let x := getLane s l.key
    if x.laser = .off ∨ x.laser = .blocked ∨ x.role = .retired then s
    else
      let s := setLane s l.key { x with fade := fade }
      let s := if fade ≤ -150 ∧ x.stage < 1 then
          fadeAt (optPost s sevWarning 0x0D01 p i (iWord fade)) p i 1 else s
      let s := if fade ≤ -250 ∧ x.stage < 2 then
          let s := fadeAt s p i 2
          (match laneRole s p i with
           | .free => if (migNew s p i).isSome then s else setLaneAt s p i { laneAt s p i with role := .reserve }
           | .slot => moveSlot s p i
           | _ => s)
        else s
      if fade ≤ -300 ∧ x.stage < 3 then
        let s := fadeAt s p i 3
        let moving := (tget [] s.opt.migs p).any (fun m => decide (m.old.val = i))
        let used := decide (laneRole s p i = .slot) || (migNew s p i).isSome
        if pinned s p i ∨ (used ∧ ¬ moving ∧ ¬ someFree s p) then
          let s := optPost s sevWarning 0x0D04 p i (iWord fade)
          moveSlot (setLaneAt s p i { laneAt s p i with deferred := true }) p i
        else if used then moveSlot s p i
        else retire s p i
      else s)

/-- A record comes on a group in UP; on a group in passage it is one of the flits that R342 discards. -/
def onRec (s : State) (g : Grp) (r : LaneRec) : State :=
  if (getLink s g.key).role = 2 then passState s g.key
  else if (getLink s g.key).st = .up ∧ grpMode s g.key = 0 then takeRec s g.key r else s

/-- REQUEST (R318). -/
def execRequest (g : Grp) (r : LaneRec) (s : State) : Res := .next (onRec s g { r with opc := 1 })

/-- READY (R318). -/
def execReady (g : Grp) (r : LaneRec) (s : State) : Res := .next (onRec s g { r with opc := 2 })

/-- SWITCH (R302, R318). -/
def execSwitch (g : Grp) (r : LaneRec) (s : State) : Res := .next (onRec s g { r with opc := 3 })

/-- DONE (R318). -/
def execDoneRec (g : Grp) (r : LaneRec) (s : State) : Res := .next (onRec s g { r with opc := 4 })

/-- ABORT (R318). -/
def execAbort (g : Grp) (r : LaneRec) (s : State) : Res := .next (onRec s g { r with opc := 5 })

/-- CALREQ (R321). -/
def execCalreq (g : Grp) (r : LaneRec) (s : State) : Res := .next (onRec s g { r with opc := 6 })

/-- CALDONE (R321): also the end of this module's own calibration, whatever the group's state. -/
def execCaldone (g : Grp) (r : LaneRec) (s : State) : Res :=
  .next (if (getLink s g.key).role = 2 then passState s g.key else calDone s g.key { r with opc := 7 })

/-- MIGRATION_TIMEOUT (R318): the new lane did not reach READY at both ends within 10 ms. -/
def execMigrationTimeout (p : Fin 6) (txn : W32) (s : State) : Res :=
  .next (match (tget [] s.opt.migs p.val).find? (fun m => m.init && decide (m.txn = txn)
      && !(m.got.contains 2 && m.sent.contains 2) && decide (m.start + 10 * msTicks ≤ s.clk.dst)) with
    | none => s
    | some m =>
      let s := sendRec s p.val m 5
      giveUpMig s p.val { m with sent := 5 :: m.sent, sentAt := s.clk.dst })

/-- Ended migrations of a port, slot by slot. -/
def pastMigs (s : State) (p : Nat) : List Migration :=
  (List.range 16).filterMap (fun k => tget none s.opt.past (16 * p + k))

/-- The record of a transaction that goes out again (R319): of a running migration, or an ABORT or CALDONE of an ended
one. -/
def repeatOf (s : State) (p : Nat) (txn : W32) : Option (Bool × Migration × Nat) :=
  let due := fun (ok : Nat → Bool) (m : Migration) =>
    match unanswered m with
    | some opc => if m.txn = txn ∧ m.sentAt + 10 * usTicks ≤ s.clk.dst ∧ ok opc then some (m, opc) else none
    | none => none
  match (tget [] s.opt.migs p).findSome? (due (fun _ => true)) with
  | some (m, opc) => some (true, m, opc)
  | none => ((pastMigs s p).findSome? (due (fun opc => opc == 5 || opc == 7))).map (fun e => (false, e.1, e.2))

/-- LANE_RECORD_REPEAT (R319): a record without its answer goes out again every 10 us. -/
def execLaneRecordRepeat (p : Fin 6) (txn : W32) (s : State) : Res :=
  .next (match repeatOf s p.val txn with
    | none => s
    | some (live, m, opc) =>
      if opc = 3 ∧ ¬ atBoundary (getLink s (4 * p.val + m.g.val)) then s
      else if live then sendRec s p.val m opc
      else if (getLink s (4 * p.val + m.g.val)).st = .up then sendPast s p.val m opc else s)

/-- Cells of an axis that may be calibrated (R321): in RECEIVE, pinned on neither port. -/
def calEligible (s : State) (ax i : Nat) : Bool :=
  let c := getCell s (18 * ax + i)
  decide (c.cur = 1) && !c.busy && !pinned s (2 * ax) i && !pinned s (2 * ax + 1) i

/-- The next cell of an axis in ascending order, from where it stands. -/
def calPick (s : State) (ax : Nat) : Option Nat :=
  (List.range 18).find? (fun i => decide (tget 0 s.opt.calNext ax ≤ i) && calEligible s ax i)

/-- A lane of the cell under calibration leaves service (R321 step 1). -/
def calTake (s : State) (p i : Nat) : State :=
  match (laneAt s p i).role with
  | .free => setLaneAt s p i { laneAt s p i with role := .calibrating }
  | .slot => match slotOf s p i, freeLane s p with
    | some (g, k), some n =>
      if (movable s p i).isSome then startMig s g k i n true else s
    | _, _ => s
  | _ => s

/-- Calibration of an axis pauses (R320), which is logged once. -/
def calPause (s : State) (ax i : Nat) : State :=
  let was := tget false s.opt.paused ax
  let s := { s with opt := { s.opt with paused := tput false s.opt.paused ax true } }
  if was then s else optPost s sevWarning 0x0D07 (2 * ax) i 0

/-- Calibration claims the frequency counter; a software measurement ends BUSY (R403). -/
def claimCounter (s : State) : State :=
  let c := s.clk
  let s1 := { s with clk := { c with fcHolder := 2, fcState := if c.fcState = 1 then 3 else c.fcState } }
  if c.fcState = 1 then raiseInt s1 pgCLK 0 else s1

/-- Calibration turns to an axis and lane. -/
def calTurn (s : State) (ax next : Nat) : State :=
  { s with opt := { s.opt with calAxis := ax, calNext := tput 0 s.opt.calNext ax next } }

/-- The cell whose turn it is starts (R320, R321): an axis is taken lane by lane in ascending order, then comes the next
axis; one without a free lane beside the cell's on both ports pauses where it stands. -/
def calNextCell : Nat → State → State
  | 0, s => s
  | n + 1, s =>
    let ax := s.opt.calAxis % 3
    match calPick s ax with
    | none =>
      let s := calTurn s ax 0
      calNextCell n { s with opt := { s.opt with calAxis := (ax + 1) % 3 } }
    | some i =>
      if !spareBeside s (2 * ax) i ∨ !spareBeside s (2 * ax + 1) i then
        let s := calPause s ax i
        calNextCell n { s with opt := { s.opt with calAxis := (ax + 1) % 3 } }
      else
        let s := calTurn s ax (i + 1)
        let s := { s with opt := { s.opt with
          calOn := some ⟨Fin.ofNat 3 ax, Fin.ofNat 18 i⟩, paused := tput false s.opt.paused ax false } }
        calTake (calTake (claimCounter s) (2 * ax) i) (2 * ax + 1) i

/-- CALIBRATION_START (R320, R321): after OPT_CAL_PERIOD the next cell starts; each axis is looked at once, the one it
began with once more from its first lane. -/
def execCalibrationStart (s : State) : Res :=
  .next (
    let o := s.opt
    let per := (reg s (at' pgOPT 0x104)).toNat
    if !bit (reg s (at' pgOPT 0x100)) 0 ∨ o.calOn.isSome ∨ !s.bup.isLocal ∨ s.clk.dst < o.calAt + per * msTicks then s
    else calNextCell 4 { s with opt := { o with calAt := s.clk.dst } })

/-- LIGHT_PRESENT (R303, R323): -25 dBm or more for 10 us; a blocked output opens again. -/
def execLightPresent (l : LaneId) (pwr : Int) (s : State) : Res :=
  .next (
    let x := getLane s l.key
    if pwr < -2500 then s
    else
      setLane s l.key { x with rx := pwr, lp := true, lpSince := if x.lp then x.lpSince else s.clk.dst,
                               laser := if x.laser = .blocked then .off else x.laser })

/-- An open-fibre channel of a port works (R325): 0 the light detector, 1 the monitor tap. -/
def chanOk (s : State) (p k : Nat) : Bool := !(tget 0 s.opt.badChan p).getLsbD k

/-- OPT_OFC (R303, R323, R325): -30 dBm or less for 10 us clears the light. Channel 1 takes the laser to safe power and
blocks a forwarded output, channel 2 cuts the drive current to safe power; with one of them failed the other acts. -/
def execOptOfc (l : LaneId) (pwr : Int) (s : State) : Res :=
  .next (
    let p := l.p.val
    let x := getLane s l.key
    if !x.lp ∨ -3000 < pwr then s
    else
      let cur := (cellAt s p l.l.val).cur
      let fwd := decide (cur = 2) || (decide (cur = 3) && decide (p % 2 = 1)) || (decide (cur = 4) && decide (p % 2 = 0))
      let s := setLane s l.key { x with
        rx := pwr, lp := false, clearAt := some s.clk.dst
        laser := if fwd then (if chanOk s p 0 then .blocked else x.laser)
                 else if chanOk s p 0 || chanOk s p 1 then x.laser.down else x.laser }
      let s := bump s (at' pgOPT 0x198) 1
      raiseInt (optPost s sevWarning 0x0D06 p l.l.val 0) pgOPT 0)

/-- LASER_RISE (R324): a laser at safe power that may rise does. -/
def execLaserRise (l : LaneId) (s : State) : Res := .next (tryRise s l.p.val l.l.val)

end Sys2Proof.Machine
end

