-- ==== Sys2Proof/Machine/Power.lean ====
section
/-! DEFINITION. Meanings: clocks, power and thermal (R398 to R420). -/

namespace Sys2Proof.Machine

/-! ## Clocks -/

/-- A clock has stopped, by its number in CLK_FC_CTL.TGT (R418): by itself, or with its source (R398). -/
def clkStopped (s : State) (i : Nat) : Bool :=
  let b := fun n => bit s.clk.stopped n
  b i || (decide (i = 5 ∨ (12 ≤ i ∧ i ≤ 15)) && b 0) || (decide (6 ≤ i ∧ i ≤ 11) && b 1) || (decide (i = 16) && b 4)

/-- Source of the management domain by CLK_SRC.MGMT (R399, R417): fast oscillator or XTAL_B. -/
def mgtSource (v : Nat) : Nat := if v = 1 then 1 else 2

/-- CLK_SRC_WRITE (R400, R401, R417): a switch from or to a stopped clock leaves the domain without edges. -/
def execClkSrcWrite (v : W32) (s : State) : Res :=
  .next (hostWrite s pgCLK 0x100 (fun s =>
    let off := at' pgCLK 0x100
    let old := (reg s off).toNat
    let new := v.toNat % 2
    let s := setReg s off (BitVec.ofNat 32 new)
    if old = new then s
    else if clkStopped s (mgtSource old) || clkStopped s (mgtSource new) then
      { s with clk := { s.clk with mgmtDead := true } }
    else s))

/-- A software measurement ends in a state (R403, R404, R460). -/
def fcEnd (s : State) (st : Nat) : State :=
  raiseInt { s with clk := { s.clk with fcState := st, fcHolder := if s.clk.fcHolder = 3 then 0 else s.clk.fcHolder } }
    pgCLK 0

/-- Begin a software measurement (R403, R418). -/
def fcStart (s : State) : State :=
  let v := reg s (at' pgCLK 0x104)
  if s.clk.fcHolder = 1 ∨ s.clk.fcHolder = 2 then fcEnd s 3
  else if fld v 20 16 < 4 ∨ 24 < fld v 20 16 then fcEnd s 4
  else
    { s with clk := { s.clk with fcState := 1, fcHolder := 3, fcN := fld v 20 16, fcRef := fld v 9 8, fcTgt := fld v 4 0 } }

/-- A write of CLK_FC_CTL (R418): fields, then START, then STOP. -/
def fcWrite (s : State) (v : W32) : State :=
  hostWrite s pgCLK 0x104 (fun s =>
    let s := setReg s (at' pgCLK 0x104) (v &&& 0x001F031F)
    let s := if bit v 31 then fcStart s else s
    if bit v 30 ∧ s.clk.fcState = 1 then fcEnd s 4 else s)

/-- START (R403). -/
def execStart (v : W32) (s : State) : Res := .next (fcWrite s v)

/-- STOP (R404). -/
def execStop (v : W32) (s : State) : Res := .next (fcWrite s v)

/-- FC_MEASURE_DONE (R404): a stopped reference never ends the measurement; a stopped target counts 0. -/
def execFcMeasureDone (count : W32) (s : State) : Res :=
  .next (
    if s.clk.fcState ≠ 1 ∨ clkStopped s s.clk.fcRef then s
    else
      let n := if clkStopped s s.clk.fcTgt then 0 else count
      fcEnd { s with clk := { s.clk with fcCount := n } } 2)

/-- STOPPED_CLOCK (R402): nothing reports it; what the source feeds stops. -/
def execStoppedClock (src : Fin 17) (s : State) : Res :=
  .next (
    let c := { s.clk with stopped := s.clk.stopped ||| BitVec.ofNat 17 (2 ^ src.val) }
    let mgt := decide (src.val = mgtSource (reg s (at' pgCLK 0x100)).toNat)
    let s := { s with clk := { c with mgmtDead := c.mgmtDead || mgt } }
    if src.val = 4 ∨ src.val = 16 then { s with bup := { s.bup with bar0 := false } } else s)

/-! ## Input -/

/-- PWR_UV (R407): below 40 V for 10 us. -/
def execPwrUv (cv : Nat) (s : State) : Res :=
  .next (
    if ¬ s.bup.railsOn ∨ 4000 ≤ cv then s
    else
      let off := at' pgPWR 0x100
      let s := setReg s off (put32 (reg s off) 15 0 cv)
      post s pgPWR sevWarning 0x1104 0 0 0)

/-- INPUT_SHUTDOWN (R407): below 36 V or above 62 V for 100 us; only PWR_EN falling and rising again
restarts the module. -/
def execInputShutdown (cv : Nat) (s : State) : Res :=
  .next (if s.bup.railsOn ∧ (cv < 3600 ∨ 6200 < cv) then powerDown s s.bup.pwrEn true s.pwr.tripN else s)

/-- PWR_EN_FALL (R413, R441): power off; THERMTRIP_N is released. -/
def execPwrEnFall (s : State) : Res := .next (powerDown s false false true)

/-! ## Power (R410) -/

/-- Sum of the newest n samples of die q. -/
def powerSum (h : List (List Nat)) (n q : Nat) : Nat := sumNat ((h.take n).map (fun x => x.getD q 0))

/-- PWR_OVER and PWR_OVERDRAW of one die (R410). -/
def powerDie (s : State) (q : Nat) : State :=
  let h := s.pwr.hist
  let sum := powerSum h 100 q
  let off := at' pgPWR (0x110 + 4 * q)
  let s := setReg s off (BitVec.ofNat 32 (sum / max 1 h.length % 65536))
  let quiet : Bool := match tget none s.pwr.overAt q with | some t => decide (s.clk.dst < t + msTicks) | none => false
  let s := if 100 ≤ h.length ∧ 100 * 4800 < sum ∧ ¬ quiet then
      let s := post (bump s (at' pgPWR 0x148) 1) pgPWR sevWarning 0x1102 (quadAcc s q) (d0Die q (sum / 100 : Nat)) 0
      let s := raiseInt s pgPWR 0
      { s with pwr := { s.pwr with overAt := tput none s.pwr.overAt q (some s.clk.dst) } }
    else s
  let ten := powerSum h 10 q
  if 10 ≤ h.length ∧ 10 * 5280 < ten then
    match residentOn s q with
    | some j =>
      let a := accOf s j
      jobFault (post s pgPWR sevFault 0x1103 a (d0Die q (ten / 10 : Nat)) (BitVec.ofNat 32 a.toNat)) j
    | none => s
  else s

/-- POWER_SAMPLE (R410, R419, R420): the input, and each die over 10 us and 100 us. -/
def execPowerSample (r : PowerReading) (s : State) : Res :=
  .next (
    if !s.bup.railsOn then s
    else
      let s := setReg s (at' pgPWR 0x100) (BitVec.ofNat 32 (r.cv % 65536 + r.w % 65536 * 65536))
      let s := { s with pwr := { s.pwr with hist := (r.die :: s.pwr.hist).take 100 } }
      [0, 1, 2, 3].foldl powerDie s)

/-! ## Temperature (R411 to R413) -/

/-- Throttle and job-fault points of a die, in 0.1 degree. -/
def throttleAt (i : Nat) : Int := if i < 5 then 1000 else 950
def faultAt (i : Nat) : Int := if i < 5 then 1100 else 1050

/-- Jobs that a die's job fault faults (R411). -/
def dieJobs (s : State) (i : Nat) : List Nat :=
  if i = 4 then [0, 1, 2, 3].filter (fun j => resident (getJob s j).st)
  else match residentOn s (if i < 4 then i else (i - 5) / 3) with
    | some j => [j]
    | none => []

/-- Entry into throttle, and when a die in throttle became 5 K cooler (R412). -/
def thermThrottle (s : State) (i : Nat) (t : Int) : State :=
  let s := if throttleAt i ≤ t ∧ ¬ inThrottle s i then
      let s := bump s (at' pgPWR 0x14C) 1
      let s := raiseInt (post s pgPWR sevWarning 0x1106 0 (d0Die i t) 0) pgPWR 0
      { s with pwr := { s.pwr with thr := s.pwr.thr ||| BitVec.ofNat 17 (2 ^ i) } }
    else s
  let cool := tget none s.pwr.coolAt i
  let cool := if t ≤ throttleAt i - 50 then (match cool with | some c => some c | none => some s.clk.dst) else none
  { s with pwr := { s.pwr with coolAt := tput none s.pwr.coolAt i cool } }

/-- What the hottest reading of one die does (R411 to R413). A trip drives THERMTRIP_N low and shuts the
power stages down; the Ledger goes with the power. -/
def thermDie (s : State) (e : Nat × Int) : State :=
  let i := e.1
  let t := e.2
  if !s.bup.railsOn then s
  else
    let s := thermThrottle s i t
    let s := if faultAt i ≤ t then (dieJobs s i).foldl (fun s j =>
        let a := accOf s j
        jobFault (post s pgPWR sevFault 0x1107 a (d0Die i t) (BitVec.ofNat 32 a.toNat)) j) s
      else s
    if i < 5 ∧ 1150 ≤ t then
      powerDown (post s pgPWR sevError 0x1108 0 (d0Die i t) 0) s.bup.pwrEn true false
    else s

/-- The photonic die (R314): warning above 75 degrees, safe power above 80 until it has cooled. -/
def thermPhotonic (s : State) (t : Int) : State :=
  let o := { s.opt with temp := t, coolAt := if 750 ≤ t then s.clk.dst else s.opt.coolAt }
  let s := { s with opt := o }
  let d0 : W32 := 0
  let s := if 750 < t then
      (if o.warned then s
       else { raiseInt (post s pgOPT sevWarning 0x0D08 0 d0 (iWord t)) pgOPT 1 with
              opt := { s.opt with warned := true } })
    else { s with opt := { s.opt with warned := false } }
  if 800 < t ∧ ¬ s.opt.hot then
    let s := raiseInt (post s pgOPT sevError 0x0D08 0 d0 (iWord t)) pgOPT 1
    { allSafe s with opt := { (allSafe s).opt with hot := true } }
  else if 800 < t then allSafe s else s

/-- A signed 16-bit register value. -/
def i16 (t : Int) : Nat := (t % 65536).toNat

/-- THERMAL_SAMPLE (R411 to R413, R419): the hottest reading of each die. -/
def execThermalSample (r : ThermalReading) (s : State) : Res :=
  .next (
    if !s.bup.railsOn then s
    else
      let hot := fun (l : List Int) => maxInt 0 l
      let qs := (List.range 4).map (fun q => (q, hot (r.quads.getD q [])))
      let h := hot r.hub
      let st := (List.range 12).map (fun i => (5 + i, r.hbm.getD i 0))
      let s := qs.foldl (fun s e => setReg s (at' pgPWR (0x120 + 4 * e.1)) (BitVec.ofNat 32 (i16 e.2))) s
      let s := setReg s (at' pgPWR 0x130) (BitVec.ofNat 32 (i16 h))
      let s := { s with pwr := { s.pwr with hbmT := st.foldl (fun t e => tput 0 t (e.1 - 5) e.2) s.pwr.hbmT } }
      let s := thermPhotonic s (hot r.photonic)
      (qs ++ [(4, h)] ++ st).foldl thermDie s)

/-- THROTTLE_END (R412): 5 K below the throttle point for 100 ms. -/
def execThrottleEnd (die : Fin 17) (s : State) : Res :=
  .next (match tget none s.pwr.coolAt die.val with
    | some t =>
      if inThrottle s die.val ∧ t + 100 * msTicks ≤ s.clk.dst then
        { s with pwr := { s.pwr with thr := s.pwr.thr &&& ~~~ BitVec.ofNat 17 (2 ^ die.val) } }
      else s
    | none => s)

/-- COOLANT_SAMPLE (R415, R419): outlet more than 18 K above the inlet for 1 s. -/
def execCoolantSample (inlet outlet : Int) (s : State) : Res :=
  .next (
    if !s.bup.railsOn then s
    else
      let s := setReg s (at' pgPWR 0x140) (BitVec.ofNat 32 (i16 inlet + i16 outlet * 65536))
      if outlet - inlet ≤ 180 then { s with pwr := { s.pwr with flowAt := none, flowSaid := false } }
      else match s.pwr.flowAt with
        | none => { s with pwr := { s.pwr with flowAt := some s.clk.dst } }
        | some t =>
          if t + 1000 * msTicks ≤ s.clk.dst ∧ ¬ s.pwr.flowSaid then
            let s := post s pgPWR sevWarning 0x1105 0 0 0
            { s with pwr := { s.pwr with flowSaid := true } }
          else s)

end Sys2Proof.Machine
end

