-- ==== Sys2Proof/Machine/Shadow.lean ====
section
/-! DEFINITION. Meanings: the shadow unit (R183 to R191). -/

namespace Sys2Proof.Machine

/-- SHW_CTL of a cluster (R190). -/
def shwCtl (s : State) (clu : Nat) : W32 := reg s (at' (pgSHW (clu / 16) (clu % 16)) 0x100)

/-- First data word of R189. -/
def d0Shw (tag clu : Nat) : W32 := BitVec.ofNat 32 (tag % 1024 + clu % 16 * 1024)

/-- Saturating 32-bit add. -/
def sat32 (a b : Nat) : Nat := min 0xFFFFFFFF (a + b)

/-- Counts add up, each saturating (R183). -/
def Counts.plusSat (a b : Counts) : Counts :=
  { elem := sat32 a.elem b.elem, zero := sat32 a.zero b.zero, ufz := sat32 a.ufz b.ufz,
    sat := sat32 a.sat b.sat, nan := sat32 a.nan b.nan, trunc := sat32 a.trunc b.trunc,
    shx := sat32 a.shx b.shx }

def getTag (s : State) (clu t : Nat) : TagCnt := tget TagCnt.zero (getClu s clu).tags t
def setTag (s : State) (clu t : Nat) (x : TagCnt) : State :=
  let k := getClu s clu
  setClu s clu { k with tags := tput TagCnt.zero k.tags t x }

/-- A step of a tag closes (R186): the run grows or ends, and the alarm fires at ZRUN_LEN. -/
def closeStep (s : State) (clu t : Nat) : State :=
  let x := getTag s clu t
  match x.step with
  | none => s
  | some st =>
    let run := if 0 < x.stepElem ∧ x.stepZero = x.stepElem then min 65535 (x.run + 1) else 0
    let s1 := setTag s clu t { x with run := run, stepElem := 0, stepZero := 0 }
    let len := fld (shwCtl s clu) 15 0
    -- a run that stays at 65,535 does not reach ZRUN_LEN again
    if len ≠ 0 ∧ run = len ∧ x.run ≠ len then
      let pg := pgSHW (clu / 16) (clu % 16)
      let s2 := post s1 pg sevWarning 0x0801 (quadAcc s (clu / 16)) (d0Shw t clu) st
      raiseInt (setReg s2 (at' pg 0x130) (BitVec.ofNat 32 t)) pg 0
    else s1

/-- WATCH_NAN (R187): a warning, or with NAN_FAULT an error that faults the job. -/
def watchNan (s : State) (clu t : Nat) (st : W32) : State :=
  let pg := pgSHW (clu / 16) (clu % 16)
  let flt := bit (shwCtl s clu) 30
  let s1 := post s pg (if flt then sevError else sevWarning) 0x0802 (quadAcc s (clu / 16)) (d0Shw t clu) st
  let s2 := raiseInt s1 pg 1
  if flt then faultOpt (bump s2 (at' (pgCLU (clu / 16) (clu % 16)) 0x100) 1) (residentOn s (clu / 16)) else s2

/-- TRUNC of a reduction's blocks, under TDR's tag (R119, R183). DESIGN CHOICE: the operation hands one summary, under
TDD's tag, and TDR's part of it only counts: it closes no step of TDR's tag (R184, R186; DEDUCED, log 135). -/
def applyTrunc (s : State) (clu : Nat) (m : Summary) : State :=
  if m.rtrunc = 0 then s
  else
    let x := getTag s clu m.rtag
    setTag s clu m.rtag { x with cnt := x.cnt.plusSat { Counts.none with trunc := m.rtrunc } }

/-- The shadow unit takes one summary (R183, R186 to R188). -/
def applySummary (s : State) (clu : Nat) (m : Summary) : State :=
  if !bit (shwCtl s clu) 31 then s
  else
    let x0 := getTag s clu m.tag
    let s := if x0.step.isSome ∧ x0.step ≠ some m.step then closeStep s clu m.tag else s
    let x := getTag s clu m.tag
    let news := decide (0 < m.cnt.nan) && decide (x.nanStep ≠ some m.step)
    let s := setTag s clu m.tag
      { x with cnt := x.cnt.plusSat m.cnt, step := some m.step, stepElem := x.stepElem + m.cnt.elem
               stepZero := x.stepZero + m.cnt.zero + m.cnt.ufz
               nanStep := if news then some m.step else x.nanStep }
    let s := applyTrunc s clu m
    let k := getClu s clu
    let now := s.clk.dst / 4
    let s := setClu s clu { k with tagUpd := (now, (if k.tagUpd.1 = now then k.tagUpd.2 else []) ++ [m]) }
    if news then watchNan s clu m.tag m.step else s

/-- Next source in the rotation that has a summary waiting (R184). -/
def nextSrc (k : Cluster) : Option Nat :=
  ((List.range 97).map (fun i => (k.rot + i) % 97)).find? (fun n => k.sums.any (fun m => m.src == n))

/-- Take one summary in rotation, at most eight in a core cycle (R184). -/
def takeSummary (s : State) (clu : Nat) : State :=
  let k := getClu s clu
  let now := s.clk.dst / 4
  let n8 := if k.taken.1 = now then k.taken.2 else 0
  match nextSrc k with
  | none => s
  | some n =>
    match findIdx? (fun m => m.src == n) k.sums 0 with
    | none => s
    | some (i, m) =>
      if 8 ≤ n8 then s
      else applySummary (setClu s clu { k with sums := removeAt k.sums i, rot := (n + 1) % 97, taken := (now, n8 + 1) }) clu m

/-- The step of every tag of a cluster closes when the job ends (R186). -/
def closeAll (s : State) (clu : Nat) : State :=
  if !bit (shwCtl s clu) 31 then s
  else ((getClu s clu).tags.map Prod.fst).foldl (fun s t => closeStep s clu t) s

/-- SHADOW_SUMMARY_TAKE (R184): eight summaries of a core cycle. -/
def execShadowSummaryTake (cl : Clu) (s : State) : Res :=
  .next (loopN 8 (fun _ s => takeSummary s cl.key) s)

/-- What summaries of this core cycle added to a tag (R191). -/
def cycleAdds (s : State) (clu t : Nat) : TagCnt :=
  let k := getClu s clu
  let ms := if k.tagUpd.1 = s.clk.dst / 4 then k.tagUpd.2 else []
  ms.foldl (fun x m =>
    let x := if m.tag = t then { x with cnt := x.cnt.plusSat m.cnt, stepElem := x.stepElem + m.cnt.elem
                                        stepZero := x.stepZero + m.cnt.zero + m.cnt.ufz } else x
    if m.rtag = t ∧ m.rtrunc ≠ 0 then { x with cnt := x.cnt.plusSat { Counts.none with trunc := m.rtrunc } } else x)
    TagCnt.zero

/-- SHW_CLR (R191): SHW_SEL takes TAG, and CLR zeroes that tag's counters; a summary of the same core cycle counts
after it. -/
def execShwClr (cl : Clu) (v : W32) (s : State) : Res :=
  .next (hostWrite s (pgSHW cl.q.val cl.c.val) 0x104 (fun s =>
    let t := fld v 9 0
    let s := setReg s (at' (pgSHW cl.q.val cl.c.val) 0x104) (BitVec.ofNat 32 t)
    if bit v 31 then
      let x := getTag s cl.key t
      let a := cycleAdds s cl.key t
      setTag s cl.key t { x with cnt := a.cnt, run := 0, stepElem := a.stepElem, stepZero := a.stepZero }
    else s))

end Sys2Proof.Machine
end

