-- ==== Sys2Proof/Machine/UpdateOps.lean ====
section
/-! DEFINITION. Update programs, passes and the group arithmetic of the schedule engine (R214 to R240). -/

namespace Sys2Proof.Machine

/-! ## Programs (R220 to R223) -/

def upOp (w : W32) : Nat := fld w 31 27
def upD (w : W32) : Nat := fld w 26 23
def upA (w : W32) : Nat := fld w 22 18
def upB (w : W32) : Nat := fld w 17 13
def upC (w : W32) : Nat := fld w 12 8
def upNA (w : W32) : Bool := bit w 7
def upNB (w : W32) : Bool := bit w 6
def upIX (w : W32) : Nat := fld w 5 0

/-- Fields that an opcode uses (R222): A, B, C, NA and NB, and the largest IX. -/
def upUses (op : Nat) : Bool × Bool × Bool × Bool × Nat :=
  if op = 0 then (false, false, false, false, 0)
  else if op = 1 ∨ op = 2 ∨ op = 6 ∨ op = 7 then (true, true, false, true, 0)
  else if op = 3 ∨ op = 10 then (true, true, true, true, 0)
  else if op = 4 then (true, false, false, false, 1)
  else if op = 5 ∨ op = 11 ∨ op = 12 then (true, false, false, false, 0)
  else if op = 8 then (true, true, false, false, 0)
  else if op = 9 then (true, true, true, false, 0)
  else if op = 13 then (false, false, false, false, 7)
  else if op = 14 then (false, false, false, false, 3)
  else (false, false, false, false, 0)

/-- UPD_FORMAT of one operation (R221, R222). -/
def upBad (w : W32) : Bool :=
  let u := upUses (upOp w)
  decide (15 < upOp w) || decide (u.2.2.2.2 < upIX w)
  || (if u.1 then decide (16 < upA w) else decide (upA w ≠ 0))
  || (if u.2.1 then decide (16 < upB w) else decide (upB w ≠ 0))
  || (if u.2.2.1 then decide (16 < upC w) else decide (upC w ≠ 0))
  || (!u.2.2.2.1 && (upNA w || upNB w))
  || (if upOp w = 0 then decide (upD w ≠ 0) else decide (10 < upD w))

/-- The operation reads the residual E (R215). -/
def upReadsE (w : W32) : Bool :=
  let u := upUses (upOp w)
  (u.1 && upA w == 12) || (u.2.1 && upB w == 12) || (u.2.2.1 && upC w == 12)

/-- The operation writes destination d. -/
def upWrites (d : Nat) (w : W32) : Bool := decide (upOp w ≠ 0) && upD w == d

/-- A program makes a residual pass: it reads E or writes EO (R215). -/
def residual (p : List W32) : Bool := p.any (fun w => upReadsE w || upWrites 10 w)

/-- What one element brings to the program (R221): head, tail, moment, gradient, residual codes,
catch-up factor, missed steps. -/
structure UpEl where
  head : Nat
  tail : W32
  mom  : Nat
  g    : Nat
  e    : Nat
  q    : W32
  k    : W32
deriving DecidableEq, Repr

/-- A BF16 code as FP32 bits. -/
def wide (code : Nat) : W32 := BitVec.ofNat 32 (code * 65536)

/-- W of R221. -/
def upW (x : UpEl) : W32 :=
  if (bfVal x.head).isNan || (bfVal x.head).isInf then wide x.head else rne (master x.head x.tail)

/-- The value of an operand code. -/
def upVal (x : UpEl) (t : Tab W32) (c : Nat) : W32 :=
  if c < 8 then tget 0 t c
  else if c = 8 then wide x.head
  else if c = 9 then upW x
  else if c = 10 then wide x.mom
  else if c = 11 then wide x.g
  else if c = 12 then wide x.e
  else if c = 13 then x.q
  else if c = 14 then x.k
  else if c = 15 then 0
  else 0x3F800000

/-- Negated when the flag is set. -/
def upNeg (n : Bool) (w : W32) : W32 := if n then w ^^^ 0x80000000 else w

/-- One operation's result (R222, R223), from the group words `gw` of R235. -/
def upEval (gw : Tab W32) (x : UpEl) (t : Tab W32) (w : W32) : W32 :=
  let raw := upVal x t (upA w)
  let a := val (upNeg (upNA w) raw)
  let b := val (upNeg (upNB w) (upVal x t (upB w)))
  let c := val (upVal x t (upC w))
  let op := upOp w
  if op = 1 then rne (Ext.add a b)
  else if op = 2 then rne (Ext.mul a b)
  else if op = 3 then rne (Ext.add (Ext.mul a b) c)
  else if op = 4 then
    (if upIX w = 1 then (if bit raw 31 then 0xBF800000 else 0x3F800000) else rne (signOf a))
  else if op = 5 then rne a.mag
  else if op = 6 then rne (Ext.emin a b)
  else if op = 7 then rne (Ext.emax a b)
  else if op = 8 then rne (if a.isNan || b.isNan then .nan else clipOf b a)
  else if op = 9 then rne (if c.isZero then b else a)
  else if op = 10 then rne (Ext.add a (Ext.mul c (Ext.sub b a)))
  else if op = 11 then fnRecip a
  else if op = 12 then fnRsqrt a
  else if op = 13 then tget 0 gw (upIX w % 8)
  else if op = 14 then tget 0 gw (18 + upIX w % 4)
  else rne (Ext.ofUnits 0 (tget 0 gw 12).toNat false)

/-- A program run over one element: temporaries and what it wrote to DW, MO and EO (codes 8 to 10). -/
def upRun (gw : Tab W32) (x : UpEl) (p : List W32) : Tab W32 × (Option W32 × Option W32 × Option W32) :=
  p.foldl (fun st w =>
    if upOp w = 0 then st
    else
      let v := upEval gw x st.1 w
      let d := upD w
      if d < 8 then (tput 0 st.1 d v, st.2)
      else if d = 8 then (st.1, (some v, st.2.2.1, st.2.2.2))
      else if d = 9 then (st.1, (st.2.1, some v, st.2.2.2))
      else (st.1, (st.2.1, st.2.2.1, some v))) ([], (none, none, none))

/-- What writing one element back gives (R224): head, tail, moment, residual, NaN and saturation. -/
structure UpOut where
  head : Nat
  tail : W32
  mom  : Nat
  res  : Option Nat
  nan  : Bool
  sat  : Bool
deriving DecidableEq, Repr

/-- Run the program on one element and write it back (R224); `um` and `ue` are its draws. -/
def upElem (gw : Tab W32) (p : List W32) (rnd um ue : Nat) (x : UpEl) : UpOut :=
  let r := (upRun gw x p).2
  let st := recSet (Ext.add (master x.head x.tail) (val (r.1.getD 0)))
  { head := st.1, tail := st.2.1
    mom := bf16.round rnd um (val (r.2.1.getD (wide x.mom)))
    res := r.2.2.map (fun w => bf16.round rnd ue (val w))
    nan := (bfVal st.1).isNan, sat := st.2.2 }

/-! ## Group words and the schedule engine (R235 to R238) -/

/-- pi in units of 2^-128. -/
def piFix : Nat := 0x3243F6A8885A308D313198A2E03707344

/-- Terms of the cosine series, in units of 2^-128: term, next index, sum. -/
def cosStep (x2 : Nat) (st : Nat × Nat × Int) : Nat × Nat × Int :=
  let t := st.1 * x2 / 2 ^ 128 / ((2 * st.2.1 - 1) * (2 * st.2.1))
  (t, st.2.1 + 1, if st.2.1 % 2 = 1 then st.2.2 - (t : Int) else st.2.2 + (t : Int))

/-- C[i] of R238: the series is exact beyond 100 bits. -/
def cosTab (i : Nat) : W32 :=
  if 1024 ≤ i then 0
  else
    let x := piFix * i / 1024
    let c := (loopN 40 (fun _ st => cosStep (x * x / 2 ^ 128) st) (2 ^ 128, 1, 2 ^ 128)).2.2
    rne (.fin false ((2 ^ 128 + c).toNat) (-129))

/-- Integer as an exact value. -/
def ofInt (n : Int) : Ext := Ext.ofUnits 0 n false

/-- The restart loop of R238: position v and length L, for RM of 2 or more. -/
def restart (rm : Nat) : Nat → Nat → Nat → Nat × Nat
  | 0, v, l => (v, l)
  | n + 1, v, l => if l ≤ v then restart rm n (v - l) (min (l * rm) 0xFFFFFFFF) else (v, l)

/-- Position and length in the curve: v and L of R238. -/
def curvePos (t r0 rm u : Nat) : Nat × Nat :=
  if r0 = 0 then (u, t) else if rm = 1 then (u % r0, r0) else restart rm 64 u r0

/-- d of R238 at position v of length L. -/
def decay (kind v l : Nat) : Ext :=
  if kind = 0 then Ext.one
  else if kind ≠ 3 ∧ l ≤ v then Ext.zero
  else if kind = 1 then fp (Ext.div (ofInt ((l : Int) - v)) (ofInt l))
  else if kind = 2 then
    let pos := v * 2 ^ 20 / l
    let c0 := val (cosTab (pos / 1024))
    let d := fp (Ext.sub (val (cosTab (pos / 1024 + 1))) c0)
    fp (Ext.add c0 (Ext.mul (.fin false (pos % 1024) (-10)) d))
  else val (fnRsqrt (fp (Ext.add Ext.one (fp (Ext.div (ofInt v) (ofInt l))))))

/-- factor(s) of R238 for the words of a group. Where a restart multiplier of 0 leaves the loop no end, the decay is
free. -/
def factor (w : Tab W32) (s : Nat) : W32 :=
  let wu := (tget 0 w 13).toNat
  let r0 := (tget 0 w 15).toNat
  let ctl := tget 0 w 17
  if wu ≠ 0 ∧ s < wu then rne (Ext.div (ofInt s) (ofInt wu))
  else
    let rm := fld ctl 5 2
    let u := s - wu
    let d := if r0 ≠ 0 ∧ rm = 0 ∧ r0 ≤ u ∧ fld ctl 1 0 ≠ 0 then val (Config.restartZero r0 u)
      else
        let p := curvePos (tget 0 w 14).toNat r0 rm u
        decay (fld ctl 1 0) p.1 p.2
    let fl := val (tget 0 w 16)
    rne (Ext.add fl (Ext.mul (Ext.sub Ext.one fl) d))

/-- f and eta of a group at its STEP. -/
def withFactor (w : Tab W32) : Tab W32 :=
  let f := factor w (tget 0 w 12).toNat
  tput 0 (tput 0 w 18 f) 19 (rne (Ext.mul (val (tget 0 w 0)) (val f)))

/-- BC1 and BC2 from the running products. -/
def withBias (w : Tab W32) : Tab W32 :=
  let bc := fun i => rne (Ext.sub Ext.one (val (tget 0 w i)))
  tput 0 (tput 0 w 20 (bc 10)) 21 (bc 11)

/-- One advance of a group (R237); its STEP is below the largest. -/
def advanceGrp (w : Tab W32) : Tab W32 :=
  let w := tput 0 w 12 (tget 0 w 12 + 1)
  let bp := fun p b => rne (Ext.mul (val (tget 0 w p)) (val (tget 0 w b)))
  withFactor (withBias (tput 0 (tput 0 w 10 (bp 10 8)) 11 (bp 11 9)))

/-- Module group entry of a job-local group (R234). -/
def grpEntry (s : State) (j g : Nat) : Option Nat :=
  match tget none (getJob s j).grps g with
  | some e => if (getGrp s e).owner ≠ 0 ∧ (getGrp s e).job = j then some e else none
  | none => none

/-! ## Passes (R218 to R233) -/

/-- Descriptor memory of an engine in the segment that it has reached (R218). -/
def ueDesc (s : State) (e j : Nat) : EngineDesc :=
  match (segsOf s j)[(getUe s e).seg - 1]? with
  | some g => tget { passes := [], progs := [], pt := [] } g.eng e
  | none => { passes := [], progs := [], pt := [] }

/-- One extent of R219: base and length in stack bytes, and whether it is written. -/
def passExtents (w : W256) (p : List W32) : List (Nat × Nat × Bool) :=
  if psMode w = 1 then
    [(512 * psRB w, 512 * psNR w * psCG w, true), (64 * psGB w, 64 * psNG w * (2 * psCG w + 1), false),
     (64 * psEB w, 2 * psNR w, true)]
  else
    [(512 * psRB w, 512 * psNG w, true), (64 * psGB w, 128 * psNG w, false)]
      ++ (if residual p then [(64 * psEB w, 128 * psNG w, true)] else [])

/-- One region of the job holds an extent with LR, and LW where it is written (R219). -/
def extentHeld (s : State) (j q st : Nat) (x : Nat × Nat × Bool) : Bool :=
  let g : GA := ⟨s.top.node.toNat, 0, q, st, 0, 0, 0, x.1⟩
  (regionsOf s j).any (fun r => rgSpace r == 0
    && regionHolds s [r] g x.1 (x.1 + x.2.1 - 1) 35
    && (!x.2.2 || regionHolds s [r] g x.1 (x.1 + x.2.1 - 1) 34))

/-- The checks of one extent after another (R219). -/
def extentCheck (s : State) (e j : Nat) : List (Nat × Nat × Bool) → Option Nat
  | [] => none
  | x :: r =>
    if 2 ^ 37 < x.1 + x.2.1 then some 0x0A02
    else if !extentHeld s j (e / 3) (e % 3) x then some 0x0A03
    else extentCheck s e j r

/-- First failing check of R219; the program's own format first, at the latch (R222). -/
def passCheck (s : State) (e j : Nat) (w : W256) (p : List W32) : Option Nat :=
  if p.any upBad then some 0x0A01
  else if psNG w = 0 then some 0x0A02
  else if psPer w = 0 ∨ psRnd w = 3 ∨ 1 < psMode w then some 0x0A01
  else if (grpEntry s j (psGrp w)).isNone then some 0x0A01
  else if psMode w = 1 ∧ (psNR w = 0 ∨ psCG w = 0) then some 0x0A02
  else if psMode w = 1 ∧ residual p then some 0x0A01
  else extentCheck s e j (passExtents w p)

/-- Linear stack byte of engine e's stack as a module address. -/
def ueAddr (e a : Nat) : Nat := hbmAddr (e / 3) (e % 3) a

/-- u of lane `l` of the group at stack byte `a` (R225): kind 0 moment, 1 residual. -/
def passDraw (e : Nat) (f : PassFly) (a l kind : Nat) : Nat :=
  if psRnd f.w ≠ 1 then 0
  else draw (jobSeed f.seed) (modSalt f.seed) (a / 512 * 64 + l)
    (psTag f.w + kind * 2 ^ 10 + e % 3 * 2 ^ 12 + e / 3 * 2 ^ 14 + 0x7B * 2 ^ 16 + 3 * 2 ^ 23)
    (tget 0 f.gw 12).toNat

/-- What the residual that no EO was written for hangs on (R180): the descriptor, and its launch since job start. -/
def passKey (s : State) (e : Nat) (f : PassFly) : Nat :=
  f.w.toNat + 2 ^ 256 * (f.t0 - (match jobOn s (e / 3) with | some j => (getJob s j).s | none => 0))

/-- Update one record group at stack byte `a` (R215, R224): gradients at byte `g`, residuals at byte
`r` if any; `q` and `k` are the catch-up terms. -/
def passGroup (s : State) (e : Nat) (f : PassFly) (a g : Nat) (r : Option Nat) (q k : W32) (due : Nat) : PassGrp :=
  let code := fun x => rdNum s (ueAddr e x) 2
  let os := (List.range 64).map (fun l =>
    let x : UpEl := { head := code (a + 2 * l), tail := BitVec.ofNat 32 (rdNum s (ueAddr e (a + 128 + 4 * l)) 4)
                      mom := code (a + 384 + 2 * l), g := code (g + 2 * l)
                      e := match r with | some b => code (b + 2 * l) | none => 0, q := q, k := k }
    upElem f.gw f.prog (psRnd f.w) (passDraw e f a l 0) (passDraw e f a l 1) x)
  let bytes := os.flatMap (fun o => bytesOf 2 o.head) ++ os.flatMap (fun o => bytesOf 4 o.tail.toNat)
    ++ os.flatMap (fun o => bytesOf 2 o.mom)
  let res := match r with
    | some b => cellsAt (ueAddr e b) (((List.range 64).zip os).flatMap (fun p =>
        bytesOf 2 (match p.2.res with
          | some v => v
          | none => (Config.eoUnset (passKey s e f) (ueAddr e (b + 2 * p.1))).toNat)))
    | none => []
  { due := due, wr := cellsAt (ueAddr e a) bytes ++ res, nan := (os.filter UpOut.nan).length
    sat := (os.filter UpOut.sat).length }

/-- Stack byte of list record n and its length (R208, R231). -/
def listBytes (w : W256) : Nat := 64 * (2 * psCG w + 1)
def listAt (w : W256) (n : Nat) : Nat := 64 * psGB w + n * listBytes w

/-- First list position whose INDEX is out of range or not rising (R231). -/
def listBad (nr : Nat) : Nat → Option Nat → List Nat → Option Nat
  | _, _, [] => none
  | n, prev, x :: r =>
    if x = 0xFFFFFFFF then listBad nr (n + 1) prev r
    else if decide (nr ≤ x) || (match prev with | some p => decide (x ≤ p) | none => false) then some n
    else listBad nr (n + 1) (some x) r

/-- Charge lines that an engine reads or writes to the window of R151; false when a request is dropped. -/
def ueCharge (s : State) (e : Nat) (xs : List (Nat × Nat)) : State × Bool :=
  xs.foldl (fun r x =>
    if r.2 then hbmAccept r.1 (whoOf r.1 (e / 3)) (e / 3) (e % 3) r.1.clk.dst (rowLines x.1 x.2) (ueAddr e x.1) else r) (s, true)

/-- The engine reads byte ranges of its stack: charged, then checked (R151, R152). -/
def ueRead (s : State) (e : Nat) (xs : List (Nat × Nat)) : State × Bool :=
  let c := ueCharge s e xs
  if c.2 then readCheck c.1 (whoOf c.1 (e / 3)) (xs.flatMap (fun x => (List.range x.2).map (fun b => ueAddr e (x.1 + b))))
  else c

/-- A pass as it stands after this cycle's read. -/
def keepPass (s : State) (e : Nat) (f : PassFly) : State := setUe s e { getUe s e with fly := some f }

/-- The pass reads in its cycle what `xs` names, and goes on with `f`. -/
def passRead (s : State) (e : Nat) (xs : List (Nat × Nat)) (f : State → PassFly) : State :=
  let r := ueRead s e xs
  if r.2 then keepPass r.1 e (f r.1) else r.1

/-- Missed steps and catch-up terms of a row (R232). -/
def missedSteps (step sf : Nat) : Nat := (step + 2 * 65536 - sf - 1) % 65536

/-- A read cycle of a pass (R227, R231). UPD_INDEX comes with the first INDEX that fails, in whose cycle nothing has
been written yet (DEDUCED, log 125). -/
def passStep (s : State) (e j jt : Nat) (f : PassFly) : State :=
  let w := f.w
  let due := jt + 4 * 276
  match passDo w (passCycle jt f) with
  | .none => s
  | .group i =>
    let a := 512 * psRB w + 512 * i
    let g := 64 * psGB w + 128 * i
    let r := if residual f.prog then some (64 * psEB w + 128 * i) else none
    passRead s e ([(a, 512), (g, 128)] ++ (r.toList.map (fun b => (b, 128))))
      (fun s => { f with grps := f.grps ++ [passGroup s e f a g r 0x3F800000 0 due] })
  | .index n =>
    let r := ueRead s e [(listAt w n, 4)]
    if !r.2 then r.1
    else
      let list := f.list ++ [rdNum r.1 (ueAddr e (listAt w n)) 4]
      match listBad (psNR w) 0 none list with
      | some p => ueFault r.1 e j (psOff w) f.idx 0x0A06 p
      | none => keepPass r.1 e { f with list := list }
  | .step n =>
    if nullRec f n then bump s (at' (pgUE (e / 3) (e % 3)) 0x10C) 1
    else
      let a := 64 * psEB w + 2 * f.list.getD n 0
      passRead s e [(a, 2)] (fun s => { f with miss := missedSteps (tget 0 f.gw 12).toNat (rdNum s (ueAddr e a) 2) })
  | .rowGroup n g =>
    if nullRec f n then s
    else
      let x := f.list.getD n 0
      let a := 512 * (psRB w + x * psCG w + g)
      let v := listAt w n + 8 + 128 * g
      let step := bytesOf 2 ((tget 0 f.gw 12).toNat % 65536)
      let sf : PassGrp := { due := due, wr := cellsAt (ueAddr e (64 * psEB w + 2 * x)) step, nan := 0, sat := 0 }
      passRead s e [(a, 512), (v, 128)] (fun s => { f with
        grps := f.grps ++ [passGroup s e f a v none (f.pt.getD (min f.miss 1023) 0) (rne (ofInt f.miss)) due]
          ++ (if g + 1 = psCG w then [sf] else []) })

/-- Ranges of consecutive addresses of some cells, as start and length in stack bytes. -/
def cellRuns (cs : List Host.Cell) : List (Nat × Nat) :=
  cs.foldl (fun l c =>
    match l with
    | (a, n) :: r => if c.1 % 2 ^ 37 = a + n then (a, n + 1) :: r else (c.1 % 2 ^ 37, 1) :: l
    | [] => [(c.1 % 2 ^ 37, 1)]) []

/-- The first NaN and the first saturation of a pass are warnings (R226). -/
def passWarn (s : State) (e : Nat) (f : PassFly) (said : Bool) (n code : Nat) : State :=
  if said || n == 0 then s
  else post s (pgUE (e / 3) (e % 3)) sevWarning code (quadAcc s (e / 3)) (d0Ue e (psOff f.w)) (BitVec.ofNat 32 (f.idx % 256))

/-- Groups whose write time has come are written (R151, R152, R224, R227): their heads are counted, and the first NaN and
saturation of the pass logged (R226). -/
def passWrite (s : State) (e jt : Nat) (f : PassFly) : State × PassFly :=
  let now := f.grps.filter (fun g => decide (g.due ≤ jt))
  let cs := now.flatMap PassGrp.wr
  let f := { f with grps := f.grps.filter (fun g => !decide (g.due ≤ jt)) }
  if now.isEmpty then (s, f)
  else
    let c := ueCharge s e (cellRuns cs)
    if !c.2 then (c.1, f)
    else
      let p := pgUE (e / 3) (e % 3)
      let nan := sumNat (now.map PassGrp.nan)
      let sat := sumNat (now.map PassGrp.sat)
      let s := store c.1 (whoOf c.1 (e / 3)) cs
      let s := bump (bump s (at' p 0x104) nan) (at' p 0x108) sat
      (passWarn (passWarn s e f f.nanSaid nan 0x0A0A) e f f.satSaid sat 0x0A0B,
        { f with nanSaid := f.nanSaid || decide (0 < nan), satSaid := f.satSaid || decide (0 < sat) })

/-- A core edge of an update engine at which job time advances (R214, R229). -/
def ueTick (s : State) (e : Nat) : State :=
  match jobOn s (e / 3), (getUe s e).fly with
  | some j, some f =>
    let job := getJob s j
    if job.held || decide (jobTime s job < f.t0) then s
    else
      let jt := jobTime s job
      let r := passWrite s e jt f
      passStep (keepPass r.1 e r.2) e j jt r.2
  | _, _ => s

/-- Issue interval I (R227, R233). -/
def passI (w : W256) : Nat :=
  if psMode w = 1 then 276 + psNG w + psNG w * (1 + psPer w * psCG w) else psPer w * psNG w + 276

/-- A pass that passed its checks starts (R219, R227). -/
def passGo (s : State) (e j t idx : Nat) (w : W256) (d : EngineDesc) (gw : Tab W32) : State :=
  keepPass s e { t0 := t, due := t + 4 * passI w, idx := idx, w := w, prog := d.progs.getD (psProg w) [], pt := d.pt,
                 gw := gw, seed := jobSeeds s j, list := [], miss := 0, grps := [], nanSaid := false, satSaid := false }

/-- An advance entry names the group and has not completed at job time `t` (R237). -/
def advancing (s : State) (j t : Nat) (g : Option Nat) : Bool :=
  match g with
  | some e => (getJob s j).adv.any (fun a => a.grps.contains e && decide (t < a.due))
  | none => false

/-- A pass is complete: counted, and its counter credited (R227, R241). -/
def passDone (s : State) (e : Nat) (f : PassFly) : State :=
  let s := setUe s e { getUe s e with fly := none }
  let s := bump s (at' (pgUE (e / 3) (e % 3)) 0x100) 1
  match psCC f.w with
  | some n => credit s (16 * (e / 3) + psClu f.w) n 1
  | none => s

/-- The pass in flight whose launch + I has come. -/
def passReady (s : State) (e j : Nat) : Option PassFly :=
  match (getUe s e).fly with
  | some f => if f.due ≤ jobTime s (getJob s j) then some f else none
  | none => none

/-- Launch the engine's next pass when it is of the row's mode (R218, R219). -/
def passLaunch (s : State) (e : Nat) (row : Bool) : State :=
  match runningOn s (e / 3) with
  | none => s
  | some j =>
    let s := match passReady s e j with | some f => passDone s e f | none => s
    let u := getUe s e
    let job := getJob s j
    let jt := jobTime s job
    let d := ueDesc s e j
    if job.held ∨ job.st ≠ .running ∨ u.seg = 0 then s
    else match d.passes[u.pos]? with
      | none => s
      | some w =>
        let t := originOf s j u.seg + 4 * psOff w
        if (psMode w == 1) ≠ row ∨ jt < t then s
        else if decide (t < jt) || (match u.last with | some l => decide (psOff w ≤ l) | none => false) then
          ueFault s e j (psOff w) u.pos 0x0A04 0
        else
          let idx := u.pos
          let s := setUe s e { u with pos := u.pos + 1, last := some (psOff w) }
          if u.fly.isSome then ueFault s e j (psOff w) idx 0x0A05 0
          else
            let p := d.progs.getD (psProg w) []
            match passCheck s e j w p with
            | some code => ueFault s e j (psOff w) idx code 0
            | none =>
              let ge := grpEntry s j (psGrp w)
              if advancing s j jt ge then ueFault s e j (psOff w) idx 0x0A08 0
              else
                let gw := match ge with | some x => (getGrp s x).words | none => []
                passGo s e j jt idx w d gw

/-- A request that the model does not place meets the update port in a cycle that the engine uses (R228); the row that
tells of it is that of the pass's own mode. -/
def passMeet (s : State) (e : Nat) (row : Bool) : State :=
  match (getUe s e).fly with
  | some f => if (psMode f.w == 1) = row then (portMeet s e).1 else s
  | none => s

/-! ## Advance lists (R236, R237, R239) -/

def avOff (w : W64) : Nat := fld w 63 40
def avFirst (w : W64) : Nat := fld w 39 32
def avCount (w : W64) : Nat := fld w 31 23
def avSave (w : W64) : Bool := bit w 22
def avLoad (w : W64) : Bool := bit w 21
def avNoadv (w : W64) : Bool := bit w 20

/-- Byte b of the save area of job-local group g, as a module address (R239). -/
def saveAddr (s : State) (j g b : Nat) : Nat :=
  match (getJob s j).img with
  | some i => match gaParse i.gsa.toNat with
    | some x => gaByte x (x.byte + 128 * g + b)
    | none => 0
  | none => 0

/-- A fault of the schedule engine (R240). -/
def schFault (s : State) (j off idx code : Nat) : State :=
  jobFault (post s pgSCH sevFault code (accOf s j) (d0Ue 12 off) (BitVec.ofNat 32 (idx % 256))) j

/-- One group of an advance entry, in the order of R239; false once the job has faulted. -/
def advanceOne (j idx : Nat) (w : W64) (r : State × Bool) (g : Nat) : State × Bool :=
  if !r.2 then r
  else
    let s := r.1
    match grpEntry s j g with
    | none => r
    | some e =>
      let x := getGrp s e
      let as := (List.range 128).map (saveAddr s j g)
      let lr := if avLoad w then readCheck s { acc := accOf s j, job := some j } as else (s, true)
      if !lr.2 then (lr.1, false)
      else
        let s := lr.1
        let ld := if avLoad w then
          (List.range 18).foldl (fun t i => tput 0 t i (BitVec.ofNat 32 (ofBytes
            ((List.range 4).map (fun b => rdByte s (saveAddr s j g (4 * i + b))))))) x.words else x.words
        if !avNoadv w ∧ tget 0 ld 12 = 0xFFFFFFFF then
          (schFault (setGrp s e { x with words := ld }) j (avOff w) idx 0x0A09, false)
        else
          let ws := if !avNoadv w then advanceGrp ld
            else if avLoad w then withFactor (withBias ld) else ld
          let s := setGrp s e { x with words := ws }
          if avSave w then
            let b := (List.range 18).flatMap (fun i => bytesOf 4 (tget 0 ws i).toNat) ++ List.replicate 56 0
            let s := store s { acc := accOf s j, job := some j } (as.zip b)
            (s, decide ((getJob s j).st = .running))
          else (s, true)

/-- Charge the lines of an advance entry's save-area traffic to the windows of R151: every line that a group's 128 B
touch, once for each direction. -/
def advanceCharge (s : State) (j : Nat) (w : W64) : State × Bool :=
  let n := (if avLoad w then 1 else 0) + (if avSave w then 1 else 0)
  let ls := (List.range (avCount w)).flatMap (fun i =>
    linesOf ((List.range 128).map (saveAddr s j (avFirst w + i))))
  if n = 0 then (s, true)
  else ls.foldl (fun r l =>
    if r.2 then hbmAccept r.1 { acc := accOf s j, job := some j } (quadOf (64 * l)) (stackOf (64 * l)) s.clk.dst n (64 * l)
    else r) (s, true)

end Sys2Proof.Machine
end

