-- ==== Sys2Proof/Machine/RegOps.lean ====
section
/-! DEFINITION. What every register reads as, which are RC, and which fields a plain write sets (R12, R450 to R466). -/

namespace Sys2Proof.Machine

def w32 (n : Nat) : W32 := BitVec.ofNat 32 n

/-- A selection that names nothing shows an unstated value (log 9). -/
def noSel (s : State) (p o : Nat) : W32 := Config.noSelection (at' p o) s.draws

/-- Word w of a wide value. -/
def wordOf (v w : Nat) : W32 := w32 (v / 2 ^ (32 * w))

/-! ## The header (R451 to R460) -/

/-- Quadrant of a page. -/
def pgQuad (p : Nat) : Nat := p / 0x100 % 0x10
/-- Stack of a controller or engine page, cluster of a cluster page. -/
def pgStack (p : Nat) : Nat := (p % 0x100 - 1) % 3
def pgClu' (p : Nat) : Nat := (p % 0x100 - 0x10) / 4
/-- Key of the cluster of a page. -/
def pgKey (p : Nat) : Nat := 16 * pgQuad p + pgClu' p

/-- Instance number (R461, R462). -/
def pageInst (p : Nat) : Nat :=
  let c := pageCode p
  if c = 0x12 then p - 0x18
  else if c = 0x20 then pgQuad p
  else if c = 0x21 ∨ c = 0x22 then 3 * pgQuad p + pgStack p
  else if 0x30 ≤ c then pgKey p
  else 0

/-- _ID (R452). -/
def idReg (p : Nat) : W32 :=
  w32 (pageCode p * 2 ^ 24 + pageInst p * 2 ^ 16 + 0x100
    + (Config.minor (if p < 0x1000 then 0 else 1 + pgQuad p)).toNat)

/-- Lane groups that are available, one bit each (R386, R395). -/
def grpMask (s : State) (gs : List Nat) : Nat :=
  sumNat (((List.range gs.length).zip gs).map (fun e => if grpAvail s e.2 then 2 ^ e.1 else 0))

/-- A stack that failed training (R378). -/
def stackBad (s : State) (p : Nat) : Bool := bit s.bup.deadStk (3 * pgQuad p + pgStack p)

/-- _CAP (R459). -/
def capReg (s : State) (p : Nat) : W32 :=
  let c := pageCode p
  if c = 0x20 then w32 (offered s (pgQuad p))
  else if c = 0x12 then
    w32 (Config.pver.toNat + Config.features.toNat * 2 ^ 8
      + grpMask s ((List.range 4).map (fun g => 4 * (p - 0x18) + g)) * 2 ^ 24)
  else if c = 0x21 then (if stackBad s p then 0 else 128)
  else if c = 0x22 then (if stackBad s p then 0 else 1)
  else if c = 0x0E then 256
  else if c = 0x0A then w32 (256 + 4 * 2 ^ 9)
  else if c = 0x10 then w32 poolCells
  else 0

/-- Bits of _INT_STAT and _INT_EN that exist (R460). -/
def intBits (p : Nat) : W32 :=
  let c := pageCode p
  if c = 0x0A then 0xFF
  else if c = 0x04 then 0xF
  else if c = 0x32 ∨ c = 0x01 ∨ c = 0x11 then 3
  else if c = 0x03 ∨ c = 0x0B ∨ c = 0x06 ∨ c = 0x0D ∨ c = 0x07 ∨ c = 0x08 ∨ c = 0x33 then 1
  else 0

/-- The header's words; `live` unless the block is in reset or out of service (R451, R454). -/
def headReg (s : State) (p o : Nat) (live : Bool) : W32 :=
  if o = 0 then idReg p
  else if o = 4 then capReg s p
  else if o = 0x0C then (if pageRst s p then 0x80000000 else 0)
  else if o = 0x1C then w32 p
  else if (o = 0x10 ∨ o = 0x14 ∨ o = 0x18) ∧ live then reg s (at' p o)
  else 0

/-! ## Block-specific registers -/

/-- Code of a job slot's state (R50). -/
def jobCode (st : JobSt) : Nat :=
  match st with
  | .free => 0 | .admitting => 1 | .admitted => 2 | .refused => 3 | .running => 4 | .ended => 5 | .faulted => 6

/-- Schedule engine (R50, R242). -/
def rdSCH (s : State) (o : Nat) : W32 :=
  if 0x100 ≤ o ∧ o < 0x200 then
    let j := (o - 0x100) / 0x40
    let r := o % 0x40
    let job := getJob s j
    if r = 0x08 then w32 job.h
    else if r = 0x0C then w32 (job.h / 2 ^ 32)
    else if r = 0x2C then w32 (jobCode job.st + job.reason * 2 ^ 8 + job.acc.toNat * 2 ^ 16)
    else if r = 0x28 then 0
    else reg s (at' pgSCH o)
  else
    let e := getGrp s (fld (reg s (at' pgSCH 0x200)) 7 0)
    if o = 0x204 then w32 e.owner.toNat
    else if 0x400 ≤ o ∧ o < 0x480 then
      -- hidden while the owner holds a sealed quadrant (R368)
      (if [0, 1, 2, 3].any (fun q => decide (e.owner ≠ 0) && decide (owner s q = e.owner) && sealed s q) then 0
       else tget 0 e.words ((o - 0x400) / 4))
    else reg s (at' pgSCH o)

/-- OFFSET_PS (R51). -/
def offsetBits (ps : Int) : Nat :=
  if -32768 ≤ ps ∧ ps ≤ 32767 then (ps % 65536).toNat else (Config.offsetOut ps).toNat

/-- Datestamp (R30, R51, R52). -/
def rdDST (s : State) (o : Nat) : W32 :=
  let c := s.clk
  if o = 0x100 then w32 (offsetBits (offsetPs c.target) * 2 ^ 16 + 4 * bl c.extref + 2 * bl (isRoot s) + bl c.unlocked)
  else if o = 0x104 then w32 c.dst
  else if o = 0x108 then c.nowHi
  else if o = 0x10C then c.nowFine
  else if o = 0x110 then BitVec.ofInt 32 c.pull
  else 0

/-- Code of a lane group's state (R277, R298). -/
def linkCode (st : LinkSt) : Nat :=
  match st with
  | .down => 0 | .align => 1 | .ident => 2 | .credit => 3 | .up => 4 | .retrain => 5 | .failed => 6 | .halt => 7

/-- Link page of a port (R298). -/
def rdLNK (s : State) (p o : Nat) : W32 :=
  if 0x100 ≤ o ∧ o < 0x200 then
    let l := getLink s (4 * (p - 0x18) + (o - 0x100) / 0x40)
    let r := o % 0x40
    if r = 0 then w32 (bl l.en)
    else if r = 4 then w32 (linkCode l.st + l.ver.toNat * 2 ^ 8 + l.feat.toNat * 2 ^ 16)
    else if r = 8 then w32 (sumNat (((List.range l.lanes.length).zip l.lanes).map (fun e => e.2.val * 2 ^ (5 * e.1))))
    else reg s (at' p o)
  else reg s (at' p o)

/-- Shadow unit (R190, R191). -/
def rdSHW (s : State) (p o : Nat) : W32 :=
  let t := getTag s (pgKey p) (fld (reg s (at' p 0x104)) 9 0)
  if o = 0x108 then w32 t.cnt.elem
  else if o = 0x10C then w32 t.cnt.zero
  else if o = 0x110 then w32 t.cnt.ufz
  else if o = 0x114 then w32 t.cnt.sat
  else if o = 0x118 then w32 t.cnt.nan
  else if o = 0x11C then w32 t.cnt.trunc
  else if o = 0x120 then w32 t.cnt.shx
  else if o = 0x124 then w32 t.run
  else if o = 0x128 then t.step.getD 0
  else reg s (at' p o)

/-- Route unit (R213). -/
def rdRT (s : State) (p o : Nat) : W32 :=
  let x := fld (reg s (at' p 0x100)) 7 0
  if o = 0x104 then w32 (tget 0 (getClu s (pgKey p)).assign x)
  else if o = 0x108 then w32 (tget 0 (getClu s (pgKey p)).drop x)
  else reg s (at' p o)

/-- Cluster (R464). -/
def rdCLU (s : State) (p o : Nat) : W32 :=
  let c := getCtr s (pgKey p) (fld (reg s (at' p 0x10C)) 4 0)
  if o = 0x110 then BitVec.ofInt 32 c.deficit
  else if o = 0x114 then w32 c.win
  else reg s (at' p o)

/-- Code of a context's state (R263). -/
def ctxCode (st : CtxSt) : Nat :=
  match st with
  | .idle => 0 | .open => 1 | .waitDown => 2 | .stepFault => 3 | .released => 4

/-- Circulation engine (R263). -/
def rdCIR (s : State) (o : Nat) : W32 :=
  let x := getCtx s (fld (reg s (at' pgCIR 0x100)) 7 0)
  if o = 0x104 then w32 (x.owner.toNat * 2 ^ 16 + x.num * 2 ^ 8 + ctxCode x.st)
  else if o = 0x108 then w32 x.sets
  else if o = 0x10C then x.lo
  else if o = 0x110 then x.hi
  else if o = 0x128 then w32 (256 - (s.ctxs.filter (fun e => decide (e.2.owner ≠ 0))).length)
  else reg s (at' pgCIR o)

/-- Router (R299). -/
def rdRTR (s : State) (o : Nat) : W32 :=
  let sel := reg s (at' pgRTR 0x200)
  if 0x204 ≤ o ∧ o < 0x21C then edWord s (fld sel 1 0) (fld sel 2 2) ((o - 0x204) / 4)
  else reg s (at' pgRTR o)

/-- Queue pool (R300). -/
def rdQP (s : State) (o : Nat) : W32 :=
  let c := fld (reg s (at' pgQP 0x100)) 3 0
  let q := fld (reg s (at' pgQP 0x114)) 11 0
  if (o = 0x104 ∨ o = 0x108 ∨ o = 0x10C ∨ o = 0x110) ∧ 9 ≤ c then noSel s pgQP o
  else if o = 0x104 then w32 (clsMinOf s c)
  else if o = 0x108 then w32 (tget 0 s.fab.clsMax c)
  else if o = 0x10C then w32 (clsUse s c)
  else if o = 0x110 then w32 (tget 0 s.fab.clsLost c)
  else if o = 0x118 then w32 (tget 0 s.fab.qCe q)
  else if o = 0x120 then w32 (qpFree s)
  else reg s (at' pgQP o)

/-- Codes of a lane's role, ring and laser (R329). -/
def roleCode (r : LaneRole) : Nat :=
  match r with
  | .slot => 0 | .free => 1 | .calibrating => 2 | .reserve => 3 | .retired => 4 | .failed => 5 | .passage => 6
def ringCode (r : RingSt) : Nat :=
  match r with
  | .off => 0 | .sweep => 1 | .acquire => 2 | .locked => 3 | .lost => 4
def laserCode (l : LaserSt) : Nat :=
  match l with
  | .off => 0 | .safe => 1 | .full => 2 | .blocked => 3

/-- OPT_LANE_STAT (R329). -/
def laneStat (s : State) (p l : Nat) : W32 :=
  let x := getLane s (18 * p + l)
  let role := laneRole s p l
  w32 (roleCode role * 2 ^ 29 + ringCode x.ring * 2 ^ 26 + laserCode x.laser * 2 ^ 24 + x.stage * 2 ^ 22
    + bl (bit (reg s (at' pgOPT (0x140 + 4 * p))) l) * 2 ^ 21
    + (if role = .slot then (match slotOf s p l with | some e => (4 * (e.1 % 4) + e.2) * 2 ^ 17 | none => 0) else 0)
    + bl x.lp * 2 ^ 16)

/-- Photonic engine (R327 to R329). -/
def rdOPT (s : State) (o : Nat) : W32 :=
  let ls := reg s (at' pgOPT 0x110)
  let cs := reg s (at' pgOPT 0x180)
  let x := getLane s (18 * fld ls 2 0 + fld ls 12 8)
  let c := getCell s (18 * fld cs 1 0 + fld cs 12 8)
  if o = 0x108 then w32 (i16 s.opt.temp)
  else if o = 0x10C then
    w32 (bl (s.opt.paused.any (fun e => e.2)) + 2 * bl s.opt.calOn.isSome
      + (match s.opt.calOn with | some k => 4 * k.axis.val + 16 * k.i.val | none => 0))
  else if 0x114 ≤ o ∧ o ≤ 0x124 then
    if 6 ≤ fld ls 2 0 ∨ 18 ≤ fld ls 12 8 then noSel s pgOPT o
    else if o = 0x114 then laneStat s (fld ls 2 0) (fld ls 12 8)
    else if o = 0x118 then BitVec.ofInt 32 x.sol
    else if o = 0x11C then BitVec.ofInt 32 x.fade
    else if o = 0x120 then BitVec.ofInt 32 x.rx
    else BitVec.ofInt 32 x.ringErr
  else if o = 0x184 ∨ o = 0x188 then
    if 3 ≤ fld cs 1 0 ∨ 18 ≤ fld cs 12 8 then noSel s pgOPT o
    else if o = 0x184 then w32 (bl c.hold * 2 ^ 31 + c.tapf * 2 ^ 16 + bl c.busy * 2 ^ 7 + c.cur * 2 ^ 4 + c.state)
    else w32 c.err
  else reg s (at' pgOPT o)

/-- Topology (R348). -/
def rdTOP (s : State) (o : Nat) : W32 :=
  let sel := reg s (at' pgTOP 0x10C)
  let l := getLink s (4 * fld sel 2 0 + fld sel 4 3)
  if o = 0x100 then w32 (bl s.top.ready)
  else if o = 0x104 then w32 (s.top.node.toNat + s.top.root.toNat * 2 ^ 16)
  else if o = 0x108 then s.top.epoch
  else if 0x110 ≤ o ∧ o ≤ 0x148 ∧ o ≠ 0x144 then
    if 6 ≤ fld sel 2 0 then noSel s pgTOP o
    else if o < 0x120 then wordOf l.cat.toNat ((o - 0x110) / 4)
    else if o < 0x140 then wordOf l.peer.toNat ((o - 0x120) / 4)
    else if o = 0x140 then w32 (l.owner.toNat + l.role * 2 ^ 12)
    else if o = 0x148 then w32 l.reason
    else 0
  else reg s (at' pgTOP o)

/-- Two accessions in one word. -/
def twoAcc (a b : BitVec 12) : W32 := w32 (a.toNat + b.toNat * 2 ^ 16)

/-- Custody (R374, R375). -/
def rdCUS (s : State) (o : Nat) : W32 :=
  let k := fun n => tget 0 s.cus.keys n
  if o = 0x100 then w32 (cusStatus s)
  else if o = 0x104 then s.cus.nonce
  else if o = 0x108 then w32 (cusTimer s)
  else if o = 0x10C then w32 s.cus.result
  else if o = 0x118 then twoAcc (owner s 0) (owner s 1)
  else if o = 0x11C then twoAcc (owner s 2) (owner s 3)
  else if o = 0x120 then w32 (sumNat ([0, 1, 2, 3].map (fun n => if k n = 0 then 0 else 2 ^ (8 * n + 7))))
  else if o = 0x124 then twoAcc (k 0) (k 1)
  else if o = 0x128 then twoAcc (k 2) (k 3)
  else if 0x400 ≤ o ∧ o < 0x500 then wordOf (cusPend s).toNat ((o - 0x400) / 4)
  else if 0x500 ≤ o ∧ o < 0x560 then BitVec.ofNat 32 (ofBytes (((devPublic s).drop (o - 0x500)).take 4))
  else reg s (at' pgCUS o)

/-- BUP_CAP (R386, R395), written in step 9 of R376. -/
def bupCap (s : State) : W32 :=
  if s.bup.phase < 9 then 0 else
  let full := [0, 1, 2, 3].all (fun q => offered s q == 16) && (List.range 24).all (grpAvail s)
  w32 (sumNat ([0, 1, 2, 3].map (fun q => offered s q * 2 ^ (8 * q))) + bl full * 2 ^ 31)

/-- Bring-up (R395, R396). -/
def rdBUP (s : State) (o : Nat) : W32 :=
  let b := s.bup
  if o = 0x100 then w32 (bl b.ready * 2 ^ 31 + bl b.isLocal * 2 ^ 30 + b.failph * 2 ^ 8 + b.phase)
  else if o = 0x104 then bupCap s
  else if o = 0x108 then (if b.phase < 9 then 0 else w32 (grpMask s (List.range 24)))
  else if o = 0x110 then (match b.rst with | some r => w32 (1 + 2 * r.scope) | none => 0)
  else reg s (at' pgBUP o)

/-- Units of one map that name physical core k of a cluster, or all of its cores. -/
def mapHas (us : List BadUnit) (q cl k : Nat) : Bool :=
  us.any (fun u => u.q.val == q && u.cl.val == cl && (match u.core with | some c => c.val == k | none => false))
def mapWhole (us : List BadUnit) (q cl : Nat) : Bool :=
  us.any (fun u => u.q.val == q && u.cl.val == cl && u.core.isNone)

/-- 32 flags as a word. -/
def flagWord (f : Nat → Bool) : W32 := w32 (sumNat ((List.range 32).map (fun i => if f i then 2 ^ i else 0)))

/-- Repair (R385, R397). -/
def rdRPR (s : State) (o : Nat) : W32 :=
  let sel := reg s (at' pgRPR 0x104)
  let q := fld sel 1 0
  let cl := fld sel 6 2
  if o = 0x100 then repairCrc s
  else if 0x108 ≤ o ∧ o ≤ 0x128 then
    if 17 ≤ cl then noSel s pgRPR o
    else if o = 0x108 then
      let n := match findIdx? (· == cl) (placement s q) 0 with | some (i, _) => i | none => 0x1F
      w32 (bl (serviceable s q cl) * 2 ^ 31 + bl (mapWhole s.bup.fused q cl) * 2 ^ 30
        + bl (mapWhole s.bup.soft q cl) * 2 ^ 29 + n * 2 ^ 16 + badCores s q cl)
    else if o < 0x11C then flagWord (fun i => coreBad s q cl (8 * (o - 0x10C) + i))
    else flagWord (fun i => let k := 8 * (o - 0x11C) + i
                            mapHas s.bup.soft q cl k && !mapHas s.bup.fused q cl k)
  else if o = 0x12C then w32 (s.bup.pendSoft.length + s.bup.pendRows.length)
  else reg s (at' pgRPR o)

/-- Clock (R417, R418). -/
def rdCLK (s : State) (o : Nat) : W32 :=
  if o = 0x108 then w32 (s.clk.fcState + s.clk.fcHolder * 2 ^ 4)
  else if o = 0x10C then s.clk.fcCount
  else if o = 0x104 then reg s (at' pgCLK o)
  else reg s (at' pgCLK o)

/-- Power and thermal (R419). -/
def rdPWR (s : State) (o : Nat) : W32 :=
  let n := fld (reg s (at' pgPWR 0x134)) 3 0
  if o = 0x138 then (if 12 ≤ n then noSel s pgPWR o else w32 (i16 (tget 0 s.pwr.hbmT n)))
  else if o = 0x144 then w32 s.pwr.thr.toNat
  else reg s (at' pgPWR o)

/-- Host (R424, R446). -/
def rdHST (s : State) (o : Nat) : W32 :=
  if 0x200 ≤ o ∧ o < 0x280 ∧ o % 0x20 = 0x0C then
    let r := getRing s ((o - 0x200) / 0x20)
    w32 (r.head + bl r.halt * 2 ^ 16 + r.last * 2 ^ 24)
  else reg s (at' pgHST o)

/-- Ledger (R447). -/
def rdLDG (s : State) (o : Nat) : W32 :=
  if o = 0x100 then w32 s.ldg.wr
  else if o = 0x104 then w32 s.ldg.rd
  else if 0x120 ≤ o ∧ o < 0x140 then
    wordOf (ofBytes (entryBytes (ldgSlot s (fld (reg s (at' pgLDG 0x110)) 12 0)))) ((o - 0x120) / 4)
  else reg s (at' pgLDG o)

/-- Management (R448). -/
def rdMGT (s : State) (o : Nat) : W32 :=
  if o = 0x100 then w32 (s.mgt.eid.toNat + bl s.mgt.smbus * 2 ^ 8) else reg s (at' pgMGT o)

/-- SYNC (R449). -/
def rdSYNC (s : State) (o : Nat) : W32 :=
  if o = 0x104 then w32 s.sync.dst
  else if o = 0x108 then s.sync.hi
  else if o = 0x10C then s.sync.fineL
  else reg s (at' pgSYNC o)

/-- Fuse controller (R465). -/
def rdFUS (s : State) (o : Nat) : W32 :=
  let r := fld (reg s (at' pgFUS 0x100)) 7 0
  if o = 0x104 then (if 0xF0 ≤ r then 0 else senseRow s r)
  else if o = 0x108 then w32 s.cus.crcStat.toNat
  else if o = 0x10C then w32 (sumNat ((List.range 16).map (fun g => if rowLocked s (16 * g) then 2 ^ g else 0)))
  else reg s (at' pgFUS o)

/-- QD_NBR (R463). -/
def rdQD (s : State) (p o : Nat) : W32 :=
  if o = 0x100 then
    w32 (sumNat ([0, 1, 2, 3].map (fun k => if nbrPair (pgQuad p) k && nbrOpen s (pgQuad p) k then 2 ^ k else 0)))
  else 0

/-- A block-specific register of a page in service. -/
def blockReg (s : State) (p o : Nat) : W32 :=
  let c := pageCode p
  if c = 0x01 then rdBUP s o
  else if c = 0x02 then rdRPR s o
  else if c = 0x03 then rdLDG s o
  else if c = 0x04 then rdHST s o
  else if c = 0x05 then rdMGT s o
  else if c = 0x06 then rdSYNC s o
  else if c = 0x07 then rdCLK s o
  else if c = 0x08 then rdPWR s o
  else if c = 0x09 then rdDST s o
  else if c = 0x0A then rdSCH s o
  else if c = 0x0B then rdCUS s o
  else if c = 0x0C then rdFUS s o
  else if c = 0x0D then rdTOP s o
  else if c = 0x0E then rdCIR s o
  else if c = 0x0F then rdRTR s o
  else if c = 0x10 then rdQP s o
  else if c = 0x11 then rdOPT s o
  else if c = 0x12 then rdLNK s p o
  else if c = 0x20 then rdQD s p o
  else if c = 0x30 then rdCLU s p o
  else if c = 0x32 then rdSHW s p o
  else if c = 0x33 then rdRT s p o
  else reg s (at' p o)

/-- What a register reads as (R12, R450, R454): absent pages 0; a page in reset or out of service its
reset values, but for _ID, _CAP, _STAT and _LDG_SRC. -/
def readReg (s : State) (p o : Nat) : W32 :=
  if pageAbsent s p then 0
  else if o < 0x100 then headReg s p o (pageLive s p)
  else if pageLive s p then blockReg s p o
  else blockReg State.reset p o

/-! ## RC counters (R12, R14) -/

/-- A register is RC. -/
def isRC (p o : Nat) : Bool :=
  let c := pageCode p
  let r := o % 0x40
  let blk := decide (0x100 ≤ o) && decide (o < 0x200)
  o == 0x18
  || (c == 0x0A && blk && (r == 0x14 || r == 0x18))
  || (c == 0x31 && [0x108, 0x10C, 0x110].contains o)
  || (c == 0x21 && [0x100, 0x104, 0x110, 0x114].contains o)
  || (c == 0x32 && o == 0x12C)
  || (c == 0x33 && [0x10C, 0x110, 0x114, 0x118].contains o)
  || (c == 0x22 && [0x100, 0x104, 0x108, 0x10C, 0x110, 0x114].contains o)
  || (c == 0x0E && [0x114, 0x118, 0x11C, 0x120, 0x124, 0x12C].contains o)
  || (c == 0x12 && ((blk && decide (0x10 ≤ r) && decide (r ≤ 0x2C)) || (decide (0x300 ≤ o) && decide (o < 0x390))))
  || (c == 0x0F && blk && (r == 4 || r == 8 || r == 0x0C))
  || (c == 0x10 && [0x110, 0x118, 0x11C, 0x124, 0x128, 0x12C, 0x130].contains o)
  || (c == 0x11 && [0x190, 0x194, 0x198, 0x19C, 0x1A0, 0x1A4].contains o)
  || (c == 0x0D && o == 0x144)
  || (c == 0x0B && (o == 0x110 || o == 0x114))
  || (c == 0x01 && o == 0x114)
  || (c == 0x02 && o == 0x130)
  || (c == 0x04 && o == 0x104)
  || (c == 0x03 && (o == 0x108 || o == 0x10C))
  || (c == 0x05 && (o == 0x104 || o == 0x108))
  || (c == 0x06 && o == 0x110)
  || (c == 0x08 && (o == 0x148 || o == 0x14C))
  || (c == 0x30 && [0x100, 0x104, 0x108, 0x180, 0x184, 0x188].contains o)

/-- An RC counter is cleared by its read, and an increment of the same clock counts after that (R14). QP_LOST
and QP_Q_CE stand by class and by queue. -/
def clearRC (s : State) (p o n : Nat) : State :=
  let v := min n 0xFFFFFFFF
  if pageCode p = 0x10 ∧ o = 0x110 then
    { s with fab := { s.fab with clsLost := tput 0 s.fab.clsLost (fld (reg s (at' pgQP 0x100)) 3 0) v } }
  else if pageCode p = 0x10 ∧ o = 0x118 then
    { s with fab := { s.fab with qCe := tput 0 s.fab.qCe (fld (reg s (at' pgQP 0x114)) 11 0) v } }
  else setReg s (at' p o) (w32 v)

/-! ## Plain writes (R12) -/

/-- Bits that a plain write sets in a register kept whole in `regs`; 0 where none. -/
def rwMask (p o : Nat) : W32 :=
  let c := pageCode p
  let r := o % 0x40
  let blk := decide (0x100 ≤ o) && decide (o < 0x200)
  if c = 0x0A then
    (if blk && [0x00, 0x10, 0x1C, 0x20, 0x24].contains r then 0xFFFFFFFF else if o = 0x200 then 0xFF else 0)
  else if c = 0x32 then (if o = 0x100 then 0xC01FFFFF else if o = 0x104 then 0x3FF else 0)
  else if c = 0x33 then (if o = 0x100 then 0xFF else 0)
  else if c = 0x0E then (if o = 0x100 then 0xFF else 0)
  else if c = 0x0F then (if blk && r == 0 then 7 else if o = 0x200 then 7 else 0)
  else if c = 0x10 then (if o = 0x100 then 0xF else if o = 0x114 then 0xFFF else 0)
  else if c = 0x11 then
    (if o = 0x100 then 3 else if o = 0x104 then 0xFFFFFFFF else if o = 0x110 then 0x1F07
     else if 0x140 ≤ o ∧ o < 0x158 then 0x3FFFF else if o = 0x180 then 0x1F03 else 0)
  else if c = 0x0D then (if o = 0x10C then 0x1F else 0)
  else if c = 0x02 then (if o = 0x104 then 0x7F else 0)
  else if c = 0x03 then (if o = 0x110 then 0x1FFF else 0)
  else if c = 0x04 then
    (if 0x200 ≤ o ∧ o < 0x280 then (if o % 0x20 = 0 then 0xFFFFFFC0 else if o % 0x20 = 4 then 0xFFFFFFFF else 0) else 0)
  else if c = 0x05 then (if o = 0x10C then 0xFFFFFFFF else 0)
  else if c = 0x06 then (if o = 0x100 then 7 else 0)
  else if c = 0x08 then (if o = 0x134 then 0xF else 0)
  else if c = 0x0C then (if o = 0x100 then 0xFF else 0)
  else if c = 0x30 then (if o = 0x10C then 0x1F else 0)
  else 0

/-- The write is one that its register takes: a value in the range of R327 or R448 (log 76), a ring base
while the ring is off (R446), SHW_SEL, RT_SEL and QP_Q_SEL without their action bit. -/
def takes (s : State) (p o : Nat) (v : W32) : Bool :=
  let c := pageCode p
  if c = 0x11 ∧ o = 0x104 then decide (10 ≤ v.toNat) && decide (v.toNat ≤ 10000)
  else if c = 0x05 ∧ o = 0x10C then decide (10 ≤ v.toNat) && decide (v.toNat ≤ 1000000)
  else if c = 0x04 ∧ 0x200 ≤ o then !ringOn s ((o - 0x200) / 0x20)
  else if (c = 0x32 ∧ o = 0x104) ∨ (c = 0x33 ∧ o = 0x100) ∨ (c = 0x10 ∧ o = 0x114) then !bit v 31
  else true

/-- A plain write of a register in service (R12, R300, R374, R418, R444, R446). Registers whose write is a
row of its own keep their value here (log 77). -/
def writeReg (s : State) (p o : Nat) (v : W32) : State :=
  let c := pageCode p
  if c = 0x0B ∧ 0x200 ≤ o ∧ o < 0x300 then
    { s with cus := { s.cus with stage := tput 0 s.cus.stage ((o - 0x200) / 4) v } }
  else if c = 0x0B ∧ 0x300 ≤ o ∧ o < 0x360 then
    { s with cus := { s.cus with sig := tput 0 s.cus.sig ((o - 0x300) / 4) v } }
  else if c = 0x10 ∧ o = 0x108 then
    let k := fld (reg s (at' pgQP 0x100)) 3 0
    if 9 ≤ k then s else { s with fab := { s.fab with clsMax := tput 0 s.fab.clsMax k v.toNat } }
  else if c = 0x04 ∧ 0x200 ≤ o ∧ o < 0x280 ∧ o % 0x20 = 8 then ringCtl s ((o - 0x200) / 0x20) v
  else if c = 0x07 ∧ o = 0x104 then (if bit v 31 ∨ bit v 30 then s else fcWrite s v)
  else
    let m := rwMask p o
    if m = 0 ∨ !takes s p o v then s
    else
      let s := setReg s (at' p o) (v &&& m)
      if c = 0x06 ∧ !bit v 2 then { s with sync := { s.sync with frozen := false } } else s

end Sys2Proof.Machine
end

