-- ==== Sys2Proof/Machine/Regs.lean ====
section
/-! DEFINITION. Meanings: plain register accesses and interrupt registers (R12, R14, R423, R457, R458). -/

namespace Sys2Proof.Machine

/-- REGISTER_WRITE (R12): an aligned write within BAR0; RO, RC and reserved fields keep their values. -/
def execRegisterWrite (off : Nat) (v : W32) (s : State) : Res :=
  .next (
    if off % 4 ≠ 0 then (if s.bup.bar0 then badAcc s 0 off else s)
    else hostWrite s (off / 4096) (off % 4096) (fun s => writeReg s (off / 4096) (off % 4096) v))

/-- RC_COUNTER_READ (R12, R14): the value is returned; an RC counter is cleared, then `inc` is added. Any
other register is only read, but for the two latching reads of R52 and R449. -/
def execRcCounterRead (off inc : Nat) (s : State) : Res :=
  .next (
    let p := off / 4096
    let o := off % 4096
    if !s.bup.bar0 then s
    else if off % 4 ≠ 0 then emit (badAcc s 0 off) (.rd 0xFFFFFFFF)
    else
      let v := readReg s p o
      let live := pageLive s p && !pageAbsent s p
      let s := if live && isRC p o then clearRC s p o inc
        else if live && p == pgDST && o == 0x104 then
          { s with clk := { s.clk with nowHi := w32 (s.clk.dst / 2 ^ 32), nowFine := w32 s.clk.fine.toNat } }
        else if live && p == pgSYNC && o == 0x104 then
          { s with sync := { s.sync with hi := w32 (s.sync.dst / 2 ^ 32), fineL := w32 s.sync.fine.toNat } }
        else s
      emit s (.rd v))

/-- INT_STAT_W1C (R457, R458): bits written as 1 clear; bits that hardware sets in the same clock (`hw`) stay
set, or are set anew. -/
def execIntStatW1c (page : Nat) (v hw : W32) (s : State) : Res :=
  .next (hostWrite s page 0x10 (fun s =>
    let off := at' page 0x10
    let hw := hw &&& intBits page
    let s := setReg s off (reg s off &&& ~~~(v &&& ~~~hw))
    (List.range 8).foldl (fun s b => if bit hw b then raiseInt s page b else s) s))

/-- INT_EN_WRITE (R458): an enable written from 0 to 1 over a set status bit signals its vector. -/
def execIntEnWrite (page : Nat) (v : W32) (s : State) : Res :=
  .next (hostWrite s page 0x14 (fun s =>
    let off := at' page 0x14
    let old := reg s off
    let new := v &&& intBits page
    let st := reg s (at' page 0x10)
    let s := setReg s off new
    (List.range 8).foldl (fun s b =>
      if bit new b && !bit old b && bit st b then emit s (.msix (vectorOf page b)) else s) s))

/-- HST_BAD_ACC (R423): a BAR0 or BAR4 access that is not an aligned 4 B one; a write is discarded, a read
completes with all ones. -/
def execHstBadAcc (bar off : Nat) (isWrite : Bool) (s : State) : Res :=
  .next (
    if !s.bup.bar0 ∨ (bar ≠ 0 ∧ bar ≠ 4) then s
    else
      let s := badAcc s bar off
      if isWrite then s else emit s (.rd 0xFFFFFFFF))

end Sys2Proof.Machine
end

