-- ==== Sys2Proof/Machine/AdmitOps.lean ====
section
/-! DEFINITION. The checks of admission (R18, R34 to R36, R53, R70, R175, R234, R236, R239, R246, R341, R352, R408). -/

namespace Sys2Proof.Machine

/-! ## Reason 2: sections, streams, seeds, origins -/

/-- The last item, and only the last, meets a test; the list is not empty (R70, R128, R193). -/
def endsOnce {α : Type} (p : α → Bool) : List α → Bool
  | [] => false
  | [a] => p a
  | a :: b :: r => !p a && endsOnce p (b :: r)

/-- Logical clusters that the job's quadrants offer, by key. -/
def jobClus (s : State) (i : Image) : List Nat :=
  (imgQuads i).flatMap (fun q => (List.range (offered s q)).map (16 * q + ·))

/-- Logical cores of those clusters, by key. -/
def jobCores (s : State) (i : Image) : List Nat :=
  (jobClus s i).flatMap (fun k => (List.range 96).map (96 * k + ·))

/-- Every stream of a segment ends once (R70, R128, R193). -/
def segStreamsOk (s : State) (i : Image) (g : Seg) : Bool :=
  (jobCores s i).all (fun k => endsOnce (fun b => ctlOp b == 1) (tget [] g.streams k))
  && (jobClus s i).all (fun k => endsOnce (fun w => fld w 231 226 == 1) (tget [] g.re k)
      && endsOnce (fun w => fld w 231 226 == 1) (tget [] g.rt k))

/-- The seeds section is well formed (R175). -/
def seedsOk (w : W256) : Bool :=
  decide (fld w 101 96 ≠ 0) && decide (fld w 109 104 ≠ 0) && decide (fld w 103 102 = 0)
  && decide (fld w 111 110 = 0) && decide (fld w 255 112 = 0)

/-- Segment origins (R36): multiples of 4, each at least the previous origin plus 4 times its length. -/
def originsOk : List Seg → Bool
  | [] => true
  | [a] => a.origin % 4 == 0
  | a :: b :: r => a.origin % 4 == 0 && decide (a.origin + 4 * a.len ≤ b.origin) && originsOk (b :: r)

/-- A required section is missing (R34): context definitions if the job reduces, injection windows if it
uses links. -/
def sectionsMissing (i : Image) : Bool :=
  i.missing || (i.reduces && i.contexts.isEmpty)
  || (i.linked && i.segs.all (fun g => g.windows.all (fun w => w.2.isEmpty)))

/-! ## Reason 3: contexts -/

/-- The segments cover chunks n to NCH - 1 in order, in quadrants of the job (R246). -/
def segsCover (i : Image) (nch : Nat) : Nat → List W64 → Bool
  | n, [] => n == nch
  | n, w :: r => sgFch w == n && decide (1 ≤ sgNchs w) && bit i.quads (sgQ w) && decide (fld w 2 0 = 0)
      && segsCover i nch (n + sgNchs w) r

/-- Inputs of a context by number. -/
def cxInputs (d : CtxDef) : List (BitVec 16) := (List.range (cxNin d)).map (cxIn d)

/-- Remote inputs' nodes. -/
def cxRemote (d : CtxDef) : List Nat := ((cxInputs d).filter (fun w => !inLoc w)).map inNode

/-- No value occurs twice. -/
def distinct : List Nat → Bool
  | [] => true
  | a :: r => !r.contains a && distinct r

/-- Delivery k lies whole in a region with LW of a quadrant of the job (R246, R259). -/
def dlvOk (s : State) (i : Image) (d : CtxDef) (k : Nat) : Bool :=
  match gaDecode s (cxDlv d k) with
  | some g => decide (g.node = s.top.node.toNat) && bit i.quads g.q
      && regionHolds s i.regions g g.byte (g.byte + 2 * cxLen d - 1) 34
  | none => false

/-- The fields of a definition are in range, and its reserved fields are 0 (R244 to R246). -/
def cxFieldsOk (d : CtxDef) : Bool :=
  decide (d.hdr.length = 9) && decide (d.segs.length = cxNseg d)
  && decide (1 ≤ cxNin d) && decide (cxNin d ≤ 8) && decide (1 ≤ cxCW d) && decide (cxCW d ≤ 64)
  && decide (1 ≤ cxLen d) && decide (cxLen d ≤ 2 ^ 31) && decide (cxNdlv d ≤ 4)
  && decide (fld (cxWord d 0) 22 0 = 0) && decide (fld (cxWord d 1) 8 0 = 0)
  && [0, 1, 2, 3].all (fun k => decide (fld (cxCrd d k) 5 0 = 0))

/-- The inputs, widths and tree fields of a definition agree (R246). -/
def cxTreeOk (d : CtxDef) : Bool :=
  let ins := cxInputs d
  let loc := inLoc (cxIn d 0)
  let wids := ins.map inWid
  !((ins.drop 1).any inLoc) && (decide (0 < cxNseg d) == loc)
  && distinct (cxRemote d) && (cxRoot d || !(cxRemote d).contains (cxParent d))
  && (!cxRoot d || (decide (cxParent d = 0) && decide (cxWout d = 0)))
  && (if cxVote d then
        (!loc || decide (inWid (cxIn d 0) = 0))
        && (cxRoot d || ((decide (cxWout d ≠ 0) || (cxRemote d).isEmpty) && decide (maxNat wids ≤ cxWout d)))
      else wids.all (· == 0) && decide (cxWout d = 0))

/-- A definition breaks no check of R246 on its own. -/
def cxOk (s : State) (i : Image) (d : CtxDef) : Bool :=
  cxFieldsOk d && cxTreeOk d
  && (decide (cxNseg d = 0) || segsCover i (cxNch d) 0 d.segs)
  && (List.range (cxNdlv d)).all (dlvOk s i d)

/-- Allocated entries of the module's contexts. -/
def usedCtxs (s : State) : List Ctx := (s.ctxs.map Prod.snd).filter (fun c => decide (c.owner ≠ 0))

/-- Reason 3 does not apply (R35, R246). -/
def contextsOk (s : State) (i : Image) : Bool :=
  decide ((usedCtxs s).length + i.contexts.length ≤ 256) && i.contexts.all (cxOk s i)
  && decide (sumNat ((usedCtxs s).map (fun c => cxReserve c.defn)) + sumNat (i.contexts.map cxReserve)
      ≤ clsMinOf s 4)

/-! ## Reasons 6 to 12 -/

/-- Every quadrant of the mask is owned by the image's accession, and no other job is resident on it
(R19, R35, R352). -/
def quadsOk (s : State) (j : Nat) (i : Image) : Bool :=
  decide (i.acc ≠ 0) && (imgQuads i).all (fun q => decide (owner s q = i.acc)
    && [0, 1, 2, 3].all (fun k => k == j || !(resident (getJob s k).st && (jobQuads s k).contains q)))

/-- A lane group belongs to the accession, ROLE 1 (R340). -/
def member (s : State) (acc : BitVec 12) (g : Nat) : Bool :=
  decide ((getLink s g).role = 1) && decide ((getLink s g).owner = acc)

/-- Features that a member link offers: a one-way source end offers its own mask (R35). -/
def offers (s : State) (g : Nat) : BitVec 16 := if grpMode s g = 1 then Config.features else (getLink s g).feat

/-- Every member link offers the image's features (R35). -/
def featuresOk (s : State) (i : Image) : Bool :=
  (List.range 24).all (fun g => !member s i.acc g || decide (i.features &&& ~~~ offers s g = 0))

/-- Some advance entry of the image sets LOAD or SAVE (R239). -/
def usesGsa (i : Image) : Bool := i.segs.any (fun g => g.adv.any (fun w => avLoad w || avSave w))

/-- The group save area (R239). -/
def gsaOk (s : State) (i : Image) : Bool :=
  if i.gsa = 0 then !usesGsa i
  else match gaDecode s i.gsa.toNat with
    | some g => decide (g.node = s.top.node.toNat) && decide (g.space ≤ 1) && bit i.quads g.q
        && (i.groups.isEmpty || i.regions.any (fun r => rgPerm r 35
              && regionHolds s [r] g g.byte (g.byte + 128 * i.groups.length - 1) 34))
    | none => false

/-- Regions and group save area (R156, R239). -/
def regionsOk (s : State) (i : Image) : Bool :=
  decide (i.regions.length ≤ 256) && i.regions.all (rgOk s) && gsaOk s i

/-- An advance list keeps R236 for a job with n groups. -/
def advOk (n : Nat) : Option Nat → List W64 → Bool
  | _, [] => true
  | last, w :: r =>
    (match last with | some o => decide (o < avOff w) | none => true)
    && decide (1 ≤ avCount w) && decide (avCount w ≤ 256) && decide (avFirst w + avCount w ≤ n)
    && decide (fld w 19 0 = 0) && advOk n (some (avOff w)) r

/-- A group's curve (R234). -/
def curveOk (ws : List W32) : Bool :=
  let ctl := ws.getD 17 0
  !(decide (fld ctl 1 0 ≠ 0) && decide (ws.getD 14 0 = 0)) && decide (fld ctl 5 2 ≠ 0)

/-- Groups, curves, advance lists (R234, R236). -/
def groupsOk (s : State) (i : Image) : Bool :=
  decide ((s.grps.filter (fun e => decide (e.2.owner ≠ 0))).length + i.groups.length ≤ 256)
  && i.groups.all curveOk
  && i.segs.all (fun g => decide (g.adv.length ≤ 64) && advOk i.groups.length none g.adv)

/-- Descriptor memories (R218). -/
def enginesOk (i : Image) : Bool :=
  i.segs.all (fun g => g.eng.all (fun e => decide (e.2.passes.length ≤ 256) && decide (e.2.progs.length ≤ 16)
    && e.2.progs.all (fun p => decide (p.length ≤ 32)) && decide (e.2.pt.length ≤ 1024)))

/-- Injection windows of the image, as lane groups. -/
def windowGrps (i : Image) : List Nat :=
  i.segs.flatMap (fun g => (g.windows.filter (fun w => !w.2.isEmpty)).map Prod.fst)

/-- Lane-group ownership and job key (R341, R352). -/
def linksOk (s : State) (i : Image) : Bool :=
  (windowGrps i).all (fun g => decide (g < 24) && member s i.acc g)
  && i.contexts.all (fun d => [0, 1, 2, 3, 4, 5].any (fun p => member s i.acc (4 * p + cxLG d)))
  && (((windowGrps i).isEmpty && i.contexts.isEmpty) || s.cus.keys.any (fun e => decide (e.2 = i.acc)))

/-- A profile word with a code above 240 (R47, R408). -/
def codeHigh (w : W32) : Bool := [0, 8, 16, 24].any (fun b => decide (240 < fld w (b + 7) b))

/-- The first offending profile entry, or 0xFFFFFFFF for the idle code alone (R408). -/
def profileBad (i : Image) : Option W32 :=
  match findIdx? codeHigh i.power 0 with
  | some (n, _) => some (BitVec.ofNat 32 n)
  | none => if codeHigh i.idle then some 0xFFFFFFFF else none

/-- The byte run of slot `j` lies whole in the HBM of one quadrant of the mask (R53 step 1). -/
def imageWhole (s : State) (j : Nat) (i : Image) : Bool :=
  let a := imgAddr s j
  let n := (reg s (at' pgSCH (0x124 + 0x40 * j))).toNat
  match gaDecode s a, gaDecode s (a + n - 1) with
  | some x, some y => decide (x.space ≤ 1) && decide (x.node = y.node) && decide (x.space = y.space)
      && decide (x.q = y.q) && bit i.quads x.q
  | _, _ => false

/-- The reason of R53 for the first failed check, in the order of the reasons, and the detail of R55.
A header that does not parse is found before what it would hold (DEDUCED, log 70). -/
def admitReason (s : State) (j : Nat) (i : Image) : Option (Nat × W32) :=
  if !i.parses then some (2, 0)
  else if i.repairCrc ≠ repairCrc s then some (1, i.repairCrc)
  else if i.unknown || sectionsMissing i || !i.segs.all (segStreamsOk s i) || !seedsOk i.seeds
      || !originsOk i.segs then some (2, 0)
  else if !contextsOk s i then some (3, 0)
  else if 96 < i.slots then some (4, 0)
  else if 1024 < i.tags then some (5, 0)
  else if !quadsOk s j i then some (6, 0)
  else if !featuresOk s i then some (7, 0)
  else if !regionsOk s i then some (8, 0)
  else if !groupsOk s i then some (9, 0)
  else if !enginesOk i then some (10, 0)
  else if !linksOk s i then some (11, 0)
  else match profileBad i with
    | some n => some (12, n)
    | none =>
      if !s.top.ready then some (13, 0)
      else if inThrottle s 4 || (imgQuads i).any (quadThrottle s) then some (14, 0)
      else if !i.covered || !imageWhole s j i then some (15, 0)
      else none

/-! ## Admission and release -/

/-- Lowest key below n that a table does not use. -/
def freeKey (n : Nat) (used : Nat → Bool) : Option Nat := (List.range n).find? (fun k => !used k)

/-- A definition takes the lowest free context entry (R35, R243). -/
def takeCtx (j : Nat) (acc : BitVec 12) (s : State) (d : CtxDef) : State :=
  match freeKey 256 (fun e => decide ((getCtx s e).owner ≠ 0)) with
  | none => s
  | some e =>
    let s := setCtx s e { Ctx.free with owner := acc, job := j, num := cxCtx d, defn := d }
    let job := getJob s j
    setJob s j { job with ctxs := tput none job.ctxs (cxCtx d) (some e) }

/-- Words 0 to 17 of a group from the image, and the computed words (R235, log 71). -/
def groupWords (ws : List W32) : Tab W32 :=
  withFactor (withBias ((List.range 18).foldl (fun t n => tput 0 t n (ws.getD n 0)) []))

/-- Job-local group `p.1` takes the lowest free group entry (R234, R235). -/
def takeGrp (j : Nat) (acc : BitVec 12) (s : State) (p : Nat × List W32) : State :=
  match freeKey 256 (fun e => decide ((getGrp s e).owner ≠ 0)) with
  | none => s
  | some e =>
    let s := setGrp s e { owner := acc, job := j, words := groupWords p.2 }
    let job := getJob s j
    setJob s j { job with grps := tput none job.grps p.1 (some e) }

/-- What a core keeps when a new job takes its quadrant: operations still running finish (R59). -/
def Core.admitted (c : Core) : Core :=
  { Core.reset with mxFly := c.mxFly, stFly := c.stFly, tdFly := c.tdFly, mvFly := c.mvFly, mxBusy := c.mxBusy,
                    stBusy := c.stBusy, mvFree := c.mvFree }

/-- Sequencers and command streams of the job's quadrants stand before its first segment (R59, R127). -/
def readyUnits (s : State) (i : Image) : State :=
  let qs := imgQuads i
  { s with
    cores := tmap Core.reset (fun k c => if qs.contains (k / 1536) then c.admitted else c) s.cores
    clus := tmap Cluster.reset (fun k c => if qs.contains (k / 16)
      then { c with re := CmdUnit.reset, rt := CmdUnit.reset, on := false, stall := none, gate := none } else c) s.clus
    ues := s.ues.filter (fun e => !qs.contains (e.1 / 3)) }

/-- Every check passes (R53, R54): the sections are loaded and the slot is ADMITTED. -/
def admitJob (s : State) (j : Nat) (i : Image) : State :=
  let s := setJob s j { Job.reset with st := .admitted, acc := i.acc, img := some i }
  let s := readyUnits s i
  let s := i.contexts.foldl (takeCtx j i.acc) s
  ((List.range i.groups.length).zip i.groups).foldl (takeGrp j i.acc) s

/-- A check fails (R53, R55): the slot is REFUSED with its reason, and SCH_REFUSE is written. -/
def refuseJob (s : State) (j : Nat) (acc : BitVec 12) (why : Nat) (detail : W32) : State :=
  let s := setJob s j { Job.reset with st := .refused, reason := why, acc := acc }
  let s := post s pgSCH sevWarning 0x0201 acc (d0Sch acc j why) detail
  if why = 12 then post s pgPWR sevError 0x1101 acc 0 detail else s

/-- A job leaves without a fault (R54): contexts, group entries, message-table entries and injection
queues are released. -/
def releaseEnd (s : State) (j : Nat) : State :=
  let acc := accOf s j
  let s := { s with
    ctxs := s.ctxs.filter (fun e => !(decide (e.2.owner ≠ 0) && e.2.job == j))
    cready := s.cready.filter (fun r => (getCtx s r.1).owner = 0 ∨ (getCtx s r.1).job ≠ j)
    grps := s.grps.filter (fun e => !(decide (e.2.owner ≠ 0) && e.2.job == j))
    links := s.links.map (fun e => if e.2.owner = acc then (e.1, { e.2 with inj := [], late := [] }) else e)
    fab := { s.fab with msgs := s.fab.msgs.filter (fun m => m.acc != acc)
                        arrive := s.fab.arrive.filter (fun a => a.job != j) } }
  let job := getJob s j
  setJob s j { job with ctxs := [], grps := [], adv := [] }

end Sys2Proof.Machine
end

