-- ==== Sys2Proof/Machine/Sched.lean ====
section
/-! DEFINITION. Meanings: job slots, job start and end, segments, power profile (R36, R47 to R49, R53, R54, R59,
R315, R409). -/

namespace Sys2Proof.Machine

/-! ## Control writes (R50, R53, R54) -/

/-- A slot that takes an image (R54). -/
def reusable (st : JobSt) : Bool :=
  match st with
  | .free | .refused | .ended | .faulted => true
  | _ => false

/-- The image address lies in space 0x0 or 0x1 of this node, and the length is not 0 (R53). -/
def imgPlaced (s : State) (j : Nat) : Bool :=
  decide (imgAddr s j / 2 ^ 51 = s.top.node.toNat) && decide (imgAddr s j / 2 ^ 47 % 16 ≤ 1)
  && decide (reg s (at' pgSCH (0x124 + 0x40 * j)) ≠ 0)

/-- ADMIT written: the slot becomes ADMITTING, else the write is ignored and counted. -/
def admitWrite (s : State) (j : Nat) : State :=
  if reusable (getJob s j).st && imgPlaced s j then setJob s j { Job.reset with st := .admitting }
  else badWrite s pgSCH (0x128 + 0x40 * j)

/-- END written (R54): an ADMITTED slot is freed, a RUNNING job faults with SCH_DRIVER_END. -/
def endWrite (s : State) (j : Nat) : State :=
  let job := getJob s j
  match job.st with
  | .admitted => setJob (releaseEnd s j) j Job.reset
  | .running => jobFault (post s pgSCH sevFault 0x0206 job.acc (d0Sch job.acc j 0) 0) j
  | _ => badWrite s pgSCH (0x128 + 0x40 * j)

/-- CLEAR written (R54). -/
def clearWrite (s : State) (j : Nat) : State :=
  match (getJob s j).st with
  | .refused | .ended | .faulted => setJob s j Job.reset
  | _ => badWrite s pgSCH (0x128 + 0x40 * j)

/-- A write of SCH_JOB_CTL(j): one action bit acts; more than one, or a reserved bit, is ignored and
counted (R50). -/
def jobCtl (s : State) (j : Nat) (v : W32) : State :=
  hostWrite s pgSCH (0x128 + 0x40 * j) (fun s =>
    if v = 1 then admitWrite s j
    else if v = 2 then endWrite s j
    else if v = 4 then clearWrite s j
    else if v = 0 then s
    else badWrite s pgSCH (0x128 + 0x40 * j))

/-- ADMIT (R53). -/
def execAdmit (j : Fin 4) (v : W32) (s : State) : Res := .next (jobCtl s j.val v)
/-- SCH_JOB_END (R54). -/
def execSchJobEnd (j : Fin 4) (v : W32) (s : State) : Res := .next (jobCtl s j.val v)
/-- CLEAR (R54). -/
def execClear (j : Fin 4) (v : W32) (s : State) : Res := .next (jobCtl s j.val v)

/-! ## Admission -/

/-- A quadrant that the image names is being zeroised: it admits no image until then (R369). -/
def zeroising (s : State) (i : Image) : Bool := decide (s.cus.zbusy &&& i.quads ≠ 0)

/-- Where an HBM unit lies in the byte field of a space (R144, R145). -/
def byteIn (space u : Nat) : Nat :=
  let b := u % 2 ^ 37
  if space = 0 then b else (b / 512 * 3 + stackOf u) * 512 + b % 512

/-- Flawed words that the hub's read of the image of slot j meets (R53, R152). -/
def imgFlaws (s : State) (j : Nat) : Tab Nat :=
  let n := (reg s (at' pgSCH (0x124 + 0x40 * j))).toNat
  match gaParse (imgAddr s j) with
  | none => []
  | some g => s.flaws.filter (fun f =>
      decide (spaceOf f.1 = 0) && decide (quadOf f.1 = g.q) && (decide (g.space = 1) || decide (stackOf f.1 = g.st))
      && decide (byteIn g.space f.1 < g.byte + n) && decide (g.byte < byteIn g.space f.1 + 32))

/-- Unit of the first uncorrectable error of the image read; where the row tells of one that no flaw of
the model stands for, the image's first unit (log 7). -/
def imgUe (s : State) (j : Nat) (ue : Bool) : Option Nat :=
  match (imgFlaws s j).find? (fun f => f.2 == 2) with
  | some f => some f.1
  | none => if ue then (gaParse (imgAddr s j)).map (fun g => eccUnit (gaByte g g.byte)) else none

/-- ADMISSION_CHECK (R53, R54, R369): the hub has read the image, with an uncorrectable error when `ue`
or where the model holds one. The slot waits while a named quadrant is zeroised. -/
def execAdmissionCheck (j : Fin 4) (img : Image) (ue : Bool) (s : State) : Res :=
  .next (
    if (getJob s j.val).st ≠ .admitting ∨ zeroising s img then s
    else
    let bad := imgUe s j.val ue
    let s := ((imgFlaws s j.val).filter (fun f => f.2 == 1)).foldl (fun s f => memCe s f.1) s
    match bad with
    | some u =>
      refuseJob (memUe s { acc := 0, job := none } u) j.val (if img.parses then img.acc else 0) 16 0
    | none => match admitReason s j.val img with
      | some (why, detail) => refuseJob s j.val (if img.parses then img.acc else 0) why detail
      | none => admitJob s j.val img)

/-! ## Start and end -/

/-- Why a start at S is refused, the lowest reason (R36). -/
def startReason (s : State) (j start : Nat) : Option Nat :=
  if start < s.clk.dst + 6000000 then some 1
  else if start % 4 ≠ 0 then some 2
  else if (getJob s j).st ≠ .admitted then some 3
  else if inThrottle s 4 || (jobQuads s j).any (quadThrottle s) then some 4
  else none

/-- SCH_JOB_START (R36, R50, R54, R55): the high half is written; an accepted start makes the slot RUNNING
with job time to begin at S. -/
def execSchJobStart (j : Fin 4) (hi : W32) (s : State) : Res :=
  .next (hostWrite s pgSCH (0x104 + 0x40 * j.val) (fun s =>
    let s := setReg s (at' pgSCH (0x104 + 0x40 * j.val)) hi
    let start := (reg s (at' pgSCH (0x100 + 0x40 * j.val))).toNat + 2 ^ 32 * hi.toNat
    let job := getJob s j.val
    match startReason s j.val start with
    | some r => post s pgSCH sevWarning 0x0202 job.acc (d0Sch job.acc j.val r) 0
    | none => setJob s j.val { job with st := .running, armed := some start, s := start, h := 0, seg := 0 }))

/-- A list as a table from key 0 on; words of 0 are not listed. -/
def wordTab (ws : List W32) : Tab W32 := ((List.range ws.length).zip ws).filter (fun e => e.2 ≠ 0)

/-- A cluster at job start: its control core stands at instruction 0 (R80); counters, tags and registers
are clear (R77, R183); commands fetched already stay. -/
def Cluster.started (c : Cluster) (x : Option CtlImage) : Cluster :=
  { Cluster.reset with
    re := { CmdUnit.reset with q := c.re.q, sp := c.re.sp }
    rt := { CmdUnit.reset with q := c.rt.q, sp := c.rt.sp }
    imem := match x with | some i => wordTab i.prog | none => []
    dmem := match x with | some i => i.data | none => []
    on := true }

/-- Page of a cluster, row engine, route unit or update engine of some quadrants: their block-specific
registers clear at job start (R143, R213, R241, R464). -/
def startPage (qs : List Nat) (p : Nat) : Bool :=
  decide (0x1000 ≤ p) && qs.contains (p / 0x100 % 0x10) && [0x22, 0x30, 0x31, 0x33].contains (pageCode p)

/-- The job's state is cleared at S (R33, R87, R139, R143, R149, R183, R213, R241, R464). -/
def beginJob (s : State) (j : Nat) (i : Image) : State :=
  let qs := imgQuads i
  let s := zeroRegions s (fun r => decide (2 ^ 20 ≤ r) && qs.contains ((r >>> 11) % 4))
  let s := { s with
    regs := s.regs.filter (fun e => !(startPage qs (e.1 / 4096) && decide (0x100 ≤ e.1 % 4096)))
    cores := tmap Core.reset (fun k c => if qs.contains (k / 1536)
      then { Core.reset with bq := c.bq, sp := c.sp } else c) s.cores
    ues := s.ues.filter (fun e => !qs.contains (e.1 / 3)) }
  let s := (jobClus s i).foldl (fun s k => setClu s k ((getClu s k).started (i.control.find? (·.1 == k) |>.map Prod.snd))) s
  setJob s j { getJob s j with armed := none, h := 0, pend := false, held := false, late := [], first := none,
                               seg := 0, skew := [], advPos := 0, adv := [] }

/-- JOB_TIME_BEGIN (R54): the Datestamp reaches S. -/
def execJobTimeBegin (j : Fin 4) (s : State) : Res :=
  .next (
    let job := getJob s j.val
    match job.armed, job.img with
    | some t, some i => if job.st = .running ∧ t ≤ s.clk.dst then beginJob s j.val i else s
    | _, _ => s)

/-- Everything of the job has finished (R54). -/
def allDone (s : State) (j : Nat) (i : Image) : Bool :=
  let qs := imgQuads i
  let n := i.segs.length
  (getJob s j).armed.isNone && decide ((getJob s j).seg = n)
  && (jobCores s i).all (fun k =>
      let c := tget Core.reset s.cores k
      c.st == .done && c.mq.isEmpty && c.mvFly.isEmpty && c.tdFly.isEmpty)
  && (jobClus s i).all (fun k =>
      let c := getClu s k
      c.re.done && c.re.fly.isEmpty && c.rt.done && c.rt.fly.isEmpty)
  && qs.all (fun q => (tget [] s.fab.gets q).isEmpty && [0, 1, 2].all (fun st =>
      let u := getUe s (3 * q + st)
      u.fly.isNone && (match i.segs[n - 1]? with
        | some g => decide ((tget { passes := [], progs := [], pt := [] } g.eng (3 * q + st)).passes.length ≤ u.pos)
        | none => true)))
  && s.links.all (fun e => e.2.owner != (getJob s j).acc || e.2.inj.isEmpty)
  && s.fab.arrive.all (fun a => a.job != j)
  && s.fab.msgs.all (fun m => m.acc != (getJob s j).acc || m.tomb.isSome || !qs.contains m.q.val)
  && s.ctxs.all (fun e => e.2.owner == 0 || e.2.job != j || e.2.st == .idle)

/-- JOB_ENDED (R54, R186, R460). -/
def execJobEnded (j : Fin 4) (s : State) : Res :=
  .next (
    let job := getJob s j.val
    match job.img with
    | none => s
    | some i =>
      if job.st = .running ∧ allDone s j.val i then
        let s := (jobClus s i).foldl closeAll s
        let s := releaseEnd s j.val
        raiseInt (setJob s j.val { getJob s j.val with st := .ended }) pgSCH (4 + j.val)
      else s)

/-! ## Segments (R59, R68, R218, R236) -/

/-- OFFSET of the bundle that a core has not launched. -/
def nextOff (s : State) (j : Nat) (cid : CoreId) (c : Core) : Nat :=
  match nextBn c with
  | some (b, _) => bnOffset b
  | none => match missing s j cid c with
    | some (b, _) => bnOffset b
    | none => 0

/-- OFFSET and OP of the command that a unit has not launched. -/
def nextCmd (s : State) (j k : Nat) (rt : Bool) : Nat × Nat :=
  let u := unitOf rt (getClu s k)
  match u.q.head?, (unitStream s j k rt)[u.sp]? with
  | some w, _ => (cmOff w, cmOp w)
  | none, some w => (cmOff w, cmOp w)
  | none, none => (0, 0)

/-- Streams of the segment before that have not ended at the next origin (R38, R59; for the command
streams log 73): cluster, page, code and data words of each. -/
def unfinished (s : State) (j : Nat) (i : Image) : List (Nat × Nat × Nat × W32 × W32) :=
  (jobCores s i).filterMap (fun k =>
    let c := tget Core.reset s.cores k
    if c.st = .ready ∨ c.st = .waiting then
      some (k / 96, pgCLU (k / 1536) (k / 96 % 16), 0x0301, d0Core (k % 96) (nextOff s j (coreOfKey k) c), 0)
    else none)
  ++ (jobClus s i).flatMap (fun k => [false, true].filterMap (fun rt =>
    let n := nextCmd s j k rt
    if (unitOf rt (getClu s k)).done then none
    else some (k, unitPage rt k, unitCode rt 4, d0Core (if rt then 0xFD else 0xFE) n.1, BitVec.ofNat 32 (n.2 % 64))))

/-- Counted and logged under the pages of their blocks (R84, R142, R212). -/
def postFaults (s : State) (es : List (Nat × Nat × Nat × W32 × W32)) : State :=
  es.foldl (fun s e => postFault s e.1 e.2.1 e.2.2) s

/-- Descriptor writes that reach a descriptor in the core cycle in which the segment loads it: they are dropped and
TD_COLLISION faults the job (R68). DESIGN CHOICE: the rule ranks LDTD, TDADD and TDW and not the load; the load stays
(log 124). -/
def loadMeets (s : State) (cid : CoreId) (jt : Nat) (tds : List (Nat × W128)) : List TdPend :=
  (getCore s cid).tdPend.filter (fun p => tds.any (fun e => e.1 == p.td) && tdEdge s.clk.dst jt p == s.clk.dst)

/-- A core takes the segment's stream and descriptor sets (R59, R68): writes that landed before are in place, and the
load goes over them. -/
def startCore (jt : Nat) (g : Seg) (s : State) (k : Nat) : State :=
  let cid := coreOfKey k
  let tds := tget [] g.td k
  let met := loadMeets s cid jt tds
  let c := settleTd s.clk.dst jt { getCore s cid with tdPend := (getCore s cid).tdPend.filter (fun p => !met.contains p) }
  let s := setCore s cid { c with
    st := if c.st = .idle then .ready else c.st
    seg := c.seg + 1, last := none, loop := none
    td := tds.foldl (fun t e => tput 0 t e.1 (e.2 &&& tdMask)) c.td
    tdOver := c.tdOver.filter (fun n => !tds.any (fun e => e.1 == n))
    md := (tget [] g.md k).foldl (fun t e => tput 0 t e.1 e.2) c.md }
  met.foldl (fun s p => tdCollide s cid.cl p) s

/-- A command unit takes the segment's stream (R127). -/
def CmdUnit.startSeg (u : CmdUnit) : CmdUnit := { u with done := false, seg := u.seg + 1, last := none }

/-- A segment begins on every unit of the job. -/
def startSegment (s : State) (j : Nat) (i : Image) (g : Seg) : State :=
  let s := (jobCores s i).foldl (startCore (jobTime s (getJob s j)) g) s
  let s := (jobClus s i).foldl (fun s k =>
    let c := getClu s k
    setClu s k { c with re := c.re.startSeg, rt := c.rt.startSeg }) s
  let s := ((imgQuads i).flatMap (fun q => [3 * q, 3 * q + 1, 3 * q + 2])).foldl (fun s e =>
    let u := getUe s e
    setUe s e { u with seg := u.seg + 1, pos := 0, last := none }) s
  let job := getJob s j
  setJob s j { job with seg := job.seg + 1, advPos := 0 }

/-- SEGMENT_ORIGIN (R59): job time reaches the next segment's origin. -/
def execSegmentOrigin (j : Fin 4) (s : State) : Res :=
  .next (
    let job := getJob s j.val
    match job.img with
    | none => s
    | some i => match i.segs[job.seg]? with
      | none => s
      | some g =>
        if job.st ≠ .running ∨ job.armed.isSome ∨ job.held ∨ jobTime s job < job.s + g.origin then s
        else
          let bad := unfinished s j.val i
          if bad.isEmpty then startSegment s j.val i g
          else jobFault (postFaults s bad) j.val)

/-! ## Power profile (R47, R48, R315, R409) -/

/-- The profile word that covers job time `t`: none before entry 0, the idle code past the last (log 74). -/
def profileAt (job : Job) (i : Image) (t : Nat) : Option W32 :=
  if t < job.s then none else some (i.power.getD ((t - job.s) / 6000) i.idle)

/-- Code of a quadrant in a profile word (R47). -/
def codeOf (w : W32) (q : Nat) : Nat := fld w (8 * q + 7) (8 * q)

/-- A code on its way to the idle code, `t` ticks into a hold: it is there after 100 us (R48). DESIGN CHOICE: the rule
names the span and not the course; the model takes a straight line in whole codes (log 74). -/
def relaxed (code idle t : Nat) : Nat :=
  let n := min t (100 * usTicks)
  ((code : Int) + ((idle : Int) - code) * n / (100 * usTicks : Nat)).toNat

/-- What a controller that looks `look` ticks of job time ahead takes for a quadrant: the entry's code, and in a hold
the code it stood at, relaxed toward the idle code (R48). -/
def aheadCode (s : State) (job : Job) (i : Image) (look q : Nat) : Option W32 :=
  (profileAt job i (jobTime s job + look)).map (fun w => BitVec.ofNat 32
    (if job.held then relaxed (codeOf w q) (codeOf i.idle q) (s.clk.dst - job.stopAt) else codeOf w q))

/-- A quadrant's forecast has a code from an instant on; the change is kept where the code changes. -/
def noteAhead (t : Nat) (q : Fin 4) (c : W32) (fs : List Forecast) : List Forecast :=
  match fs.find? (fun f => decide (f.q = q)) with
  | some f => if f.code = c then fs else ⟨t, q, c⟩ :: fs
  | none => ⟨t, q, c⟩ :: fs

/-- The forecast of a job's quadrants `look` ticks ahead is taken. -/
def takeCodes (s : State) (job : Job) (i : Image) (look : Nat) (fs : List Forecast) : List Forecast :=
  (imgQuads i).foldl (fun fs q => match aheadCode s job i look q with
    | some c => noteAhead (s.clk.dst + look) (Fin.ofNat 4 q) c fs
    | none => fs) fs

/-- POWER_PROFILE_READ (R48, R409): the regulators of the job's dies take the code of the entry 10 us ahead. -/
def execPowerProfileRead (j : Fin 4) (s : State) : Res :=
  .next (
    let job := getJob s j
    match job.img with
    | none => s
    | some i =>
      if job.st ≠ .running then s
      else { s with pwr := { s.pwr with ahead := takeCodes s job i (10 * usTicks) s.pwr.ahead } })

/-- Code that a die's regulator is set for: it moves 5 us before the entry takes effect (R409). -/
def railCode (s : State) (q : Nat) : Nat := aheadAt s.pwr.ahead q ((s.clk.dst : Int) + 5 * usTicks)

/-- Load-line droop of a code, in 1/15 mV (R47, R409): 2 W a step at 0.75 V over 0.05 mOhm; the set point stands that
far above its value without load. -/
def railDroop (code : Nat) : Nat := 2 * code

/-- HEATER_FORECAST_READ (R48, R315): with FF_EN the heaters take the forecast 100 us ahead, in a hold the way to the
idle code. -/
def execHeaterForecastRead (j : Fin 4) (s : State) : Res :=
  .next (
    let job := getJob s j
    match job.img with
    | none => s
    | some i =>
      if job.st ≠ .running ∨ !bit (reg s (at' pgOPT 0x100)) 1 then s
      else { s with opt := { s.opt with ahead := takeCodes s job i (100 * usTicks) s.opt.ahead } })

end Sys2Proof.Machine
end

