-- ==== Sys2Proof/Machine/Stream.lean ====
section
/-! DEFINITION. Meanings: stream slot (R74, R75, R103 to R121). -/

namespace Sys2Proof.Machine

/-- ADD (R74, R109). -/
def execAdd (c : CoreId) (s : State) : Res := .next (launch s c (fun b => stOp b == 0x01))

/-- SUB (R74, R109). -/
def execSub (c : CoreId) (s : State) : Res := .next (launch s c (fun b => stOp b == 0x02))

/-- MUL (R74, R109). -/
def execMul (c : CoreId) (s : State) : Res := .next (launch s c (fun b => stOp b == 0x03))

/-- FMA (R74, R109). -/
def execFma (c : CoreId) (s : State) : Res := .next (launch s c (fun b => stOp b == 0x04))

/-- MIN (R74, R109). -/
def execMinOp (c : CoreId) (s : State) : Res := .next (launch s c (fun b => stOp b == 0x05))

/-- MAX (R74, R109). -/
def execMaxOp (c : CoreId) (s : State) : Res := .next (launch s c (fun b => stOp b == 0x06))

/-- ABS (R74, R109). -/
def execAbsOp (c : CoreId) (s : State) : Res := .next (launch s c (fun b => stOp b == 0x07))

/-- NEG (R74, R109). -/
def execNeg (c : CoreId) (s : State) : Res := .next (launch s c (fun b => stOp b == 0x08))

/-- SCALE (R74, R109). -/
def execScale (c : CoreId) (s : State) : Res := .next (launch s c (fun b => stOp b == 0x09))

/-- AXPY (R74, R109). -/
def execAxpy (c : CoreId) (s : State) : Res := .next (launch s c (fun b => stOp b == 0x0A))

/-- CLIP (R74, R109). -/
def execClip (c : CoreId) (s : State) : Res := .next (launch s c (fun b => stOp b == 0x0B))

/-- SELECT (R74, R109). -/
def execSelectOp (c : CoreId) (s : State) : Res := .next (launch s c (fun b => stOp b == 0x0C))

/-- CMPGT (R74, R109). -/
def execCmpgt (c : CoreId) (s : State) : Res := .next (launch s c (fun b => stOp b == 0x0D))

/-- CVT (R74, R109). -/
def execCvt (c : CoreId) (s : State) : Res := .next (launch s c (fun b => stOp b == 0x0E))

/-- COPY (R74, R109). -/
def execCopy (c : CoreId) (s : State) : Res := .next (launch s c (fun b => stOp b == 0x0F))

/-- EXP (R74, R109). -/
def execExpOp (c : CoreId) (s : State) : Res := .next (launch s c (fun b => stOp b == 0x10))

/-- LOG (R74, R109). -/
def execLogOp (c : CoreId) (s : State) : Res := .next (launch s c (fun b => stOp b == 0x11))

/-- RECIP (R74, R109). -/
def execRecip (c : CoreId) (s : State) : Res := .next (launch s c (fun b => stOp b == 0x12))

/-- RSQRT (R74, R109). -/
def execRsqrt (c : CoreId) (s : State) : Res := .next (launch s c (fun b => stOp b == 0x13))

/-- TANH (R74, R109). -/
def execTanhOp (c : CoreId) (s : State) : Res := .next (launch s c (fun b => stOp b == 0x14))

/-- SIGMOID (R74, R109). -/
def execSigmoid (c : CoreId) (s : State) : Res := .next (launch s c (fun b => stOp b == 0x15))

/-- GELU (R74, R109). -/
def execGelu (c : CoreId) (s : State) : Res := .next (launch s c (fun b => stOp b == 0x16))

/-- SIGN (R74, R109). -/
def execSignOp (c : CoreId) (s : State) : Res := .next (launch s c (fun b => stOp b == 0x17))

/-- FILL (R74, R109). -/
def execFill (c : CoreId) (s : State) : Res := .next (launch s c (fun b => stOp b == 0x18))

/-- STREAM_OP_COMPLETE (R115, R120, R184): the oldest stream operation that is due is complete, and hands its
summary to the shadow unit. -/
def execStreamOpComplete (c : CoreId) (s : State) : Res :=
  .next (
    let k := getCore s c
    match findIdx? (fun f => decide (f.due ≤ s.clk.dst)) k.stFly 0 with
    | none => s
    | some (i, f) =>
      opSummary (setCore s c { k with stFly := removeAt k.stFly i }) c (stTds f).1.tag (stTds f).2.2.tag f)

end Sys2Proof.Machine
end

