-- ==== Sys2Proof/Machine/Topology.lean ====
section
/-! DEFINITION. Meanings: node IDs, catalogue, epoch (R333 to R335, R348). -/

namespace Sys2Proof.Machine

/-- Some job is resident on the module (R54). -/
def anyResident (s : State) : Bool := [0, 1, 2, 3].any (fun j => resident (getJob s j).st)

/-- Every lane group stands in a state that `p` picks. -/
def allGrps (s : State) (p : LinkSt → Bool) : Bool := (List.range 24).all (fun g => p (getLink s g).st)

/-- A state in which a group's catalogue entry may be written (R335). -/
def catOpen (st : LinkSt) : Bool := st == .down || st == .halt

/-- TOP_NODE_WRITE (R333, R348): node ID and time root, with no job resident and every group DOWN; else
ignored with TOP_CAT_REJECT. -/
def execTopNodeWrite (v : W32) (s : State) : Res :=
  .next (hostWrite s pgTOP 0x104 (fun s =>
    if !anyResident s && allGrps s (· == .down) then
      { s with top := { s.top with node := BitVec.ofNat 13 (fld v 12 0), root := BitVec.ofNat 13 (fld v 28 16), named := true } }
    else post s pgTOP sevWarning 0x0E02 0 0 0))

/-- TOP_CAT_WORD_WRITE (R334, R335): word w of the selected group's entry, in DOWN or HALT only; the
reserved bits [19:0] stay 0. A group that may be enabled now leaves DOWN (R277). -/
def execTopCatWordWrite (w : Fin 4) (v : W32) (s : State) : Res :=
  .next (hostWrite s pgTOP (0x110 + 4 * w.val) (fun s =>
    let sel := reg s (at' pgTOP 0x10C)
    if 6 ≤ fld sel 2 0 then s
    else
      let g := 4 * fld sel 2 0 + fld sel 4 3
      let l := getLink s g
      if catOpen l.st then
        let v := if w.val = 0 then v.toNat / 2 ^ 20 * 2 ^ 20 else v.toNat
        let lo := 2 ^ (32 * w.val)
        let old := l.cat.toNat
        let c := old / (lo * 2 ^ 32) * (lo * 2 ^ 32) + v * lo + old % lo
        tryUp (setLink s g { l with cat := BitVec.ofNat 128 c }) g
      else post s pgTOP sevWarning 0x0E02 l.owner (d0Own s g) 0))

/-- TOP_EPOCH_WRITE (R339, R348): the epoch, while every group is DOWN or HALT; READY follows it. It brings step 10 of
R376 about. -/
def execTopEpochWrite (v : W32) (s : State) : Res :=
  .next (hostWrite s pgTOP 0x108 (fun s =>
    if allGrps s catOpen then
      topCheckD { s with
        top := { s.top with epoch := v }
        bup := { s.bup with phase := if s.bup.isLocal then max 10 s.bup.phase else s.bup.phase } } 0
    else s))

end Sys2Proof.Machine
end

