-- ==== Sys2Proof/Machine/Update.lean ====
section
/-! DEFINITION. Meanings: update-engine passes and the schedule engine's advance list (R218 to R242). -/

namespace Sys2Proof.Machine

/-- DENSE_PASS (R215, R219, R227): the next pass launches; with `meet`, a quadrant request meets its
update port (R228). -/
def execDensePass (e : Fin 12) (meet : Bool) (s : State) : Res :=
  .next (if meet then passMeet s e.val false else passLaunch s e.val false)

/-- ROW_PASS (R219, R231 to R233): likewise for a row pass. -/
def execRowPass (e : Fin 12) (meet : Bool) (s : State) : Res :=
  .next (if meet then passMeet s e.val true else passLaunch s e.val true)

/-- PASS_COMPLETE (R227, R233): at launch + I everything is in place. -/
def execPassComplete (e : Fin 12) (s : State) : Res :=
  .next (match runningOn s (e.val / 3) with
    | none => s
    | some j => match passReady s e.val j with
      | some f => passDone s e.val f
      | none => s)

/-- ADVANCE_ENTRY (R237, R239): at its time the next entry of the segment's list takes its groups in
ascending order, and completes later. -/
def execAdvanceEntry (j : Fin 4) (s : State) : Res :=
  .next (
    let job := getJob s j
    let jt := jobTime s job
    match (segsOf s j)[job.seg - 1]? with
    | none => s
    | some g => match g.adv[job.advPos]? with
      | none => s
      | some w =>
        let t := originOf s j job.seg + 4 * avOff w
        if job.st ≠ .running ∨ job.held ∨ job.seg = 0 ∨ jt < t then s
        else
          let io := avSave w || avLoad w
          let gs := (List.range (avCount w)).map (avFirst w + ·)
          let fly : AdvFly :=
            { grps := gs.filterMap (grpEntry s j), off := avOff w, idx := job.advPos, hbm := io
              due := t + 4 * (16 + cdiv (avCount w) 4 + (if io then 640 + 2 * avCount w else 0)) }
          let s := setJob s j { job with advPos := job.advPos + 1, adv := job.adv ++ [fly] }
          let c := advanceCharge s j w
          if c.2 then (gs.foldl (advanceOne j fly.idx w) (c.1, true)).1 else c.1)

/-- ADVANCE_COMPLETE (R237, R239): the oldest entry that is due completes; HBM traffic still
unfinished raises UPD_STEP. -/
def execAdvanceComplete (j : Fin 4) (trafficDone : Bool) (s : State) : Res :=
  .next (
    let job := getJob s j
    match findIdx? (fun a => decide (a.due ≤ jobTime s job)) job.adv 0 with
    | none => s
    | some (i, a) =>
      if job.st ≠ .running then s
      else
        let s := setJob s j { job with adv := removeAt job.adv i }
        if a.hbm ∧ ¬ trafficDone then schFault s j a.off a.idx 0x0A08 else s)

/-- SCH_GRP_WORD_WRITE (R242): a word of the selected entry, unless a running job owns it; the
computed and the reserved words take nothing. -/
def execSchGrpWordWrite (w : Fin 32) (v : W32) (s : State) : Res :=
  .next (hostWrite s pgSCH (0x400 + 4 * w.val) (fun s =>
    let e := fld (reg s (at' pgSCH 0x200)) 7 0
    let x := getGrp s e
    if x.owner ≠ 0 ∧ (getJob s x.job).st = .running then
      post s pgSCH sevWarning 0x0209 x.owner (d0Sch x.owner x.job 0) (BitVec.ofNat 32 (e + w.val * 256))
    else if 18 ≤ w.val then s
    else setGrp s e { x with words := tput 0 x.words w.val (if w.val = 17 then v &&& 0x3F else v) }))

end Sys2Proof.Machine
end

