-- ==== Sys2Proof/Machine/Dispatch.lean ====
section
/-! DEFINITION. One arm per command: the direct call of its meaning. -/

namespace Sys2Proof.Machine

def exec (i : Instr) (s : State) : Host.Outcome State Fault Refusal :=
  match i with
  | .registerWrite off v => Sys2Proof.Machine.execRegisterWrite off v s
  | .rcCounterRead off inc => Sys2Proof.Machine.execRcCounterRead off inc s
  | .intStatW1c page v hw => Sys2Proof.Machine.execIntStatW1c page v hw s
  | .intEnWrite page v => Sys2Proof.Machine.execIntEnWrite page v s
  | .hstBadAcc bar off isWrite => Sys2Proof.Machine.execHstBadAcc bar off isWrite s
  | .dstNowLoRead => Sys2Proof.Machine.execDstNowLoRead s
  | .phaseSlew => Sys2Proof.Machine.execPhaseSlew s
  | .rateSteer weights => Sys2Proof.Machine.execRateSteer weights s
  | .dstUnlocked => Sys2Proof.Machine.execDstUnlocked s
  | .dstLockRegained => Sys2Proof.Machine.execDstLockRegained s
  | .schJobStart j hi => Sys2Proof.Machine.execSchJobStart j hi s
  | .admitImage j v => Sys2Proof.Machine.execAdmit j v s
  | .admissionCheck j img ue => Sys2Proof.Machine.execAdmissionCheck j img ue s
  | .schJobEnd j v => Sys2Proof.Machine.execSchJobEnd j v s
  | .clear j v => Sys2Proof.Machine.execClear j v s
  | .jobTimeBegin j => Sys2Proof.Machine.execJobTimeBegin j s
  | .jobEnded j => Sys2Proof.Machine.execJobEnded j s
  | .segmentOrigin j => Sys2Proof.Machine.execSegmentOrigin j s
  | .powerProfileRead j => Sys2Proof.Machine.execPowerProfileRead j s
  | .heaterForecastRead j => Sys2Proof.Machine.execHeaterForecastRead j s
  | .waitBundleReachL c => Sys2Proof.Machine.execWaitBundleReachL c s
  | .waitSatisfied c => Sys2Proof.Machine.execWaitSatisfied c s
  | .missedDeadline c => Sys2Proof.Machine.execMissedDeadline c s
  | .holdEpochStop j => Sys2Proof.Machine.execHoldEpochStop j s
  | .holdRelease j => Sys2Proof.Machine.execHoldRelease j s
  | .schHoldGiveup j => Sys2Proof.Machine.execSchHoldGiveup j s
  | .fetchSlot c => Sys2Proof.Machine.execFetchSlot c s
  | .nop c => Sys2Proof.Machine.execNop c s
  | .endBundle c => Sys2Proof.Machine.execEndBundle c s
  | .loop c => Sys2Proof.Machine.execLoop c s
  | .tdadd c => Sys2Proof.Machine.execTdadd c s
  | .crd c => Sys2Proof.Machine.execCrd c s
  | .mark c => Sys2Proof.Machine.execMark c s
  | .mma c => Sys2Proof.Machine.execMma c s
  | .mmz c => Sys2Proof.Machine.execMmz c s
  | .ald c => Sys2Proof.Machine.execAld c s
  | .ast c => Sys2Proof.Machine.execAst c s
  | .asts c => Sys2Proof.Machine.execAsts c s
  | .aclr c => Sys2Proof.Machine.execAclr c s
  | .matrixOpComplete c => Sys2Proof.Machine.execMatrixOpComplete c s
  | .add c => Sys2Proof.Machine.execAdd c s
  | .sub c => Sys2Proof.Machine.execSub c s
  | .mul c => Sys2Proof.Machine.execMul c s
  | .fma c => Sys2Proof.Machine.execFma c s
  | .minOp c => Sys2Proof.Machine.execMinOp c s
  | .maxOp c => Sys2Proof.Machine.execMaxOp c s
  | .absOp c => Sys2Proof.Machine.execAbsOp c s
  | .neg c => Sys2Proof.Machine.execNeg c s
  | .scale c => Sys2Proof.Machine.execScale c s
  | .axpy c => Sys2Proof.Machine.execAxpy c s
  | .clip c => Sys2Proof.Machine.execClip c s
  | .selectOp c => Sys2Proof.Machine.execSelectOp c s
  | .cmpgt c => Sys2Proof.Machine.execCmpgt c s
  | .cvt c => Sys2Proof.Machine.execCvt c s
  | .copy c => Sys2Proof.Machine.execCopy c s
  | .expOp c => Sys2Proof.Machine.execExpOp c s
  | .logOp c => Sys2Proof.Machine.execLogOp c s
  | .recip c => Sys2Proof.Machine.execRecip c s
  | .rsqrt c => Sys2Proof.Machine.execRsqrt c s
  | .tanhOp c => Sys2Proof.Machine.execTanhOp c s
  | .sigmoid c => Sys2Proof.Machine.execSigmoid c s
  | .gelu c => Sys2Proof.Machine.execGelu c s
  | .signOp c => Sys2Proof.Machine.execSignOp c s
  | .fill c => Sys2Proof.Machine.execFill c s
  | .streamOpComplete c => Sys2Proof.Machine.execStreamOpComplete c s
  | .mov c => Sys2Proof.Machine.execMov c s
  | .putMove c => Sys2Proof.Machine.execPutMove c s
  | .getMove c => Sys2Proof.Machine.execGetMove c s
  | .red c => Sys2Proof.Machine.execRed c s
  | .sig c => Sys2Proof.Machine.execSig c s
  | .ldtd c => Sys2Proof.Machine.execLdtd c s
  | .sttd c => Sys2Proof.Machine.execSttd c s
  | .moveIssueStart c coll => Sys2Proof.Machine.execMoveIssueStart c coll s
  | .moveComplete c => Sys2Proof.Machine.execMoveComplete c s
  | .patrolScrub m row errors newPass => Sys2Proof.Machine.execPatrolScrub m row errors newPass s
  | .alu cl => Sys2Proof.Machine.execAlu cl s
  | .addi cl => Sys2Proof.Machine.execAddi cl s
  | .andi cl => Sys2Proof.Machine.execAndi cl s
  | .ori cl => Sys2Proof.Machine.execOri cl s
  | .xori cl => Sys2Proof.Machine.execXori cl s
  | .shi cl => Sys2Proof.Machine.execShi cl s
  | .lui cl => Sys2Proof.Machine.execLui cl s
  | .lw cl => Sys2Proof.Machine.execLw cl s
  | .sw cl => Sys2Proof.Machine.execSw cl s
  | .beq cl => Sys2Proof.Machine.execBeq cl s
  | .bne cl => Sys2Proof.Machine.execBne cl s
  | .blt cl => Sys2Proof.Machine.execBlt cl s
  | .bge cl => Sys2Proof.Machine.execBge cl s
  | .jmp cl => Sys2Proof.Machine.execJmp cl s
  | .waitj cl => Sys2Proof.Machine.execWaitj cl s
  | .armc cl => Sys2Proof.Machine.execArmc cl s
  | .mset cl => Sys2Proof.Machine.execMset cl s
  | .mget cl => Sys2Proof.Machine.execMget cl s
  | .rdcc cl => Sys2Proof.Machine.execRdcc cl s
  | .rdj cl => Sys2Proof.Machine.execRdj cl s
  | .tdw cl => Sys2Proof.Machine.execTdw cl s
  | .reFetchSlot cl => Sys2Proof.Machine.execReFetchSlot cl s
  | .reNop cl => Sys2Proof.Machine.execReNop cl s
  | .reEnd cl => Sys2Proof.Machine.execReEnd cl s
  | .normf cl => Sys2Proof.Machine.execNormf cl s
  | .rmsf cl => Sys2Proof.Machine.execRmsf cl s
  | .smxf cl => Sys2Proof.Machine.execSmxf cl s
  | .normb cl => Sys2Proof.Machine.execNormb cl s
  | .rmsb cl => Sys2Proof.Machine.execRmsb cl s
  | .smxb cl => Sys2Proof.Machine.execSmxb cl s
  | .solve cl => Sys2Proof.Machine.execSolve cl s
  | .mspill cl => Sys2Proof.Machine.execMspill cl s
  | .mfill cl => Sys2Proof.Machine.execMfill cl s
  | .reCommandComplete cl => Sys2Proof.Machine.execReCommandComplete cl s
  | .shadowSummaryTake cl => Sys2Proof.Machine.execShadowSummaryTake cl s
  | .shwClr cl v => Sys2Proof.Machine.execShwClr cl v s
  | .rtFetchSlot cl => Sys2Proof.Machine.execRtFetchSlot cl s
  | .rtNop cl => Sys2Proof.Machine.execRtNop cl s
  | .rtEnd cl => Sys2Proof.Machine.execRtEnd cl s
  | .gate cl => Sys2Proof.Machine.execGate cl s
  | .dispatch cl => Sys2Proof.Machine.execDispatch cl s
  | .combine cl => Sys2Proof.Machine.execCombine cl s
  | .wgrad cl => Sys2Proof.Machine.execWgrad cl s
  | .gather cl => Sys2Proof.Machine.execGather cl s
  | .pack cl => Sys2Proof.Machine.execPack cl s
  | .merge cl => Sys2Proof.Machine.execMerge cl s
  | .rtCommandComplete cl => Sys2Proof.Machine.execRtCommandComplete cl s
  | .rtClr cl v => Sys2Proof.Machine.execRtClr cl v s
  | .densePass e meet => Sys2Proof.Machine.execDensePass e meet s
  | .rowPass e meet => Sys2Proof.Machine.execRowPass e meet s
  | .passComplete e => Sys2Proof.Machine.execPassComplete e s
  | .advanceEntry j => Sys2Proof.Machine.execAdvanceEntry j s
  | .advanceComplete j trafficDone => Sys2Proof.Machine.execAdvanceComplete j trafficDone s
  | .schGrpWordWrite w v => Sys2Proof.Machine.execSchGrpWordWrite w v s
  | .reduce g vc => Sys2Proof.Machine.execReduce g vc s
  | .chunkSum => Sys2Proof.Machine.execChunkSum s
  | .voteCount => Sys2Proof.Machine.execVoteCount s
  | .rowFreeStage x row => Sys2Proof.Machine.execRowFreeStage x row s
  | .deliveryLanding x => Sys2Proof.Machine.execDeliveryLanding x s
  | .laneFailed l cause => Sys2Proof.Machine.execLaneFailed l cause s
  | .lnkSerWarn l ppb => Sys2Proof.Machine.execLnkSerWarn l ppb s
  | .dataFlit g f => Sys2Proof.Machine.execDataFlit g f s
  | .idleFlit g f => Sys2Proof.Machine.execIdleFlit g f s
  | .trainingFlit g f => Sys2Proof.Machine.execTrainingFlit g f s
  | .syncFlit g f => Sys2Proof.Machine.execSyncFlit g f s
  | .flitTransmit g => Sys2Proof.Machine.execFlitTransmit g s
  | .keyEpochChange g => Sys2Proof.Machine.execKeyEpochChange g s
  | .syncSend g => Sys2Proof.Machine.execSyncSend g s
  | .replayTimeout g => Sys2Proof.Machine.execReplayTimeout g s
  | .alignLock g skew => Sys2Proof.Machine.execAlignLock g skew s
  | .alignTimeout g => Sys2Proof.Machine.execAlignTimeout g s
  | .retrainTimeout g => Sys2Proof.Machine.execRetrainTimeout g s
  | .creditAuthTimeout g => Sys2Proof.Machine.execCreditAuthTimeout g s
  | .onewayTrainingSend g => Sys2Proof.Machine.execOnewayTrainingSend g s
  | .onewayIdentTimeout g => Sys2Proof.Machine.execOnewayIdentTimeout g s
  | .lnkEnable g => Sys2Proof.Machine.execLnkEnable g s
  | .lnkDisable g => Sys2Proof.Machine.execLnkDisable g s
  | .lnkRestart g => Sys2Proof.Machine.execLnkRestart g s
  | .lnkCrdLimWrite g v => Sys2Proof.Machine.execLnkCrdLimWrite g v s
  | .put g vc => Sys2Proof.Machine.execPut g vc s
  | .get g vc => Sys2Proof.Machine.execGet g vc s
  | .getReply g vc => Sys2Proof.Machine.execGetReply g vc s
  | .signal g vc => Sys2Proof.Machine.execSignal g vc s
  | .messageLanding q => Sys2Proof.Machine.execMessageLanding q s
  | .getResponse q => Sys2Proof.Machine.execGetResponse q s
  | .msgTombExpiry q acc src mid => Sys2Proof.Machine.execMsgTombExpiry q acc src mid s
  | .msgStale q acc src mid => Sys2Proof.Machine.execMsgStale q acc src mid s
  | .packetTransit g vc => Sys2Proof.Machine.execPacketTransit g vc s
  | .packetInject g => Sys2Proof.Machine.execPacketInject g s
  | .injectionWindowClose g => Sys2Proof.Machine.execInjectionWindowClose g s
  | .rtrTblWordWrite w v => Sys2Proof.Machine.execRtrTblWordWrite w v s
  | .msgTombWrite v => Sys2Proof.Machine.execMsgTombWrite v s
  | .qpClsMinWrite v => Sys2Proof.Machine.execQpClsMinWrite v s
  | .flush v => Sys2Proof.Machine.execFlush v s
  | .optLcWrite v => Sys2Proof.Machine.execOptLcWrite v s
  | .laneCellSettled x => Sys2Proof.Machine.execLaneCellSettled x s
  | .optGrpModeWrite p v => Sys2Proof.Machine.execOptGrpModeWrite p v s
  | .ringSweep l found => Sys2Proof.Machine.execRingSweep l found s
  | .ringAcquireLock l => Sys2Proof.Machine.execRingAcquireLock l s
  | .ringAcquireTimeout l => Sys2Proof.Machine.execRingAcquireTimeout l s
  | .ringLockLoss l errTenthPm => Sys2Proof.Machine.execRingLockLoss l errTenthPm s
  | .mziLockLoss x errMrad => Sys2Proof.Machine.execMziLockLoss x errMrad s
  | .photonicCooled => Sys2Proof.Machine.execPhotonicCooled s
  | .fadeMeasure l fade => Sys2Proof.Machine.execFadeMeasure l fade s
  | .request g r => Sys2Proof.Machine.execRequest g r s
  | .ready g r => Sys2Proof.Machine.execReady g r s
  | .switch g r => Sys2Proof.Machine.execSwitch g r s
  | .doneRec g r => Sys2Proof.Machine.execDoneRec g r s
  | .abort g r => Sys2Proof.Machine.execAbort g r s
  | .calreq g r => Sys2Proof.Machine.execCalreq g r s
  | .caldone g r => Sys2Proof.Machine.execCaldone g r s
  | .migrationTimeout p txn => Sys2Proof.Machine.execMigrationTimeout p txn s
  | .laneRecordRepeat p txn => Sys2Proof.Machine.execLaneRecordRepeat p txn s
  | .calibrationStart => Sys2Proof.Machine.execCalibrationStart s
  | .lightPresent l pwr => Sys2Proof.Machine.execLightPresent l pwr s
  | .optOfc l pwr => Sys2Proof.Machine.execOptOfc l pwr s
  | .laserRise l => Sys2Proof.Machine.execLaserRise l s
  | .topNodeWrite v => Sys2Proof.Machine.execTopNodeWrite v s
  | .topCatWordWrite w v => Sys2Proof.Machine.execTopCatWordWrite w v s
  | .topEpochWrite v => Sys2Proof.Machine.execTopEpochWrite v s
  | .stage via => Sys2Proof.Machine.execStage via s
  | .stageVerified party rec => Sys2Proof.Machine.execStageVerified party rec s
  | .confirm party rec sig => Sys2Proof.Machine.execConfirm party rec sig s
  | .cancel party => Sys2Proof.Machine.execCancel party s
  | .quadAssign => Sys2Proof.Machine.execQuadAssign s
  | .quadRelease => Sys2Proof.Machine.execQuadRelease s
  | .groupOwn => Sys2Proof.Machine.execGroupOwn s
  | .keyLoad => Sys2Proof.Machine.execKeyLoad s
  | .keyErase => Sys2Proof.Machine.execKeyErase s
  | .seal => Sys2Proof.Machine.execSeal s
  | .unseal => Sys2Proof.Machine.execUnseal s
  | .fuseWrite => Sys2Proof.Machine.execFuseWrite s
  | .debugEnable => Sys2Proof.Machine.execDebugEnable s
  | .debugDisable => Sys2Proof.Machine.execDebugDisable s
  | .cusExpire => Sys2Proof.Machine.execCusExpire s
  | .cusLockExpiry => Sys2Proof.Machine.execCusLockExpiry s
  | .zeroiseDone q => Sys2Proof.Machine.execZeroiseDone q s
  | .powerOn b => Sys2Proof.Machine.execPowerOn b s
  | .bupReady => Sys2Proof.Machine.execBupReady s
  | .perstNRise => Sys2Proof.Machine.execPerstNRise s
  | .coreReset v => Sys2Proof.Machine.execCoreReset v s
  | .clusterReset v => Sys2Proof.Machine.execClusterReset v s
  | .quadrantReset v => Sys2Proof.Machine.execQuadrantReset v s
  | .hubReset v => Sys2Proof.Machine.execHubReset v s
  | .moduleReset cause => Sys2Proof.Machine.execModuleReset cause s
  | .resetComplete b => Sys2Proof.Machine.execResetComplete b s
  | .rprAdd v => Sys2Proof.Machine.execRprAdd v s
  | .d2dLost a b => Sys2Proof.Machine.execD2dLost a b s
  | .clkSrcWrite v => Sys2Proof.Machine.execClkSrcWrite v s
  | .start v => Sys2Proof.Machine.execStart v s
  | .stop v => Sys2Proof.Machine.execStop v s
  | .fcMeasureDone count => Sys2Proof.Machine.execFcMeasureDone count s
  | .pwrUv cv => Sys2Proof.Machine.execPwrUv cv s
  | .inputShutdown cv => Sys2Proof.Machine.execInputShutdown cv s
  | .pwrEnFall => Sys2Proof.Machine.execPwrEnFall s
  | .powerSample r => Sys2Proof.Machine.execPowerSample r s
  | .thermalSample r => Sys2Proof.Machine.execThermalSample r s
  | .throttleEnd die => Sys2Proof.Machine.execThrottleEnd die s
  | .coolantSample inlet outlet => Sys2Proof.Machine.execCoolantSample inlet outlet s
  | .hstWinWrite v => Sys2Proof.Machine.execHstWinWrite v s
  | .bar2Read off len tag => Sys2Proof.Machine.execBar2Read off len tag s
  | .bar2Write off data => Sys2Proof.Machine.execBar2Write off data s
  | .hostSlotService q => Sys2Proof.Machine.execHostSlotService q s
  | .doorbell r v => Sys2Proof.Machine.execDoorbell r v s
  | .hostMove r desc => Sys2Proof.Machine.execHostMove r desc s
  | .hostMoveComplete r res => Sys2Proof.Machine.execHostMoveComplete r res s
  | .ringRestart r v => Sys2Proof.Machine.execRingRestart r v s
  | .setEndpointId eid => Sys2Proof.Machine.execSetEndpointId eid s
  | .mctpControl cmd => Sys2Proof.Machine.execMctpControl cmd s
  | .pldmRequest ty req => Sys2Proof.Machine.execPldmRequest ty req s
  | .mctpDiscard ty => Sys2Proof.Machine.execMctpDiscard ty s
  | .cusRead => Sys2Proof.Machine.execCusRead s
  | .ldgRead count => Sys2Proof.Machine.execLdgRead count s
  | .sensorUpdate => Sys2Proof.Machine.execSensorUpdate s
  | .telemetryRecord => Sys2Proof.Machine.execTelemetryRecord s
  | .ledgerCommit => Sys2Proof.Machine.execLedgerCommit s
  | .ldgRdWrite v => Sys2Proof.Machine.execLdgRdWrite v s
  | .ppsEdge bEdges => Sys2Proof.Machine.execPpsEdge bEdges s
  | .syncRefLost => Sys2Proof.Machine.execSyncRefLost s
  | .syncTrig => Sys2Proof.Machine.execSyncTrig s
  | .syncTrigDstLoRead => Sys2Proof.Machine.execSyncTrigDstLoRead s
  | .stoppedClock src => Sys2Proof.Machine.execStoppedClock src s
  | .configurationRequest => Sys2Proof.Machine.execConfigurationRequest s
  | .debugAccess a => Sys2Proof.Machine.execDebugAccess a s
  | .rePivotFlagClear cl hi v hw => Sys2Proof.Machine.execRePivotFlagClear cl hi v hw s
  | .interferometerOnTarget x errMrad => Sys2Proof.Machine.execInterferometerOnTarget x errMrad s

end Sys2Proof.Machine
end

