-- ==== Sys2Proof/Machine/Tick.lean ====
section
/-! DEFINITION. What a root tick does when no command waits: the grid does what falls due, and the Datestamp moves on. -/

namespace Sys2Proof.Machine

/-- Core cycles in which the arrival and the host class stand full are counted, while the queue pool is in service
(R294, R300). -/
def countStalls (s : State) : State :=
  if !pageLive s pgQP then s
  else
    let s := if clsRoom s 3 1 then s else bump s (at' pgQP 0x128) 1
    if clsRoom s 5 1 then s else bump s (at' pgQP 0x12C) 1

/-- What falls due at this Datestamp: the clusters' accesses, then at core edges those of the update engines and of
the host-move engine (R45, R214, R430). -/
def workDue (s : State) : State :=
  let s := runCores s
  if s.clk.dst % 4 = 0 then countStalls (hostTick ((s.ues.map Prod.fst).foldl ueTick s)) else s

/-- One root tick (R27): what is due is done; before a core edge the core cycle ends; the Datestamp advances while the
root runs (DESIGN CHOICE: the table has no row for a tick, log 1). -/
def idleTick (s : State) : State :=
  if rootRuns s then
    let s := bootTick (workDue s)
    let t := s.clk.dst + 1
    let s := if t % 4 = 0 then cycleEnd s t else s
    { s with clk := { s.clk with dst := t } }
  else s

end Sys2Proof.Machine
end

