-- ==== Sys2Proof/Safety.lean ====
section
/-! DEFINITION. The invariant that every step keeps, what a run without a stop is, and the words that claims use. -/

namespace Sys2Proof

open Sys2Proof.Machine

/-- What holds of every state a run passes through: the memory keeps its canonical form (addresses strictly
rising, nothing listed that equals what an unlisted byte reads as). -/
def Inv (s : State) : Prop := memWf s = true

/-- The state reached by n steps answers a next state each time. -/
def runs : Nat → State → Prop
  | 0, _ => True
  | n + 1, s => ∃ t, step s = .next t ∧ runs n t

/-- A register page is in service: BAR0 decodes, the page exists, and its block is not in reset or kept from
service (R377, R450, R454). -/
def Served (s : State) (p : Nat) : Prop :=
  s.bup.bar0 = true ∧ pageAbsent s p = false ∧ pageLive s p = true

/-- Every register but those listed reads as before. -/
def RegsKept (s t : State) (os : List Nat) : Prop := ∀ o, o ∉ os → reg t o = reg s o

/-- Something was last done less than `span` ticks ago. -/
def Recent (last : Option Nat) (now span : Nat) : Prop := ∃ x, last = some x ∧ now < x + span

/-- A saturating 32-bit counter after n more events (R14). -/
def satAdd (v : W32) (n : Nat) : W32 := BitVec.ofNat 32 (min 0xFFFFFFFF (v.toNat + n))

/-- The entry that a source hands to the Ledger now (R437). -/
def entryNow (s : State) (src sev code : Nat) (acc : BitVec 12) (d0 d1 : W32) : Entry :=
  { dst := s.clk.dst, fine := s.clk.fine, sev := sev, loss := false, src := src, code := code,
    acc := acc, d0 := d0, d1 := d1, seq := 0 }

/-- The Ledger after an entry was handed to it: it waits for its commit, or its source's buffer of 4 was full and
it is lost (R438). -/
def Logged (s t : State) (src sev code : Nat) (acc : BitVec 12) (d0 d1 : W32) : Prop :=
  if 4 ≤ (s.ldg.wait.filter (fun e => e.src == src)).length then t.ldg.wait = s.ldg.wait ∧ src ∈ t.ldg.loss
  else t.ldg.loss = s.ldg.loss ∧ t.ldg.wait = s.ldg.wait ++ [entryNow s src sev code acc d0 d1]

/-- A register page's Ledger source has no entry waiting. -/
def NoneWaits (s : State) (src : Nat) : Prop := ∀ e ∈ s.ldg.wait, e.src ≠ src

/-- Nothing falls due at this Datestamp (R27, R45): no event of an operation, a command or a pass, no line of a host
move, no full class to count; no completion counter, descriptor write or fault waits for the end of the core cycle; and
no step of bring-up is timed. -/
structure Quiet (s : State) : Prop where
  cores : ∀ e ∈ s.cores, coreDue s e.2 = false ∧ e.2.tdPend = []
  clus  : ∀ e ∈ s.clus, cluDue s e.2 = false
  ues   : ∀ e ∈ s.ues, (getUe s e.1).fly = none
  rings : ∀ q < 4, ∀ r < 4, ringMove s q r = none
  room  : pageLive s pgQP = false ∨ (clsRoom s 3 1 = true ∧ clsRoom s 5 1 = true)
  up    : s.bup.isLocal = false ∨ s.bup.ready = true
  ends  : s.dirty = [] ∧ s.stops = []

/-! ## Power profile -/

/-- The newest change of a quadrant's forecast. -/
def newest (fs : List Forecast) (q : Nat) : Option Forecast := fs.find? (fun f => decide (f.q.val = q))

/-- What a quadrant's newest forecast is once code `c` was taken for instant `t` (R48): a code that is there already
stays as it is. -/
def noted (fs : List Forecast) (t : Nat) (q : Fin 4) (c : W32) : Option Forecast :=
  if (newest fs q.val).map Forecast.code = some c then newest fs q.val else some ⟨t, q, c⟩

/-- The code that a controller takes for quadrant `q` when it looks `look` ticks of job time ahead (R48): that of the
profile entry in force then, past the last entry the idle code; in a hold the code it stood at, relaxed toward idle. -/
def codeAhead (s : State) (j : Nat) (i : Image) (look q : Nat) : W32 :=
  let w := i.power.getD ((jobTime s (getJob s j) + look - (getJob s j).s) / 6000) i.idle
  let c := w.toNat / 2 ^ (8 * q) % 256
  BitVec.ofNat 32 (if (getJob s j).held then relaxed c (i.idle.toNat / 2 ^ (8 * q) % 256) (s.clk.dst - (getJob s j).stopAt)
    else c)

/-! ## Launches -/

/-- The four words of a core's next bundle in its queue (R148). -/
def bqWords (s : State) (c : CoreId) : List Nat :=
  let a := bqAddr c (bnNumber (getCore s c))
  [a, a + 8, a + 16, a + 24]

/-- The core as the launch latches it: descriptor writes whose edge has come are in place (R57, R68). -/
def latched (s : State) (c : CoreId) (j : Nat) : Core := settleTd s.clk.dst (jobTime s (getJob s j)) (getCore s c)

/-- The core after its next bundle `b` has launched with launch offset `off`, before any slot acts. -/
def launched (s : State) (c : CoreId) (j : Nat) (b : W256) (off : Nat) : Core :=
  { popBn (latched s c j) with
    last := some off, st := .ready, missed := false
    hpAt := if bnHP b then some (jobTime s (getJob s j)) else (latched s c j).hpAt }

/-- The inputs that a launch of `b` latches. -/
def latchOf (s : State) (c : CoreId) (j : Nat) (b : W256) : Latch :=
  { off := bnOffset b, jt := jobTime s (getJob s j), core := latched s c j }

/-- Bundle `b` is due on core `c` (R38, R59): the job of slot `j` runs and is not held, the core is READY, `b` is the
next bundle of its stream, job time is the segment's origin plus 4 times the launch offset, and offsets rise. -/
structure Due (s : State) (c : CoreId) (j : Nat) (b : W256) (off : Nat) : Prop where
  slot  : runSlot s c = some j
  runs  : (getJob s j).st = .running
  free  : (getJob s j).held = false
  ready : (getCore s c).st = .ready
  next  : nextBn (getCore s c) = some (b, off)
  time  : jobTime s (getJob s j) = originOf s j (getCore s c).seg + 4 * off
  rises : ∀ l, (getCore s c).last = some l → l < off

/-- A due bundle that launches now: it does not wait, no pending hold stops it, its words in the queue hold no error, no
latch check fails, no unit that it names is busy (R57 to R59, R148). It carries no power-forecast tag here: R49 only adds a warning for one. -/
structure Launches (s : State) (c : CoreId) (j : Nat) (b : W256) (off : Nat) : Prop extends Due s c j b off where
  noWait : bnWait b = false
  noHold : bnHP b = true → (getJob s j).pend = false
  noPft  : bnPft b = false
  good   : flawsOf s (bqWords s c) = []
  passes : latchFaults s c j (latched s c j) b = []
  idle   : busySlots s (latched s c j) b = []

/-- The descriptor write of a bundle's TDADD (R68, R70, R72): DELTA added to the 14-bit field that FLD names, first
seen at the next core edge. -/
def tdaddPend (s : State) (c : CoreId) (j : Nat) (b : W256) : TdPend :=
  let n := fld (bnCtl b) 25 20
  let lo := if fld (bnCtl b) 19 18 = 0 then 50 else if fld (bnCtl b) 19 18 = 1 then 68 else 82
  let old := tget 0 (latched s c j).td n
  let v : Int := fld old (lo + 13) lo + sfld (bnCtl b) 17 4
  { byJob := false, vis := s.clk.dst + 4, td := n, val := tdField old lo (v % 16384).toNat
    ovr := decide (v < 0) || decide (16383 < v), rank := 2, d0 := d0Core c.k.val (bnOffset b), slot := 0 }

/-- The operation that a matrix or stream slot `w` launches (R57, R64): latched descriptors, scalar, step, seeds; its
events at their cycles, none where it is masked; no result yet. `i` is when it completes. -/
structure Latches (s : State) (c : CoreId) (j : Nat) (b : W256) (w : W64) (tds : List Nat) (msk i : Nat) (evs : List Ev)
    (f : OpFly) : Prop where
  word  : f.w = w
  due   : f.due = s.clk.dst + 4 * i
  tds'  : f.tds = tds.map (fun n => tget 0 (latched s c j).td n)
  off   : f.off = bnOffset b
  step  : f.step = stepOf s c.cl (jobTime s (getJob s j))
  live  : f.live = !maskedBy (getClu s c.cl.key) (jobTime s (getJob s j)) c.k.val msk
  plan  : f.plan = if f.live then placeEvs s.clk.dst evs else []
  none' : f.held = [] ∧ f.outR = [] ∧ f.sums = [] ∧ f.trunc = 0

/-- The load of an LDTD and what it writes: 16 bytes of the shelf, first seen at launch + 10 (R68, R481). -/
def ldtdOp (s : State) (c : CoreId) (w : W64) : TdOp :=
  { due := s.clk.dst + 36, cc := if mvCCE w then some (mvCC w) else none, load := some (mvTd w)
    plan := [⟨s.clk.dst, .rd, 0, 0, lineOf (shelfAddr c (tdByte w)), 2⟩], out := [] }
def ldtdPend (s : State) (c : CoreId) (b : W256) : TdPend :=
  { byJob := false, vis := s.clk.dst + 40, td := mvTd (bnMv b)
    val := BitVec.ofNat 128 (rdNum s (shelfAddr c (tdByte (bnMv b))) 16)
    ovr := false, rank := 1, d0 := d0Core c.k.val (bnOffset b), slot := 3 }

/-- The store of an STTD: descriptor `v` to 16 bytes of the shelf, in place at launch + 1 (R481). -/
def sttdOp (s : State) (c : CoreId) (w : W64) (v : W128) : TdOp :=
  { due := s.clk.dst + 4, cc := if mvCCE w then some (mvCC w) else none, load := none
    plan := [⟨s.clk.dst, .wr, 0, 0, lineOf (shelfAddr c (tdByte w)), 2⟩]
    out := cellsAt (shelfAddr c (tdByte w)) (bytesOf 16 v.toNat) }

/-- What the events `evs` of one core cycle do to an operation: those that read and sum come before those that write. -/
def inPhases (f : State → OpFly → Ev → State × OpFly) (evs : List Ev) (x : State × OpFly) : State × OpFly :=
  (evs.filter (fun e => e.kind != .wr) ++ evs.filter (fun e => e.kind == .wr)).foldl (fun y e => f y.1 y.2 e) x

/-- At this Datestamp only core `c` has events: `evs` of one of its operations, none of them in a pool; its other
operations wait. `fly` names the unit of that operation, which stands alone in it. -/
structure OnlyEvents (s : State) (c : CoreId) (fly : Core → List OpFly) (f : OpFly) (evs : List Ev) : Prop where
  cores : s.cores.filter (fun e => coreDue s e.2) = [(c.key, getCore s c)]
  clus  : ∀ e ∈ s.clus, cluDue s e.2 = false
  alone : fly (getCore s c) = [f]
  due   : dueEvs s f.plan = evs
  unit  : ((getCore s c).mxFly ++ (getCore s c).stFly).filter (fun g => !(dueEvs s g.plan).isEmpty) = [f]
  tds   : ∀ o ∈ (getCore s c).tdFly, dueEvs s o.plan = []
  mvs   : ∀ m ∈ (getCore s c).mvFly, dueEvs s m.plan = []
  place : ∀ e ∈ evs, e.kind = .calc ∨ spaceOf (64 * e.line) ≠ 2
  some' : evs ≠ []

/-- Only core `c` differs between two states. -/
def OnlyCore (s t : State) (c : CoreId) : Prop :=
  t = { s with cores := t.cores } ∧ ∀ d : CoreId, d.key ≠ c.key → getCore t d = getCore s d

/-- The commands of the matrix, stream and queued-move opcodes, by opcode (R73, R74, R76). -/
def matrixRows : List (Nat × (CoreId → Instr)) :=
  [(1, .mma), (2, .mmz), (3, .ald), (4, .ast), (5, .asts), (6, .aclr)]
def streamRows : List (Nat × (CoreId → Instr)) :=
  [(0x01, .add), (0x02, .sub), (0x03, .mul), (0x04, .fma), (0x05, .minOp), (0x06, .maxOp), (0x07, .absOp),
   (0x08, .neg), (0x09, .scale), (0x0A, .axpy), (0x0B, .clip), (0x0C, .selectOp), (0x0D, .cmpgt), (0x0E, .cvt),
   (0x0F, .copy), (0x10, .expOp), (0x11, .logOp), (0x12, .recip), (0x13, .rsqrt), (0x14, .tanhOp),
   (0x15, .sigmoid), (0x16, .gelu), (0x17, .signOp), (0x18, .fill)]
def queuedMoveRows : List (Nat × (CoreId → Instr)) :=
  [(1, .mov), (2, .putMove), (3, .getMove), (4, .red), (5, .sig)]

/-- The exact products of block `j` of an MMA for element (m, n) (R88, R93): stored elements of row m of A with the
elements of column n of B in their logical K positions, from what the operation holds (`rd`). -/
def blockProducts (rd : Nat → Byte) (c : CoreId) (A B : Td) (j m n : Nat) : List Ext :=
  let ks := ((List.range 32).map (32 * j + ·)).filter (· < kStored A)
  let ps := if A.spe then sparsePos rd c A m j else ks
  ((ks.map (presented rd c A m)).zip (ps.map (fun p => if p < A.pCols then presented rd c B p n else Ext.zero))).map
    (fun x => Ext.mul x.1 x.2)

/-- The exact result of column `k` of row `r` of a stream operation, from what it holds of its sources (R74, R75). -/
def beatVal (f : OpFly) (c : CoreId) (srcs : List Td) (r k : Nat) : Ext :=
  streamVal (fld f.w 63 58) f.scl (((List.range srcs.length).zip srcs).map (fun p => heldElem f c p.1 p.2 r k))

/-! ## The control core -/

/-- The control core of a cluster issues `w` now (R80): it works for the job of slot `j`, which is not held, this
is a control edge, no branch bubble and no WAITJ stalls it, and a next instruction exists. -/
structure CtlReady (s : State) (cl : Clu) (j : Nat) (w : W32) : Prop where
  slot : runQuad s cl.q.val = some j
  on   : (getClu s cl.key).on = true
  free : (getJob s j).held = false
  edge : s.clk.dst % 6 = 0
  next : (getClu s cl.key).nextJ ≤ s.clk.dst
  go   : ∀ x, (getClu s cl.key).stall = some x → x ≤ (jobTime s (getJob s j) : Int)
  word : tget 0 (getClu s cl.key).imem (getClu s cl.key).pc = w
  room : (getClu s cl.key).pc < 4095

/-- Only cluster `cl` differs between two states. -/
def OnlyClu (s t : State) (cl : Clu) : Prop :=
  t = { s with clus := t.clus } ∧ ∀ k, k ≠ cl.key → getClu t k = getClu s k

/-- The control core wrote `v` to S[d] and went on: S0 discards it, and nothing else of the cluster changed but the
program counter and the time of the next instruction (R80, R83). -/
def CtlWrote (s t : State) (cl : Clu) (d : Nat) (v : W32) : Prop :=
  OnlyClu s t cl ∧ (∀ r, r < 64 → curS (getClu t cl.key) r = if r = d ∧ d ≠ 0 then v else curS (getClu s cl.key) r) ∧
  (∀ m, m < 8 → curM (getClu t cl.key) m = curM (getClu s cl.key) m) ∧
  getClu t cl.key = { getClu s cl.key with
    sw := (getClu t cl.key).sw, pc := (getClu s cl.key).pc + 1, nextJ := s.clk.dst + 6, stall := none }

/-! ## Command streams -/

/-- Command `w` of a row engine (`rt` false) or route unit (`rt` true) is due (R128): the job of slot `j` runs on the
quadrant and is not held, the stream has not ended, `w` heads the queue with `rest` behind it, job time is the
segment's origin plus 4 times OFFSET, OFFSET rises, and the unit is not busy. -/
structure CmdDue (s : State) (cl : Clu) (rt : Bool) (j : Nat) (w : W256) (rest : List W256) : Prop where
  slot  : runQuad s cl.q.val = some j
  free  : (getJob s j).held = false
  going : (unitOf rt (getClu s cl.key)).done = false
  head  : (unitOf rt (getClu s cl.key)).q = w :: rest
  time  : jobTime s (getJob s j) = originOf s j (unitOf rt (getClu s cl.key)).seg + 4 * cmOff w
  rises : ∀ l, (unitOf rt (getClu s cl.key)).last = some l → l < cmOff w
  idle  : (unitOf rt (getClu s cl.key)).busy ≤ s.clk.dst

/-- The unit after it took a command that runs for `i` core cycles as record `f`, whose events `evs` follow in their
cycles. -/
def took (u : CmdUnit) (s : State) (w : W256) (rest : List W256) (i : Nat) (f : CmdFly) (evs : List Ev) : CmdUnit :=
  { u with
    q := rest, last := some (cmOff w), busy := s.clk.dst + 4 * i
    fly := u.fly ++ [{ f with due := s.clk.dst + 4 * i, plan := placeEvs s.clk.dst evs }] }

/-! ## Update passes -/

/-- Pass `w` of engine `e` launches now (R218): the job of slot `j` runs on the quadrant and is not held, `w` is the
next descriptor of the segment's set, job time is the origin plus 4 times OFFSET, OFFSET rises, no pass is in flight. -/
structure PassDue (s : State) (e : Fin 12) (j : Nat) (w : W256) : Prop where
  slot  : runningOn s (e.val / 3) = some j
  free  : (getJob s j).held = false
  began : (getUe s e).seg ≠ 0
  next  : (ueDesc s e j).passes[(getUe s e).pos]? = some w
  time  : jobTime s (getJob s j) = originOf s j (getUe s e).seg + 4 * psOff w
  rises : ∀ l, (getUe s e).last = some l → l < psOff w
  idle  : (getUe s e).fly = none

/-- Pass `w` of engine `e` as its launch latches it: job times of launch and end, program, power table, group words,
seeds (R219, R227); nothing is read yet. -/
def passBegun (s : State) (e : Fin 12) (j : Nat) (w : W256) : PassFly :=
  let t := jobTime s (getJob s j)
  { t0 := t, due := t + 4 * passI w, idx := (getUe s e).pos, w := w
    prog := (ueDesc s e j).progs.getD (psProg w) [], pt := (ueDesc s e j).pt
    gw := match grpEntry s j (psGrp w) with | some x => (getGrp s x).words | none => []
    seed := jobSeeds s j, list := [], miss := 0, grps := [], nanSaid := false, satSaid := false }

/-! ## Reductions -/

/-- A context after an up part was staged in its row (R251 to R253): a cell set that is now complete is noted. -/
def heldPart (x : Ctx) (p : Machine.Part) : Ctx :=
  let y := { x with parts := x.parts ++ [p] }
  if setFull y p.input p.chunk then { y with done := (p.input, p.chunk) :: y.done, sets := y.sets + 1 } else y

/-- Every input of the chunk is complete (R252). -/
def chunkReady (x : Ctx) (chunk : Nat) : Bool := (List.range (cxNin x.defn)).all (fun i => x.done.contains (i, chunk))

/-- What is staged of a contribution that came in as input `i`. -/
def partOf (c : Contrib) (i : Nat) : Machine.Part := { chunk := c.chunk, input := i, part := c.part, bytes := c.bytes }

/-- The up contribution `c` passes the checks of R250 before those of the context's state, at entry `e` of slot `j`, as
input `i`, and no FLUSH has ended the context (R482). -/
structure UpPasses (s : State) (c : Contrib) (j e i : Nat) : Prop where
  job   : residentAcc s c.acc = some j
  ctx   : ctxEntry s j c.ctx = some e
  same  : c.bkt = cxBkt (getCtx s e).defn ∧ c.vote = cxVote (getCtx s e).defn
  up    : c.down = false
  from' : inputOf (getCtx s e).defn c = some i
  live  : (getCtx s e).dead = false
  range : c.chunk < cxNch (getCtx s e).defn ∧
    c.part < chunkParts (getCtx s e).defn (inputBits (getCtx s e).defn i) c.chunk ∧
    c.wid = inWid (cxIn (getCtx s e).defn i)
  late  : c.retx = true → ∀ l, (getCtx s e).last = some l → l.toNat < c.step.toNat

/-- The result of a chunk sent down to the node of every remote input (R258). -/
def sentDown (s : State) (e chunk : Nat) (res : List Byte) : State :=
  let x := getCtx s e
  ((((List.range (cxNin x.defn)).map (cxIn x.defn)).filter (fun w => !inLoc w)).foldl (fun s w =>
    sendChunk s e (inNode w) chunk (downWid x.defn) true (decide (handed x + 1 = cxNch x.defn)) res) s)

/-! ## Lane groups -/

/-- Only lane group `g` differs between two states. -/
def OnlyLink (s t : State) (g : Nat) : Prop := t = { s with links := t.links } ∧ ∀ k, k ≠ g → getLink t k = getLink s k

/-- A lane group after it sent one flit (R268, R275): the NAK is out, the next credit turn, one more flit. -/
def flitSent (l : Link) : Link := { l with nakOut := false, crvc := (l.crvc + 1) % 4, fcTx := l.fcTx + 1 }

/-- The header of a flit of a two-way group (R269): its sequence number, ACK, a NAK that is due, a credit total. -/
def headerOf (l : Link) (ty seq vc nxt : Nat) : W64 :=
  mkFl ty seq l.rxSeq l.nakOut vc nxt l.crvc (freedCells l l.crvc) l.kep

/-- A group in DOWN leaves it at once (R277): enabled, allowed by its catalogue, role and key, its lanes locked. -/
def canUp (s : State) (g : Nat) : Bool := (getLink s g).en && enableOk s g && grpLocked s g

/-- A lane group that went to FAILED (R292): replay, backlog, egress and injection are empty, partial packets gone. -/
def failedLink (now : Nat) (l : Link) : Link :=
  { l.go .failed now with
    stream := [], synced := [], replay := [], resend := [], flying := [], backlog := [], egress := [], inj := []
    late := [], nak := false, nakOut := false }

/-- A lane group after the ACK and credit fields of a good flit (R272, R275): progress frees replay, the credit total
of the named VC is taken. -/
def fieldsTaken (now : Nat) (l : Link) (h : W64) : Link :=
  let step := (flAck h + 4096 - l.ack) % 4096
  let m := if 1 ≤ step ∧ step ≤ (l.seq + 4096 - l.ack) % 4096
    then freeReplay { l with ack := flAck h, ackAt := now } else l
  { m with crn := tput 0 l.crn (flCrvc h) (flCrn h) }

/-- The bytes of a VC's stream once payload `pay` of a data flit with header `h` has joined it (R279). -/
def streamIn (l : Link) (h : W64) (pay : List Byte) : List Byte :=
  if tget true l.synced (flVc h) = true then (if flNxt h = 0 then fit 0 232 pay else tget [] l.stream (flVc h) ++ fit 0 232 pay)
  else if flNxt h ≤ 231 then (fit 0 232 pay).drop (flNxt h) else []

/-- The group once it has taken the good flit that reads as `f`: one more position, and the next epoch where the flit's
KEP calls for it (R363, R364). -/
def opened (s : State) (g : Nat) (f : RxFlit) : Link := getLink (stepEpoch (countRx s g) g f) g

/-- A flit of a two-way group that receives, for an end of this module: its CRC and tag are good and it carries no NAK. -/
structure GoodFlit (s : State) (g : Nat) (ty : Nat) (w : RxWire) : Prop where
  type : flType w.flit.hdr = ty
  mine : (getLink s g).role ≠ 2
  two  : grpMode s g = 0
  live : receives s g = true
  crc  : (openFlit s g w.flit).crcOk = true
  tag  : (openFlit s g w.flit).tagOk = true
  nak  : flNak w.flit.hdr = false

/-! ## Packets -/

/-- Packet `p` of type `mt` stands at the head of an ingress queue, for this hub, in a cell without an error, and the
arrival class has room for it where it must wait there. -/
structure HeadIs (s : State) (g : Grp) (vc : Fin 4) (mt : Nat) (p : Packet) : Prop where
  head : inHead s g.key vc = some p
  type : pkMT p = mt
  mine : isHere s p = true
  good : tget 0 s.fab.qFlaws (qIngress g.key vc) = 0
  room : mt = 2 ∨ mustWait s p = false

/-- The state once the head has left its queue; a multicast packet has also gone on along its line (R289). -/
def passedOn (s : State) (g : Grp) (vc : Fin 4) (p : Packet) : State := mcForward (popIn s g.key vc) g.key vc p

/-- The table entry of a packet's message once this packet is in it (R282): a new entry opens now for quadrant `q` and
keeps the lane group `g` of this first packet. -/
def entryWith (s : State) (g q : Nat) (p : Packet) : Msg :=
  let m := match msgOf s p with
    | some m => m
    | none => Msg.mk (Fin.ofNat 4 q) (BitVec.ofNat 12 (pkAcc p)) (pkSrc p) (BitVec.ofNat 32 (pkMid p)) (pkNpm1 p + 1) []
        s.clk.dst none g
  { m with got := m.got ++ [(pkPidx p, p)] }

/-- The message table without the message of `m`. -/
def othersOf (s : State) (m : Msg) : List Msg :=
  s.fab.msgs.filter (fun x => !(x.acc == m.acc && x.src == m.src && x.mid == m.mid))

/-- PUT's check at the receiver (R158): its bytes lie in one region of the job that allows remote writes. -/
def putFits (s : State) (p : Packet) : Prop :=
  ∃ x, gaParse (h2Addr p) = some x ∧ remoteOk s (pkAcc p) (h2Addr p) x.byte (x.byte + max 1 p.pay.length - 1) x.byte
    (x.byte + max 1 p.pay.length - 1 : Nat) 32 = true

/-- The first arrival of a list that waits for quadrant `q` as a message. -/
def FirstFor (q : Fin 4) (as : List Arrival) (pre : List Arrival) (a : Arrival) (post : List Arrival) : Prop :=
  as = pre ++ a :: post ∧ a.q = q ∧ a.ctx = none ∧ ∀ b ∈ pre, b.q ≠ q ∨ b.ctx ≠ none

/-! ## Lanes -/

/-- A lane's loss touches no lane group (R267, R316): it serves no slot, and no group taps it. -/
def Unserved (s : State) (p l : Nat) : Prop :=
  laneRole s p l ≠ .slot ∧ (laneRole s p l = .passage → slotOf s p l = none)

/-! ## Custody -/

/-- Custody can take a command by this way (R357, R434): the page is in service, or the BMC's endpoint is addressed and
no vendor command runs. -/
def CusOpen (s : State) (p : Party) : Prop :=
  if p = .host then Served s pgCUS else mgtAddressed s = true ∧ s.mgt.busy = false ∧ pageLive s pgCUS = true

/-- A custody record was applied (R357 step 5): the staging is gone, the result is COMMITTED with its interrupt, the
entry is written. -/
def Applied (s t : State) (r : CusReq) : Prop :=
  t.cus.busy = false ∧ t.cus.commit = none ∧ t.cus.result = 2 ∧ t.cus.nonce = s.cus.nonce ∧
  bit (reg t (at' pgCUS 0x10)) 0 = true ∧
  Logged s t pgCUS 1 0x0F01 (BitVec.ofNat 12 (recAcc r.word)) (d0Cus r.word) (d1Cus 2 r.party)

/-! ## Resets -/

/-- No operation of a core is in flight. -/
def coreIdle (c : Core) : Bool := c.tdFly.isEmpty && c.mxFly.isEmpty && c.stFly.isEmpty && c.mvFly.isEmpty

/-- RST_CTL is written with scope `k` while no reset is in progress (R393, R395). -/
def ResetWrite (s : State) (v : W32) (k : Nat) : Prop := Served s pgBUP ∧ fld v 2 0 = k ∧ s.bup.rst = none

/-- The reset that a write of RST_CTL begins. -/
def resetRun (v : W32) (k : Nat) : ResetRun :=
  { scope := k, q := Fin.ofNat 4 (fld v 4 3), cl := fld v 8 5, k := fld v 15 9, test := bit v 16 }

/-- Everything that a hub or module reset returns to its reset state (R344, R371, R391), and what it keeps: the
Datestamp, the Ledger's slots, the fuses, the soft entries, the cells with HOLD. -/
def HubCleared (s t : State) : Prop :=
  (∀ j, getJob t j = Job.reset) ∧ t.ctxs = [] ∧ t.grps = [] ∧ t.bar2 = [] ∧ t.fab = Fabric.reset ∧
  t.top = Topology.reset ∧ t.cus.nonce = 1 ∧ t.cus.busy = false ∧ t.cus.own = [] ∧ t.cus.keys = [] ∧ t.cus.seals = 0 ∧
  t.cus.debug = false ∧ t.cus.fuses = s.cus.fuses ∧ (∀ g < 24, (getLink t g).st = .down ∧ (getLink t g).owner = 0) ∧
  (∀ x < 54, getCell t x = if (getCell s x).hold = true then getCell s x else LaneCell.reset) ∧
  t.clk.dst = s.clk.dst ∧ t.ldg.slots = s.ldg.slots ∧ t.bup.soft = s.bup.soft

/-- What a bring-up whose steps all pass leaves (R376): LOCAL with its entry and interrupt, the Datestamp at 0. -/
def Local (t : State) : Prop :=
  t.bup.isLocal = true ∧ t.bup.ready = false ∧ t.bup.phase = 9 ∧ t.bup.failph = 0 ∧ t.clk.dst = 0 ∧
  t.clk.unlocked = true ∧ bit (reg t (at' pgBUP 0x10)) 0 = true

end Sys2Proof
end

