-- ==== Sys2Proof/Certificates/Slice0/Obligations.lean ====
section
/-! DEFINITION. The statements for the provers: what the commands do, what they leave alone, and what always holds. -/

open Sys2Proof Sys2Proof.Machine

/-- A step acts on the front command with the rest of the queue. -/
def Obligations.StepRunsFront : Prop :=
  ∀ (c : Instr) (r : List Instr) (s : State), s.pending = c :: r → step s = exec c { s with pending := r }

/-- With no command waiting a step is one root tick: what falls due is done, and while the root runs the Datestamp rises
by 1. At a Datestamp at which nothing falls due nothing else changes; while the root does not run nothing changes (that a
tick is a step of an empty queue is the model's choice, log 1; the count is R27's). -/
def Obligations.IdleStepIsOneTick : Prop :=
  ∀ s : State, s.pending = [] →
    step s = .next (idleTick s) ∧
    (rootRuns s = true → Quiet s → step s = .next { s with clk := { s.clk with dst := s.clk.dst + 1 } }) ∧
    (rootRuns s = false → step s = .next s)

/-- Reset: no command waits, the Datestamp is 0 and unlocked, the nonce is 1, no slot holds a job, every lane group is
DOWN, nothing is owned, no fuse is blown, the Ledger is empty; the registers with a stated reset value hold it. -/
def Obligations.ResetValues : Prop :=
  State.reset.pending = [] ∧ State.reset.clk.dst = 0 ∧ State.reset.clk.unlocked = true ∧ State.reset.cus.nonce = 1 ∧
  State.reset.bup.isLocal = false ∧ State.reset.bup.ready = false ∧ State.reset.bup.phase = 0 ∧
  State.reset.mem = [] ∧ State.reset.ldg.wr = 0 ∧ State.reset.mgt.eid = 0 ∧
  (∀ j, (getJob State.reset j).st = .free ∧ reg State.reset (at' pgSCH (0x110 + 0x40 * (j % 4))) = 10000) ∧
  (∀ g, (getLink State.reset g).st = .down ∧ (getLink State.reset g).owner = 0) ∧
  (∀ q, owner State.reset q = 0) ∧
  (∀ p g, p < 6 → g < 4 → reg State.reset (at' (pgLNK p) (0x10C + 0x40 * g)) = 256) ∧
  reg State.reset (at' pgOPT 0x100) = 3 ∧ reg State.reset (at' pgOPT 0x104) = 200 ∧
  reg State.reset (at' pgMGT 0x10C) = 1000 ∧
  (∀ q c, q < 4 → c < 16 → reg State.reset (at' (pgSHW q c) 0x100) = 0x80060040)

/-- Reset meets the invariant. -/
def Obligations.ResetInv : Prop := Inv State.reset

/-- THE INVARIANT: from every state whose memory is in canonical form, a step to a next state keeps it so, whatever
command runs (canonical memory is the model's own form, log 6). -/
def Obligations.InvKeptByStep : Prop :=
  ∀ s t : State, Inv s → step s = .next t → Inv t

/-- REGISTER_WRITE on a page in service: a plain write sets the fields that are RW and no other register.
HST_BAD_ACC: an access that is not an aligned 4 B one is discarded, a read completes with all ones, the counter
rises by 1, and an entry is written at most once per millisecond. -/
def Obligations.RegisterAccess : Prop :=
  (∀ (p o : Nat) (v : W32) (s : State), Served s p → o < 4096 → o % 4 = 0 → rwMask p o ≠ 0 → takes s p o v = true →
    ∃ t, exec (.registerWrite (at' p o) v) s = .next t ∧ reg t (at' p o) = v &&& rwMask p o ∧
      RegsKept s t [at' p o] ∧ t = { s with regs := t.regs, sync := t.sync } ∧
      t.sync = { s.sync with frozen := s.sync.frozen && (decide (pageCode p ≠ 6) || bit v 2) }) ∧
  (∀ (bar off : Nat) (w : Bool) (s : State), s.bup.bar0 = true → bar = 0 ∨ bar = 4 →
    ∃ t, exec (.hstBadAcc bar off w) s = .next t ∧
      reg t (at' pgHST 0x104) = satAdd (reg s (at' pgHST 0x104)) 1 ∧
      t.out = (if w then s.out else .rd 0xFFFFFFFF :: s.out) ∧
      RegsKept s t [at' pgHST 0x104, at' pgLDG 0x10C] ∧
      (Recent s.ldg.badAcc s.clk.dst 6000000 → t.ldg = s.ldg) ∧
      (¬ Recent s.ldg.badAcc s.clk.dst 6000000 → t.ldg.badAcc = some s.clk.dst ∧
        Logged s t pgHST 1 0x1201 0 (BitVec.ofNat 32 (bar % 8 * 2 ^ 29 + off % 2 ^ 29)) 0) ∧
      t = { s with regs := t.regs, ldg := t.ldg, out := t.out })

/-- RC_COUNTER_READ on a page in service: the read returns the count, what is left is the hardware's increments of that
same clock alone, so the value read and the count left lose no event, and no other register changes; a counter at its
largest value stays there until it is cleared. -/
def Obligations.RcCounters : Prop :=
  (∀ (p o n : Nat) (s : State), Served s p → o < 4096 → o % 4 = 0 → isRC p o = true → pageCode p ≠ 0x10 →
    ∃ t, exec (.rcCounterRead (at' p o) n) s = .next t ∧ t.out = .rd (readReg s p o) :: s.out ∧
      reg t (at' p o) = BitVec.ofNat 32 (min n 0xFFFFFFFF) ∧ RegsKept s t [at' p o] ∧
      t = { s with regs := t.regs, out := t.out }) ∧
  (∀ (n : Nat) (s : State), Served s pgQP →
    ∃ t, exec (.rcCounterRead (at' pgQP 0x110) n) s = .next t ∧ t.out = .rd (readReg s pgQP 0x110) :: s.out ∧
      tget 0 t.fab.clsLost (fld (reg s (at' pgQP 0x100)) 3 0) = min n 0xFFFFFFFF ∧
      t = { s with fab := { s.fab with clsLost := t.fab.clsLost }, out := t.out }) ∧
  (∀ (s : State) (o n : Nat), reg s o = 0xFFFFFFFF → reg (bump s o n) o = 0xFFFFFFFF) ∧
  (∀ (s : State) (o n : Nat), (reg s o).toNat + n < 2 ^ 32 → (reg (bump s o n) o).toNat = (reg s o).toNat + n)

/-- Interrupts. A status bit that becomes 1 while enabled signals the page's vector, one that stays set signals
nothing. INT_STAT_W1C and INT_EN_WRITE: a status bit clears where a 1 is written, unless the hardware sets it in the same
clock; an enable written from 0 to 1 over a set status bit signals the page's vector, once. -/
def Obligations.InterruptRegisters : Prop :=
  (∀ (p b : Nat) (s : State), b < 32 →
    (bit (reg s (at' p 0x10)) b = true → raiseInt s p b = s) ∧
    (bit (reg s (at' p 0x10)) b = false → bit (reg (raiseInt s p b) (at' p 0x10)) b = true ∧
      (raiseInt s p b).out = (if bit (reg s (at' p 0x14)) b then [Out.msix (vectorOf p b)] else []) ++ s.out ∧
      RegsKept s (raiseInt s p b) [at' p 0x10])) ∧
  (∀ (p : Nat) (v hw : W32) (s : State), Served s p →
    ∃ t, exec (.intStatW1c p v hw) s = .next t ∧
      (∀ b < 8, bit (reg t (at' p 0x10)) b
        = (bit (hw &&& intBits p) b || (bit (reg s (at' p 0x10)) b && !bit v b))) ∧
      t.out = (((List.range 8).filter (fun b => bit (hw &&& intBits p) b && !bit (reg s (at' p 0x10)) b
        && bit (reg s (at' p 0x14)) b)).map (fun b => Out.msix (vectorOf p b))).reverse ++ s.out ∧
      RegsKept s t [at' p 0x10] ∧ t = { s with regs := t.regs, out := t.out }) ∧
  (∀ (p : Nat) (v : W32) (s : State), Served s p →
    ∃ t, exec (.intEnWrite p v) s = .next t ∧ reg t (at' p 0x14) = v &&& intBits p ∧ RegsKept s t [at' p 0x14] ∧
      t.out = (((List.range 8).filter (fun b => bit (v &&& intBits p) b && !bit (reg s (at' p 0x14)) b
        && bit (reg s (at' p 0x10)) b)).map (fun b => Out.msix (vectorOf p b))).reverse ++ s.out ∧
      t = { s with regs := t.regs, out := t.out })

/-- The Datestamp's rows. DST_NOW_LO_READ returns the low word and latches the high word and the fine phase together.
PHASE_SLEW moves the fine phase one step toward the target at most every 4,096 ticks and never moves the tick count.
RATE_STEER, once a port has measured anew, moves the pull by the weighted mean rate of the trained ports with a rate and
keeps it within 50 ppm; the root's stays; a measurement of 16 SYNC intervals gives the change of offset over the ticks
that have passed. DST_UNLOCKED after 1 ms above 500 ps (one step of the offset is 125/192 ps) sets UNLOCKED, writes the
entry, and no job runs on. DST_LOCK_REGAINED after 100 ms within 500 ps clears it. -/
def Obligations.DatestampRows : Prop :=
  (∀ s : State, Served s pgDST →
    exec .dstNowLoRead s = .next { s with
      clk := { s.clk with nowHi := BitVec.ofNat 32 (s.clk.dst / 2 ^ 32), nowFine := BitVec.ofNat 32 s.clk.fine.toNat }
      out := .rd (BitVec.ofNat 32 s.clk.dst) :: s.out }) ∧
  (∀ s : State, rootRuns s = true → s.bup.ready = true → s.clk.dst % 4096 = 0 → s.clk.slewAt ≠ some s.clk.dst →
    s.clk.target ≠ 0 →
    ∃ t, exec .phaseSlew s = .next t ∧ t.clk.dst = s.clk.dst ∧ t.clk.slewAt = some s.clk.dst ∧
      t.clk.fine = (if 0 < s.clk.target then s.clk.fine + 1 else s.clk.fine - 1) ∧
      t.clk.target = (if 0 < s.clk.target then s.clk.target - 1 else s.clk.target + 1) ∧
      t = { s with clk := t.clk }) ∧
  (∀ (w : List Nat) (s : State), (∃ g ∈ rateGrps s, (getLink s g).rateNew = true) →
    ∃ t, exec (.rateSteer w) s = .next t ∧
      t.clk.pull = (if isRoot s then s.clk.pull else max (-50000) (min 50000 (s.clk.pull
        + wMean (fun g => w.getD (g / 4) 0) (fun g => (getLink s g).rate.getD 0) (rateGrps s)))) ∧
      (∀ g, getLink t g = if g ∈ rateGrps s then { getLink s g with rateNew := false } else getLink s g) ∧
      t = { s with links := t.links, clk := { s.clk with pull := t.clk.pull } }) ∧
  (∀ (now : Nat) (o : Int) (l : Link), l.syncN = 16 → l.offsAt < now →
    takeOffset now o l = { l with offs := o, offs16 := o, offsAt := now, syncN := 1, rateNew := true
                                  rate := some ((o - l.offs16) * 1000000000 / (256 * (now - l.offsAt : Nat) : Int)) }) ∧
  (∀ s : State, s.clk.unlocked = false → 96000 < 125 * s.clk.target.natAbs → s.clk.since + 6000000 ≤ s.clk.dst →
    ∃ t, exec .dstUnlocked s = .next t ∧ t.clk = { s.clk with unlocked := true } ∧
      Logged s t pgDST 3 0x0207 0 0 0 ∧ (∀ j < 4, resident (getJob t j).st = false)) ∧
  (∀ s : State, s.clk.unlocked = true → 125 * s.clk.target.natAbs ≤ 96000 → s.clk.since + 600000000 ≤ s.clk.dst →
    rootRuns s = true → isRoot s = true ∨ steerGrps s ≠ [] →
    exec .dstLockRegained s = .next { s with clk := { s.clk with unlocked := false } })

/-- The control writes of a job slot. ADMIT takes a reusable slot with a placed image to ADMITTING; END frees an
ADMITTED slot with all it holds and faults a RUNNING job; CLEAR frees a REFUSED, ENDED or FAULTED slot; an accepted
start makes the slot RUNNING at S, a refused one leaves it and writes the lowest reason. -/
def Obligations.JobSlotWrites : Prop :=
  (∀ (j : Fin 4) (s : State), Served s pgSCH → reusable (getJob s j).st = true → imgPlaced s j = true →
    exec (.admitImage j 1) s = .next (setJob s j { Job.reset with st := .admitting })) ∧
  (∀ (j : Fin 4) (s : State), Served s pgSCH → (getJob s j).st = .admitted →
    ∃ t, exec (.schJobEnd j 2) s = .next t ∧ getJob t j = Job.reset ∧ (∀ i, i ≠ j.val → getJob t i = getJob s i) ∧
      (∀ e, (getCtx t e).owner ≠ 0 → (getCtx t e).job ≠ j) ∧ (∀ e, (getGrp t e).owner ≠ 0 → (getGrp t e).job ≠ j) ∧
      t = { s with jobs := t.jobs, ctxs := t.ctxs, cready := t.cready, grps := t.grps, links := t.links, fab := t.fab }) ∧
  (∀ (j : Fin 4) (s : State), Served s pgSCH → (getJob s j).st = .running →
    ∃ t, exec (.schJobEnd j 2) s = .next t ∧ (getJob t j).st = .faulted ∧
      bit (reg t (at' pgSCH 0x10)) j = true ∧ (∀ i, i ≠ j.val → getJob t i = getJob s i)) ∧
  (∀ (j : Fin 4) (s : State), Served s pgSCH →
    (getJob s j).st = .refused ∨ (getJob s j).st = .ended ∨ (getJob s j).st = .faulted →
    exec (.clear j 4) s = .next (setJob s j Job.reset)) ∧
  (∀ (j : Fin 4) (hi : W32) (s : State), Served s pgSCH →
    let start := (reg s (at' pgSCH (0x100 + 0x40 * j))).toNat + 2 ^ 32 * hi.toNat
    s.clk.dst + 6000000 ≤ start → start % 4 = 0 → (getJob s j).st = .admitted → inThrottle s 4 = false →
    (jobQuads s j).any (quadThrottle s) = false →
    exec (.schJobStart j hi) s = .next (setJob (setReg s (at' pgSCH (0x104 + 0x40 * j)) hi) j
      { getJob s j with st := .running, armed := some start, s := start, h := 0, seg := 0 })) ∧
  (∀ (j : Fin 4) (hi : W32) (s : State), Served s pgSCH →
    let start := (reg s (at' pgSCH (0x100 + 0x40 * j))).toNat + 2 ^ 32 * hi.toNat
    start < s.clk.dst + 6000000 →
    ∃ t, exec (.schJobStart j hi) s = .next t ∧ getJob t j = getJob s j ∧
      Logged s t pgSCH 1 0x0202 (getJob s j).acc
        (BitVec.ofNat 32 ((getJob s j).acc.toNat * 2 ^ 20 + j.val * 2 ^ 16 + 1)) 0 ∧
      t = { s with regs := t.regs, ldg := t.ldg })

/-- ADMISSION_CHECK. An image that passes every check makes the slot ADMITTED under the image's accession, and nothing
in memory, clock, custody or links changes; one that fails makes it REFUSED with its reason, and besides the entry
changes nothing else. An uncorrectable error met by the hub's read refuses it with reason 16: no job faults, and no byte
changes. A slot waits while a named quadrant is being zeroised. -/
def Obligations.AdmissionOutcome : Prop :=
  (∀ (j : Fin 4) (img : Image) (s : State), (getJob s j).st = .admitting → s.cus.zbusy &&& img.quads = 0 →
    imgFlaws s j = [] → admitReason s j img = none →
    ∃ t, exec (.admissionCheck j img false) s = .next t ∧ (getJob t j).st = .admitted ∧
      (getJob t j).acc = img.acc ∧ (getJob t j).img = some img ∧ (∀ i, i ≠ j.val → getJob t i = getJob s i) ∧
      t = { s with draws := t.draws, jobs := t.jobs, cores := t.cores, clus := t.clus, ues := t.ues, ctxs := t.ctxs, grps := t.grps }) ∧
  (∀ (j : Fin 4) (img : Image) (why : Nat) (detail : W32) (s : State), (getJob s j).st = .admitting →
    s.cus.zbusy &&& img.quads = 0 → imgFlaws s j = [] → admitReason s j img = some (why, detail) →
    ∃ t, exec (.admissionCheck j img false) s = .next t ∧ (getJob t j).st = .refused ∧
      (getJob t j).reason = why ∧ (∀ i, i ≠ j.val → getJob t i = getJob s i) ∧
      t = { s with jobs := t.jobs, ldg := t.ldg, regs := t.regs }) ∧
  (∀ (j : Fin 4) (img : Image) (ue : Bool) (u : Nat) (s : State), (getJob s j).st = .admitting →
    s.cus.zbusy &&& img.quads = 0 → imgUe s j ue = some u →
    ∃ t, exec (.admissionCheck j img ue) s = .next t ∧ (getJob t j).st = .refused ∧ (getJob t j).reason = 16 ∧
      (∀ i, i ≠ j.val → getJob t i = getJob s i) ∧
      t = { s with jobs := t.jobs, ldg := t.ldg, regs := t.regs, bup := t.bup }) ∧
  (∀ (j : Fin 4) (img : Image) (ue : Bool) (s : State), s.cus.zbusy &&& img.quads ≠ 0 →
    exec (.admissionCheck j img ue) s = .next s)

/-- Job start, segments and job end. When the Datestamp reaches S, job time begins with H = 0 and every byte of the
job's shelves, pools, folios and marginalia reads 0, while every HBM byte stays; at a segment's origin with nothing
unfinished, and no descriptor write that meets the segment's load, the segment count rises, and an unfinished stream
faults the job instead; when all is done the job is ENDED and its END bit set. -/
def Obligations.JobRuns : Prop :=
  (∀ (j : Fin 4) (x : Nat) (i : Image) (s : State), (getJob s j).st = .running → (getJob s j).armed = some x →
    (getJob s j).img = some i → x ≤ s.clk.dst →
    ∃ t, exec (.jobTimeBegin j) s = .next t ∧ (getJob t j).armed = none ∧ (getJob t j).h = 0 ∧
      (getJob t j).st = .running ∧ (getJob t j).held = false ∧ jobTime t (getJob t j) = s.clk.dst ∧
      (∀ a, 2 ^ 48 ≤ a → (a / 2 ^ 39) % 4 ∈ imgQuads i → rdByte t a = 0) ∧
      (∀ a, a < 2 ^ 48 → rdByte t a = rdByte s a) ∧
      t = { s with mem := t.mem, stale := t.stale, flaws := t.flaws, regs := t.regs, jobs := t.jobs, cores := t.cores, clus := t.clus, ues := t.ues }) ∧
  (∀ (j : Fin 4) (i : Image) (g : Seg) (s : State), (getJob s j).img = some i → i.segs[(getJob s j).seg]? = some g →
    (getJob s j).st = .running → (getJob s j).armed = none → (getJob s j).held = false →
    (getJob s j).s + g.origin ≤ jobTime s (getJob s j) →
    (unfinished s j i = [] →
      (∀ k ∈ jobCores s i, loadMeets s (coreOfKey k) (jobTime s (getJob s j)) (tget [] g.td k) = []) →
      ∃ t, exec (.segmentOrigin j) s = .next t ∧ getJob t j = { getJob s j with seg := (getJob s j).seg + 1, advPos := 0 } ∧
        t = { s with jobs := t.jobs, cores := t.cores, clus := t.clus, ues := t.ues }) ∧
    (unfinished s j i ≠ [] → ∃ t, exec (.segmentOrigin j) s = .next t ∧ (getJob t j).st = .faulted)) ∧
  (∀ (j : Fin 4) (i : Image) (s : State), (getJob s j).img = some i → (getJob s j).st = .running →
    allDone s j i = true →
    ∃ t, exec (.jobEnded j) s = .next t ∧ (getJob t j).st = .ended ∧ bit (reg t (at' pgSCH 0x10)) (4 + j) = true ∧
      (∀ e, (getCtx t e).owner ≠ 0 → (getCtx t e).job ≠ j) ∧ (∀ e, (getGrp t e).owner ≠ 0 → (getGrp t e).job ≠ j) ∧
      t.mem = s.mem ∧ t.clk = s.clk ∧ t.cus = s.cus)

/-- The power profile is read 10 us of job time ahead for the regulators and, with FF_EN, 100 us ahead for the heaters:
each quadrant of the job takes its own code, that of the entry in force then, and the others keep theirs. During a hold
the code relaxes to the idle code, and stands there after 100 us. -/
def Obligations.ProfileReads : Prop :=
  (∀ (j : Fin 4) (i : Image) (s : State), (getJob s j).img = some i → (getJob s j).st = .running →
    (getJob s j).s ≤ jobTime s (getJob s j) + 60000 →
    ∃ t, exec (.powerProfileRead j) s = .next t ∧
      (∀ q : Fin 4, newest t.pwr.ahead q.val = if q.val ∈ imgQuads i
        then noted s.pwr.ahead (s.clk.dst + 60000) q (codeAhead s j i 60000 q.val) else newest s.pwr.ahead q.val) ∧
      t = { s with pwr := { s.pwr with ahead := t.pwr.ahead } }) ∧
  (∀ (j : Fin 4) (i : Image) (s : State), (getJob s j).img = some i → (getJob s j).st = .running →
    bit (reg s (at' pgOPT 0x100)) 1 = true → (getJob s j).s ≤ jobTime s (getJob s j) + 600000 →
    ∃ t, exec (.heaterForecastRead j) s = .next t ∧
      (∀ q : Fin 4, newest t.opt.ahead q.val = if q.val ∈ imgQuads i
        then noted s.opt.ahead (s.clk.dst + 600000) q (codeAhead s j i 600000 q.val) else newest s.opt.ahead q.val) ∧
      t = { s with opt := { s.opt with ahead := t.opt.ahead } }) ∧
  (∀ c i n : Nat, relaxed c i 0 = c ∧ (600000 ≤ n → relaxed c i n = i) ∧
    min c i ≤ relaxed c i n ∧ relaxed c i n ≤ max c i)

/-- FETCH_SLOT: into a queue with a free place the next bundles of the core's stream go, at most the two of one 64 B
line and no more than fit, and an entry written whole holds no error; a full queue fetches nothing and the slot is
counted in CLU_FETCH_IDLE.
The command fetch slots of the row engine and the route unit: at most two commands of one 64 B line and no more
than fit into the queue of 16; a full queue fetches nothing and is counted. -/
def Obligations.FetchSlots : Prop :=
  (∀ (c : CoreId) (j : Nat) (s : State), residentOn s c.cl.q.val = some j → (getCore s c).st ≠ .fault →
    (getJob s j).st ≠ .admitting → (getCore s c).bq.length + heldBody (getCore s c) < 64 →
    let n := min 2 (64 - ((getCore s c).bq.length + heldBody (getCore s c)))
    let bs := ((coreStream s j c).drop (getCore s c).sp).take n
    ∃ t, exec (.fetchSlot c) s = .next t ∧ OnlyCore s { t with flaws := s.flaws } c ∧
      getCore t c = { getCore s c with bq := (getCore s c).bq ++ bs, sp := (getCore s c).sp + bs.length } ∧
      (∀ f, f ∈ t.flaws ↔ f ∈ s.flaws ∧ ∀ i < bs.length, f.1 / 32 * 32 ≠ bqAddr c ((getCore s c).sp + i))) ∧
  (∀ (c : CoreId) (j : Nat) (s : State), residentOn s c.cl.q.val = some j → (getCore s c).st ≠ .fault →
    (getJob s j).st ≠ .admitting → 64 ≤ (getCore s c).bq.length + heldBody (getCore s c) →
    ∃ t, exec (.fetchSlot c) s = .next t ∧
      reg t (at' (pgCLU c.cl.q.val c.cl.c.val) 0x108)
        = satAdd (reg s (at' (pgCLU c.cl.q.val c.cl.c.val) 0x108)) 1 ∧
      RegsKept s t [at' (pgCLU c.cl.q.val c.cl.c.val) 0x108] ∧ t = { s with regs := t.regs }) ∧
  (∀ (cl : Clu) (j : Nat) (s : State), residentOn s cl.q.val = some j → (getJob s j).st ≠ .admitting →
    ∀ e ∈ [(false, Instr.reFetchSlot cl, 0x110), (true, .rtFetchSlot cl, 0x118)],
      let u := unitOf e.1 (getClu s cl.key)
      (u.q.length < 16 →
        let cs := ((unitStream s j cl.key e.1).drop u.sp).take (min 2 (16 - u.q.length))
        ∃ t, exec e.2.1 s = .next t ∧ OnlyClu s t cl ∧
          unitOf e.1 (getClu t cl.key) = { u with q := u.q ++ cs, sp := u.sp + cs.length } ∧
          unitOf (!e.1) (getClu t cl.key) = unitOf (!e.1) (getClu s cl.key)) ∧
      (16 ≤ u.q.length → ∃ t, exec e.2.1 s = .next t ∧
        reg t (at' (unitPage e.1 cl.key) e.2.2) = satAdd (reg s (at' (unitPage e.1 cl.key) e.2.2)) 1 ∧
        RegsKept s t [at' (unitPage e.1 cl.key) e.2.2] ∧ t = { s with regs := t.regs }))

/-- The control slot's rows, for a bundle whose other slots are idle. NOP only launches the bundle; END ends the
segment's stream (DONE after the last segment); LOOP takes the next K bundles as its body with N and the period of
S[PS]; TDADD adds DELTA to one 14-bit descriptor field, for the launches from the next core edge on; CRD takes N from
the counter's DEF with the other changes of its core cycle; MARK puts its record into the trace queue. -/
def Obligations.ControlSlot : Prop :=
  ∀ (c : CoreId) (j : Nat) (b : W256) (off : Nat) (s : State), Launches s c j b off →
    mxOp b = 0 → stOp b = 0 → mvOp b = 0 →
    (ctlOp b = 0 → ∃ t, exec (.nop c) s = .next t ∧ OnlyCore s t c ∧ getCore t c = launched s c j b off) ∧
    (ctlOp b = 1 → ∃ t, exec (.endBundle c) s = .next t ∧ OnlyCore s t c ∧
      getCore t c = { launched s c j b off with
        st := if (segsOf s j).length ≤ (getCore s c).seg then .done else .idle, loop := none }) ∧
    (ctlOp b = 2 →
      let body := ((coreStream s j c).drop ((launched s c j b off).sp - (launched s c j b off).bq.length))
      let per := (sReg (getClu s c.cl.key) (jobTime s (getJob s j)) (fld (bnCtl b) 9 4)).toInt
      loopBad (fld (bnCtl b) 25 21) (fld (bnCtl b) 20 10) per (body.take (fld (bnCtl b) 25 21))
        (body[fld (bnCtl b) 25 21]?) = false →
      ∃ t, exec (.loop c) s = .next t ∧ OnlyCore s t c ∧ getCore t c = { launched s c j b off with
        loop := some { body := body.take (fld (bnCtl b) 25 21), n := fld (bnCtl b) 20 10
                       per := per.toNat, iter := 0, idx := 0 } }) ∧
    (ctlOp b = 3 → (latched s c j).tdPend.find? (tdMeet s.clk.dst (jobTime s (getJob s j)) (tdaddPend s c j b)) = none →
      ∃ t, exec (.tdadd c) s = .next t ∧ OnlyCore s t c ∧ getCore t c = { launched s c j b off with
        tdPend := (latched s c j).tdPend ++ [tdaddPend s c j b] }) ∧
    (ctlOp b = 4 →
      let n := fld (bnCtl b) 25 21
      ∃ t, exec (.crd c) s = .next t ∧
        getCtr t c.cl.key n = { getCtr s c.cl.key n with
          sum := (getCtr s c.cl.key n).sum - (fld (bnCtl b) 20 5 : Int), at' := s.clk.dst } ∧
        (∀ m, m ≠ n → getCtr t c.cl.key m = getCtr s c.cl.key m) ∧ getCore t c = launched s c j b off ∧
        (c.cl.key, n) ∈ t.dirty ∧ t = { s with cores := t.cores, clus := t.clus, dirty := t.dirty }) ∧
    (ctlOp b = 5 → s.sync.frozen = false → clsRoom s 7 1 = true → tget 0 s.fab.qFlaws 0x201 = 0 →
      ∃ t, exec (.mark c) s = .next t ∧ getCore t c = launched s c j b off ∧
        t.fab.trace = s.fab.trace ++ [bytesOf 2 (fld (bnCtl b) 25 10) ++ bytesOf 1 c.k.val ++ bytesOf 1 c.cl.key
          ++ bytesOf 8 s.clk.dst] ∧
        (∀ n, tget 0 t.fab.qFlaws n = tget 0 s.fab.qFlaws n) ∧
        t = { s with cores := t.cores, fab := { s.fab with trace := t.fab.trace, qFlaws := t.fab.qFlaws } })

/-- A descriptor write is seen from its edge on: the field has its new value, and every other descriptor stays. A TDADD
result that leaves its field's range faults nothing by itself; the matrix or stream slot that next latches the descriptor
raises DESC_RANGE: its entry is written, the job faults, and no byte of memory changes (an STTD checks nothing, log 136). -/
def Obligations.DescRange : Prop :=
  (∀ (c : CoreId) (j : Nat) (b : W256) (off dst jt : Nat) (s : State), Launches s c j b off →
    mxOp b = 0 → stOp b = 0 → mvOp b = 0 → ctlOp b = 3 → (latched s c j).tdPend = [] → s.clk.dst + 4 ≤ dst →
    let p := tdaddPend s c j b
    ∃ t, exec (.tdadd c) s = .next t ∧
      tget 0 (settleTd dst jt (getCore t c)).td p.td = p.val &&& tdMask ∧
      (∀ m, m ≠ p.td → tget 0 (settleTd dst jt (getCore t c)).td m = tget 0 (latched s c j).td m) ∧
      (p.td ∈ (settleTd dst jt (getCore t c)).tdOver ↔ p.ovr = true)) ∧
  (∀ (c : CoreId) (j i n : Nat) (b : W256) (off : Nat) (s : State), Due s c j b off → bnWait b = false →
    bnHP b = false → bnPft b = false → ctlOp b = 0 → flawsOf s (bqWords s c) = [] →
    residentOn s c.cl.q.val = some i → n ∈ (latched s c j).tdOver →
    (mxIllegal (bnMx b) = false ∧ ((mxOp b = 1 ∨ mxOp b = 2) ∧ (mxTda (bnMx b) = n ∨ mxTdb (bnMx b) = n) ∨
        3 ≤ mxOp b ∧ mxOp b ≤ 5 ∧ mxTdc (bnMx b) = n)) ∨
      (stIllegal (bnSt b) = false ∧ stOp b ≠ 0 ∧ (stTdd (bnSt b) = n ∨ n ∈ stSrcs (bnSt b) ∨
        stRed (bnSt b) ≠ 0 ∧ stTdr (bnSt b) = n)) →
    NoneWaits s (pgCLU c.cl.q.val c.cl.c.val) →
    ∃ t, exec (.nop c) s = .next t ∧ (getJob t i).st = .faulted ∧ t.mem = s.mem ∧
      ∃ e ∈ t.ldg.wait, e.src = pgCLU c.cl.q.val c.cl.c.val ∧ e.code = 0x0304 ∧ e.sev = 3)

/-- A bundle met after its launch time, or with an offset that does not rise, issues nothing: the job of the quadrant
faults. So does a bundle that is due and was not fetched.
The WAIT rows. At L the core waits with D = L + 4 W; a counter that is satisfied at a core edge up to D launches
the bundle as any launch does; a counter short past D leaves the core waiting, sets the job's hold pending and counts
the hold once. -/
def Obligations.LaunchOrderAndWaits : Prop :=
  (∀ (c : CoreId) (j k : Nat) (b : W256) (off : Nat) (s : State), runSlot s c = some j → residentOn s c.cl.q.val = some k →
    (getJob s j).held = false → (getCore s c).st = .ready → ctlOp b = 0 →
    (nextBn (getCore s c) = some (b, off) →
      originOf s j (getCore s c).seg + 4 * off < jobTime s (getJob s j) ∨
      (originOf s j (getCore s c).seg + 4 * off = jobTime s (getJob s j) ∧ ∃ l, (getCore s c).last = some l ∧ off ≤ l) →
      ∃ t, exec (.nop c) s = .next t ∧ (getJob t k).st = .faulted ∧ t.clk = s.clk ∧ t.cus = s.cus) ∧
    (nextBn (getCore s c) = none → (coreStream s j c)[(getCore s c).sp]? = some b →
      originOf s j (getCore s c).seg + 4 * bnOffset b ≤ jobTime s (getJob s j) →
      ∃ t, exec (.nop c) s = .next t ∧ (getJob t k).st = .faulted ∧ t.clk = s.clk ∧ t.cus = s.cus)) ∧
  (∀ (c : CoreId) (j : Nat) (b : W256) (off : Nat) (s : State), Due s c j b off → bnWait b = true → bnHP b = false →
    ∃ t, exec (.waitBundleReachL c) s = .next t ∧ OnlyCore s t c ∧ getCore t c = { getCore s c with
      st := .waiting, missed := false
      dline := jobTime s (getJob s j) + 4 * (getCtr s c.cl.key (bnCtr b)).win }) ∧
  (∀ (c : CoreId) (j : Nat) (b : W256) (off : Nat) (s : State), runSlot s c = some j →
    nextBn (getCore s c) = some (b, off) → (getCore s c).st = .waiting → (getCore s c).missed = false →
    (getJob s j).held = false → jobTime s (getJob s j) ≤ (getCore s c).dline → s.clk.dst % 4 = 0 →
    (getCtr s c.cl.key (bnCtr b)).deficit ≤ 0 →
    exec (.waitSatisfied c) s = .next (launchBundle s c j (jobTime s (getJob s j)) b off)) ∧
  (∀ (c : CoreId) (j : Nat) (b : W256) (off : Nat) (s : State), runSlot s c = some j →
    nextBn (getCore s c) = some (b, off) → (getCore s c).st = .waiting → (getCore s c).missed = false →
    (getCore s c).dline ≤ jobTime s (getJob s j) → 0 < (getCtr s c.cl.key (bnCtr b)).deficit →
    (∀ e ∈ s.cores, e.2.hpAt = none) → (getCore s c).hpAt = none →
    let late : Late := { core := c, cc := bnCtr b, d := (getCore s c).dline + (getJob s j).h }
    ∃ t, exec (.missedDeadline c) s = .next t ∧ getCore t c = { getCore s c with missed := true } ∧
      getJob t j = { getJob s j with pend := true, late := (getJob s j).late ++ [late],
                                     first := if (getJob s j).pend then (getJob s j).first else some late } ∧
      reg t (at' pgSCH (0x114 + 0x40 * j)) = (if (getJob s j).pend then reg s (at' pgSCH (0x114 + 0x40 * j))
        else satAdd (reg s (at' pgSCH (0x114 + 0x40 * j))) 1) ∧
      RegsKept s t [at' pgSCH (0x114 + 0x40 * j)] ∧ OnlyCore s { t with jobs := s.jobs, regs := s.regs } c ∧
      t = { s with cores := t.cores, jobs := t.jobs, regs := t.regs })

/-- The hold. With a hold pending, job time stops at the epoch E and no core launches its HP bundle; a row engine or
route unit that runs a command then raises its ORDER code, and the job faults; at the release R
the accumulator H becomes R - E and never falls, and the hold is over; a hold longer than the limit faults the job
with two entries that name the first late counter and its deadline. -/
def Obligations.HoldRows : Prop :=
  (∀ (j : Fin 4) (s : State), (getJob s j).st = .running → (getJob s j).pend = true → (getJob s j).held = false →
    epochNow s j = true → (∀ r, releaseAt s (getJob s j) (jobTime s (getJob s j)) = some r → s.clk.dst < r) →
    (∀ e ∈ s.clus, e.2.re.busy ≤ s.clk.dst ∧ e.2.rt.busy ≤ s.clk.dst) →
    ∃ t, exec (.holdEpochStop j) s = .next t ∧
      getJob t j = { getJob s j with held := true, e := jobTime s (getJob s j), stopAt := s.clk.dst } ∧
      (∀ n, jobTime { t with clk := { t.clk with dst := n } } (getJob t j) = jobTime s (getJob s j)) ∧
      (∀ e ∈ t.cores, (jobQuads s j).contains (e.1 / 1536) = true → e.2.st = .ready → ∀ b off, nextBn e.2 = some (b, off) →
        bnHP b = true → originOf s j e.2.seg + 4 * off ≠ jobTime s (getJob s j)) ∧
      t = { s with cores := t.cores, jobs := t.jobs }) ∧
  (∀ (j : Fin 4) (e : Nat × Cluster) (rt : Bool) (s : State), (getJob s j).st = .running → (getJob s j).pend = true →
    (getJob s j).held = false → epochNow s j = true →
    (∀ r, releaseAt s (getJob s j) (jobTime s (getJob s j)) = some r → s.clk.dst < r) →
    e ∈ s.clus → (jobQuads s j).contains (e.1 / 16) = true → s.clk.dst < (unitOf rt e.2).busy →
    NoneWaits s (unitPage rt e.1) → (s.clus.map Prod.fst).Nodup → e.1 < 64 →
    ∃ t, exec (.holdEpochStop j) s = .next t ∧ (getJob t j).st = .faulted ∧
      ∃ x ∈ t.ldg.wait, x.src = unitPage rt e.1 ∧ x.code = unitCode rt 4 ∧ x.sev = 3) ∧
  (∀ (j : Fin 4) (s : State), (getJob s j).st = .running → (getJob s j).pend = true →
    (getJob s j).held = true ∨ epochNow s j = true →
    releaseAt s (getJob s j) (jobTime s (getJob s j)) = some s.clk.dst →
    ∃ t, exec (.holdRelease j) s = .next t ∧ (getJob t j).h = s.clk.dst - jobTime s (getJob s j) ∧
      (getJob s j).h ≤ (getJob t j).h ∧ (getJob t j).held = false ∧ (getJob t j).pend = false ∧
      jobTime t (getJob t j) = jobTime s (getJob s j) ∧
      ((∀ e ∈ s.cores, (jobQuads s j).contains (e.1 / 1536) = true → e.2.st = .idle ∨ e.2.st = .done) →
        t = { s with jobs := t.jobs })) ∧
  (∀ (j : Fin 4) (l : Late) (s : State), (getJob s j).st = .running → (getJob s j).held = true →
    (getJob s j).first = some l → (reg s (at' pgSCH (0x110 + 0x40 * j))).toNat * 6000 < s.clk.dst - (getJob s j).stopAt →
    (s.ldg.wait.filter (fun e => e.src == pgSCH)).length ≤ 2 →
    let d0 := BitVec.ofNat 32 ((getJob s j).acc.toNat * 2 ^ 20 + j.val * 2 ^ 16)
    ∃ t rest, exec (.schHoldGiveup j) s = .next t ∧ (getJob t j).st = .faulted ∧
      t.ldg.wait = s.ldg.wait ++ [entryNow s pgSCH 3 0x0203 (getJob s j).acc d0
          (BitVec.ofNat 32 (l.cc + l.core.cl.c.val * 256)),
        entryNow s pgSCH 3 0x0203 (getJob s j).acc d0 (BitVec.ofNat 32 l.d)] ++ rest)

/-- The matrix slot's rows, for a bundle whose other slots are idle. MMA, MMZ, ALD and ACLR latch their descriptors and
take the unit for their issue interval; MMA and MMZ complete 12 core cycles and ALD 4 after it, ACLR with it; a masked
operation takes as long and has no event. ACLR writes +0 everywhere in its accumulator at once; the others leave the
accumulators until their events: the event that sums block j adds its exact products, rounded once, to each element m < M,
n < N (the first block of an MMZ to +0) and changes no other element, and ALD's writes the tile rounded to FP32. -/
def Obligations.MatrixSlot : Prop :=
  (∀ (c : CoreId) (j : Nat) (b : W256) (off : Nat) (s : State), Launches s c j b off →
    ctlOp b = 0 → stOp b = 0 → mvOp b = 0 →
    let w := bnMx b
    let k := latched s c j
    let p := mmaPlan c (tdLatch k (mxTda w)).1 (tdLatch k (mxTdb w)).1
    let q := loadPlan c (tdLatch k (mxTdc w)).1
    let masked := maskedBy (getClu s c.cl.key) (jobTime s (getJob s j)) c.k.val (mxMsk w)
    (∀ e ∈ [(1, Instr.mma c), (2, Instr.mmz c)], mxOp b = e.1 →
      ∃ t f, exec e.2 s = .next t ∧ OnlyCore s t c ∧ (getCore t c).mxFly = k.mxFly ++ [f] ∧
        Latches s c j b w [mxTda w, mxTdb w] (mxMsk w) (p.1 + 12) p.2 f ∧ f.outD = [] ∧
        (getCore t c).mxBusy = s.clk.dst + 4 * p.1 ∧ (getCore t c).acc = k.acc ∧
        (getCore t c).last = some off ∧ (getCore t c).bq = (launched s c j b off).bq) ∧
    (mxOp b = 3 →
      ∃ t f, exec (.ald c) s = .next t ∧ OnlyCore s t c ∧ (getCore t c).mxFly = k.mxFly ++ [f] ∧
        Latches s c j b w [mxTdc w] (mxMsk w) (q.1 + 4) (q.2 ++ [⟨q.1 + 3, .calc, 0, 0, 0, 0⟩]) f ∧ f.outD = [] ∧
        (getCore t c).mxBusy = s.clk.dst + 4 * q.1 ∧ (getCore t c).acc = k.acc) ∧
    (mxOp b = 6 →
      ∃ t f, exec (.aclr c) s = .next t ∧ OnlyCore s t c ∧ (getCore t c).mxFly = k.mxFly ++ [f] ∧
        Latches s c j b w [] (mxMsk w) 1 [] f ∧ (getCore t c).mxBusy = s.clk.dst + 4 ∧
        (∀ a m n, m < 64 → n < 64 → accGet (getCore t c) a m n =
          if masked = false ∧ a = mxAcc w then 0 else accGet k a m n))) ∧
  (∀ (c : CoreId) (f : OpFly) (e : Ev) (s : State),
    let A := tdOf (f.tds.getD 0 0)
    let B := tdOf (f.tds.getD 1 0)
    let op := fld f.w 63 58
    let rd := heldByte f.held none
    e.kind = .calc → A.pRows ≤ 64 →
    (op = 1 ∨ op = 2 → e.sub ≠ 0 → B.pCols ≤ 64 →
      OnlyCore s (mxEvent s c f e).1 c ∧ (mxEvent s c f e).2.outD = f.outD ∧
      (∀ a m n, m < 64 → n < 64 → accGet (getCore (mxEvent s c f e).1 c) a m n =
        if a = mxAcc f.w ∧ m < A.pRows ∧ n < B.pCols then
          (accBlocks (if op = 2 ∧ e.grp = 0 then 0 else accGet (getCore s c) a m n) [blockProducts rd c A B e.grp m n]).1
        else accGet (getCore s c) a m n)) ∧
    (op = 3 → A.pCols ≤ 64 →
      OnlyCore s (mxEvent s c f e).1 c ∧
      (∀ a m n, m < 64 → n < 64 → accGet (getCore (mxEvent s c f e).1 c) a m n =
        if a = mxAcc f.w ∧ m < A.pRows ∧ n < A.pCols then rne (presented rd c A m n)
        else accGet (getCore s c) a m n)))

/-- AST and ASTS: the tile's bytes, converted at the launch from the accumulator (times s for ASTS) by RND into C's
format, wait for the events that write their lines; the accumulators and memory stay as they were, and the unit is busy
for the issue interval, four core cycles before completion. A masked one takes as long and carries no byte. An event that
writes a line stores the bytes that wait for it and no other. -/
def Obligations.AccumulatorStores : Prop :=
  (∀ (c : CoreId) (j : Nat) (b : W256) (off : Nat) (s : State), Launches s c j b off →
    ctlOp b = 0 → stOp b = 0 → mvOp b = 0 →
    let w := bnMx b
    let k := latched s c j
    let jt := jobTime s (getJob s j)
    let C := (tdLatch k (mxTdc w)).1
    let masked := maskedBy (getClu s c.cl.key) jt c.k.val (mxMsk w)
    let p := storePlan c C
    ∀ e ∈ [(4, Instr.ast c), (5, Instr.asts c)], mxOp b = e.1 →
      let rows := (List.range C.rows).map (fun m => (List.range C.cols).map (fun n =>
        if e.1 = 5 then Ext.mul (sclF (getClu s c.cl.key) jt (mxScl w)) (val (accGet k (mxAcc w) m n))
        else val (accGet k (mxAcc w) m n)))
      ∃ t f, exec e.2 s = .next t ∧ OnlyCore s t c ∧ (getCore t c).mxFly = k.mxFly ++ [f] ∧
        (getCore t c).acc = k.acc ∧ (getCore t c).mxBusy = s.clk.dst + 4 * p.1 ∧
        Latches s c j b w [mxTdc w] (mxMsk w) (p.1 + 4) p.2 f ∧
        f.outD = (if masked then [] else (storeTile c C (mxRnd w) (tolOf s c.cl)
          (drawOf s c.cl jt C.tag c.k.val 0) (Config.padBits f.pad) rows).1) ∧
        (masked = false → f.cnt.trunc = if truncFlag k (mxAcc w) then 1 else 0)) ∧
  (∀ (c : CoreId) (f : OpFly) (e : Ev) (s : State), e.kind = .wr → s.flaws = [] →
    (mxEvent s c f e).2 = { f with outD := f.outD.filter (fun x => lineOf x.1 != e.line) } ∧
    (mxEvent s c f e).1 = wrCells s (f.outD.filter (fun x => lineOf x.1 == e.line)))

/-- Every stream row, for a bundle whose other slots are idle: the operation takes the stream unit until launch + I with
its descriptors, scalar, seeds and events latched; no byte is stored and no accumulator changes yet; a masked operation
takes as long and has no event. A group reads only lines that its beat needs and writes only lines that the beat eight
groups before completed, of d or of TDR. A beat puts into its destination's bytes, for each column, the opcode's exact
result of the sources' elements rounded once by RND into d's format (COPY the source's own bytes), and keeps what was
there. -/
def Obligations.StreamSlot : Prop :=
  (∀ (c : CoreId) (j : Nat) (b : W256) (off : Nat) (s : State), Launches s c j b off →
    ctlOp b = 0 → mxOp b = 0 → mvOp b = 0 →
    let w := bnSt b
    let k := latched s c j
    let d := (tdLatch k (stTdd w)).1
    let p := streamPlan c d ((stSrcs w).map (fun n => (tdLatch k n).1)) (stRed w) (tdLatch k (stTdr w)).1
    ∀ e ∈ streamRows, stOp b = e.1 →
      ∃ t f, exec (e.2 c) s = .next t ∧ OnlyCore s t c ∧
        getCore t c = { launched s c j b off with stBusy := s.clk.dst + 4 * p.1, stFly := k.stFly ++ [f] } ∧
        Latches s c j b w (stTdd w :: stSrcs w ++ [stTdr w]) (stMsk w) p.1 p.2 f ∧ f.outD = [] ∧
        f.scl = sclF (getClu s c.cl.key) (jobTime s (getJob s j)) (stScl w) ∧
        f.draw = drawOf s c.cl (jobTime s (getJob s j)) d.tag c.k.val 1 ∧ f.tol = tolOf s c.cl ∧ f.cnt = Counts.none) ∧
  (∀ (c : CoreId) (d r : Td) (srcs : List Td) (red : Nat), ∀ e ∈ (streamPlan c d srcs red r).2,
    e.at' < (streamPlan c d srcs red r).1 ∧
    (e.kind = .rd → e.grp < numBeats d ∧ ∃ x, srcs[e.sub]? = some x ∧ e.line ∈ srcLines c d x e.grp) ∧
    (e.kind = .wr → 8 ≤ e.grp ∧ (e.sub = 0 ∧ e.line ∈ dstLines c d (e.grp - 8) ∨
      e.sub = 1 ∧ e.line ∈ redLines c d r red (e.grp - 8)))) ∧
  (∀ (c : CoreId) (d r : Td) (srcs : List Td) (j i x : Nat) (f : OpFly), d.fmt ∈ [0, 1, 2, 3, 4, 8] →
    i < 32 → 32 * (j % beatsPerRow d) + i < d.cols → x < fmtBits d.fmt / 8 →
    let row := j / beatsPerRow d
    let col := 32 * (j % beatsPerRow d) + i
    let u := if stRnd f.w = 1 then drawAt f.draw d.cols row col else 0
    (∀ y ∈ f.outD, y ∈ (streamBeat f c d r srcs j).outD) ∧
    (fld f.w 63 58 ≠ 0x0F → (rowAddr c d row + col * (fmtBits d.fmt / 8) + x,
      (bytesOf (fmtBits d.fmt / 8) (storeCode d.fmt (stRnd f.w) u (beatVal f c srcs row col))).getD x 0)
        ∈ (streamBeat f c d r srcs j).outD) ∧
    (fld f.w 63 58 = 0x0F → ∀ y, srcs.head? = some y → (rowAddr c d row + col * (fmtBits d.fmt / 8) + x,
      heldByte f.held (some 0) (rowAddr c y (srcRowOf y row) + col * (fmtBits d.fmt / 8) + x))
        ∈ (streamBeat f c d r srcs j).outD))

/-- Operations of the matrix and the stream unit at their ticks, with no error in memory. The events of an operation that
fall due at this Datestamp are carried, those that read and sum before those that write, and leave its plan. A completion
row takes the oldest operation that is due out of its unit, writes no memory, and hands the shadow unit the summary of
an AST, an ASTS or a stream operation that was not masked. -/
def Obligations.UnitCompletes : Prop :=
  (∀ (c : CoreId) (f : OpFly) (evs : List Ev) (s : State), s.flaws = [] → OnlyEvents s c Core.mxFly f evs →
    let r := inPhases (fun s f e => mxEvent s c f e) evs (s, f)
    getCore (runCores s) c = { getCore r.1 c with mxFly := [{ r.2 with plan := f.plan.drop evs.length }] } ∧
    (∀ d : CoreId, d ≠ c → getCore (runCores s) d = getCore r.1 d) ∧
    runCores s = { r.1 with cores := (runCores s).cores }) ∧
  (∀ (c : CoreId) (f : OpFly) (evs : List Ev) (s : State), s.flaws = [] → OnlyEvents s c Core.stFly f evs →
    let r := inPhases (fun s f e => stEvent s c f e) evs (s, f)
    getCore (runCores s) c = { getCore r.1 c with stFly := [{ r.2 with plan := f.plan.drop evs.length }] } ∧
    (∀ d : CoreId, d ≠ c → getCore (runCores s) d = getCore r.1 d) ∧
    runCores s = { r.1 with cores := (runCores s).cores }) ∧
  (∀ (c : CoreId) (f : OpFly) (rest : List OpFly) (s : State), (getCore s c).mxFly = f :: rest → f.due ≤ s.clk.dst →
    let op := fld f.w 63 58
    let tag := (tdOf (f.tds.getD 0 0)).tag
    ∃ t, exec (.matrixOpComplete c) s = .next t ∧ getCore t c = { getCore s c with mxFly := rest } ∧
      t = { s with cores := t.cores, clus := t.clus, regs := t.regs } ∧
      (f.live = false ∨ (op ≠ 4 ∧ op ≠ 5) → t = { s with cores := t.cores }) ∧
      (f.live = true → op = 4 ∨ op = 5 → ((getClu s c.cl.key).sums.filter (fun x => x.src == c.k.val)).length < 4 →
        getClu t c.cl.key = { getClu s c.cl.key with sums := (getClu s c.cl.key).sums
          ++ [{ src := c.k.val, tag := tag, step := f.step, cnt := f.cnt, rtag := 0, rtrunc := f.trunc }] })) ∧
  (∀ (c : CoreId) (f : OpFly) (rest : List OpFly) (s : State), (getCore s c).stFly = f :: rest → f.due ≤ s.clk.dst →
    ∃ t, exec (.streamOpComplete c) s = .next t ∧ getCore t c = { getCore s c with stFly := rest } ∧
      t = { s with cores := t.cores, clus := t.clus, regs := t.regs } ∧
      (f.live = false → t = { s with cores := t.cores }) ∧
      (f.live = true → ((getClu s c.cl.key).sums.filter (fun x => x.src == c.k.val)).length < 4 →
        getClu t c.cl.key = { getClu s c.cl.key with sums := (getClu s c.cl.key).sums
          ++ [{ src := c.k.val, tag := (tdOf (f.tds.headD 0)).tag, step := f.step, cnt := f.cnt
                rtag := (tdOf (f.tds.getLastD 0)).tag, rtrunc := f.trunc }] }))

/-- FP32 values are kept: a value that FP32 can hold rounds to itself, subnormals, zeros of both signs and infinities
included. The special values of the stream opcodes are those of R111. -/
def Obligations.FloatingValues : Prop :=
  (∀ w : W32, (val w).isNan = false → rne (val w) = w) ∧
  (∀ (s x y z : Ext) (op : Nat), op ∈ [1, 2, 3, 4, 7, 8, 9, 0xA, 0xB, 0xE] → x.isNan = true →
    (streamElem op s x y z).isNan = true) ∧
  (∀ (s x y z : Ext), x.isNan = true ∨ y.isNan = true →
    (streamElem 5 s x y z).isNan = true ∧ (streamElem 6 s x y z).isNan = true ∧ streamElem 0xD s x y z = Ext.zero) ∧
  (∀ (s x y z : Ext), z.isNan = true → streamElem 0xC s x y z = x) ∧
  (∀ x : Ext, x.isNan = true → fnExp x = 0x7FC00000 ∧ fnLog x = 0x7FC00000 ∧ fnRecip x = 0x7FC00000 ∧
    fnRsqrt x = 0x7FC00000 ∧ fnTanh x = 0x7FC00000 ∧ fnSigmoid x = 0x7FC00000 ∧ fnGelu x = 0x7FC00000) ∧
  (∀ (n : Bool) (e : Int), fnLog (.fin n 0 e) = 0xFF800000 ∧
    fnRecip (.fin n 0 e) = (if n then 0xFF800000 else 0x7F800000) ∧
    fnRsqrt (.fin n 0 e) = (if n then 0xFF800000 else 0x7F800000)) ∧
  (∀ (m : Nat) (e : Int), m ≠ 0 → fnLog (.fin true m e) = 0x7FC00000 ∧ fnRsqrt (.fin true m e) = 0x7FC00000) ∧
  (fnGelu (.inf true) = 0x80000000 ∧ fnGelu (.inf false) = 0x7F800000) ∧
  (∀ (s y z : Ext) (n : Bool) (e : Int), streamElem 0x17 s (.fin n 0 e) y z = Ext.zero)

/-- The move slot's rows, for a bundle whose other slots are idle. MOV, PUT, GET, RED and SIG put one move at the end
of the core's queue, with the descriptor, offset, counter and step number as latched, and move no byte. LDTD reads its
16 shelf bytes now and its descriptor is first seen at launch + 10; STTD carries the descriptor as latched to 16 shelf
bytes, which its event stores, and completes at launch + 1. -/
def Obligations.MoveSlot : Prop :=
  (∀ (c : CoreId) (j : Nat) (b : W256) (off : Nat) (s : State), Launches s c j b off →
    ctlOp b = 0 → mxOp b = 0 → stOp b = 0 →
    let w := bnMv b
    let k := latched s c j
    (∀ e ∈ queuedMoveRows, mvOp b = e.1 →
      ∃ t m, exec (e.2 c) s = .next t ∧ OnlyCore s t c ∧
        getCore t c = { launched s c j b off with mq := (getCore s c).mq ++ [m] } ∧
        m.op = e.1 ∧ m.md = tget 0 k.md (mvMd w) ∧ m.ofs = mvOfs w ∧ m.launch = s.clk.dst ∧ m.start = none ∧
        m.plan = [] ∧ m.held = [] ∧ m.cc = (if mvCCE w then some (mvCC w) else none) ∧
        m.step = (if e.1 = 4 then sReg (getClu s c.cl.key) (jobTime s (getJob s j)) (mvSstep w) else 0) ∧
        m.masked = (decide (e.1 = 1) && maskedBy (getClu s c.cl.key) (jobTime s (getJob s j)) c.k.val (mvMsk w))) ∧
    (mvOp b = 6 → s.flaws = [] →
      k.tdPend.find? (tdMeet s.clk.dst (jobTime s (getJob s j)) (ldtdPend s c b)) = none →
      ∃ t, exec (.ldtd c) s = .next t ∧ OnlyCore s t c ∧ getCore t c = { launched s c j b off with
        tdFly := k.tdFly ++ [ldtdOp s c w], tdPend := k.tdPend ++ [ldtdPend s c b] }) ∧
    (mvOp b = 7 →
      ∃ t, exec (.sttd c) s = .next t ∧ OnlyCore s t c ∧ getCore t c = { launched s c j b off with
        tdFly := k.tdFly ++ [sttdOp s c w (tget 0 k.td (mvTd w))] })) ∧
  (∀ (c : CoreId) (o : TdOp) (e : Ev) (s : State), s.flaws = [] →
    tdEvent s c o e = if e.kind = .wr then (wrCells s o.out, { o with out := [] }) else (s, o))

/-- The move engine. The head of the queue starts at the later of its launch and the end of issue before it, never
sooner, and holds the engine for its lines, with its events; a masked one has none; one whose path uses a closed
neighbour link is dropped and its job faults, and so does a reported meeting at a quadrant output. A line is read into
the move, and a destination line takes the bytes at the same places of the source rows. A completed move writes no
memory, counts in CLU_MOVE_CNT and credits its counter, an LDTD or STTD that is due credits its counter. An LDTD or STTD
that meets a line of a queued move is dropped and the job faults. -/
def Obligations.MoveEngine : Prop :=
  (∀ (c : CoreId) (j : Nat) (m : Move) (rest : List Move) (s : State), runSlot s c = some j →
    (getCore s c).mq = m :: rest →
    let x := max m.launch (getCore s c).mvFree
    let k := getCore s c
    (s.clk.dst < x → ∀ y, exec (.moveIssueStart c y) s = .next s) ∧
    (x ≤ s.clk.dst → ∀ (a : End) (b : Option End), m.op ≠ 3 → m.op ≠ 5 → mdEnds s c m.op m.md m.ofs = some (a, b) →
      m.masked = true ∨ pathClosed s j c.cl.q.val (otherQuad c a b) = false →
      ∃ t, exec (.moveIssueStart c none) s = .next t ∧ OnlyCore s t c ∧ getCore t c = { k with
        mq := rest, mvFree := x + 4 * m.lines
        mvFly := k.mvFly ++ [{ m with start := some x
                                      plan := placeEvs x (if m.masked then [] else movePlan m a b) }] }) ∧
    (x ≤ s.clk.dst → ∀ (a : End) (b : Option End), m.op ≠ 3 → m.op ≠ 5 → mdEnds s c m.op m.md m.ofs = some (a, b) →
      m.masked = false → pathClosed s j c.cl.q.val (otherQuad c a b) = true →
      ∃ t, exec (.moveIssueStart c none) s = .next t ∧ (getCore t c).mq = rest ∧ (getCore t c).mvFly = k.mvFly ∧
        (getJob t j).st = .faulted ∧ t.mem = s.mem) ∧
    (x ≤ s.clk.dst → ∀ (y : Collision) (i : Nat), residentOn s c.cl.q.val = some i →
      ∃ t, exec (.moveIssueStart c (some y)) s = .next t ∧ (getJob t i).st = .faulted)) ∧
  (∀ (c : CoreId) (j : Nat) (m : Move) (a b : End) (e : Ev) (s : State), jobOn s c.cl.q.val = some j →
    mdEnds s c m.op m.md m.ofs = some (a, some b) → s.flaws = [] → spaceOf (64 * e.line) ≠ 0 →
    (e.kind = .rd → mvEvent s c m e = (s, { m with held := (e.line, rdBytes s (64 * e.line) 64) :: m.held })) ∧
    (e.kind = .wr → mvEvent s c m e = (wrCells s (lineCells m a b e.grp e.line), m)) ∧
    (mdTrs m.md = false → ∀ i p q : Nat, (a.rowAddrs e.grp)[i]? = some p → (b.rowAddrs e.grp)[i]? = some q → q / 64 = e.line →
      (q, movedByte m.held p) ∈ lineCells m a b e.grp e.line)) ∧
  (∀ (c : CoreId) (m : Move) (rest : List Move) (x : Nat) (s : State), (getCore s c).mvFly = m :: rest →
    moveDue m = some x → x ≤ s.clk.dst →
    let p := at' (pgCLU c.cl.q.val c.cl.c.val) 0x188
    ∃ t, exec (.moveComplete c) s = .next t ∧ getCore t c = { getCore s c with mvFly := rest } ∧
      reg t p = satAdd (reg s p) 1 ∧ RegsKept s t [p] ∧
      (m.cc = none → t = { s with cores := t.cores, regs := t.regs }) ∧
      (∀ n, m.cc = some n → getCtr t c.cl.key n = { getCtr s c.cl.key n with
          sum := (getCtr s c.cl.key n).sum - 1, at' := s.clk.dst } ∧ (c.cl.key, n) ∈ t.dirty ∧
        t = { s with cores := t.cores, regs := t.regs, clus := t.clus, dirty := t.dirty })) ∧
  (∀ (c : CoreId) (o : TdOp) (rest : List TdOp) (s : State), (getCore s c).mvFly = [] →
    (getCore s c).tdFly = o :: rest → o.due ≤ s.clk.dst →
    ∃ t, exec (.moveComplete c) s = .next t ∧ getCore t c = { getCore s c with tdFly := rest } ∧
      (o.cc = none → OnlyCore s t c) ∧
      (∀ n, o.cc = some n → getCtr t c.cl.key n = { getCtr s c.cl.key n with
          sum := (getCtr s c.cl.key n).sum - 1, at' := s.clk.dst } ∧ (c.cl.key, n) ∈ t.dirty ∧
        t = { s with cores := t.cores, clus := t.clus, dirty := t.dirty })) ∧
  (∀ (c : CoreId) (o : TdOp) (i : Nat) (s : State),
    s.cores.filter (fun e => coreDue s e.2) = [(c.key, getCore s c)] → (∀ e ∈ s.clus, cluDue s e.2 = false) →
    issuing s (getCore s c) = true → (getCore s c).tdFly = [o] → dueEvs s o.plan ≠ [] →
    (∀ f ∈ (getCore s c).mxFly ++ (getCore s c).stFly, dueEvs s f.plan = []) →
    (∀ m ∈ (getCore s c).mvFly, dueEvs s m.plan = []) → residentOn s c.cl.q.val = some i →
    (getCore (runCores s) c).tdFly = [] ∧ (getJob (runCores s) i).st = .faulted ∧ (runCores s).mem = s.mem)

/-- PATROL_SCRUB. The row is read within the controller's window, its 1,024 bytes charged; in throttle, or where the
window has no room left, the scrub waits. A clean row changes nothing more; a row with corrected errors counts them in
MC_CE_CNT and is noted for this pass, and one that also showed them in an earlier pass is queued once for post-package
repair, with its entry and MC_PPR_PEND; an uncorrectable one is logged for no job and faults none. No byte of memory
changes. -/
def Obligations.PatrolScrub : Prop :=
  ∀ (m : Fin 12) (row : Nat) (s : State),
    let p := pgMC (m.val / 3) (m.val % 3)
    let wn := s.clk.dst / 2048
    let b := tget 0 (getMc s m).wins wn + 1024
    (quadThrottle s (m.val / 3) = true ∨ 786432 < b → ∀ e n, exec (.patrolScrub m row e n) s = .next s) ∧
    (quadThrottle s (m.val / 3) = false → b ≤ 786432 → ∀ e : Bool, (∀ f ∈ rowFlaws s m row, f.2 ≠ 2) →
      let n := ((rowFlaws s m row).filter (fun f => f.2 == 1)).length + (if e then 1 else 0)
      ∃ t, exec (.patrolScrub m row e false) s = .next t ∧ tget 0 (getMc t m).wins wn = b ∧
        reg t (at' p 0x110) = BitVec.ofNat 32 (max (reg s (at' p 0x110)).toNat b) ∧
        reg t (at' p 0x100) = satAdd (reg s (at' p 0x100)) n ∧ (getMc t m).prev = (getMc s m).prev ∧
        (n = 0 → getMc t m = { getMc s m with wins := (getMc t m).wins } ∧ RegsKept s t [at' p 0x110] ∧
          t = { s with mcs := t.mcs, regs := t.regs }) ∧
        (0 < n → row ∉ (getMc s m).prev → row ∈ (getMc t m).seen ∧ (getMc t m).ppr = (getMc s m).ppr ∧
          t = { s with mcs := t.mcs, regs := t.regs }) ∧
        (0 < n → row ∈ (getMc s m).prev → row ∉ (getMc s m).ppr → (getMc t m).ppr = (getMc s m).ppr ++ [row] ∧
          reg t (at' p 0x118) = BitVec.ofNat 32 ((getMc s m).ppr.length + 1) ∧
          Logged s t pgRPR 1 0x1007 0 (BitVec.ofNat 32 (m.val / 3 * 2 ^ 30)) 0 ∧
          t = { s with mcs := t.mcs, regs := t.regs, ldg := t.ldg })) ∧
    (quadThrottle s (m.val / 3) = false → b ≤ 786432 → ∀ (e n : Bool) (f : Nat × Nat), f ∈ rowFlaws s m row → f.2 = 2 →
      NoneWaits s p →
      ∃ t, exec (.patrolScrub m row e n) s = .next t ∧ t.mem = s.mem ∧ t.jobs = s.jobs ∧
        ∃ x ∈ t.ldg.wait, x.src = p ∧ x.code = 0x0707 ∧ x.sev = 2 ∧ x.acc = 0)

/-- The control core's rows that write S[D]: ALU, the immediate forms, SHI, LUI, LW, MGET, RDCC and RDJ. Each writes its
value to S[D], S0 discards it, and the next instruction issues one control edge later.
The ALU's integer functions as numbers: wrapping sums and products, signed minimum, maximum and comparison, shifts
by the low five bits of B, and FTOI's saturation and NaN. A reserved FN has none. -/
def Obligations.ControlWrites : Prop :=
  (∀ (cl : Clu) (j : Nat) (w : W32) (s : State), CtlReady s cl j w →
    let k := getClu s cl.key
    let jt := jobTime s (getJob s j)
    let a := curS k (ciA w)
    (∀ v, fld w 31 26 = 0 → aluFn (fld w 7 0) a (curS k (ciB w)) = some v →
      ∃ t, exec (.alu cl) s = .next t ∧ CtlWrote s t cl (ciD w) v) ∧
    (∀ e ∈ [(1, Instr.addi cl, a + BitVec.ofInt 32 (sfld w 13 0)), (2, .andi cl, a &&& BitVec.ofInt 32 (sfld w 13 0)),
        (3, .ori cl, a ||| BitVec.ofInt 32 (sfld w 13 0)), (4, .xori cl, a ^^^ BitVec.ofInt 32 (sfld w 13 0)),
        (6, .lui cl, BitVec.ofNat 32 (fld w 19 0 * 4096)),
        (0x13, .rdj cl, BitVec.ofInt 32 (((jt : Int) - curOrigin s j jt) / 4))],
      fld w 31 26 = e.1 → ∃ t, exec e.2.1 s = .next t ∧ CtlWrote s t cl (ciD w) e.2.2) ∧
    (fld w 31 26 = 5 → fld w 13 7 = 0 → ∀ v, (fld w 6 5 = 0 ∧ v = a <<< fld w 4 0) ∨
        (fld w 6 5 = 1 ∧ v = a >>> fld w 4 0) ∨ (fld w 6 5 = 2 ∧ v = a.sshiftRight (fld w 4 0)) →
      ∃ t, exec (.shi cl) s = .next t ∧ CtlWrote s t cl (ciD w) v) ∧
    (fld w 31 26 = 7 → ∀ x : Nat, (x : Int) = a.toInt + sfld w 13 0 → x % 4 = 0 → x < 65536 →
      ∃ t, exec (.lw cl) s = .next t ∧ CtlWrote s t cl (ciD w) (tget 0 k.dmem (x / 4))) ∧
    (fld w 31 26 = 0x11 → fld w 1 0 ≠ 3 → fld w 13 2 = 0 → fld w 19 17 = 0 →
      ∃ t, exec (.mget cl) s = .next t ∧
        CtlWrote s t cl (ciD w) (BitVec.ofNat 32 ((curM k (fld w 16 14)).toNat >>> (32 * fld w 1 0)))) ∧
    (fld w 31 26 = 0x12 → fld w 13 5 = 0 →
      ∃ t, exec (.rdcc cl) s = .next t ∧
        CtlWrote s t cl (ciD w) (BitVec.ofInt 32 (getCtr s cl.key (fld w 4 0)).deficit))) ∧
  (∀ a b : W32, ∃ v, aluFn 0 a b = some v ∧ v.toNat = (a.toNat + b.toNat) % 2 ^ 32) ∧
  (∀ a b : W32, ∃ v, aluFn 1 a b = some v ∧ (v.toInt - (a.toInt - b.toInt)) % 2 ^ 32 = 0) ∧
  (∀ (a b : W32) (i : Nat), ∃ x y z, aluFn 2 a b = some x ∧ aluFn 3 a b = some y ∧ aluFn 4 a b = some z ∧
    bit x i = (bit a i && bit b i) ∧ bit y i = (bit a i || bit b i) ∧ bit z i = (bit a i != bit b i)) ∧
  (∀ a b : W32, ∃ v, aluFn 5 a b = some v ∧ v.toNat = a.toNat * 2 ^ (b.toNat % 32) % 2 ^ 32) ∧
  (∀ a b : W32, ∃ v, aluFn 6 a b = some v ∧ v.toNat = a.toNat / 2 ^ (b.toNat % 32)) ∧
  (∀ a b : W32, ∃ v, aluFn 7 a b = some v ∧ v.toInt = a.toInt / 2 ^ (b.toNat % 32)) ∧
  (∀ a b : W32, ∃ v, aluFn 8 a b = some v ∧ v.toNat = a.toNat * b.toNat % 2 ^ 32) ∧
  (∀ a b : W32, ∃ v, aluFn 9 a b = some v ∧ v.toInt = min a.toInt b.toInt) ∧
  (∀ a b : W32, ∃ v, aluFn 0xA a b = some v ∧ v.toInt = max a.toInt b.toInt) ∧
  (∀ a b : W32, aluFn 0xB a b = some (if a.toInt < b.toInt then 1 else 0)) ∧
  (∀ a b : W32, aluFn 0xC a b = some (if a.toNat < b.toNat then 1 else 0)) ∧
  (∀ a b : W32, ∃ v, aluFn 0x16 a b = some v ∧ ((val a).isNan = true → v = 0) ∧
    (∀ n m e, val a = .fin n m e → v.toInt = max (-2147483648) (min 2147483647 (Ext.roundInt (val a)))) ∧
    (∀ n, val a = .inf n → v.toInt = if n then -2147483648 else 2147483647)) ∧
  (∀ (a b : W32) (fn : Nat), 0xC < fn ∧ fn < 0x10 ∨ 0x16 < fn → aluFn fn a b = none)

/-- Branches and JMP. A condition that holds takes pc to pc + IMM within instruction memory with one idle edge; one that
fails goes on to the next instruction; no register changes. A reserved opcode is illegal:
the job of the cluster's quadrant faults. -/
def Obligations.ControlBranches : Prop :=
  (∀ (cl : Clu) (j : Nat) (w : W32) (s : State), CtlReady s cl j w →
    let k := getClu s cl.key
    let d := curS k (ciD w)
    let a := curS k (ciA w)
    (∀ e ∈ [(9, Instr.beq cl, decide (d = a)), (0xA, .bne cl, decide (d ≠ a)), (0xB, .blt cl, decide (d.toInt < a.toInt)),
        (0xC, .bge cl, decide (a.toInt ≤ d.toInt))], fld w 31 26 = e.1 →
      (e.2.2 = true → ∀ n : Nat, (n : Int) = k.pc + sfld w 13 0 → n < 4096 →
        ∃ t, exec e.2.1 s = .next t ∧ OnlyClu s t cl ∧
          getClu t cl.key = { k with pc := n, nextJ := s.clk.dst + 12, stall := none }) ∧
      (e.2.2 = false → ∃ t, exec e.2.1 s = .next t ∧ OnlyClu s t cl ∧
          getClu t cl.key = { k with pc := k.pc + 1, nextJ := s.clk.dst + 6, stall := none })) ∧
    (fld w 31 26 = 0xD → ∀ n : Nat, (n : Int) = k.pc + sfld w 25 0 → n < 4096 →
      ∃ t, exec (.jmp cl) s = .next t ∧ OnlyClu s t cl ∧
        getClu t cl.key = { k with pc := n, nextJ := s.clk.dst + 12, stall := none })) ∧
  (∀ (cl : Clu) (j i : Nat) (w : W32) (s : State), CtlReady s cl j w → residentOn s cl.q.val = some i → 0x14 < fld w 31 26 →
    ∃ t, exec (.alu cl) s = .next t ∧ (getJob t i).st = .faulted ∧ t.clk = s.clk ∧ t.cus = s.cus)

/-- SW, WAITJ, ARMC, MSET and TDW. SW writes one data word; WAITJ stalls until its job time, not at all when that has
come; ARMC adds S[A] to DEF with the other changes of its core cycle and sets the window; MSET changes one word of one
mask by its FN, and one that meets a GATE of its mask is dropped and faults the job; TDW hands TDn to every core of the
mask, first seen at the first core edge from T + 24 on.
At the end of a core cycle a counter takes the sum of its changes; where DEF would leave its range it keeps its value
and CTR_RANGE faults the job. -/
def Obligations.ControlEffects : Prop :=
  (∀ (cl : Clu) (j : Nat) (w : W32) (s : State), CtlReady s cl j w →
    let k := getClu s cl.key
    let jt := jobTime s (getJob s j)
    (fld w 31 26 = 8 → ∀ x : Nat, (x : Int) = (curS k (ciA w)).toInt + sfld w 13 0 → x % 4 = 0 → x < 65536 →
      ∃ t, exec (.sw cl) s = .next t ∧ OnlyClu s t cl ∧ getClu t cl.key = { k with
          dmem := (getClu t cl.key).dmem, pc := k.pc + 1, nextJ := s.clk.dst + 6, stall := none } ∧
        (∀ n, tget 0 (getClu t cl.key).dmem n = if n = x / 4 then curS k (ciD w) else tget 0 k.dmem n)) ∧
    (fld w 31 26 = 0xE →
      let x : Int := curOrigin s j jt + 4 * ((curS k (ciA w)).toInt + sfld w 13 0)
      ∃ t, exec (.waitj cl) s = .next t ∧ OnlyClu s t cl ∧ getClu t cl.key = { k with
        pc := k.pc + 1, nextJ := s.clk.dst + 6, stall := if (jt : Int) < x then some x else none }) ∧
    (fld w 31 26 = 0xF →
      let n := fld w 25 21
      ∃ t, exec (.armc cl) s = .next t ∧
        getCtr t cl.key n = { getCtr s cl.key n with
          sum := (getCtr s cl.key n).sum + (curS k (fld w 20 15)).toInt, win := fld w 14 0, at' := s.clk.dst } ∧
        (∀ m, m ≠ n → getCtr t cl.key m = getCtr s cl.key m) ∧ (cl.key, n) ∈ t.dirty ∧
        getClu t cl.key = { k with cc := (getClu t cl.key).cc, pc := k.pc + 1, nextJ := s.clk.dst + 6, stall := none } ∧
        (∀ i, i ≠ cl.key → getClu t i = getClu s i) ∧ t = { s with clus := t.clus, dirty := t.dirty }) ∧
    (fld w 31 26 = 0x10 → fld w 22 21 ≠ 3 → fld w 14 12 ≤ 3 → fld w 11 0 = 0 →
      (gateMeets s k (fld w 25 23) = none → ∃ t, exec (.mset cl) s = .next t ∧ OnlyClu s t cl ∧
        (∀ i, i < 96 → bit (curM (getClu t cl.key) (fld w 25 23)) i =
          if i / 32 = fld w 22 21 then
            (let a := bit (curS k (fld w 20 15)) (i % 32)
             let o := bit (curM k (fld w 25 23)) i
             if fld w 14 12 = 0 then a else if fld w 14 12 = 1 then o && a else if fld w 14 12 = 2 then o || a else o && !a)
          else bit (curM k (fld w 25 23)) i) ∧
        (∀ m, m < 8 → m ≠ fld w 25 23 → curM (getClu t cl.key) m = curM k m) ∧
        (∀ r, r < 64 → curS (getClu t cl.key) r = curS k r) ∧ (getClu t cl.key).pc = k.pc + 1) ∧
      (∀ (g : GateRun) (i : Nat), gateMeets s k (fld w 25 23) = some g → residentOn s cl.q.val = some i →
        NoneWaits s (pgRT cl.q.val cl.c.val) →
        ∃ t, exec (.mset cl) s = .next t ∧ (getJob t i).st = .faulted ∧ t.mem = s.mem ∧
          ∃ e ∈ t.ldg.wait, e.src = pgRT cl.q.val cl.c.val ∧ e.code = 0x0909 ∧ e.sev = 3)) ∧
    (fld w 31 26 = 0x14 → fld w 16 11 ≤ 60 → fld w 10 0 = 0 →
      let a := fld w 16 11
      let v : W128 := BitVec.ofNat 128 ((curS k a).toNat + (curS k (a + 1)).toNat * 2 ^ 32
        + (curS k (a + 2)).toNat * 2 ^ 64 + (curS k (a + 3)).toNat * 2 ^ 96)
      (∀ n : Fin 96, (getCore s { cl := cl, k := n }).tdPend = []) →
      ∃ t, exec (.tdw cl) s = .next t ∧ (getClu t cl.key).pc = k.pc + 1 ∧ t = { s with cores := t.cores, clus := t.clus } ∧
        (∀ n : Fin 96, getCore t { cl := cl, k := n } = if bit (curM k (fld w 25 23)) n then
          { getCore s { cl := cl, k := n } with
            tdPend := [{ byJob := true, vis := 4 * ((jt + 24 + 3) / 4), td := fld w 22 17, val := v, ovr := false
                         rank := 3, d0 := d0Core 0xFF k.pc, slot := 0 }] }
          else getCore s { cl := cl, k := n }) ∧
        (∀ d : CoreId, d.cl.key ≠ cl.key → getCore t d = getCore s d))) ∧
  (∀ (k n : Nat) (s : State),
    let c := getCtr s k n
    let d := c.deficit + c.sum
    (-8388608 ≤ d → d ≤ 8388607 →
      getCtr (ctrSettle s (k, n)) k n = { c with
        deficit := d, sum := 0, met := if 0 < c.deficit ∧ d ≤ 0 then c.at' else c.met } ∧
      (∀ m, m ≠ n → getCtr (ctrSettle s (k, n)) k m = getCtr s k m) ∧
      ctrSettle s (k, n) = { s with clus := (ctrSettle s (k, n)).clus }) ∧
    (d < -8388608 ∨ 8388607 < d → ∀ i, residentOn s (k / 16) = some i → NoneWaits s (pgCLU (k / 16) (k % 16)) →
      (getJob (ctrSettle s (k, n)) i).st = .faulted ∧ (getCtr (ctrSettle s (k, n)) k n).deficit = c.deficit ∧
      ∃ e ∈ (ctrSettle s (k, n)).ldg.wait, e.src = pgCLU (k / 16) (k % 16) ∧ e.code = 0x0307 ∧ e.sev = 3))

/-- A write of an S or M register at job time T is seen by every launch at T + 24 or later and by none before, and
writes of one register leave what launches see of the others. -/
def Obligations.RegisterWriteVisibility : Prop :=
  (∀ (k : Cluster) (x r : Nat) (v : BitVec 96), 0 < r → r < 64 →
    (∀ y, x + 24 ≤ y → sReg (regWrite k x r v) y r = BitVec.ofNat 32 v.toNat) ∧
    (∀ y, x ≤ y → y < x + 24 → sReg (regWrite k x r v) y r = sReg k y r) ∧
    (∀ q y, q ≠ r → sReg (regWrite k x r v) y q = sReg k y q) ∧ (∀ m y, mReg (regWrite k x r v) y m = mReg k y m)) ∧
  (∀ (k : Cluster) (x i : Nat) (v : BitVec 96), i < 8 →
    (∀ y, x + 24 ≤ y → mReg (regWrite k x (64 + i) v) y i = v) ∧
    (∀ y, x ≤ y → y < x + 24 → mReg (regWrite k x (64 + i) v) y i = mReg k y i) ∧
    (∀ m y, m ≠ i → mReg (regWrite k x (64 + i) v) y m = mReg k y m) ∧
    (∀ r y, r < 64 → sReg (regWrite k x (64 + i) v) y r = sReg k y r)) ∧
  (∀ (k : Cluster) (x y r : Nat) (v : BitVec 96), regWrite k x 0 v = k ∧ (r = 0 → sReg k y r = 0))

/-- The row engine's commands at their launch. NOP is counted at once; END also ends the segment's stream; every other
command that passes its checks takes the engine for the interval of R136 and R137 with its scalars, step and seeds
latched and its events in their cycles; nothing is read and no byte changes yet.
At its event a row of NORMF to SMXB, formed from the lines held, waits in the bytes of its destination row: R133's and
R134's values rounded once, and the record's eight bytes; MSPILL and MFILL hand on each line they hold at its place.
With no error in memory a read takes its line in and a write stores the line's bytes. -/
def Obligations.RowEngineCommands : Prop :=
  (∀ (cl : Clu) (j : Nat) (w : W256) (rest : List W256) (s : State), CmdDue s cl false j w rest →
    reCheck (getClu s cl.key) (jobTime s (getJob s j)) w = none →
    let k := getClu s cl.key
    let jt := jobTime s (getJob s j)
    let cnt := at' (pgRE cl.q.val cl.c.val) 0x10C
    (cmOp w ≤ 1 → ∃ t, exec (if cmOp w = 0 then .reNop cl else .reEnd cl) s = .next t ∧ OnlyClu { s with regs := t.regs } t cl ∧
      getClu t cl.key = { k with re := { k.re with
        q := rest, last := some (cmOff w), done := k.re.done || decide (cmOp w = 1) } } ∧
      reg t cnt = satAdd (reg s cnt) 1 ∧ RegsKept s t [cnt]) ∧
    (∀ e ∈ [(2, Instr.normf cl), (3, .rmsf cl), (4, .smxf cl), (5, .normb cl), (6, .rmsb cl), (7, .smxb cl), (8, .solve cl),
        (9, .mspill cl), (10, .mfill cl)], cmOp w = e.1 →
      let i := if e.1 ≤ 7 then 32 + reRows w * (if e.1 = 3 then 2 else 3) * ((reCols w + 63) / 64)
        else if e.1 = 8 then 1120 + 16 * reCols w else 32 + (reRows w + 31) / 32
      ∃ t f, exec e.2 s = .next t ∧ OnlyClu s t cl ∧ getClu t cl.key = { k with re := took k.re s w rest i f (rePlan cl w) } ∧
        f.w = w ∧ f.cc = reCC w ∧ f.jt = jt ∧ f.sclA = sReg k jt (reSeps w) ∧ f.sclB = sReg k jt (reSeps w + 1) ∧
        f.step = stepOf s cl jt ∧ f.draw = drawOf s cl jt (reTag w) 0x7F 2 ∧ f.held = [] ∧ f.out = [] ∧
        f.cnt = Counts.none)) ∧
  (∀ (cl : Clu) (f : CmdFly) (r : Nat) (s : State) (e : Ev), e.kind = .calc → e.grp = r →
    let w := f.w
    let rd := fun n => heldByte f.held (some n)
    let x := packedRow (rd 0) (poolRowAt cl (reSrc w) (reStride w) r) (reFmt w) (reCols w)
    let g := packedRow (rd 1) (poolRowAt cl (reAux w) (reStride w) r) 1 (reCols w)
    let st := recRead (rd 2) cl w r
    let d := poolRowAt cl (reDst w) (reStride w) r
    (cmOp w = 2 ∨ cmOp w = 3 ∨ cmOp w = 4 →
      let v := if cmOp w = 4 then smxRow x else normRow (cmOp w == 3) (val f.sclA) x
      ∃ h, reEvent s cl f e = (s, h) ∧ h.out = recCells cl w r v.1 v.2.1 ++ (packRow f.draw (reFmt w) 0 (reCols w) r d v.2.2).1 ∧
        h.held = [] ∧ h.plan = f.plan) ∧
    (cmOp w = 5 ∨ cmOp w = 6 → ∃ h, reEvent s cl f e = (s, h) ∧
      h.out = (packRow f.draw 1 1 (reCols w) r d (normBack (cmOp w == 6) st x g)).1 ∧ h.held = [] ∧ h.plan = f.plan) ∧
    (cmOp w = 7 → ∃ h, reEvent s cl f e = (s, h) ∧
      h.out = (packRow f.draw 1 1 (reCols w) r d (smxBack st x g)).1 ∧ h.held = [] ∧ h.plan = f.plan) ∧
    (cmOp w = 9 ∨ cmOp w = 10 → ∃ h, reEvent s cl f e = (s, h) ∧ h.held = [] ∧ h.plan = f.plan ∧
      let a := margAddr cl.q.val cl.c.val (64 * reMgb w)
      let from' := if cmOp w = 9 then a else poolAddr cl.q.val cl.c.val (64 * reSrc w)
      let to' := if cmOp w = 9 then poolAddr cl.q.val cl.c.val (64 * reDst w) else a
      ∀ l ∈ f.held, l.2.2.length = 64 → from' ≤ 64 * l.2.1 → ∀ i < 64, 64 * l.2.1 + i < from' + 8 * reRows w →
        (64 * l.2.1 + i + to' - from', l.2.2.getD i 0) ∈ h.out)) ∧
  (∀ (cl : Clu) (f : CmdFly) (e : Ev) (s : State), s.flaws = [] →
    (e.kind = .rd → reEvent s cl f e = (s, { f with held := f.held ++ [(e.sub, e.line, rdBytes s (64 * e.line) 64)] })) ∧
    (e.kind = .wr → reEvent s cl f e = (wrCells s (f.out.filter (fun x => lineOf x.1 == e.line)),
      { f with out := f.out.filter (fun x => lineOf x.1 != e.line) })))

/-- Completion of the oldest command of a row engine or route unit that is due: it leaves the unit, its counter of
completed commands rises by 1, and no byte of memory changes; NORMF to SOLVE hand the shadow unit their summary; with CCE
the completion counter is credited with 1 in this core cycle. A GATE's completion also writes its mask, counts its NaN
tokens and adds its assignments and drops to each expert's counters, which saturate; a drop counter that rises from 0
sets the interrupt bit. -/
def Obligations.CommandCompletes : Prop :=
  (∀ (cl : Clu) (f : CmdFly) (rest : List CmdFly) (s : State), f.due ≤ s.clk.dst → f.nan = 0 → f.experts = [] → f.mask = none →
    ∀ e ∈ [(false, Instr.reCommandComplete cl, 0x10C), (true, .rtCommandComplete cl, 0x114)],
      (unitOf e.1 (getClu s cl.key)).fly = f :: rest →
      let cnt := at' (unitPage e.1 cl.key) e.2.2
      ∃ t, exec e.2.1 s = .next t ∧ t = { s with clus := t.clus, regs := t.regs, dirty := t.dirty } ∧
        unitOf e.1 (getClu t cl.key) = { unitOf e.1 (getClu s cl.key) with fly := rest } ∧
        unitOf (!e.1) (getClu t cl.key) = unitOf (!e.1) (getClu s cl.key) ∧
        (∀ k, k ≠ cl.key → getClu t k = getClu s k) ∧ reg t cnt = satAdd (reg s cnt) 1 ∧
        RegsKept s t [cnt, at' (pgSHW cl.q.val cl.c.val) 0x12C] ∧
        (e.1 = true ∨ 8 < cmOp f.w → (getClu t cl.key).sums = (getClu s cl.key).sums ∧ RegsKept s t [cnt]) ∧
        (e.1 = false → cmOp f.w ≤ 8 → ((getClu s cl.key).sums.filter (fun x => x.src == 96)).length < 4 →
          RegsKept s t [cnt] ∧ (getClu t cl.key).sums = (getClu s cl.key).sums
            ++ [{ src := 96, tag := reTag f.w, step := f.step, cnt := f.cnt }]) ∧
        (f.cc = none → t.dirty = s.dirty ∧ ∀ n, getCtr t cl.key n = getCtr s cl.key n) ∧
        (∀ n, f.cc = some n → (cl.key, n) ∈ t.dirty ∧ (∀ m, m ≠ n → getCtr t cl.key m = getCtr s cl.key m) ∧
          getCtr t cl.key n = { getCtr s cl.key n with sum := (getCtr s cl.key n).sum - 1, at' := s.clk.dst })) ∧
  (∀ (cl : Clu) (mi x a d : Nat) (m : BitVec 96) (f : CmdFly) (s : State), (getClu s cl.key).rt.fly = [f] →
    f.due ≤ s.clk.dst → f.mask = some (mi, m) → f.experts = [(x, a, d)] → mi < 8 →
    let p := pgRT cl.q.val cl.c.val
    ∃ t, exec (.rtCommandComplete cl) s = .next t ∧ curM (getClu t cl.key) mi = m ∧ (getClu t cl.key).rt.fly = [] ∧
      tget 0 (getClu t cl.key).assign x = min 0xFFFFFFFF (tget 0 (getClu s cl.key).assign x + a) ∧
      tget 0 (getClu t cl.key).drop x = min 0xFFFFFFFF (tget 0 (getClu s cl.key).drop x + d) ∧
      (∀ i, i ≠ x → tget 0 (getClu t cl.key).assign i = tget 0 (getClu s cl.key).assign i ∧
        tget 0 (getClu t cl.key).drop i = tget 0 (getClu s cl.key).drop i) ∧
      (∀ i < 8, i ≠ mi → curM (getClu t cl.key) i = curM (getClu s cl.key) i) ∧
      reg t (at' p 0x10C) = satAdd (reg s (at' p 0x10C)) f.nan ∧ reg t (at' p 0x114) = satAdd (reg s (at' p 0x114)) 1 ∧
      RegsKept s t [at' p 0x10, at' p 0x10C, at' p 0x114] ∧ t.mem = s.mem ∧
      (0 < d → tget 0 (getClu s cl.key).drop x = 0 → bit (reg t (at' p 0x10)) 0 = true))

/-- The clearing writes of a cluster's pages: a pivot flag written as 1 clears unless the hardware sets it in the same
clock; SHW_CLR and RT_CLR select, and with CLR leave that tag's or expert's counters what this core cycle added to them
(nothing where it added nothing), and no other's.
SHADOW_SUMMARY_TAKE on one waiting summary, when fewer than eight were taken in this core cycle. With the watch enabled it
adds to its tag's counters, saturating, and to the open step's element and zero counts; a NaN is reported once per step;
with the watch off the summary is taken and dropped. -/
def Obligations.ShadowAndClears : Prop :=
  (∀ (cl : Clu) (hi : Bool) (v hw : W32) (s : State), Served s (pgRE cl.q.val cl.c.val) →
    let o := at' (pgRE cl.q.val cl.c.val) (if hi then 0x104 else 0x100)
    ∃ t, exec (.rePivotFlagClear cl hi v hw) s = .next t ∧
      (∀ b < 32, bit (reg t o) b = ((bit (reg s o) b && !bit v b) || bit hw b)) ∧
      RegsKept s t [o] ∧ t = { s with regs := t.regs }) ∧
  (∀ (cl : Clu) (v : W32) (s : State), Served s (pgSHW cl.q.val cl.c.val) → bit v 31 = true →
    let g := fld v 9 0
    let x := cycleAdds s cl.key g
    ∃ t, exec (.shwClr cl v) s = .next t ∧ OnlyClu { s with regs := t.regs } t cl ∧
      getTag t cl.key g = { getTag s cl.key g with cnt := x.cnt, run := 0, stepElem := x.stepElem, stepZero := x.stepZero } ∧
      ((getClu s cl.key).tagUpd.1 ≠ s.clk.dst / 4 → x = TagCnt.zero) ∧
      (∀ i, i ≠ g → getTag t cl.key i = getTag s cl.key i) ∧
      reg t (at' (pgSHW cl.q.val cl.c.val) 0x104) = BitVec.ofNat 32 g ∧
      RegsKept s t [at' (pgSHW cl.q.val cl.c.val) 0x104]) ∧
  (∀ (cl : Clu) (v : W32) (s : State), Served s (pgRT cl.q.val cl.c.val) → bit v 31 = true →
    let x := fld v 7 0
    let now := if (getClu s cl.key).gateUpd.1 = s.clk.dst / 4
      then (getClu s cl.key).gateUpd.2.filter (fun e => e.1 == x) else []
    ∃ t, exec (.rtClr cl v) s = .next t ∧ OnlyClu { s with regs := t.regs } t cl ∧
      tget 0 (getClu t cl.key).assign x = min 0xFFFFFFFF (sumNat (now.map (fun e => e.2.1))) ∧
      tget 0 (getClu t cl.key).drop x = min 0xFFFFFFFF (sumNat (now.map (fun e => e.2.2))) ∧
      (∀ i, i ≠ x → tget 0 (getClu t cl.key).assign i = tget 0 (getClu s cl.key).assign i ∧
        tget 0 (getClu t cl.key).drop i = tget 0 (getClu s cl.key).drop i) ∧
      reg t (at' (pgRT cl.q.val cl.c.val) 0x100) = BitVec.ofNat 32 x ∧
      RegsKept s t [at' (pgRT cl.q.val cl.c.val) 0x100]) ∧
  (∀ (cl : Clu) (m : Summary) (s : State), (getClu s cl.key).sums = [m] → m.src < 97 →
    (getClu s cl.key).taken.1 ≠ s.clk.dst / 4 ∨ (getClu s cl.key).taken.2 < 8 →
    let g := getTag s cl.key m.tag
    let tr : Counts := { Counts.none with trunc := m.rtrunc }
    (bit (shwCtl s cl.key) 31 = true → g.step = none ∨ g.step = some m.step → m.cnt.nan = 0 →
      ∃ t, exec (.shadowSummaryTake cl) s = .next t ∧ OnlyClu s t cl ∧ (getClu t cl.key).sums = [] ∧
        (getTag t cl.key m.tag).cnt = (if m.rtrunc ≠ 0 ∧ m.rtag = m.tag then (g.cnt.plusSat m.cnt).plusSat tr
          else g.cnt.plusSat m.cnt) ∧
        (getTag t cl.key m.tag).step = some m.step ∧ (getTag t cl.key m.tag).stepElem = g.stepElem + m.cnt.elem ∧
        (getTag t cl.key m.tag).stepZero = g.stepZero + m.cnt.zero + m.cnt.ufz ∧
        (getTag t cl.key m.tag).run = g.run ∧
        (m.rtrunc ≠ 0 → m.rtag ≠ m.tag → getTag t cl.key m.rtag = { getTag s cl.key m.rtag with
          cnt := (getTag s cl.key m.rtag).cnt.plusSat tr }) ∧
        ∀ i, i ≠ m.tag → m.rtrunc = 0 ∨ i ≠ m.rtag → getTag t cl.key i = getTag s cl.key i) ∧
    (bit (shwCtl s cl.key) 31 = true → bit (shwCtl s cl.key) 30 = false → g.step = none ∨ g.step = some m.step →
      0 < m.cnt.nan → g.nanStep ≠ some m.step →
      ∃ t, exec (.shadowSummaryTake cl) s = .next t ∧ (getTag t cl.key m.tag).nanStep = some m.step ∧
        Logged s t (pgSHW cl.q.val cl.c.val) 1 0x0802 (quadAcc s cl.q.val)
          (BitVec.ofNat 32 (m.tag % 1024 + cl.c.val * 1024)) m.step ∧
        bit (reg t (at' (pgSHW cl.q.val cl.c.val) 0x10)) 1 = true) ∧
    (bit (shwCtl s cl.key) 31 = false →
      ∃ t, exec (.shadowSummaryTake cl) s = .next t ∧ OnlyClu s t cl ∧ (getClu t cl.key).sums = [] ∧
        ∀ i, getTag t cl.key i = getTag s cl.key i))

/-- The route unit's commands at their launch. NOP is counted at once; END also ends the segment's stream; every other
command that passes its checks takes the unit for the interval of R211 with its step and seeds latched and its events in
their cycles; nothing is read and no byte changes yet; GATE opens its mask window. A GATHER index at or above its table's
rows and a MERGE list out of order end the command at the event that reads the list, and fault the job of the quadrant. A
null row of a GATHER is +0 and counted. -/
def Obligations.RouteCommands : Prop :=
  (∀ (cl : Clu) (j : Nat) (w : W256) (rest : List W256) (s : State), CmdDue s cl true j w rest → rtCheck s j cl w = none →
    let k := getClu s cl.key
    let jt := jobTime s (getJob s j)
    let n := rtN w
    let p4 := (rtP w + 3) / 4
    let pr4 := (rtPr w + 3) / 4
    let cnt := at' (pgRT cl.q.val cl.c.val) 0x114
    (cmOp w ≤ 1 → ∃ t, exec (if cmOp w = 0 then .rtNop cl else .rtEnd cl) s = .next t ∧ OnlyClu { s with regs := t.regs } t cl ∧
      getClu t cl.key = { k with rt := { k.rt with
        q := rest, last := some (cmOff w), done := k.rt.done || decide (cmOp w = 1) } } ∧
      reg t cnt = satAdd (reg s cnt) 1 ∧ RegsKept s t [cnt]) ∧
    (∀ e ∈ [(2, Instr.gate cl, 64 + n * ((rtE w * rtSz w + 255) / 256 + rtK w) + (rtE w * rtCap w * 8 + 255) / 256),
        (3, .dispatch cl, 32 + rtE w * rtCap w * p4), (4, .combine cl, 32 + n * (rtK w * p4 + 1)),
        (5, .wgrad cl, 32 + n * rtK w * 2 * p4), (6, .gather cl, 32 + (n + 63) / 64 + n * p4 + 240),
        (7, .pack cl, 32 + (n + 63) / 64 + (n * clog2 (max n 2) + 15) / 16 + n * pr4),
        (8, .merge cl, 32 + (rtNL w * n + 3) / 4 + rtNL w * n * pr4)],
      cmOp w = e.1 → ∃ t, exec e.2.1 s = .next t ∧ OnlyClu s t cl ∧ getClu t cl.key = { k with
        rt := took k.rt s w rest e.2.2 (newCmd s cl jt w (rtCC w) (rtTag w) 0x7E) (rtPlan w)
        gate := if e.1 = 2 then some { mi := rtMI w, off := cmOff w, launch := s.clk.dst, due := s.clk.dst + 4 * e.2.2 }
          else k.gate })) ∧
  (∀ (cl : Clu) (j i : Nat) (f : CmdFly) (e : Ev) (s : State), s.flaws = [] → jobOn s cl.q.val = some j →
    residentOn s cl.q.val = some i → e.kind = .calc → e.sub = 0 → NoneWaits s (pgRT cl.q.val cl.c.val) →
    (∀ n, cmOp f.w = 6 → gatherBad s j cl f.w = some n →
      let r := rtEvent s cl f e
      (getJob r.1 i).st = .faulted ∧ r.2.plan = [] ∧ r.2.out = [] ∧ r.1.mem = s.mem ∧
      ∃ x ∈ r.1.ldg.wait, x.src = pgRT cl.q.val cl.c.val ∧ x.code = 0x0907 ∧ x.sev = 3) ∧
    (cmOp f.w = 8 → mergeBad s cl f.w = true →
      let r := rtEvent s cl f e
      (getJob r.1 i).st = .faulted ∧ r.2.plan = [] ∧ r.2.out = [] ∧ r.1.mem = s.mem ∧
      ∃ x ∈ r.1.ldg.wait, x.src = pgRT cl.q.val cl.c.val ∧ x.code = 0x0908 ∧ x.sev = 3)) ∧
  (∀ (cl : Clu) (j : Nat) (f : CmdFly) (e : Ev) (s : State), s.flaws = [] → jobOn s cl.q.val = some j → cmOp f.w = 6 →
    e.kind = .calc → e.sub = 1 → tget 0 f.nums e.grp = 0xFFFFFFFF →
    let c := at' (pgRT cl.q.val cl.c.val) 0x110
    let r := rtEvent s cl f e
    r.2.held = f.held ++ [(e.grp, 0, List.replicate (min 256 (rtCols f.w * rtSz f.w)) 0)] ∧
    reg r.1 c = satAdd (reg s c) 1 ∧ RegsKept s r.1 [c] ∧ r.1 = { s with regs := r.1.regs })

/-- GATE's slots: no expert takes more than its capacity, what it takes and what it drops are together all choices of
it, and the count behind its list is what it took; every first choice is served before any second. PACK and MERGE write each index once, in rising order:
the index list is strictly rising and holds exactly the indices given. -/
def Obligations.RouteLists : Prop :=
  (∀ (w : W256) (cs : List (List (Nat × W32))), (∀ c ∈ cs, c.length = rtK w) →
    ∀ x, tget 0 (gateAssign w cs).cnt x ≤ rtCap w ∧
      tget 0 (gateAssign w cs).acc x = tget 0 (gateAssign w cs).cnt x ∧
      tget 0 (gateAssign w cs).acc x + tget 0 (gateAssign w cs).drop x
        = (cs.flatten.filter (fun c => c.1 == x)).length) ∧
  (∀ xs : List Nat, (distinctIdx xs).Pairwise (· < ·) ∧ ∀ x, x ∈ distinctIdx xs ↔ x ∈ xs)

/-- DENSE_PASS and ROW_PASS at their launch. A pass that passes the checks of R219, whose group is not being advanced, is in
flight with its program, power table, group words and seeds latched, until launch + I; its descriptor is spent; nothing is
read and no byte of memory changes yet. One that fails a check, or whose group is being advanced, stops the job, is
counted and logged, and writes nothing.
At a core edge of its job time a dense pass reads group i in cycle PER i, where the controller accepts its traffic, and
keeps what R215 and R224 make of it for a write 276 cycles later; a group whose write time has come is written, and its
NaN and saturated heads are counted. -/
def Obligations.PassLaunch : Prop :=
  (∀ (e : Fin 12) (j : Nat) (w : W256) (s : State), PassDue s e j w →
    let p := passBegun s e j w
    let o := at' (pgUE (e.val / 3) (e.val % 3)) 0x114
    ∀ x ∈ [(decide (psMode w ≠ 1), Instr.densePass e false), (decide (psMode w = 1), .rowPass e false)], x.1 = true →
      (passCheck s e j w p.prog = none → advancing s j (jobTime s (getJob s j)) (grpEntry s j (psGrp w)) = false →
        ∃ t, exec x.2 s = .next t ∧ t = { s with ues := t.ues } ∧ (∀ d, d ≠ e.val → getUe t d = getUe s d) ∧
          getUe t e = { getUe s e with pos := (getUe s e).pos + 1, last := some (psOff w), fly := some p }) ∧
      (∀ c, passCheck s e j w p.prog = some c ∨ passCheck s e j w p.prog = none ∧ c = 0x0A08 ∧
          advancing s j (jobTime s (getJob s j)) (grpEntry s j (psGrp w)) = true →
        NoneWaits s (pgUE (e.val / 3) (e.val % 3)) →
        ∃ t, exec x.2 s = .next t ∧ (getJob t j).st = .faulted ∧ t.mem = s.mem ∧ reg t o = satAdd (reg s o) 1 ∧
          ∃ y ∈ t.ldg.wait, y.src = pgUE (e.val / 3) (e.val % 3) ∧ y.code = c ∧ y.sev = 3)) ∧
  (∀ (e : Fin 12) (j i : Nat) (f : PassFly) (s : State), jobOn s (e.val / 3) = some j → (getUe s e).fly = some f →
    (getJob s j).held = false → s.flaws = [] → psMode f.w = 0 → 0 < psPer f.w → i < psNG f.w →
    jobTime s (getJob s j) = f.t0 + 4 * (psPer f.w * i) → (∀ g ∈ f.grps, jobTime s (getJob s j) < g.due) →
    let a := 512 * (psRB f.w + i)
    let g := 64 * psGB f.w + 128 * i
    let r := if residual f.prog then some (64 * psEB f.w + 128 * i) else none
    (ueCharge s e ([(a, 512), (g, 128)] ++ r.toList.map (fun b => (b, 128)))).2 = true →
    let t := ueTick s e
    t = { s with ues := t.ues, mcs := t.mcs, regs := t.regs } ∧
    getUe t e = { getUe s e with fly := some { f with
      grps := f.grps ++ [passGroup s e f a g r 0x3F800000 0 (f.t0 + 4 * (psPer f.w * i + 276))] } }) ∧
  (∀ (e : Fin 12) (j : Nat) (f : PassFly) (g : PassGrp) (s : State), jobOn s (e.val / 3) = some j →
    (getUe s e).fly = some f → (getJob s j).held = false → s.flaws = [] → f.t0 ≤ jobTime s (getJob s j) → f.grps = [g] →
    g.due ≤ jobTime s (getJob s j) → passDo f.w (passCycle (jobTime s (getJob s j)) f) = .none →
    (ueCharge s e (cellRuns g.wr)).2 = true →
    let o := at' (pgUE (e.val / 3) (e.val % 3))
    let t := ueTick s e
    t = { wrCells s g.wr with ues := t.ues, mcs := t.mcs, regs := t.regs, ldg := t.ldg } ∧
    reg t (o 0x104) = satAdd (reg s (o 0x104)) g.nan ∧ reg t (o 0x108) = satAdd (reg s (o 0x108)) g.sat ∧
    getUe t e = { getUe s e with fly := some { f with
      grps := [], nanSaid := f.nanSaid || decide (0 < g.nan), satSaid := f.satSaid || decide (0 < g.sat) } })

/-- PASS_COMPLETE at launch + I: the pass counter rises by 1, the engine is free, the counter named is credited with 1 in
this core cycle, and no byte of memory changes: what the pass wrote is in place already. Before launch + I nothing
happens. -/
def Obligations.PassCompletes : Prop :=
  ∀ (e : Fin 12) (j : Nat) (f : PassFly) (s : State), runningOn s (e.val / 3) = some j → (getUe s e).fly = some f →
    let o := at' (pgUE (e.val / 3) (e.val % 3)) 0x100
    let k := 16 * (e.val / 3) + psClu f.w
    (jobTime s (getJob s j) < f.due → exec (.passComplete e) s = .next s) ∧
    (f.due ≤ jobTime s (getJob s j) →
      ∃ t, exec (.passComplete e) s = .next t ∧ getUe t e = { getUe s e with fly := none } ∧
        (∀ d, d ≠ e.val → getUe t d = getUe s d) ∧ reg t o = satAdd (reg s o) 1 ∧ RegsKept s t [o] ∧
        (psCC f.w = none → t = { s with ues := t.ues, regs := t.regs }) ∧
        (∀ n, psCC f.w = some n → (k, n) ∈ t.dirty ∧
          getCtr t k n = { getCtr s k n with sum := (getCtr s k n).sum - 1, at' := s.clk.dst } ∧
          (∀ m, m ≠ n → getCtr t k m = getCtr s k m) ∧
          t = { s with ues := t.ues, regs := t.regs, clus := t.clus, dirty := t.dirty }))

/-- The advance list. ADVANCE_ENTRY without LOAD, SAVE or NOADV, at its time: each named group's STEP rises by 1 and
its running products take one factor each, no other group changes, and the entry completes at launch + 16 +
ceil(COUNT / 4). A group at the largest STEP faults the job. ADVANCE_COMPLETE retires the oldest entry that is due; HBM
traffic unfinished then faults the job. SCH_GRP_WORD_WRITE sets a word of the selected entry, word 17 in its low six bits only;
words 18 to 31 take nothing; an entry that a running job owns keeps all its words and the write is logged. -/
def Obligations.AdvanceRows : Prop :=
  (∀ (j : Fin 4) (g : Seg) (w : W64) (s : State), (segsOf s j)[(getJob s j).seg - 1]? = some g →
    g.adv[(getJob s j).advPos]? = some w → (getJob s j).st = .running → (getJob s j).held = false →
    (getJob s j).seg ≠ 0 → originOf s j (getJob s j).seg + 4 * avOff w ≤ jobTime s (getJob s j) →
    avSave w = false → avLoad w = false → avNoadv w = false →
    let named (e : Nat) : Prop := ∃ n, avFirst w ≤ n ∧ n < avFirst w + avCount w ∧ grpEntry s j n = some e
    (∀ m n e, grpEntry s j m = some e → grpEntry s j n = some e → m = n) →
    ((∀ e, named e → tget 0 (getGrp s e).words 12 ≠ 0xFFFFFFFF) →
      ∃ t f, exec (.advanceEntry j) s = .next t ∧ t = { s with jobs := t.jobs, grps := t.grps } ∧
        getJob t j = { getJob s j with advPos := (getJob s j).advPos + 1, adv := (getJob s j).adv ++ [f] } ∧
        f.due = originOf s j (getJob s j).seg + 4 * avOff w + 4 * (16 + cdiv (avCount w) 4) ∧
        (∀ i, i ≠ j.val → getJob t i = getJob s i) ∧
        (∀ e, ¬ named e → getGrp t e = getGrp s e) ∧
        ∀ e, named e → (getGrp t e).owner = (getGrp s e).owner ∧
          tget 0 (getGrp t e).words 12 = tget 0 (getGrp s e).words 12 + 1 ∧
          tget 0 (getGrp t e).words 10
            = rne (Ext.mul (val (tget 0 (getGrp s e).words 10)) (val (tget 0 (getGrp s e).words 8))) ∧
          tget 0 (getGrp t e).words 11
            = rne (Ext.mul (val (tget 0 (getGrp s e).words 11)) (val (tget 0 (getGrp s e).words 9))) ∧
          tget 0 (getGrp t e).words 20 = rne (Ext.sub Ext.one (val (tget 0 (getGrp t e).words 10))) ∧
          tget 0 (getGrp t e).words 19
            = rne (Ext.mul (val (tget 0 (getGrp s e).words 0)) (val (tget 0 (getGrp t e).words 18)))) ∧
    ((∃ e, named e ∧ tget 0 (getGrp s e).words 12 = 0xFFFFFFFF) →
      ∃ t, exec (.advanceEntry j) s = .next t ∧ (getJob t j).st = .faulted)) ∧
  (∀ (j : Fin 4) (a : AdvFly) (pre post : List AdvFly) (done : Bool) (s : State),
    (getJob s j).adv = pre ++ a :: post → (∀ x ∈ pre, jobTime s (getJob s j) < x.due) →
    a.due ≤ jobTime s (getJob s j) → (getJob s j).st = .running →
    (a.hbm = false ∨ done = true →
      exec (.advanceComplete j done) s = .next (setJob s j { getJob s j with adv := pre ++ post })) ∧
    (a.hbm = true → done = false → ∃ t, exec (.advanceComplete j done) s = .next t ∧ (getJob t j).st = .faulted)) ∧
  (∀ (w : Fin 32) (v : W32) (s : State), Served s pgSCH →
    let e := fld (reg s (at' pgSCH 0x200)) 7 0
    let taken := (getGrp s e).owner ≠ 0 ∧ (getJob s (getGrp s e).job).st = .running
    (18 ≤ w.val → ¬ taken → exec (.schGrpWordWrite w v) s = .next s) ∧
    (w.val < 18 → ¬ taken → ∃ t, exec (.schGrpWordWrite w v) s = .next t ∧ t = { s with grps := t.grps } ∧
      (∀ i, i ≠ e → getGrp t i = getGrp s i) ∧ (getGrp t e).owner = (getGrp s e).owner ∧
      tget 0 (getGrp t e).words w = (if w.val = 17 then v &&& 0x3F else v) ∧
      ∀ i, i ≠ w.val → tget 0 (getGrp t e).words i = tget 0 (getGrp s e).words i) ∧
    (taken → ∃ t, exec (.schGrpWordWrite w v) s = .next t ∧
      t = { s with ldg := t.ldg, regs := t.regs } ∧
      Logged s t pgSCH 1 0x0209 (getGrp s e).owner
        (BitVec.ofNat 32 ((getGrp s e).owner.toNat * 2 ^ 20 + (getGrp s e).job % 4 * 2 ^ 16)) (BitVec.ofNat 32 (e + w * 256))))

/-- REDUCE and ROW_FREE_STAGE. A REDUCE message taken leaves its header, with LAST, in the trace queue (the record is the
model's choice, log 133). An up contribution that passes the checks of R250 is staged in its row: an idle context
opens at its step, a complete cell set is noted, and a chunk with all its inputs goes on the ready list; where the row
still holds another chunk the part waits in an overflow cell and the stall is counted. A free row takes the waiting
parts of the lowest chunk that maps to it, also beside parts of that chunk that are staged already. A contribution of no
resident job is counted, logged and dropped; a remote copy is counted and changes no context. -/
def Obligations.ContributionRows : Prop :=
  (∀ (g : Grp) (vc : Fin 4) (p : Packet) (s : State), inHead s g.key vc = some p → pkMT p = 4 → isHere s p = true →
    tget 0 s.fab.qFlaws (qIngress g.key vc) = 0 →
    let c := reduceOf p
    let u := pushRec (popIn s g.key vc) 7 (reduceRec s p)
    (s.sync.frozen = false → clsRoom (popIn s g.key vc) 7 1 = true → tget 0 s.fab.qFlaws 0x201 = 0 →
      u.fab.trace = s.fab.trace ++ [reduceRec s p]) ∧
    (∀ j e i, UpPasses s c j e i →
      let x := if (getCtx s e).st = .idle
        then { getCtx s e with st := .open, step := c.step, lo := c.step, hi := c.step } else getCtx s e
      let y := heldPart x (partOf c i)
      ((getCtx s e).st = .idle ∨
          ((getCtx s e).st = .open ∧ c.step = (getCtx s e).step ∧ isDup (getCtx s e) c i = false) →
        rowTaken x c.chunk false = false → ∃ t, exec (.reduce g vc) s = .next t ∧ getCtx t e = y ∧
        (∀ d, d ≠ e → getCtx t d = getCtx s d) ∧
        t.cready = s.cready ++ (if setFull y i c.chunk = true ∧ chunkReady y c.chunk = true then [(e, c.chunk)] else []) ∧
        t = { u with ctxs := t.ctxs, cready := t.cready }) ∧
      ((getCtx s e).st = .idle ∨
          ((getCtx s e).st = .open ∧ c.step = (getCtx s e).step ∧ isDup (getCtx s e) c i = false) →
        rowTaken x c.chunk false = true →
        ovflRoom (bump (if (getCtx s e).st = .idle then setCtx u e x else u) (at' pgCIR 0x11C) 1) = true →
        ∃ t, exec (.reduce g vc) s = .next t ∧ getCtx t e = { x with ovfl := x.ovfl ++ [partOf c i] } ∧
        reg t (at' pgCIR 0x11C) = satAdd (reg s (at' pgCIR 0x11C)) 1 ∧
        (∀ d, d ≠ e → getCtx t d = getCtx s d) ∧
        t = { u with ctxs := t.ctxs, regs := t.regs }) ∧
      ((getCtx s e).st = .open → c.step = (getCtx s e).step → isDup (getCtx s e) c i = true →
        ∃ t, exec (.reduce g vc) s = .next t ∧ t = { u with regs := t.regs } ∧
        reg t (at' pgCIR 0x118) = satAdd (reg s (at' pgCIR 0x118)) 1)) ∧
    (residentAcc s c.acc = none → (∀ j < 4, (getJob s j).st = .faulted → (getJob s j).acc.toNat ≠ c.acc) →
      ∃ t, exec (.reduce g vc) s = .next t ∧ t = { u with regs := t.regs, ldg := t.ldg } ∧
        reg t (at' pgCIR 0x114) = satAdd (reg s (at' pgCIR 0x114)) 1 ∧
        Logged s t pgCIR 2 0x0B01 (BitVec.ofNat 12 c.acc) (d0Cir c.acc c.ctx c.chunk) c.step)) ∧
  (∀ (e : Fin 256) (row ch : Nat) (s : State), (getCtx s e).owner ≠ 0 → (getCtx s e).st ≠ .released →
    (∀ p ∈ (getCtx s e).parts, rowOf (getCtx s e).defn p.chunk = row → p.chunk = ch ∧ p.input ≠ cxNin (getCtx s e).defn) →
    (∃ p ∈ (getCtx s e).ovfl, p.chunk = ch) → rowOf (getCtx s e).defn ch = row →
    (∀ p ∈ (getCtx s e).ovfl, rowOf (getCtx s e).defn p.chunk = row → ch ≤ p.chunk) →
    (∀ p ∈ (getCtx s e).ovfl, p.chunk = ch → p.input < cxNin (getCtx s e).defn) →
    tget 0 s.fab.qFlaws (0x100 + e) = 0 →
    ∃ t, exec (.rowFreeStage e row) s = .next t ∧
      getCtx t e = ((getCtx s e).ovfl.filter (fun p => p.chunk == ch)).foldl heldPart
        { getCtx s e with ovfl := (getCtx s e).ovfl.filter (fun p => p.chunk != ch) } ∧
      (∀ d, d ≠ e.val → getCtx t d = getCtx s d) ∧ t = { s with ctxs := t.ctxs, cready := t.cready })

/-- CHUNK_SUM and VOTE_COUNT take the head of the ready list: a non-root sends its partial up to PARENT, the root hands
its result to every remote input's node and to each delivery; the row frees. Sums are those of R254 and R255, counts
those of R256. Here the router takes the messages (the context is not released by a fault of its own sends).
DELIVERY_LANDING puts the oldest delivery's bytes in place and notes the chunk as landed, in an arrival slot and at no
other time; the last one of a delivery credits its counter. -/
def Obligations.ChunkRows : Prop :=
  (∀ (v : Bool) (e ch : Nat) (rest : List (Nat × Nat)) (s : State), s.cready = (e, ch) :: rest →
    cxVote (getCtx s e).defn = v → readyWait s e ch = false → tget 0 s.fab.qFlaws (0x100 + e) = 0 →
    let x := getCtx s e
    let ns := (List.range (cxElems x.defn ch)).map (voteElem x ch)
    let out := cxWout x.defn
    let up : List Byte := if v then packCodes (2 ^ out) (fun _ => 0) 0 (ns.map (fun n => (thin out n.1).1))
      else (sumChunk s x ch).1.flatMap (bytesOf 2)
    let res : List Byte := if v then packCodes 2 (fun _ => 0) 0 (ns.map (fun n => voteCode n.1))
      else (sumChunk s x ch).1.flatMap (bytesOf 2)
    let cmd := if v then Instr.voteCount else Instr.chunkSum
    let odd := at' pgCIR 0x12C
    let b := { (if v then (if cxRoot x.defn then bump s odd (sumNat (ns.map Prod.snd))
        else bump (bump s odd (sumNat (ns.map Prod.snd))) (at' pgCIR 0x120) (ns.filter (fun n => (thin out n.1).2)).length)
      else bump s (at' pgCIR 0x124) (sumChunk s x ch).2) with cready := rest }
    (cxRoot x.defn = false →
      ∀ u, u = sendChunk b e (cxParent x.defn) ch (if v then out else 0) false
        (decide (x.sentUp.length + 1 = cxNch x.defn)) up → getCtx u e = x → x.owner ≠ 0 → x.st ≠ .released →
      ∃ t, exec cmd s = .next t ∧ t = { u with ctxs := t.ctxs } ∧
        getCtx t e = { x with
          parts := x.parts.filter (fun p => p.chunk != ch), sentUp := ch :: x.sentUp
          st := if allIn x = true ∧ cxNch x.defn ≤ x.sentUp.length + 1 then .waitDown else x.st } ∧
        (∀ d, d ≠ e → getCtx t d = getCtx u d)) ∧
    (cxRoot x.defn = true →
      ∀ u, u = sentDown b e ch res → getCtx u e = x → x.st ≠ .released →
      ∃ t, exec cmd s = .next t ∧
        t = { u with ctxs := t.ctxs, fab := { u.fab with arrive := t.fab.arrive } } ∧
        t.fab.arrive = u.fab.arrive ++ (List.range (cxNdlv x.defn)).filterMap (fun k => deliveryOf u e k ch res) ∧
        getCtx t e = ctxSettle { x with
          parts := x.parts.filter (fun p => p.chunk != ch), done := (cxNin x.defn, ch) :: x.done } ∧
        (∀ d, d ≠ e → getCtx t d = getCtx u d))) ∧
  (∀ (x : Fin 256) (a : Arrival) (k ch : Nat) (pre post : List Arrival) (s : State), s.fab.arrive = pre ++ a :: post →
    a.ctx = some (x.val, k, ch) → (∀ b ∈ pre, ∀ i m, b.ctx ≠ some (x.val, i, m)) → a.credit = none → a.get = none →
    arrSlot s a.job a.q.val = true →
    tget 0 s.fab.qFlaws (0xA0 + a.q) = 0 → s.flaws = [] → resident (getJob s a.job).st = true →
    (chargeCells s (Who.mk (accOf s a.job) (some a.job)) a.writes).2 = true →
    (getCtx s x).owner ≠ 0 → (getCtx s x).st ≠ .released → (getCtx s x).job = a.job →
    let y := { getCtx s x with landed := (k, ch) :: (getCtx s x).landed }
    let last := (y.landed.filter (fun p => p.1 == k)).length = cxNch y.defn ∧ crdCCE (cxCrd y.defn k) = true
    (¬ last → ∃ t, exec (.deliveryLanding x) s = .next t ∧ getCtx t x = ctxSettle y ∧
      (∀ d, d ≠ x.val → getCtx t d = getCtx s d) ∧
      (∀ b, rdByte t b = a.writes.foldl (fun v c => if c.1 = b then c.2 else v) (rdByte s b)) ∧
      t = { s with ctxs := t.ctxs, mem := t.mem, mcs := t.mcs, regs := t.regs, fab := { s.fab with arrive := pre ++ post } }) ∧
    (∀ g clu n, last → gaParse (cxDlv y.defn k) = some g → clu = 16 * g.q + crdClu (cxCrd y.defn k) →
      n = crdCC (cxCrd y.defn k) →
      ∃ t, exec (.deliveryLanding x) s = .next t ∧ getCtx t x = ctxSettle y ∧ (clu, n) ∈ t.dirty ∧
        getCtr t clu n = { getCtr s clu n with sum := (getCtr s clu n).sum - 1, at' := s.clk.dst })) ∧
  (∀ (x : Fin 256) (a : Arrival) (k ch : Nat) (pre post : List Arrival) (s : State), s.fab.arrive = pre ++ a :: post →
    a.ctx = some (x.val, k, ch) → (∀ b ∈ pre, ∀ i m, b.ctx ≠ some (x.val, i, m)) → arrSlot s a.job a.q.val = false →
    exec (.deliveryLanding x) s = .next s)

/-- The reduction header of a REDUCE message that this module makes reads back field by field. -/
def Obligations.ReduceHeader : Prop :=
  ∀ (s : State) (x : Ctx) (mid dst chunk part wid : Nat) (down last : Bool) (b : List Byte),
    chunk < 2 ^ 24 → part < 8 → wid < 4 →
    let p := reducePkt s x mid dst chunk part wid down last b
    fld p.hdr2 127 116 = x.owner.toNat ∧ fld p.hdr2 115 108 = cxCtx x.defn ∧ fld p.hdr2 107 92 = cxBkt x.defn ∧
    fld p.hdr2 91 60 = x.step.toNat ∧ fld p.hdr2 59 36 = chunk ∧ fld p.hdr2 35 33 = part ∧ bit p.hdr2 32 = down ∧
    fld p.hdr2 31 30 = wid ∧ bit p.hdr2 29 = cxVote x.defn ∧ bit p.hdr2 28 = last ∧
    fld p.hdr2 27 15 = s.top.node.toNat ∧ fld p.hdr2 14 0 = 0 ∧ pkMT p = 4 ∧ p.pay = b

/-- The lane group's states (R277, R278, R292, R298, R365). ALIGN_LOCK takes ALIGN to IDENT and sends the identity
record. The timeouts of ALIGN, CREDIT and the one-way IDENT go to DOWN, which is left at once where its condition holds;
that of RETRAIN to FAILED. LNK_ENABLE sets the enable where it is allowed and is ignored else; LNK_DISABLE empties the
group into DOWN; LNK_RESTART takes FAILED and HALT to DOWN; the credit limit is written in DOWN only.
LANE_FAILED and LNK_SER_WARN. The lane of a slot that fails gives its slot to a spare, and what is not acknowledged
is resent; with no spare an UP group fails; a second failure at the same Datestamp takes a spare too and retrains the group
(that two lanes at once are two at one Datestamp is the model's choice, log 86); a one-way receiver in UP trains again; a
lane that serves no slot changes nothing. The symbol-error warning keeps the lane in use. -/
def Obligations.LinkStatesAndLanes : Prop :=
  (∀ (g : Grp) (s : State),
    let k := g.key
    let l := getLink s k
    let now := s.clk.dst
    let pg := pgLNK g.p
    let settled (t : State) : Prop := (getLink t k).st = (if canUp s k = true then .align else .down) ∧
      (getLink t k).since = now ∧ ∀ i, i ≠ k → getLink t i = getLink s i
    (∀ skew, skew ≤ 64 → grpLocked s k = true → l.st = .align → grpMode s k = 0 →
      ∃ t h, exec (.alignLock g skew) s = .next t ∧ t = { s with links := t.links, out := t.out } ∧
        getLink t k = { flitSent l with st := .ident, since := now, locked := true, exch := false, trainAt := now } ∧
        t.out = Out.flit g (sealFlit s k 2 h (fit 0 232 (identRec s k))) :: s.out ∧ flType h = 2 ∧
        ∀ i, i ≠ k → getLink t i = getLink s i) ∧
    (∀ skew, 64 < skew ∨ grpLocked s k = false → exec (.alignLock g skew) s = .next s) ∧
    (l.st = .align → l.since + 60000000 ≤ now → grpMode s k ≠ 1 →
      ∃ t, exec (.alignTimeout g) s = .next t ∧ settled t ∧
        reg t (lnkOff k 0x12C) = satAdd (reg s (lnkOff k 0x12C)) 1 ∧ RegsKept s t [lnkOff k 0x12C] ∧
        t = { s with links := t.links, regs := t.regs, out := t.out }) ∧
    (l.st = .credit → l.since + 6000000 ≤ now → grpMode s k ≠ 1 →
      ∃ t, exec (.creditAuthTimeout g) s = .next t ∧ settled t ∧ t = { s with links := t.links, out := t.out }) ∧
    (l.st = .ident → grpMode s k = 2 → l.exch = true → l.since + 6000000 ≤ now →
      ∃ t, exec (.onewayIdentTimeout g) s = .next t ∧ settled t ∧ OnlyLink s t k) ∧
    (l.st = .retrain → l.since + 6000000 ≤ now →
      (residentAcc s l.owner.toNat = none → ∃ t, exec (.retrainTimeout g) s = .next t ∧
        getLink t k = failedLink now l ∧ (∀ i, i ≠ k → getLink t i = getLink s i) ∧
        Logged s t pg 1 0x0C03 l.owner (d0Lnk l.owner.toNat k) 0 ∧
        (∀ m ∈ tget [] t.opt.migs g.p, m ∈ tget [] s.opt.migs g.p ∧ m.g ≠ g.g) ∧
        t = { s with links := t.links, regs := t.regs, ldg := t.ldg, opt := { s.opt with migs := t.opt.migs }, lanes := t.lanes }) ∧
      (∀ j, residentAcc s l.owner.toNat = some j → edValid s j (1 - edActive s j) = false →
        ∃ t, exec (.retrainTimeout g) s = .next t ∧ (getLink t k).st = .failed ∧ (getJob t j).st = .faulted) ∧
      (∀ j, residentAcc s l.owner.toNat = some j → edValid s j (1 - edActive s j) = true →
        l.flying = [] → l.egress = [] → l.inj = [] →
        ∃ t, exec (.retrainTimeout g) s = .next t ∧ getLink t k = failedLink now l ∧
          edActive t j = 1 - edActive s j ∧
          t = { s with links := t.links, regs := t.regs, ldg := t.ldg, opt := { s.opt with migs := t.opt.migs }, lanes := t.lanes })) ∧
    (Served s pg → enableOk s k = false → exec (.lnkEnable g) s = .next s) ∧
    (Served s pg → enableOk s k = true → grpMode s k ≠ 1 →
      ∃ t, exec (.lnkEnable g) s = .next t ∧ (getLink t k).en = true ∧
        (getLink t k).st = (if l.st = .down ∧ grpLocked s k = true then .align else l.st) ∧
        (∀ i, i ≠ k → getLink t i = getLink s i) ∧ t = { s with links := t.links, out := t.out }) ∧
    (Served s pg → l.st = .down → exec (.lnkDisable g) s = .next (setLink s k { l with en := false })) ∧
    (Served s pg → l.st ≠ .down →
      ∃ t, exec (.lnkDisable g) s = .next t ∧ (getLink t k).st = .down ∧ (getLink t k).replay = [] ∧
        (getLink t k).resend = [] ∧ (getLink t k).ingress = [] ∧ (getLink t k).stream = [] ∧
        (l.st = .align ∨ l.st = .ident ∨ l.st = .credit ∨ l.st = .failed →
          (getLink t k).en = false ∧ OnlyLink s t k) ∧
        (l.st = .up ∨ l.st = .retrain → NoneWaits s pg → ∃ x ∈ t.ldg.wait, x.src = pg ∧ x.code = 0x0C03)) ∧
    (Served s pg → l.st = .failed ∨ l.st = .halt → grpMode s k ≠ 1 →
      ∃ t, exec (.lnkRestart g) s = .next t ∧ settled t ∧
        t = { s with links := t.links, top := t.top, regs := t.regs, ldg := t.ldg, out := t.out }) ∧
    (Served s pg → ∀ v : W32,
      let over' := 262144 < minSum s - 4 * fld (reg s (lnkOff k 0x10C)) 9 0 + 4 * fld v 9 0
      if l.st = .down ∧ 1 ≤ fld v 9 0 ∧ fld v 9 0 ≤ 512 then
        (¬ over' → ∃ t, exec (.lnkCrdLimWrite g v) s = .next t ∧ reg t (lnkOff k 0x10C) = BitVec.ofNat 32 (fld v 9 0) ∧
          RegsKept s t [lnkOff k 0x10C] ∧ t = { s with regs := t.regs }) ∧
        (over' → ∃ t, exec (.lnkCrdLimWrite g v) s = .next t ∧ t = { s with regs := t.regs, ldg := t.ldg } ∧
          Logged s t pgQP 1 0x0C11 0 (d0Lnk 0 k) 0)
      else exec (.lnkCrdLimWrite g v) s = .next s)) ∧
  (∀ (x : LaneId) (cause : LaneFault) (s : State),
    let p := x.p.val
    (∀ g k, slotOf s p x.l = some (g, k) → (∀ m ∈ tget [] s.opt.migs p, m.old ≠ x.l) →
      let l := getLink s g
      let twice := l.st = .up ∧ l.failAt = some s.clk.dst
      let spare := if pinned s p x.l = true then none else spareLane s p
      let settled (t : State) : Prop := (∀ i, tget [] t.opt.migs i = tget [] s.opt.migs i) ∧
        t = { s with lanes := t.lanes, links := t.links, regs := t.regs, out := t.out, opt := { s.opt with migs := t.opt.migs } }
      (grpMode s g ≠ 1 → grpMode s g ≠ 2 → laneRole s p x.l = .slot →
        (∀ n, spare = some n → n < 18 →
          ∃ t, exec (.laneFailed x cause) s = .next t ∧ (laneAt t p x.l).role = .failed ∧ (laneAt t p n).role = .slot ∧
            (∀ i, i ≠ 18 * p + x.l.val → i ≠ 18 * p + n → getLane t i = getLane s i) ∧ settled t ∧
            (¬ twice → getLink t g = { l with
              failAt := some s.clk.dst, lanes := setAt l.lanes k (Fin.ofNat 18 n)
              resend := if l.st = .up ∧ unacked l ≠ [] then unacked l else l.resend } ∧ t.out = s.out) ∧
            (twice → (getLink t g).st = .retrain ∧ (getLink t g).locked = false ∧ (getLink t g).replay = l.replay ∧
              (getLink t g).lanes = setAt l.lanes k (Fin.ofNat 18 n) ∧
              reg t (lnkOff g 0x12C) = satAdd (reg s (lnkOff g 0x12C)) 1)) ∧
        (spare = none → l.st = .up → residentAcc s l.owner.toNat = none →
          (∀ m ∈ tget [] s.opt.migs p, m.g.val ≠ g % 4) →
          ∃ t, exec (.laneFailed x cause) s = .next t ∧
            getLink t g = failedLink s.clk.dst { l with failAt := some s.clk.dst } ∧
            (∀ i, tget [] t.opt.migs i = tget [] s.opt.migs i) ∧
            t = { s with links := t.links, regs := t.regs, ldg := t.ldg, opt := { s.opt with migs := t.opt.migs } }) ∧
        (spare = none → l.st ≠ .up → ∃ t, exec (.laneFailed x cause) s = .next t ∧
          getLink t g = { l with failAt := some s.clk.dst } ∧ settled t)) ∧
      (grpMode s g ≠ 1 → grpMode s g ≠ 2 → laneRole s p x.l ≠ .slot → exec (.laneFailed x cause) s = .next s) ∧
      (grpMode s g = 2 → l.st = .up → laneRole s p x.l = .slot ∨ laneRole s p x.l = .passage →
        ∃ t, exec (.laneFailed x cause) s = .next t ∧ (getLink t g).st = .align ∧ (getLink t g).stream = [] ∧
          reg t (lnkOff g 0x12C) = satAdd (reg s (lnkOff g 0x12C)) 1 ∧ t = { s with links := t.links, regs := t.regs }) ∧
      (grpMode s g = 1 ∨ grpMode s g = 2 → l.st ≠ .up → exec (.laneFailed x cause) s = .next s)) ∧
    (slotOf s p x.l = none → (∀ m ∈ tget [] s.opt.migs p, m.old ≠ x.l) → exec (.laneFailed x cause) s = .next s) ∧
    (∀ ppb, ppb ≤ 240000 → exec (.lnkSerWarn x ppb) s = .next s) ∧
    (∀ ppb g k, 240000 < ppb → slotOf s p x.l = some (g, k) →
      ∃ t, exec (.lnkSerWarn x ppb) s = .next t ∧ t = { s with regs := t.regs, ldg := t.ldg } ∧
        Logged s t (pgLNK p) 1 0x0C0F (getLink s g).owner (d0Lnk (getLink s g).owner.toNat g) 0))

/-- Flits received. A two-way group takes a data flit in sequence: its payload joins its VC's stream, and the whole packets
of the owner enter the ingress queue; one that fails its CRC or tag, or is out of sequence, is discarded and leads to one
NAK; a copy is discarded. The first good idle flit after the credit exchange brings the group UP with its counts at 0. A
training flit is checked by CRC alone: an accepted identity record leads to CREDIT, a rejected one to HALT with its
reason. A SYNC flit gives the offset of R29. ACK, NAK and credit fields act as R272 and R275 say. The FEC's findings are
counted on their lanes. A good flit of the next epoch takes the receiver there. A receiver that holds the sender's key and
count reads the header and payload that the sender sealed, with both checks good. -/
def Obligations.ReceivedFlits : Prop :=
  (∀ (g : Grp) (w : RxWire) (s : State),
    let k := g.key
    let l := getLink s k
    let u := countFec s k w
    let f := openFlit s k w.flit
    let lo := opened s k f
    let la := fieldsTaken s.clk.dst lo f.hdr
    let v := flVc f.hdr
    u = { s with regs := u.regs } ∧
    (l.lanes.Nodup → l.lanes.length = w.fec.length → ∀ e ∈ l.lanes.zip w.fec,
      (∀ n ∈ [(0x300, FecOut.corrected), (0x304, .uncorrectable)], let o := at' (pgLNK g.p) (n.1 + 8 * e.1)
        reg u o = satAdd (reg s o) (if e.2 = some n.2 then 1 else 0))) ∧
    (l.st = .up → f.crcOk = true → f.tagOk = true →
      (rxEpochOf l f.hdr = l.rxEpoch → lo = { l with fcRx := l.fcRx + 1 }) ∧
      (rxEpochOf l f.hdr ≠ l.rxEpoch → bareFlit s k f.hdr = false →
        lo = { l with fcRx := l.fcRx + 1, rxEpoch := l.rxEpoch + 1, keys := lo.keys } ∧
        ∀ e ∈ [l.rxEpoch + 1, l.rxEpoch + 2], tget 0 lo.keys (2 * e + rxDir k) = linkKey (linkRoot s k) (rxDir k) e)) ∧
    (GoodFlit s k 1 w → l.st = .up →
      (flSeq f.hdr = (l.rxSeq + 1) % 4096 →
        ∀ ps rest, parseStream (streamIn l f.hdr f.pay).length (streamIn l f.hdr f.pay) = (ps, rest) →
        (∀ p ∈ ps, l.owner ≠ 0 ∧ pkAcc p = l.owner.toNat ∧ pkMT p < 6 ∧ badMC s p = false) →
        ∃ t, exec (.dataFlit g w) s = .next t ∧ OnlyLink u t k ∧ getLink t k = { la with
          rxSeq := flSeq f.hdr, nak := false, stream := tput [] l.stream v rest
          synced := tput true l.synced v (tget true l.synced v || decide (flNxt f.hdr ≤ 231))
          rxn := tput 0 l.rxn v (tget 0 l.rxn v + 1), ingress := (getLink t k).ingress
          inAt := (getLink t k).inAt, partAt := (getLink t k).partAt } ∧
          tget [] (getLink t k).ingress v = tget [] l.ingress v ++ ps ∧
          (tget [] (getLink t k).inAt v).length = (tget [] l.inAt v).length + ps.length ∧
          ∀ i, i ≠ v → tget [] (getLink t k).ingress i = tget [] l.ingress i) ∧
      (flSeq f.hdr ≠ (l.rxSeq + 1) % 4096 →
        ∃ t, exec (.dataFlit g w) s = .next t ∧ OnlyLink u t k ∧
          getLink t k = if (l.rxSeq + 4096 - flSeq f.hdr) % 4096 < 2048 ∨ l.nak = true then la
            else { la with nak := true, nakOut := true })) ∧
    (flType w.flit.hdr = 1 → l.role ≠ 2 → grpMode s k = 0 → l.st = .up → f.crcOk = false ∨ f.tagOk = false →
      ∃ t, exec (.dataFlit g w) s = .next t ∧
        getLink t k = { l with fcRx := l.fcRx + 1, nak := true, nakOut := true } ∧
        (f.crcOk = false → reg t (lnkOff k 0x110) = satAdd (reg s (lnkOff k 0x110)) 1 ∧ t.ldg = s.ldg) ∧
        (f.crcOk = true → reg t (lnkOff k 0x114) = satAdd (reg s (lnkOff k 0x114)) 1 ∧
          Logged s t (pgLNK g.p) 1 0x0C01 l.owner (d0Lnk l.owner.toNat k) 0) ∧
        t = { s with links := t.links, regs := t.regs, ldg := t.ldg }) ∧
    (flType w.flit.hdr = 1 → l.role ≠ 2 → grpMode s k = 2 → l.st = .up → f.crcOk = true → f.tagOk = true →
      ∀ ps rest, parseStream (streamIn l f.hdr f.pay).length (streamIn l f.hdr f.pay) = (ps, rest) →
      (∀ p ∈ ps, l.owner ≠ 0 ∧ pkAcc p = l.owner.toNat ∧ pkMT p < 6 ∧ badMC s p = false) →
      ∃ t, exec (.dataFlit g w) s = .next t ∧ OnlyLink u t k ∧
        tget [] (getLink t k).ingress v = tget [] l.ingress v ++ ps ∧ tget [] (getLink t k).stream v = rest) ∧
    (GoodFlit s k 0 w → recOf f.pay = none →
      (l.st = .up ∨ l.st = .retrain → ∃ t, exec (.idleFlit g w) s = .next t ∧ OnlyLink u t k ∧ getLink t k = la) ∧
      (l.st = .credit → l.exch = true → (∀ x < 18, (laneAt s g.p x).stage < 2) →
        ∃ t, exec (.idleFlit g w) s = .next t ∧ OnlyLink u t k ∧
        getLink t k = { lo.fresh s.clk.dst with crn := tput 0 [] (flCrvc f.hdr) (flCrn f.hdr) })) ∧
    (flType w.flit.hdr = 0 → l.role ≠ 2 → grpMode s k = 0 → f.crcOk = true → f.tagOk = true → flNak f.hdr = true →
      recOf f.pay = none → l.st = .up → unacked la ≠ [] → (∀ x ∈ unacked la, x.tries < 4) →
      ∃ t, exec (.idleFlit g w) s = .next t ∧ reg t (lnkOff k 0x118) = satAdd (reg u (lnkOff k 0x118)) 1 ∧
        getLink t k = { la with resend := unacked la, ackAt := s.clk.dst } ∧
        RegsKept u t [lnkOff k 0x118] ∧ t = { u with links := t.links, regs := t.regs }) ∧
    (flType w.flit.hdr = 2 → l.role ≠ 2 → grpMode s k = 0 → f.crcOk = true →
      let r : W256 := BitVec.ofNat 256 (ofBytes (f.pay.take 32))
      let whole := fld r 31 0 = (crc32c ((f.pay.drop 4).take 28)).toNat
      (l.st = .ident → ¬ whole → exec (.trainingFlit g w) s = .next (setLink u k { l with fcRx := l.fcRx + 1 })) ∧
      (l.st = .ident → whole → identReason s k r = none →
        ∃ t, exec (.trainingFlit g w) s = .next t ∧ (getLink t k).st = .credit ∧ (getLink t k).peer = r ∧
          (getLink t k).ver = BitVec.ofNat 8 (min Config.pver.toNat (idPver r)) ∧
          (getLink t k).feat = Config.features &&& BitVec.ofNat 16 (idFeat r) ∧
          t = { u with links := t.links, out := t.out }) ∧
      (∀ why, l.st = .ident → whole → identReason s k r = some why →
        ∃ t, exec (.trainingFlit g w) s = .next t ∧ (getLink t k).st = .halt ∧ (getLink t k).reason = why ∧
          t.top.ready = false ∧ reg t (at' pgTOP 0x144) = satAdd (reg s (at' pgTOP 0x144)) 1 ∧
          t = { u with links := t.links, top := t.top, regs := t.regs, ldg := t.ldg, out := t.out }) ∧
      (l.st = .credit → ∃ t, exec (.trainingFlit g w) s = .next t ∧ OnlyLink u t k ∧
        let e := ofBytes ((f.pay.drop 16).take 4)
        getLink t k = { l with
          peerLim := ofBytes (f.pay.take 2), fcRx := ofBytes ((f.pay.drop 8).take 8), rxEpoch := e, exch := true
          keys := (getLink t k).keys } ∧
        ∀ i ∈ [e, e + 1], tget 0 (getLink t k).keys (2 * i + rxDir k) = linkKey (linkRoot s k) (rxDir k) i)) ∧
    (GoodFlit s k 3 w → l.st = .up → ofBytes ((f.pay.drop 9).take 9) ≠ 0 →
      let o : Int := (((ofBytes ((f.pay.drop 18).take 9) : Int) - ofBytes ((f.pay.drop 9).take 9)) +
        ((ofBytes (f.pay.take 9) : Int) - stamp s)) / 2
      ∃ t, exec (.syncFlit g w) s = .next t ∧
        getLink t k = takeOffset s.clk.dst o { la with peerT1 := ofBytes (f.pay.take 9), peerRx := stamp s } ∧
        (∀ i, i ≠ k → getLink t i = getLink s i) ∧
        t.bup = { s.bup with phase := if s.bup.isLocal = true then max 11 s.bup.phase else s.bup.phase } ∧
        (isRoot s = true → t = { u with links := t.links, bup := t.bup }) ∧
        (isRoot s = false → s.bup.ready = true → t.clk = { s.clk with
          target := wMean (fun i => Config.portWeight (i / 4)) (fun i => (getLink t i).offs) (steerGrps t)
          since := t.clk.since } ∧ t = { u with links := t.links, clk := t.clk, bup := t.bup }))) ∧
  (∀ (a b : Grp) (ty : Nat) (h : W64) (pay : List Byte) (s r : State),
    let x := getLink s a.key
    let y := getLink r b.key
    flType h = ty → bit h 12 = x.kep → (grpMode s a.key, grpMode r b.key) ∈ [(0, 0), (1, 2), (2, 1)] →
    txDir a.key = rxDir b.key → y.fcRx = x.fcTx →
    tget 0 y.keys (2 * rxEpochOf y h + rxDir b.key) = tget 0 x.keys (2 * x.epoch + txDir a.key) →
    openFlit r b.key (sealFlit s a.key ty h pay) = { crcOk := true, tagOk := true, hdr := h, pay := pay })

/-- Flits sent. A two-way group in UP sends first what is to be resent, under its old sequence number; else the packets
of the first VC in turn that has credit, under the next number, kept for replay; else an idle flit, counting a full
replay buffer or a stall for credit; a packet that needs more than one flit keeps the turn until its end. A one-way source
sends multicast packets or idles and keeps nothing for replay; its receiver sends idles. In training states a two-way
group sends its training flits. KEY_EPOCH_CHANGE, SYNC_SEND, REPLAY_TIMEOUT and the one-way source's training act at their
times. A flit carries the CRC-32C of its first 252 bytes; a training flit, and one of the reverse direction of a one-way
group, carries its payload in clear and a tag of 0. -/
def Obligations.SentFlits : Prop :=
  (∀ (g : Grp) (s : State),
    let k := g.key
    let l := getLink s k
    let now := s.clk.dst
    let due := decide (l.trainAt + 60000 ≤ now)
    let sent (t : State) (ty : Nat) (h : W64) (pay : List Byte) : Prop :=
      t.out = Out.flit g (sealFlit s k ty h (fit 0 232 pay)) :: s.out ∧
      (∀ i, i ≠ k → getLink t i = getLink s i) ∧ t = { s with links := t.links, out := t.out, regs := t.regs }
    (l.role ≠ 2 → linkClock s g.p = true → grpMode s k = 0 → l.st = .up →
      (∀ f r, l.resend = f :: r → tget 0 s.fab.qFlaws k = 0 →
        ∃ t, exec (.flitTransmit g) s = .next t ∧ sent t 1 (headerOf l 1 f.seq f.vc (replayNxt l f)) f.pay ∧
          getLink t k = { flitSent l with
            resend := r, replay := l.replay.map (fun x => if x.seq = f.seq then { x with tries := x.tries + 1 } else x) }) ∧
      (l.resend = [] → (tget [] s.opt.migs (k / 4)).any (fun m => decide (m.g.val = k % 4) && switchDue m) = false →
        let idles (o : Nat) : Prop := ∃ t, exec (.flitTransmit g) s = .next t ∧ sent t 0 (headerOf l 0 0 0 0xFF) [] ∧
          getLink t k = flitSent l ∧ (o = 0 → t.regs = s.regs) ∧
          (o ≠ 0 → reg t (lnkOff k o) = satAdd (reg s (lnkOff k o)) 1 ∧ RegsKept s t [lnkOff k o])
        (768 ≤ l.replay.length → idles 0x11C) ∧
        (l.replay.length < 768 → sendable s k = [] → idles 0) ∧
        (l.replay.length < 768 → sendable s k ≠ [] → (∀ v ∈ sendable s k, freeCred l v = 0) → idles 0x120) ∧
        (∀ v, l.replay.length < 768 → (sendable s k).find? (fun v => decide (0 < freeCred l v)) = some v →
          ∃ t pay nxt at0, exec (.flitTransmit g) s = .next t ∧ sent t 1 (headerOf l 1 ((l.seq + 1) % 4096) v nxt) pay ∧
            pay.length = 232 ∧ t.regs = s.regs ∧ (getLink t k).seq = (l.seq + 1) % 4096 ∧
            (getLink t k).replay = l.replay ++ [RFlit.mk ((l.seq + 1) % 4096) v at0 pay 0] ∧
            tget 0 (getLink t k).sent v = tget 0 l.sent v + 1 ∧
            (∀ p, tget [] l.backlog v = [] → tget [] l.egress v = [p] → mayStart s k p = true →
              nxt = 0 ∧ tget [] (getLink t k).egress v = [] ∧
              (p.pay.length ≤ 200 → pay = fit 0 232 (pktBytes p) ∧ tget [] (getLink t k).backlog v = [] ∧
                (getLink t k).rr = (v + 1) % 4) ∧
              (200 < p.pay.length → pay = (pktBytes p).take 232 ∧
                tget [] (getLink t k).backlog v = (pktBytes p).drop 232 ∧ (getLink t k).rr = v))))) ∧
    (l.role ≠ 2 → linkClock s g.p = true → grpMode s k = 1 → l.st = .up →
      (tget [] l.backlog 2 = [] → startable s k 2 = [] → ∃ t h, exec (.flitTransmit g) s = .next t ∧ sent t 0 h [] ∧
        flType h = 0 ∧ t.regs = s.regs ∧ getLink t k = flitSent l) ∧
      (tget [] l.backlog 2 ≠ [] ∨ startable s k 2 ≠ [] → ∃ t h pay, exec (.flitTransmit g) s = .next t ∧ sent t 1 h pay ∧
        flType h = 1 ∧ flSeq h = 0 ∧ flVc h = 2 ∧ t.regs = s.regs ∧ (getLink t k).replay = l.replay ∧
        (getLink t k).sent = l.sent)) ∧
    (l.role ≠ 2 → linkClock s g.p = true → grpMode s k = 2 → l.st ≠ .down → l.st ≠ .failed → l.st ≠ .halt →
      ∃ t h, exec (.flitTransmit g) s = .next t ∧ sent t 0 h [] ∧ flType h = 0 ∧ t.regs = s.regs ∧ getLink t k = flitSent l) ∧
    (l.role ≠ 2 → linkClock s g.p = true → grpMode s k = 0 →
      ∀ e ∈ [(LinkSt.align, true, alignPay s k), (.ident, due, identRec s k), (.credit, due || !l.exch, creditPay s k),
        (.retrain, due && l.locked, creditPay s k)], l.st = e.1 → e.2.1 = true →
      ∃ t, exec (.flitTransmit g) s = .next t ∧ sent t 2 (headerOf l 2 0 0 0xFF) e.2.2 ∧ t.regs = s.regs ∧
        getLink t k = { flitSent l with trainAt := now }) ∧
    (l.epoch < l.fcTx / 2 ^ 32 →
      ∃ t, exec (.keyEpochChange g) s = .next t ∧ OnlyLink s t k ∧
        getLink t k = { l with epoch := l.epoch + 1, kep := !l.kep, keys := (getLink t k).keys } ∧
        tget 0 (getLink t k).keys (2 * (l.epoch + 1) + txDir k) = linkKey (linkRoot s k) (txDir k) (l.epoch + 1)) ∧
    (l.st = .up → grpMode s k < 2 → l.syncAt + 65536 ≤ now →
      ∃ t h, exec (.syncSend g) s = .next t ∧ t.regs = s.regs ∧ getLink t k = { flitSent l with syncAt := now } ∧
        flType h = 3 ∧ (grpMode s k = 0 → h = headerOf l 3 0 0 0xFF) ∧
        sent t 3 h (bytesOf 9 (stamp s) ++ bytesOf 9 l.peerT1 ++ bytesOf 9 l.peerRx)) ∧
    (l.st = .up → grpMode s k = 0 → l.ackAt + 6000 ≤ now → unacked l ≠ [] →
      ((∀ f ∈ unacked l, f.tries < 4) → ∃ t, exec (.replayTimeout g) s = .next t ∧
        getLink t k = { l with resend := unacked l, ackAt := now } ∧
        reg t (lnkOff k 0x118) = satAdd (reg s (lnkOff k 0x118)) 1 ∧ RegsKept s t [lnkOff k 0x118] ∧
        t = { s with links := t.links, regs := t.regs }) ∧
      ((∃ f ∈ unacked l, 4 ≤ f.tries) → ∃ t, exec (.replayTimeout g) s = .next t ∧ (getLink t k).st = .retrain ∧
        (getLink t k).replay = l.replay ∧ reg t (lnkOff k 0x12C) = satAdd (reg s (lnkOff k 0x12C)) 1)) ∧
    (l.st = .up → grpMode s k = 1 → l.trainAt + 60000 ≤ now →
      ∃ t h, exec (.onewayTrainingSend g) s = .next t ∧ sent t 2 h (identRec s k ++ bytesOf 8 l.fcTx) ∧ flType h = 2 ∧
        t.regs = s.regs ∧ getLink t k = { flitSent l with trainAt := now })) ∧
  (∀ (g ty : Nat) (h : W64) (pay : List Byte) (s : State),
    let f := sealFlit s g ty h pay
    f.hdr = h ∧ f.crc = crc32c (bytesOf 8 h.toNat ++ f.pay ++ f.tag) ∧ f.pay.length = pay.length ∧
    (ty = 2 ∨ grpMode s g = 2 → f.pay = pay ∧ f.tag = List.replicate 12 0) ∧ (ty = 3 → f.pay = pay))

/-- PUT, SIGNAL and GET_REPLY for this hub: a packet of a resident job joins its message in the table; the last packet
puts the whole message into the arrival class and leaves a tombstone; a copy, or a reply that no outstanding GET waits
for, is counted and changes nothing. A PUT or GET that fails its check faults the job; a GET that passes waits for its
read. -/
def Obligations.MessagePackets : Prop :=
  ∀ (g : Grp) (vc : Fin 4) (p : Packet) (j : Nat) (s : State),
    let u := passedOn s g vc p
    let dup := at' pgRTR (0x10C + 0x40 * j)
    residentAcc u (pkAcc p) = some j →
    (∀ e ∈ [(1, Instr.put g vc, h2Addr p / 2 ^ 39 % 4), (5, .signal g vc, h2CQ p), (3, .getReply g vc, h2RRQ p)],
      HeadIs s g vc e.1 p → quadRst u e.2.2 = false →
      (msgDup u p = true → ∃ t, exec e.2.1 s = .next t ∧ reg t dup = satAdd (reg u dup) 1 ∧
        RegsKept u t [dup] ∧ t = { u with regs := t.regs }) ∧
      (msgDup u p = false → msgFull u j p = false → (e.1 = 1 → putFits u p) →
        (e.1 = 3 → ∃ x, tagOf u p = some x ∧ ∀ b ∈ x.got, b.1 ≠ h2Roff p) →
        let m := entryWith u g.key e.2.2 p
        ∃ t, exec e.2.1 s = .next t ∧ t = { u with fab := { u.fab with msgs := t.fab.msgs, arrive := t.fab.arrive } } ∧
          (m.got.length < m.n → t.fab.msgs = othersOf u m ++ [m] ∧ t.fab.arrive = u.fab.arrive) ∧
          (m.n ≤ m.got.length → t.fab.msgs = othersOf u m ++ [{ m with got := [], tomb := some u.clk.dst }] ∧
            t.fab.arrive = u.fab.arrive ++ [arrivalOf u j m]))) ∧
    (HeadIs s g vc 3 p → quadRst u (h2RRQ p) = false → msgDup u p = false → tagOf u p = none →
      ∃ t, exec (.getReply g vc) s = .next t ∧ reg t dup = satAdd (reg u dup) 1 ∧
        t = { u with regs := t.regs }) ∧
    (HeadIs s g vc 1 p → quadRst u (h2Addr p / 2 ^ 39 % 4) = false → msgDup u p = false →
      ¬ putFits u p → ∃ t, exec (.put g vc) s = .next t ∧ (getJob t j).st = .faulted) ∧
    (∀ x, HeadIs s g vc 2 p → quadRst u (h2Addr p / 2 ^ 39 % 4) = false → gaParse (h2Addr p) = some x →
      let lo : Int := x.byte + min 0 (((h2Rows p - 1 : Nat) : Int) * h2Sstr p)
      let hi : Int := x.byte + max 0 (((h2Rows p - 1 : Nat) : Int) * h2Sstr p) + h2Rowlen p - 1
      (remoteOk u (pkAcc p) (h2Addr p) lo.toNat hi.toNat lo hi 33 = true →
        exec (.get g vc) s = .next { u with
          fab := { u.fab with getQ := u.fab.getQ ++ [GetReq.mk (Fin.ofNat 4 x.q) p g] } }) ∧
      (remoteOk u (pkAcc p) (h2Addr p) lo.toNat hi.toNat lo hi 33 = false →
        ∃ t, exec (.get g vc) s = .next t ∧ (getJob t j).st = .faulted))

/-- In an arrival slot of its job MESSAGE_LANDING puts the oldest complete message of a quadrant in place, whole, and
credits its counter once; a piece of a GET counts once however often it lands, and the last one frees its tag. GET_RESPONSE
reads the oldest GET's source and sends it back in replies of at most 256 bytes. Outside a slot nothing happens. A
tombstone ends after its life; an entry incomplete for four lives is freed with a warning. -/
def Obligations.MessageLanding : Prop :=
  (∀ (q : Fin 4) (a : Arrival) (pre post : List Arrival) (s : State), FirstFor q s.fab.arrive pre a post →
    (arrSlot s a.job q = false → exec (.messageLanding q) s = .next s) ∧ (
    arrSlot s a.job q = true → tget 0 s.fab.qFlaws (0xA0 + q) = 0 → s.flaws = [] → resident (getJob s a.job).st = true →
    (chargeCells s (Who.mk (accOf s a.job) (some a.job)) a.writes).2 = true →
    let stored (t : State) : Prop :=
      (∀ b, rdByte t b = a.writes.foldl (fun v c => if c.1 = b then c.2 else v) (rdByte s b)) ∧ t.fab.arrive = pre ++ post
    (a.get = none → a.credit = none → ∃ t, exec (.messageLanding q) s = .next t ∧ stored t ∧
      t = { s with mem := t.mem, mcs := t.mcs, regs := t.regs, fab := { s.fab with arrive := pre ++ post } }) ∧
    (∀ (cl : Clu) n k, a.get = none → a.credit = some (cl, n, k) →
      ∃ t, exec (.messageLanding q) s = .next t ∧ stored t ∧
        getCtr t cl.key n = { getCtr s cl.key n with sum := (getCtr s cl.key n).sum - k, at' := s.clk.dst } ∧
        (∀ i m, (i, m) ≠ (cl.key, n) → getCtr t i m = getCtr s i m) ∧ (cl.key, n) ∈ t.dirty ∧
        t = { s with
          mem := t.mem, mcs := t.mcs, regs := t.regs, clus := t.clus, dirty := t.dirty,
          fab := { s.fab with arrive := pre ++ post } }) ∧
    (∀ tag x, a.get = some tag → a.credit = none → (tget [] s.fab.gets q).find? (fun y => y.tag == tag) = some x →
      let pieces := a.offs.foldl (fun l o => if l.any (fun e => e.1 == o.1) then l else l ++ [o]) x.got
      let got := sumNat (pieces.map Prod.snd)
      let size := mdRows x.mv.md * mdRowlen x.mv.md
      let rest := (tget [] s.fab.gets q).filter (fun y => y.tag != tag)
      (got < size → ∃ t, exec (.messageLanding q) s = .next t ∧ stored t ∧
        tget [] t.fab.gets q = rest ++ [{ x with got := pieces }]) ∧
      (size ≤ got → x.mv.cc = none → ∃ t, exec (.messageLanding q) s = .next t ∧ stored t ∧
        tget [] t.fab.gets q = rest ∧ (∀ m ∈ (getCore t x.core).mvFly, m ∈ (getCore s x.core).mvFly ∧
          ¬ (m.op = 3 ∧ m.launch = x.mv.launch ∧ m.mdIdx = x.mv.mdIdx)))))) ∧
  (∀ (q : Fin 4) (r : GetReq) (pre post : List GetReq) (x : GA) (j : Nat) (s : State),
    s.fab.getQ = pre ++ r :: post → r.q = q → (∀ b ∈ pre, b.q ≠ q) → gaParse (h2Addr r.pkt) = some x →
    residentAcc s (pkAcc r.pkt) = some j → s.flaws = [] →
    (arrSlot s j q = false → exec (.getResponse q) s = .next s) ∧ (arrSlot s j q = true →
    let e : End := End.mk x x.byte (h2Rows r.pkt) (h2Rowlen r.pkt) (h2Sstr r.pkt) true false
    ∀ u, u = (chargeEnd { s with fab := { s.fab with getQ := pre ++ post } } (Who.mk (accOf s j) (some j)) e
        (s.clk.dst / 4)).1 →
    (chargeEnd { s with fab := { s.fab with getQ := pre ++ post } } (Who.mk (accOf s j) (some j)) e
        (s.clk.dst / 4)).2 = true →
    exec (.getResponse q) s = .next (sendMessages u j r.g.g 3 (pkSrc r.pkt)
      (fun o => BitVec.ofNat 128 (o * 2 ^ 96 + (h2Tag r.pkt * 2 ^ 90 + h2RQ r.pkt * 2 ^ 88)))
      (cutRows [(0, (endRows u e).flatten)])))) ∧
  (∀ (q : Fin 4) (acc src : Nat) (mid : W32) (s : State),
    let life := (reg s (at' pgRTR 0x110)).toNat * 6000
    (∃ t, exec (.msgTombExpiry q acc src mid) s = .next t ∧ t = { s with fab := { s.fab with msgs := t.fab.msgs } } ∧
      ∀ m, m ∈ t.fab.msgs ↔ m ∈ s.fab.msgs ∧ ¬ (isMsg q acc src mid m = true ∧ ∃ x, m.tomb = some x ∧ x + life ≤ s.clk.dst)) ∧
    (∀ m, s.fab.msgs.find? (fun m => isMsg q acc src mid m && m.tomb.isNone && decide (m.open' + 4 * life ≤ s.clk.dst))
        = some m →
      ∃ t, exec (.msgStale q acc src mid) s = .next t ∧ t = { s with regs := t.regs, ldg := t.ldg, fab := { s.fab with
          msgs := s.fab.msgs.filter (fun x => !isMsg q acc src mid x) } } ∧
        Logged s t pgRTR 1 0x0C0B m.acc (d0Lnk acc m.link) mid))

/-- PACKET_TRANSIT takes a packet on by its edition, X first, then Y, then Z, one hop more: to the lane group with the
most free credits among those of the job that have not failed, on the VC of its phase and dateline. No way on, or 80
hops, drops it and faults the job. PACKET_INJECT sends the first packet of an injection queue only while a window is
open, on VC 2 of a one-way source; on a failed group without another edition the packet is dropped. Packets that have not
started at a close, in injection or in egress, are counted once each. -/
def Obligations.RouterPackets : Prop :=
  (∀ (g : Grp) (vc : Fin 4) (p : Packet) (j : Nat) (s : State), inHead s g.key vc = some p → isHere s p = false →
    tget 0 s.fab.qFlaws (qIngress g.key vc) = 0 → edSlot s (pkAcc p) = some j →
    let ed := if edFailed (popIn s g.key vc) j (pkED p) p = true ∧ edValid s j (1 - pkED p) = true then 1 - pkED p else pkED p
    let ph := pkPH p || decide (pkVia p = ownNode s)
    let hop := nextHop s j ed (if ph then pkDst p else pkVia p)
    (∀ x k, pkHops p + 1 < 80 → hop = .port x →
      let v := outVc s j ed x ph (decide (g.key / 4 / 2 = x / 2) && (ph == decide (2 ≤ vc.val)) && decide (vc.val % 2 = 1))
      bestLive (popIn s g.key vc) j ed x v false = some k →
      ∃ t q, exec (.packetTransit g vc) s = .next t ∧ t = { s with links := t.links, regs := t.regs } ∧
        tget [] (getLink t (4 * x + k)).egress v = tget [] (getLink s (4 * x + k)).egress v ++ [q] ∧
        q.pay = p.pay ∧ q.hdr2 = p.hdr2 ∧ pkHops q = pkHops p + 1 ∧ pkPH q = ph ∧ pkED q = ed ∧ pkDst q = pkDst p ∧
        pkAcc q = pkAcc p ∧ pkMid q = pkMid p ∧
        (getLink t g.key).ingress = (getLink (popIn s g.key vc) g.key).ingress) ∧
    (residentAcc s (pkAcc p) = some j → (80 ≤ pkHops p + 1 ∨ hop = .here ∨ hop = .none ∨
        ∃ x, hop = .port x ∧ liveGrps (popIn s g.key vc) j ed x false = []) →
      ∃ t, exec (.packetTransit g vc) s = .next t ∧ (getJob t j).st = .faulted ∧
        reg t (at' pgRTR (0x108 + 0x40 * j)) = satAdd (reg s (at' pgRTR (0x108 + 0x40 * j))) 1)) ∧
  (∀ (g : Grp) (p : Packet) (r : List Packet) (j : Nat) (s : State),
    let k := g.key
    let l := getLink s k
    l.inj = p :: r → runningAcc s l.owner.toNat = some j →
    (windowOpen s j k = false → exec (.packetInject g) s = .next s) ∧
    (windowOpen s j k = true → tget 0 s.fab.qFlaws (0x80 + k) = 0 → l.st ≠ .failed →
      let v := if grpMode s k = 1 then 2 else outVc s j (pkED p) g.p (pkPH p) false
      ∃ t q, exec (.packetInject g) s = .next t ∧ OnlyLink s t k ∧
        getLink t k = { l with inj := r, egress := tput [] l.egress v (tget [] l.egress v ++ [q]) } ∧
        q.pay = p.pay ∧ q.hdr2 = p.hdr2 ∧ pkHops q = (pkHops p + 1) % 128 ∧ pkDst q = pkDst p) ∧
    (∀ i, windowOpen s j k = true → tget 0 s.fab.qFlaws (0x80 + k) = 0 → l.st = .failed → edValid s j (1 - pkED p) = false →
      residentAcc s (pkAcc p) = some i → ∃ t, exec (.packetInject g) s = .next t ∧ (getJob t i).st = .faulted ∧
        (getLink t k).inj = r ∧
        reg t (at' pgRTR (0x108 + 0x40 * i)) = satAdd (reg s (at' pgRTR (0x108 + 0x40 * i))) 1)) ∧
  (∀ (g : Grp) (j : Nat) (i : Image) (s : State), runningAcc s (getLink s g.key).owner.toNat = some j →
    (getJob s j).img = some i →
    let l := getLink s g.key
    let closes := ∃ a ∈ i.segs, ∃ w ∈ tget [] a.windows g.key,
      (getJob s j).s + a.origin + 4 * w.2 = jobTime s (getJob s j)
    let keys := (l.inj ++ (l.egress.flatMap Prod.snd).filter (ownFirst s)).map waitKey
    (closes → ∃ t, exec (.injectionWindowClose g) s = .next t ∧ getLink t g.key = { l with late := keys } ∧
      reg t (lnkOff g.key 0x124) = satAdd (reg s (lnkOff g.key 0x124)) (keys.countP (fun x => !l.late.contains x)) ∧
      RegsKept s t [lnkOff g.key 0x124] ∧ t = { s with links := t.links, regs := t.regs }) ∧
    (¬ closes → exec (.injectionWindowClose g) s = .next s))

/-- The registers of router and queue pool. A table word is written unless it belongs to the active edition of a running
job; the tombstone life takes 1 to 16,000; a class minimum keeps the sum within the pool; FLUSH empties the queue named:
the cells of a data queue are counted, a circulation queue's context keeps no part and completes no more, the items of
a telemetry, trace or Ledger queue are lost. -/
def Obligations.FabricRegisters : Prop :=
  (∀ (w : Fin 6) (v : W32) (s : State), Served s pgRTR →
    let j := fld (reg s (at' pgRTR 0x200)) 1 0
    let ed := fld (reg s (at' pgRTR 0x200)) 2 2
    let busy := (getJob s j).st = .running ∧ edActive s j = ed
    (¬ busy → ∃ t, exec (.rtrTblWordWrite w v) s = .next t ∧ t = { s with fab := { s.fab with tbl := t.fab.tbl } } ∧
      edWord t j ed w = (if w.val = 4 then v &&& 0x3F else if w.val = 5 then v &&& 0xFFFFFF else v) ∧
      ∀ i x y, x < 2 → y < 6 → (i, x, y) ≠ (j, ed, w.val) → edWord t i x y = edWord s i x y) ∧
    (busy → ∃ t, exec (.rtrTblWordWrite w v) s = .next t ∧ t = { s with regs := t.regs, ldg := t.ldg } ∧
      Logged s t pgRTR 1 0x0C10 (getJob s j).acc (d0Lnk (getJob s j).acc.toNat 0) 0)) ∧
  (∀ (v : W32) (s : State), Served s pgRTR →
    (v ≠ 0 → v.toNat ≤ 16000 → ∃ t, exec (.msgTombWrite v) s = .next t ∧ reg t (at' pgRTR 0x110) = v ∧
      RegsKept s t [at' pgRTR 0x110] ∧ t = { s with regs := t.regs }) ∧
    (v = 0 ∨ 16000 < v.toNat → ∃ t, exec (.msgTombWrite v) s = .next t ∧ reg t (at' pgRTR 0x110) = reg s (at' pgRTR 0x110) ∧
      reg t (at' pgHST 0x104) = satAdd (reg s (at' pgHST 0x104)) 1)) ∧
  (∀ (v : W32) (s : State), Served s pgQP →
    let c := fld (reg s (at' pgQP 0x100)) 3 0
    (c = 0 ∨ c = 1 ∨ 8 ≤ c → exec (.qpClsMinWrite v) s = .next s) ∧
    (2 ≤ c → c < 8 → minSum s - clsMinOf s c + v.toNat ≤ 262144 →
      ∃ t, exec (.qpClsMinWrite v) s = .next t ∧ t = { s with fab := { s.fab with clsMin := t.fab.clsMin } } ∧
        clsMinOf t c = v.toNat ∧ ∀ d, d ≠ c → clsMinOf t d = clsMinOf s d) ∧
    (2 ≤ c → c < 8 → 262144 < minSum s - clsMinOf s c + v.toNat →
      ∃ t, exec (.qpClsMinWrite v) s = .next t ∧ t = { s with regs := t.regs, ldg := t.ldg } ∧
        Logged s t pgQP 1 0x0C11 0 0 0)) ∧
  (∀ (v : W32) (s : State), Served s pgQP →
    let n := fld v 11 0
    let freed := at' pgQP 0x130
    (bit v 31 = false → ∃ t, exec (.flush v) s = .next t ∧ reg t (at' pgQP 0x114) = v &&& 0xFFF ∧
      RegsKept s t [at' pgQP 0x114] ∧ t = { s with regs := t.regs }) ∧
    (bit v 31 = true → 0x80 ≤ n → n < 0x98 → ∃ t, exec (.flush v) s = .next t ∧
      getLink t (n - 0x80) = { getLink s (n - 0x80) with inj := [], late := [] } ∧
      reg t freed = satAdd (reg s freed) (injCells (getLink s (n - 0x80))) ∧ t = { s with regs := t.regs, links := t.links }) ∧
    (bit v 31 = true → 0x20 ≤ n → n < 0x80 → ∃ t, exec (.flush v) s = .next t ∧
      (let l := getLink s ((n - 0x20) / 4)
       let l' := { l with ingress := tput [] l.ingress (n % 4) [], inAt := tput [] l.inAt (n % 4) [] }
       getLink t ((n - 0x20) / 4) = l' ∧
        reg t freed = satAdd (reg s freed) (ingressCells l (n % 4) - ingressCells l' (n % 4))) ∧
      t = { s with regs := t.regs, links := t.links }) ∧
    (bit v 31 = true → 0xB0 ≤ n → n < 0xB4 → ∃ t, exec (.flush v) s = .next t ∧
      t = { s with regs := t.regs, bar2 := s.bar2.filter (fun b => b.q.val != n - 0xB0) }) ∧
    (bit v 31 = true → 0xA0 ≤ n → n < 0xA4 → ∃ t, exec (.flush v) s = .next t ∧
      t.fab.arrive = s.fab.arrive.filter (fun a => a.q.val != n - 0xA0) ∧
      (∀ m ∈ t.fab.msgs, m ∈ s.fab.msgs ∧ (m.q.val = n - 0xA0 → m.tomb ≠ none)) ∧
      t = { s with regs := t.regs, fab := { s.fab with msgs := t.fab.msgs, arrive := t.fab.arrive } }) ∧
    (bit v 31 = true → 0x100 ≤ n → n < 0x200 → (getCtx s (n - 0x100)).owner ≠ 0 → ∃ t, exec (.flush v) s = .next t ∧
      getCtx t (n - 0x100) = { getCtx s (n - 0x100) with parts := [], ovfl := [], dead := true } ∧
      (∀ e, e ≠ n - 0x100 → getCtx t e = getCtx s e) ∧ (∀ r ∈ t.cready, r.1 ≠ n - 0x100) ∧
      t = { s with regs := t.regs, ctxs := t.ctxs, cready := t.cready }) ∧
    (bit v 31 = true → n = 0x200 → ∃ t, exec (.flush v) s = .next t ∧ t.fab.telem = [] ∧ t.fab.trace = s.fab.trace ∧
      tget 0 t.fab.clsLost 6 = min 0xFFFFFFFF (tget 0 s.fab.clsLost 6 + s.fab.telem.length) ∧ t.mem = s.mem) ∧
    (bit v 31 = true → n = 0x201 → ∃ t, exec (.flush v) s = .next t ∧ t.fab.trace = [] ∧ t.fab.telem = s.fab.telem ∧
      tget 0 t.fab.clsLost 7 = min 0xFFFFFFFF (tget 0 s.fab.clsLost 7 + s.fab.trace.length) ∧ t.mem = s.mem) ∧
    (bit v 31 = true → n = 0x202 → ∃ t, exec (.flush v) s = .next t ∧ t.ldg.rd = s.ldg.wr ∧ t.ldg.bmc = s.ldg.wr ∧
      tget 0 t.fab.clsLost 8 = min 0xFFFFFFFF (tget 0 s.fab.clsLost 8 + (s.ldg.wr - s.ldg.rd)) ∧ t.mem = s.mem))

/-- Lane cells, rings and lasers. OPT_LC takes a legal request, which settles later and decides the lasers of both lanes
(R305 to R307, R323); a group's mode changes while it is DOWN only; the ring states are those of R312; an element beyond
its threshold has lost lock, one within 0.02 rad is on target; the overheated die is released below 75 degrees after 1 s;
light present and its clearing act as R323 and R325 say; a laser rises where R324 lets it. A lane that loses its light's
way fails as LANE_FAILED says; one that serves no slot touches no group. The error at which a ring locks is free within
4 pm (log 9). -/
def Obligations.CellsRingsLasers : Prop :=
  (∀ (v : W32) (s : State), Served s pgOPT →
    let ax := fld (reg s (at' pgOPT 0x180)) 1 0
    let i := fld (reg s (at' pgOPT 0x180)) 12 8
    let st := fld v 2 0
    let tf := fld v 19 16
    let tap := st = 3 ∨ st = 4
    let c := getCell s (18 * ax + i)
    ax < 3 → i < 18 →
    (6 ≤ st ∨ (tap ∧ tf = 0) ∨ (¬ tap ∧ tf ≠ 0) → ∃ t, exec (.optLcWrite v) s = .next t ∧
      t = { s with regs := t.regs, ldg := t.ldg } ∧ Logged s t pgOPT 1 0x0D09 0 (d0Opt (2 * ax) i) 0) ∧
    (st < 6 → (tap → tf ≠ 0) → (¬ tap → tf = 0) → c.state = st ∧ c.tapf = tf →
      exec (.optLcWrite v) s = .next (setCell s (18 * ax + i) { c with hold := bit v 31 })) ∧
    (st < 6 → (tap → tf ≠ 0) → (¬ tap → tf = 0) → ¬ (c.state = st ∧ c.tapf = tf) →
      let u := setCell s (18 * ax + i) { c with
        hold := bit v 31, state := st, tapf := tf, busy := true, since := s.clk.dst }
      exec (.optLcWrite v) s = .next (laneFail (laneFail u (2 * ax) i) (2 * ax + 1) i) ∧
      (Unserved s (2 * ax) i → Unserved s (2 * ax + 1) i → exec (.optLcWrite v) s = .next u))) ∧
  (∀ (x : CellId) (s : State), (getCell s x.key).busy = true →
    let cur := (getCell s x.key).state
    ∃ t, exec (.laneCellSettled x) s = .next t ∧ getCell t x.key = { getCell s x.key with busy := false, cur := cur } ∧
      (∀ p ∈ [2 * x.axis.val, 2 * x.axis.val + 1],
        let y := laneAt s p x.i
        let dark := cur = 0 ∨ cur = 2 ∨ (cur = 3 ∧ p % 2 = 1) ∨ (cur = 4 ∧ p % 2 = 0)
        (laneAt t p x.i).laser = if (dark ∧ cur ≠ 0) ∧ y.lp = false then .blocked
          else if y.role = .retired ∨ dark then .off else if cur = 5 then .safe
          else if y.laser = .full then .full else .safe) ∧
      t = { s with cells := t.cells, lanes := t.lanes, links := t.links, out := t.out }) ∧
  (∀ (p : Fin 6) (v : W32) (s : State), Served s pgOPT → ∃ t, exec (.optGrpModeWrite p v) s = .next t ∧
    (∀ g, g < 4 → grpMode t (4 * p.val + g) = if (getLink s (4 * p.val + g)).st = .down ∧ fld v (2 * g + 1) (2 * g) ≠ 3
      then fld v (2 * g + 1) (2 * g) else grpMode s (4 * p.val + g)) ∧
    RegsKept s t [at' pgOPT (0x160 + 4 * p)] ∧ t = { s with regs := t.regs, links := t.links, out := t.out }) ∧
  (∀ (l : LaneId) (s : State),
    let x := getLane s l.key
    let now := s.clk.dst
    (x.ring = .sweep → exec (.ringSweep l true) s = .next (setLane s l.key { x with
      ring := .acquire, ringAt := now, sweeps := 0 })) ∧
    (x.ring = .sweep → x.ringAt + 12000000 ≤ now → x.sweeps < 2 →
      exec (.ringSweep l false) s = .next (setLane s l.key { x with sweeps := x.sweeps + 1, ringAt := now })) ∧
    (x.ring = .sweep → x.ringAt + 12000000 ≤ now → 2 ≤ x.sweeps → Unserved s l.p l.l → x.role ≠ .slot → x.role ≠ .retired →
      ∃ t, exec (.ringSweep l false) s = .next t ∧ Logged s t pgOPT 1 0x0D05 0 (d0Opt l.p l.l) 0 ∧
        getLane t l.key = { x with ring := .off, sweeps := 0, ringAt := now, role := .failed } ∧
        t = { s with regs := t.regs, ldg := t.ldg, lanes := t.lanes }) ∧
    (x.ring = .acquire → x.ringAt + 600000 ≤ now → (∀ i, (laneAt s l.p i).stage < 2) →
      ∃ t, ∃ e : Int, exec (.ringAcquireLock l) s = .next t ∧ e.natAbs ≤ 40 ∧
        getLane t l.key = { x with ring := .locked, ringAt := now, sweeps := 0, ringErr := e } ∧
        (∀ i, i ≠ l.key → getLane t i = getLane s i) ∧
        t = { s with
          lanes := t.lanes, links := t.links, out := t.out, draws := t.draws,
          opt := { s.opt with paused := t.opt.paused } }) ∧
    (x.ring = .acquire → x.ringAt + 6000000 ≤ now →
      exec (.ringAcquireTimeout l) s = .next (setLane s l.key { x with ring := .sweep, ringAt := now, sweeps := 0 })) ∧
    (∀ e : Int, x.ring = .locked → 250 < e.natAbs → Unserved s l.p l.l → ∃ t, exec (.ringLockLoss l e) s = .next t ∧
      getLane t l.key = { x with ring := .sweep, ringAt := now, sweeps := 0, ringErr := e } ∧
      reg t (at' pgOPT 0x19C) = satAdd (reg s (at' pgOPT 0x19C)) 1 ∧ RegsKept s t [at' pgOPT 0x19C] ∧
      t = { s with lanes := t.lanes, regs := t.regs }) ∧
    (∀ w : Int, -2500 ≤ w → exec (.lightPresent l w) s = .next (setLane s l.key { x with
      rx := w, lp := true, lpSince := if x.lp then x.lpSince else now
      laser := if x.laser = .blocked then .off else x.laser })) ∧
    (∀ w : Int, x.lp = true → w ≤ -3000 → ∃ t, exec (.optOfc l w) s = .next t ∧ getLane t l.key = { x with
        rx := w, lp := false, clearAt := some now
        laser := if (cellAt s l.p l.l).cur = 2 ∨ (cellAt s l.p l.l).cur = 4 - l.p % 2 then
            (if chanOk s l.p 0 then .blocked else x.laser)
          else if x.laser = .full ∧ (chanOk s l.p 0 || chanOk s l.p 1) = true then .safe else x.laser } ∧
      reg t (at' pgOPT 0x198) = satAdd (reg s (at' pgOPT 0x198)) 1 ∧ bit (reg t (at' pgOPT 0x10)) 0 = true ∧
      Logged s t pgOPT 1 0x0D06 (laneAcc s l.p l.l) (d0Opt l.p l.l) 0 ∧
      t = { s with lanes := t.lanes, regs := t.regs, ldg := t.ldg, out := t.out }) ∧
    (riseOk s l.p l.l = true → ∃ t, exec (.laserRise l) s = .next t ∧
      getLane t l.key = { x with laser := .full } ∧ (∀ i, i ≠ l.key → getLane t i = getLane s i) ∧
      t = { s with lanes := t.lanes, links := t.links, out := t.out }) ∧
    (riseOk s l.p l.l = false → exec (.laserRise l) s = .next s)) ∧
  (∀ (x : CellId) (e : Nat) (s : State),
    let c := getCell s x.key
    (c.locked = true → 200 < e →
      let u := setCell s x.key { c with locked := false, err := e }
      exec (.mziLockLoss x e) s = .next (laneFail (laneFail u (2 * x.axis.val) x.i) (2 * x.axis.val + 1) x.i) ∧
      (Unserved s (2 * x.axis.val) x.i → Unserved s (2 * x.axis.val + 1) x.i → exec (.mziLockLoss x e) s = .next u)) ∧
    (e ≤ 20 → ∃ t, exec (.interferometerOnTarget x e) s = .next t ∧
      getCell t x.key = { c with locked := true, err := e } ∧
      t = { s with cells := t.cells, links := t.links, out := t.out })) ∧
  (∀ s : State, s.opt.hot = true → s.opt.temp < 750 → s.opt.coolAt + 6000000000 ≤ s.clk.dst →
    exec .photonicCooled s = .next { s with opt := { s.opt with hot := false } })

/-- FADE_MEASURE on a lit laser: nothing but the fade above -1.5 dB; the warning once at -1.5 dB; at -2.5 dB a free lane
becomes reserve and a slot starts to move to the lowest free lane, or waits until it can; at -3.0 dB a lane out of service
is retired, off for good and in the soft map, and a pinned one, or one in use with no free lane, is deferred.
Lane-management records on a two-way group in UP, on a port with one migration `m` at most (R318 to R321). A REQUEST
or CALREQ that fits opens the receiver's end; READY goes out once the new lane is locked, and is noted; SWITCH goes out at
a packet boundary once both ends are ready; SWITCH gives the slot to the new lane and is answered by DONE; DONE counts the
migration, and with both directions switched the old lane becomes reserve; ABORT and the 10 ms limit fail the new lane; an
unanswered record is repeated every 10 us. CALDONE frees the lane and, with no lane left, ends the calibration. One starts
on the next eligible cell of its axis, or its axis pauses. That ABORT and CALDONE are answered by the same record is the
model's choice (log 134). -/
def Obligations.FadesAndLaneRecords : Prop :=
  (∀ (l : LaneId) (f : Int) (s : State),
    let x := getLane s l.key
    let p := l.p.val
    x.laser = .safe ∨ x.laser = .full → x.role ≠ .retired →
    (-150 < f → exec (.fadeMeasure l f) s = .next (setLane s l.key { x with fade := f })) ∧
    (f ≤ -150 → -250 < f → x.stage = 0 → ∃ t, exec (.fadeMeasure l f) s = .next t ∧
      getLane t l.key = { x with fade := f, stage := 1 } ∧
      Logged s t pgOPT 1 0x0D01 (laneAcc s p l.l) (d0Opt p l.l) (BitVec.ofInt 32 f) ∧
      t = { s with lanes := t.lanes, regs := t.regs, ldg := t.ldg }) ∧
    (f ≤ -250 → -300 < f → x.stage = 1 → laneRole s p l.l = .free → migNew s p l.l = none →
      exec (.fadeMeasure l f) s = .next (setLane s l.key { x with fade := f, stage := 2, role := .reserve })) ∧
    (f ≤ -250 → -300 < f → x.stage = 1 → laneRole s p l.l = .slot → movable s p l.l = none →
      exec (.fadeMeasure l f) s = .next (setLane s l.key { x with fade := f, stage := 2 })) ∧
    (∀ g k n, f ≤ -250 → -300 < f → x.stage = 1 → laneRole s p l.l = .slot → slotOf s p l.l = some (g, k) →
      pinned s p l.l = false → migrating s g k = false → (getLink s g).st = .up → grpMode s g = 0 →
      freeLane s p = some n → n < 18 → k < 4 →
      ∃ t m, exec (.fadeMeasure l f) s = .next t ∧ m ∈ tget [] t.opt.migs p ∧ m.old = l.l ∧ m.new.val = n ∧
        m.slot.val = k ∧ m.init = true ∧ m.cal = false ∧ 1 ∈ m.sent ∧ m.txn = tget 0 s.opt.txn p ∧
        tget 0 t.opt.txn p = tget 0 s.opt.txn p + 1) ∧
    (f ≤ -300 → x.stage = 2 → laneRole s p l.l ≠ .slot → migNew s p l.l = none → pinned s p l.l = false →
      ∃ t, exec (.fadeMeasure l f) s = .next t ∧ (getLane t l.key).role = .retired ∧ (getLane t l.key).laser = .off ∧
        (getLane t l.key).stage = 3 ∧ l ∈ t.bup.lanesBad ∧
        reg t (at' pgOPT 0x194) = satAdd (reg s (at' pgOPT 0x194)) 1 ∧
        Logged s t pgOPT 1 0x0D03 0 (d0Opt p l.l) (BitVec.ofInt 32 f) ∧
        t = { s with
          lanes := t.lanes, regs := t.regs, ldg := t.ldg, bup := { s.bup with lanesBad := t.bup.lanesBad } }) ∧
    (f ≤ -300 → x.stage = 2 → (pinned s p l.l = true ∨ (laneRole s p l.l = .slot ∧ someFree s p = false ∧
        s.opt.calOn = none ∧ ∀ m ∈ tget [] s.opt.migs p, m.old ≠ l.l)) → ∃ t, exec (.fadeMeasure l f) s = .next t ∧
      getLane t l.key = { x with fade := f, stage := 3, deferred := true } ∧
      Logged s t pgOPT 1 0x0D04 (laneAcc s p l.l) (d0Opt p l.l) (BitVec.ofInt 32 f) ∧
      t = { s with lanes := t.lanes, regs := t.regs, ldg := t.ldg })) ∧
  (∀ (g : Grp) (r : LaneRec) (s : State), (getLink s g.key).st = .up → grpMode s g.key = 0 → (getLink s g.key).role ≠ 2 →
    let k := g.key
    let p := k / 4
    let l := getLink s k
    let now := s.clk.dst
    let flit (t : State) (m : Migration) (opc : Nat) : Prop := t.out = Out.flit g (sealFlit s k 0 (headerOf l 0 0 0 0xFF)
      (fit 0 232 (recBytes (m.record opc)))) :: s.out ∧ getLink t k = flitSent l
    (∀ e ∈ [(false, 1, Instr.request g r), (true, 6, .calreq g r)], tget [] s.opt.migs p = [] →
      l.lanes[r.slot.val]? = some r.old → laneFree s p r.new = true → pinned s p r.old = false →
      ∃ t, exec e.2.2 s = .next t ∧
        tget [] t.opt.migs p = [Migration.mk r.txn r.slot g.g r.old r.new e.1 false now now [] [e.2.1]] ∧
        ((cellAt s p r.new).cur = 1 → (laneAt s p r.new).laser = .safe → (laneAt s p r.new).lp = true →
          (laneAt s p r.new).lpSince + 6000000 ≤ now → (laneAt s p r.new).ring = .locked → 600 ≤ s.opt.temp →
          s.opt.hot = false → (laneAt s p r.new).clearAt = none → (laneAt t p r.new).laser = .full) ∧
        t = { s with opt := { s.opt with migs := t.opt.migs }, lanes := t.lanes, links := t.links, out := t.out }) ∧
    (∀ e ∈ [Instr.request g r, .calreq g r], migOf s k r = none →
      (l.lanes[r.slot.val]? ≠ some r.old ∨ laneFree s p r.new = false ∨ pinned s p r.old = true) → exec e s = .next s) ∧
    (∀ m, tget [] s.opt.migs p = [m] → migOf s k r = some m →
      let got (n : Nat) := if m.got.contains n then m.got else n :: m.got
      (∀ skew, skew ≤ 64 → grpLocked s k = true → 2 ∉ m.sent → (laneAt s p m.new).laser = .full →
        (laneAt s p m.new).ring = .locked → 2 ∉ m.got ∨ atBoundary l = false →
        ∃ t, exec (.alignLock g skew) s = .next t ∧ flit t m 2 ∧
          tget [] t.opt.migs p = [{ m with sent := 2 :: m.sent, sentAt := now }]) ∧
      (2 ∉ m.sent ∨ 3 ∈ m.sent ∨ atBoundary l = false → ∃ t, exec (.ready g r) s = .next t ∧
        tget [] t.opt.migs p = [{ m with got := got 2 }] ∧ t = { s with opt := { s.opt with migs := t.opt.migs } }) ∧
      (2 ∈ m.sent → 3 ∉ m.sent → atBoundary l = true → ∃ t, exec (.ready g r) s = .next t ∧ flit t m 3 ∧
        tget [] t.opt.migs p = [{ m with got := got 2, sent := 3 :: m.sent, sentAt := now }]) ∧
      (4 ∉ m.got → ∃ t, exec (.switch g r) s = .next t ∧ (getLane t (18 * p + m.new)).role = .slot ∧
        (getLink t k).lanes = setAt l.lanes m.slot m.new ∧ t.out ≠ s.out ∧
        tget [] t.opt.migs p = [{ m with
          got := got 3, sent := if m.sent.contains 4 then m.sent else 4 :: m.sent, sentAt := now }] ∧
        t = { s with lanes := t.lanes, links := t.links, out := t.out, opt := { s.opt with migs := t.opt.migs } }) ∧
      (3 ∈ m.sent → 4 ∉ m.got → 3 ∈ m.got → m.cal = false → (laneAt s p m.old).stage < 3 →
        ∃ t, exec (.doneRec g r) s = .next t ∧ tget [] t.opt.migs p = [] ∧
        (getLane t (18 * p + m.old)).role = (if (laneAt s p m.old).role = .failed then .failed else .reserve) ∧
        (getLane t (18 * p + m.old)).laser ≠ .full ∧
        reg t (at' pgOPT 0x190) = satAdd (reg s (at' pgOPT 0x190)) 1 ∧
        Logged s t pgOPT 1 0x0D02 (laneAcc s p m.old) (d0Opt p m.old) (BitVec.ofNat 32 m.new)) ∧
      (3 ∈ m.sent → 4 ∉ m.got → 3 ∉ m.got → ∃ t, exec (.doneRec g r) s = .next t ∧
        tget [] t.opt.migs p = [{ m with got := 4 :: m.got }] ∧ t.lanes = s.lanes ∧
        reg t (at' pgOPT 0x190) = satAdd (reg s (at' pgOPT 0x190)) 1) ∧
      (3 ∉ m.got → m.init = false ∨ (freeLane s p = none ∧ s.opt.calOn = none) →
        ∃ t, exec (.abort g r) s = .next t ∧ tget [] t.opt.migs p = [] ∧
        (getLane t (18 * p + m.new)).role = .failed ∧ (getLane t (18 * p + m.new)).laser ≠ .full ∧
        (m.init = true → t.out = s.out ∧ getLink t k = l) ∧ (m.init = false → flit t m 5) ∧
        t = { s with
          lanes := t.lanes, links := t.links, out := t.out,
          opt := { s.opt with migs := t.opt.migs, past := t.opt.past } })) ∧
    ((laneAt s p r.old).role = .calibrating → (∀ i, (laneAt s p i).stage < 2) →
      ∃ t, exec (.caldone g r) s = .next t ∧ (laneAt t p r.old).role = .free ∧ (laneAt t p r.old).laser ≠ .full ∧
        (s.opt.calOn = none → t = { s with
          lanes := t.lanes, links := t.links, out := t.out,
          opt := { s.opt with paused := t.opt.paused, past := t.opt.past } }) ∧
        (∀ c : CellId, s.opt.calOn = some c → c.axis.val = p / 2 → c.i = r.old →
          let others := ∃ q, q / 2 = p / 2 ∧ q ≠ p ∧ (laneAt s q r.old).role = .calibrating
          (others → t.opt.calOn = some c ∧ t.regs = s.regs) ∧
          (¬ others → t.opt.calOn = none ∧ t.clk.fcHolder ≠ 2 ∧
            reg t (at' pgOPT 0x1A0) = satAdd (reg s (at' pgOPT 0x1A0)) 1)))) ∧
  (∀ (p : Fin 6) (m : Migration) (s : State), tget [] s.opt.migs p = [m] →
    (m.init = true → (2 ∉ m.got ∨ 2 ∉ m.sent) → m.start + 60000000 ≤ s.clk.dst → freeLane s p = none →
      ∃ t, exec (.migrationTimeout p m.txn) s = .next t ∧ tget [] t.opt.migs p = [] ∧
        (getLane t (18 * p.val + m.new)).role = .failed ∧ t.out ≠ s.out) ∧
    (∀ opc, unanswered m = some opc → m.sentAt + 60000 ≤ s.clk.dst →
      opc ≠ 3 ∨ atBoundary (getLink s (4 * p.val + m.g)) = true →
      ∃ t, exec (.laneRecordRepeat p m.txn) s = .next t ∧ t.out ≠ s.out ∧ tget [] t.opt.migs p = [{ m with
        sentAt := s.clk.dst, sent := if m.sent.contains opc then m.sent else opc :: m.sent }] ∧
        t = { s with links := t.links, out := t.out, opt := { s.opt with migs := t.opt.migs } })) ∧
  (∀ (p : Fin 6) (txn : W32) (m : Migration) (opc : Nat) (s : State), repeatOf s p txn = some (false, m, opc) →
    (getLink s (4 * p.val + m.g)).st = .up →
    ∃ t, exec (.laneRecordRepeat p txn) s = .next t ∧ t.out ≠ s.out ∧ tget none t.opt.past (m.key p) = some { m with
      sentAt := s.clk.dst, sent := if m.sent.contains opc then m.sent else opc :: m.sent } ∧
      t = { s with links := t.links, out := t.out, opt := { s.opt with past := t.opt.past } }) ∧
  (∀ (a i : Nat) (s : State), bit (reg s (at' pgOPT 0x100)) 0 = true → s.opt.calOn = none → s.bup.isLocal = true →
    s.opt.calAt + (reg s (at' pgOPT 0x104)).toNat * 6000000 ≤ s.clk.dst → calPick s a = some i →
    let now := s.opt.calAxis % 3
    (a = now ∨ (a = (now + 1) % 3 ∧ calPick s now = none)) →
    let beside := spareBeside s (2 * a) i && spareBeside s (2 * a + 1) i
    (beside = true → (laneAt s (2 * a) i).role = .free → (laneAt s (2 * a + 1) i).role = .free →
      ∃ t, exec .calibrationStart s = .next t ∧ t.opt.calOn = some (CellId.mk (Fin.ofNat 3 a) (Fin.ofNat 18 i)) ∧
        (laneAt t (2 * a) i).role = .calibrating ∧ (laneAt t (2 * a + 1) i).role = .calibrating ∧
        t.clk.fcHolder = 2 ∧ t.opt.calAt = s.clk.dst ∧ t.opt.calAxis = a ∧ tget 0 t.opt.calNext a = i + 1) ∧
    (beside = false → a = now → ∃ t, exec .calibrationStart s = .next t ∧ tget false t.opt.paused a = true ∧
      ((∀ b, b < 3 → b ≠ a → calPick s b = none) → t.opt.calOn = none ∧ t.lanes = s.lanes ∧
        (tget false s.opt.paused a = true → t.ldg = s.ldg))))

/-- The topology page. Node ID and root are written with no job resident and every group DOWN, else the write is
ignored and logged; a catalogue word is written in DOWN or HALT, else ignored and logged; the epoch is written while
every group is DOWN or HALT, and READY follows it. -/
def Obligations.TopologyWrites : Prop :=
  (∀ (v : W32) (s : State), Served s pgTOP →
    (anyResident s = false → allGrps s (fun st => st == .down) = true → exec (.topNodeWrite v) s = .next { s with
      top := { s.top with node := BitVec.ofNat 13 (fld v 12 0), root := BitVec.ofNat 13 (fld v 28 16), named := true } }) ∧
    (anyResident s = true ∨ allGrps s (fun st => st == .down) = false → ∃ t, exec (.topNodeWrite v) s = .next t ∧
      t = { s with regs := t.regs, ldg := t.ldg } ∧ Logged s t pgTOP 1 0x0E02 0 0 0)) ∧
  (∀ (w : Fin 4) (v : W32) (s : State), Served s pgTOP → fld (reg s (at' pgTOP 0x10C)) 2 0 < 6 →
    let g := 4 * fld (reg s (at' pgTOP 0x10C)) 2 0 + fld (reg s (at' pgTOP 0x10C)) 4 3
    let word (l : Link) (i : Nat) := fld l.cat (32 * i + 31) (32 * i)
    ((getLink s g).st = .down ∨ (getLink s g).st = .halt → ∃ t, exec (.topCatWordWrite w v) s = .next t ∧
      word (getLink t g) w = (if w.val = 0 then v.toNat / 2 ^ 20 * 2 ^ 20 else v.toNat) ∧
      (∀ i, i < 4 → i ≠ w.val → word (getLink t g) i = word (getLink s g) i) ∧
      (∀ k, k ≠ g → getLink t k = getLink s k) ∧ t = { s with links := t.links, out := t.out }) ∧
    ((getLink s g).st ≠ .down → (getLink s g).st ≠ .halt → ∃ t, exec (.topCatWordWrite w v) s = .next t ∧
      t = { s with regs := t.regs, ldg := t.ldg } ∧
      Logged s t pgTOP 1 0x0E02 (getLink s g).owner (d0Lnk (getLink s g).owner.toNat g) 0)) ∧
  (∀ (v : W32) (s : State), Served s pgTOP →
    (allGrps s catOpen = true → ∃ t, exec (.topEpochWrite v) s = .next t ∧ t.top.epoch = v ∧
      t.top.ready = (decide (v ≠ 0) && !anyHalt s) ∧ t.top.node = s.top.node ∧
      t = { s with top := t.top, regs := t.regs, ldg := t.ldg, out := t.out }) ∧
    (allGrps s catOpen = false → exec (.topEpochWrite v) s = .next s))

/-- Staging and confirming. STAGE waits for its verification, or is answered LOCKED; a record whose signature verifies
under the party's current key, well formed, in order and with nothing pending, is STAGED for 10 s and the nonce rises by 1;
with one pending the answer is BUSY, out of order NONCE, ill formed or not the accession's FORMAT; a bad signature is
counted and the third in a row locks custody for 60 s. CONFIRM by the other party, in time, of the pending record whose
condition holds and whose key unwraps goes on to its commit; by the same party it is SAMEPARTY; with its condition gone it
is REFUSED, without its accession FORMAT, with a key that does not unwrap UNWRAP, and the staging discarded. CANCEL by the
staging party discards it; the deadline does too; the lock ends in its time. -/
def Obligations.CustodyStaging : Prop :=
  (∀ (via : CusVia) (s : State),
    let p := match via with | .host => Party.host | .bmc _ _ => .bmc
    let w := match via with | .host => stagedWord s | .bmc rec _ => rec
    let sig := match via with | .host => stagedSig s | .bmc _ sig => sig
    CusOpen s p → (s.cus.lockAt = none → ∃ t, exec (.stage via) s = .next t ∧
      t.cus = { s.cus with verify := s.cus.verify ++ [CusReq.mk p w sig] } ∧
      t = { s with cus := t.cus, mgt := { s.mgt with busy := t.mgt.busy } }) ∧
    (s.cus.lockAt ≠ none → ∃ t, exec (.stage via) s = .next t ∧ t.cus = { s.cus with result := 9, badRun := 0 })) ∧
  (∀ (r : CusReq) (pre post : List CusReq) (s : State), s.cus.verify = pre ++ r :: post →
    (∀ x ∈ pre, ¬ (x.party = r.party ∧ x.word = r.word)) → s.cus.lockAt = none → stageTie s r.party = false →
    let cmd := exec (.stageVerified r.party r.word) s
    let good := sigOk s (partyBit r.party) 0x53 r.word r.sig
    let fits := recFormat r.word && accOk s r.word
    let told (n : Nat) : Prop := ∃ t, cmd = .next t ∧
      t.cus = { s.cus with verify := pre ++ post, result := n, badRun := 0 } ∧
      Logged s t pgCUS 1 0x0F02 (BitVec.ofNat 12 (recAcc r.word)) (d0Cus r.word) (d1Cus n r.party)
    (good = true → fits = true → recNonce r.word = s.cus.nonce.toNat → s.cus.busy = false →
      ∃ t, cmd = .next t ∧ t.cus = { s.cus with
        verify := pre ++ post, busy := true, origin := r.party, pend := r.word, commit := none
        nonce := s.cus.nonce + 1, dline := s.clk.dst + 60000000000, result := 1, badRun := 0 } ∧
        bit (reg t (at' pgCUS 0x10)) 0 = true ∧ t.ldg = s.ldg) ∧
    (good = true → fits = true → recNonce r.word = s.cus.nonce.toNat → s.cus.busy = true → told 4) ∧
    (good = true → fits = true → recNonce r.word ≠ s.cus.nonce.toNat → told 7) ∧
    (good = true → fits = false → told 12) ∧
    (good = false → s.cus.badRun < 2 → ∃ t, cmd = .next t ∧
      t.cus = { s.cus with verify := pre ++ post, result := 3, badRun := s.cus.badRun + 1 } ∧
      reg t (at' pgCUS 0x110) = satAdd (reg s (at' pgCUS 0x110)) 1) ∧
    (good = false → 2 ≤ s.cus.badRun → ∃ t, cmd = .next t ∧ t.cus.lockAt = some (s.clk.dst + 360000000000) ∧
      t.cus.busy = false ∧ t.cus.result = 3 ∧ t.cus.badRun = 0)) ∧
  (∀ (p : Party) (rec : BitVec 2048) (sig : BitVec 768) (s : State),
    let w := match p with | .host => stagedWord s | .bmc => rec
    let g := match p with | .host => stagedSig s | .bmc => sig
    let cmd := exec (.confirm p rec sig) s
    let ends (n : Nat) : Prop := ∃ t, cmd = .next t ∧ t.cus = { s.cus with
      busy := false, commit := none, pend := 0, dline := 0, result := n, badRun := 0 }
    CusOpen s p → s.cus.lockAt = none → s.cus.busy = true → s.clk.dst ≤ s.cus.dline →
    (sigOk s (partyBit p) 0x43 w g = true → w = s.cus.pend →
      (p ≠ s.cus.origin → accOk s w = true → commitOk s w = true → (recOp w = 4 → unwrapKey s w ≠ none) →
        ∃ t, cmd = .next t ∧ t.cus = { s.cus with commit := some (CusReq.mk p w g) } ∧
          t = { s with cus := t.cus, mgt := { s.mgt with busy := t.mgt.busy } }) ∧
      (p = s.cus.origin → ∃ t, cmd = .next t ∧ t.cus = { s.cus with result := 5, badRun := 0 }) ∧
      (p ≠ s.cus.origin → accOk s w = false → ends 12) ∧
      (p ≠ s.cus.origin → accOk s w = true → commitOk s w = false → ends 8) ∧
      (p ≠ s.cus.origin → accOk s w = true → commitOk s w = true → recOp w = 4 → unwrapKey s w = none → ends 10)) ∧
    (sigOk s (partyBit p) 0x43 w g = false ∨ w ≠ s.cus.pend → s.cus.badRun < 2 → ∃ t, cmd = .next t ∧
      t.cus = { s.cus with result := 3, badRun := s.cus.badRun + 1 } ∧
      reg t (at' pgCUS 0x110) = satAdd (reg s (at' pgCUS 0x110)) 1)) ∧
  (∀ (p : Party) (s : State), CusOpen s p → s.cus.busy = true → s.cus.origin = p → s.cus.commit = none →
    ∃ t, exec (.cancel p) s = .next t ∧ t.ldg = s.ldg ∧ t.cus = { s.cus with
      busy := false, commit := none, pend := 0, dline := 0, result := 11, badRun := 0 }) ∧
  (∀ s : State, s.cus.busy = true → s.cus.commit = none → s.cus.dline ≤ s.clk.dst →
    ∃ t, exec .cusExpire s = .next t ∧ t.cus = { s.cus with busy := false } ∧
      Logged s t pgCUS 1 0x0F03 (BitVec.ofNat 12 (recAcc s.cus.pend)) (d0Cus s.cus.pend) (d1Cus 6 s.cus.origin) ∧
      t = { s with cus := t.cus, regs := t.regs, ldg := t.ldg }) ∧
  (∀ (x : Nat) (s : State), s.cus.lockAt = some x → x ≤ s.clk.dst →
    exec .cusLockExpiry s = .next { s with cus := { s.cus with lockAt := none } })

/-- The commits. Each record whose condition holds is applied whole, its staging is gone and the entry written: owners,
seals and keys of the named quadrants; a lane group's record; a key slot with the job key that unwraps; fuse bits, never
cleared; DEBUG. Released and unsealed quadrants read 0 in all their SRAM. A record whose condition no longer holds is
REFUSED, one without its accession ends with FORMAT, and neither changes anything else. ZEROISE_DONE ends a quadrant's
wait. -/
def Obligations.CustodyCommits : Prop :=
  (∀ (r : CusReq) (s : State), s.cus.commit = some r → accOk s r.word = true → commitOk s r.word = true →
    let w := r.word
    let a := BitVec.ofNat 12 (recAcc w)
    let kept (t : State) : Prop := ∀ q, q ∉ recQuads w → owner t q = owner s q ∧ sealed t q = sealed s q
    let wiped (t : State) : Prop := ∀ x, 2 ^ 48 ≤ x → rdByte t x = if x / 2 ^ 39 % 4 ∈ recQuads w then 0 else rdByte s x
    (recOp w = 1 → ∃ t, exec .quadAssign s = .next t ∧ Applied s t r ∧ kept t ∧
      (∀ q ∈ recQuads w, owner t q = a ∧ sealed t q = decide (recArg w % 2 = 1)) ∧
      ∀ x, 2 ^ 47 ≤ x → rdByte t x = rdByte s x) ∧
    (recOp w = 2 → ∃ t, exec .quadRelease s = .next t ∧ Applied s t r ∧ kept t ∧ wiped t ∧
      ∀ q ∈ recQuads w, owner t q = 0 ∧ sealed t q = false ∧ bit t.cus.zbusy q = true) ∧
    (recOp w = 3 → ∃ t, exec .groupOwn s = .next t ∧ Applied s t r ∧
      (getLink t (recGrp w)).role = recArg w % 4 ∧ (getLink t (recGrp w)).owner = a ∧
      (∀ k, k ≠ recGrp w → getLink t k = getLink s k) ∧
      t = { s with links := t.links, out := t.out, cus := t.cus, ldg := t.ldg, regs := t.regs, mgt := t.mgt }) ∧
    (recOp w = 4 → ∃ t, exec .keyLoad s = .next t ∧ Applied s t r ∧ tget 0 t.cus.keys (recTgt w) = a ∧
      (∀ k, unwrapKey s w = some k → tget 0 t.cus.keyVals (recTgt w) = k) ∧
      ∀ k, k ≠ recTgt w → tget 0 t.cus.keys k = tget 0 s.cus.keys k ∧ tget 0 t.cus.keyVals k = tget 0 s.cus.keyVals k) ∧
    (recOp w = 5 → ∃ t, exec .keyErase s = .next t ∧ Applied s t r ∧ tget 0 t.cus.keys (recTgt w) = 0 ∧
      tget 0 t.cus.keyVals (recTgt w) = 0 ∧ ∀ k, k ≠ recTgt w → tget 0 t.cus.keys k = tget 0 s.cus.keys k) ∧
    (recOp w = 6 → ∃ t, exec .seal s = .next t ∧ Applied s t r ∧ kept t ∧
      (∀ q ∈ recQuads w, sealed t q = true ∧ owner t q = owner s q) ∧ t.mem = s.mem) ∧
    (recOp w = 7 → ∃ t, exec .unseal s = .next t ∧ Applied s t r ∧ kept t ∧ wiped t ∧
      ∀ q ∈ recQuads w, sealed t q = false ∧ owner t q = owner s q ∧ bit t.cus.zbusy q = true) ∧
    (recOp w = 8 → ∃ t, exec .fuseWrite s = .next t ∧ Applied s t r ∧
      tget 0 t.cus.fuses (recTgt w) = tget 0 s.cus.fuses (recTgt w) ||| BitVec.ofNat 32 (recArg w) ∧
      tget 0 t.cus.sensed (recTgt w) = tget 0 t.cus.fuses (recTgt w) ∧
      ∀ k, k ≠ recTgt w → tget 0 t.cus.fuses k = tget 0 s.cus.fuses k) ∧
    (recOp w = 9 → ∃ t, exec .debugEnable s = .next t ∧ t.cus.debug = true ∧ t.cus.keys = [] ∧ t.cus.keyVals = [] ∧
      t.cus.busy = false ∧ t.cus.result = 2 ∧ (∀ j < 4, resident (getJob t j).st = false) ∧
      (∀ q < 4, sealed t q = false ∧ owner t q = owner s q) ∧
      (∀ x, 2 ^ 48 ≤ x → sealed s (x / 2 ^ 39 % 4) = true → rdByte t x = 0) ∧
      ∀ g < 24, (getLink s g).role = 1 → (getLink t g).st = .failed) ∧
    (recOp w = 10 → ∃ t, exec .debugDisable s = .next t ∧ Applied s t r ∧ t.cus.debug = false ∧
      t.cus.own = s.cus.own ∧ t.cus.seals = s.cus.seals ∧ t.mem = s.mem)) ∧
  (∀ (r : CusReq) (s : State), s.cus.commit = some r → accOk s r.word = false ∨ commitOk s r.word = false →
    ∀ e ∈ [(1, Instr.quadAssign), (2, .quadRelease), (3, .groupOwn), (4, .keyLoad), (5, .keyErase), (6, .seal),
      (7, .unseal), (8, .fuseWrite), (9, .debugEnable), (10, .debugDisable)], recOp r.word = e.1 →
    ∃ t, exec e.2 s = .next t ∧ t.cus = { s.cus with
        busy := false, commit := none, pend := 0, dline := 0, badRun := 0
        result := if accOk s r.word then 8 else 12 } ∧
      t = { s with cus := t.cus, regs := t.regs, ldg := t.ldg, out := t.out, mgt := t.mgt }) ∧
  (∀ (q : Fin 4) (s : State), ∃ t, exec (.zeroiseDone q) s = .next t ∧ bit t.cus.zbusy q = false ∧
    (∀ i, i < 4 → i ≠ q.val → bit t.cus.zbusy i = bit s.cus.zbusy i) ∧
    t = { s with cus := { s.cus with zbusy := t.cus.zbusy } })

/-- Bring-up and resets. A powered module whose steps pass reaches LOCAL with the Datestamp at 0; one with a step that
overran runs to step 9 and logs each; a failed clock check goes no further; an input out of range, or THERMTRIP_N held low,
powers nothing. READY follows LOCAL with the time known; steps 10 and 12 overrun at their bounds, counted from step 4 (log
132). A unit's running operations end at its reset; the frame of a core or cluster reset is that of an idle unit.
A core or cluster reset returns that unit to its reset state and faults the job on it; a quadrant reset keeps HBM, owner
and seal, and zeroises a sealed quadrant's SRAM; a hub or module reset clears what HubCleared lists. A reset asked for
while one at least as wide is in progress is rejected. Soft entries become pending; a lost die-to-die link faults the jobs
that use it. -/
def Obligations.BringupAndResets : Prop :=
  (∀ (b : BringUp) (s : State),
    (s.bup.pwrEn = true → exec (.powerOn b) s = .next s) ∧
    (s.bup.pwrEn = false → b.cv < 4000 ∨ 6000 < b.cv ∨ s.pwr.tripN = false →
      ∃ t, exec (.powerOn b) s = .next t ∧ t.bup.pwrEn = true ∧ t.bup.railsOn = false ∧ t.bup.isLocal = false) ∧
    (s.bup.pwrEn = false → 4000 ≤ b.cv → b.cv ≤ 6000 → s.pwr.tripN = true →
      (clocksOk b = true → failedSteps b 9 = [] → ∃ t, exec (.powerOn b) s = .next t ∧ Local t ∧
        t.bup.railsOn = true ∧ t.bup.bar0 = s.bup.perst ∧ t.cus.fuses = s.cus.fuses ∧ t.jobs = [] ∧
        (∀ a, 2 ^ 48 ≤ a → gen s a = 0 → rdByte t a = 0) ∧ ∃ e ∈ t.ldg.wait, e.src = pgBUP ∧ e.code = 0x1001 ∧ e.d1 = 9) ∧
      (clocksOk b = true → failedSteps b 9 ≠ [] → ∃ t, exec (.powerOn b) s = .next t ∧ t.bup.isLocal = false ∧
        t.bup.phase = 9 ∧ some t.bup.failph = (failedSteps b 9).getLast? ∧
        ∃ e ∈ t.ldg.wait, e.src = pgBUP ∧ e.code = 0x1003 ∧ some e.d1 = (failedSteps b 9).head?.map (BitVec.ofNat 32)) ∧
      (clocksOk b = false → ∃ t, exec (.powerOn b) s = .next t ∧ t.bup.isLocal = false ∧ t.bup.phase = 4 ∧
        ∃ e ∈ t.ldg.wait, e.src = pgBUP ∧ e.code = 0x1004 ∧ e.d1 = 4))) ∧
  (∀ s : State, s.bup.isLocal = true → s.bup.ready = false → s.bup.rst = none →
    isRoot s = true ∨ (s.clk.unlocked = false ∧ steerGrps s ≠ []) →
    ∃ t, exec .bupReady s = .next t ∧ t.bup = { s.bup with ready := true, phase := 12 } ∧
      bit (reg t (at' pgBUP 0x10)) 1 = true ∧ Logged s t pgBUP 1 0x1002 0 0 12 ∧
      t = { s with bup := t.bup, regs := t.regs, ldg := t.ldg, out := t.out }) ∧
  (∀ s : State, s.bup.isLocal = true → s.bup.ready = false →
    (s.bup.boot + 1 = 3000000000 → s.bup.phase < 10 → Logged s (bootTick s) pgBUP 2 0x1003 0 0 10 ∧
      (bootTick s).bup.failph = 10) ∧
    (s.bup.boot + 1 = 54000000000 → (∀ x, s.bup.upAt = some x → x + 15000000000 ≠ 54000000000) →
      Logged s (bootTick s) pgBUP 2 0x1003 0 0 12 ∧ (bootTick s).bup.failph = 12)) ∧
  (∀ s : State, exec .perstNRise s = .next { s with bup := { s.bup with
    perst := true, bar0 := s.bup.railsOn && decide (2 ≤ s.bup.phase) } }) ∧
  (∀ (v : W32) (s : State),
    let q := fld v 4 3
    let c := fld v 8 5
    let faults (t : State) : Prop := ∀ j, residentOn s q = some j → (getJob t j).st = .faulted
    (ResetWrite s v 1 → hasCluster s v = true → ∀ id : CoreId, id.cl.q.val = q → id.cl.c.val = c → id.k.val = fld v 15 9 →
      ∃ t, exec (.coreReset v) s = .next t ∧ t.bup.rst = some (resetRun v 1) ∧ getCore t id = Core.reset ∧ faults t ∧
        (residentOn s q = none → coreIdle (getCore s id) = true →
          (∀ d : CoreId, d.key ≠ id.key → getCore t d = getCore s d) ∧ t.jobs = s.jobs ∧
          t.clus = s.clus ∧ t.clk = s.clk ∧ t.cus = s.cus ∧ t.links = s.links)) ∧
    (ResetWrite s v 2 → hasCluster s v = true → ∃ t, exec (.clusterReset v) s = .next t ∧
      t.bup.rst = some (resetRun v 2) ∧ getClu t (16 * q + c) = Cluster.reset ∧ faults t ∧
      (∀ d : CoreId, d.cl.key = 16 * q + c → getCore t d = Core.reset) ∧
      (residentOn s q = none → (∀ e ∈ s.cores, e.1 / 96 = 16 * q + c → coreIdle e.2 = true ∧ e.2 = getCore s (coreOfKey e.1)) →
        (getClu s (16 * q + c)).re.fly = [] → (getClu s (16 * q + c)).rt.fly = [] →
        (∀ k, k ≠ 16 * q + c → getClu t k = getClu s k) ∧
        (∀ d : CoreId, d.cl.key ≠ 16 * q + c → getCore t d = getCore s d) ∧ t.jobs = s.jobs ∧ t.clk = s.clk ∧
        t.cus = s.cus ∧ t.links = s.links)) ∧
    (ResetWrite s v 3 → ∃ t, exec (.quadrantReset v) s = .next t ∧ t.bup.rst = some (resetRun v 3) ∧ faults t ∧
      (∀ d : CoreId, d.cl.q.val = q → getCore t d = Core.reset) ∧ (∀ k, k / 16 = q → getClu t k = Cluster.reset) ∧
      owner t q = owner s q ∧ t.cus.seals = s.cus.seals ∧
      (sealed s q = true → ∀ a, 2 ^ 48 ≤ a → a / 2 ^ 39 % 4 = q → rdByte t a = 0) ∧
      (residentOn s q = none → ∀ a, a < 2 ^ 47 → rdByte t a = rdByte s a)) ∧
    (ResetWrite s v 4 → ∃ t, exec (.hubReset v) s = .next t ∧ t.bup.rst = some (resetRun v 4) ∧ HubCleared s t) ∧
    (ResetWrite s v 5 → ∃ t, exec (.moduleReset (.rstCtl v)) s = .next t ∧ t.bup.rst = some (resetRun v 5) ∧
      HubCleared s t ∧ t.bup.isLocal = false ∧ t.bup.bar0 = false) ∧
    (∀ e ∈ [(3, Instr.quadrantReset v), (4, .hubReset v), (5, .moduleReset (.rstCtl v))], ∀ r, Served s pgBUP →
      fld v 2 0 = e.1 → s.bup.rst = some r → e.1 ≤ r.scope → ∃ t, exec e.2 s = .next t ∧
        t = { s with regs := t.regs, ldg := t.ldg } ∧ Logged s t pgBUP 1 0x100A 0 0 0)) ∧
  (∀ s : State, s.bup.railsOn = true → s.bup.rst = none → ∃ t, exec (.moduleReset .perst) s = .next t ∧ HubCleared s t ∧
    t.bup.perst = false ∧ t.bup.bar0 = false ∧ t.bup.isLocal = false) ∧
  (∀ (b : BringUp) (r : ResetRun) (s : State), s.bup.rst = some r →
    (r.scope = 1 ∨ r.scope = 2 ∨ (r.scope = 3 ∧ repairPending s r.q = false ∧ r.test = false) →
      exec (.resetComplete b) s = .next { s with bup := { s.bup with rst := none } }) ∧
    (r.scope = 4 → (∀ q < 4, repairPending s q = false) → r.test = false → ∃ t, exec (.resetComplete b) s = .next t ∧
      t.bup.rst = none ∧ (∀ x < 54, (getCell s x).hold = false → getCell t x = LaneCell.reset) ∧
      t = { s with bup := t.bup, cells := t.cells, lanes := t.lanes }) ∧
    (r.scope = 5 → clocksOk b = true → failedSteps b 9 = [] → ∃ t, exec (.resetComplete b) s = .next t ∧
      Local t ∧ t.bup.rst = none ∧ t.bup.bar0 = s.bup.perst ∧ t.cus.sensed = s.cus.fuses)) ∧
  (∀ (v : W32) (u : BadUnit) (s : State), Served s pgRPR → residentOn s (fld v 1 0) = none → u.q.val = fld v 1 0 →
    u.cl.val = fld v 6 2 → (fld v 13 7 = 0x7F ∧ u.core = none ∨ ∃ k : Fin 100, u.core = some k ∧ k.val = fld v 13 7) →
    unitBad s u = false → u ∉ s.bup.pendSoft → u ∉ s.bup.soft → ∃ t, exec (.rprAdd v) s = .next t ∧
      t.bup = { s.bup with pendSoft := s.bup.pendSoft ++ [u] } ∧
      t = { s with bup := t.bup, regs := t.regs, ldg := t.ldg } ∧
      Logged s t pgRPR 1 0x1007 0 (BitVec.ofNat 32 (u.q.val * 2 ^ 30 + u.cl.val * 2 ^ 24 + fld v 13 7 * 2 ^ 16)) 0) ∧
  (∀ (a b : Nat) (s : State), nbrPair a b = true ∨ (a = 4 ∧ b < 4) ∨ (b = 4 ∧ a < 4) → ∃ t, exec (.d2dLost a b) s = .next t ∧
    (∀ j ∈ linkJobs s a b, (getJob t j).st = .faulted) ∧ t.clk = s.clk ∧ t.cus = s.cus ∧
    (linkJobs s a b = [] → t.jobs = s.jobs ∧ Logged s t pgBUP 2 0x1009 0 0 0))

/-- Clocks, power and temperature. CLK_SRC_WRITE switches the management source, and leaves the domain without edges where
old or new source has stopped; a software measurement begins, is BUSY, STOPPED or DONE as R403 and R404 say, a stopped
target counting 0; a stopped source is not reported. Low input writes its warning; a shutdown or PWR_EN falling loses all
that power held. A sample above 480 W over 100 us warns, one above 528 W over 10 us faults the die's job; a die at its
throttle point enters throttle once, at its fault point faults its jobs, at its trip point shuts the module down;
throttle ends 5 K below for 100 ms; a coolant rise above 18 K for 1 s warns. -/
def Obligations.PowerAndClocks : Prop :=
  (∀ (v : W32) (s : State), Served s pgCLK →
    let old := (reg s (at' pgCLK 0x100)).toNat
    let new := v.toNat % 2
    ∃ t, exec (.clkSrcWrite v) s = .next t ∧ reg t (at' pgCLK 0x100) = BitVec.ofNat 32 new ∧
      RegsKept s t [at' pgCLK 0x100] ∧ t = { s with regs := t.regs, clk := { s.clk with mgmtDead := t.clk.mgmtDead } } ∧
      t.clk.mgmtDead = (s.clk.mgmtDead || (decide (old ≠ new) && (clkStopped s (mgtSource old) || clkStopped s (mgtSource new))))) ∧
  (∀ (v : W32) (s : State), Served s pgCLK →
    let ran (t : State) : Prop := reg t (at' pgCLK 0x104) = v &&& 0x001F031F ∧
      t = { s with regs := t.regs, clk := t.clk, out := t.out }
    (bit v 31 = true → bit v 30 = false → s.clk.fcHolder ≠ 1 → s.clk.fcHolder ≠ 2 → 4 ≤ fld v 20 16 → fld v 20 16 ≤ 24 →
      ∃ t, exec (.start v) s = .next t ∧ ran t ∧ t.clk = { s.clk with
        fcState := 1, fcHolder := 3, fcN := fld v 20 16, fcRef := fld v 9 8, fcTgt := fld v 4 0 }) ∧
    (bit v 31 = true → bit v 30 = false → s.clk.fcHolder = 1 ∨ s.clk.fcHolder = 2 → ∃ t, exec (.start v) s = .next t ∧
      ran t ∧ t.clk = { s.clk with fcState := 3 }) ∧
    (bit v 31 = true → bit v 30 = false → s.clk.fcHolder ≠ 1 → s.clk.fcHolder ≠ 2 → fld v 20 16 < 4 ∨ 24 < fld v 20 16 →
      ∃ t, exec (.start v) s = .next t ∧ ran t ∧ t.clk.fcState = 4 ∧ t.clk.fcCount = s.clk.fcCount) ∧
    (bit v 31 = false → bit v 30 = true → s.clk.fcState = 1 → ∃ t, exec (.stop v) s = .next t ∧ ran t ∧
      t.clk = { s.clk with fcState := 4, fcHolder := if s.clk.fcHolder = 3 then 0 else s.clk.fcHolder } ∧
      bit (reg t (at' pgCLK 0x10)) 0 = true)) ∧
  (∀ (n : W32) (s : State), s.clk.fcState = 1 → clkStopped s s.clk.fcRef = false →
    ∃ t, exec (.fcMeasureDone n) s = .next t ∧ t.clk = { s.clk with
        fcState := 2, fcCount := if clkStopped s s.clk.fcTgt then 0 else n
        fcHolder := if s.clk.fcHolder = 3 then 0 else s.clk.fcHolder } ∧
      bit (reg t (at' pgCLK 0x10)) 0 = true ∧ t = { s with regs := t.regs, clk := t.clk, out := t.out }) ∧
  (∀ (c : Fin 17) (s : State), ∃ t, exec (.stoppedClock c) s = .next t ∧ bit t.clk.stopped c = true ∧
    (∀ i, i < 17 → i ≠ c.val → bit t.clk.stopped i = bit s.clk.stopped i) ∧
    (c.val = 0 ∨ c.val = 5 → rootRuns t = false) ∧
    t = { s with clk := { s.clk with stopped := t.clk.stopped, mgmtDead := t.clk.mgmtDead }
                 bup := { s.bup with bar0 := t.bup.bar0 } } ∧
    (t.bup.bar0 = s.bup.bar0 ∨ c.val = 4 ∨ c.val = 16)) ∧
  (∀ (cv : Nat) (s : State), s.bup.railsOn = true → cv < 4000 → ∃ t, exec (.pwrUv cv) s = .next t ∧
    fld (reg t (at' pgPWR 0x100)) 15 0 = cv ∧ Logged s t pgPWR 1 0x1104 0 0 0 ∧
    t = { s with regs := t.regs, ldg := t.ldg }) ∧
  (∀ (cv : Nat) (s : State),
    let lost (t : State) : Prop := t.jobs = [] ∧ t.bup.railsOn = false ∧ t.bup.isLocal = false ∧ t.bup.bar0 = false ∧
      t.ldg = Ledger.reset ∧ t.lanes = [] ∧ t.clk.dst = 0 ∧ t.cus.fuses = s.cus.fuses ∧ t.cus.keys = [] ∧
      t.pending = s.pending ∧ t.out = s.out
    (s.bup.railsOn = true → cv < 3600 ∨ 6200 < cv → ∃ t, exec (.inputShutdown cv) s = .next t ∧ lost t ∧
      t.bup.pwrEn = s.bup.pwrEn ∧ t.pwr.shut = true) ∧
    (s.bup.railsOn = true → 3600 ≤ cv → cv ≤ 6200 → exec (.inputShutdown cv) s = .next s) ∧
    ∃ t, exec .pwrEnFall s = .next t ∧ lost t ∧ t.bup.pwrEn = false ∧ t.pwr.tripN = true) ∧
  (∀ (r : PowerReading) (s : State), s.bup.railsOn = true →
    let h := (r.die :: s.pwr.hist).take 100
    ∃ t, exec (.powerSample r) s = .next t ∧ t.pwr.hist = h ∧
      reg t (at' pgPWR 0x100) = BitVec.ofNat 32 (r.cv % 65536 + r.w % 65536 * 65536) ∧
      (∀ q < 4, reg t (at' pgPWR (0x110 + 4 * q)) = BitVec.ofNat 32 (powerSum h 100 q / max 1 h.length % 65536)) ∧
      (∀ q j, q < 4 → 10 ≤ h.length → 52800 < powerSum h 10 q → residentOn s q = some j → (getJob t j).st = .faulted) ∧
      ((∀ q < 4, powerSum h 10 q ≤ 52800) → t.jobs = s.jobs) ∧
      ((∀ q < 4, powerSum h 10 q ≤ 52800 ∧ powerSum h 100 q ≤ 480000) → t.ldg = s.ldg ∧ t.out = s.out) ∧
      (∀ q < 4, 100 ≤ h.length → 480000 < powerSum h 100 q → tget none s.pwr.overAt q = none →
        tget none t.pwr.overAt q = some s.clk.dst ∧ bit (reg t (at' pgPWR 0x10)) 0 = true)) ∧
  (∀ (r : ThermalReading) (s : State), s.bup.railsOn = true →
    let die (i : Nat) : Int := if i < 4 then maxInt 0 (r.quads.getD i []) else if i = 4 then maxInt 0 r.hub else r.hbm.getD (i - 5) 0
    ((∀ i < 5, die i < 1150) → ∃ t, exec (.thermalSample r) s = .next t ∧ t.bup.railsOn = true ∧
      t.opt.temp = maxInt 0 r.photonic ∧
      (∀ i < 17, throttleAt i ≤ die i → inThrottle t i = true) ∧
      (∀ i < 17, die i < throttleAt i → inThrottle t i = inThrottle s i) ∧
      (∀ q j, q < 4 → 1100 ≤ die q → residentOn s q = some j → (getJob t j).st = .faulted) ∧
      (1100 ≤ die 4 → ∀ j < 4, resident (getJob t j).st = false) ∧
      (800 < maxInt 0 r.photonic → t.opt.hot = true ∧ ∀ l, (getLane t l).laser ≠ .full)) ∧
    ((∃ i < 5, 1150 ≤ die i) → ∃ t, exec (.thermalSample r) s = .next t ∧ t.bup.railsOn = false ∧ t.pwr.shut = true ∧
      t.pwr.tripN = false ∧ t.bup.pwrEn = s.bup.pwrEn)) ∧
  (∀ (i : Fin 17) (x : Nat) (s : State), tget none s.pwr.coolAt i = some x → inThrottle s i = true →
    (x + 600000000 ≤ s.clk.dst → ∃ t, exec (.throttleEnd i) s = .next t ∧ inThrottle t i = false ∧
      (∀ k, k < 17 → k ≠ i.val → inThrottle t k = inThrottle s k) ∧ t = { s with pwr := { s.pwr with thr := t.pwr.thr } }) ∧
    (s.clk.dst < x + 600000000 → exec (.throttleEnd i) s = .next s)) ∧
  (∀ (a b : Int) (s : State), s.bup.railsOn = true →
    (b - a ≤ 180 → ∃ t, exec (.coolantSample a b) s = .next t ∧ t.pwr = { s.pwr with flowAt := none, flowSaid := false } ∧
      RegsKept s t [at' pgPWR 0x140] ∧ t.ldg = s.ldg) ∧
    (∀ x, 180 < b - a → s.pwr.flowAt = some x → x + 6000000000 ≤ s.clk.dst → s.pwr.flowSaid = false →
      ∃ t, exec (.coolantSample a b) s = .next t ∧ Logged s t pgPWR 1 0x1105 0 0 0 ∧
        t.pwr = { s.pwr with flowSaid := true }))

/-- The host's windows and rings. HST_WIN takes a value whose IDX and STK are in range, else the write is counted. A BAR2
request is translated through the window in force and waits; a read with the window off, or of a sealed quadrant, is
Unsupported Request. A host slot serves the quadrant's oldest request: a write puts its bytes in place, a read answers
them. A doorbell moves a tail within the ring. The engine takes a descriptor in the ring's turn: the first failing check
of R429 writes its status and moves the head on; a move that passes asks for its host bytes, takes its lines one by one,
and once all have had their slot lands its bytes or writes them out, credits, writes DONE and signals; a failed
completion, or a seal on what it would read, halts the ring until RESTART (that a line goes in a core cycle, and what a
dropped line or a seal leads to, is the model's choice, log 64). -/
def Obligations.HostWindowsAndRings : Prop :=
  (∀ (v : W32) (s : State), Served s pgHST →
    (winOk v = true → ∃ t, exec (.hstWinWrite v) s = .next t ∧ reg t (at' pgHST 0x100) = v &&& 0x1FF ∧
      RegsKept s t [at' pgHST 0x100] ∧ t = { s with regs := t.regs }) ∧
    (winOk v = false → ∃ t, exec (.hstWinWrite v) s = .next t ∧ reg t (at' pgHST 0x100) = reg s (at' pgHST 0x100) ∧
      reg t (at' pgHST 0x104) = satAdd (reg s (at' pgHST 0x104)) 1 ∧ t = { s with regs := t.regs, ldg := t.ldg })) ∧
  (∀ (off len tag : Nat) (s : State), s.bup.bar0 = true →
    let r := winReq s off len tag none
    (bit (winReg s) 0 = false →
      exec (.bar2Read off len tag) s = .next { s with out := .cpl 1 tag [] :: s.out }) ∧
    (bit (winReg s) 0 = true → pageLive s pgQP = true → sealed s r.q.val = true →
      ∃ t, exec (.bar2Read off len tag) s = .next t ∧ t.out = .cpl 1 tag [] :: s.out ∧
        reg t (at' pgCUS 0x114) = satAdd (reg s (at' pgCUS 0x114)) 1 ∧
        (Recent s.ldg.sealDeny s.clk.dst 6000000 → t.ldg = s.ldg) ∧
        (¬ Recent s.ldg.sealDeny s.clk.dst 6000000 → Logged s t pgCUS 1 0x0F05 (owner s r.q.val) 0 0) ∧
        t = { s with regs := t.regs, ldg := t.ldg, out := t.out }) ∧
    (bit (winReg s) 0 = true → pageLive s pgQP = true → sealed s r.q.val = false → clsRoom s 5 1 = true →
      exec (.bar2Read off len tag) s = .next { s with bar2 := s.bar2 ++ [r] })) ∧
  (∀ (off : Nat) (d : List Byte) (s : State), s.bup.bar0 = true →
    (bit (winReg s) 0 = false → exec (.bar2Write off d) s = .next s) ∧
    (bit (winReg s) 0 = true → pageLive s pgQP = true → clsRoom s 5 (bar2Cells (some d)) = true →
      exec (.bar2Write off d) s = .next { s with bar2 := s.bar2 ++ [winReq s off d.length 0 (some d)] })) ∧
  (∀ (q : Fin 4) (r : Bar2) (pre post : List Bar2) (s : State), hostSlots s q.val = true → s.bar2 = pre ++ r :: post →
    r.q = q → (∀ b ∈ pre, b.q ≠ q) → tget 0 s.fab.qFlaws (0xB0 + q.val) = 0 → s.flaws = [] →
    let room (as : List Nat) : Prop :=
      (chargeCells { s with bar2 := pre ++ post } (hostWho s q.val) (as.map (fun a => (a, 0)))).2 = true
    (∀ d, r.data = some d → r.byte + d.length ≤ 3 * 2 ^ 37 → room ((List.range d.length).map r.addr) →
      ∃ t, exec (.hostSlotService q) s = .next t ∧ t.bar2 = pre ++ post ∧
        (∀ i, i < d.length → rdByte t (r.addr i) = d.getD i 0) ∧
        (∀ a, (∀ i, i < d.length → r.addr i ≠ a) → rdByte t a = rdByte s a) ∧
        t = { s with bar2 := t.bar2, mem := t.mem, mcs := t.mcs, regs := t.regs }) ∧
    (r.data = none → sealed s q.val = false → room ((List.range r.len).map r.addr) →
      ∃ t, exec (.hostSlotService q) s = .next t ∧ t.bar2 = pre ++ post ∧
        t.out = .cpl 0 r.tag ((List.range r.len).map (fun i => rdByte s (r.addr i))) :: s.out ∧
        t = { s with bar2 := t.bar2, out := t.out, mcs := t.mcs, regs := t.regs }) ∧
    (r.data = none → sealed s q.val = true → ∃ t, exec (.hostSlotService q) s = .next t ∧ t.bar2 = pre ++ post ∧
      t.out = .cpl 1 r.tag [] :: s.out ∧ t.mem = s.mem)) ∧
  (∀ (r : Fin 4) (v : W32) (s : State), s.bup.bar0 = true → pageLive s pgHST = true →
    (fld v 15 0 < ringSize s r.val → ∃ t, exec (.doorbell r v) s = .next t ∧
      getRing t r.val = { getRing s r.val with tail := fld v 15 0 } ∧ (∀ k, k ≠ r.val → getRing t k = getRing s k) ∧
      t = { s with rings := t.rings }) ∧
    (ringSize s r.val ≤ fld v 15 0 → ∃ t, exec (.doorbell r v) s = .next t ∧
      reg t (at' pgHST 0x104) = satAdd (reg s (at' pgHST 0x104)) 1 ∧ t = { s with regs := t.regs, ldg := t.ldg })) ∧
  (∀ (r : Fin 4) (d : BitVec 512) (s : State), ringTurn s = some r.val → pageLive s pgHST = true →
    let st := hmCheck s d
    let x := getRing s r.val
    (hmLen d = 0 → st = 1) ∧ (hmLen d ≠ 0 → hmOp d ≠ 1 → hmOp d ≠ 2 → st = 2) ∧
    ∃ t, exec (.hostMove r d) s = .next t ∧ t.ringRr = (r.val + 1) % 4 ∧ t.mem = s.mem ∧
      (∀ k, k ≠ r.val → getRing t k = getRing s k) ∧
      (st = 0 → getRing t r.val = { x with run := some d, moved := 0, got := [], gaps := [] } ∧
        t.out = (if hmOp d = 1 then
          ((hostReqs 4096 (hmHaddr d) (hmLen d)).map (fun q => Out.hostRd q.1 q.2)).reverse else []) ++ s.out ∧
        t = { s with rings := t.rings, ringRr := t.ringRr, out := t.out }) ∧
      (st ≠ 0 → getRing t r.val = { x with
          head := (x.head + 1) % ringSize s r.val, last := st, run := none, moved := 0, got := [], gaps := [] } ∧
        t.out = .hostWr (ringBase s r.val + 64 * x.head + 60) (bytesOf 4 (2 ^ 31 + st)) :: s.out ∧
        (st = 4 → reg t (at' pgCUS 0x114) = satAdd (reg s (at' pgCUS 0x114)) 1) ∧
        t = { s with rings := t.rings, ringRr := t.ringRr, out := t.out, regs := t.regs, ldg := t.ldg })) ∧
  (∀ (q r : Nat) (d : BitVec 512) (g : GA) (s : State), ringMove s q r = some (g, d) → s.flaws = [] →
    let x := getRing s r
    let as := hmLine g d x.moved
    (hbmAccept s (hostWho s g.q) (quadOf (as.headD 0)) (stackOf (as.headD 0)) s.clk.dst 1 (as.headD 0)).2 = true →
    (hmOp d = 1 → getRing (hostLine s r g d) r = { x with moved := x.moved + 1 }) ∧
    (hmOp d = 2 → sealed s g.q = false →
      getRing (hostLine s r g d) r = { x with moved := x.moved + 1, got := x.got ++ as.map (rdByte s) })) ∧
  (∀ (r : Fin 4) (d : BitVec 512) (g : GA) (s : State), (getRing s r.val).run = some d → hmAddrOk s d = some g →
    s.flaws = [] →
    let x := getRing s r.val
    let as := (List.range (hmLen d)).map (fun i => gaByte g (g.byte + i))
    let sts (n : Nat) : Out := .hostWr (ringBase s r.val + 64 * x.head + 60) (bytesOf 4 (2 ^ 31 + n))
    let ended (t : State) (n : Nat) (halt : Bool) : Prop := getRing t r.val = { x with
      head := (x.head + 1) % ringSize s r.val, run := none, halt := x.halt || halt, last := if n = 0 then x.last else n
      moved := 0, got := [], gaps := [] }
    let failed (t : State) : Prop := ended t 6 true ∧ sts 6 ∈ t.out ∧ t.clus = s.clus ∧
      (sealed s g.q = false → Logged s t pgHST 2 0x1202 0 (BitVec.ofNat 32 (4 * 2 ^ 29 + r.val)) 6)
    (∀ data : List Byte, ∃ t, exec (.hostMoveComplete r (.fail data)) s = .next t ∧ failed t ∧
      t.mem = (if hmOp d = 1 then (hostLand s x g d data).mem else s.mem)) ∧
    (∀ data : List Byte, x.moved < hmLines g d → exec (.hostMoveComplete r (.ok data)) s = .next s) ∧
    (∀ data : List Byte, hmLines g d ≤ x.moved → hmOp d ≠ 1 → sealed s g.q = true ∨ x.gaps ≠ [] →
      ∃ t, exec (.hostMoveComplete r (.ok data)) s = .next t ∧ failed t ∧ t.mem = s.mem) ∧
    (∀ data : List Byte, hmLines g d ≤ x.moved → hmOp d = 1 ∨ (sealed s g.q = false ∧ x.gaps = []) →
      ∃ t, exec (.hostMoveComplete r (.ok data)) s = .next t ∧ ended t 0 false ∧
      sts 0 ∈ t.out ∧ (hmIrq d = true → bit (reg t (at' pgHST 0x10)) r.val = true) ∧
      (hmOp d = 1 → t.mem = (hostLand s x g d (fit 0 (hmLen d) data)).mem ∧
        (x.gaps = [] → ∀ a, rdByte t a = rdByte (wrCells s (as.zip (fit 0 (hmLen d) data))) a)) ∧
      (hmOp d ≠ 1 → t.mem = s.mem ∧ ∀ q ∈ hostReqs 512 (hmHaddr d) x.got.length,
        .hostWr q.1 ((x.got.drop (q.1 - hmHaddr d)).take q.2) ∈ t.out) ∧
      t = { s with rings := t.rings, out := t.out, regs := t.regs, mem := t.mem, clus := t.clus, dirty := t.dirty } ∧
      (let k := 16 * g.q + hmClu d
       let c := getCtr s k (hmCC d)
       (hmCr d = true → hmCredit s d g.q = true →
        getCtr t k (hmCC d) = { c with sum := c.sum - 1, at' := s.clk.dst } ∧ (k, hmCC d) ∈ t.dirty) ∧
       (hmCr d = false → t.clus = s.clus ∧ t.dirty = s.dirty)))) ∧
  (∀ (r : Fin 4) (v : W32) (s : State), Served s pgHST →
    let o := at' pgHST (0x208 + 0x20 * r.val)
    ∃ t, exec (.ringRestart r v) s = .next t ∧ bit (reg t o) 8 = bit v 8 ∧
      (bit (reg s o) 8 = true → fld (reg t o) 4 0 = fld (reg s o) 4 0) ∧
      (bit (reg s o) 8 = false → 4 ≤ fld v 4 0 → fld v 4 0 ≤ 16 → fld (reg t o) 4 0 = fld v 4 0) ∧ RegsKept s t [o] ∧
      getRing t r.val = { getRing s r.val with halt := (getRing s r.val).halt && !bit v 9 } ∧
      (∀ k, k ≠ r.val → getRing t k = getRing s k) ∧ t = { s with regs := t.regs, rings := t.rings })

/-- Management. An endpoint ID is set and answered; MCTP control is answered with or without one, PLDM only with one;
a sensor reads as last updated, its thresholds as they are fixed (in the model's layout, log 66), a threshold cannot be
set, other types are answered with an error and other messages are counted. CUS_READ and LDG_READ answer at once, and with code 3 while a command runs; LDG_READ hands out up to 16 entries
from the BMC's pointer and clears its lost count. SENSOR_UPDATE takes every sensor's value and state;
TELEMETRY_RECORD queues its 128 bytes and counts. -/
def Obligations.ManagementRows : Prop :=
  (∀ (e : Byte) (s : State), mgtLive s = true → exec (.setEndpointId e) s = .next { s with
    mgt := { s.mgt with eid := e }, out := .mctp 1 0 [e] :: s.out }) ∧
  (∀ (c : Byte) (s : State), mgtLive s = true →
    exec (.mctpControl c) s = .next { s with out := .mctp c.toNat 0 [] :: s.out }) ∧
  (∀ (ty : Nat) (p : PldmReq) (s : State),
    (mgtAddressed s = false → exec (.pldmRequest ty p) s = .next s) ∧
    (mgtAddressed s = true → ∃ t code data, exec (.pldmRequest ty p) s = .next t ∧
      t.out = .mctp 1 code data :: s.out ∧ t = { s with out := t.out, mgt := { s.mgt with recv := t.mgt.recv } } ∧
      (ty ≠ 0 → ty ≠ 2 → code ≠ 0 ∧ t.mgt = s.mgt) ∧
      (∀ n, p = .setThreshold n → code ≠ 0 ∧ t.mgt = s.mgt) ∧
      (∀ n, p = .getSensor n → ty = 2 → 1 ≤ n → n ≤ 27 → code = 0 ∧ data =
        bytesOf 4 (tget 0 s.mgt.vals n % 2 ^ 32).toNat ++ [BitVec.ofNat 8 (tget 0 s.mgt.sst n)]) ∧
      (∀ n, p = .getThresholds n → ty = 2 → 1 ≤ n → n ≤ 27 → code = 0 ∧ data = thresholdBytes n ∧ t.mgt = s.mgt) ∧
      (∀ e, p = .setEventReceiver e → ty = 2 → code = 0 ∧ t.mgt.recv = e))) ∧
  (∀ (ty : Nat) (s : State), mgtLive s = true → ty ≠ 0 → ty ≠ 1 → ty ≠ 0x7E → ∃ t, exec (.mctpDiscard ty) s = .next t ∧
    reg t (at' pgMGT 0x104) = satAdd (reg s (at' pgMGT 0x104)) 1 ∧ RegsKept s t [at' pgMGT 0x104] ∧
    t = { s with regs := t.regs }) ∧
  (∀ s : State, mgtAddressed s = true → pageLive s pgCUS = true →
    (s.mgt.busy = true → exec .cusRead s = .next { s with out := .mctp 4 3 [] :: s.out } ∧
      ∀ n, exec (.ldgRead n) s = .next { s with out := .mctp 5 3 [] :: s.out }) ∧
    (s.mgt.busy = false → exec .cusRead s = .next { s with out := .mctp 4 0 (bytesOf 4 (cusStatus s) ++
        bytesOf 4 s.cus.nonce.toNat ++ bytesOf 4 (cusTimer s) ++ bytesOf 4 s.cus.result ++
        bytesOf 256 (cusPend s).toNat) :: s.out }) ∧
    (s.mgt.busy = false → ∀ n, 1 ≤ n → n ≤ 16 →
      let k := min n (s.ldg.wr - s.ldg.bmc)
      exec (.ldgRead n) s = .next { s with
        ldg := { s.ldg with bmc := s.ldg.bmc + k, bmcLost := 0 }
        out := .mctp 5 0 (bytesOf 4 s.ldg.bmcLost ++ (List.range k).flatMap
          (fun i => entryBytes (ldgSlot s ((s.ldg.bmc + i) % 8192)))) :: s.out })) ∧
  (∀ s : State, mgtLive s = true → ∃ t, exec .sensorUpdate s = .next t ∧
    (∀ n, 1 ≤ n → n ≤ 27 → tget 0 t.mgt.vals n = sensorNow s n ∧ tget 0 t.mgt.sst n = sensorState n (sensorNow s n)) ∧
    t = { s with mgt := t.mgt, regs := t.regs, out := t.out }) ∧
  (∀ s : State, pageLive s pgMGT = true → pageLive s pgQP = true → ∃ t, exec .telemetryRecord s = .next t ∧
    t.mgt = { s.mgt with telSeq := s.mgt.telSeq + 1 } ∧ t = { s with mgt := t.mgt, fab := t.fab } ∧
    (tget 0 s.fab.qFlaws 0x200 = 0 → clsRoom s 6 1 = true → t.fab = { s.fab with
      qFlaws := t.fab.qFlaws, telem := s.fab.telem ++ [bytesOf 8 s.clk.dst ++ bytesOf 8 s.mgt.telSeq ++
      ((List.range 27).map (· + 1)).flatMap (fun n => bytesOf 4 (tget 0 s.mgt.vals n % 2 ^ 32).toNat) ++ bytesOf 4 0] }))

/-- The Ledger, SYNC_IN, configuration and debug. A commit takes the lowest source's oldest entry, gives it the next
sequence number and its slot, and moves a reader 8,192 behind on by one, counted; there is one commit in a core cycle;
LDG_RD may be set within the entries held. The third valid second makes EXTREF 1 and pulls the crystal within 50 ppm, an
invalid one or none clears it with its entry; a trigger latches the Datestamp and may freeze the trace queue, one within
1 us is only counted. Shelf bytes are debug's while it is enabled, and no further; where the grid uses the bank the access
is dropped and the job faults. -/
def Obligations.LedgerAndSync : Prop :=
  (∀ (e : Entry) (pre post : List Entry) (s : State), s.ldg.wait = pre ++ e :: post → (∀ x ∈ pre, e.src < x.src) →
    (∀ x ∈ post, e.src ≤ x.src) →
    let l := s.ldg
    (ldgSpent s = true → exec .ledgerCommit s = .next s) ∧ (ldgSpent s = false → tget 0 s.fab.qFlaws 0x202 = 0 →
    ∃ t, exec .ledgerCommit s = .next t ∧ t.ldg.cycle = some (s.clk.dst / 4) ∧ t.ldg.wait = pre ++ post ∧ t.ldg.wr = l.wr + 1 ∧
      ldgSlot t (l.wr % 8192) = { e with loss := l.loss.contains e.src, seq := BitVec.ofNat 32 l.wr } ∧
      (∀ k, k ≠ l.wr % 8192 → ldgSlot t k = ldgSlot s k) ∧ e.src ∉ t.ldg.loss ∧
      t.ldg.rd = (if 8192 < l.wr + 1 - l.rd then l.rd + 1 else l.rd) ∧
      t.ldg.bmc = (if 8192 < l.wr + 1 - l.bmc then l.bmc + 1 else l.bmc) ∧
      reg t (at' pgLDG 0x108) = satAdd (reg s (at' pgLDG 0x108)) (if 8192 < l.wr + 1 - l.rd then 1 else 0) ∧
      (2 ≤ e.sev → bit (reg t (at' pgLDG 0x10)) 0 = true) ∧
      t = { s with ldg := t.ldg, regs := t.regs, fab := t.fab, out := t.out, mgt := t.mgt })) ∧
  (∀ (k : Nat) (s : State), Served s pgLDG → k ≤ 8192 → k ≤ s.ldg.wr →
    exec (.ldgRdWrite (BitVec.ofNat 32 (s.ldg.wr - k))) s = .next { s with
      ldg := { s.ldg with rd := s.ldg.wr - k } }) ∧
  (∀ (b : Nat) (s : State), refActive s = true →
    let supp (t : State) : Prop := reg t (at' pgSYNC 0x110) = if bit (reg s (at' pgSYNC 0x100)) 1 = true
      then satAdd (reg s (at' pgSYNC 0x110)) 1 else reg s (at' pgSYNC 0x110)
    (∀ x g, s.sync.pps = some x → s.sync.gap = some g →
      let gap := s.clk.dst - x
      let good := 5999850000 ≤ gap ∧ gap ≤ 6000150000 ∧ 9999950 ≤ b ∧ b ≤ 10000050 ∧ gap ≤ g + 600 ∧ g ≤ gap + 600
      (good → ∃ t, exec (.ppsEdge b) s = .next t ∧ supp t ∧
        t.sync = { s.sync with pps := some s.clk.dst, gap := some gap, valid := s.sync.valid + 1 } ∧
        t.clk.extref = (s.clk.extref || decide (2 ≤ s.sync.valid)) ∧
        (t.clk.extref = true → t.clk.pull =
          max (-50000) (min 50000 (s.clk.pull - ((gap : Int) - 6000000000) / 6))) ∧
        (s.bup.ready = true → t.clk.dst = s.clk.dst) ∧ t = { s with regs := t.regs, sync := t.sync, clk := t.clk }) ∧
      (¬ good → ∃ t, exec (.ppsEdge b) s = .next t ∧ supp t ∧
        t.sync = { s.sync with pps := some s.clk.dst, gap := some gap, valid := 0 } ∧
        t.clk = { s.clk with extref := false } ∧ Logged s t pgSYNC 1 0x1203 0 0 0 ∧
        t = { s with regs := t.regs, sync := t.sync, clk := t.clk, ldg := t.ldg })) ∧
    (s.sync.pps = none → ∃ t, exec (.ppsEdge b) s = .next t ∧ supp t ∧
      t.sync = { s.sync with pps := some s.clk.dst, gap := none, valid := 0 } ∧
      t = { s with regs := t.regs, sync := t.sync }) ∧
    (∀ x, s.sync.pps = some x → x + 6000600000 ≤ s.clk.dst → ∃ t, exec .syncRefLost s = .next t ∧
      t.sync = { s.sync with pps := none, gap := none, valid := 0 } ∧ t.clk = { s.clk with extref := false } ∧
      Logged s t pgSYNC 1 0x1203 0 0 0 ∧
      t = { s with regs := t.regs, sync := t.sync, clk := t.clk, ldg := t.ldg })) ∧
  (∀ s : State, pageLive s pgSYNC = true → refActive s = false → bit (reg s (at' pgSYNC 0x100)) 1 = true →
    (¬ Recent s.sync.trig s.clk.dst 6000 → ∃ t, exec .syncTrig s = .next t ∧ t.sync = { s.sync with
        trig := some s.clk.dst, dst := s.clk.dst, fine := s.clk.fine
        frozen := s.sync.frozen || bit (reg s (at' pgSYNC 0x100)) 2 } ∧
      Logged s t pgSYNC 1 0x1204 0 0 0 ∧ bit (reg t (at' pgSYNC 0x10)) 0 = true ∧
      t = { s with sync := t.sync, ldg := t.ldg, regs := t.regs, out := t.out }) ∧
    (Recent s.sync.trig s.clk.dst 6000 → ∃ t, exec .syncTrig s = .next t ∧
      reg t (at' pgSYNC 0x110) = satAdd (reg s (at' pgSYNC 0x110)) 1 ∧ RegsKept s t [at' pgSYNC 0x110] ∧
      t = { s with regs := t.regs })) ∧
  (∀ s : State, Served s pgSYNC → exec .syncTrigDstLoRead s = .next { s with
    sync := { s.sync with hi := BitVec.ofNat 32 (s.sync.dst / 2 ^ 32), fineL := BitVec.ofNat 32 s.sync.fine.toNat }
    out := .rd (BitVec.ofNat 32 s.sync.dst) :: s.out }) ∧
  (∀ s : State, s.bup.perst = true → s.bup.railsOn = true → 2 ≤ s.bup.phase →
    exec .configurationRequest s = .next { s with out := .cfg s.bup.bar0 :: s.out }) ∧
  (∀ (c : CoreId) (a : Nat) (b : Byte) (s : State),
    exec (.debugAccess .boundary) s = .next s ∧
    (∀ n, exec (.debugAccess (.instr n)) s = if s.cus.debug = true then .refused .jtagInstruction else .next s) ∧
    (1048576 ≤ a → exec (.debugAccess (.shelfRead c a)) s = .fault .noSuchShelfByte ∧
      exec (.debugAccess (.shelfWrite c a b)) s = .fault .noSuchShelfByte) ∧
    (a < 1048576 → s.cus.debug = false → exec (.debugAccess (.shelfRead c a)) s = .next s ∧
      exec (.debugAccess (.shelfWrite c a b)) s = .next s) ∧
    (∀ (p i : Nat), a < 1048576 → s.cus.debug = true → c.cl.c.val < offered s c.cl.q.val →
      debugMeets s (shelfAddr c a) = some p → residentOn s c.cl.q.val = some i →
      ∀ e ∈ [DebugOp.shelfRead c a, .shelfWrite c a b], ∃ t, exec (.debugAccess e) s = .next t ∧
        (getJob t i).st = .faulted ∧ t.mem = s.mem ∧
        reg t (at' (pgCLU c.cl.q.val c.cl.c.val) 0x104) = satAdd (reg s (at' (pgCLU c.cl.q.val c.cl.c.val) 0x104)) 1) ∧
    (a < 1048576 → s.cus.debug = true → c.cl.c.val < offered s c.cl.q.val → debugMeets s (shelfAddr c a) = none →
      s.flaws = [] →
      exec (.debugAccess (.shelfRead c a)) s = .next { s with out := .dbg (rdByte s (shelfAddr c a)) :: s.out } ∧
      ∃ t, exec (.debugAccess (.shelfWrite c a b)) s = .next t ∧ rdByte t (shelfAddr c a) = b ∧
        (∀ x, x ≠ shelfAddr c a → rdByte t x = rdByte s x) ∧ t = { s with mem := t.mem }))

/-- While READY stays 1 the Datestamp never steps: every command leaves the tick count as it is, and an idle step moves
it by one tick while the root runs. -/
def Obligations.DatestampInReady : Prop :=
  ∀ s t : State, s.bup.ready = true → step s = .next t → t.bup.ready = true →
    t.clk.dst = s.clk.dst + if s.pending = [] ∧ rootRuns s = true then 1 else 0

/-- No command ever clears a fuse bit: what is blown stays blown through every step, power loss and reset. -/
def Obligations.FusesNeverClear : Prop :=
  ∀ (s t : State) (k b : Nat), step s = .next t → bit (tget 0 s.cus.fuses k) b = true →
    bit (tget 0 t.cus.fuses k) b = true
end

