-- ==== Sys2Proof/Laws/Tab.lean ====
section
/-! SUPPORT. Sparse tables: what a read sees after a write, and that writes keep the canonical form. -/

namespace Sys2Proof.Machine

variable {α : Type}

theorem tget_filter_key (d : α) (p : Nat → Bool) (t : Tab α) (k : Nat) :
    tget d (t.filter (fun e => p e.1)) k = if p k then tget d t k else d := by
  induction t with
  | nil => simp [tget]
  | cons e r ih =>
    obtain ⟨a, v⟩ := e
    by_cases hp : p a
    · by_cases hk : k = a
      · subst hk; simp [hp, tget]
      · simp [hp, tget, hk, ih]
    · by_cases hk : k = a
      · subst hk; simp [hp, ih]
      · simp [hp, tget, hk, ih]

theorem tget_tins (d v : α) (t : Tab α) (i k : Nat) (h : ∀ e ∈ t, e.1 ≠ i) :
    tget d (tins i v t) k = if k = i then v else tget d t k := by
  induction t with
  | nil => simp [tins, tget]
  | cons e r ih =>
    obtain ⟨a, w⟩ := e
    have hr : ∀ e ∈ r, e.1 ≠ i := fun e he => h e (List.mem_cons_of_mem _ he)
    have ha : a ≠ i := h (a, w) List.mem_cons_self
    by_cases hlt : i < a
    · simp [tins, hlt, tget]
    · by_cases hk : k = a
      · subst hk; simp [tins, hlt, tget, ha]
      · simp [tins, hlt, tget, hk, ih hr]

/-- A read after a write: the written key gives the value written, every other key what it gave. -/
theorem tget_tput [DecidableEq α] (d : α) (t : Tab α) (i k : Nat) (v : α) :
    tget d (tput d t i v) k = if k = i then v else tget d t k := by
  have hf := tget_filter_key d (fun a => decide (a ≠ i)) t k
  by_cases hv : v = d
  · simp only [tput, hv, if_true]
    rw [hf]; by_cases hk : k = i <;> simp [hk]
  · simp only [tput, hv, if_false]
    rw [tget_tins _ _ _ _ _ (by intro e he; simpa using (List.mem_filter.1 he).2), hf]
    by_cases hk : k = i <;> simp [hk]

@[simp] theorem tget_tput_self [DecidableEq α] (d : α) (t : Tab α) (i : Nat) (v : α) :
    tget d (tput d t i v) i = v := by simp [tget_tput]

/-- Another key reads as before, whatever default the write or the read takes. -/
theorem tget_tput_ne [DecidableEq α] (d d' : α) (t : Tab α) {i k : Nat} (v : α) (h : k ≠ i) :
    tget d (tput d' t i v) k = tget d t k := by
  have hf := tget_filter_key d (fun a => decide (a ≠ i)) t k
  simp only [h, ne_eq, not_false_eq_true, decide_true, if_true] at hf
  by_cases hv : v = d'
  · simp only [tput, hv, if_true]; exact hf
  · simp only [tput, hv, if_false]
    rw [tget_tins _ _ _ _ _ (by intro e he; simpa using (List.mem_filter.1 he).2), if_neg h]
    exact hf

/-- Rising keys, as a statement about the list of keys. -/
theorem rising_iff (t : Tab α) : rising t = true ↔ (t.map Prod.fst).Pairwise (· < ·) := by
  induction t with
  | nil => simp [rising]
  | cons e r ih =>
    cases r with
    | nil => simp [rising]
    | cons f q =>
      obtain ⟨a, v⟩ := e
      obtain ⟨b, w⟩ := f
      simp only [rising, Bool.and_eq_true, decide_eq_true_eq, ih]
      constructor
      · rintro ⟨hab, hp⟩
        refine List.pairwise_cons.2 ⟨?_, hp⟩
        intro x hx
        rcases List.mem_cons.1 hx with rfl | hx
        · exact hab
        · exact lt_trans hab ((List.pairwise_cons.1 hp).1 x hx)
      · intro hp
        exact ⟨(List.pairwise_cons.1 hp).1 b (by simp), (List.pairwise_cons.1 hp).2⟩

theorem rising_filter (t : Tab α) (p : Nat × α → Bool) (h : rising t = true) :
    rising (t.filter p) = true := by
  rw [rising_iff] at h ⊢
  exact h.sublist (List.filter_sublist.map _)

theorem mem_tins (i : Nat) (v : α) (t : Tab α) (e : Nat × α) :
    e ∈ tins i v t ↔ e = (i, v) ∨ e ∈ t := by
  induction t with
  | nil => simp [tins]
  | cons f r ih =>
    obtain ⟨a, w⟩ := f
    by_cases hlt : i < a
    · simp [tins, hlt]
    · simp only [tins, hlt, if_false, List.mem_cons, ih]; tauto

theorem rising_tins (i : Nat) (v : α) (t : Tab α) (h : rising t = true) (hi : ∀ e ∈ t, e.1 ≠ i) :
    rising (tins i v t) = true := by
  induction t with
  | nil => simp [tins, rising]
  | cons f r ih =>
    obtain ⟨a, w⟩ := f
    have hr := (rising_iff _).1 h
    have hrr : rising r = true := (rising_iff _).2 (List.pairwise_cons.1 hr).2
    have hir : ∀ e ∈ r, e.1 ≠ i := fun e he => hi e (List.mem_cons_of_mem _ he)
    by_cases hlt : i < a
    · simp only [tins, hlt, if_true, rising, decide_true, Bool.true_and]; exact h
    · have hai : a < i := by have := hi (a, w) List.mem_cons_self; simp at this; omega
      have h2 := (rising_iff _).1 (ih hrr hir)
      rw [rising_iff]
      simp only [tins, hlt, if_false, List.map_cons]
      refine List.pairwise_cons.2 ⟨?_, h2⟩
      intro x hx
      obtain ⟨e, he, rfl⟩ := List.mem_map.1 hx
      rcases (mem_tins i v r e).1 he with rfl | he
      · exact hai
      · exact (List.pairwise_cons.1 hr).1 _ (List.mem_map_of_mem he)

theorem rising_tput [DecidableEq α] (d : α) (t : Tab α) (i : Nat) (v : α) (h : rising t = true) :
    rising (tput d t i v) = true := by
  by_cases hv : v = d
  · simp only [tput, hv, if_true]; exact rising_filter _ _ h
  · simp only [tput, hv, if_false]
    exact rising_tins _ _ _ (rising_filter _ _ h)
      (by intro e he; simpa using (List.mem_filter.1 he).2)

/-- A member of a written table: the written pair, which is not the default, or an old one elsewhere. -/
theorem mem_tput [DecidableEq α] (d : α) (t : Tab α) (i : Nat) (v : α) (e : Nat × α)
    (h : e ∈ tput d t i v) : (e = (i, v) ∧ v ≠ d) ∨ (e ∈ t ∧ e.1 ≠ i) := by
  by_cases hv : v = d
  · simp only [tput, hv, if_true] at h
    exact .inr (by simpa using List.mem_filter.1 h)
  · simp only [tput, hv, if_false] at h
    rcases (mem_tins _ _ _ _).1 h with h | h
    · exact .inl ⟨h, hv⟩
    · exact .inr (by simpa using List.mem_filter.1 h)

theorem tabWf_tput [DecidableEq α] (d : α) (t : Tab α) (i : Nat) (v : α) (h : tabWf d t = true) :
    tabWf d (tput d t i v) = true := by
  simp only [tabWf, Bool.and_eq_true, List.all_eq_true, decide_eq_true_eq] at h ⊢
  refine ⟨rising_tput d t i v h.1, fun e he => ?_⟩
  rcases mem_tput d t i v e he with ⟨rfl, hv⟩ | ⟨he, -⟩
  · exact hv
  · exact h.2 e he

theorem tget_nil (d : α) (k : Nat) : tget d [] k = d := rfl

/-- A key below every listed one reads as the default. -/
theorem tget_of_lt (d : α) (t : Tab α) (k : Nat) (h : ∀ e ∈ t, k < e.1) : tget d t k = d := by
  induction t with
  | nil => rfl
  | cons e r ih =>
    obtain ⟨a, v⟩ := e
    have := h (a, v) List.mem_cons_self
    simp only [tget]
    rw [if_neg (by simp at this; omega)]
    exact ih (fun e he => h e (List.mem_cons_of_mem _ he))

/-- A change of all listed values, read back. -/
theorem tget_tmap [DecidableEq α] (d : α) (f : Nat → α → α) (t : Tab α) (k : Nat) (h : rising t = true)
    (hd : f k d = d) : tget d (tmap d f t) k = f k (tget d t k) := by
  induction t with
  | nil => simp [tmap, tget, hd]
  | cons e r ih =>
    obtain ⟨a, v⟩ := e
    have hr := (rising_iff _).1 h
    have hrr : rising r = true := (rising_iff _).2 (List.pairwise_cons.1 hr).2
    have hlt : ∀ e ∈ r, a < e.1 := fun e he => (List.pairwise_cons.1 hr).1 _ (List.mem_map_of_mem he)
    have ih := ih hrr
    simp only [tmap, List.map_cons] at ih ⊢
    by_cases hk : k = a
    · subst hk
      by_cases hv : f k v = d
      · rw [List.filter_cons_of_neg (by simp [hv]), ih, tget_of_lt d r k hlt]
        simp [tget, hv, hd]
      · rw [List.filter_cons_of_pos (by simp [hv])]
        simp [tget]
    · by_cases hv : f a v = d
      · rw [List.filter_cons_of_neg (by simp [hv]), ih]
        simp [tget, hk]
      · rw [List.filter_cons_of_pos (by simp [hv])]
        simpa [tget, hk] using ih

end Sys2Proof.Machine
end

