-- ==== Sys2Proof/Laws/State.lean ====
section
/-! SUPPORT. What each update of one part of the state leaves as it was, and what it reads back. -/

namespace Sys2Proof.Machine

/-- Where a kept register is set, the rest of the state stays. -/
@[simp] theorem setReg_frame (s : State) (o : Nat) (v : W32) :
    (setReg s o v).pending = s.pending ∧ (setReg s o v).out = s.out ∧ (setReg s o v).draws = s.draws ∧
    (setReg s o v).mem = s.mem ∧ (setReg s o v).stale = s.stale ∧ (setReg s o v).flaws = s.flaws ∧
    (setReg s o v).clk = s.clk ∧ (setReg s o v).ldg = s.ldg ∧ (setReg s o v).jobs = s.jobs ∧
    (setReg s o v).cores = s.cores ∧ (setReg s o v).clus = s.clus ∧ (setReg s o v).mcs = s.mcs ∧
    (setReg s o v).ues = s.ues ∧ (setReg s o v).grps = s.grps ∧ (setReg s o v).ctxs = s.ctxs ∧
    (setReg s o v).cready = s.cready ∧ (setReg s o v).links = s.links ∧ (setReg s o v).fab = s.fab ∧
    (setReg s o v).lanes = s.lanes ∧ (setReg s o v).cells = s.cells ∧ (setReg s o v).opt = s.opt ∧
    (setReg s o v).top = s.top ∧ (setReg s o v).cus = s.cus ∧ (setReg s o v).bup = s.bup ∧
    (setReg s o v).pwr = s.pwr ∧ (setReg s o v).rings = s.rings ∧ (setReg s o v).ringRr = s.ringRr ∧
    (setReg s o v).bar2 = s.bar2 ∧ (setReg s o v).mgt = s.mgt ∧ (setReg s o v).stops = s.stops ∧
    (setReg s o v).dirty = s.dirty ∧ (setReg s o v).sync = s.sync :=
  ⟨rfl, rfl, rfl, rfl, rfl, rfl, rfl, rfl, rfl, rfl, rfl, rfl, rfl, rfl, rfl, rfl, rfl, rfl, rfl, rfl, rfl, rfl, rfl, rfl, rfl, rfl, rfl, rfl, rfl, rfl, rfl, rfl⟩

/-- Where a counter is raised, the rest of the state stays. -/
@[simp] theorem bump_frame (s : State) (o n : Nat) :
    (bump s o n).pending = s.pending ∧ (bump s o n).out = s.out ∧ (bump s o n).draws = s.draws ∧
    (bump s o n).mem = s.mem ∧ (bump s o n).stale = s.stale ∧ (bump s o n).flaws = s.flaws ∧
    (bump s o n).clk = s.clk ∧ (bump s o n).ldg = s.ldg ∧ (bump s o n).jobs = s.jobs ∧ (bump s o n).cores = s.cores ∧
    (bump s o n).clus = s.clus ∧ (bump s o n).mcs = s.mcs ∧ (bump s o n).ues = s.ues ∧ (bump s o n).grps = s.grps ∧
    (bump s o n).ctxs = s.ctxs ∧ (bump s o n).cready = s.cready ∧ (bump s o n).links = s.links ∧
    (bump s o n).fab = s.fab ∧ (bump s o n).lanes = s.lanes ∧ (bump s o n).cells = s.cells ∧
    (bump s o n).opt = s.opt ∧ (bump s o n).top = s.top ∧ (bump s o n).cus = s.cus ∧ (bump s o n).bup = s.bup ∧
    (bump s o n).pwr = s.pwr ∧ (bump s o n).rings = s.rings ∧ (bump s o n).ringRr = s.ringRr ∧
    (bump s o n).bar2 = s.bar2 ∧ (bump s o n).mgt = s.mgt ∧ (bump s o n).stops = s.stops ∧
    (bump s o n).dirty = s.dirty ∧ (bump s o n).sync = s.sync :=
  ⟨rfl, rfl, rfl, rfl, rfl, rfl, rfl, rfl, rfl, rfl, rfl, rfl, rfl, rfl, rfl, rfl, rfl, rfl, rfl, rfl, rfl, rfl, rfl, rfl, rfl, rfl, rfl, rfl, rfl, rfl, rfl, rfl⟩

/-- Where something leaves the module, the rest of the state stays. -/
@[simp] theorem emit_frame (s : State) (o : Out) :
    (emit s o).pending = s.pending ∧ (emit s o).draws = s.draws ∧ (emit s o).regs = s.regs ∧ (emit s o).mem = s.mem ∧
    (emit s o).stale = s.stale ∧ (emit s o).flaws = s.flaws ∧ (emit s o).clk = s.clk ∧ (emit s o).ldg = s.ldg ∧
    (emit s o).jobs = s.jobs ∧ (emit s o).cores = s.cores ∧ (emit s o).clus = s.clus ∧ (emit s o).mcs = s.mcs ∧
    (emit s o).ues = s.ues ∧ (emit s o).grps = s.grps ∧ (emit s o).ctxs = s.ctxs ∧ (emit s o).cready = s.cready ∧
    (emit s o).links = s.links ∧ (emit s o).fab = s.fab ∧ (emit s o).lanes = s.lanes ∧ (emit s o).cells = s.cells ∧
    (emit s o).opt = s.opt ∧ (emit s o).top = s.top ∧ (emit s o).cus = s.cus ∧ (emit s o).bup = s.bup ∧
    (emit s o).pwr = s.pwr ∧ (emit s o).rings = s.rings ∧ (emit s o).ringRr = s.ringRr ∧ (emit s o).bar2 = s.bar2 ∧
    (emit s o).mgt = s.mgt ∧ (emit s o).stops = s.stops ∧
    (emit s o).dirty = s.dirty ∧ (emit s o).sync = s.sync :=
  ⟨rfl, rfl, rfl, rfl, rfl, rfl, rfl, rfl, rfl, rfl, rfl, rfl, rfl, rfl, rfl, rfl, rfl, rfl, rfl, rfl, rfl, rfl, rfl, rfl, rfl, rfl, rfl, rfl, rfl, rfl, rfl, rfl⟩

/-- Where a fresh number for a free value, the rest of the state stays. -/
@[simp] theorem fresh_frame (s : State) :
    (fresh s).pending = s.pending ∧ (fresh s).out = s.out ∧ (fresh s).regs = s.regs ∧ (fresh s).mem = s.mem ∧
    (fresh s).stale = s.stale ∧ (fresh s).flaws = s.flaws ∧ (fresh s).clk = s.clk ∧ (fresh s).ldg = s.ldg ∧
    (fresh s).jobs = s.jobs ∧ (fresh s).cores = s.cores ∧ (fresh s).clus = s.clus ∧ (fresh s).mcs = s.mcs ∧
    (fresh s).ues = s.ues ∧ (fresh s).grps = s.grps ∧ (fresh s).ctxs = s.ctxs ∧ (fresh s).cready = s.cready ∧
    (fresh s).links = s.links ∧ (fresh s).fab = s.fab ∧ (fresh s).lanes = s.lanes ∧ (fresh s).cells = s.cells ∧
    (fresh s).opt = s.opt ∧ (fresh s).top = s.top ∧ (fresh s).cus = s.cus ∧ (fresh s).bup = s.bup ∧
    (fresh s).pwr = s.pwr ∧ (fresh s).rings = s.rings ∧ (fresh s).ringRr = s.ringRr ∧ (fresh s).bar2 = s.bar2 ∧
    (fresh s).mgt = s.mgt ∧ (fresh s).stops = s.stops ∧
    (fresh s).dirty = s.dirty ∧ (fresh s).sync = s.sync :=
  ⟨rfl, rfl, rfl, rfl, rfl, rfl, rfl, rfl, rfl, rfl, rfl, rfl, rfl, rfl, rfl, rfl, rfl, rfl, rfl, rfl, rfl, rfl, rfl, rfl, rfl, rfl, rfl, rfl, rfl, rfl, rfl, rfl⟩

/-- Where a job slot is set, the rest of the state stays. -/
@[simp] theorem setJob_frame (s : State) (j : Nat) (x : Job) :
    (setJob s j x).pending = s.pending ∧ (setJob s j x).out = s.out ∧ (setJob s j x).draws = s.draws ∧
    (setJob s j x).regs = s.regs ∧ (setJob s j x).mem = s.mem ∧ (setJob s j x).stale = s.stale ∧
    (setJob s j x).flaws = s.flaws ∧ (setJob s j x).clk = s.clk ∧ (setJob s j x).ldg = s.ldg ∧
    (setJob s j x).cores = s.cores ∧ (setJob s j x).clus = s.clus ∧ (setJob s j x).mcs = s.mcs ∧
    (setJob s j x).ues = s.ues ∧ (setJob s j x).grps = s.grps ∧ (setJob s j x).ctxs = s.ctxs ∧
    (setJob s j x).cready = s.cready ∧ (setJob s j x).links = s.links ∧ (setJob s j x).fab = s.fab ∧
    (setJob s j x).lanes = s.lanes ∧ (setJob s j x).cells = s.cells ∧ (setJob s j x).opt = s.opt ∧
    (setJob s j x).top = s.top ∧ (setJob s j x).cus = s.cus ∧ (setJob s j x).bup = s.bup ∧
    (setJob s j x).pwr = s.pwr ∧ (setJob s j x).rings = s.rings ∧ (setJob s j x).ringRr = s.ringRr ∧
    (setJob s j x).bar2 = s.bar2 ∧ (setJob s j x).mgt = s.mgt ∧ (setJob s j x).stops = s.stops ∧
    (setJob s j x).dirty = s.dirty ∧ (setJob s j x).sync = s.sync :=
  ⟨rfl, rfl, rfl, rfl, rfl, rfl, rfl, rfl, rfl, rfl, rfl, rfl, rfl, rfl, rfl, rfl, rfl, rfl, rfl, rfl, rfl, rfl, rfl, rfl, rfl, rfl, rfl, rfl, rfl, rfl, rfl, rfl⟩

/-- Where a core is set, the rest of the state stays. -/
@[simp] theorem setCore_frame (s : State) (c : CoreId) (x : Core) :
    (setCore s c x).pending = s.pending ∧ (setCore s c x).out = s.out ∧ (setCore s c x).draws = s.draws ∧
    (setCore s c x).regs = s.regs ∧ (setCore s c x).mem = s.mem ∧ (setCore s c x).stale = s.stale ∧
    (setCore s c x).flaws = s.flaws ∧ (setCore s c x).clk = s.clk ∧ (setCore s c x).ldg = s.ldg ∧
    (setCore s c x).jobs = s.jobs ∧ (setCore s c x).clus = s.clus ∧ (setCore s c x).mcs = s.mcs ∧
    (setCore s c x).ues = s.ues ∧ (setCore s c x).grps = s.grps ∧ (setCore s c x).ctxs = s.ctxs ∧
    (setCore s c x).cready = s.cready ∧ (setCore s c x).links = s.links ∧ (setCore s c x).fab = s.fab ∧
    (setCore s c x).lanes = s.lanes ∧ (setCore s c x).cells = s.cells ∧ (setCore s c x).opt = s.opt ∧
    (setCore s c x).top = s.top ∧ (setCore s c x).cus = s.cus ∧ (setCore s c x).bup = s.bup ∧
    (setCore s c x).pwr = s.pwr ∧ (setCore s c x).rings = s.rings ∧ (setCore s c x).ringRr = s.ringRr ∧
    (setCore s c x).bar2 = s.bar2 ∧ (setCore s c x).mgt = s.mgt ∧ (setCore s c x).stops = s.stops ∧
    (setCore s c x).dirty = s.dirty ∧ (setCore s c x).sync = s.sync :=
  ⟨rfl, rfl, rfl, rfl, rfl, rfl, rfl, rfl, rfl, rfl, rfl, rfl, rfl, rfl, rfl, rfl, rfl, rfl, rfl, rfl, rfl, rfl, rfl, rfl, rfl, rfl, rfl, rfl, rfl, rfl, rfl, rfl⟩

/-- Where a cluster is set, the rest of the state stays. -/
@[simp] theorem setClu_frame (s : State) (k : Nat) (x : Cluster) :
    (setClu s k x).pending = s.pending ∧ (setClu s k x).out = s.out ∧ (setClu s k x).draws = s.draws ∧
    (setClu s k x).regs = s.regs ∧ (setClu s k x).mem = s.mem ∧ (setClu s k x).stale = s.stale ∧
    (setClu s k x).flaws = s.flaws ∧ (setClu s k x).clk = s.clk ∧ (setClu s k x).ldg = s.ldg ∧
    (setClu s k x).jobs = s.jobs ∧ (setClu s k x).cores = s.cores ∧ (setClu s k x).mcs = s.mcs ∧
    (setClu s k x).ues = s.ues ∧ (setClu s k x).grps = s.grps ∧ (setClu s k x).ctxs = s.ctxs ∧
    (setClu s k x).cready = s.cready ∧ (setClu s k x).links = s.links ∧ (setClu s k x).fab = s.fab ∧
    (setClu s k x).lanes = s.lanes ∧ (setClu s k x).cells = s.cells ∧ (setClu s k x).opt = s.opt ∧
    (setClu s k x).top = s.top ∧ (setClu s k x).cus = s.cus ∧ (setClu s k x).bup = s.bup ∧
    (setClu s k x).pwr = s.pwr ∧ (setClu s k x).rings = s.rings ∧ (setClu s k x).ringRr = s.ringRr ∧
    (setClu s k x).bar2 = s.bar2 ∧ (setClu s k x).mgt = s.mgt ∧ (setClu s k x).stops = s.stops ∧
    (setClu s k x).dirty = s.dirty ∧ (setClu s k x).sync = s.sync :=
  ⟨rfl, rfl, rfl, rfl, rfl, rfl, rfl, rfl, rfl, rfl, rfl, rfl, rfl, rfl, rfl, rfl, rfl, rfl, rfl, rfl, rfl, rfl, rfl, rfl, rfl, rfl, rfl, rfl, rfl, rfl, rfl, rfl⟩

/-- Where a lane group is set, the rest of the state stays. -/
@[simp] theorem setLink_frame (s : State) (g : Nat) (x : Link) :
    (setLink s g x).pending = s.pending ∧ (setLink s g x).out = s.out ∧ (setLink s g x).draws = s.draws ∧
    (setLink s g x).regs = s.regs ∧ (setLink s g x).mem = s.mem ∧ (setLink s g x).stale = s.stale ∧
    (setLink s g x).flaws = s.flaws ∧ (setLink s g x).clk = s.clk ∧ (setLink s g x).ldg = s.ldg ∧
    (setLink s g x).jobs = s.jobs ∧ (setLink s g x).cores = s.cores ∧ (setLink s g x).clus = s.clus ∧
    (setLink s g x).mcs = s.mcs ∧ (setLink s g x).ues = s.ues ∧ (setLink s g x).grps = s.grps ∧
    (setLink s g x).ctxs = s.ctxs ∧ (setLink s g x).cready = s.cready ∧ (setLink s g x).fab = s.fab ∧
    (setLink s g x).lanes = s.lanes ∧ (setLink s g x).cells = s.cells ∧ (setLink s g x).opt = s.opt ∧
    (setLink s g x).top = s.top ∧ (setLink s g x).cus = s.cus ∧ (setLink s g x).bup = s.bup ∧
    (setLink s g x).pwr = s.pwr ∧ (setLink s g x).rings = s.rings ∧ (setLink s g x).ringRr = s.ringRr ∧
    (setLink s g x).bar2 = s.bar2 ∧ (setLink s g x).mgt = s.mgt ∧ (setLink s g x).stops = s.stops ∧
    (setLink s g x).dirty = s.dirty ∧ (setLink s g x).sync = s.sync :=
  ⟨rfl, rfl, rfl, rfl, rfl, rfl, rfl, rfl, rfl, rfl, rfl, rfl, rfl, rfl, rfl, rfl, rfl, rfl, rfl, rfl, rfl, rfl, rfl, rfl, rfl, rfl, rfl, rfl, rfl, rfl, rfl, rfl⟩

/-- Where an HBM controller is set, the rest of the state stays. -/
@[simp] theorem setMc_frame (s : State) (m : Nat) (x : Mc) :
    (setMc s m x).pending = s.pending ∧ (setMc s m x).out = s.out ∧ (setMc s m x).draws = s.draws ∧
    (setMc s m x).regs = s.regs ∧ (setMc s m x).mem = s.mem ∧ (setMc s m x).stale = s.stale ∧
    (setMc s m x).flaws = s.flaws ∧ (setMc s m x).clk = s.clk ∧ (setMc s m x).ldg = s.ldg ∧
    (setMc s m x).jobs = s.jobs ∧ (setMc s m x).cores = s.cores ∧ (setMc s m x).clus = s.clus ∧
    (setMc s m x).ues = s.ues ∧ (setMc s m x).grps = s.grps ∧ (setMc s m x).ctxs = s.ctxs ∧
    (setMc s m x).cready = s.cready ∧ (setMc s m x).links = s.links ∧ (setMc s m x).fab = s.fab ∧
    (setMc s m x).lanes = s.lanes ∧ (setMc s m x).cells = s.cells ∧ (setMc s m x).opt = s.opt ∧
    (setMc s m x).top = s.top ∧ (setMc s m x).cus = s.cus ∧ (setMc s m x).bup = s.bup ∧ (setMc s m x).pwr = s.pwr ∧
    (setMc s m x).rings = s.rings ∧ (setMc s m x).ringRr = s.ringRr ∧ (setMc s m x).bar2 = s.bar2 ∧
    (setMc s m x).mgt = s.mgt ∧ (setMc s m x).stops = s.stops ∧
    (setMc s m x).dirty = s.dirty ∧ (setMc s m x).sync = s.sync :=
  ⟨rfl, rfl, rfl, rfl, rfl, rfl, rfl, rfl, rfl, rfl, rfl, rfl, rfl, rfl, rfl, rfl, rfl, rfl, rfl, rfl, rfl, rfl, rfl, rfl, rfl, rfl, rfl, rfl, rfl, rfl, rfl, rfl⟩

/-- Where an update engine is set, the rest of the state stays. -/
@[simp] theorem setUe_frame (s : State) (e : Nat) (x : Ue) :
    (setUe s e x).pending = s.pending ∧ (setUe s e x).out = s.out ∧ (setUe s e x).draws = s.draws ∧
    (setUe s e x).regs = s.regs ∧ (setUe s e x).mem = s.mem ∧ (setUe s e x).stale = s.stale ∧
    (setUe s e x).flaws = s.flaws ∧ (setUe s e x).clk = s.clk ∧ (setUe s e x).ldg = s.ldg ∧
    (setUe s e x).jobs = s.jobs ∧ (setUe s e x).cores = s.cores ∧ (setUe s e x).clus = s.clus ∧
    (setUe s e x).mcs = s.mcs ∧ (setUe s e x).grps = s.grps ∧ (setUe s e x).ctxs = s.ctxs ∧
    (setUe s e x).cready = s.cready ∧ (setUe s e x).links = s.links ∧ (setUe s e x).fab = s.fab ∧
    (setUe s e x).lanes = s.lanes ∧ (setUe s e x).cells = s.cells ∧ (setUe s e x).opt = s.opt ∧
    (setUe s e x).top = s.top ∧ (setUe s e x).cus = s.cus ∧ (setUe s e x).bup = s.bup ∧ (setUe s e x).pwr = s.pwr ∧
    (setUe s e x).rings = s.rings ∧ (setUe s e x).ringRr = s.ringRr ∧ (setUe s e x).bar2 = s.bar2 ∧
    (setUe s e x).mgt = s.mgt ∧ (setUe s e x).stops = s.stops ∧
    (setUe s e x).dirty = s.dirty ∧ (setUe s e x).sync = s.sync :=
  ⟨rfl, rfl, rfl, rfl, rfl, rfl, rfl, rfl, rfl, rfl, rfl, rfl, rfl, rfl, rfl, rfl, rfl, rfl, rfl, rfl, rfl, rfl, rfl, rfl, rfl, rfl, rfl, rfl, rfl, rfl, rfl, rfl⟩

/-- Where a group entry is set, the rest of the state stays. -/
@[simp] theorem setGrp_frame (s : State) (g : Nat) (x : GrpEntry) :
    (setGrp s g x).pending = s.pending ∧ (setGrp s g x).out = s.out ∧ (setGrp s g x).draws = s.draws ∧
    (setGrp s g x).regs = s.regs ∧ (setGrp s g x).mem = s.mem ∧ (setGrp s g x).stale = s.stale ∧
    (setGrp s g x).flaws = s.flaws ∧ (setGrp s g x).clk = s.clk ∧ (setGrp s g x).ldg = s.ldg ∧
    (setGrp s g x).jobs = s.jobs ∧ (setGrp s g x).cores = s.cores ∧ (setGrp s g x).clus = s.clus ∧
    (setGrp s g x).mcs = s.mcs ∧ (setGrp s g x).ues = s.ues ∧ (setGrp s g x).ctxs = s.ctxs ∧
    (setGrp s g x).cready = s.cready ∧ (setGrp s g x).links = s.links ∧ (setGrp s g x).fab = s.fab ∧
    (setGrp s g x).lanes = s.lanes ∧ (setGrp s g x).cells = s.cells ∧ (setGrp s g x).opt = s.opt ∧
    (setGrp s g x).top = s.top ∧ (setGrp s g x).cus = s.cus ∧ (setGrp s g x).bup = s.bup ∧
    (setGrp s g x).pwr = s.pwr ∧ (setGrp s g x).rings = s.rings ∧ (setGrp s g x).ringRr = s.ringRr ∧
    (setGrp s g x).bar2 = s.bar2 ∧ (setGrp s g x).mgt = s.mgt ∧ (setGrp s g x).stops = s.stops ∧
    (setGrp s g x).dirty = s.dirty ∧ (setGrp s g x).sync = s.sync :=
  ⟨rfl, rfl, rfl, rfl, rfl, rfl, rfl, rfl, rfl, rfl, rfl, rfl, rfl, rfl, rfl, rfl, rfl, rfl, rfl, rfl, rfl, rfl, rfl, rfl, rfl, rfl, rfl, rfl, rfl, rfl, rfl, rfl⟩

/-- Where a context entry is set, the rest of the state stays. -/
@[simp] theorem setCtx_frame (s : State) (e : Nat) (x : Ctx) :
    (setCtx s e x).pending = s.pending ∧ (setCtx s e x).out = s.out ∧ (setCtx s e x).draws = s.draws ∧
    (setCtx s e x).regs = s.regs ∧ (setCtx s e x).mem = s.mem ∧ (setCtx s e x).stale = s.stale ∧
    (setCtx s e x).flaws = s.flaws ∧ (setCtx s e x).clk = s.clk ∧ (setCtx s e x).ldg = s.ldg ∧
    (setCtx s e x).jobs = s.jobs ∧ (setCtx s e x).cores = s.cores ∧ (setCtx s e x).clus = s.clus ∧
    (setCtx s e x).mcs = s.mcs ∧ (setCtx s e x).ues = s.ues ∧ (setCtx s e x).grps = s.grps ∧
    (setCtx s e x).cready = s.cready ∧ (setCtx s e x).links = s.links ∧ (setCtx s e x).fab = s.fab ∧
    (setCtx s e x).lanes = s.lanes ∧ (setCtx s e x).cells = s.cells ∧ (setCtx s e x).opt = s.opt ∧
    (setCtx s e x).top = s.top ∧ (setCtx s e x).cus = s.cus ∧ (setCtx s e x).bup = s.bup ∧
    (setCtx s e x).pwr = s.pwr ∧ (setCtx s e x).rings = s.rings ∧ (setCtx s e x).ringRr = s.ringRr ∧
    (setCtx s e x).bar2 = s.bar2 ∧ (setCtx s e x).mgt = s.mgt ∧ (setCtx s e x).stops = s.stops ∧
    (setCtx s e x).dirty = s.dirty ∧ (setCtx s e x).sync = s.sync :=
  ⟨rfl, rfl, rfl, rfl, rfl, rfl, rfl, rfl, rfl, rfl, rfl, rfl, rfl, rfl, rfl, rfl, rfl, rfl, rfl, rfl, rfl, rfl, rfl, rfl, rfl, rfl, rfl, rfl, rfl, rfl, rfl, rfl⟩

/-- Where a lane is set, the rest of the state stays. -/
@[simp] theorem setLane_frame (s : State) (l : Nat) (x : Lane) :
    (setLane s l x).pending = s.pending ∧ (setLane s l x).out = s.out ∧ (setLane s l x).draws = s.draws ∧
    (setLane s l x).regs = s.regs ∧ (setLane s l x).mem = s.mem ∧ (setLane s l x).stale = s.stale ∧
    (setLane s l x).flaws = s.flaws ∧ (setLane s l x).clk = s.clk ∧ (setLane s l x).ldg = s.ldg ∧
    (setLane s l x).jobs = s.jobs ∧ (setLane s l x).cores = s.cores ∧ (setLane s l x).clus = s.clus ∧
    (setLane s l x).mcs = s.mcs ∧ (setLane s l x).ues = s.ues ∧ (setLane s l x).grps = s.grps ∧
    (setLane s l x).ctxs = s.ctxs ∧ (setLane s l x).cready = s.cready ∧ (setLane s l x).links = s.links ∧
    (setLane s l x).fab = s.fab ∧ (setLane s l x).cells = s.cells ∧ (setLane s l x).opt = s.opt ∧
    (setLane s l x).top = s.top ∧ (setLane s l x).cus = s.cus ∧ (setLane s l x).bup = s.bup ∧
    (setLane s l x).pwr = s.pwr ∧ (setLane s l x).rings = s.rings ∧ (setLane s l x).ringRr = s.ringRr ∧
    (setLane s l x).bar2 = s.bar2 ∧ (setLane s l x).mgt = s.mgt ∧ (setLane s l x).stops = s.stops ∧
    (setLane s l x).dirty = s.dirty ∧ (setLane s l x).sync = s.sync :=
  ⟨rfl, rfl, rfl, rfl, rfl, rfl, rfl, rfl, rfl, rfl, rfl, rfl, rfl, rfl, rfl, rfl, rfl, rfl, rfl, rfl, rfl, rfl, rfl, rfl, rfl, rfl, rfl, rfl, rfl, rfl, rfl, rfl⟩

/-- Where a lane cell is set, the rest of the state stays. -/
@[simp] theorem setCell_frame (s : State) (x : Nat) (c : LaneCell) :
    (setCell s x c).pending = s.pending ∧ (setCell s x c).out = s.out ∧ (setCell s x c).draws = s.draws ∧
    (setCell s x c).regs = s.regs ∧ (setCell s x c).mem = s.mem ∧ (setCell s x c).stale = s.stale ∧
    (setCell s x c).flaws = s.flaws ∧ (setCell s x c).clk = s.clk ∧ (setCell s x c).ldg = s.ldg ∧
    (setCell s x c).jobs = s.jobs ∧ (setCell s x c).cores = s.cores ∧ (setCell s x c).clus = s.clus ∧
    (setCell s x c).mcs = s.mcs ∧ (setCell s x c).ues = s.ues ∧ (setCell s x c).grps = s.grps ∧
    (setCell s x c).ctxs = s.ctxs ∧ (setCell s x c).cready = s.cready ∧ (setCell s x c).links = s.links ∧
    (setCell s x c).fab = s.fab ∧ (setCell s x c).lanes = s.lanes ∧ (setCell s x c).opt = s.opt ∧
    (setCell s x c).top = s.top ∧ (setCell s x c).cus = s.cus ∧ (setCell s x c).bup = s.bup ∧
    (setCell s x c).pwr = s.pwr ∧ (setCell s x c).rings = s.rings ∧ (setCell s x c).ringRr = s.ringRr ∧
    (setCell s x c).bar2 = s.bar2 ∧ (setCell s x c).mgt = s.mgt ∧ (setCell s x c).stops = s.stops ∧
    (setCell s x c).dirty = s.dirty ∧ (setCell s x c).sync = s.sync :=
  ⟨rfl, rfl, rfl, rfl, rfl, rfl, rfl, rfl, rfl, rfl, rfl, rfl, rfl, rfl, rfl, rfl, rfl, rfl, rfl, rfl, rfl, rfl, rfl, rfl, rfl, rfl, rfl, rfl, rfl, rfl, rfl, rfl⟩

/-- Where a ring is set, the rest of the state stays. -/
@[simp] theorem setRing_frame (s : State) (r : Nat) (x : Ring) :
    (setRing s r x).pending = s.pending ∧ (setRing s r x).out = s.out ∧ (setRing s r x).draws = s.draws ∧
    (setRing s r x).regs = s.regs ∧ (setRing s r x).mem = s.mem ∧ (setRing s r x).stale = s.stale ∧
    (setRing s r x).flaws = s.flaws ∧ (setRing s r x).clk = s.clk ∧ (setRing s r x).ldg = s.ldg ∧
    (setRing s r x).jobs = s.jobs ∧ (setRing s r x).cores = s.cores ∧ (setRing s r x).clus = s.clus ∧
    (setRing s r x).mcs = s.mcs ∧ (setRing s r x).ues = s.ues ∧ (setRing s r x).grps = s.grps ∧
    (setRing s r x).ctxs = s.ctxs ∧ (setRing s r x).cready = s.cready ∧ (setRing s r x).links = s.links ∧
    (setRing s r x).fab = s.fab ∧ (setRing s r x).lanes = s.lanes ∧ (setRing s r x).cells = s.cells ∧
    (setRing s r x).opt = s.opt ∧ (setRing s r x).top = s.top ∧ (setRing s r x).cus = s.cus ∧
    (setRing s r x).bup = s.bup ∧ (setRing s r x).pwr = s.pwr ∧ (setRing s r x).ringRr = s.ringRr ∧
    (setRing s r x).bar2 = s.bar2 ∧ (setRing s r x).mgt = s.mgt ∧ (setRing s r x).stops = s.stops ∧
    (setRing s r x).dirty = s.dirty ∧ (setRing s r x).sync = s.sync :=
  ⟨rfl, rfl, rfl, rfl, rfl, rfl, rfl, rfl, rfl, rfl, rfl, rfl, rfl, rfl, rfl, rfl, rfl, rfl, rfl, rfl, rfl, rfl, rfl, rfl, rfl, rfl, rfl, rfl, rfl, rfl, rfl, rfl⟩

/-- Where a completion counter is set, the rest of the state stays. -/
@[simp] theorem setCtr_frame (s : State) (k n : Nat) (c : Ctr) :
    (setCtr s k n c).pending = s.pending ∧ (setCtr s k n c).out = s.out ∧ (setCtr s k n c).draws = s.draws ∧
    (setCtr s k n c).regs = s.regs ∧ (setCtr s k n c).mem = s.mem ∧ (setCtr s k n c).stale = s.stale ∧
    (setCtr s k n c).flaws = s.flaws ∧ (setCtr s k n c).clk = s.clk ∧ (setCtr s k n c).ldg = s.ldg ∧
    (setCtr s k n c).jobs = s.jobs ∧ (setCtr s k n c).cores = s.cores ∧ (setCtr s k n c).mcs = s.mcs ∧
    (setCtr s k n c).ues = s.ues ∧ (setCtr s k n c).grps = s.grps ∧ (setCtr s k n c).ctxs = s.ctxs ∧
    (setCtr s k n c).cready = s.cready ∧ (setCtr s k n c).links = s.links ∧ (setCtr s k n c).fab = s.fab ∧
    (setCtr s k n c).lanes = s.lanes ∧ (setCtr s k n c).cells = s.cells ∧ (setCtr s k n c).opt = s.opt ∧
    (setCtr s k n c).top = s.top ∧ (setCtr s k n c).cus = s.cus ∧ (setCtr s k n c).bup = s.bup ∧
    (setCtr s k n c).pwr = s.pwr ∧ (setCtr s k n c).rings = s.rings ∧ (setCtr s k n c).ringRr = s.ringRr ∧
    (setCtr s k n c).bar2 = s.bar2 ∧ (setCtr s k n c).mgt = s.mgt ∧ (setCtr s k n c).stops = s.stops ∧
    (setCtr s k n c).dirty = s.dirty ∧ (setCtr s k n c).sync = s.sync :=
  ⟨rfl, rfl, rfl, rfl, rfl, rfl, rfl, rfl, rfl, rfl, rfl, rfl, rfl, rfl, rfl, rfl, rfl, rfl, rfl, rfl, rfl, rfl, rfl, rfl, rfl, rfl, rfl, rfl, rfl, rfl, rfl, rfl⟩

/-- Where bytes are written, the rest of the state stays. -/
@[simp] theorem wrCells_frame (s : State) (cs : List Host.Cell) :
    (wrCells s cs).pending = s.pending ∧ (wrCells s cs).out = s.out ∧ (wrCells s cs).draws = s.draws ∧
    (wrCells s cs).regs = s.regs ∧ (wrCells s cs).stale = s.stale ∧ (wrCells s cs).flaws = s.flaws ∧
    (wrCells s cs).clk = s.clk ∧ (wrCells s cs).ldg = s.ldg ∧ (wrCells s cs).jobs = s.jobs ∧
    (wrCells s cs).cores = s.cores ∧ (wrCells s cs).clus = s.clus ∧ (wrCells s cs).mcs = s.mcs ∧
    (wrCells s cs).ues = s.ues ∧ (wrCells s cs).grps = s.grps ∧ (wrCells s cs).ctxs = s.ctxs ∧
    (wrCells s cs).cready = s.cready ∧ (wrCells s cs).links = s.links ∧ (wrCells s cs).fab = s.fab ∧
    (wrCells s cs).lanes = s.lanes ∧ (wrCells s cs).cells = s.cells ∧ (wrCells s cs).opt = s.opt ∧
    (wrCells s cs).top = s.top ∧ (wrCells s cs).cus = s.cus ∧ (wrCells s cs).bup = s.bup ∧
    (wrCells s cs).pwr = s.pwr ∧ (wrCells s cs).rings = s.rings ∧ (wrCells s cs).ringRr = s.ringRr ∧
    (wrCells s cs).bar2 = s.bar2 ∧ (wrCells s cs).mgt = s.mgt ∧ (wrCells s cs).stops = s.stops ∧
    (wrCells s cs).dirty = s.dirty ∧ (wrCells s cs).sync = s.sync :=
  ⟨rfl, rfl, rfl, rfl, rfl, rfl, rfl, rfl, rfl, rfl, rfl, rfl, rfl, rfl, rfl, rfl, rfl, rfl, rfl, rfl, rfl, rfl, rfl, rfl, rfl, rfl, rfl, rfl, rfl, rfl, rfl, rfl⟩

@[simp] theorem getJob_setJob (s : State) (j : Nat) (x' : Job) : getJob (setJob s j x') j = x' := by
  simp [getJob, setJob]
theorem getJob_setJob_ne (s : State) {j i : Nat} (x' : Job) (h : i ≠ j) :
    getJob (setJob s j x') i = getJob s i := by
  simp [getJob, setJob, tget_tput_ne _ _ _ _ h]

@[simp] theorem getClu_setClu (s : State) (k : Nat) (x' : Cluster) : getClu (setClu s k x') k = x' := by
  simp [getClu, setClu]
theorem getClu_setClu_ne (s : State) {k i : Nat} (x' : Cluster) (h : i ≠ k) :
    getClu (setClu s k x') i = getClu s i := by
  simp [getClu, setClu, tget_tput_ne _ _ _ _ h]

@[simp] theorem getLink_setLink (s : State) (g : Nat) (x' : Link) : getLink (setLink s g x') g = x' := by
  simp [getLink, setLink]
theorem getLink_setLink_ne (s : State) {g i : Nat} (x' : Link) (h : i ≠ g) :
    getLink (setLink s g x') i = getLink s i := by
  simp [getLink, setLink, tget_tput_ne _ _ _ _ h]

@[simp] theorem getMc_setMc (s : State) (m : Nat) (x' : Mc) : getMc (setMc s m x') m = x' := by
  simp [getMc, setMc]
theorem getMc_setMc_ne (s : State) {m i : Nat} (x' : Mc) (h : i ≠ m) :
    getMc (setMc s m x') i = getMc s i := by
  simp [getMc, setMc, tget_tput_ne _ _ _ _ h]

@[simp] theorem getUe_setUe (s : State) (e : Nat) (x' : Ue) : getUe (setUe s e x') e = x' := by
  simp [getUe, setUe]
theorem getUe_setUe_ne (s : State) {e i : Nat} (x' : Ue) (h : i ≠ e) :
    getUe (setUe s e x') i = getUe s i := by
  simp [getUe, setUe, tget_tput_ne _ _ _ _ h]

@[simp] theorem getGrp_setGrp (s : State) (g : Nat) (x' : GrpEntry) : getGrp (setGrp s g x') g = x' := by
  simp [getGrp, setGrp]
theorem getGrp_setGrp_ne (s : State) {g i : Nat} (x' : GrpEntry) (h : i ≠ g) :
    getGrp (setGrp s g x') i = getGrp s i := by
  simp [getGrp, setGrp, tget_tput_ne _ _ _ _ h]

@[simp] theorem getCtx_setCtx (s : State) (e : Nat) (x' : Ctx) : getCtx (setCtx s e x') e = x' := by
  simp [getCtx, setCtx]
theorem getCtx_setCtx_ne (s : State) {e i : Nat} (x' : Ctx) (h : i ≠ e) :
    getCtx (setCtx s e x') i = getCtx s i := by
  simp [getCtx, setCtx, tget_tput_ne _ _ _ _ h]

@[simp] theorem getLane_setLane (s : State) (l : Nat) (x' : Lane) : getLane (setLane s l x') l = x' := by
  simp [getLane, setLane]
theorem getLane_setLane_ne (s : State) {l i : Nat} (x' : Lane) (h : i ≠ l) :
    getLane (setLane s l x') i = getLane s i := by
  simp [getLane, setLane, tget_tput_ne _ _ _ _ h]

@[simp] theorem getCell_setCell (s : State) (x : Nat) (x' : LaneCell) : getCell (setCell s x x') x = x' := by
  simp [getCell, setCell]
theorem getCell_setCell_ne (s : State) {x i : Nat} (x' : LaneCell) (h : i ≠ x) :
    getCell (setCell s x x') i = getCell s i := by
  simp [getCell, setCell, tget_tput_ne _ _ _ _ h]

@[simp] theorem getRing_setRing (s : State) (r : Nat) (x' : Ring) : getRing (setRing s r x') r = x' := by
  simp [getRing, setRing]
theorem getRing_setRing_ne (s : State) {r i : Nat} (x' : Ring) (h : i ≠ r) :
    getRing (setRing s r x') i = getRing s i := by
  simp [getRing, setRing, tget_tput_ne _ _ _ _ h]

@[simp] theorem getCore_setCore (s : State) (c : CoreId) (x : Core) : getCore (setCore s c x) c = x := by
  simp [getCore, setCore]
theorem getCore_setCore_ne (s : State) {c d : CoreId} (x : Core) (h : d.key ≠ c.key) :
    getCore (setCore s c x) d = getCore s d := by
  simp [getCore, setCore, tget_tput_ne _ _ _ _ h]

@[simp] theorem reg_setReg (s : State) (o : Nat) (v : W32) : reg (setReg s o v) o = v := by
  simp [reg, setReg]
theorem reg_setReg_ne (s : State) {o i : Nat} (v : W32) (h : i ≠ o) : reg (setReg s o v) i = reg s i := by
  exact tget_tput_ne _ _ _ _ h
theorem reg_bump (s : State) (o n : Nat) :
    reg (bump s o n) o = BitVec.ofNat 32 (min 0xFFFFFFFF ((reg s o).toNat + n)) := by
  simp [bump]
theorem reg_bump_ne (s : State) {o i : Nat} (n : Nat) (h : i ≠ o) : reg (bump s o n) i = reg s i :=
  reg_setReg_ne s _ h

/-- A register reads the same in two states with the same table of registers. -/
theorem reg_congr {s t : State} (h : t.regs = s.regs) (o : Nat) : reg t o = reg s o := by simp only [reg, h]

end Sys2Proof.Machine
end

