-- ==== Sys2Proof/Laws/Ops.lean ====
section
/-! SUPPORT. What each shared operation may change, and what it leaves as it was. -/

namespace Sys2Proof.Machine

/-- An entry handed to the Ledger touches the Ledger and the registers only (R438, R455). -/
theorem post_touches (s : State) (src sev code : Nat) (acc : BitVec 12) (d0 d1 : W32) :
    ∃ x0 x1, post s src sev code acc d0 d1 = { s with ldg := x0, regs := x1 } := by
  unfold post
  dsimp only
  split <;> split <;> exact ⟨_, _, rfl⟩

@[simp] theorem post_frame (s : State) (src sev code : Nat) (acc : BitVec 12) (d0 d1 : W32) :
    (post s src sev code acc d0 d1).pending = s.pending ∧ (post s src sev code acc d0 d1).out = s.out ∧
    (post s src sev code acc d0 d1).draws = s.draws ∧ (post s src sev code acc d0 d1).mem = s.mem ∧
    (post s src sev code acc d0 d1).stale = s.stale ∧ (post s src sev code acc d0 d1).flaws = s.flaws ∧
    (post s src sev code acc d0 d1).clk = s.clk ∧ (post s src sev code acc d0 d1).jobs = s.jobs ∧
    (post s src sev code acc d0 d1).cores = s.cores ∧ (post s src sev code acc d0 d1).clus = s.clus ∧
    (post s src sev code acc d0 d1).mcs = s.mcs ∧ (post s src sev code acc d0 d1).ues = s.ues ∧
    (post s src sev code acc d0 d1).grps = s.grps ∧ (post s src sev code acc d0 d1).ctxs = s.ctxs ∧
    (post s src sev code acc d0 d1).cready = s.cready ∧ (post s src sev code acc d0 d1).links = s.links ∧
    (post s src sev code acc d0 d1).fab = s.fab ∧ (post s src sev code acc d0 d1).lanes = s.lanes ∧
    (post s src sev code acc d0 d1).cells = s.cells ∧ (post s src sev code acc d0 d1).opt = s.opt ∧
    (post s src sev code acc d0 d1).top = s.top ∧ (post s src sev code acc d0 d1).cus = s.cus ∧
    (post s src sev code acc d0 d1).bup = s.bup ∧ (post s src sev code acc d0 d1).pwr = s.pwr ∧
    (post s src sev code acc d0 d1).rings = s.rings ∧ (post s src sev code acc d0 d1).ringRr = s.ringRr ∧
    (post s src sev code acc d0 d1).bar2 = s.bar2 ∧ (post s src sev code acc d0 d1).mgt = s.mgt ∧
    (post s src sev code acc d0 d1).stops = s.stops ∧ (post s src sev code acc d0 d1).dirty = s.dirty ∧
    (post s src sev code acc d0 d1).sync = s.sync := by
  obtain ⟨_, _, h⟩ := post_touches s src sev code acc d0 d1
  simp [h]

/-- An interrupt touches its page's status and what leaves the module only (R458). -/
theorem raiseInt_touches (s : State) (page b : Nat) :
    ∃ x0 x1, raiseInt s page b = { s with regs := x0, out := x1 } := by
  unfold raiseInt
  dsimp only
  split
  · exact ⟨_, _, rfl⟩
  · split <;> exact ⟨_, _, rfl⟩

@[simp] theorem raiseInt_frame (s : State) (page b : Nat) :
    (raiseInt s page b).pending = s.pending ∧ (raiseInt s page b).draws = s.draws ∧
    (raiseInt s page b).mem = s.mem ∧ (raiseInt s page b).stale = s.stale ∧ (raiseInt s page b).flaws = s.flaws ∧
    (raiseInt s page b).clk = s.clk ∧ (raiseInt s page b).ldg = s.ldg ∧ (raiseInt s page b).jobs = s.jobs ∧
    (raiseInt s page b).cores = s.cores ∧ (raiseInt s page b).clus = s.clus ∧ (raiseInt s page b).mcs = s.mcs ∧
    (raiseInt s page b).ues = s.ues ∧ (raiseInt s page b).grps = s.grps ∧ (raiseInt s page b).ctxs = s.ctxs ∧
    (raiseInt s page b).cready = s.cready ∧ (raiseInt s page b).links = s.links ∧ (raiseInt s page b).fab = s.fab ∧
    (raiseInt s page b).lanes = s.lanes ∧ (raiseInt s page b).cells = s.cells ∧ (raiseInt s page b).opt = s.opt ∧
    (raiseInt s page b).top = s.top ∧ (raiseInt s page b).cus = s.cus ∧ (raiseInt s page b).bup = s.bup ∧
    (raiseInt s page b).pwr = s.pwr ∧ (raiseInt s page b).rings = s.rings ∧ (raiseInt s page b).ringRr = s.ringRr ∧
    (raiseInt s page b).bar2 = s.bar2 ∧ (raiseInt s page b).mgt = s.mgt ∧ (raiseInt s page b).stops = s.stops ∧ (raiseInt s page b).dirty = s.dirty ∧
    (raiseInt s page b).sync = s.sync := by
  obtain ⟨_, _, h⟩ := raiseInt_touches s page b
  simp [h]

/-- A refused access touches the registers and the Ledger only (R423). -/
theorem badAcc_touches (s : State) (bar off : Nat) :
    ∃ x0 x1, badAcc s bar off = { s with ldg := x0, regs := x1 } := by
  unfold badAcc
  dsimp only
  obtain ⟨l, r, h⟩ := post_touches (bump s (at' pgHST 260) 1) pgHST sevWarning 0x1201 0
    (BitVec.ofNat 32 (bar % 8 * 2 ^ 29 + off % 2 ^ 29)) 0
  rw [h]
  repeat' split
  all_goals exact ⟨_, _, rfl⟩

@[simp] theorem badAcc_frame (s : State) (bar off : Nat) :
    (badAcc s bar off).pending = s.pending ∧ (badAcc s bar off).out = s.out ∧ (badAcc s bar off).draws = s.draws ∧
    (badAcc s bar off).mem = s.mem ∧ (badAcc s bar off).stale = s.stale ∧ (badAcc s bar off).flaws = s.flaws ∧
    (badAcc s bar off).clk = s.clk ∧ (badAcc s bar off).jobs = s.jobs ∧ (badAcc s bar off).cores = s.cores ∧
    (badAcc s bar off).clus = s.clus ∧ (badAcc s bar off).mcs = s.mcs ∧ (badAcc s bar off).ues = s.ues ∧
    (badAcc s bar off).grps = s.grps ∧ (badAcc s bar off).ctxs = s.ctxs ∧ (badAcc s bar off).cready = s.cready ∧
    (badAcc s bar off).links = s.links ∧ (badAcc s bar off).fab = s.fab ∧ (badAcc s bar off).lanes = s.lanes ∧
    (badAcc s bar off).cells = s.cells ∧ (badAcc s bar off).opt = s.opt ∧ (badAcc s bar off).top = s.top ∧
    (badAcc s bar off).cus = s.cus ∧ (badAcc s bar off).bup = s.bup ∧ (badAcc s bar off).pwr = s.pwr ∧
    (badAcc s bar off).rings = s.rings ∧ (badAcc s bar off).ringRr = s.ringRr ∧ (badAcc s bar off).bar2 = s.bar2 ∧
    (badAcc s bar off).mgt = s.mgt ∧ (badAcc s bar off).stops = s.stops ∧ (badAcc s bar off).dirty = s.dirty ∧
    (badAcc s bar off).sync = s.sync := by
  obtain ⟨_, _, h⟩ := badAcc_touches s bar off
  simp [h]

/-- A write that is ignored and counted touches the registers and the Ledger only. -/
theorem badWrite_touches (s : State) (page off : Nat) :
    ∃ x0 x1, badWrite s page off = { s with ldg := x0, regs := x1 } := by
  exact badAcc_touches s 0 (at' page off)

@[simp] theorem badWrite_frame (s : State) (page off : Nat) :
    (badWrite s page off).pending = s.pending ∧ (badWrite s page off).out = s.out ∧
    (badWrite s page off).draws = s.draws ∧ (badWrite s page off).mem = s.mem ∧
    (badWrite s page off).stale = s.stale ∧ (badWrite s page off).flaws = s.flaws ∧
    (badWrite s page off).clk = s.clk ∧ (badWrite s page off).jobs = s.jobs ∧
    (badWrite s page off).cores = s.cores ∧ (badWrite s page off).clus = s.clus ∧
    (badWrite s page off).mcs = s.mcs ∧ (badWrite s page off).ues = s.ues ∧ (badWrite s page off).grps = s.grps ∧
    (badWrite s page off).ctxs = s.ctxs ∧ (badWrite s page off).cready = s.cready ∧
    (badWrite s page off).links = s.links ∧ (badWrite s page off).fab = s.fab ∧
    (badWrite s page off).lanes = s.lanes ∧ (badWrite s page off).cells = s.cells ∧
    (badWrite s page off).opt = s.opt ∧ (badWrite s page off).top = s.top ∧ (badWrite s page off).cus = s.cus ∧
    (badWrite s page off).bup = s.bup ∧ (badWrite s page off).pwr = s.pwr ∧ (badWrite s page off).rings = s.rings ∧
    (badWrite s page off).ringRr = s.ringRr ∧ (badWrite s page off).bar2 = s.bar2 ∧
    (badWrite s page off).mgt = s.mgt ∧ (badWrite s page off).stops = s.stops ∧ (badWrite s page off).dirty = s.dirty ∧
    (badWrite s page off).sync = s.sync := by
  obtain ⟨_, _, h⟩ := badWrite_touches s page off
  simp [h]

/-- What a fault releases in the hub (R46). -/
theorem releaseHub_touches (s : State) (j : Nat) (qs : List Nat) :
    ∃ x0 x1 x2 x3 x4 x5, releaseHub s j qs = { s with regs := x0, ctxs := x1, cready := x2, grps := x3, links := x4, fab := x5 } := by
  exact ⟨_, _, _, _, _, _, rfl⟩

@[simp] theorem releaseHub_frame (s : State) (j : Nat) (qs : List Nat) :
    (releaseHub s j qs).pending = s.pending ∧ (releaseHub s j qs).out = s.out ∧
    (releaseHub s j qs).draws = s.draws ∧ (releaseHub s j qs).mem = s.mem ∧ (releaseHub s j qs).stale = s.stale ∧
    (releaseHub s j qs).flaws = s.flaws ∧ (releaseHub s j qs).clk = s.clk ∧ (releaseHub s j qs).ldg = s.ldg ∧
    (releaseHub s j qs).jobs = s.jobs ∧ (releaseHub s j qs).cores = s.cores ∧ (releaseHub s j qs).clus = s.clus ∧
    (releaseHub s j qs).mcs = s.mcs ∧ (releaseHub s j qs).ues = s.ues ∧ (releaseHub s j qs).lanes = s.lanes ∧
    (releaseHub s j qs).cells = s.cells ∧ (releaseHub s j qs).opt = s.opt ∧ (releaseHub s j qs).top = s.top ∧
    (releaseHub s j qs).cus = s.cus ∧ (releaseHub s j qs).bup = s.bup ∧ (releaseHub s j qs).pwr = s.pwr ∧
    (releaseHub s j qs).rings = s.rings ∧ (releaseHub s j qs).ringRr = s.ringRr ∧
    (releaseHub s j qs).bar2 = s.bar2 ∧ (releaseHub s j qs).mgt = s.mgt ∧ (releaseHub s j qs).stops = s.stops ∧ (releaseHub s j qs).dirty = s.dirty ∧
    (releaseHub s j qs).sync = s.sync := by
  obtain ⟨_, _, _, _, _, _, h⟩ := releaseHub_touches s j qs
  simp [h]

/-- A job's fault (R46) leaves memory, clock, the units of the grid, photonics, custody, bring-up, power and host
interface as they were; its quadrants are noted to stop. -/
theorem jobFault_touches (s : State) (j : Nat) :
    ∃ x0 x1 x2 x3 x4 x5 x6 x7 x8, jobFault s j = { s with
      out := x0, regs := x1, jobs := x2, stops := x3, grps := x4, ctxs := x5, cready := x6, links := x7, fab := x8 } := by
  unfold jobFault
  dsimp only
  split
  · exact ⟨_, _, _, _, _, _, _, _, _, rfl⟩
  · obtain ⟨r, o, h⟩ := raiseInt_touches _ pgSCH j
    rw [h]
    exact ⟨_, _, _, _, _, _, _, _, _, rfl⟩

@[simp] theorem jobFault_frame (s : State) (j : Nat) :
    (jobFault s j).pending = s.pending ∧ (jobFault s j).draws = s.draws ∧ (jobFault s j).mem = s.mem ∧
    (jobFault s j).stale = s.stale ∧ (jobFault s j).flaws = s.flaws ∧ (jobFault s j).clk = s.clk ∧
    (jobFault s j).ldg = s.ldg ∧ (jobFault s j).cores = s.cores ∧ (jobFault s j).clus = s.clus ∧
    (jobFault s j).mcs = s.mcs ∧ (jobFault s j).ues = s.ues ∧ (jobFault s j).lanes = s.lanes ∧
    (jobFault s j).cells = s.cells ∧ (jobFault s j).opt = s.opt ∧ (jobFault s j).top = s.top ∧
    (jobFault s j).cus = s.cus ∧ (jobFault s j).bup = s.bup ∧ (jobFault s j).pwr = s.pwr ∧
    (jobFault s j).rings = s.rings ∧ (jobFault s j).ringRr = s.ringRr ∧ (jobFault s j).bar2 = s.bar2 ∧
    (jobFault s j).mgt = s.mgt ∧ (jobFault s j).dirty = s.dirty ∧ (jobFault s j).sync = s.sync := by
  obtain ⟨_, _, _, _, _, _, _, _, _, h⟩ := jobFault_touches s j
  simp [h]

/-- A fault of no job, or of one. -/
theorem faultOpt_touches (s : State) (o : Option Nat) :
    ∃ x0 x1 x2 x3 x4 x5 x6 x7 x8, faultOpt s o = { s with
      out := x0, regs := x1, jobs := x2, stops := x3, grps := x4, ctxs := x5, cready := x6, links := x7, fab := x8 } := by
  cases o with
  | none => exact ⟨_, _, _, _, _, _, _, _, _, rfl⟩
  | some j => exact jobFault_touches s j

@[simp] theorem faultOpt_frame (s : State) (o : Option Nat) :
    (faultOpt s o).pending = s.pending ∧ (faultOpt s o).draws = s.draws ∧ (faultOpt s o).mem = s.mem ∧
    (faultOpt s o).stale = s.stale ∧ (faultOpt s o).flaws = s.flaws ∧ (faultOpt s o).clk = s.clk ∧
    (faultOpt s o).ldg = s.ldg ∧ (faultOpt s o).cores = s.cores ∧ (faultOpt s o).clus = s.clus ∧
    (faultOpt s o).mcs = s.mcs ∧ (faultOpt s o).ues = s.ues ∧ (faultOpt s o).lanes = s.lanes ∧
    (faultOpt s o).cells = s.cells ∧ (faultOpt s o).opt = s.opt ∧ (faultOpt s o).top = s.top ∧
    (faultOpt s o).cus = s.cus ∧ (faultOpt s o).bup = s.bup ∧ (faultOpt s o).pwr = s.pwr ∧
    (faultOpt s o).rings = s.rings ∧ (faultOpt s o).ringRr = s.ringRr ∧ (faultOpt s o).bar2 = s.bar2 ∧
    (faultOpt s o).mgt = s.mgt ∧ (faultOpt s o).dirty = s.dirty ∧ (faultOpt s o).sync = s.sync := by
  obtain ⟨_, _, _, _, _, _, _, _, _, h⟩ := faultOpt_touches s o
  simp [h]

/-- A change of a completion counter (R77, R78) is summed, with its instant, and the counter is noted for the end of the
core cycle; nothing else changes. -/
theorem ctrAdd_spec (s : State) (k n : Nat) (d : Int) (w : Option Nat) :
    let c := getCtr s k n
    getCtr (ctrAdd s k n d w) k n = { c with sum := c.sum + d, at' := s.clk.dst, win := w.getD c.win } ∧
    (∀ i m, (i, m) ≠ (k, n) → getCtr (ctrAdd s k n d w) i m = getCtr s i m) ∧ (k, n) ∈ (ctrAdd s k n d w).dirty ∧
    ctrAdd s k n d w = { s with clus := (ctrAdd s k n d w).clus, dirty := (ctrAdd s k n d w).dirty } := by
  refine ⟨?_, fun i m h => ?_, ?_, rfl⟩
  · simp [ctrAdd, getCtr, setCtr, getClu, setClu]
  · by_cases hi : i = k
    · subst hi
      have hm : m ≠ n := fun e => h (by rw [e])
      simp [ctrAdd, getCtr, setCtr, getClu, setClu, tget_tput_ne _ _ _ _ hm]
    · simp [ctrAdd, getCtr, setCtr, getClu, setClu, tget_tput_ne _ _ _ _ hi]
  · by_cases h : (k, n) ∈ s.dirty <;> simp [ctrAdd, setCtr, h]

/-- A controller's window (R151): the lines are taken and the peak kept, or the request is dropped. -/
theorem hbmAccept_taken (s : State) (w : Who) (q st t n a : Nat) (h : (hbmAccept s w q st t n a).2 = true) :
    ∃ x0 x1, (hbmAccept s w q st t n a).1 = { s with mcs := x0, regs := x1 } := by
  unfold hbmAccept at h ⊢
  dsimp only at h ⊢
  split at h
  · simp at h
  · exact ⟨_, _, by rw [if_neg (by assumption)]; rfl⟩

end Sys2Proof.Machine
end

