-- ==== Sys2Proof/Laws/Host.lean ====
section
/-! SUPPORT. Register pages, interrupts, refused accesses and Ledger entries: what each operation does. -/

namespace Sys2Proof.Machine

open Sys2Proof

/-- Page and offset of a BAR0 address. -/
theorem at_page (p o : Nat) (h : o < 4096) : at' p o / 4096 = p ∧ at' p o % 4096 = o := by unfold at'; omega

/-- A write to a page in service acts. -/
theorem hostWrite_served {s : State} {p : Nat} (h : Served s p) (o : Nat) (f : State → State) :
    hostWrite s p o f = f s := by
  obtain ⟨a, b, c⟩ := h
  simp [hostWrite, a, b, c]

/-- A bit of a status word after bit b is set. -/
theorem bit_setBit (x : W32) (b i : Nat) (hi : i < 32) :
    bit (BitVec.ofNat 32 (x.toNat ||| 2 ^ b)) i = (bit x i || decide (i = b)) := by
  simp only [bit, BitVec.toNat_ofNat, Nat.testBit_mod_two_pow, Nat.testBit_or]
  simp [hi, Nat.testBit_two_pow, eq_comm]

/-- An interrupt sets its status bit and no other register. -/
theorem raiseInt_spec (s : State) (p b : Nat) :
    (∀ i < 32, bit (reg (raiseInt s p b) (at' p 0x10)) i = (bit (reg s (at' p 0x10)) i || decide (i = b)))
      ∧ RegsKept s (raiseInt s p b) [at' p 0x10] := by
  unfold raiseInt
  dsimp only
  split
  · next h =>
    refine ⟨?_, fun _ _ => rfl⟩
    intro i _
    by_cases hb : i = b <;> simp [hb, h]
  · have key : ∀ i < 32, bit (reg (setReg s (at' p 0x10) (BitVec.ofNat 32
        ((reg s (at' p 0x10)).toNat ||| 2 ^ b))) (at' p 0x10)) i
        = (bit (reg s (at' p 0x10)) i || decide (i = b)) := by
      intro i hi
      rw [reg_setReg]
      exact bit_setBit _ _ _ hi
    have k2 : RegsKept s (setReg s (at' p 0x10) (BitVec.ofNat 32
        ((reg s (at' p 0x10)).toNat ||| 2 ^ b))) [at' p 0x10] := by
      intro x hx
      exact reg_setReg_ne _ _ (by simpa using hx)
    split
    · exact ⟨key, k2⟩
    · exact ⟨key, k2⟩

/-- A warning handed to the Ledger touches the Ledger's own loss counter alone among the registers; an entry from
severity Error on also counts in the page's error counter. -/
theorem post_regs (s : State) (src sev code : Nat) (acc : BitVec 12) (d0 d1 : W32) :
    RegsKept s (post s src sev code acc d0 d1) (at' pgLDG 0x10C :: if 2 ≤ sev then [at' src 0x18] else []) := by
  intro x hx
  have hl : x ≠ at' pgLDG 0x10C := fun h => hx (by simp [h])
  have h2 : reg (if 2 ≤ sev then bump s (at' src 0x18) 1 else s) x = reg s x := by
    split
    · next h => exact reg_bump_ne _ _ (fun e => hx (by simp [h, e]))
    · rfl
  refine Eq.trans ?_ h2
  unfold post
  dsimp only
  generalize (if 2 ≤ sev then bump s (at' src 0x18) 1 else s) = s'
  split
  · exact (reg_congr (s := bump s' (at' pgLDG 0x10C) 1) rfl x).trans (reg_bump_ne _ _ hl)
  · exact reg_congr (s := s') rfl x

/-- What `post` leaves in the Ledger. -/
theorem post_logged (s : State) (src sev code : Nat) (acc : BitVec 12) (d0 d1 : W32) :
    Logged s (post s src sev code acc d0 d1) src sev code acc d0 d1 := by
  unfold Logged post
  dsimp only
  by_cases h : 2 ≤ sev
  · simp only [h, if_true, bump_frame]
    split
    · refine ⟨rfl, ?_⟩
      by_cases h : src ∈ s.ldg.loss <;> simp [h]
    · exact ⟨rfl, rfl⟩
  · simp only [h, if_false]
    split
    · refine ⟨rfl, ?_⟩
      by_cases h : src ∈ s.ldg.loss <;> simp [h]
    · exact ⟨rfl, rfl⟩

/-- A refused access: the counter, and an entry at most once per millisecond. -/
theorem badAcc_cases (s : State) (bar off : Nat) :
    (Recent s.ldg.badAcc s.clk.dst msTicks ∧ badAcc s bar off = bump s (at' pgHST 0x104) 1) ∨
    (¬ Recent s.ldg.badAcc s.clk.dst msTicks ∧ badAcc s bar off =
      (let s := post (bump s (at' pgHST 0x104) 1) pgHST sevWarning 0x1201 0
        (BitVec.ofNat 32 (bar % 8 * 2 ^ 29 + off % 2 ^ 29)) 0
       { s with ldg := { s.ldg with badAcc := some s.clk.dst } })) := by
  have e : (bump s (at' pgHST 0x104) 1).ldg = s.ldg := rfl
  have e2 : (bump s (at' pgHST 0x104) 1).clk = s.clk := rfl
  unfold badAcc Recent
  simp only [e, e2]
  cases hb : s.ldg.badAcc with
  | none => right; simp
  | some x =>
    by_cases hx : s.clk.dst < x + msTicks
    · left; simp [hx]
    · right; simp [hx]

end Sys2Proof.Machine
end

