-- ==== Sys2Proof/Laws/Memory.lean ====
section
/-! SUPPORT. Memory: a read after a write, and that every memory operation keeps the canonical form. -/

namespace Sys2Proof.Machine

/-- What an unlisted byte reads as depends on the counts of lost regions alone. -/
theorem unlisted_congr {s t : State} (h : t.stale = s.stale) (a : Nat) : unlisted t a = unlisted s a := by
  have hg : gen t a = gen s a := by simp only [gen, h]
  unfold unlisted
  rw [hg]

/-- The canonical form depends on memory and the counts of lost regions alone. -/
theorem memWf_congr {s t : State} (hm : t.mem = s.mem) (hs : t.stale = s.stale) : memWf t = memWf s := by
  have hu : unlisted t = unlisted s := funext (unlisted_congr hs)
  simp only [memWf, hm, hu]

theorem memWf_iff (s : State) :
    memWf s = true ↔ rising s.mem = true ∧ ∀ e ∈ s.mem, e.2 ≠ unlisted s e.1 := by
  simp [memWf]

theorem foldl_tput_wf (u : Nat → Byte) (cs : List Host.Cell) (m : Mem) (h1 : rising m = true)
    (h2 : ∀ e ∈ m, e.2 ≠ u e.1) :
    rising (cs.foldl (fun m c => tput (u c.1) m c.1 c.2) m) = true
      ∧ ∀ e ∈ cs.foldl (fun m c => tput (u c.1) m c.1 c.2) m, e.2 ≠ u e.1 := by
  induction cs generalizing m with
  | nil => exact ⟨h1, h2⟩
  | cons c r ih =>
    refine ih _ (rising_tput _ _ _ _ h1) (fun e he => ?_)
    rcases mem_tput _ _ _ _ _ he with ⟨rfl, hv⟩ | ⟨he, -⟩
    · exact hv
    · exact h2 e he

/-- Writing bytes keeps the canonical form. -/
theorem memWf_wrCells (s : State) (cs : List Host.Cell) (h : memWf s = true) : memWf (wrCells s cs) = true := by
  rw [memWf_iff] at h ⊢
  exact foldl_tput_wf (unlisted s) cs s.mem h.1 h.2

/-- Zeroing regions keeps the canonical form. -/
theorem memWf_zeroRegions (s : State) (p : Nat → Bool) (h : memWf s = true) :
    memWf (zeroRegions s p) = true := by
  rw [memWf_iff] at h ⊢
  refine ⟨rising_filter _ _ h.1, fun e he => ?_⟩
  obtain ⟨he, hp⟩ := List.mem_filter.1 he
  have hp : p (regionOf e.1) = false := by simpa using hp
  have hg : gen (zeroRegions s p) e.1 = gen s e.1 := by
    have := tget_filter_key 0 (fun r => !p r) s.stale (regionOf e.1)
    simp only [hp, Bool.not_false, if_true] at this
    exact this
  have : unlisted (zeroRegions s p) e.1 = unlisted s e.1 := by simp only [unlisted, hg]
  rw [this]; exact h.2 e he

/-- A region that becomes unknown keeps the canonical form. -/
theorem memWf_loseRegion (s : State) (r : Nat) (h : memWf s = true) : memWf (loseRegion s r) = true := by
  rw [memWf_iff] at h ⊢
  refine ⟨rising_filter _ _ h.1, fun e he => ?_⟩
  obtain ⟨he, hp⟩ := List.mem_filter.1 he
  have hp : regionOf e.1 ≠ r := by simpa using hp
  have hg : gen (loseRegion s r) e.1 = gen s e.1 := by
    simp only [gen, loseRegion, tget_tput, hp, if_false]
  have : unlisted (loseRegion s r) e.1 = unlisted s e.1 := by simp only [unlisted, hg]
  rw [this]; exact h.2 e he

theorem memWf_post (s : State) (src sev code : Nat) (acc : BitVec 12) (d0 d1 : W32) :
    memWf (post s src sev code acc d0 d1) = memWf s := memWf_congr (by simp) (by simp)

theorem foldl_keeps {β : Type} (f : State → β → State) (hf : ∀ s b, memWf s = true → memWf (f s b) = true)
    (l : List β) (s : State) (h : memWf s = true) : memWf (l.foldl f s) = true := by
  induction l generalizing s with
  | nil => exact h
  | cons b r ih => exact ih _ (hf s b h)

/-- A job's fault keeps the canonical form. -/
theorem memWf_jobFault (s : State) (j : Nat) (h : memWf s = true) : memWf (jobFault s j) = true := by
  rw [memWf_congr (s := s) (by simp) (by simp)]; exact h

theorem memWf_faultOpt (s : State) (j : Option Nat) (h : memWf s = true) : memWf (faultOpt s j) = true := by
  cases j with
  | none => exact h
  | some j => exact memWf_jobFault s j h

/-- What a read of one byte gives after bytes were written: the last one written there, else what it gave. -/
theorem rdByte_wrCells (s : State) (cs : List Host.Cell) (a : Nat) :
    rdByte (wrCells s cs) a
      = (cs.foldl (fun v c => if c.1 = a then c.2 else v) (rdByte s a)) := by
  have hu : unlisted (wrCells s cs) a = unlisted s a := unlisted_congr rfl a
  show tget (unlisted (wrCells s cs) a) (wrCells s cs).mem a = _
  rw [hu]
  clear hu
  show tget (unlisted s a) (cs.foldl (fun m c => tput (unlisted s c.1) m c.1 c.2) s.mem) a = _
  unfold rdByte
  generalize s.mem = m
  induction cs generalizing m with
  | nil => rfl
  | cons c r ih =>
    simp only [List.foldl_cons]
    rw [ih]
    by_cases hc : c.1 = a
    · subst hc; simp
    · rw [tget_tput_ne _ _ _ _ (Ne.symm hc), if_neg hc]

/-- Bytes outside those written read as before. -/
theorem rdByte_wrCells_ne (s : State) (cs : List Host.Cell) (a : Nat) (h : ∀ c ∈ cs, c.1 ≠ a) :
    rdByte (wrCells s cs) a = rdByte s a := by
  rw [rdByte_wrCells]
  generalize rdByte s a = v
  induction cs generalizing v with
  | nil => rfl
  | cons c r ih =>
    simp only [List.foldl_cons]
    rw [if_neg (h c List.mem_cons_self)]
    exact ih (fun e he => h e (List.mem_cons_of_mem _ he)) v

theorem memWf_reset : memWf State.reset = true := by decide

end Sys2Proof.Machine
end

