-- ==== Sys2Proof/Laws/Job.lean ====
section
/-! SUPPORT. The job fault of R46: which slots it changes. -/

namespace Sys2Proof.Machine

theorem getJob_congr {s t : State} (h : t.jobs = s.jobs) (j : Nat) : getJob t j = getJob s j := by
  unfold getJob; rw [h]

/-- A fault of a slot without a resident job does nothing; a resident job becomes FAULTED; other slots stay. -/
theorem jobFault_slots (s : State) (j : Nat) :
    (resident (getJob s j).st = false → jobFault s j = s) ∧
    (resident (getJob s j).st = true → (getJob (jobFault s j) j).st = .faulted) ∧
    ∀ i, i ≠ j → getJob (jobFault s j) i = getJob s i := by
  have hr : ∀ (s : State) (a b : Nat), (raiseInt s a b).jobs = s.jobs := by simp
  unfold jobFault
  dsimp only
  by_cases h : resident (getJob s j).st = true
  · simp only [h, Bool.not_true, Bool.false_eq_true, if_false]
    refine ⟨by simp, fun _ => ?_, fun i hi => ?_⟩
    · rw [getJob_congr (hr _ _ _), getJob_setJob]
    · rw [getJob_congr (hr _ _ _), getJob_setJob_ne _ _ hi]
      exact getJob_congr (by simp) _
  · simp [h]

/-- After faults of all slots no job is resident. -/
theorem no_resident_after (l : List Nat) (j : Nat) (s : State) (h : resident (getJob s j).st = false ∨ j ∈ l) :
    resident (getJob (l.foldl jobFault s) j).st = false := by
  induction l generalizing s with
  | nil => simpa using h
  | cons a r ih =>
    rw [List.foldl_cons]
    obtain ⟨h1, h2, h3⟩ := jobFault_slots s a
    apply ih
    by_cases e : j = a
    · subst e; left
      cases hr : resident (getJob s j).st with
      | false => rw [h1 hr]; exact hr
      | true => rw [h2 hr]; rfl
    · rw [h3 j e]
      rcases h with h | h
      · exact .inl h
      · right; simpa [e] using h

end Sys2Proof.Machine
end

