-- ==== Sys2Proof/WellFormed.lean ====
section
/-! DEFINITION. Which commands are well formed: operands within the ranges that the spec gives them. -/

namespace Sys2Proof

/-- A received flit has 232 bytes of payload, 12 of tag, and four lane slots (R266, R268). -/
def wireOk (f : RxWire) : Bool := f.flit.pay.length == 232 && f.flit.tag.length == 12 && f.fec.length == 4

/-- A BAR0 offset of an aligned register (R422, R423, R450). -/
def regOffOk (off : Nat) : Bool := off % 4 == 0 && decide (off < 134217728)

/-- A parsed image whose parts have the sizes of their layouts: groups of 18 words (R235), definitions of nine
header words (R244), streams, windows and paths of units that exist. -/
def imageOk (i : Image) : Bool :=
  i.groups.all (fun g => g.length == 18)
  && i.contexts.all (fun d => d.hdr.length == 9)
  && i.segs.all (fun g => g.streams.all (fun e => decide (e.1 < 6144)) && g.re.all (fun e => decide (e.1 < 64))
      && g.rt.all (fun e => decide (e.1 < 64)) && g.windows.all (fun e => decide (e.1 < 24))
      && g.eng.all (fun e => decide (e.1 < 12)) && g.paths.all (fun e => decide (e.1 < 16)))
  && i.control.all (fun e => decide (e.1 < 64) && decide (e.2.prog.length ≤ 4096)
      && e.2.data.all (fun d => decide (d.1 < 16384)))

/-- A debug access names a byte of the 1 MiB shelf (R144). -/
def debugOk (a : DebugOp) : Bool :=
  match a with
  | .shelfRead _ x => decide (x < 1048576)
  | .shelfWrite _ x _ => decide (x < 1048576)
  | .boundary => true
  | .instr _ => true

/-- The command is well formed. -/
def Instr.wf (i : Instr) : Bool :=
  match i with
  | .registerWrite off _ => regOffOk off
  | .rcCounterRead off _ => regOffOk off
  | .intStatW1c page _ _ => decide (page < 32768)
  | .intEnWrite page _ => decide (page < 32768)
  | .hstBadAcc bar off _ => (bar == 0 && decide (off < 134217728)) || (bar == 4 && decide (off < 16384))
  | .dstNowLoRead => true
  | .phaseSlew => true
  | .rateSteer weights => weights.length == 6
  | .dstUnlocked => true
  | .dstLockRegained => true
  | .schJobStart _ _ => true
  | .admitImage _ _ => true
  | .admissionCheck _ img _ => imageOk img
  | .schJobEnd _ _ => true
  | .clear _ _ => true
  | .jobTimeBegin _ => true
  | .jobEnded _ => true
  | .segmentOrigin _ => true
  | .powerProfileRead _ => true
  | .heaterForecastRead _ => true
  | .waitBundleReachL _ => true
  | .waitSatisfied _ => true
  | .missedDeadline _ => true
  | .holdEpochStop _ => true
  | .holdRelease _ => true
  | .schHoldGiveup _ => true
  | .fetchSlot _ => true
  | .nop _ => true
  | .endBundle _ => true
  | .loop _ => true
  | .tdadd _ => true
  | .crd _ => true
  | .mark _ => true
  | .mma _ => true
  | .mmz _ => true
  | .ald _ => true
  | .ast _ => true
  | .asts _ => true
  | .aclr _ => true
  | .matrixOpComplete _ => true
  | .add _ => true
  | .sub _ => true
  | .mul _ => true
  | .fma _ => true
  | .minOp _ => true
  | .maxOp _ => true
  | .absOp _ => true
  | .neg _ => true
  | .scale _ => true
  | .axpy _ => true
  | .clip _ => true
  | .selectOp _ => true
  | .cmpgt _ => true
  | .cvt _ => true
  | .copy _ => true
  | .expOp _ => true
  | .logOp _ => true
  | .recip _ => true
  | .rsqrt _ => true
  | .tanhOp _ => true
  | .sigmoid _ => true
  | .gelu _ => true
  | .signOp _ => true
  | .fill _ => true
  | .streamOpComplete _ => true
  | .mov _ => true
  | .putMove _ => true
  | .getMove _ => true
  | .red _ => true
  | .sig _ => true
  | .ldtd _ => true
  | .sttd _ => true
  | .moveIssueStart _ _ => true
  | .moveComplete _ => true
  | .patrolScrub _ _ _ _ => true
  | .alu _ => true
  | .addi _ => true
  | .andi _ => true
  | .ori _ => true
  | .xori _ => true
  | .shi _ => true
  | .lui _ => true
  | .lw _ => true
  | .sw _ => true
  | .beq _ => true
  | .bne _ => true
  | .blt _ => true
  | .bge _ => true
  | .jmp _ => true
  | .waitj _ => true
  | .armc _ => true
  | .mset _ => true
  | .mget _ => true
  | .rdcc _ => true
  | .rdj _ => true
  | .tdw _ => true
  | .reFetchSlot _ => true
  | .reNop _ => true
  | .reEnd _ => true
  | .normf _ => true
  | .rmsf _ => true
  | .smxf _ => true
  | .normb _ => true
  | .rmsb _ => true
  | .smxb _ => true
  | .solve _ => true
  | .mspill _ => true
  | .mfill _ => true
  | .reCommandComplete _ => true
  | .shadowSummaryTake _ => true
  | .shwClr _ _ => true
  | .rtFetchSlot _ => true
  | .rtNop _ => true
  | .rtEnd _ => true
  | .gate _ => true
  | .dispatch _ => true
  | .combine _ => true
  | .wgrad _ => true
  | .gather _ => true
  | .pack _ => true
  | .merge _ => true
  | .rtCommandComplete _ => true
  | .rtClr _ _ => true
  | .densePass _ _ => true
  | .rowPass _ _ => true
  | .passComplete _ => true
  | .advanceEntry _ => true
  | .advanceComplete _ _ => true
  | .schGrpWordWrite _ _ => true
  | .reduce _ _ => true
  | .chunkSum => true
  | .voteCount => true
  | .rowFreeStage _ row => decide (row < 64)
  | .deliveryLanding _ => true
  | .laneFailed _ _ => true
  | .lnkSerWarn _ _ => true
  | .dataFlit _ f => wireOk f
  | .idleFlit _ f => wireOk f
  | .trainingFlit _ f => wireOk f
  | .syncFlit _ f => wireOk f
  | .flitTransmit _ => true
  | .keyEpochChange _ => true
  | .syncSend _ => true
  | .replayTimeout _ => true
  | .alignLock _ _ => true
  | .alignTimeout _ => true
  | .retrainTimeout _ => true
  | .creditAuthTimeout _ => true
  | .onewayTrainingSend _ => true
  | .onewayIdentTimeout _ => true
  | .lnkEnable _ => true
  | .lnkDisable _ => true
  | .lnkRestart _ => true
  | .lnkCrdLimWrite _ _ => true
  | .put _ _ => true
  | .get _ _ => true
  | .getReply _ _ => true
  | .signal _ _ => true
  | .messageLanding _ => true
  | .getResponse _ => true
  | .msgTombExpiry _ acc src _ => decide (acc < 4096) && decide (src < 8192)
  | .msgStale _ acc src _ => decide (acc < 4096) && decide (src < 8192)
  | .packetTransit _ _ => true
  | .packetInject _ => true
  | .injectionWindowClose _ => true
  | .rtrTblWordWrite _ _ => true
  | .msgTombWrite _ => true
  | .qpClsMinWrite _ => true
  | .flush _ => true
  | .optLcWrite _ => true
  | .laneCellSettled _ => true
  | .optGrpModeWrite _ _ => true
  | .ringSweep _ _ => true
  | .ringAcquireLock _ => true
  | .ringAcquireTimeout _ => true
  | .ringLockLoss _ _ => true
  | .mziLockLoss _ _ => true
  | .photonicCooled => true
  | .fadeMeasure _ _ => true
  | .request _ r => r.opc == 1
  | .ready _ r => r.opc == 2
  | .switch _ r => r.opc == 3
  | .doneRec _ r => r.opc == 4
  | .abort _ r => r.opc == 5
  | .calreq _ r => r.opc == 6
  | .caldone _ r => r.opc == 7
  | .migrationTimeout _ _ => true
  | .laneRecordRepeat _ _ => true
  | .calibrationStart => true
  | .lightPresent _ _ => true
  | .optOfc _ _ => true
  | .laserRise _ => true
  | .topNodeWrite _ => true
  | .topCatWordWrite _ _ => true
  | .topEpochWrite _ => true
  | .stage _ => true
  | .stageVerified _ _ => true
  | .confirm _ _ _ => true
  | .cancel _ => true
  | .quadAssign => true
  | .quadRelease => true
  | .groupOwn => true
  | .keyLoad => true
  | .keyErase => true
  | .seal => true
  | .unseal => true
  | .fuseWrite => true
  | .debugEnable => true
  | .debugDisable => true
  | .cusExpire => true
  | .cusLockExpiry => true
  | .zeroiseDone _ => true
  | .powerOn b => decide (b.cv < 65536)
  | .bupReady => true
  | .perstNRise => true
  | .coreReset _ => true
  | .clusterReset _ => true
  | .quadrantReset _ => true
  | .hubReset _ => true
  | .moduleReset _ => true
  | .resetComplete _ => true
  | .rprAdd _ => true
  | .d2dLost a b => decide (a ≤ 4) && decide (b ≤ 4) && a != b
  | .clkSrcWrite _ => true
  | .start _ => true
  | .stop _ => true
  | .fcMeasureDone _ => true
  | .pwrUv cv => decide (cv < 65536)
  | .inputShutdown cv => decide (cv < 65536)
  | .pwrEnFall => true
  | .powerSample r => r.die.length == 4 && decide (r.cv < 65536) && decide (r.w < 65536)
  | .thermalSample r => r.quads.length == 4 && r.hbm.length == 12
  | .throttleEnd _ => true
  | .coolantSample _ _ => true
  | .hstWinWrite _ => true
  | .bar2Read off len _ => decide (1 ≤ len) && decide (len ≤ 4096) && decide (off + len ≤ 68719476736)
  | .bar2Write off data => decide (1 ≤ data.length) && decide (data.length ≤ 512) && decide (off + data.length ≤ 68719476736)
  | .hostSlotService _ => true
  | .doorbell _ _ => true
  | .hostMove _ _ => true
  | .hostMoveComplete _ _ => true
  | .ringRestart _ _ => true
  | .setEndpointId _ => true
  | .mctpControl _ => true
  | .pldmRequest ty _ => decide (ty < 64)
  | .mctpDiscard ty => decide (ty < 128) && ty != 0 && ty != 1 && ty != 0x7E
  | .cusRead => true
  | .ldgRead _ => true
  | .sensorUpdate => true
  | .telemetryRecord => true
  | .ledgerCommit => true
  | .ldgRdWrite _ => true
  | .ppsEdge _ => true
  | .syncRefLost => true
  | .syncTrig => true
  | .syncTrigDstLoRead => true
  | .stoppedClock _ => true
  | .configurationRequest => true
  | .debugAccess a => debugOk a
  | .rePivotFlagClear _ _ _ _ => true
  | .interferometerOnTarget _ _ => true

end Sys2Proof
end

