-- ==== Sys2Proof/Tests/Slice0.lean ====
section
/-! SUPPORT. Tests: the smoke test of WellFormed, one-step checks against the spec's rules, and for every statement
with hypotheses a concrete state that meets them. -/

open Sys2Proof Sys2Proof.Machine

namespace Sys2Proof.Tests

set_option Elab.async false
/-! ## Small states -/

/-- A module in service: power, PERST_N high, bring-up done. -/
def wBup : Bringup :=
  { Bringup.reset with pwrEn := true, railsOn := true, perst := true, bar0 := true, isLocal := true, ready := true, phase := 12 }
/-- The module in service at Datestamp 1,000 with the time known. -/
def wLive : State := { State.reset with bup := wBup, clk := { Clock.reset with dst := 1000, unlocked := false } }
/-- An empty segment at origin 0. -/
def wSeg : Seg :=
  { origin := 0, len := 1000, streams := [], re := [], rt := [], td := [], md := [], eng := [], adv := [], windows := [],
    slots := [], paths := [] }
/-- An image of accession 5 on quadrant 0 with one empty segment. -/
def wImg : Image :=
  { parses := true, unknown := false, missing := false, covered := true, acc := 5, quads := 1, repairCrc := 0,
    features := 0, idle := 0, gsa := 0, slots := 0, tags := 0, segs := [wSeg], control := [], regions := [], contexts := [],
    reduces := false, linked := false, power := [7], seeds := BitVec.ofNat 256 (2 ^ 104 + 2 ^ 96), groups := [] }
/-- Its job, running since Datestamp 0 in its first segment. -/
def wJob : Job := { Job.reset with st := .running, acc := 5, img := some wImg, seg := 1 }
/-- The module with that job in slot 0. -/
def wRun : State := { wLive with jobs := [(0, wJob)] }
/-- The module with a job that stands in a given state. -/
def wJobAt (st : JobSt) : State := { wLive with jobs := [(0, { wJob with st := st })] }
/-- The first core of quadrant 0 and its cluster. -/
def wClu : Clu := { q := 0, c := 0 }
def wC : CoreId := { cl := wClu, k := 0 }
/-- A core that is READY in segment 1 with bundles in its queue. -/
def wReady (bs : List W256) : Core := { Core.reset with st := .ready, bq := bs, seg := 1 }
/-- The running module with that core. -/
def wWith (k : Core) : State := { wRun with cores := [(0, k)] }
/-- A bundle due at job time 1,000: offset 250, its flags, and its four slots. -/
def wBn (flags ctl mx st mv : Nat) : W256 :=
  BitVec.ofNat 256 (250 * 2 ^ 232 + flags * 2 ^ 224 + ctl * 2 ^ 192 + mx * 2 ^ 128 + st * 2 ^ 64 + mv)

theorem not_recent_none (n k : Nat) : ¬ Recent none n k := fun ⟨_, h, _⟩ => nomatch h

/-- Two cores at one edge: core 0 is late and faults the job; core 1 has a MARK of code 9 due. -/
def wTwo : State :=
  { wRun with
    fab := { Fabric.reset with clsMin := [(7, 10)] }
    cores := [(0, wReady [BitVec.ofNat 256 (249 * 2 ^ 232)]), (1, wReady [wBn 0 (5 * 2 ^ 26 + 9 * 2 ^ 10) 0 0 0])] }
def wC1 : CoreId := { cl := wClu, k := 1 }
/-- R46: after the fault the other core still launches at this very edge, once; at the next core edge both have stopped. -/
theorem test_launch_at_faulting_edge :
    let f := launch wTwo wC (fun b => ctlOp b == 0)
    let m := launch f wC1 (fun b => ctlOp b == 5)
    let n := idleTick (idleTick (idleTick (idleTick f)))
    (getJob f 0).st = .faulted ∧ m.fab.trace.length = 1 ∧ (launch m wC1 (fun b => ctlOp b == 5)).fab.trace.length = 1 ∧
    (getCore m wC1).st = .ready ∧ n.clk.dst = 1004 ∧ (getCore n wC1).st = .fault ∧
    (launch n wC1 (fun b => ctlOp b == 5)).fab.trace = [] := by decide +kernel

/-- What `Launches` asks of a core that has launched nothing yet, as one test. -/
theorem launches_of (s : State) (c : CoreId) (j : Nat) (b : W256) (off : Nat)
    (h : (runSlot s c = some j ∧ (getJob s j).st = .running ∧ (getJob s j).held = false ∧ (getCore s c).st = .ready ∧
      nextBn (getCore s c) = some (b, off) ∧ jobTime s (getJob s j) = originOf s j (getCore s c).seg + 4 * off ∧
      (getCore s c).last = none) ∧ bnWait b = false ∧ bnHP b = false ∧ bnPft b = false ∧
      flawsOf s (bqWords s c) = [] ∧ latchFaults s c j (latched s c j) b = [] ∧ busySlots s (latched s c j) b = []) : Launches s c j b off :=
  ⟨⟨h.1.1, h.1.2.1, h.1.2.2.1, h.1.2.2.2.1, h.1.2.2.2.2.1, h.1.2.2.2.2.2.1,
    fun _ e => (nomatch (h.1.2.2.2.2.2.2.symm.trans e))⟩, h.2.1, fun e => (nomatch (h.2.2.1.symm.trans e)), h.2.2.2.1, h.2.2.2.2.1,
    h.2.2.2.2.2.1, h.2.2.2.2.2.2⟩

/-- What `Due` asks of a core that has launched nothing yet. -/
theorem due_of (s : State) (c : CoreId) (j : Nat) (b : W256) (off : Nat)
    (h : runSlot s c = some j ∧ (getJob s j).st = .running ∧ (getJob s j).held = false ∧ (getCore s c).st = .ready ∧
      nextBn (getCore s c) = some (b, off) ∧ jobTime s (getJob s j) = originOf s j (getCore s c).seg + 4 * off ∧
      (getCore s c).last = none) : Due s c j b off :=
  ⟨h.1, h.2.1, h.2.2.1, h.2.2.2.1, h.2.2.2.2.1, h.2.2.2.2.2.1, fun _ e => (nomatch (h.2.2.2.2.2.2.symm.trans e))⟩

/-! ## Witnesses of the statements' hypotheses -/

theorem wit_StepRunsFront : { wLive with pending := [Instr.bupReady, .pwrEnFall] }.pending = .bupReady :: [.pwrEnFall] := rfl

theorem wit_IdleStepIsOneTick : wLive.pending = [] ∧ rootRuns wLive = true ∧ State.reset.pending = [] ∧
    rootRuns State.reset = false := by decide +kernel

theorem wit_InvKeptByStep : Inv wLive ∧ step { wLive with pending := [.ledgerCommit] } = .next wLive :=
  ⟨by unfold Inv; decide +kernel, rfl⟩

theorem wit_RegisterAccess :
    (Served wLive pgSCH ∧ 0x200 % 4 = 0 ∧ rwMask pgSCH 0x200 ≠ 0 ∧ takes wLive pgSCH 0x200 0xFFFFFFFF = true) ∧
    (wLive.bup.bar0 = true ∧ Recent (some 990) wLive.clk.dst 6000000 ∧ ¬ Recent wLive.ldg.badAcc wLive.clk.dst 6000000) :=
  ⟨by unfold Served; decide +kernel, rfl, ⟨990, rfl, by decide +kernel⟩, not_recent_none _ _⟩

/-- The counter of unsaturated and of saturated state. -/
theorem wit_RcCounters :
    (Served wLive pgCIR ∧ isRC pgCIR 0x114 = true ∧ pageCode pgCIR ≠ 0x10) ∧ Served wLive pgQP ∧
    reg { wLive with regs := [(at' pgCIR 0x114, 0xFFFFFFFF)] } (at' pgCIR 0x114) = 0xFFFFFFFF ∧
    (reg wLive (at' pgCIR 0x114)).toNat + 3 < 2 ^ 32 := by unfold Served; decide +kernel

theorem wit_InterruptRegisters :
    bit (reg { wLive with regs := [(at' pgSCH 0x10, 2)] } (at' pgSCH 0x10)) 1 = true ∧
    bit (reg wLive (at' pgSCH 0x10)) 1 = false ∧ Served wLive pgSCH := by unfold Served; decide +kernel

/-- Lane group 0 in UP, two-way, with a rate measured. -/
def wSynced : State :=
  { wLive with links := [(0, { Link.reset 0 with st := .up, syncN := 1, rate := some 40, rateNew := true })] }

theorem wit_DatestampRows :
    Served wLive pgDST ∧
    (let s := { wLive with clk := { Clock.reset with dst := 8192, unlocked := false, target := -3 } };
      rootRuns s = true ∧ s.bup.ready = true ∧ s.clk.dst % 4096 = 0 ∧ s.clk.slewAt ≠ some s.clk.dst ∧ s.clk.target ≠ 0) ∧
    ((∃ g ∈ rateGrps wSynced, (getLink wSynced g).rateNew = true) ∧ isRoot wSynced = false) ∧
    ({ Link.reset 0 with syncN := 16, offsAt := 10 }.syncN = 16 ∧ 10 < 11) ∧
    (let s := { wLive with clk := { Clock.reset with dst := 7000000, unlocked := false, target := -769, since := 1000000 } };
      s.clk.unlocked = false ∧ 96000 < 125 * s.clk.target.natAbs ∧ s.clk.since + 6000000 ≤ s.clk.dst) ∧
    (let s := { wSynced with clk := { Clock.reset with dst := 600000000, target := 768 } };
      s.clk.unlocked = true ∧ 125 * s.clk.target.natAbs ≤ 96000 ∧ s.clk.since + 600000000 ≤ s.clk.dst ∧ rootRuns s = true ∧
      steerGrps s ≠ []) := by unfold Served; decide +kernel

/-- A job admitted, its start at 2^33 + 8. -/
def wArmed : State := { wJobAt .admitted with regs := [(at' pgSCH 0x100, 8)] }

theorem wit_JobSlotWrites :
    (let s := { wLive with regs := [(at' pgSCH 0x124, 64)] };
      Served s pgSCH ∧ reusable (getJob s 0).st = true ∧ imgPlaced s 0 = true) ∧
    (Served (wJobAt .admitted) pgSCH ∧ (getJob (wJobAt .admitted) 0).st = .admitted) ∧
    (Served wRun pgSCH ∧ (getJob wRun 0).st = .running) ∧
    (getJob (wJobAt .refused) 0).st = .refused ∧ (getJob (wJobAt .ended) 0).st = .ended ∧
    (getJob (wJobAt .faulted) 0).st = .faulted ∧
    (let start := (reg wArmed (at' pgSCH 0x100)).toNat + 2 ^ 32 * (2 : W32).toNat;
      Served wArmed pgSCH ∧ wArmed.clk.dst + 6000000 ≤ start ∧ start % 4 = 0 ∧ (getJob wArmed 0).st = .admitted ∧
      inThrottle wArmed 4 = false ∧ (jobQuads wArmed 0).any (quadThrottle wArmed) = false) ∧
    (reg wArmed (at' pgSCH 0x100)).toNat + 2 ^ 32 * (0 : W32).toNat < wArmed.clk.dst + 6000000 := by
  unfold Served; decide +kernel

/-- A module whose quadrant 0 offers no cluster, owned by accession 5, with an image of 64 bytes named by slot 0. -/
def wAdm : State :=
  { wJobAt .admitting with
    bup := { wBup with deadStk := 1 }, cus := { Custody.reset with own := [(0, 5)] }
    top := { Topology.reset with ready := true }, regs := [(at' pgSCH 0x124, 64)] }
/-- The image with the repair map of that module. -/
def wFits : Image := { wImg with repairCrc := repairCrc wAdm }

theorem wit_AdmissionOutcome :
    ((getJob wAdm 0).st = .admitting ∧ wAdm.cus.zbusy &&& wFits.quads = 0 ∧ admitReason wAdm 0 wFits = none) ∧
    imgFlaws wAdm 0 = [] ∧ imgUe wAdm 0 true ≠ none ∧
    admitReason wAdm 0 { wFits with parses := false } = some (2, 0) ∧
    (let s := { wAdm with cus := { Custody.reset with zbusy := 3 } }; s.cus.zbusy &&& wFits.quads ≠ 0) := by
  refine ⟨⟨by decide +kernel, by decide +kernel, ?_⟩, by decide +kernel, by decide +kernel, by decide +kernel,
    by decide +kernel⟩
  have h : wFits.repairCrc = repairCrc wAdm := rfl
  unfold admitReason
  simp only [h, ne_eq, not_true_eq_false, if_false]
  decide +kernel

/-- The job with its start armed for Datestamp 1,000. -/
def wDue : State := { wLive with jobs := [(0, { wJob with armed := some 1000, seg := 0 })] }
/-- An image whose quadrants run nothing: its mask is empty. -/
def wBare : State := { wLive with jobs := [(0, { wJob with img := some { wImg with quads := 0 } })] }

theorem wit_JobRuns :
    ((getJob wDue 0).st = .running ∧ (getJob wDue 0).armed = some 1000 ∧ (getJob wDue 0).img = some wImg ∧
      1000 ≤ wDue.clk.dst) ∧
    (let s := { wBare with jobs := [(0, { wJob with img := some { wImg with quads := 0 }, seg := 0 })] };
      wImg.segs[(getJob s 0).seg]? = some wSeg ∧ (getJob s 0).st = .running ∧ (getJob s 0).armed = none ∧
      (getJob s 0).held = false ∧ (getJob s 0).s + wSeg.origin ≤ jobTime s (getJob s 0) ∧
      unfinished s 0 { wImg with quads := 0 } = []) ∧
    unfinished { wWith (wReady []) with bup := { wBup with deadStk := 0 } } 0 wImg ≠ [] ∧
    (getJob wBare 0).img = some { wImg with quads := 0 } ∧ (getJob wBare 0).st = .running ∧
    allDone wBare 0 { wImg with quads := 0 } = true := by decide +kernel

theorem wit_ProfileReads :
    ((getJob wRun 0).img = some wImg ∧ (getJob wRun 0).st = .running ∧ (getJob wRun 0).s ≤ jobTime wRun (getJob wRun 0) + 60000) ∧
    bit (reg wRun (at' pgOPT 0x100)) 1 = true ∧ (getJob wRun 0).s ≤ jobTime wRun (getJob wRun 0) + 600000 ∧
    (getJob { wLive with jobs := [(0, { wJob with held := true })] } 0).held = true := by decide +kernel

/-- A core with a queue of n places filled. -/
def wFull (n : Nat) : Core := { Core.reset with bq := List.replicate n 0 }

theorem wit_FetchSlots :
    (residentOn (wWith (wReady [])) 0 = some 0 ∧ (wReady []).st ≠ .fault ∧ (getJob (wWith (wReady [])) 0).st ≠ .admitting ∧
      (getCore (wWith (wReady [])) wC).bq.length + heldBody (getCore (wWith (wReady [])) wC) < 64) ∧
    64 ≤ (getCore (wWith (wFull 64)) wC).bq.length + heldBody (getCore (wWith (wFull 64)) wC) ∧
    (unitOf false (getClu wRun 0)).q.length < 16 ∧
    16 ≤ (unitOf true { Cluster.reset with rt := { CmdUnit.reset with q := List.replicate 16 0 } }).q.length := by
  decide +kernel

/-- The running module whose core is about to launch a control slot with trace cells free. -/
def wCtlSlot (ctl : Nat) : State := { wWith (wReady [wBn 0 ctl 0 0 0]) with fab := { Fabric.reset with clsMin := [(7, 1)] } }
/-- LOOP of one bundle, twice: the body at offset 251, the next bundle at 300. -/
def wLoopBns : List W256 := [wBn 0 (2 * 2 ^ 26 + 2 ^ 21 + 2 * 2 ^ 10 + 4 * 2 ^ 4) 0 0 0, BitVec.ofNat 256 (251 * 2 ^ 232), BitVec.ofNat 256 (300 * 2 ^ 232)]
def wLoop : State :=
  { wLive with
    jobs := [(0, { wJob with img := some { wImg with segs := [{ wSeg with streams := [(0, wLoopBns)] }] } })]
    cores := [(0, { wReady wLoopBns with sp := 3 })]
    clus := [(0, { Cluster.reset with sw := [{ at' := 0, reg := 4, val := 20 }] })] }

theorem wit_ControlSlot :
    Launches (wCtlSlot 0) wC 0 (wBn 0 0 0 0 0) 250 ∧
    Launches (wCtlSlot (2 ^ 26)) wC 0 (wBn 0 (2 ^ 26) 0 0 0) 250 ∧
    (Launches wLoop wC 0 wLoopBns.head! 250 ∧
      (let body := (coreStream wLoop 0 wC).drop ((launched wLoop wC 0 wLoopBns.head! 250).sp
        - (launched wLoop wC 0 wLoopBns.head! 250).bq.length)
      loopBad 1 2 (sReg (getClu wLoop 0) (jobTime wLoop (getJob wLoop 0)) 4).toInt (body.take 1) body[1]? = false)) ∧
    (Launches (wCtlSlot (3 * 2 ^ 26)) wC 0 (wBn 0 (3 * 2 ^ 26) 0 0 0) 250 ∧
      (latched (wCtlSlot (3 * 2 ^ 26)) wC 0).tdPend = []) ∧
    (Launches (wCtlSlot (4 * 2 ^ 26 + 2 ^ 5)) wC 0 (wBn 0 (4 * 2 ^ 26 + 2 ^ 5) 0 0 0) 250 ∧
      -8388608 ≤ (getCtr (wCtlSlot (4 * 2 ^ 26 + 2 ^ 5)) 0 0).deficit - 1) ∧
    (Launches (wCtlSlot (5 * 2 ^ 26)) wC 0 (wBn 0 (5 * 2 ^ 26) 0 0 0) 250 ∧
      tget 0 (wCtlSlot (5 * 2 ^ 26)).fab.qFlaws 0x201 = 0 ∧ (wCtlSlot (5 * 2 ^ 26)).sync.frozen = false ∧ clsRoom (wCtlSlot (5 * 2 ^ 26)) 7 1 = true) := by
  refine ⟨?_, ?_, ⟨?_, ?_⟩, ⟨?_, ?_⟩, ⟨?_, ?_⟩, ⟨?_, ?_⟩⟩ <;> first | decide +kernel | exact launches_of _ _ _ _ _ (by decide +kernel)

/-- The head of wLoopBns, and TDADD of -1 to BASE of TD0, which is 0. -/
def wDown : Nat := 3 * 2 ^ 26 + 0x3FFF * 2 ^ 4
/-- MMA on TD0 whose last TDADD left its range. -/
def wOver : State := wWith { wReady [wBn 0 0 (2 ^ 58) 0 0] with tdOver := [0] }

theorem wit_DescRange :
    (Launches (wCtlSlot wDown) wC 0 (wBn 0 wDown 0 0 0) 250 ∧ (latched (wCtlSlot wDown) wC 0).tdPend = [] ∧
      (fld (tget 0 (latched (wCtlSlot wDown) wC 0).td 0) 63 50 : Int) + sfld (bnCtl (wBn 0 wDown 0 0 0)) 17 4 < 0) ∧
    (Due wOver wC 0 (wBn 0 0 (2 ^ 58) 0 0) 250 ∧ residentOn wOver 0 = some 0 ∧ 0 ∈ (latched wOver wC 0).tdOver ∧
      mxIllegal (bnMx (wBn 0 0 (2 ^ 58) 0 0)) = false ∧ mxOp (wBn 0 0 (2 ^ 58) 0 0) = 1 ∧
      mxTda (bnMx (wBn 0 0 (2 ^ 58) 0 0)) = 0 ∧ (∀ e ∈ wOver.ldg.wait, e.src ≠ pgCLU 0 0) ∧
      (let b := wBn 0 0 (2 ^ 58) 0 0; bnWait b = false ∧ bnHP b = false ∧ bnPft b = false ∧ ctlOp b = 0) ∧
      flawsOf wOver (bqWords wOver wC) = [])
    :=
  ⟨⟨launches_of _ _ _ _ _ (by decide +kernel), by decide +kernel, by decide +kernel⟩,
    due_of _ _ _ _ _ (by decide +kernel), by decide +kernel, by decide +kernel, by decide +kernel, by decide +kernel,
    by decide +kernel, fun _ h => (nomatch h), by decide +kernel, by decide +kernel⟩

/-- A core that waits on counter 0, with counter 0's DEF given. -/
def wWait (d : Int) (dl : Nat) : State :=
  { wWith { wReady [wBn 64 0 0 0 0] with st := .waiting, dline := dl } with
    clus := [(0, { Cluster.reset with cc := [(0, { Ctr.zero with deficit := d })] })] }
/-- A bundle whose launch time has passed. -/
def wLate : State := wWith (wReady [BitVec.ofNat 256 (249 * 2 ^ 232)])
/-- A bundle of the stream that is due and was not fetched. -/
def wUnfetched : State :=
  { wLive with
    jobs := [(0, { wJob with img := some { wImg with segs := [{ wSeg with streams := [(0, [wBn 0 0 0 0 0])] }] } })]
    cores := [(0, wReady [])] }

theorem wit_LaunchOrderAndWaits :
    (runSlot wLate wC = some 0 ∧ residentOn wLate 0 = some 0 ∧ (getJob wLate 0).held = false ∧ (getCore wLate wC).st = .ready ∧
      nextBn (getCore wLate wC) = some (BitVec.ofNat 256 (249 * 2 ^ 232), 249) ∧
      originOf wLate 0 (getCore wLate wC).seg + 4 * 249 < jobTime wLate (getJob wLate 0)) ∧
    (nextBn (getCore wUnfetched wC) = none ∧ (coreStream wUnfetched 0 wC)[(getCore wUnfetched wC).sp]? = some (wBn 0 0 0 0 0) ∧
      originOf wUnfetched 0 1 + 4 * bnOffset (wBn 0 0 0 0 0) ≤ jobTime wUnfetched (getJob wUnfetched 0)) ∧
    (Due (wWith (wReady [wBn 64 0 0 0 0])) wC 0 (wBn 64 0 0 0 0) 250 ∧ bnWait (wBn 64 0 0 0 0) = true ∧
      bnHP (wBn 64 0 0 0 0) = false) ∧
    (runSlot (wWait 0 1000) wC = some 0 ∧ nextBn (getCore (wWait 0 1000) wC) = some (wBn 64 0 0 0 0, 250) ∧
      (getCore (wWait 0 1000) wC).st = .waiting ∧ jobTime (wWait 0 1000) (getJob (wWait 0 1000) 0) ≤ 1000 ∧
      (getCtr (wWait 0 1000) 0 0).deficit ≤ 0 ∧ (wWait 0 1000).clk.dst % 4 = 0) ∧
    ((getCore (wWait 1 1000) wC).dline ≤ jobTime (wWait 1 1000) (getJob (wWait 1 1000) 0) ∧
      0 < (getCtr (wWait 1 1000) 0 0).deficit ∧ (∀ e ∈ (wWait 1 1000).cores, e.2.hpAt = none)) := by
  refine ⟨?_, ?_, ⟨?_, ?_⟩, ?_, ?_⟩ <;> first | decide +kernel | exact due_of _ _ _ _ _ (by decide +kernel)

/-- A hold pending with counter 0 short, the core before its HP bundle. -/
def wEpoch : State :=
  { wWait 1 990 with
    jobs := [(0, { wJob with pend := true, late := [{ core := wC, cc := 0, d := 990 }] })]
    cores := [(0, wReady [wBn 128 0 0 0 0])] }
/-- A hold stopped at E = 900 whose release is now, Datestamp 1,024. -/
def wHeld : State :=
  { wRun with
    jobs := [(0, { wJob with pend := true, held := true, e := 900, first := some { core := wC, cc := 0, d := 890 } })]
    clk := { wRun.clk with dst := 1024 } }

/-- R42: a core that waits late meets the epoch with the HP bundle behind its late one. -/
theorem test_late_core_epoch :
    let k := { wReady [wBn 64 0 0 0 0, wBn 128 0 0 0 0] with st := .waiting, missed := true }
    let s := { wEpoch with cores := [(0, k)] }
    epochNow s 0 = true ∧ epochNow { wEpoch with cores := [(0, { k with missed := false })] } 0 = false := by decide +kernel

/-- The same hold while a row engine and a route unit still run a command. -/
def wEpochRuns : State :=
  let u := { CmdUnit.reset with busy := 1001 }
  { wEpoch with clus := [(0, { getClu wEpoch 0 with re := u, rt := u })] }

theorem wit_HoldRows_units : ∀ rt ∈ [false, true],
    ((getJob wEpochRuns 0).st = .running ∧ (getJob wEpochRuns 0).pend = true ∧ (getJob wEpochRuns 0).held = false ∧
      epochNow wEpochRuns 0 = true ∧ releaseAt wEpochRuns (getJob wEpochRuns 0) (jobTime wEpochRuns (getJob wEpochRuns 0)) = none ∧
      (0, getClu wEpochRuns 0) ∈ wEpochRuns.clus ∧ (jobQuads wEpochRuns 0).contains (0 / 16) = true ∧
      wEpochRuns.clk.dst < (unitOf rt (getClu wEpochRuns 0)).busy ∧ (∀ e ∈ wEpochRuns.ldg.wait, e.src ≠ unitPage rt 0) ∧
      (wEpochRuns.clus.map Prod.fst).Nodup) := by decide +kernel

theorem wit_HoldRows :
    ((getJob wEpoch 0).st = .running ∧ (getJob wEpoch 0).pend = true ∧ (getJob wEpoch 0).held = false ∧
      epochNow wEpoch 0 = true ∧ releaseAt wEpoch (getJob wEpoch 0) (jobTime wEpoch (getJob wEpoch 0)) = none ∧
      ∀ e ∈ wEpoch.clus, e.2.re.busy ≤ wEpoch.clk.dst ∧ e.2.rt.busy ≤ wEpoch.clk.dst) ∧
    ((getJob wHeld 0).pend = true ∧ (getJob wHeld 0).held = true ∧
      releaseAt wHeld (getJob wHeld 0) (jobTime wHeld (getJob wHeld 0)) = some wHeld.clk.dst) ∧
    (let s := { wHeld with clk := { wRun.clk with dst := 70000000 } };
      (getJob s 0).st = .running ∧ (getJob s 0).held = true ∧ (getJob s 0).first = some { core := wC, cc := 0, d := 890 } ∧
      (reg s (at' pgSCH 0x110)).toNat * 6000 < s.clk.dst - (getJob s 0).stopAt ∧
      (s.ldg.wait.filter (fun e => e.src == pgSCH)).length ≤ 2) := by decide +kernel

/-- A descriptor of one FP32 or BF16 element at shelf byte 0. -/
def wTd (fmt : Nat) : W128 := BitVec.ofNat 128 (fmt * 2 ^ 114 + 2 ^ 38 + 2 ^ 26)
/-- The module about to launch a matrix or stream slot whose descriptors are all TD0. -/
def wTile (fmt mx st : Nat) : State := wWith { wReady [wBn 0 0 mx st 0] with td := [(0, wTd fmt)] }

/-- Every matrix opcode launches somewhere; the operands are BF16, dense, and free of errors. -/
theorem wit_MatrixSlot : ∀ op ∈ [1, 2, 3, 6],
    Launches (wTile 1 (op * 2 ^ 58) 0) wC 0 (wBn 0 0 (op * 2 ^ 58) 0 0) 250 ∧ ctlOp (wBn 0 0 (op * 2 ^ 58) 0 0) = 0 ∧
    stOp (wBn 0 0 (op * 2 ^ 58) 0 0) = 0 ∧ mvOp (wBn 0 0 (op * 2 ^ 58) 0 0) = 0 ∧ mxOp (wBn 0 0 (op * 2 ^ 58) 0 0) = op ∧
    (getCore (wTile 1 (op * 2 ^ 58) 0) wC).stFly = [] ∧ (wTile 1 (op * 2 ^ 58) 0).flaws = [] := by
  simp only [List.forall_mem_cons]
  refine ⟨?_, ?_, ?_, ?_, by simp⟩ <;> exact ⟨launches_of _ _ _ _ _ (by decide +kernel), by decide +kernel⟩

/-- An operation in flight with slot word `w` and events `evs`: its descriptors are tiles of one BF16 element. -/
def wOp (w : W64) (evs : List Ev) : OpFly :=
  { due := 1000, w := w, tds := [wTd 1, wTd 1, wTd 1], off := 0, scl := Ext.zero, step := 0, tol := 0, draw := ⟨0, 0, 0, 0, 0⟩
    pad := 0, live := true, plan := evs, held := [], outD := [], outR := [], sums := [], cnt := Counts.none, trunc := 0 }
/-- An event at Datestamp 1,000 on the first line of the core's shelf. -/
def wEv (kind : EvKind) (sub : Nat) : Ev := ⟨1000, kind, 0, sub, lineOf (shelfAddr wC 0), 3⟩

/-- The summing events of an MMA, an MMZ and an ALD. -/
theorem wit_MatrixSlot_sums : ∀ op ∈ [1, 2, 3],
    (wEv .calc 1).kind = .calc ∧ (wEv .calc 1).sub ≠ 0 ∧ fld (wOp (BitVec.ofNat 64 (op * 2 ^ 58)) [wEv .calc 1]).w 63 58 = op ∧
    (tdOf ((wOp 0 []).tds.getD 0 0)).pRows ≤ 64 ∧ (tdOf ((wOp 0 []).tds.getD 1 0)).pCols ≤ 64 ∧
    (tdOf ((wOp 0 []).tds.getD 0 0)).pCols ≤ 64 := by decide +kernel

theorem wit_AccumulatorStores : ∀ op ∈ [4, 5],
    Launches (wTile 1 (op * 2 ^ 58) 0) wC 0 (wBn 0 0 (op * 2 ^ 58) 0 0) 250 ∧ ctlOp (wBn 0 0 (op * 2 ^ 58) 0 0) = 0 ∧
    stOp (wBn 0 0 (op * 2 ^ 58) 0 0) = 0 ∧ mvOp (wBn 0 0 (op * 2 ^ 58) 0 0) = 0 ∧ mxOp (wBn 0 0 (op * 2 ^ 58) 0 0) = op ∧
    (getCore (wTile 1 (op * 2 ^ 58) 0) wC).stFly = [] ∧
    maskedBy (getClu (wTile 1 (op * 2 ^ 58) 0) 0) 1000 0 (mxMsk (bnMx (wBn 0 0 (op * 2 ^ 58) 0 0))) = false := by
  simp only [List.forall_mem_cons]
  refine ⟨?_, ?_, by simp⟩ <;> exact ⟨launches_of _ _ _ _ _ (by decide +kernel), by decide +kernel⟩

theorem wit_AccumulatorStores_lines : (wEv .wr 0).kind = .wr ∧ (wWith (wReady [])).flaws = [] := by decide +kernel

theorem wit_StreamSlot : ∀ e ∈ streamRows,
    Launches (wTile 1 0 (e.1 * 2 ^ 58)) wC 0 (wBn 0 0 0 (e.1 * 2 ^ 58) 0) 250 ∧ ctlOp (wBn 0 0 0 (e.1 * 2 ^ 58) 0) = 0 ∧
    mxOp (wBn 0 0 0 (e.1 * 2 ^ 58) 0) = 0 ∧ mvOp (wBn 0 0 0 (e.1 * 2 ^ 58) 0) = 0 ∧ stOp (wBn 0 0 0 (e.1 * 2 ^ 58) 0) = e.1 ∧
    (getCore (wTile 1 0 (e.1 * 2 ^ 58)) wC).mxFly = [] ∧ (wTile 1 0 (e.1 * 2 ^ 58)).flaws = [] ∧
    maskedBy (getClu (wTile 1 0 (e.1 * 2 ^ 58)) 0) 1000 0 (stMsk (bnSt (wBn 0 0 0 (e.1 * 2 ^ 58) 0))) = false := by
  simp only [streamRows, List.forall_mem_cons]
  refine ⟨?_, ?_, ?_, ?_, ?_, ?_, ?_, ?_, ?_, ?_, ?_, ?_, ?_, ?_, ?_, ?_, ?_, ?_, ?_, ?_, ?_, ?_, ?_, ?_, by simp⟩ <;>
    exact ⟨launches_of _ _ _ _ _ (by decide +kernel), by decide +kernel⟩

/-- The plan of an ADD of one BF16 element reads, works and writes, and the beat's byte is one of its destination. -/
theorem wit_StreamSlot_beats :
    (let d := tdOf (wTd 1)
     let p := streamPlan wC d [d, d] 0 d
     (∃ e ∈ p.2, e.kind = .rd) ∧ (∃ e ∈ p.2, e.kind = .wr) ∧ d.fmt ∈ [0, 1, 2, 3, 4, 8] ∧ 32 * (0 % beatsPerRow d) + 0 < d.cols ∧
     1 < fmtBits d.fmt / 8) ∧
    fld (wOp (BitVec.ofNat 64 (1 * 2 ^ 58)) []).w 63 58 ≠ 0x0F ∧ fld (wOp (BitVec.ofNat 64 (0x0F * 2 ^ 58)) []).w 63 58 = 0x0F := by
  decide +kernel

/-- A core with operations in its matrix and stream units. -/
def wUnits (mx st : List OpFly) : State := wWith { Core.reset with mxFly := mx, stFly := st }

theorem wit_UnitCompletes :
    (let f := wOp (BitVec.ofNat 64 (4 * 2 ^ 58)) [wEv .wr 0]; (wUnits [f] []).flaws = [] ∧
      OnlyEvents (wUnits [f] []) wC Core.mxFly f [wEv .wr 0]) ∧
    (let f := wOp (BitVec.ofNat 64 (2 ^ 58)) [wEv .rd 0]; (wUnits [] [f]).flaws = [] ∧
      OnlyEvents (wUnits [] [f]) wC Core.stFly f [wEv .rd 0]) ∧
    (∀ op ∈ [1, 4, 5], let f := wOp (BitVec.ofNat 64 (op * 2 ^ 58)) []; (getCore (wUnits [f] [f]) wC).mxFly = f :: [] ∧
      (getCore (wUnits [f] [f]) wC).stFly = f :: [] ∧ f.due ≤ (wUnits [f] [f]).clk.dst ∧ f.live = true ∧
      fld f.w 63 58 = op ∧ ((getClu (wUnits [f] [f]) wC.cl.key).sums.filter (fun x => x.src == wC.k.val)).length < 4) ∧
    { wOp 0 [] with live := false }.live = false := by
  refine ⟨⟨by decide +kernel, ⟨?_, ?_, ?_, ?_, ?_, ?_, ?_, ?_, ?_⟩⟩, ⟨by decide +kernel, ⟨?_, ?_, ?_, ?_, ?_, ?_, ?_, ?_, ?_⟩⟩, ?_, rfl⟩ <;>
    decide +kernel

theorem wit_FloatingValues :
    (val 0x3F800000).isNan = false ∧ Ext.isNan (val 0x7FC00000) = true ∧ (1 : Nat) ≠ 0 ∧ (1 : Nat) ∈ [1, 2, 3, 4, 7, 8, 9, 0xA, 0xB, 0xE] := by decide +kernel

/-- One row of 64 bytes from an address to another. -/
def wMd (src dst rows len : Nat) : W256 := BitVec.ofNat 256 (src * 2 ^ 192 + dst * 2 ^ 128 + len * 2 ^ 112 + rows * 2 ^ 96)
/-- The descriptor that each queued move's test uses: own shelf, or node 1 for the remote end. -/
def wMdOf (op : Nat) : W256 :=
  let here := shelfAddr wC 0
  let far := 2 ^ 51 + shelfAddr wC 64
  if op = 1 then wMd here (shelfAddr wC 64) 1 64 else if op = 2 then wMd here far 1 64
  else if op = 3 then wMd far here 1 64 else if op = 4 then wMd here 0 1 64 else wMd 0 (2 ^ 51 + poolAddr 0 0 0) 1 0
/-- The module about to launch a move slot. -/
def wMove (op : Nat) : State := wWith { wReady [wBn 0 0 0 0 (op * 2 ^ 58)] with md := [(0, wMdOf op)] }

theorem wit_MoveSlot :
    (∀ e ∈ queuedMoveRows, Launches (wMove e.1) wC 0 (wBn 0 0 0 0 (e.1 * 2 ^ 58)) 250 ∧ mvOp (wBn 0 0 0 0 (e.1 * 2 ^ 58)) = e.1) ∧
    (∀ op ∈ [6, 7], Launches (wMove op) wC 0 (wBn 0 0 0 0 (op * 2 ^ 58)) 250 ∧ mvOp (wBn 0 0 0 0 (op * 2 ^ 58)) = op ∧
      issuing (wMove op) (getCore (wMove op) wC) = false ∧ (wMove op).flaws = [] ∧ (latched (wMove op) wC 0).tdPend = []) := by
  simp only [queuedMoveRows, List.forall_mem_cons]
  refine ⟨⟨?_, ?_, ?_, ?_, ?_, by simp⟩, ?_, ?_, by simp⟩ <;> exact ⟨launches_of _ _ _ _ _ (by decide +kernel), by decide +kernel⟩

/-- A MOV of 64 bytes within the core's own shelf, waiting. -/
def wMv : Move :=
  { op := 1, md := wMdOf 1, mdIdx := 0, ofs := 0, cc := none, step := 0, launch := 0, lines := 1, lp := 4, start := none,
    plan := [], held := [], masked := false }
def wMvQ (free : Nat) : State := wWith { Core.reset with mq := [wMv], mvFree := free }
/-- A MOV that is due, and one that names counter 0. -/
def wMvFly (cc : Option Nat) : State := wWith { Core.reset with mvFly := [{ wMv with start := some 0, cc := cc }] }

/-- Byte b of that shelf, as an end of 64 bytes. -/
def wEnd (b : Nat) : End :=
  { g := { node := 0, space := 3, q := 0, st := 0, cl := 0, k := 0, fo := 0, byte := b }, x := b, n := 1, len := 64, str := 0,
    here := true, own := true }

/-- A MOV to a shelf of quadrant 1 over the neighbour link, which is closed: nobody owns quadrant 0. -/
def wAcross : Move := { wMv with md := wMd (shelfAddr wC 0) (shelfAddr { cl := { q := 1, c := 0 }, k := 0 } 0) 1 64 }
def wLinked : State :=
  { wWith { Core.reset with mq := [wAcross] } with
    jobs := [(0, { wJob with img := some { wImg with segs := [{ wSeg with paths := [(1, .link)] }] } })] }
/-- An LDTD or STTD with an access at this Datestamp. -/
def wTdOp (cc : Option Nat) : TdOp := { due := 1000, cc := cc, load := none, plan := [wEv .wr 2], out := [] }
/-- A core whose LDTD meets a line of the move that its engine issues. -/
def wTdMeets : State :=
  wWith { Core.reset with tdFly := [wTdOp none], mvFly := [{ wMv with start := some 1000 }] }

theorem wit_MoveEngine :
    ((wMvQ 2000).clk.dst < max wMv.launch (getCore (wMvQ 2000) wC).mvFree ∧ (getCore (wMvQ 2000) wC).mq = [wMv]) ∧
    (runSlot (wMvQ 0) wC = some 0 ∧ max wMv.launch (getCore (wMvQ 0) wC).mvFree ≤ (wMvQ 0).clk.dst ∧ (wMvQ 0).flaws = [] ∧
      residentOn (wMvQ 0) 0 = some 0 ∧ mdEnds (wMvQ 0) wC 1 wMv.md wMv.ofs = some (wEnd 0, some (wEnd 64)) ∧
      wMv.op ≠ 3 ∧ wMv.op ≠ 5 ∧ pathClosed (wMvQ 0) 0 0 (otherQuad wC (wEnd 0) (some (wEnd 64))) = false) ∧
    (jobOn (wMvQ 0) 0 = some 0 ∧ spaceOf (64 * (wEv .rd 0).line) ≠ 0 ∧ mdTrs wMv.md = false ∧
      ((wEnd 0).rowAddrs 0)[5]? = some (shelfAddr wC 5) ∧ ((wEnd 64).rowAddrs 0)[5]? = some (shelfAddr wC 69) ∧
      shelfAddr wC 69 / 64 = lineOf (shelfAddr wC 64)) ∧
    ((getCore (wMvFly none) wC).mvFly.head?.bind moveDue = some 20 ∧ 20 ≤ (wMvFly none).clk.dst ∧
      (getCore (wMvFly (some 0)) wC).mvFly.head?.bind moveDue = some 20 ∧
      (getCore (wMvFly (some 0)) wC).mvFly.head?.map Move.cc = some (some 0)) ∧
    (∀ cc ∈ [none, some 0], let s := wWith { Core.reset with tdFly := [wTdOp cc] };
      (getCore s wC).mvFly = [] ∧ (getCore s wC).tdFly = [wTdOp cc] ∧ (wTdOp cc).due ≤ s.clk.dst ∧ (wTdOp cc).cc = cc) ∧
    (wTdMeets.cores.filter (fun e => coreDue wTdMeets e.2) = [(wC.key, getCore wTdMeets wC)] ∧
      (∀ e ∈ wTdMeets.clus, cluDue wTdMeets e.2 = false) ∧ issuing wTdMeets (getCore wTdMeets wC) = true ∧
      (getCore wTdMeets wC).tdFly = [wTdOp none] ∧ dueEvs wTdMeets (wTdOp none).plan ≠ [] ∧
      (∀ f ∈ (getCore wTdMeets wC).mxFly ++ (getCore wTdMeets wC).stFly, dueEvs wTdMeets f.plan = []) ∧
      (∀ m ∈ (getCore wTdMeets wC).mvFly, dueEvs wTdMeets m.plan = []) ∧ residentOn wTdMeets 0 = some 0) := by decide +kernel

theorem wit_MoveEngine_closed :
    (getCore wLinked wC).mq = [wAcross] ∧ wAcross.masked = false ∧ runSlot wLinked wC = some 0 ∧
    (mdEnds wLinked wC wAcross.op wAcross.md wAcross.ofs).any
      (fun x => pathClosed wLinked 0 0 (otherQuad wC x.1 x.2)) = true := by decide +kernel

theorem wit_PatrolScrub :
    quadThrottle { wLive with pwr := { Power.reset with thr := 1 } } 0 = true ∧ quadThrottle wLive 0 = false ∧
    7 ∉ (getMc wLive 0).prev ∧
    (let s := { wLive with mcs := [(0, { Mc.reset with prev := [7] })] }; 7 ∈ (getMc s 0).prev ∧ 7 ∉ (getMc s 0).ppr) ∧
    (∀ k ∈ [1, 2], let s := { wLive with flaws := [(7 * 1024, k)] }; rowFlaws s 0 7 = [(7 * 1024, k)] ∧ (∀ e ∈ s.ldg.wait, e.src ≠ pgMC 0 0)) ∧
    tget 0 (getMc wLive 0).wins (wLive.clk.dst / 2048) + 1024 ≤ 786432 ∧
    (let s := { wLive with mcs := [(0, { Mc.reset with wins := [(0, 786000)] })] };
      786432 < tget 0 (getMc s 0).wins (s.clk.dst / 2048) + 1024) := by
  decide +kernel

/-! ## The control core -/

/-- What `CtlReady` asks of a control core that no WAITJ stalls. -/
theorem ctlReady_of (s : State) (cl : Clu) (j : Nat) (w : W32)
    (h : (runQuad s cl.q.val = some j ∧ (getClu s cl.key).on = true ∧ (getJob s j).held = false ∧ s.clk.dst % 6 = 0 ∧
      (getClu s cl.key).nextJ ≤ s.clk.dst) ∧ (getClu s cl.key).stall = none ∧
      tget 0 (getClu s cl.key).imem (getClu s cl.key).pc = w ∧ (getClu s cl.key).pc < 4095) : CtlReady s cl j w :=
  ⟨h.1.1, h.1.2.1, h.1.2.2.1, h.1.2.2.2.1, h.1.2.2.2.2, fun _ e => (nomatch (h.2.1.symm.trans e)), h.2.2.1, h.2.2.2⟩

/-- The control core of cluster 0 before instruction `w` at Datestamp 1,200. -/
def wCtl (w : Nat) : State :=
  { wRun with
    clk := { wRun.clk with dst := 1200 }
    clus := [(0, { Cluster.reset with on := true, imem := if w = 0 then [] else [(0, BitVec.ofNat 32 w)] })] }

theorem wit_ControlWrites :
    (∀ op ∈ [0, 1, 2, 3, 4, 5, 6, 7, 0x11, 0x12, 0x13], CtlReady (wCtl (op * 2 ^ 26)) wClu 0 (BitVec.ofNat 32 (op * 2 ^ 26)) ∧
      fld (BitVec.ofNat 32 (op * 2 ^ 26) : W32) 31 26 = op) ∧
    aluFn (fld (0 : W32) 7 0) (curS (getClu (wCtl 0) 0) 0) (curS (getClu (wCtl 0) 0) 0) = some 0 ∧
    ((0 : Nat) : Int) = (curS (getClu (wCtl (7 * 2 ^ 26)) 0) 0).toInt + sfld (BitVec.ofNat 32 (7 * 2 ^ 26) : W32) 13 0 ∧
    val 0x3F800000 = .fin false 8388608 (-23) ∧ val 0xFF800000 = .inf true ∧ 0xC < 0xD ∧ 0xD < 0x10 := by
  simp only [List.forall_mem_cons]
  refine ⟨⟨?_, ?_, ?_, ?_, ?_, ?_, ?_, ?_, ?_, ?_, ?_, by simp⟩, by decide +kernel⟩ <;>
    exact ⟨ctlReady_of _ _ _ _ (by decide +kernel), by decide +kernel⟩

theorem wit_ControlBranches :
    (∀ op ∈ [9, 0xA, 0xB, 0xC, 0xD, 0x15], CtlReady (wCtl (op * 2 ^ 26)) wClu 0 (BitVec.ofNat 32 (op * 2 ^ 26)) ∧
      fld (BitVec.ofNat 32 (op * 2 ^ 26) : W32) 31 26 = op) ∧
    (0 : W32) = curS (getClu (wCtl (9 * 2 ^ 26)) 0) 0 ∧
    ((0 : Nat) : Int) = (getClu (wCtl (9 * 2 ^ 26)) 0).pc + sfld (BitVec.ofNat 32 (9 * 2 ^ 26) : W32) 13 0 ∧
    residentOn (wCtl (0x15 * 2 ^ 26)) 0 = some 0 := by
  simp only [List.forall_mem_cons]
  refine ⟨⟨?_, ?_, ?_, ?_, ?_, ?_, by simp⟩, by decide +kernel⟩ <;>
    exact ⟨ctlReady_of _ _ _ _ (by decide +kernel), by decide +kernel⟩

/-- A GATE that writes mask 0 runs from Datestamp 1,200 on. -/
def wGateRuns : State :=
  { wCtl (0x10 * 2 ^ 26) with
    clus := [(0, { getClu (wCtl (0x10 * 2 ^ 26)) 0 with gate := some { mi := 0, off := 0, launch := 1200, due := 1300 } })] }
/-- Counter 0 at `d` with the changes of this core cycle. -/
def wSums (d x : Int) : State := { wRun with clus := [(0, { Cluster.reset with cc := [(0, { Ctr.zero with deficit := d, sum := x })] })] }

theorem wit_ControlEffects :
    (∀ op ∈ [8, 0xE, 0xF, 0x10, 0x14], CtlReady (wCtl (op * 2 ^ 26)) wClu 0 (BitVec.ofNat 32 (op * 2 ^ 26)) ∧
      fld (BitVec.ofNat 32 (op * 2 ^ 26) : W32) 31 26 = op) ∧
    ((0 : Nat) : Int) = (curS (getClu (wCtl (8 * 2 ^ 26)) 0) 0).toInt + sfld (BitVec.ofNat 32 (8 * 2 ^ 26) : W32) 13 0 ∧
    (let w : W32 := BitVec.ofNat 32 (0x10 * 2 ^ 26);
      fld w 22 21 ≠ 3 ∧ fld w 14 12 ≤ 3 ∧ fld w 11 0 = 0) ∧
    gateMeets (wCtl (0x10 * 2 ^ 26)) (getClu (wCtl (0x10 * 2 ^ 26)) 0) 0 = none ∧
    (gateMeets wGateRuns (getClu wGateRuns 0) 0 = some { mi := 0, off := 0, launch := 1200, due := 1300 } ∧
      residentOn wGateRuns 0 = some 0 ∧ ∀ e ∈ wGateRuns.ldg.wait, e.src ≠ pgRT 0 0) ∧
    ((getJob (wCtl (0x14 * 2 ^ 26)) 0).st = .running ∧
      ∀ n : Fin 96, (getCore (wCtl (0x14 * 2 ^ 26)) { cl := wClu, k := n }).tdPend = []) ∧
    (let c := getCtr (wSums 8388607 0) 0 0; c.deficit + c.sum = 8388607) ∧
    (let c := getCtr (wSums (-8388608) (-1)) 0 0; c.deficit + c.sum = -8388609 ∧ residentOn (wSums (-8388608) (-1)) (0 / 16) = some 0 ∧
      ∀ e ∈ (wSums (-8388608) (-1)).ldg.wait, e.src ≠ pgCLU 0 0) := by
  simp only [List.forall_mem_cons]
  refine ⟨⟨?_, ?_, ?_, ?_, ?_, by simp⟩, by decide +kernel⟩ <;>
    exact ⟨ctlReady_of _ _ _ _ (by decide +kernel), by decide +kernel⟩

theorem wit_RegisterWriteVisibility : 0 < 1 ∧ 1 < 64 ∧ 100 + 24 ≤ 124 ∧ 100 ≤ 123 ∧ 123 < 100 + 24 ∧ 7 < 8 ∧ 63 < 64 := by
  decide

/-! ## Command streams -/

/-- What `CmdDue` asks of a unit that has launched nothing yet. -/
theorem cmdDue_of (s : State) (cl : Clu) (rt : Bool) (j : Nat) (w : W256) (rest : List W256)
    (h : (runQuad s cl.q.val = some j ∧ (getJob s j).held = false ∧ (unitOf rt (getClu s cl.key)).done = false ∧
      (unitOf rt (getClu s cl.key)).q = w :: rest ∧
      jobTime s (getJob s j) = originOf s j (unitOf rt (getClu s cl.key)).seg + 4 * cmOff w) ∧
      (unitOf rt (getClu s cl.key)).last = none ∧ (unitOf rt (getClu s cl.key)).busy ≤ s.clk.dst) :
    CmdDue s cl rt j w rest :=
  ⟨h.1.1, h.1.2.1, h.1.2.2.1, h.1.2.2.2.1, h.1.2.2.2.2, fun _ e => (nomatch (h.2.1.symm.trans e)), h.2.2⟩

/-- A command of offset 250. -/
def wCm (op fields : Nat) : W256 := BitVec.ofNat 256 (250 * 2 ^ 232 + op * 2 ^ 226 + fields)
def wUnit (w : W256) : CmdUnit := { CmdUnit.reset with q := [w], seg := 1, done := false }
/-- S registers 1 and 2 are 1.0; region 0 of the job is 128 bytes of HBM with LR. -/
def wCmd (rt : Bool) (w : W256) : State :=
  { wLive with
    jobs := [(0, { wJob with img := some { wImg with regions := [BitVec.ofNat 128 (128 * 2 ^ 36 + 2 ^ 35)] } })]
    clus := [(0, { Cluster.reset with
      re := if rt then CmdUnit.reset else wUnit w, rt := if rt then wUnit w else CmdUnit.reset
      sw := [{ at' := 0, reg := 1, val := 0x3F800000 }, { at' := 0, reg := 2, val := 0x3F800000 }] })] }
/-- ROWS 1 and COLS 2; of SOLVE ROWS 32, COLS 1, SEPS 1; of the record moves ROWS 1. -/
def wRe (op : Nat) : W256 :=
  wCm op (if op ≤ 1 then 0 else if op = 8 then 2 ^ 206 + 32 * 2 ^ 112 + 2 ^ 96 + 2 ^ 77 else if op < 8 then 2 ^ 112 + 2 * 2 ^ 96 else 2 ^ 112)

theorem wit_RowEngineCommands : ∀ op ∈ [0, 1, 2, 3, 4, 5, 6, 7, 8, 9, 10],
    CmdDue (wCmd false (wRe op)) wClu false 0 (wRe op) [] ∧ cmOp (wRe op) = op ∧
    reCheck (getClu (wCmd false (wRe op)) 0) (jobTime (wCmd false (wRe op)) (getJob (wCmd false (wRe op)) 0)) (wRe op) = none ∧
    (wCmd false (wRe op)).flaws = [] := by
  simp only [List.forall_mem_cons]
  refine ⟨?_, ?_, ?_, ?_, ?_, ?_, ?_, ?_, ?_, ?_, ?_, by simp⟩ <;> exact ⟨cmdDue_of _ _ _ _ _ _ (by decide +kernel), by decide +kernel⟩

/-- A command in flight that is due now, with word `w` and events `evs`. -/
def wCf (w : W256) (evs : List Ev) : CmdFly :=
  { due := 1000, w := w, cc := none, jt := 0, sclA := 0, sclB := 0, step := 0, draw := ⟨0, 0, 0, 0, 0⟩, plan := evs
    held := [], out := [], nums := [], cnt := Counts.none, mask := none, nan := 0, experts := [] }
/-- An event of row 0. -/
def wRowEv (kind : EvKind) (sub : Nat) : Ev := ⟨1000, kind, 0, sub, 0, 6⟩

/-- The row events of the engine's commands, and an MSPILL that holds one pool line. -/
theorem wit_RowEngineCommands_rows :
    (∀ op ∈ [2, 3, 4, 5, 6, 7, 9, 10], cmOp (wCf (wRe op) []).w = op ∧ (wRowEv .calc 0).kind = .calc ∧ (wRowEv .calc 0).grp = 0) ∧
    (let f := { wCf (wRe 9) [] with held := [(0, poolAddr 0 0 0 / 64, List.replicate 64 7)] };
      let l := (0, poolAddr 0 0 0 / 64, List.replicate 64 (7 : Byte));
      l ∈ f.held ∧ l.2.2.length = 64 ∧ poolAddr 0 0 (64 * reSrc f.w) ≤ 64 * l.2.1 ∧
      64 * l.2.1 + 7 < poolAddr 0 0 (64 * reSrc f.w) + 8 * reRows f.w) ∧
    (wCmd false 0).flaws = [] ∧ (wRowEv .rd 0).kind = .rd ∧ (wRowEv .wr 0).kind = .wr := by decide +kernel

/-- Units with one command in flight. -/
def wCmFly (f : CmdFly) : State :=
  { wRun with clus := [(0, { Cluster.reset with re := { CmdUnit.reset with fly := [f] }, rt := { CmdUnit.reset with fly := [f] } })] }

theorem wit_CommandCompletes :
    (∀ cc ∈ [none, some 3], ∀ op ∈ [2, 9], ∀ rt, let f := { wCf (wCm op 0) [] with cc := cc };
      (unitOf rt (getClu (wCmFly f) 0)).fly = f :: [] ∧ f.due ≤ (wCmFly f).clk.dst ∧ f.nan = 0 ∧ f.experts = [] ∧ f.mask = none ∧
      f.cc = cc ∧ cmOp f.w = op ∧ ((getClu (wCmFly f) 0).sums.filter (fun x => x.src == 96)).length < 4) ∧
    (let f := { wCf (wCm 2 0) [] with mask := some (2, 5), experts := [(1, 4, 2)] };
      (getClu (wCmFly f) 0).rt.fly = [f] ∧ f.due ≤ (wCmFly f).clk.dst ∧ f.mask = some (2, 5) ∧ f.experts = [(1, 4, 2)] ∧ 2 < 8 ∧
      0 < 2 ∧ tget 0 (getClu (wCmFly f) 0).drop 1 = 0) := by
  decide +kernel

/-- A summary of one element that waits for the shadow unit, with a NaN or without. -/
def wSum (nan : Nat) : State :=
  { wLive with clus := [(0, { Cluster.reset with sums := [{ src := 3, tag := 9, step := 4, cnt := { Counts.none with elem := 1, nan := nan } }] })] }

theorem wit_ShadowAndClears :
    Served wLive (pgRE 0 0) ∧ Served wLive (pgSHW 0 0) ∧ Served wLive (pgRT 0 0) ∧ bit (0x80000001 : W32) 31 = true ∧
    bit (shwCtl (wSum 0) 0) 31 = true ∧ (getTag (wSum 0) 0 9).step = none ∧
    (bit (shwCtl (wSum 1) 0) 30 = false ∧ (getTag (wSum 1) 0 9).nanStep ≠ some 4) ∧
    ((getClu (wSum 0) 0).sums.map Summary.src = [3] ∧ ((getClu (wSum 0) 0).taken.1 ≠ (wSum 0).clk.dst / 4 ∨
      (getClu (wSum 0) 0).taken.2 < 8)) ∧
    bit (shwCtl { wSum 0 with regs := [(at' (pgSHW 0 0) 0x100, 0)] } 0) 31 = false := by unfold Served; decide +kernel

/-- N 1, E 1, CAPT 1, K 1, COLS 2 where the opcode has them; list and table rows are all index 0. -/
def wRt (op : Nat) : W256 :=
  let n := 2 ^ 96
  let ec := 2 ^ 87 + 2 ^ 79
  let k := 2 ^ 208
  let cols := 2 * 2 ^ 63
  wCm op (if op ≤ 1 then 0 else if op = 2 then n + ec + k else if op = 3 then n + ec + cols else if op ≤ 5 then n + ec + k + cols
    else if op ≤ 7 then n + cols else n + cols + 2 ^ 58)

theorem wit_RouteCommands :
    (∀ op ∈ [0, 1, 2, 3, 4, 5, 6, 7, 8], CmdDue (wCmd true (wRt op)) wClu true 0 (wRt op) [] ∧ cmOp (wRt op) = op ∧
      rtCheck (wCmd true (wRt op)) 0 wClu (wRt op) = none ∧ (wCmd true (wRt op)).flaws = []) ∧
    (∀ op ∈ [6, 8], (wCmd true (wRt op)).flaws = [] ∧ jobOn (wCmd true (wRt op)) 0 = some 0 ∧ residentOn (wCmd true (wRt op)) 0 = some 0 ∧
      (wRowEv .calc 0).kind = .calc ∧ (wRowEv .calc 0).sub = 0 ∧ (wRowEv .calc 1).sub = 1 ∧ cmOp (wCf (wRt op) []).w = op ∧
      ∀ e ∈ (wCmd true (wRt op)).ldg.wait, e.src ≠ pgRT 0 0) ∧
    gatherBad { wCmd true (wRt 6) with mem := [(poolAddr 0 0 0, 5)] } 0 wClu (wRt 6) = some 0 ∧
    mergeBad (wCmd true (wCm 8 (2 * 2 ^ 96 + 2 * 2 ^ 63 + 2 ^ 58))) wClu (wCm 8 (2 * 2 ^ 96 + 2 * 2 ^ 63 + 2 ^ 58)) = true ∧
    tget 0 { wCf (wRt 6) [] with nums := [(0, 0xFFFFFFFF)] }.nums (wRowEv .calc 1).grp = 0xFFFFFFFF := by
  simp only [List.forall_mem_cons]
  refine ⟨⟨?_, ?_, ?_, ?_, ?_, ?_, ?_, ?_, ?_, by simp⟩, by decide +kernel⟩ <;>
    exact ⟨cmdDue_of _ _ _ _ _ _ (by decide +kernel), by decide +kernel⟩

theorem wit_RouteLists : ∀ c ∈ [[(3, (0x3F800000 : W32))], [(4, 0)]], c.length = rtK (wRt 2) := by decide +kernel

/-! ## Update passes and reductions -/

/-- Pass of engine 0 at offset 250: PERIOD 1, NG 1, GB 16; a row pass has NR 1, CG 1 and EB 64 too. -/
def wPs (mode : Nat) : W256 :=
  BitVec.ofNat 256 (250 * 2 ^ 232 + mode * 2 ^ 218 + 2 ^ 215 + 16 * 2 ^ 133 + 64 * 2 ^ 102 + 2 ^ 74
    + (if mode = 1 then 2 ^ 46 + 2 ^ 38 else 0))
/-- The running module whose engine 0 is about to launch it, with or without the group it names. The record list of a
row pass holds one null record. -/
def wPass (mode : Nat) (grp : Bool) : State :=
  { wLive with
    jobs := [(0, { wJob with
      grps := if grp then [(0, some 3)] else []
      img := some { wImg with
        regions := [BitVec.ofNat 128 (65536 * 2 ^ 36 + 2 ^ 35 + 2 ^ 34)]
        segs := [{ wSeg with eng := [(0, { passes := [wPs mode], progs := [], pt := [] })] }] } })]
    grps := [(3, { GrpEntry.free with owner := 5 })], ues := [(0, { Ue.reset with seg := 1 })]
    mem := [1024, 1025, 1026, 1027].map (fun a => (hbmAddr 0 0 a, (0xFF : Byte))) }

theorem passDue_of (s : State) (e : Fin 12) (j : Nat) (w : W256)
    (h : (runningOn s (e.val / 3) = some j ∧ (getJob s j).held = false ∧ (getUe s e).seg ≠ 0 ∧
      (ueDesc s e j).passes[(getUe s e).pos]? = some w ∧
      jobTime s (getJob s j) = originOf s j (getUe s e).seg + 4 * psOff w) ∧ (getUe s e).last = none ∧ (getUe s e).fly = none) :
    PassDue s e j w :=
  ⟨h.1.1, h.1.2.1, h.1.2.2.1, h.1.2.2.2.1, h.1.2.2.2.2, fun _ e => (nomatch (h.2.1.symm.trans e)), h.2.2⟩

theorem wit_PassLaunch :
    (∀ mode ∈ [0, 1], PassDue (wPass mode true) 0 0 (wPs mode) ∧ psMode (wPs mode) = mode ∧
      passCheck (wPass mode true) 0 0 (wPs mode) [] = none ∧
      advancing (wPass mode true) 0 1000 (grpEntry (wPass mode true) 0 0) = false) ∧
    (PassDue (wPass 0 false) 0 0 (wPs 0) ∧ (passCheck (wPass 0 false) 0 0 (wPs 0) []).isSome = true ∧
      ∀ e ∈ (wPass 0 false).ldg.wait, e.src ≠ pgUE 0 0) := by
  simp only [List.forall_mem_cons]
  refine ⟨⟨?_, ?_, by simp⟩, passDue_of _ _ _ _ (by decide +kernel), by decide +kernel⟩ <;>
    exact ⟨passDue_of _ _ _ _ (by decide +kernel), by decide +kernel⟩

/-- A dense pass in flight since job time `t0`, with the groups it has read and not yet written. -/
def wPassFly (t0 due : Nat) (w : W256) (grps : List PassGrp) : PassFly :=
  { t0 := t0, due := due, idx := 0, w := w, prog := [], pt := [], gw := [], seed := 0, list := [], miss := 0, grps := grps
    nanSaid := false, satSaid := false }
/-- The running module with that pass in engine 0. -/
def wFlying (f : PassFly) : State := { wPass 0 true with ues := [(0, { Ue.reset with seg := 1, fly := some f })] }

/-- At job time 1,000 the pass reads its group 0, or writes the group that is due. -/
theorem wit_PassLaunch_groups :
    (let f := wPassFly 1000 2000 (wPs 0) []
     let s := wFlying f
     jobOn s 0 = some 0 ∧ (getUe s 0).fly = some f ∧ (getJob s 0).held = false ∧ s.flaws = [] ∧ psMode f.w = 0 ∧ 0 < psPer f.w ∧
     0 < psNG f.w ∧ jobTime s (getJob s 0) = f.t0 + 4 * (psPer f.w * 0) ∧
     (ueCharge s 0 ([(512 * (psRB f.w + 0), 512), (64 * psGB f.w + 128 * 0, 128)] ++ (if residual f.prog
       then some (64 * psEB f.w + 128 * 0) else none).toList.map (fun b => (b, 128)))).2 = true) ∧
    (let g : PassGrp := { due := 1000, wr := [(hbmAddr 0 0 0, 5)], nan := 1, sat := 2 }
     let f := wPassFly 0 2000 (wPs 0) [g]
     let s := wFlying f
     jobOn s 0 = some 0 ∧ (getUe s 0).fly = some f ∧ (getJob s 0).held = false ∧ s.flaws = [] ∧ f.t0 ≤ jobTime s (getJob s 0) ∧
     f.grps = [g] ∧ g.due ≤ jobTime s (getJob s 0) ∧ passDo f.w (passCycle (jobTime s (getJob s 0)) f) = .none ∧
     (ueCharge s 0 (cellRuns g.wr)).2 = true) := by decide +kernel

theorem wit_PassCompletes :
    (let f := wPassFly 0 1000 (wPs 0) [];
      runningOn (wFlying f) 0 = some 0 ∧ (getUe (wFlying f) 0).fly = some f ∧ f.due ≤ jobTime (wFlying f) (getJob (wFlying f) 0) ∧
      psCC f.w = none) ∧
    psCC (BitVec.ofNat 256 (2 ^ 256 - 1)) ≠ none ∧
    (let f := wPassFly 0 1001 (wPs 0) []; jobTime (wFlying f) (getJob (wFlying f) 0) < f.due) := by decide +kernel

/-- An advance entry at offset 250 for group 0, whose STEP is given, and one in flight that is due. -/
def wAdv (step : W32) : State :=
  { wLive with
    jobs := [(0, { wJob with
      grps := [(0, some 3)], img := some { wImg with segs := [{ wSeg with adv := [BitVec.ofNat 64 (250 * 2 ^ 40 + 2 ^ 23)] }] }
      adv := [{ grps := [3], off := 0, idx := 0, due := 900, hbm := false }] })]
    grps := [(3, { GrpEntry.free with owner := 5, words := if step = 0 then [] else [(12, step)] })] }

theorem wAdv_one (step : W32) (n e : Nat) (hn : n ≠ 0) :
    grpEntry (wAdv step) 0 n ≠ some e := by
  have : tget none (getJob (wAdv step) 0).grps n = none := by
    have hj : (getJob (wAdv step) 0).grps = [(0, some 3)] := rfl
    rw [hj]; simp [tget, hn]
  unfold grpEntry; rw [this]; simp

theorem wit_AdvanceRows :
    (let s := wAdv 0; let w : W64 := BitVec.ofNat 64 (250 * 2 ^ 40 + 2 ^ 23);
      (segsOf s 0)[(getJob s 0).seg - 1]? = some { wSeg with adv := [w] } ∧ [w][(getJob s 0).advPos]? = some w ∧
      (getJob s 0).st = .running ∧ (getJob s 0).held = false ∧ (getJob s 0).seg ≠ 0 ∧
      originOf s 0 (getJob s 0).seg + 4 * avOff w ≤ jobTime s (getJob s 0) ∧ avSave w = false ∧ avLoad w = false ∧
      avNoadv w = false ∧ grpEntry s 0 0 = some 3 ∧ avFirst w = 0 ∧ avCount w = 1 ∧
      tget 0 (getGrp s 3).words 12 ≠ 0xFFFFFFFF) ∧
    (∀ m n e, grpEntry (wAdv 0) 0 m = some e → grpEntry (wAdv 0) 0 n = some e → m = n) ∧
    (grpEntry (wAdv 0xFFFFFFFF) 0 0 = some 3 ∧ tget 0 (getGrp (wAdv 0xFFFFFFFF) 3).words 12 = 0xFFFFFFFF) ∧
    ((getJob (wAdv 0) 0).adv = [] ++ { grps := [3], off := 0, idx := 0, due := 900, hbm := false } :: [] ∧
      900 ≤ jobTime (wAdv 0) (getJob (wAdv 0) 0)) ∧
    (Served wLive pgSCH ∧ (getGrp wLive 0).owner = 0) ∧
    (let s := { wAdv 0 with regs := [(at' pgSCH 0x200, 3)] }; (getGrp s 3).owner ≠ 0 ∧ (getJob s (getGrp s 3).job).st = .running) := by
  refine ⟨by decide +kernel, fun m n e hm hn => ?_, by decide +kernel, by decide +kernel, by unfold Served; decide +kernel,
    by decide +kernel⟩
  rcases Nat.eq_zero_or_pos m with rfl | h1
  · rcases Nat.eq_zero_or_pos n with rfl | h2
    · rfl
    · exact absurd hn (wAdv_one 0 n e (Nat.pos_iff_ne_zero.mp h2))
  · exact absurd hm (wAdv_one 0 m e (Nat.pos_iff_ne_zero.mp h1))

/-- A context with one input: a node, or (root with vote off or on) the module's own cores. CW 1, 2 chunks of 128 elements
unless `len` says otherwise. -/
def wDef (w0 len : Nat) (inp : W64) : CtxDef :=
  { hdr := [BitVec.ofNat 64 (w0 + 2 ^ 29 + 2 ^ 25), BitVec.ofNat 64 (len * 2 ^ 32), inp, 0, 0, 0, 0, 0, BitVec.ofNat 64 (2 ^ 6)], segs := [] }
/-- A REDUCE packet from node 1 for context 0, chunk 0, step 0. -/
def wRedPkt : Packet :=
  { hdr := mkHdr 4 5 0 1 9 0 1 256 ||| BitVec.ofNat 128 (2 ^ 73), hdr2 := BitVec.ofNat 128 (5 * 2 ^ 116 + 2 ^ 15), pay := List.replicate 256 0 }
def wG : Grp := { p := 0, g := 0 }
/-- The module with that packet at the head of its ingress queue and context entry 3. -/
def wCirc (x : Ctx) : State :=
  { wLive with
    jobs := [(0, { wJob with ctxs := [(0, some 3)] })], links := [(0, { Link.reset 0 with ingress := [(0, [wRedPkt])] })]
    ctxs := [(3, x)], fab := { Fabric.reset with clsMin := [(4, 100), (7, 100)], clsMax := [(4, 200), (7, 200)] } }
def wCtx : Ctx := { Ctx.free with owner := 5, defn := wDef 0 256 1 }
/-- A part of chunk n as input 0. -/
def wPart (n : Nat) : Machine.Part := { chunk := n, input := 0, part := 0, bytes := [] }

theorem upPasses_of (s : State) (c : Contrib) (j e i : Nat)
    (h : (residentAcc s c.acc = some j ∧ ctxEntry s j c.ctx = some e) ∧
      (c.bkt = cxBkt (getCtx s e).defn ∧ c.vote = cxVote (getCtx s e).defn) ∧ (c.down = false ∧
      inputOf (getCtx s e).defn c = some i ∧ (getCtx s e).dead = false) ∧ (c.chunk < cxNch (getCtx s e).defn ∧
      c.part < chunkParts (getCtx s e).defn (inputBits (getCtx s e).defn i) c.chunk ∧
      c.wid = inWid (cxIn (getCtx s e).defn i)) ∧ c.retx = false) : UpPasses s c j e i :=
  ⟨h.1.1, h.1.2, h.2.1, h.2.2.1.1, h.2.2.1.2.1, h.2.2.1.2.2, h.2.2.2.1, fun r => by rw [h.2.2.2.2] at r; cases r⟩

theorem wit_ContributionRows :
    (inHead (wCirc wCtx) wG.key 0 = some wRedPkt ∧ pkMT wRedPkt = 4 ∧ isHere (wCirc wCtx) wRedPkt = true ∧
      tget 0 (wCirc wCtx).fab.qFlaws (qIngress wG.key 0) = 0 ∧ (wCirc wCtx).sync.frozen = false ∧
      clsRoom (popIn (wCirc wCtx) wG.key (0 : Fin 4)) 7 1 = true ∧ tget 0 (wCirc wCtx).fab.qFlaws 0x201 = 0) ∧
    (UpPasses (wCirc wCtx) (reduceOf wRedPkt) 0 3 0 ∧ (getCtx (wCirc wCtx) 3).st = .idle ∧ rowTaken wCtx 0 false = false) ∧
    (let x := { wCtx with st := .open, parts := [wPart 1] };
      UpPasses (wCirc x) (reduceOf wRedPkt) 0 3 0 ∧ (reduceOf wRedPkt).step = x.step ∧ isDup x (reduceOf wRedPkt) 0 = false ∧
      rowTaken x 0 false = true ∧ ovflRoom (bump (pushRec (popIn (wCirc x) wG.key (0 : Fin 4)) 7 (reduceRec (wCirc x) wRedPkt))
        (at' pgCIR 0x11C) 1) = true) ∧
    (let x := { wCtx with st := .open, done := [(0, 0)] };
      UpPasses (wCirc x) (reduceOf wRedPkt) 0 3 0 ∧ isDup x (reduceOf wRedPkt) 0 = true) ∧
    (let s := { wCirc wCtx with jobs := [] }; residentAcc s (reduceOf wRedPkt).acc = none ∧ ∀ j < 4, (getJob s j).st ≠ .faulted) ∧
    (let s := wCirc { wCtx with st := .open, ovfl := [wPart 1] };
      (getCtx s 3).owner ≠ 0 ∧ (getCtx s 3).st ≠ .released ∧ (getCtx s 3).parts = [] ∧ wPart 1 ∈ (getCtx s 3).ovfl ∧
      rowOf (getCtx s 3).defn 1 = 0 ∧ (wPart 1).input < cxNin (getCtx s 3).defn ∧ tget 0 s.fab.qFlaws (0x100 + 3) = 0) := by
  refine ⟨by decide +kernel, ⟨?_, by decide +kernel⟩, ⟨?_, by decide +kernel⟩, ⟨?_, by decide +kernel⟩, by decide +kernel,
    by decide +kernel⟩ <;> exact upPasses_of _ _ _ _ _ (by decide +kernel)

/-- A narrow context that is not the root, and a voting root whose input is its own cores; both have one chunk ready. -/
def wUp : Ctx := { wCtx with defn := wDef 0 128 1, st := .open, parts := [wPart 0], done := [(0, 0)], sets := 1 }
def wRoot : Ctx := { wUp with defn := wDef (2 ^ 39 + 2 ^ 36) 128 (BitVec.ofNat 64 (2 ^ 15)) }
/-- A delivery of chunk 0 of entry 3 that waits to land. -/
def wDlv : Arrival := { q := 0, writes := [], credit := none, ctx := some (3, 0, 0), get := none, job := 0, cells := 1 }

/-- The job with arrival slots of quadrant 0 in every core cycle of its segment, and its context entry. -/
def wSlotJob : Job :=
  { wJob with
    ctxs := [(0, some 3)], img := some { wImg with segs := [{ wSeg with slots := [{ use := .arrival, key := 0, lo := 0, hi := 1000 }] }] } }

theorem wit_ChunkRows :
    (let s := { wCirc wUp with cready := [(3, 0)], jobs := [] };
      s.cready = (3, 0) :: [] ∧ cxVote wUp.defn = false ∧ readyWait s 3 0 = false ∧ tget 0 s.fab.qFlaws (0x100 + 3) = 0 ∧
      cxRoot wUp.defn = false ∧ wUp.owner ≠ 0 ∧ wUp.st ≠ .released ∧
      getCtx (sendChunk { bump s (at' pgCIR 0x124) (sumChunk s wUp 0).2 with cready := [] } 3 (cxParent wUp.defn) 0 0 false true
        ((sumChunk s wUp 0).1.flatMap (bytesOf 2))) 3 = wUp) ∧
    (let s := { wCirc wRoot with cready := [(3, 0)] };
      cxVote wRoot.defn = true ∧ readyWait s 3 0 = false ∧ cxRoot wRoot.defn = true ∧ wRoot.st ≠ .released ∧
      getCtx (sentDown { bump s (at' pgCIR 0x12C) 0 with cready := [] } 3 0 []) 3 = wRoot) ∧
    (let s := { wCirc { wUp with st := .waitDown } with
        fab := { Fabric.reset with arrive := [wDlv] }, jobs := [(0, wSlotJob)] };
      s.fab.arrive = [] ++ wDlv :: [] ∧ wDlv.ctx = some ((3 : Fin 256).val, 0, 0) ∧ wDlv.credit = none ∧ wDlv.get = none ∧
      arrSlot s wDlv.job wDlv.q.val = true ∧
      tget 0 s.fab.qFlaws (0xA0 + wDlv.q) = 0 ∧ s.flaws = [] ∧ resident (getJob s wDlv.job).st = true ∧
      (chargeCells s (Who.mk (accOf s 0) (some 0)) wDlv.writes).2 = true ∧ (getCtx s 3).owner ≠ 0 ∧
      (getCtx s 3).st ≠ .released ∧ (getCtx s 3).job = 0 ∧
      -- the last landing of delivery 0 credits; one whose context has two chunks is not the last
      (([(0, 0)].filter (fun p => p.1 == 0)).length = cxNch wUp.defn ∧ crdCCE (cxCrd wUp.defn 0) = true) ∧
      ([(0, 0)].filter (fun p => p.1 == 0)).length ≠ cxNch wCtx.defn ∧
      (gaParse (cxDlv wUp.defn 0)).map GA.q = some 0) ∧
    arrSlot { wCirc { wUp with st := .waitDown } with fab := { Fabric.reset with arrive := [wDlv] } } wDlv.job wDlv.q.val = false := by
  decide +kernel

theorem wit_ReduceHeader : 5 < 2 ^ 24 ∧ 7 < 8 ∧ 3 < 4 := by decide

/-! ## Lane groups, packets, messages -/

/-- Lane group 0 in a state of its own; lanes 0 to 3 locked. -/
def wLk (l : Link) (dst : Nat) : State :=
  { wLive with
    links := [(0, l)], clk := { wLive.clk with dst := dst }
    lanes := [0, 1, 2, 3].map (fun n => (n, { Lane.reset with ring := .locked })) }
def wUpLk : Link := { Link.reset 0 with st := .up }
/-- The catalogue entry of a peer: serial 77, node 1, port 1, group 0, valid. -/
def wCat : W128 := BitVec.ofNat 128 (77 * 2 ^ 64 + 2 ^ 51 + 2 ^ 48 + 2 ^ 44)
/-- Registers of the slot's editions: both valid. -/
def wEds : Tab W32 := [(at' pgRTR 0x100, 6)]
def wLane0 : LaneId := { p := 0, l := 0 }
def wLane16 : LaneId := { p := 0, l := 16 }
/-- Lane group 0 in UP with lane 16 free, locked and lit. -/
def wSpare (l : Link) : State := { wLk l 1000 with lanes := [(16, { Lane.reset with role := .free, ring := .locked, lp := true })] }

theorem wit_LinkStatesAndLanes :
    (let s := wLk { Link.reset 0 with st := .align } 60000000;
      grpLocked s 0 = true ∧ (getLink s 0).st = .align ∧ grpMode s 0 = 0 ∧ (getLink s 0).since + 60000000 ≤ s.clk.dst) ∧
    (let s := wLk { Link.reset 0 with st := .credit } 6000000; (getLink s 0).st = .credit ∧ (getLink s 0).since + 6000000 ≤ s.clk.dst) ∧
    (let s := { wLk { Link.reset 0 with st := .ident, exch := true } 6000000 with regs := [(at' pgOPT 0x160, 2)] };
      (getLink s 0).st = .ident ∧ grpMode s 0 = 2 ∧ (getLink s 0).exch = true) ∧
    (let s := wLk { Link.reset 0 with st := .retrain, owner := 5 } 6000000;
      (getLink s 0).st = .retrain ∧ residentAcc s 5 = none ∧ residentAcc { s with jobs := [(0, wJob)] } 5 = some 0 ∧
      edValid s 0 (1 - edActive s 0) = false ∧ edValid { s with regs := wEds } 0 (1 - edActive { s with regs := wEds } 0) = true ∧
      (getLink s 0).flying = [] ∧ (getLink s 0).egress = [] ∧ (getLink s 0).inj = []) ∧
    (Served wLive (pgLNK 0) ∧ enableOk wLive 0 = false ∧ enableOk (wLk { Link.reset 0 with cat := wCat } 1000) 0 = true) ∧
    ((getLink wLive 0).st = .down ∧ (getLink (wLk wUpLk 1000) 0).st ≠ .down ∧
      (getLink (wLk { Link.reset 0 with st := .failed } 1000) 0).st = .failed ∧ 1 ≤ fld (512 : W32) 9 0 ∧ fld (512 : W32) 9 0 ≤ 512) ∧
    (let s := wSpare wUpLk;
      (laneAt s 0 0).role = .slot ∧ slotOf s 0 0 = some (0, 0) ∧ ¬ ((getLink s 0).st = .up ∧ (getLink s 0).failAt = some s.clk.dst) ∧
      pinned s 0 0 = false ∧ spareLane s 0 = some 16 ∧ (laneAt s 0 16).role ≠ .slot) ∧
    (spareLane (wLk wUpLk 1000) 0 = none ∧ residentAcc (wLk wUpLk 1000) 0 = none) := by
  unfold Served; decide +kernel

theorem wit_LinkStatesAndLanes_lanes :
    (tget [] (wLk wUpLk 1000).opt.migs 0 = []) ∧
    (let s := wSpare { wUpLk with failAt := some 1000 };
      (getLink s 0).st = .up ∧ (getLink s 0).failAt = some s.clk.dst ∧ laneRole s 0 0 = .slot ∧ spareLane s 0 = some 16 ∧
      grpMode s 0 ≠ 1 ∧ grpMode s 0 ≠ 2) ∧
    (let s := wLk { Link.reset 0 with st := .align } 1000; spareLane s 0 = none ∧ (getLink s 0).st ≠ .up ∧ slotOf s 0 0 = some (0, 0)) ∧
    (let s := { wLk wUpLk 1000 with regs := [(at' pgOPT 0x160, 2)] };
      grpMode s 0 = 2 ∧ (getLink s 0).st = .up ∧ laneRole s 0 0 = .slot ∧
      grpMode { wLive with regs := [(at' pgOPT 0x160, 2)] } 0 = 2 ∧ (getLink { wLive with regs := [(at' pgOPT 0x160, 2)] } 0).st ≠ .up) ∧
    slotOf wLive 0 17 = none ∧ tget [] wLive.opt.migs 0 = [] ∧ 
    (let s := { wLive with lanes := [(0, { Lane.reset with role := .failed })] }; laneRole s 0 0 ≠ .slot ∧ slotOf s 0 0 = some (0, 0)) ∧
    ¬ 262144 < minSum wLive - 4 * fld (reg wLive (lnkOff 0 0x10C)) 9 0 + 4 * fld (512 : W32) 9 0 ∧
    (let s := { wLive with fab := { Fabric.reset with clsMin := [(2, 262144)] } };
      262144 < minSum s - 4 * fld (reg s (lnkOff 0 0x10C)) 9 0 + 4 * fld (512 : W32) 9 0) := by
  decide +kernel

/-- A SIGNAL packet of accession 5 in one flit, and the record of the peer that wCat names, with its CRC. -/
def wSigPkt : Packet := { hdr := mkHdr 5 5 0 1 9 0 1 0 ||| BitVec.ofNat 128 (2 ^ 73), hdr2 := 0, pay := [] }
def wPeer : List Byte :=
  let b := (bytesOf 32 (77 * 2 ^ 192 + 2 ^ 179 + 2 ^ 176 + 2 ^ 136 + 5 * 2 ^ 160)).drop 4
  bytesOf 4 (crc32c b).toNat ++ b
def wOwn : Link := { wUpLk with owner := 5, role := 1 }

/-- A flit on the wire with the checks that the receiver of group 0 asks for: `ct` is its payload as it travels, sealed
under the key that no derivation has set yet. -/
def wWire (ty seq : Nat) (nak : Bool) (ct : List Byte) : RxWire :=
  let h := mkFl ty seq 0 nak 0 (if ty = 1 then 0 else 0xFF) 0 0 false
  let tag := flitTag 0 (flitNonce 0 (rxDir 0) false) h ct (decide (ty = 3))
  { flit := { hdr := h, pay := ct, tag := tag, crc := crc32c (bytesOf 8 h.toNat ++ ct ++ tag) }, fec := [] }
/-- The payload `b` enciphered as group 0 deciphers it. -/
def wCt (b : List Byte) : List Byte := Aes.gcmCrypt (keyOctets 0) (flitNonce 0 (rxDir 0) false) (fit 0 232 b)

theorem crc_of (s : State) (ty seq : Nat) (nak : Bool) (ct : List Byte) :
    (openFlit s 0 (wWire ty seq nak ct).flit).crcOk = true := by simp [openFlit, wWire]

theorem tag_of (s : State) (ty seq : Nat) (nak : Bool) (ct : List Byte)
    (h : let x := mkFl ty seq 0 nak 0 (if ty = 1 then 0 else 0xFF) 0 0 false
      tget 0 (getLink s 0).keys (2 * rxEpochOf (getLink s 0) x + rxDir 0) = 0 ∧ (getLink s 0).fcRx = 0 ∧ bit x 12 = false ∧
      (flType x = 3 ↔ ty = 3)) : (openFlit s 0 (wWire ty seq nak ct).flit).tagOk = true := by
  obtain ⟨hk, hf, hb, ht⟩ := h
  simp only [openFlit, wWire, hk, hf, hb]
  simp [ht]

theorem goodFlit_of (s : State) (ty seq : Nat) (ct : List Byte)
    (h : (let x := mkFl ty seq 0 false 0 (if ty = 1 then 0 else 0xFF) 0 0 false
      tget 0 (getLink s 0).keys (2 * rxEpochOf (getLink s 0) x + rxDir 0) = 0 ∧ (getLink s 0).fcRx = 0 ∧ bit x 12 = false ∧
      (flType x = 3 ↔ ty = 3)) ∧ (flType (wWire ty seq false ct).flit.hdr = ty ∧ (getLink s 0).role ≠ 2) ∧
      grpMode s 0 = 0 ∧ receives s 0 = true ∧ flNak (wWire ty seq false ct).flit.hdr = false) :
    GoodFlit s 0 ty (wWire ty seq false ct) :=
  ⟨h.2.1.1, h.2.1.2, h.2.2.1, h.2.2.2.1, crc_of _ _ _ _ _, tag_of _ _ _ _ _ h.1, h.2.2.2.2⟩

/-- Three idle payload bytes that do not read as a record. -/
def wIdleCt : List Byte := List.replicate 232 0

theorem wit_ReceivedFlits :
    (let s := wLk wOwn 1000; let w := wWire 1 1 false (wCt (pktBytes wSigPkt));
      GoodFlit s 0 1 w ∧ (getLink s 0).st = .up ∧ flSeq w.flit.hdr = ((getLink s 0).rxSeq + 1) % 4096 ∧
      wOwn.owner ≠ 0 ∧ pkAcc wSigPkt = wOwn.owner.toNat ∧ pkMT wSigPkt < 6 ∧ badMC s wSigPkt = false ∧
      flSeq (wWire 1 7 false []).flit.hdr ≠ ((getLink s 0).rxSeq + 1) % 4096) ∧
    (let s := { wLk wOwn 1000 with regs := [(at' pgOPT 0x160, 2)] };
      grpMode s 0 = 2 ∧ (getLink s 0).role ≠ 2 ∧ (getLink s 0).st = .up) ∧
    (GoodFlit (wLk wUpLk 1000) 0 0 (wWire 0 0 false wIdleCt) ∧
      recOf (openFlit (wLk wUpLk 1000) 0 (wWire 0 0 false wIdleCt).flit).pay = none ∧
      (getLink (wLk { Link.reset 0 with st := .credit, exch := true } 1000) 0).st = .credit) ∧
    (let l := { wUpLk with seq := 1, replay := [{ seq := 1, vc := 0, at' := 0, pay := [] }] };
      let w := wWire 0 0 true wIdleCt;
      flNak w.flit.hdr = true ∧ (getLink (wLk l 1000) 0).st = .up ∧ unacked (fieldsTaken 1000 { l with fcRx := 1 } w.flit.hdr) ≠ [] ∧
      ∀ f ∈ unacked (fieldsTaken 1000 { l with fcRx := 1 } w.flit.hdr), f.tries < 4) ∧
    (let s := wLk { Link.reset 0 with st := .ident, cat := wCat, owner := 5, role := 1 } 1000; let w := wWire 2 0 false (fit 0 232 wPeer);
      let f := openFlit s 0 w.flit;
      let r : W256 := BitVec.ofNat 256 (ofBytes (f.pay.take 32));
      flType w.flit.hdr = 2 ∧ fld r 31 0 = (crc32c ((f.pay.drop 4).take 28)).toNat ∧ identReason s 0 r = none ∧
      identReason (wLk { Link.reset 0 with st := .ident } 1000) 0 r = some 1) ∧
    (let f := openFlit wLive 0 (wWire 2 0 false (fit 0 232 [])).flit;
      ¬ fld (BitVec.ofNat 256 (ofBytes (f.pay.take 32)) : W256) 31 0 = (crc32c ((f.pay.drop 4).take 28)).toNat) ∧
    (let w := wWire 3 0 false (fit 0 232 (bytesOf 9 500 ++ bytesOf 9 300 ++ bytesOf 9 400));
      GoodFlit (wLk wUpLk 1000) 0 3 w ∧ ofBytes (((openFlit (wLk wUpLk 1000) 0 w.flit).pay.drop 9).take 9) ≠ 0 ∧
      isRoot (wLk wUpLk 1000) = false ∧ (wLk wUpLk 1000).bup.ready = true) ∧
    (let l := { wUpLk with rxEpoch := 1 }; rxEpochOf l (wWire 1 1 false []).flit.hdr ≠ l.rxEpoch ∧
      bareFlit (wLk l 1000) 0 (wWire 1 1 false []).flit.hdr = false ∧
      rxEpochOf wUpLk (wWire 1 1 false []).flit.hdr = wUpLk.rxEpoch) ∧
    (wUpLk.lanes.Nodup ∧ wUpLk.lanes.length = [some FecOut.corrected, none, some .uncorrectable, none].length) ∧
    ({ wWire 1 1 false [] with flit := { (wWire 1 1 false []).flit with crc := 0 } }.flit.hdr = (wWire 1 1 false []).flit.hdr ∧
      (openFlit (wLk wOwn 1000) 0 { hdr := 0, pay := [], tag := [], crc := 0 }).crcOk = false) := by
  refine ⟨⟨goodFlit_of _ _ _ _ (by decide +kernel), by decide +kernel⟩, by decide +kernel,
    ⟨goodFlit_of _ _ _ _ (by decide +kernel), by decide +kernel⟩, by decide +kernel, by decide +kernel, by decide +kernel,
    ⟨goodFlit_of _ _ _ _ (by decide +kernel), by decide +kernel⟩, by decide +kernel, by decide +kernel, by decide +kernel⟩

/-- The packet that the sealed data flit above carries comes out whole (R270, R279, R363). -/
theorem wit_ReceivedFlits_packet :
    let f := openFlit (wLk wOwn 1000) 0 (wWire 1 1 false (wCt (pktBytes wSigPkt))).flit
    parseStream (streamIn wOwn f.hdr f.pay).length (streamIn wOwn f.hdr f.pay) = ([wSigPkt], []) := by decide +kernel

/-- Two ends of one pair: what one seals the other may open. -/
theorem wit_ReceivedFlits_pair :
    flType (mkFl 1 1 0 false 0 0 0 0 false) = 1 ∧ bit (mkFl 1 1 0 false 0 0 0 0 false) 12 = (getLink wLive 4).kep ∧
    (grpMode wLive 4, grpMode wLive 0) ∈ [(0, 0), (1, 2), (2, 1)] ∧ txDir 4 = rxDir 0 ∧ (getLink wLive 0).fcRx = (getLink wLive 4).fcTx ∧
    tget 0 (getLink wLive 0).keys (2 * rxEpochOf (getLink wLive 0) (mkFl 1 1 0 false 0 0 0 0 false) + rxDir 0)
      = tget 0 (getLink wLive 4).keys (2 * (getLink wLive 4).epoch + txDir 4) := by decide +kernel

def wRFlit : RFlit := { seq := 1, vc := 0, at' := 0, pay := [] }
/-- Lane group 0 in UP with one packet in egress VC `v`; node 0 reaches node 1 through port 4. -/
def wEgr (v : Nat) (p : Packet) (lim : Nat) : State :=
  wLk { wUpLk with egress := [(v, [p])], peerLim := lim } 1000

theorem wit_SentFlits :
    (let s := wLk { wUpLk with resend := [wRFlit] } 1000;
      (getLink s 0).role ≠ 2 ∧ linkClock s 0 = true ∧ grpMode s 0 = 0 ∧ (getLink s 0).resend = wRFlit :: [] ∧
      tget 0 s.fab.qFlaws 0 = 0) ∧
    (let s := wLk wUpLk 1000;
      (getLink s 0).resend = [] ∧ (tget [] s.opt.migs 0).any (fun m => decide (m.g.val = 0) && switchDue m) = false ∧
      (getLink s 0).replay.length < 768 ∧ sendable s 0 = []) ∧
    768 ≤ (getLink (wLk { wUpLk with replay := List.replicate 768 wRFlit } 1000) 0).replay.length ∧
    (let s := wEgr 0 wSigPkt 0; sendable s 0 ≠ [] ∧ ∀ v ∈ sendable s 0, freeCred (getLink s 0) v = 0) ∧
    (let s := wEgr 0 wSigPkt 256; let l := getLink s 0;
      (sendable s 0).find? (fun v => decide (0 < freeCred l v)) = some 0 ∧ tget [] l.backlog 0 = [] ∧
      tget [] l.egress 0 = [wSigPkt] ∧ mayStart s 0 wSigPkt = true ∧ wSigPkt.pay.length ≤ 200) ∧
    (let p := { wSigPkt with pay := List.replicate 201 0 };
      200 < p.pay.length ∧ tget [] (getLink (wEgr 0 p 256) 0).egress 0 = [p] ∧ mayStart (wEgr 0 p 256) 0 p = true) ∧
    (let s := { wLk wUpLk 1000 with regs := [(at' pgOPT 0x160, 1)] };
      grpMode s 0 = 1 ∧ (getLink s 0).st = .up ∧ tget [] (getLink s 0).backlog 2 = [] ∧ startable s 0 2 = []) ∧
    (let s := { wLk { wUpLk with backlog := [(2, [0])] } 1000 with regs := [(at' pgOPT 0x160, 1)] };
      grpMode s 0 = 1 ∧ tget [] (getLink s 0).backlog 2 ≠ []) ∧
    (let s := { wLk wUpLk 1000 with regs := [(at' pgOPT 0x160, 2)] };
      grpMode s 0 = 2 ∧ (getLink s 0).st ≠ .down ∧ (getLink s 0).st ≠ .failed ∧ (getLink s 0).st ≠ .halt) ∧
    (∀ st ∈ [LinkSt.align, .ident, .credit, .retrain],
      (getLink (wLk { Link.reset 0 with st := st, locked := true } 60000) 0).trainAt + 60000 ≤ 60000) ∧
    (getLink (wLk { wUpLk with fcTx := 2 ^ 32 } 1000) 0).epoch < (getLink (wLk { wUpLk with fcTx := 2 ^ 32 } 1000) 0).fcTx / 2 ^ 32 ∧
    (∀ n ∈ [3, 4], let s := wLk { wUpLk with seq := 1, replay := [{ wRFlit with tries := n }] } 65536;
      (getLink s 0).syncAt + 65536 ≤ s.clk.dst ∧ (getLink s 0).ackAt + 6000 ≤ s.clk.dst ∧
      unacked (getLink s 0) = [{ wRFlit with tries := n }]) := by decide +kernel

/-- A packet of accession 5 from node 1, one of n, its second half and payload. -/
def wPk (mt h2 n : Nat) (pay : List Byte) : Packet :=
  { hdr := mkHdr mt 5 0 1 9 0 n pay.length ||| BitVec.ofNat 128 (2 ^ 73), hdr2 := BitVec.ofNat 128 h2, pay := pay }
/-- The module with that packet at the head of its queue, arrival cells, and a region that allows everything. -/
def wMsg (p : Packet) : State :=
  { wLive with
    jobs := [(0, { wJob with img := some { wImg with regions := [BitVec.ofNat 128 (4096 * 2 ^ 36 + 0xF * 2 ^ 32)] } })]
    links := [(0, { Link.reset 0 with ingress := [(0, [p])] })], fab := { Fabric.reset with clsMin := [(3, 100)] } }
def wPut : Packet := wPk 1 0 1 [1, 2]
/-- A PUT whose address lies outside every region. -/
def wPutBad : Packet := wPk 1 (8192 * 2 ^ 64) 1 [1, 2]
def wGet (addr : Nat) : Packet := wPk 2 (addr * 2 ^ 64 + 64 * 2 ^ 48 + 2 ^ 32) 1 []
def wReply : Packet := wPk 3 (2 * 2 ^ 90) 1 [7]
/-- An outstanding GET with tag 2. -/
def wTag : GetTag := { tag := 2, core := wC, mv := { wMv with op := 3, md := wMdOf 3 }, got := [] }
def wMsgGet (p : Packet) : State := { wMsg p with fab := { (wMsg p).fab with gets := [(0, [wTag])] } }
/-- The entry of message 9 from node 1, ended or open since 0. -/
def wEntry (tomb : Option Nat) : Msg := { q := 0, acc := 5, src := 1, mid := 9, n := 1, got := [], open' := 0, tomb := tomb, link := 0 }

theorem headIs_of (s : State) (g : Grp) (vc : Fin 4) (mt : Nat) (p : Packet)
    (h : (inHead s g.key vc = some p ∧ pkMT p = mt) ∧ isHere s p = true ∧ tget 0 s.fab.qFlaws (qIngress g.key vc) = 0 ∧
      mustWait s p = false) : HeadIs s g vc mt p := ⟨h.1.1, h.1.2, h.2.1, h.2.2.1, .inr h.2.2.2⟩

theorem wit_MessagePackets :
    (residentAcc (passedOn (wMsg wPut) wG 0 wPut) 5 = some 0 ∧ HeadIs (wMsg wPut) wG 0 1 wPut ∧
      quadRst (passedOn (wMsg wPut) wG 0 wPut) (h2Addr wPut / 2 ^ 39 % 4) = false ∧
      msgDup (passedOn (wMsg wPut) wG 0 wPut) wPut = false ∧ msgFull (passedOn (wMsg wPut) wG 0 wPut) 0 wPut = false ∧
      putFits (passedOn (wMsg wPut) wG 0 wPut) wPut) ∧
    (HeadIs (wMsg (wPk 5 0 2 [])) wG 0 5 (wPk 5 0 2 []) ∧ msgFull (passedOn (wMsg (wPk 5 0 2 [])) wG 0 (wPk 5 0 2 [])) 0 (wPk 5 0 2 []) = false) ∧
    (HeadIs (wMsgGet wReply) wG 0 3 wReply ∧ tagOf (passedOn (wMsgGet wReply) wG 0 wReply) wReply = some wTag ∧
      ∀ b ∈ wTag.got, b.1 ≠ h2Roff wReply) ∧
    (HeadIs (wMsg wReply) wG 0 3 wReply ∧ tagOf (passedOn (wMsg wReply) wG 0 wReply) wReply = none) ∧
    msgDup { wMsg wPut with fab := { Fabric.reset with msgs := [wEntry (some 0)] } } wPut = true ∧
    (HeadIs (wMsg wPutBad) wG 0 1 wPutBad ∧ ¬ putFits (passedOn (wMsg wPutBad) wG 0 wPutBad) wPutBad) ∧
    (HeadIs (wMsg (wGet 0)) wG 0 2 (wGet 0) ∧ (gaParse (h2Addr (wGet 0))).map GA.byte = some 0 ∧
      remoteOk (passedOn (wMsg (wGet 0)) wG 0 (wGet 0)) 5 0 0 63 0 63 33 = true ∧
      remoteOk (passedOn (wMsg (wGet 8192)) wG 0 (wGet 8192)) 5 8192 8192 8255 8192 8255 33 = false) := by
  refine ⟨⟨by decide +kernel, headIs_of _ _ _ _ _ (by decide +kernel), by decide +kernel, by decide +kernel, by decide +kernel,
      { node := 0, space := 0, q := 0, st := 0, cl := 0, k := 0, fo := 0, byte := 0 }, by decide +kernel⟩,
    ⟨headIs_of _ _ _ _ _ (by decide +kernel), by decide +kernel⟩, ⟨headIs_of _ _ _ _ _ (by decide +kernel), by decide +kernel⟩,
    ⟨headIs_of _ _ _ _ _ (by decide +kernel), by decide +kernel⟩, by decide +kernel,
    ⟨headIs_of _ _ _ _ _ (by decide +kernel), ?_⟩, headIs_of _ _ _ _ _ (by decide +kernel), by decide +kernel⟩
  rintro ⟨x, hx, h⟩
  have e : gaParse (h2Addr wPutBad)
      = some { node := 0, space := 0, q := 0, st := 0, cl := 0, k := 0, fo := 0, byte := 8192 } := by decide +kernel
  rw [e] at hx; cases hx
  exact absurd h (by decide +kernel)

/-- Byte b of HBM of quadrant 0. -/
def wGA (b : Nat) : GA := { node := 0, space := 0, q := 0, st := 0, cl := 0, k := 0, fo := 0, byte := b }

/-- A message that waits to land, with a credit or a GET's tag, and the GET request that waits for quadrant 0. -/
def wArr (credit : Option (Clu × Nat × Nat)) (get : Option Nat) (offs : List (Nat × Nat)) : Arrival :=
  { q := 0, writes := [(poolAddr 0 0 0, 1)], credit := credit, ctx := none, get := get, job := 0, cells := 1, offs := offs }
def wLand (a : Arrival) : State := { wRun with jobs := [(0, wSlotJob)], fab := { Fabric.reset with arrive := [a], gets := [(0, [wTag])] } }
def wReq : GetReq := { q := 0, pkt := wGet 0, g := wG }

theorem wit_MessageLanding :
    (FirstFor 0 (wLand (wArr none none [])).fab.arrive [] (wArr none none []) [] ∧
      arrSlot (wLand (wArr none none [])) 0 0 = true ∧ arrSlot { wLand (wArr none none []) with jobs := [(0, wJob)] } 0 0 = false ∧
      tget 0 (wLand (wArr none none [])).fab.qFlaws (0xA0 + (0 : Fin 4)) = 0 ∧ (wLand (wArr none none [])).flaws = [] ∧
      resident (getJob (wLand (wArr none none [])) 0).st = true ∧
      (chargeCells (wLand (wArr none none [])) (Who.mk 5 (some 0)) (wArr none none []).writes).2 = true) ∧
    (FirstFor 0 (wLand (wArr (some (wClu, 3, 2)) none [])).fab.arrive [] (wArr (some (wClu, 3, 2)) none []) []) ∧
    (FirstFor 0 (wLand (wArr none (some 2) [(0, 64)])).fab.arrive [] (wArr none (some 2) [(0, 64)]) [] ∧
      (tget [] (wLand (wArr none (some 2) [])).fab.gets 0).find? (fun y => y.tag == 2) = some wTag ∧
      mdRows wTag.mv.md * mdRowlen wTag.mv.md ≤ sumNat ((wTag.got ++ [(0, 64)]).map Prod.snd) ∧
      sumNat ((wTag.got ++ [(0, 32)]).map Prod.snd) < mdRows wTag.mv.md * mdRowlen wTag.mv.md ∧ wTag.mv.cc = none) ∧
    (let s := { wRun with jobs := [(0, wSlotJob)], fab := { Fabric.reset with getQ := [wReq] } };
      arrSlot s 0 0 = true ∧ arrSlot { s with jobs := [(0, wJob)] } 0 0 = false ∧ s.flaws = [] ∧ gaParse (h2Addr wReq.pkt) = some (wGA 0) ∧
      s.fab.getQ = [] ++ wReq :: [] ∧ wReq.q = 0 ∧ residentAcc s (pkAcc wReq.pkt) = some 0 ∧
      (chargeEnd { s with fab := { s.fab with getQ := [] } } (Who.mk 5 (some 0)) (End.mk (wGA 0) 0 1 64 0 true false) (s.clk.dst / 4)).2 = true) ∧
    (let s := { wLive with clk := { wLive.clk with dst := 24000000 }, fab := { Fabric.reset with msgs := [wEntry none] } };
      s.fab.msgs.find? (fun m => isMsg 0 5 1 9 m && m.tomb.isNone
        && decide (m.open' + 4 * ((reg s (at' pgRTR 0x110)).toNat * 6000) ≤ s.clk.dst)) = some (wEntry none)) := by
  unfold FirstFor; decide +kernel

/-- The router of node 0 with node 1 behind port 4, group 0, in edition 0; a packet for node 1 in transit. -/
def wTransit : Packet := { wPk 5 0 1 [] with hdr := mkHdr 5 5 1 2 9 0 1 0 ||| BitVec.ofNat 128 (2 ^ 73) }
def wRouter (tbl : Tab W32) : State := { wMsg wTransit with fab := { Fabric.reset with tbl := tbl } }
/-- The job with an injection window of group 0 from 200 to 250 core cycles, one packet waiting. -/
def wInject (dst : Nat) : State :=
  { wLive with
    clk := { wLive.clk with dst := dst }
    jobs := [(0, { wJob with img := some { wImg with segs := [{ wSeg with windows := [(0, [(200, 250)])] }] } })]
    links := [(0, { wOwn with inj := [wTransit] })] }

theorem wit_RouterPackets :
    (let s := wRouter [(3, 4), (5, 65536)];
      inHead s wG.key (0 : Fin 4) = some wTransit ∧ isHere s wTransit = false ∧ tget 0 s.fab.qFlaws (qIngress wG.key (0 : Fin 4)) = 0 ∧
      edSlot s 5 = some 0 ∧ pkHops wTransit + 1 < 80 ∧ nextHop s 0 0 1 = .port 4 ∧ bestLive (popIn s wG.key (0 : Fin 4)) 0 0 4 2 false = some 0 ∧
      (outVc s 0 0 4 true false) = 2 ∧ edFailed (popIn s wG.key (0 : Fin 4)) 0 0 wTransit = false) ∧
    (residentAcc (wRouter []) 5 = some 0 ∧ nextHop (wRouter []) 0 0 1 = .none) ∧
    (runningAcc (wInject 900) (getLink (wInject 900) 0).owner.toNat = some 0 ∧ (getLink (wInject 900) 0).inj = [wTransit] ∧
      windowOpen (wInject 900) 0 0 = true ∧ windowOpen (wInject 1000) 0 0 = false ∧ (getLink (wInject 900) 0).st ≠ .failed ∧
      tget 0 (wInject 900).fab.qFlaws 0x80 = 0) ∧
    (∃ a ∈ [{ wSeg with windows := [(0, [(200, 250)])] }], ∃ w ∈ tget [] a.windows 0,
      (getJob (wInject 1000) 0).s + a.origin + 4 * w.2 = jobTime (wInject 1000) (getJob (wInject 1000) 0)) ∧
    (¬ ∃ a ∈ [{ wSeg with windows := [(0, [(200, 250)])] }], ∃ w ∈ tget [] a.windows 0,
      (getJob (wInject 900) 0).s + a.origin + 4 * w.2 = jobTime (wInject 900) (getJob (wInject 900) 0)) ∧
    (let s := { wInject 900 with links := [(0, { wOwn with inj := [wTransit], st := .failed })] };
      windowOpen s 0 0 = true ∧ (getLink s 0).st = .failed ∧ edValid s 0 (1 - pkED wTransit) = false ∧
      residentAcc s (pkAcc wTransit) = some 0) ∧
    (let s := wRouter [(3, 4), (5, 65536)]; liveGrps (popIn { s with links := [(0, { Link.reset 0 with ingress := [(0, [wTransit])] })] } wG.key (0 : Fin 4)) 0 1 0 false = [] ∧
      residentAcc s (pkAcc wTransit) = some 0) := by decide +kernel

theorem wit_FabricRegisters :
    Served wLive pgRTR ∧ Served wLive pgQP ∧ (getJob wLive 0).st ≠ .running ∧
    ((getJob wRun 0).st = .running ∧ edActive wRun 0 = 0) ∧ (16000 : W32).toNat ≤ 16000 ∧ 16000 < (16001 : W32).toNat ∧
    (let s := { wLive with regs := [(at' pgQP 0x100, 2)] };
      fld (reg s (at' pgQP 0x100)) 3 0 = 2 ∧ minSum s - clsMinOf s 2 + (5 : W32).toNat ≤ 262144 ∧
      262144 < minSum s - clsMinOf s 2 + (300000 : W32).toNat) ∧
    (getCtx (wCirc wCtx) (0x103 - 0x100)).owner ≠ 0 ∧
    (∀ n ∈ [0x80, 0x97, 0x20, 0x7F, 0xA0, 0xA3, 0xB0, 0xB3, 0x100, 0x103, 0x1FF, 0x200, 0x201, 0x202], bit (BitVec.ofNat 32 (2 ^ 31 + n) : W32) 31 = true ∧
      fld (BitVec.ofNat 32 (2 ^ 31 + n) : W32) 11 0 = n) := by unfold Served; decide +kernel

/-- Lane 0 in a state of its own, at a Datestamp. -/
def wLn (x : Lane) (dst : Nat) : State := { wLive with lanes := [(0, x)], clk := { wLive.clk with dst := dst } }
/-- Lanes 16 of ports 0 and 1 free; their cell as given. -/
def wCel (c : LaneCell) : State :=
  { wLive with cells := [(16, c)], lanes := [(16, { Lane.reset with role := .free }), (34, { Lane.reset with role := .free })]
               regs := [(at' pgOPT 0x180, 16 * 256)] }
def wCell16 : CellId := { axis := 0, i := 16 }

theorem wit_CellsRingsLasers :
    (let s := wCel LaneCell.reset;
      Served s pgOPT ∧ fld (reg s (at' pgOPT 0x180)) 1 0 < 3 ∧ fld (reg s (at' pgOPT 0x180)) 12 8 = 16 ∧
      6 ≤ fld (7 : W32) 2 0 ∧ (getCell s 16).state = fld (0 : W32) 2 0 ∧ (getCell s 16).tapf = fld (0 : W32) 19 16 ∧
      (getCell s 16).state ≠ fld (2 : W32) 2 0 ∧ (laneAt s 0 16).role ≠ .slot ∧ (laneAt s 1 16).role ≠ .slot) ∧
    (getCell (wCel { LaneCell.reset with busy := true, state := 2 }) wCell16.key).busy = true ∧
    ((getLane (wLn { Lane.reset with ring := .sweep, role := .free, sweeps := 2 } 12000000) 0).ring = .sweep ∧ 0 + 12000000 ≤ 12000000) ∧
    (let s := wLn { Lane.reset with ring := .acquire } 6000000;
      (getLane s 0).ring = .acquire ∧ (getLane s 0).ringAt + 6000000 ≤ s.clk.dst ∧ migNew s 0 0 = none ∧
      ∀ i < 18, (laneAt s 0 i).stage < 2) ∧
    (let s := wLn { Lane.reset with ring := .locked, role := .free } 1000; (getLane s 0).ring = .locked ∧ 250 < (-251 : Int).natAbs ∧
      (getLane s 0).role ≠ .slot) ∧
    ((getLane (wLn { Lane.reset with lp := true } 1000) 0).lp = true ∧ (-3000 : Int) ≤ -3000) ∧
    (let s := { wLn { Lane.reset with ring := .locked, laser := .safe, lp := true } 6000000 with
        opt := { Optics.reset with temp := 600 }, cells := [(0, { LaneCell.reset with cur := 1 })] };
      riseOk s 0 0 = true ∧ migNew s 0 0 = none ∧ riseOk wLive 0 0 = false) ∧
    (let c := { LaneCell.reset with locked := true }; (getCell (wCel c) 16).locked = true ∧ 200 < 201) ∧
    (let s := { wLive with opt := { Optics.reset with hot := true, temp := 749 }, clk := { wLive.clk with dst := 6000000000 } };
      s.opt.hot = true ∧ s.opt.temp < 750 ∧ s.opt.coolAt + 6000000000 ≤ s.clk.dst) := by unfold Served; decide +kernel

/-- Lanes that serve no slot, a ring that has swept less than thrice, light that goes and stays, cells that refuse a request. -/
theorem wit_CellsRingsLasers_more :
    (Unserved (wCel LaneCell.reset) 0 16 ∧ Unserved (wCel LaneCell.reset) 1 16) ∧
    (let s := wLn { Lane.reset with ring := .sweep, role := .free, sweeps := 2 } 12000000;
      Unserved s 0 0 ∧ (getLane s 0).role ≠ .slot ∧ (getLane s 0).role ≠ .retired) ∧
    (let s := wLn { Lane.reset with ring := .locked, role := .free } 1000; Unserved s 0 0) ∧
    (let s := wLn { Lane.reset with ring := .sweep } 12000000; (getLane s 0).sweeps < 2 ∧ (getLane s 0).ringAt + 12000000 ≤ s.clk.dst) ∧
    (-2500 : Int) ≤ -2500 ∧ fld (3 : W32) 2 0 = 3 ∧ fld (3 : W32) 19 16 = 0 ∧ fld (0x10000 : W32) 2 0 = 0 ∧ fld (0x10000 : W32) 19 16 ≠ 0 ∧
    (12 : Nat) ≤ 20 := by unfold Unserved; decide +kernel

/-- Lane group 0 in UP with lane 16 free, and one migration of slot 0 to it. -/
def wMig (init : Bool) (sent got : List Nat) : Migration :=
  { txn := 4, slot := 0, g := 0, old := 0, new := 16, cal := false, init := init, start := 0, sentAt := 0, sent := sent, got := got }
def wMoving (ms : List Migration) (dst : Nat) : State :=
  { wSpare wUpLk with opt := { Optics.reset with migs := [(0, ms)] }, clk := { wLive.clk with dst := dst } }
def wRecd (opc : Nat) : LaneRec := { opc := opc, slot := 0, old := 0, new := 16, txn := 4 }
/-- Cell 16 of axis 0 receives, both its lanes and lane 17 are free. -/
def wCal : State :=
  { wLive with
    cells := [(16, { LaneCell.reset with cur := 1, state := 1 })], clk := { wLive.clk with dst := 1200000000 }
    lanes := [16, 17, 34, 35].map (fun n => (n, { Lane.reset with role := .free })) }

theorem wit_FadesAndLaneRecords :
    (let s := wLn { Lane.reset with laser := .full } 1000; (getLane s 0).laser = .full ∧ (getLane s 0).role ≠ .retired ∧ (getLane s 0).stage = 0) ∧
    (let s := { wSpare wUpLk with lanes := [(0, { Lane.reset with laser := .full, stage := 1 }), (16, { Lane.reset with role := .free })] };
      (getLane s 0).stage = 1 ∧ (getLane s 0).role = .slot ∧ slotOf s 0 0 = some (0, 0) ∧ pinned s 0 0 = false ∧ migrating s 0 0 = false ∧
      (getLink s 0).st = .up ∧ grpMode s 0 = 0 ∧ freeLane s 0 = some 16) ∧
    (let s := { wLn { Lane.reset with laser := .safe, stage := 2, role := .reserve } 1000 with regs := [(at' pgOPT 0x140, 1)] };
      (getLane s 0).stage = 2 ∧ (getLane s 0).role = .reserve ∧ pinned wLive 0 0 = false ∧ pinned s 0 0 = true) ∧
    (let s := wMoving [] 1000;
      (getLink s 0).st = .up ∧ grpMode s 0 = 0 ∧ tget [] s.opt.migs 0 = [] ∧ (getLink s 0).lanes[(0 : Fin 4).val]? = some 0 ∧
      laneRole s 0 16 = .free ∧ pinned s 0 16 = false ∧ (laneAt s 0 16).laser = .off) ∧
    (migOf (wMoving [wMig true [2, 1] []] 1000) 0 (wRecd 2) = some (wMig true [2, 1] []) ∧
      atBoundary (getLink (wMoving [] 1000) 0) = true ∧ 2 ∈ [2, 1] ∧ 3 ∉ [2, 1] ∧ 4 ∉ ([] : List Nat)) ∧
    (migOf (wMoving [wMig true [3, 2, 1] [3, 2]] 1000) 0 (wRecd 4) = some (wMig true [3, 2, 1] [3, 2]) ∧
      (laneAt (wMoving [] 1000) 0 0).stage < 3) ∧
    (migOf (wMoving [wMig false [2] []] 1000) 0 (wRecd 5) = some (wMig false [2] []) ∧ (wMig false [2] []).init = false) ∧
    (let s := { wMoving [] 1000 with lanes := [(0, { Lane.reset with role := .calibrating })] };
      s.opt.calOn = none ∧ (laneAt s 0 0).role = .calibrating ∧ ∀ i < 18, (laneAt s 0 i).stage < 2) ∧
    (let s := { wMoving [] 1000 with opt := { Optics.reset with calOn := some { axis := 0, i := 0 } } };
      s.opt.calOn = some { axis := 0, i := 0 } ∧ (laneAt s 0 0).role ≠ .calibrating ∧ (laneAt s 1 0).role ≠ .calibrating) ∧
    (let s := { wMoving [wMig true [1] []] 60000000 with lanes := [] };
      2 ∉ (wMig true [1] []).got ∧ 0 + 60000000 ≤ s.clk.dst ∧ freeLane s 0 = none ∧ unanswered (wMig true [1] []) = some 1) ∧
    (bit (reg wCal (at' pgOPT 0x100)) 0 = true ∧ wCal.opt.calOn = none ∧ wCal.bup.isLocal = true ∧
      wCal.opt.calAt + (reg wCal (at' pgOPT 0x104)).toNat * 6000000 ≤ wCal.clk.dst ∧ calPick wCal 0 = some 16 ∧
      (spareBeside wCal 0 16 && spareBeside wCal 1 16) = true ∧ (laneAt wCal 0 16).role = .free ∧ (laneAt wCal 1 16).role = .free ∧
      spareBeside { wCal with lanes := [] } 0 16 = false) := by
  refine ⟨?_, ?_, ?_, ?_, ?_, ?_, ?_, ?_, ?_, ?_, ?_⟩ <;> decide +kernel

/-- The other forms: a free lane that fades, a slot that cannot move yet, one that finds no lane at -3 dB, a request that does
not fit, the new lane once it is locked, an ended migration whose ABORT is not answered. -/
theorem wit_FadesAndLaneRecords_more :
    (let s := wLn { Lane.reset with laser := .full, stage := 1, role := .free } 1000; laneRole s 0 0 = .free ∧ migNew s 0 0 = none) ∧
    (let s := wLn { Lane.reset with laser := .full, stage := 1 } 1000; laneRole s 0 0 = .slot ∧ movable s 0 0 = none) ∧
    (let s := wLn { Lane.reset with laser := .full, stage := 2 } 1000;
      laneRole s 0 0 = .slot ∧ someFree s 0 = false ∧ s.opt.calOn = none ∧ tget [] s.opt.migs 0 = []) ∧
    laneFree (wMoving [] 1000) 0 16 = true ∧
    (migOf (wMoving [] 1000) 0 { wRecd 1 with old := 5 } = none ∧ (getLink (wMoving [] 1000) 0).lanes[(0 : Fin 4).val]? ≠ some 5) ∧
    (let m := wMig true [1] []
      let s := { wMoving [m] 1000 with lanes := [0, 1, 2, 3, 16].map (fun n => (n, { Lane.reset with ring := .locked, laser := .full })) };
      grpLocked s 0 = true ∧ 2 ∉ m.sent ∧ (laneAt s 0 16).laser = .full ∧ (laneAt s 0 16).ring = .locked ∧ 2 ∉ m.got ∧
      migOf s 0 (wRecd 2) = some m ∧ (getLink s 0).role ≠ 2) ∧
    (let m := wMig true [5, 1] []
      let s := { wMoving [] 60000 with opt := { Optics.reset with past := [(m.key 0, some m)] } };
      repeatOf s 0 4 = some (false, m, 5) ∧ (getLink s (4 * 0 + m.g)).st = .up) ∧
    (wCal.opt.calAxis % 3 = 0 ∧ ∀ b, b < 3 → b ≠ 0 → calPick wCal b = none) := by decide +kernel

theorem wit_TopologyWrites :
    (Served wLive pgTOP ∧ anyResident wLive = false ∧ allGrps wLive (fun st => st == .down) = true ∧ anyResident wRun = true) ∧
    (fld (reg wLive (at' pgTOP 0x10C)) 2 0 < 6 ∧ (getLink wLive 0).st = .down) ∧
    ((getLink (wLk wUpLk 1000) 0).st ≠ .down ∧ (getLink (wLk wUpLk 1000) 0).st ≠ .halt) ∧
    (allGrps wLive catOpen = true ∧ allGrps (wLk wUpLk 1000) catOpen = false) := by unfold Served; decide +kernel

/-! ## Custody, bring-up, power, host -/

/-- A custody record with nonce 1. -/
def wRec (op tgt acc arg : Nat) : BitVec 2048 := BitVec.ofNat 2048 (1 + op * 2 ^ 32 + tgt * 2 ^ 40 + acc * 2 ^ 48 + arg * 2 ^ 64)
/-- Public key 0 of both parties is the base point (private key 1), and the device scalar is 1 (R354, R361). -/
def wPub : List Byte := beBytes 48 Ecc.gx ++ beBytes 48 Ecc.gy
def wRows (r : Nat) (b : List Byte) : Tab W32 :=
  (List.range (b.length / 4)).map (fun i => (r + i, BitVec.ofNat 32 (ofBytes ((b.drop (4 * i)).take 4))))
def wSensed : Tab W32 := wRows 0 wPub ++ wRows 96 wPub ++ wRows 0xF0 (beBytes 48 1)
/-- Signatures by private key 1 with the nonce 1: r is the base point's x, s the record's digest plus r. -/
def wSig (s : Nat) : BitVec 768 := BitVec.ofNat 768 (ofBytes (beBytes 48 (Ecc.gx % Ecc.n) ++ beBytes 48 s))
def wSAssign : Nat := 0x290e076d4c22edd185895002fe08da07dee62dc3e26e362d05bf7dd6c8bca31e46ff048a51dd8c9d40862ed659aa7856
def wSRelease : Nat := 0xe3dd9777d4cdc01e365c18af664efe2c662f753f1171a155b94c9d6c10bca0375a088607dab42ce830004c8c2f07b272
def wCAssign : Nat := 0xb0f025d930a96db6c94836ebb074f0b530cdd2aaf56836649f2bcf2659fc7576028305a8b5b1060315fdad9a5d3c6dc0
def wCRelease : Nat := 0x14a3f0fdaa03571829d5e6e15ff0d6efd8b7bdf26cf9a73c86b535625aa7263dfc8102ffd2d4bc1c91bfdf974194abea
def wCLoad : Nat := 0xf55ac7263cac7ae1c3ff9f2b8c08d5a06cbbbb2e8bd87d0efe89ad339af7fef7812f4e8571ce95a5363781811356d0
def wCKey : Nat := 0xf5eb947c7428a9a907d15e2e5239884cbc7cab656bd253fe30262d18bf27567c48074fb3c357e4b14afd9a2644fb31a7
/-- A KEY_LOAD record of slot 0: the ephemeral key is the base point, the wrapped key 0 with its tag. -/
def wKeyRec : BitVec 2048 :=
  BitVec.ofNat 2048 (1 + 4 * 2 ^ 32 + 5 * 2 ^ 48 + ofBytes wPub * 2 ^ 128 + 0x263350fe35b6d8a728c9e08db4b42f93 * 2 ^ 1152)

/-- FIPS 180-4's example: SHA-384 of "abc". -/
theorem test_sha384_abc : beNat (Sha.sha384 (ascii "abc")) =
    0xcb00753f45a35e8bb5a03d699ac65007272c32ab0eded1631a8b605a43ff5bed8086072ba1e7cc2358baeca134c825a7 := by decide +kernel
/-- FIPS 197's example: one block under a 256-bit key. -/
theorem test_aes256_fips197 : Aes.encBlock (Aes.keys (List.range 32)) ((List.range 16).map (17 * ·)) =
    (beBytes 16 0x8ea2b7ca516745bfeafc49904b496089).map BitVec.toNat := by decide +kernel
/-- The GCM specification's test case 14: key, IV and plaintext of zeros. -/
theorem test_gcm_case14 :
    Aes.gcmCrypt (List.replicate 32 0) (List.replicate 12 0) (List.replicate 16 0) = beBytes 16 0xcea7403d4d606b6e074ec5d3baf39d18 ∧
    Aes.gcmTag (List.replicate 32 0) (List.replicate 12 0) [] (beBytes 16 0xcea7403d4d606b6e074ec5d3baf39d18) =
      beBytes 16 0xd0d1c8a799996bf0265b98b5d48ab919 := by decide +kernel

/-- The module with custody in a state of its own; the BMC's endpoint is addressed. -/
def wCus (c : Custody) : State := { wLive with cus := { c with sensed := wSensed }, mgt := { Mgmt.reset with eid := 8 } }

theorem sigOk_sensed (s t : State) (h : s.cus.sensed = t.cus.sensed) : sigOk s = sigOk t := by
  have e : senseRow s = senseRow t := by funext r; simp only [senseRow, h]
  have k : partyKey s = partyKey t := by funext p i; simp only [partyKey, fuseBytes, e]
  funext p d w g
  simp only [sigOk, currentKey, k, serial, fuseBytes, e]
theorem wSig_assign : sigOk (wCus Custody.reset) 0 0x53 (wRec 1 1 5 0) (wSig wSAssign) = true := by decide +kernel
theorem wSig_release : sigOk (wCus Custody.reset) 0 0x53 (wRec 2 1 5 0) (wSig wSRelease) = true := by decide +kernel
theorem wSig_assign2 : sigOk (wCus Custody.reset) 1 0x43 (wRec 1 1 5 0) (wSig wCAssign) = true := by decide +kernel
theorem wSig_release2 : sigOk (wCus Custody.reset) 1 0x43 (wRec 2 1 5 0) (wSig wCRelease) = true := by decide +kernel
theorem wSig_load2 : sigOk (wCus Custody.reset) 1 0x43 (wRec 4 0 5 0) (wSig wCLoad) = true := by decide +kernel
theorem wSig_key2 : sigOk (wCus Custody.reset) 1 0x43 wKeyRec (wSig wCKey) = true := by decide +kernel
theorem wSig_none (c : Custody) : sigOk (wCus c) 0 0x53 (wRec 1 1 5 0) 0 = false ∧ sigOk (wCus c) 1 0x43 (wRec 1 1 5 0) 0 = false := by
  rw [sigOk_sensed (wCus c) (wCus Custody.reset) rfl]; decide +kernel
/-- The signatures verify whatever else custody holds. -/
theorem wSigs (c : Custody) :
    (∀ w ∈ [(wRec 1 1 5 0, wSAssign), (wRec 2 1 5 0, wSRelease)], sigOk (wCus c) 0 0x53 w.1 (wSig w.2) = true) ∧
    ∀ w ∈ [(wRec 1 1 5 0, wCAssign), (wRec 2 1 5 0, wCRelease), (wRec 4 0 5 0, wCLoad), (wKeyRec, wCKey)],
      sigOk (wCus c) 1 0x43 w.1 (wSig w.2) = true := by
  rw [sigOk_sensed (wCus c) (wCus Custody.reset) rfl]
  simp only [List.forall_mem_cons]
  exact ⟨⟨wSig_assign, wSig_release, by simp⟩, wSig_assign2, wSig_release2, wSig_load2, wSig_key2, by simp⟩
theorem wKey_unwraps : (unwrapKey (wCus Custody.reset) wKeyRec).isSome = true ∧
    (unwrapKey (wCus Custody.reset) (wRec 4 0 5 0)).isNone = true := by decide +kernel

theorem cusOpen_host (s : State) (h : s.bup.bar0 = true ∧ pageAbsent s pgCUS = false ∧ pageLive s pgCUS = true) : CusOpen s .host := h
theorem cusOpen_bmc (s : State) (h : mgtAddressed s = true ∧ s.mgt.busy = false ∧ pageLive s pgCUS = true) : CusOpen s .bmc := h

/-- A stage of a record by the host, waiting with its signature. -/
def wStage (w : BitVec 2048) (sig : BitVec 768) : CusReq := { party := .host, word := w, sig := sig }
theorem wit_CustodyStaging :
    (CusOpen (wCus Custody.reset) .host ∧ CusOpen (wCus Custody.reset) .bmc ∧ (wCus Custody.reset).cus.lockAt = none) ∧
    (wCus { Custody.reset with lockAt := some 1000 }).cus.lockAt ≠ none ∧
    (∀ busy ∈ [false, true], ∀ nonce ∈ [1, 2], ∀ w ∈ [(wRec 1 1 5 0, wSAssign), (wRec 2 1 5 0, wSRelease)],
      let s := wCus { Custody.reset with busy := busy, nonce := BitVec.ofNat 32 nonce, verify := [wStage w.1 (wSig w.2)] };
      s.cus.verify = [] ++ wStage w.1 (wSig w.2) :: [] ∧ s.cus.lockAt = none ∧ stageTie s .host = false ∧
      (recFormat w.1 && accOk s w.1) = decide (w.1 = wRec 1 1 5 0) ∧ recNonce w.1 = 1 ∧ s.cus.busy = busy) ∧
    ((wCus Custody.reset).cus.badRun < 2 ∧ 2 ≤ (wCus { Custody.reset with badRun := 2 }).cus.badRun) ∧
    (let s := wCus { Custody.reset with lockAt := some 1000 }; s.cus.lockAt = some 1000 ∧ 1000 ≤ s.clk.dst) ∧
    (let s := wCus { Custody.reset with busy := true, dline := 1000 }; s.cus.busy = true ∧ s.cus.origin = .host ∧
      s.cus.commit = none ∧ s.cus.dline ≤ s.clk.dst) :=
  ⟨⟨cusOpen_host _ (by decide +kernel), cusOpen_bmc _ (by decide +kernel), by decide +kernel⟩, by decide +kernel,
    by decide +kernel, by decide +kernel, by decide +kernel, by decide +kernel⟩
/-- The BMC confirms in time what the host staged, in every way a confirm can end; the last two differ in the map only. -/
theorem wit_CustodyConfirms :
    (∀ w ∈ [(wRec 1 1 5 0, 1), (wRec 2 1 5 0, 2), (wRec 4 0 5 0, 4), (wKeyRec, 4)], ∀ o ∈ [Party.host, .bmc], ∀ n ∈ [5, 7],
      let s := wCus { Custody.reset with busy := true, dline := 1000, pend := w.1, origin := o, own := [(0, BitVec.ofNat 12 n)] };
      s.cus.busy = true ∧ s.clk.dst ≤ s.cus.dline ∧ w.1 = s.cus.pend ∧ (Party.bmc = s.cus.origin ↔ o = .bmc) ∧ recOp w.1 = w.2 ∧
      accOk s w.1 = decide (n = 5 ∨ w.2 = 1) ∧ (n = 5 → commitOk s w.1 = decide (w.2 ≠ 1))) ∧
    commitOk (wCus Custody.reset) (wRec 1 1 5 0) = true := by decide +kernel

theorem rowLocked_none (c : Custody) (r : Nat) : rowLocked (wCus c) r = false := by
  have e : senseRow (wCus c) 192 = 0 := by show tget 0 wSensed 192 = 0; decide +kernel
  simp [rowLocked, groupLocked, e, bit]

theorem wit_CustodyCommits :
    commitOk (wCus Custody.reset) (wRec 1 1 5 0) = true ∧
    (let s := wCus { Custody.reset with own := [(0, 5)] };
      commitOk s (wRec 2 1 5 0) = true ∧ commitOk s (wRec 3 0 5 1) = true ∧ commitOk s (wRec 4 0 5 0) = true ∧
      commitOk s (wRec 6 1 5 0) = true ∧ commitOk s (wRec 7 1 5 0) = true ∧
      [wRec 1 2 5 0, wRec 2 1 5 0, wRec 3 0 5 1, wRec 4 0 5 0, wRec 6 1 5 0, wRec 7 1 5 0].all (accOk s) = true) ∧
    (let s := wCus { Custody.reset with keys := [(0, 5)] }; commitOk s (wRec 5 0 5 0) = true ∧ accOk s (wRec 5 0 5 0) = true) ∧
    (commitOk (wCus Custody.reset) (wRec 8 3 0 9) = true ∧ accOk (wCus Custody.reset) (wRec 8 3 0 9) = true) ∧
    (∀ op ∈ [9, 10], commitOk (wCus Custody.reset) (wRec op 0 0 0) = true ∧ accOk (wCus Custody.reset) (wRec op 0 0 0) = true) ∧
    (let s := wCus { Custody.reset with own := [(0, 7)], commit := some { party := .bmc, word := wRec 1 1 5 0, sig := 0 } };
      s.cus.commit = some { party := .bmc, word := wRec 1 1 5 0, sig := 0 } ∧ commitOk s (wRec 1 1 5 0) = false ∧
      accOk s (wRec 1 1 5 0) = true ∧ accOk s (wRec 2 1 5 0) = false) := by
  refine ⟨by decide +kernel, by decide +kernel, by decide +kernel, ⟨?_, by decide +kernel⟩, by decide +kernel, by decide +kernel⟩
  have h : recOp (wRec 8 3 0 9) = 8 := by decide +kernel
  unfold commitOk
  simp only [h]
  rw [rowLocked_none]; rfl

/-- A bring-up in which every step passes: the clocks count 8,192 and 51,200. -/
def wUpOk : BringUp :=
  { mgtSel := false, cv := 4800, overrun := [], cntA := 8192, cntB := 51200, stackFail := 0, fuseCrc := 0, tested := [],
    badRows := [], badLanes := [] }
/-- The module in a reset of a scope. -/
def wRst (scope : Nat) : State :=
  { wLive with bup := { wBup with rst := some { scope := scope, q := 0, cl := 0, k := 0, test := false } } }
/-- RST_CTL: a scope, quadrant 0, cluster 0, core 3. -/
def wRstCtl (scope : Nat) : W32 := BitVec.ofNat 32 (scope + 3 * 2 ^ 9)

theorem wit_BringupAndResets :
    (wLive.bup.pwrEn = true ∧ State.reset.bup.pwrEn = false ∧ ({ wUpOk with cv := 3999 } : BringUp).cv < 4000 ∧ 4000 ≤ wUpOk.cv ∧
      wUpOk.cv ≤ 6000 ∧ State.reset.pwr.tripN = true ∧ clocksOk wUpOk = true ∧ failedSteps wUpOk 9 = [] ∧
      failedSteps { wUpOk with overrun := [3] } 9 ≠ [] ∧
      clocksOk { wUpOk with cntA := 9300 } = false) ∧
    (let s := { wLive with bup := { wBup with ready := false }, top := { Topology.reset with named := true } };
      s.bup.isLocal = true ∧ s.bup.ready = false ∧ s.bup.rst = none ∧ isRoot s = true) ∧
    (∀ k ∈ [1, 2, 3, 4, 5], ResetWrite wLive (wRstCtl k) k) ∧
    (hasCluster wLive (wRstCtl 1) = true ∧ fld (wRstCtl 1) 4 3 = 0 ∧ fld (wRstCtl 1) 8 5 = 0 ∧ fld (wRstCtl 1) 15 9 = 3 ∧
      residentOn wLive 0 = none ∧ coreIdle (getCore wLive wC) = true ∧ wLive.cores = [] ∧
      (getClu wLive 0).re.fly = [] ∧ (getClu wLive 0).rt.fly = []) ∧
    (∀ k ∈ [3, 4, 5], Served (wRst 5) pgBUP ∧ (wRst 5).bup.rst = some { scope := 5, q := 0, cl := 0, k := 0, test := false } ∧ k ≤ 5) ∧
    (wLive.bup.railsOn = true ∧ wLive.bup.rst = none) ∧
    (∀ k ∈ [1, 2, 3, 4, 5], (wRst k).bup.rst = some { scope := k, q := 0, cl := 0, k := 0, test := false } ∧
      (∀ q < 4, repairPending (wRst k) q = false) ∧ ∀ x < 54, (getCell (wRst k) x).hold = false) ∧
    (let v : W32 := BitVec.ofNat 32 (0x7F * 2 ^ 7 + 3 * 4); let u : BadUnit := { q := 0, cl := 3, core := none };
      Served wLive pgRPR ∧ residentOn wLive (fld v 1 0) = none ∧ u.q.val = fld v 1 0 ∧ u.cl.val = fld v 6 2 ∧ fld v 13 7 = 0x7F ∧
      unitBad wLive u = false ∧ u ∉ wLive.bup.pendSoft ∧ u ∉ wLive.bup.soft) ∧
    (nbrPair 0 1 = true ∧ linkJobs wLive 0 1 = [] ∧ linkJobs wRun 0 4 = [0]) := by
  unfold ResetWrite Served; decide +kernel

/-- The two bounds after LOCAL (R378): 0.5 s and 9 s at which steps 10 and 12 overrun. -/
def wBoot (n : Nat) : State := { wLive with bup := { wBup with ready := false, phase := 9, boot := n } }
theorem wit_BringupBounds :
    (let s := { wBoot 0 with links := [(0, { Link.reset 0 with st := .up, syncN := 17 })], clk := { wLive.clk with unlocked := false } };
      s.clk.unlocked = false ∧ steerGrps s ≠ []) ∧
    (wBoot 0).bup.isLocal = true ∧ (wBoot 0).bup.ready = false ∧ (wBoot 0).bup.upAt = none ∧ (wBoot 0).bup.phase < 10 ∧
    (wBoot 2999999999).bup.boot + 1 = 3000000000 ∧ (wBoot 53999999999).bup.boot + 1 = 54000000000 := by decide +kernel

def wThermal (q ph : Int) : ThermalReading := { quads := [[q], [500], [500], [500]], hub := [500], hbm := [], photonic := [ph] }

theorem wit_PowerAndClocks :
    Served wLive pgCLK ∧
    (let v : W32 := BitVec.ofNat 32 (2 ^ 31 + 4 * 2 ^ 16); bit v 31 = true ∧ bit v 30 = false ∧ wLive.clk.fcHolder ≠ 1 ∧
      wLive.clk.fcHolder ≠ 2 ∧ 4 ≤ fld v 20 16 ∧ fld v 20 16 ≤ 24) ∧
    (let s := { wLive with clk := { wLive.clk with fcHolder := 1 } }; s.clk.fcHolder = 1) ∧
    fld (BitVec.ofNat 32 (2 ^ 31 + 3 * 2 ^ 16) : W32) 20 16 < 4 ∧
    (let s := { wLive with clk := { wLive.clk with fcState := 1 } };
      s.clk.fcState = 1 ∧ clkStopped s s.clk.fcRef = false ∧ bit (0x40000000 : W32) 31 = false ∧ bit (0x40000000 : W32) 30 = true) ∧
    (wLive.bup.railsOn = true ∧ 3999 < 4000 ∧ 3599 < 3600 ∧ 6200 < 6201 ∧ 3600 ≤ 4800 ∧ 4800 ≤ 6200) ∧
    (let s := { wRun with pwr := { Power.reset with hist := List.replicate 99 [6000, 0, 0, 0] } };
      let h := ([6000, 0, 0, 0] :: s.pwr.hist).take 100;
      10 ≤ h.length ∧ 52800 < powerSum h 10 0 ∧ residentOn s 0 = some 0 ∧ 100 ≤ h.length ∧ 480000 < powerSum h 100 0 ∧
      tget none s.pwr.overAt 0 = none) ∧
    (∀ q < 4, powerSum [[100, 100, 100, 100]] 10 q ≤ 52800 ∧ powerSum [[100, 100, 100, 100]] 100 q ≤ 480000) ∧
    (let r := wThermal 1100 801;
      (∀ i < 5, (if i < 4 then maxInt 0 (r.quads.getD i []) else maxInt 0 r.hub) < 1150) ∧ 1100 ≤ maxInt 0 (r.quads.getD 0 []) ∧
      800 < maxInt 0 r.photonic ∧ 1150 ≤ maxInt 0 ((wThermal 1150 0).quads.getD 0 [])) ∧
    (let s := { wLive with pwr := { Power.reset with thr := 1, coolAt := [(0, some 0)] }, clk := { wLive.clk with dst := 600000000 } };
      tget none s.pwr.coolAt 0 = some 0 ∧ inThrottle s 0 = true ∧ 0 + 600000000 ≤ s.clk.dst) ∧
    (let s := { wLive with pwr := { Power.reset with flowAt := some 0 }, clk := { wLive.clk with dst := 6000000000 } };
      (180 : Int) < 381 - 200 ∧ s.pwr.flowAt = some 0 ∧ 0 + 6000000000 ≤ s.clk.dst ∧ s.pwr.flowSaid = false ∧ (380 : Int) - 200 ≤ 180) := by
  unfold Served; decide +kernel

/-- The window on, quadrant 0, interleaved; host cells free. -/
def wHost (c : Custody) : State :=
  { wLive with regs := [(at' pgHST 0x100, 1)], cus := c, fab := { Fabric.reset with clsMin := [(5, 10)] } }
def wB2 (d : Option (List Byte)) : Bar2 := { q := 0, inter := false, st := 0, byte := 0, len := 2, tag := 1, data := d }
/-- A job whose segment reserves host slots in job time 0 to 9,999. -/
def wHostJob : Job :=
  { wJob with img := some { wImg with segs := [{ wSeg with slots := [{ use := .host, key := 0, lo := 0, hi := 10000 }] }] } }
/-- Ring 0 enabled with 16 entries; its descriptor in the engine, of which n lines have had their slot. -/
def wRing (d : Option (BitVec 512)) (n : Nat) (gaps : List Nat) : State :=
  { wRun with
    regs := [(ringOff 0 0x208, 0x104)]
    rings := [(0, { Ring.reset with tail := 1, run := d, moved := n, gaps := gaps, got := List.replicate (64 * n) 0 })]
    jobs := [(0, wHostJob)]
    cus := { Custody.reset with own := [(0, 5)] } }
/-- A host move of 64 bytes to HBM byte 0, with a credit or without. -/
def wHm (op cr : Nat) : BitVec 512 := BitVec.ofNat 512 (64 * 2 ^ 128 + op * 2 ^ 160 + cr * 2 ^ 169 + cr * 5 * 2 ^ 192)

theorem wit_HostWindowsAndRings :
    (Served wLive pgHST ∧ winOk 1 = true ∧ winOk 0x3F = false) ∧
    (wLive.bup.bar0 = true ∧ bit (winReg wLive) 0 = false) ∧
    (let s := wHost { Custody.reset with seals := 1 };
      bit (winReg s) 0 = true ∧ pageLive s pgQP = true ∧ sealed s (winReq s 0 4 0 none).q.val = true) ∧
    (let s := wHost Custody.reset; sealed s (winReq s 0 4 0 none).q.val = false ∧ clsRoom s 5 1 = true ∧
      clsRoom s 5 (bar2Cells (some [1, 2])) = true) ∧
    (∀ d ∈ [none, some [1, 2]], ∀ js ∈ [[], [(0, wHostJob)]], let s := { wHost Custody.reset with bar2 := [wB2 d], jobs := js };
      hostSlots s 0 = true ∧ s.bar2 = [] ++ wB2 d :: [] ∧ (wB2 d).q = 0 ∧ tget 0 s.fab.qFlaws (0xB0 + 0) = 0 ∧ s.flaws = [] ∧
      (wB2 d).byte + 2 ≤ 3 * 2 ^ 37 ∧ sealed s 0 = false ∧
      (chargeCells { s with bar2 := [] } (hostWho s 0) ([0, 1].map (fun i => ((wB2 d).addr i, 0)))).2 = true) ∧
    sealed { wHost { Custody.reset with seals := 1 } with bar2 := [wB2 none] } 0 = true ∧
    (pageLive (wRing none 0 []) pgHST = true ∧ fld (5 : W32) 15 0 < ringSize (wRing none 0 []) 0 ∧
      ringSize (wRing none 0 []) 0 ≤ fld (16 : W32) 15 0) ∧
    ringTurn (wRing none 0 []) = some 0 ∧ hmLen 0 = 0 ∧ (hmLen (wHm 3 0) ≠ 0 ∧ hmOp (wHm 3 0) ≠ 1 ∧ hmOp (wHm 3 0) ≠ 2) ∧
    hmCheck (wRing none 0 []) (wHm 1 0) = 0 := by unfold Served; decide +kernel
/-- A move in the engine: a line to go (with its slot), all gone, a dropped line, a sealed quadrant. -/
theorem wit_HostMoves :
    (∀ op ∈ [1, 2], let s := wRing (some (wHm op 1)) 0 [];
      ringMove s 0 0 = some (wGA 0, wHm op 1) ∧ s.flaws = [] ∧ hmOp (wHm op 1) = op ∧ sealed s (wGA 0).q = false ∧
      (getRing s 0).run = some (wHm op 1) ∧ hmAddrOk s (wHm op 1) = some (wGA 0) ∧ (getRing s 0).moved < hmLines (wGA 0) (wHm op 1) ∧
      (hbmAccept s (hostWho s (wGA 0).q) (quadOf ((hmLine (wGA 0) (wHm op 1) 0).headD 0))
        (stackOf ((hmLine (wGA 0) (wHm op 1) 0).headD 0)) s.clk.dst 1 ((hmLine (wGA 0) (wHm op 1) 0).headD 0)).2 = true) ∧
    (∀ op ∈ [1, 2], ∀ gaps ∈ [[], [0]], let s := wRing (some (wHm op 1)) 1 gaps;
      (getRing s 0).run = some (wHm op 1) ∧ hmAddrOk s (wHm op 1) = some (wGA 0) ∧ s.flaws = [] ∧
      hmLines (wGA 0) (wHm op 1) ≤ (getRing s 0).moved ∧ sealed s (wGA 0).q = false ∧ (getRing s 0).gaps = gaps ∧
      hmCr (wHm op 1) = true ∧ hmCredit s (wHm op 1) 0 = true) ∧
    (let s := { wRing (some (wHm 2 0)) 1 [] with cus := { Custody.reset with own := [(0, 5)], seals := 1 } };
      sealed s (wGA 0).q = true ∧ hmAddrOk s (wHm 2 0) = some (wGA 0) ∧ hmLines (wGA 0) (wHm 2 0) ≤ (getRing s 0).moved) ∧
    hmCr (wHm 2 0) = false := by decide +kernel

theorem wit_ManagementRows :
    (let s := wCus Custody.reset;
      tget 0 s.fab.qFlaws 0x200 = 0 ∧
      mgtLive s = true ∧ mgtAddressed s = true ∧ pageLive s pgCUS = true ∧ s.mgt.busy = false ∧ pageLive s pgMGT = true ∧
      pageLive s pgQP = true ∧ clsRoom { s with fab := { Fabric.reset with clsMin := [(6, 2)] } } 6 1 = true) ∧
    mgtAddressed wLive = false ∧ (5 ≠ 0 ∧ 5 ≠ 1 ∧ 5 ≠ 0x7E) ∧ (1 ≤ 27 ∧ 27 ≤ 27 ∧ 1 ≤ 16 ∧ 16 ≤ 16) ∧
    (let s := { wLive with mgt := { Mgmt.reset with eid := 8, busy := true } }; mgtAddressed s = true ∧ s.mgt.busy = true) := by
  decide +kernel

/-- The root with EXTREF enabled, after a valid second. -/
def wRef (pps gap : Option Nat) (dst : Nat) : State :=
  { wLive with
    top := { Topology.reset with named := true }, regs := [(at' pgSYNC 0x100, 3)], clk := { wLive.clk with dst := dst }
    sync := { Sync.reset with pps := pps, gap := gap } }
/-- A Ledger entry of a source. -/
def wEnt (src : Nat) : Entry := { Entry.zero with src := src }

theorem wit_LedgerAndSync :
    (let s := { wLive with ldg := { Ledger.reset with wait := [wEnt 9, wEnt 3, wEnt 3] } };
      ldgSpent s = false ∧ tget 0 s.fab.qFlaws 0x202 = 0 ∧ ldgSpent { s with ldg := { s.ldg with cycle := some 250 } } = true ∧
      s.ldg.wait = [wEnt 9] ++ wEnt 3 :: [wEnt 3] ∧ (∀ x ∈ [wEnt 9], (wEnt 3).src < x.src) ∧ ∀ x ∈ [wEnt 3], (wEnt 3).src ≤ x.src) ∧
    (Served wLive pgLDG ∧ 2 ≤ 8192 ∧ 2 ≤ ({ Ledger.reset with wr := 5 } : Ledger).wr) ∧
    (let s := wRef (some 1000) (some 6000000000) 6000001000;
      refActive s = true ∧ s.sync.pps = some 1000 ∧ s.sync.gap = some 6000000000 ∧ s.clk.dst - 1000 = 6000000000) ∧
    (refActive (wRef none none 1000) = true ∧ ¬ 5999850000 ≤ (wRef (some 1000) (some 6000000000) 2000).clk.dst - 1000 ∧
      1000 + 6000600000 ≤ (wRef (some 1000) none 6000601000).clk.dst) ∧
    (let s := { wLive with regs := [(at' pgSYNC 0x100, 2)] };
      pageLive s pgSYNC = true ∧ refActive s = false ∧ bit (reg s (at' pgSYNC 0x100)) 1 = true ∧ Served s pgSYNC) ∧
    (¬ Recent wLive.sync.trig wLive.clk.dst 6000 ∧ Recent (some 990) wLive.clk.dst 6000) ∧
    (wLive.bup.perst = true ∧ wLive.bup.railsOn = true ∧ 2 ≤ wLive.bup.phase) ∧
    (1048576 ≤ 1048576 ∧ 1048575 < 1048576 ∧ wLive.cus.debug = false ∧ (wCus { Custody.reset with debug := true }).cus.debug = true ∧
      wC.cl.c.val < offered wLive wC.cl.q.val ∧ wLive.flaws = []) := by
  refine ⟨by decide +kernel, ⟨by unfold Served; decide +kernel, by decide +kernel⟩, by decide +kernel, by decide +kernel,
    by unfold Served; decide +kernel, ⟨not_recent_none _ _, 990, rfl, by decide +kernel⟩, by decide +kernel, by decide +kernel⟩

/-- A shelf byte that the matrix unit reads in this core cycle, and one that nothing uses. -/
theorem wit_DebugShelf :
    let s := wUnits [wOp 0 [wEv .rd 0]] []
    let t := { s with cus := { s.cus with debug := true } }
    t.cus.debug = true ∧ wC.cl.c.val < offered t wC.cl.q.val ∧ residentOn t wC.cl.q.val = some 0 ∧ t.flaws = [] ∧
    debugMeets t (shelfAddr wC 0) = some 3 ∧ debugMeets t (shelfAddr wC 64) = none := by decide +kernel

theorem wit_DatestampInReady :
    wLive.bup.ready = true ∧ step { wLive with pending := [.ledgerCommit] } = .next wLive ∧
    (let s := { wLive with pending := [] }; rootRuns s = true ∧ s.pending = []) := ⟨rfl, rfl, by decide +kernel⟩

theorem wit_FusesNeverClear :
    let s := { wCus { Custody.reset with fuses := [(0, 2)] } with pending := [.ledgerCommit] }
    step s = .next { s with pending := [] } ∧ bit (tget 0 s.cus.fuses 0) 1 = true := ⟨rfl, by decide +kernel⟩

/-! ## WellFormed: for each check a command that it refuses, beside one that it takes -/

/-- A flit on the wire with n bytes of payload, m of tag and k lane slots. -/
def wFlit (n m k : Nat) : RxWire :=
  { flit := { hdr := 0, pay := List.replicate n 0, tag := List.replicate m 0, crc := 0 }, fec := List.replicate k (some .clean) }
def wRecOpc (opc : Nat) : LaneRec := { opc := opc, slot := 0, old := 0, new := 16, txn := 4 }

theorem test_wf_register_offset :
    Instr.wf (.registerWrite 4 0) = true ∧ Instr.wf (.registerWrite 2 0) = false ∧ Instr.wf (.registerWrite 134217728 0) = false ∧
    Instr.wf (.rcCounterRead 134217724 0) = true ∧ Instr.wf (.rcCounterRead 3 0) = false := by decide
theorem test_wf_pages :
    Instr.wf (.intStatW1c 32767 0 0) = true ∧ Instr.wf (.intStatW1c 32768 0 0) = false ∧ Instr.wf (.intEnWrite 32768 0) = false := by
  decide
theorem test_wf_bad_access :
    Instr.wf (.hstBadAcc 0 3 true) = true ∧ Instr.wf (.hstBadAcc 4 16383 false) = true ∧ Instr.wf (.hstBadAcc 1 0 true) = false ∧
    Instr.wf (.hstBadAcc 0 134217728 true) = false ∧ Instr.wf (.hstBadAcc 4 16384 true) = false := by decide
theorem test_wf_rate_weights :
    Instr.wf (.rateSteer [1, 1, 1, 1, 1, 1]) = true ∧ Instr.wf (.rateSteer [1, 1, 1, 1, 1]) = false := by decide
theorem test_wf_image :
    Instr.wf (.admissionCheck 0 wImg false) = true ∧
    (∀ i ∈ [{ wImg with groups := [List.replicate 17 0] },
        { wImg with contexts := [{ hdr := [], segs := [] }] },
        { wImg with segs := [{ wSeg with streams := [(6144, [])] }] },
        { wImg with segs := [{ wSeg with re := [(64, [])] }] },
        { wImg with segs := [{ wSeg with rt := [(64, [])] }] },
        { wImg with segs := [{ wSeg with windows := [(24, [])] }] },
        { wImg with segs := [{ wSeg with eng := [(12, { passes := [], progs := [], pt := [] })] }] },
        { wImg with control := [(64, { prog := [], data := [] })] },
        { wImg with control := [(0, { prog := List.replicate 4097 0, data := [] })] },
        { wImg with control := [(0, { prog := [], data := [(16384, 1)] })] },
        { wImg with segs := [{ wSeg with paths := [(16, .hub)] }] }], Instr.wf (.admissionCheck 0 i false) = false) := by decide +kernel
theorem test_wf_row : Instr.wf (.rowFreeStage 0 63) = true ∧ Instr.wf (.rowFreeStage 0 64) = false := by decide
theorem test_wf_flits :
    Instr.wf (.dataFlit wG (wFlit 232 12 4)) = true ∧ Instr.wf (.dataFlit wG (wFlit 231 12 4)) = false ∧
    Instr.wf (.dataFlit wG (wFlit 232 11 4)) = false ∧ Instr.wf (.dataFlit wG (wFlit 232 12 3)) = false ∧
    Instr.wf (.idleFlit wG (wFlit 233 12 4)) = false ∧ Instr.wf (.trainingFlit wG (wFlit 0 12 4)) = false ∧
    Instr.wf (.syncFlit wG (wFlit 24 12 4)) = false := by decide +kernel
theorem test_wf_tombstones :
    Instr.wf (.msgTombExpiry 0 4095 8191 1) = true ∧ Instr.wf (.msgTombExpiry 0 4096 0 1) = false ∧
    Instr.wf (.msgTombExpiry 0 5 8192 1) = false ∧ Instr.wf (.msgStale 0 4096 0 1) = false ∧ Instr.wf (.msgStale 0 5 8192 1) = false := by
  decide
theorem test_wf_lane_records :
    Instr.wf (.request wG (wRecOpc 1)) = true ∧ Instr.wf (.request wG (wRecOpc 2)) = false ∧ Instr.wf (.ready wG (wRecOpc 3)) = false ∧
    Instr.wf (.switch wG (wRecOpc 4)) = false ∧ Instr.wf (.doneRec wG (wRecOpc 5)) = false ∧ Instr.wf (.abort wG (wRecOpc 6)) = false ∧
    Instr.wf (.calreq wG (wRecOpc 7)) = false ∧ Instr.wf (.caldone wG (wRecOpc 0)) = false := by decide
theorem test_wf_input_voltage :
    Instr.wf (.powerOn wUpOk) = true ∧ Instr.wf (.powerOn { wUpOk with cv := 65536 }) = false ∧ Instr.wf (.pwrUv 65536) = false ∧
    Instr.wf (.inputShutdown 65536) = false := by decide
theorem test_wf_die_links :
    Instr.wf (.d2dLost 0 4) = true ∧ Instr.wf (.d2dLost 5 0) = false ∧ Instr.wf (.d2dLost 0 5) = false ∧ Instr.wf (.d2dLost 1 1) = false := by
  decide
theorem test_wf_samples :
    Instr.wf (.powerSample { cv := 4800, w := 3000, die := [1, 2, 3, 4] }) = true ∧
    Instr.wf (.powerSample { cv := 4800, w := 3000, die := [1, 2, 3] }) = false ∧
    Instr.wf (.powerSample { cv := 65536, w := 3000, die := [1, 2, 3, 4] }) = false ∧
    Instr.wf (.powerSample { cv := 4800, w := 65536, die := [1, 2, 3, 4] }) = false ∧
    Instr.wf (.thermalSample { quads := [[], [], [], []], hub := [], hbm := List.replicate 12 500, photonic := [] }) = true ∧
    Instr.wf (.thermalSample { quads := [[], [], []], hub := [], hbm := List.replicate 12 500, photonic := [] }) = false ∧
    Instr.wf (.thermalSample { quads := [[], [], [], []], hub := [], hbm := [], photonic := [] }) = false := by decide
theorem test_wf_bar2 :
    Instr.wf (.bar2Read 0 4096 1) = true ∧ Instr.wf (.bar2Read 0 0 1) = false ∧ Instr.wf (.bar2Read 0 4097 1) = false ∧
    Instr.wf (.bar2Read 68719476735 2 1) = false ∧ Instr.wf (.bar2Write 0 [1]) = true ∧ Instr.wf (.bar2Write 0 []) = false ∧
    Instr.wf (.bar2Write 0 (List.replicate 513 0)) = false ∧ Instr.wf (.bar2Write 68719476736 [1]) = false := by decide +kernel
theorem test_wf_mctp :
    Instr.wf (.pldmRequest 63 (.base 0)) = true ∧ Instr.wf (.pldmRequest 64 (.base 0)) = false ∧ Instr.wf (.mctpDiscard 2) = true ∧
    (∀ t ∈ [0, 1, 0x7E, 128], Instr.wf (.mctpDiscard t) = false) := by decide
theorem test_wf_debug :
    Instr.wf (.debugAccess (.shelfRead wC 1048575)) = true ∧ Instr.wf (.debugAccess (.shelfRead wC 1048576)) = false ∧
    Instr.wf (.debugAccess (.shelfWrite wC 1048576 0)) = false := by decide

/-! ## The command table gives no row any bits -/

theorem test_decode_none : decodeTableWord 32 0x18C3F000 = none := rfl
theorem test_fetch_word_unchanged : wLive.withFetchWord 32 0x18C3F000 = wLive := rfl

/-! ## Worked examples of the spec, one definition or one step at a time -/

/-- CRC-32C of "123456789", the check value of that polynomial (R34 names the algorithm). -/
theorem test_crc32c : crc32c [0x31, 0x32, 0x33, 0x34, 0x35, 0x36, 0x37, 0x38, 0x39] = 0xE3069283 := by decide +kernel

/-! 03_core_bundles, "the late bundle, encoded". -/

def wLateBundle : W256 := 0x0075304500000000051050020000000024820002001800000000000000000000

theorem test_bundle_fields :
    bnOffset wLateBundle = 30000 ∧ bnWait wLateBundle = true ∧ bnHP wLateBundle = false ∧ bnCtr wLateBundle = 5 ∧
    mxOp wLateBundle = 1 ∧ mxAcc (bnMx wLateBundle) = 1 ∧ mxTda (bnMx wLateBundle) = 4 ∧ mxTdb (bnMx wLateBundle) = 5 ∧
    stOp wLateBundle = 9 ∧ stTdd (bnSt wLateBundle) = 8 ∧ stTdx (bnSt wLateBundle) = 8 ∧
    stScl (bnSt wLateBundle) = 65536 + 12 ∧ mvOp wLateBundle = 0 := by decide +kernel
theorem test_tile_descriptor :
    let t := tdOf 0x09440000000000004000100100008000
    t.tag = 37 ∧ t.fmt = 1 ∧ t.loc = 0 ∧ t.base = 4096 ∧ t.rows = 64 ∧ t.cols = 64 ∧ t.stride = 2 ∧ t.endByte = 270336 ∧
    t.bad = false := by decide +kernel
/-- The instruction LUI S12, 0x3F000 makes S12 hold FP32 0.5. -/
theorem test_lui_example :
    ∃ t, exec (.lui wClu) (wCtl 0x18C3F000) = .next t ∧ curS (getClu t 0) 12 = 0x3F000000 := ⟨_, rfl, by decide +kernel⟩
/-- ARMC CC5, S20, 1,500 with S20 = 16. -/
theorem test_armc_example :
    let s := { wCtl 0x3CAA05DC with
      clus := [(0, { (getClu (wCtl 0x3CAA05DC) 0) with sw := [{ at' := 0, reg := 20, val := 16 }] })] }
    ∃ t, exec (.armc wClu) s = .next t ∧ (getCtr t 0 5).sum = 16 ∧ (getCtr (ctrSettle t (0, 5)) 0 5).deficit = 16 ∧ (getCtr t 0 5).win = 1500 := ⟨_, rfl, by decide +kernel⟩

/-! 02_datestamp_and_schedules, the WAIT bundle at OFFSET 30,000 with W = 1,500: L = 2,006,120,000 and D = 2,006,126,000. -/

theorem test_wait_deadline :
    let s : State := { wLive with
      clk := { wLive.clk with dst := 2006120000 }
      jobs := [(0, { wJob with h := 0, img := some { wImg with segs := [{ wSeg with origin := 2006000000 }] } })]
      cores := [(0, wReady [wLateBundle])]
      clus := [(0, { Cluster.reset with cc := [(5, { Ctr.zero with deficit := 16, win := 1500 })] })] }
    ∃ t, exec (.waitBundleReachL wC) s = .next t ∧ (getCore t wC).st = .waiting ∧ (getCore t wC).dline = 2006126000 :=
  ⟨_, rfl, by decide +kernel⟩

/-! 04_matrix_unit: the exact block sum of 2^24, 1 and -2^24 is 1, and a fourth product of 1.5 * 2^-46 is truncated. -/

theorem test_block_sum :
    (let r := blockSum [.fin false 1 24, .fin false 1 0, .fin true 1 24]; Ext.cmp r.1 Ext.one = 0 ∧ r.2 = false) ∧
    (let r := blockSum [.fin false 1 24, .fin false 1 0, .fin true 1 24, .fin false 3 (-47)]; Ext.cmp r.1 Ext.one = 0 ∧ r.2 = true) := by
  decide +kernel

/-! 06_backward_and_row_engine: SOLVE of an all-ones matrix with floor 2^-10. -/

/-- The first three of those pivots: the second and the third are floored. -/
theorem test_solve_floor :
    let f := (List.range 3).foldl (factorCol (fun _ _ => 0x3F800000) 0 0x3A800000) { w := [], l := [], dd := [], low := 0 }
    f.low = 2 ∧ tget 0 f.dd 0 = 0x3F800000 ∧ tget 0 f.dd 1 = 0x3A800000 ∧ tget 0 f.dd 2 = 0x3A800000 ∧
    tget 0 f.l (32 * 5) = 0x3F800000 ∧ tget 0 f.l (32 * 5 + 1) = 0 := by decide +kernel

/-! 07_memory_and_moves, the key tile: source and destination addresses. -/

theorem test_global_addresses :
    gaParse 0x0918808000010000 = some { node := 0x123, space := 1, q := 1, st := 0, cl := 0, k := 0, fo := 0, byte := 65536 } ∧
    gaParse 0x0919809910005000 = some { node := 0x123, space := 3, q := 1, st := 0, cl := 3, k := 17, fo := 0, byte := 20480 } := by
  decide +kernel

/-! 08_numerics: keyed rounding of 1 + 2^-9 + 2^-10 into BF16 goes up from u = 10,485,760 on, and a master record that
gains 2^-12 a step. -/

theorem test_keyed_rounding :
    bf16.round 1 10485760 (.fin false 1027 (-10)) = 0x3F81 ∧ bf16.round 1 10485759 (.fin false 1027 (-10)) = 0x3F80 := by
  decide +kernel
theorem test_master_record :
    recSet (.fin false (4096 + 15) (-12)) = (0x3F80, 0x78000000, false) ∧
    recSet (.fin false (4096 + 16) (-12)) = (0x3F81, 0x80000000, false) ∧
    Ext.cmp (master 0x3F81 0x80000000) (.fin false 4112 (-12)) = 0 := by decide +kernel

/-! 09_conditional_compute, one expert layer: the issue intervals of GATE, DISPATCH and COMBINE. -/

def wRoute (op fmt n cols : Nat) : W256 :=
  BitVec.ofNat 256 (op * 2 ^ 226 + fmt * 2 ^ 222 + 2 * 2 ^ 208 + 2 ^ 206 + n * 2 ^ 96 + 8 * 2 ^ 87 + 3 * 2 ^ 79 + cols * 2 ^ 63)
theorem test_route_intervals :
    rtInterval (wRoute 2 0 512 0) = 1648 ∧ rtInterval (wRoute 3 1 512 1024) = 12320 ∧ rtInterval (wRoute 4 1 512 1024) = 8736 := by
  decide +kernel

/-! 10_update_engine, the advance of group 5 from STEP 5,499: f = 0.5, η = 2^-11, complete 17 core cycles after its
launch, and operation 5 of program 2 with λ = 0.125, w = 2 and c = 1. -/

def wGroup5 : Tab W32 := [(0, 0x3A800000), (12, 5499), (13, 1000), (14, 9000), (17, 2)]
theorem test_group_advance :
    tget 0 (advanceGrp wGroup5) 12 = 5500 ∧ tget 0 (advanceGrp wGroup5) 18 = 0x3F000000 ∧
    tget 0 (advanceGrp wGroup5) 19 = 0x3A000000 := by decide +kernel
theorem test_advance_interval :
    let s := { wAdv 5499 with jobs := (wAdv 5499).jobs.map (fun e => (e.1, { e.2 with adv := [] })), grps := [(3, { GrpEntry.free with owner := 5, words := wGroup5 })] }
    ∃ t, exec (.advanceEntry 0) s = .next t ∧ ((getJob t 0).adv.map AdvFly.due) = [s.clk.dst + 4 * 17] := ⟨_, rfl, by decide +kernel⟩
/-- Program 2, its encodings 5 and 11 as the spec writes them out. -/
def wProg2 : List W32 :=
  [0x70000001, 0x68800002, 0x512D4100, 0x21880000, 0x6A000001, 0x1A912300, 0x1400A080, 0x6B000003, 0x54AD4600, 0x23B00001, 0x68800004, 0x1D04EC80]
/-- Head 0.5, tail 0, moment 0.25, gradient +1 and residual -2^-7 become what the example computes. -/
theorem test_update_element :
    let gw : Tab W32 := [(1, 0x3E000000), (2, 0x3F600000), (3, 0x3F780000), (4, 0x3B800000), (19, 0x3A000000)]
    let r := upElem gw wProg2 1 0 0 { head := 0x3F00, tail := 0, mom := 0x3E80, g := 0x3F80, e := 0xBC00, q := 0x3F800000, k := 0 }
    r.head = 0x3F00 ∧ r.tail = 0xDE000000 ∧ r.mom = 0x3E8C ∧ r.res = some 0xBB80 ∧ r.sat = false ∧ residual wProg2 = true := by
  decide +kernel

/-! 11_circulation_engine: the narrow sum in input order, and the vote count. -/

def wThree (w0 : Nat) (inp : Nat) (parts : List Machine.Part) : Ctx :=
  { Ctx.free with
    owner := 5
    defn := { hdr := [BitVec.ofNat 64 (w0 + 2 ^ 29 + 3 * 2 ^ 25), BitVec.ofNat 64 (8 * 2 ^ 32), BitVec.ofNat 64 inp, 0, 0, 0, 0, 0, 0], segs := [] }
    parts := parts }
def wBytes (l : List (List Byte)) : List Machine.Part :=
  ((List.range l.length).zip l).map (fun e => { chunk := 0, input := e.1, part := 0, bytes := e.2 })
/-- 1.0, 2^24 and 1.0 in BF16 sum to 2^24. -/
theorem test_narrow_sum :
    sumElem (wThree 0 0 (wBytes [[0x80, 0x3F], [0x80, 0x4B], [0x80, 0x3F]])) 0 0 = 0x4B800000 := by decide +kernel
/-- A 1-bit 0 and 4-bit counts of +5 and -7 sum to -1, and +9 is sent as +7. -/
theorem test_vote_sum :
    (voteIn 0 [0] 0).1 + (voteIn 2 [5] 0).1 + (voteIn 2 [9] 0).1 = -1 ∧ thin 2 9 = (7, true) := by decide +kernel

/-! 16_bringup_and_repair: quadrant 2 with physical clusters 9 and 11 out and four bad cores in cluster 4. -/

def wBadCore (cl : Fin 17) (k : Fin 100) : BadUnit := { q := 2, cl := cl, core := some k }
def wRepair : State :=
  { wLive with
    bup := { wBup with
      fused := [{ q := 2, cl := 9, core := none }, wBadCore 4 3, wBadCore 4 57]
      soft := [wBadCore 4 12, wBadCore 4 40, wBadCore 11 0, wBadCore 11 1, wBadCore 11 2, wBadCore 11 3, wBadCore 11 4] } }
theorem test_repair_map :
    serviceable wRepair 2 4 = true ∧ serviceable wRepair 2 11 = false ∧ offered wRepair 2 = 15 ∧ physCore wRepair 2 4 3 = 4 ∧
    physCore wRepair 2 4 95 = 99 := by decide +kernel

/-! 18_host_and_management: a crystal at +18 ppm measures 6,000,108,000 ticks a second; the second is valid and the pull
moves by -18 ppm. -/

theorem test_reference_second :
    let s := { wRef (some 1000) (some 6000108000) 6000109000 with sync := { (wRef (some 1000) (some 6000108000) 6000109000).sync with valid := 2 } }
    ∃ t, exec (.ppsEdge 10000000) s = .next t ∧ t.clk.extref = true ∧ t.clk.pull = -18000 := ⟨_, rfl, by decide +kernel⟩

/-! 19_register_reference: where RE_PIVOT_CNT of cluster 9 in quadrant 2 and LNK_CRD_ZERO of port Y-, group 2, stand. -/

theorem test_register_addresses :
    at' (pgRE 2 9) 0x108 = 0x01235108 ∧ pageInst (pgRE 2 9) = 0x29 ∧ pageCode (pgRE 2 9) = 0x31 ∧
    at' (pgLNK 3) (0x120 + 2 * 0x40) = 0x0001B1A0 := by decide +kernel

end Sys2Proof.Tests
end

section
/-! PROOFS. Plain register accesses: what a write of a page in service, a refused access and the read of an RC counter do
(R12, R14, R423), and the obligations O6 and O7. -/

namespace Sys2Proof

open Sys2Proof.Machine

/-! ## Registers that a transition leaves -/

theorem RegsKept.trans {s t u : State} {as bs : List Nat} (h : RegsKept s t as) (k : RegsKept t u bs) :
    RegsKept s u (as ++ bs) := fun x hx =>
  (k x (fun e => hx (List.mem_append_right _ e))).trans (h x (fun e => hx (List.mem_append_left _ e)))

theorem regsKept_setReg (s : State) (o : Nat) (v : W32) : RegsKept s (setReg s o v) [o] :=
  fun _ hx => reg_setReg_ne s v (by simpa using hx)

theorem regsKept_bump (s : State) (o n : Nat) : RegsKept s (bump s o n) [o] := regsKept_setReg s o _

theorem RegsKept.of_regs_eq {s t u : State} {os : List Nat} (h : RegsKept s t os) (e : u.regs = t.regs) :
    RegsKept s u os := fun x hx => (reg_congr e x).trans (h x hx)

/-! ## Plain writes (R12) -/

theorem at_aligned (p : Nat) {o : Nat} (h : o % 4 = 0) : at' p o % 4 = 0 := by unfold at'; omega

/-- REGISTER_WRITE reaches the register of a page in service. -/
theorem exec_registerWrite_served {s : State} {p o : Nat} (h : Served s p) (ho : o < 4096) (h4 : o % 4 = 0) (v : W32) :
    exec (.registerWrite (at' p o) v) s = .next (writeReg s p o v) := by
  obtain ⟨hp, hoff⟩ := at_page p o ho
  change execRegisterWrite (at' p o) v s = _
  simp only [execRegisterWrite, at_aligned p h4, hp, hoff, hostWrite_served h, ne_eq, not_true_eq_false, if_false]

theorem rwMask_custody {p : Nat} (o : Nat) (h : pageCode p = 0x0B) : rwMask p o = 0 := by simp [rwMask, h]

theorem rwMask_classMax {p : Nat} (h : pageCode p = 0x10) : rwMask p 0x108 = 0 := by simp [rwMask, h]

theorem rwMask_ringCtl {p o : Nat} (h : pageCode p = 0x04) (ho : o % 0x20 = 8) : rwMask p o = 0 := by
  simp [rwMask, h, ho]

theorem rwMask_clock {p : Nat} (o : Nat) (h : pageCode p = 0x07) : rwMask p o = 0 := by simp [rwMask, h]

/-- The registers whose write has a meaning of its own have no plain fields, so a write of a plain field sets these
fields; on the SYNC page a write that clears FREEZE also lets the trace queue take records again (R444). -/
theorem writeReg_plain {s : State} {p o : Nat} {v : W32} (hm : rwMask p o ≠ 0) (ht : takes s p o v = true) :
    writeReg s p o v =
      { setReg s (at' p o) (v &&& rwMask p o) with
        sync := { s.sync with frozen := s.sync.frozen && (decide (pageCode p ≠ 6) || bit v 2) } } := by
  have cus : pageCode p ≠ 0x0B := fun h => hm (rwMask_custody o h)
  have cls : ¬(pageCode p = 0x10 ∧ o = 0x108) := fun ⟨h, e⟩ => hm (e ▸ rwMask_classMax h)
  have rng : ¬(pageCode p = 0x04 ∧ 0x200 ≤ o ∧ o < 0x280 ∧ o % 0x20 = 8) := fun ⟨h, _, _, e⟩ => hm (rwMask_ringCtl h e)
  have clk : pageCode p ≠ 0x07 := fun h => hm (rwMask_clock o h)
  simp only [writeReg, cus, cls, rng, clk, hm, ht, false_and, if_false, Bool.not_true, Bool.false_eq_true, or_self]
  by_cases h6 : pageCode p = 6
  · cases hb : bit v 2
    · simp [h6]
    · simp [h6]; rfl
  · simp [h6]; rfl

/-- What a plain write changes: its register, the frozen trace queue (R444), and nothing else. -/
theorem exec_registerWrite_plain {s : State} {p o : Nat} {v : W32} (h : Served s p) (ho : o < 4096) (h4 : o % 4 = 0)
    (hm : rwMask p o ≠ 0) (ht : takes s p o v = true) :
    ∃ t, exec (.registerWrite (at' p o) v) s = .next t ∧ reg t (at' p o) = v &&& rwMask p o ∧
      RegsKept s t [at' p o] ∧ t = { s with regs := t.regs, sync := t.sync } ∧
      t.sync = { s.sync with frozen := s.sync.frozen && (decide (pageCode p ≠ 6) || bit v 2) } := by
  refine ⟨_, (exec_registerWrite_served h ho h4 v).trans (congrArg _ (writeReg_plain hm ht)), ?_, ?_, rfl, rfl⟩
  · exact reg_setReg s (at' p o) _
  · exact (regsKept_setReg s (at' p o) _).of_regs_eq rfl

/-! ## Refused accesses (R423) -/

/-- An access that is not an aligned 4 B one is refused; if it is a read, it completes with all ones. -/
theorem exec_hstBadAcc {s : State} {bar : Nat} (off : Nat) (w : Bool) (h0 : s.bup.bar0 = true) (hb : bar = 0 ∨ bar = 4) :
    exec (.hstBadAcc bar off w) s =
      .next { badAcc s bar off with out := if w then s.out else .rd 0xFFFFFFFF :: s.out } := by
  have hn : ¬(bar ≠ 0 ∧ bar ≠ 4) := by omega
  have hout : (badAcc s bar off).out = s.out := by simp
  change execHstBadAcc bar off w s = _
  simp only [execHstBadAcc, h0, hn, Bool.not_true, Bool.false_eq_true, or_self, if_false]
  cases w
  · simp only [Bool.false_eq_true, if_false, ← hout, emit]
  · simp only [if_true, ← hout]

/-- The counter of refused accesses is not a register that handing in a warning touches. -/
theorem reg_post_badCount (s : State) (code : Nat) (acc : BitVec 12) (d0 d1 : W32) :
    reg (post s pgHST sevWarning code acc d0 d1) (at' pgHST 0x104) = reg s (at' pgHST 0x104) :=
  post_regs s pgHST sevWarning code acc d0 d1 _ (by decide)

theorem reg_badAcc_count (s : State) (bar off : Nat) :
    reg (badAcc s bar off) (at' pgHST 0x104) = satAdd (reg s (at' pgHST 0x104)) 1 := by
  refine Eq.trans ?_ (reg_bump s (at' pgHST 0x104) 1)
  rcases badAcc_cases s bar off with ⟨-, e⟩ | ⟨-, e⟩
  · rw [e]
  · rw [e]; exact reg_post_badCount _ _ _ _ _

theorem regsKept_badAcc (s : State) (bar off : Nat) :
    RegsKept s (badAcc s bar off) [at' pgHST 0x104, at' pgLDG 0x10C] := by
  have hb := regsKept_bump s (at' pgHST 0x104) 1
  rcases badAcc_cases s bar off with ⟨-, e⟩ | ⟨-, e⟩
  · rw [e]; exact fun x hx => hb x (fun m => hx (List.mem_append_left [at' pgLDG 0x10C] m))
  · rw [e]; exact (hb.trans (post_regs _ pgHST sevWarning 0x1201 0 _ 0)).of_regs_eq rfl

/-- Within a millisecond of the last entry the Ledger takes none. -/
theorem badAcc_recent {s : State} (bar off : Nat) (h : Recent s.ldg.badAcc s.clk.dst msTicks) :
    (badAcc s bar off).ldg = s.ldg := by
  rcases badAcc_cases s bar off with ⟨-, e⟩ | ⟨hn, -⟩
  · rw [e]; rfl
  · exact absurd h hn

/-- A millisecond after the last entry a new one is handed in, and its instant kept. -/
theorem badAcc_logged {s : State} (bar off : Nat) (h : ¬ Recent s.ldg.badAcc s.clk.dst msTicks) :
    (badAcc s bar off).ldg.badAcc = some s.clk.dst ∧
      Logged s (badAcc s bar off) pgHST 1 0x1201 0 (BitVec.ofNat 32 (bar % 8 * 2 ^ 29 + off % 2 ^ 29)) 0 := by
  rcases badAcc_cases s bar off with ⟨hr, -⟩ | ⟨-, e⟩
  · exact absurd hr h
  · rw [e]
    exact ⟨by simp, post_logged (bump s (at' pgHST 0x104) 1) pgHST sevWarning 0x1201 0 _ 0⟩

theorem eq_with_regs_ldg_out_of_badAcc (s : State) (bar off : Nat) (os : List Out) :
    { badAcc s bar off with out := os } =
      { s with regs := (badAcc s bar off).regs, ldg := (badAcc s bar off).ldg, out := os } := by
  obtain ⟨l, r, e⟩ := badAcc_touches s bar off
  rw [e]

/-- Settles O6: a plain write by the fields it sets (`writeReg_plain`), a refused access by what `badAcc` leaves. -/
theorem registerAccess : Obligations.RegisterAccess := by
  refine ⟨fun p o v s h ho h4 hm ht => exec_registerWrite_plain h ho h4 hm ht, fun bar off w s h0 hb => ?_⟩
  exact ⟨_, exec_hstBadAcc off w h0 hb, reg_badAcc_count s bar off, rfl,
    (regsKept_badAcc s bar off).of_regs_eq rfl, badAcc_recent bar off, badAcc_logged bar off,
    eq_with_regs_ldg_out_of_badAcc s bar off _⟩

/-! ## RC counters (R14) -/

/-- RC_COUNTER_READ of an RC register of a page in service returns the count and clears it; the hardware's increments of
the same clock come after. -/
theorem exec_rcCounterRead_rc {s : State} {p o : Nat} (h : Served s p) (ho : o < 4096) (h4 : o % 4 = 0)
    (hrc : isRC p o = true) (n : Nat) :
    exec (.rcCounterRead (at' p o) n) s = .next (emit (clearRC s p o n) (.rd (readReg s p o))) := by
  obtain ⟨hp, hoff⟩ := at_page p o ho
  obtain ⟨hbar, habs, hlive⟩ := h
  change execRcCounterRead (at' p o) n s = _
  simp [execRcCounterRead, at_aligned p h4, hp, hoff, hbar, habs, hlive, hrc]

/-- Outside the queue pool an RC counter is a register of its own. -/
theorem clearRC_register {p : Nat} (s : State) (o n : Nat) (h : pageCode p ≠ 0x10) :
    clearRC s p o n = setReg s (at' p o) (BitVec.ofNat 32 (min n 0xFFFFFFFF)) := by
  simp [clearRC, h, w32]

/-- QP_LOST is the count of the class that QP_SEL names. -/
theorem clearRC_classLost (s : State) (n : Nat) :
    clearRC s pgQP 0x110 n = { s with fab := { s.fab with
      clsLost := tput 0 s.fab.clsLost (fld (reg s (at' pgQP 0x100)) 3 0) (min n 0xFFFFFFFF) } } := rfl

theorem rcCounterRead_register {s : State} {p o : Nat} (n : Nat) (h : Served s p) (ho : o < 4096) (h4 : o % 4 = 0)
    (hrc : isRC p o = true) (hp : pageCode p ≠ 0x10) :
    ∃ t, exec (.rcCounterRead (at' p o) n) s = .next t ∧ t.out = .rd (readReg s p o) :: s.out ∧
      reg t (at' p o) = BitVec.ofNat 32 (min n 0xFFFFFFFF) ∧ RegsKept s t [at' p o] ∧
      t = { s with regs := t.regs, out := t.out } := by
  refine ⟨_, (exec_rcCounterRead_rc h ho h4 hrc n).trans (by rw [clearRC_register s o n hp]), rfl, ?_, ?_, rfl⟩
  · exact reg_setReg s (at' p o) _
  · exact (regsKept_setReg s (at' p o) _).of_regs_eq rfl

theorem rcCounterRead_classLost {s : State} (n : Nat) (h : Served s pgQP) :
    ∃ t, exec (.rcCounterRead (at' pgQP 0x110) n) s = .next t ∧ t.out = .rd (readReg s pgQP 0x110) :: s.out ∧
      tget 0 t.fab.clsLost (fld (reg s (at' pgQP 0x100)) 3 0) = min n 0xFFFFFFFF ∧
      t = { s with fab := { s.fab with clsLost := t.fab.clsLost }, out := t.out } := by
  refine ⟨_, (exec_rcCounterRead_rc h (by decide) (by decide) (by decide) n).trans
    (by rw [clearRC_classLost]), rfl, ?_, rfl⟩
  exact tget_tput_self 0 s.fab.clsLost _ _

/-- A saturating counter stays at its largest value (R14). -/
theorem reg_bump_largest {s : State} {o : Nat} (n : Nat) (h : reg s o = 0xFFFFFFFF) :
    reg (bump s o n) o = 0xFFFFFFFF := by
  have hmin : min 0xFFFFFFFF ((0xFFFFFFFF#32).toNat + n) = 0xFFFFFFFF := Nat.min_eq_left (Nat.le_add_right _ _)
  rw [reg_bump, h]
  exact congrArg (BitVec.ofNat 32) hmin

/-- Below its largest value it counts every event. -/
theorem toNat_reg_bump {s : State} {o n : Nat} (h : (reg s o).toNat + n < 2 ^ 32) :
    (reg (bump s o n) o).toNat = (reg s o).toNat + n := by
  rw [reg_bump, Nat.min_eq_right (by omega), BitVec.toNat_ofNat, Nat.mod_eq_of_lt h]

/-- Settles O7: the read of a register and of QP_LOST by what `clearRC` leaves, saturation by what `bump` adds. -/
theorem rcCounters : Obligations.RcCounters :=
  ⟨fun _ _ n _ h ho h4 hrc hp => rcCounterRead_register n h ho h4 hrc hp,
    fun n _ h => rcCounterRead_classLost n h,
    fun _ _ n h => reg_bump_largest n h,
    fun _ _ _ h => toNat_reg_bump h⟩

end Sys2Proof
end

section
/-! PROOFS. Changes that do no more to the jobs than fault them: a job's fault (R46), the messages of this module (R281) and
collisions in a cluster (R45). -/

namespace Sys2Proof

open Sys2Proof.Machine

/-! ## A job that faults (R46) -/

theorem runSlot_runs_or_stops {s : State} {c : CoreId} {j : Nat} (h : runSlot s c = some j) :
    resident (getJob s j).st = true ∨ (getJob s j).st = .faulted := by
  unfold runSlot runQuad at h
  cases hr : runningOn s c.cl.q.val with
  | some i =>
    have hp := List.find?_some hr
    obtain rfl : i = j := by simpa [hr] using h
    obtain ⟨hst, -⟩ : (getJob s i).st = .running ∧ _ := by simpa using hp
    exact .inl (by rw [hst]; rfl)
  | none =>
    have hs : stoppingOn s c.cl.q.val = some j := by simpa [hr] using h
    unfold stoppingOn at hs
    split at hs
    · split at hs
      · next hst => cases hs; exact .inr hst
      · cases hs
    · cases hs

/-- A job that is resident, or faulted already, is FAULTED after its fault. -/
theorem jobFault_faulted {s : State} {j : Nat} (h : resident (getJob s j).st = true ∨ (getJob s j).st = .faulted) :
    (getJob (jobFault s j) j).st = .faulted := by
  obtain ⟨stays, faults, -⟩ := jobFault_slots s j
  cases hr : resident (getJob s j).st with
  | true => exact faults hr
  | false => rw [stays hr]; exact h.resolve_left (by simp [hr])

/-- No fault takes a slot out of FAULTED. -/
theorem jobFault_keeps_faulted {s : State} {i : Nat} (j : Nat) (h : (getJob s i).st = .faulted) :
    (getJob (jobFault s j) i).st = .faulted := by
  by_cases e : i = j
  · subst e; exact jobFault_faulted (.inr h)
  · rw [(jobFault_slots s j).2.2 i e]; exact h

/-! ## Changes that do no more to the jobs than fault them -/

/-- The offset is none of the registers that hold the address of a slot's image. -/
def NotImgAddr (o : Nat) : Prop :=
  ∀ k < 4, at' pgSCH (0x11C + 0x40 * k) ≠ o ∧ at' pgSCH (0x120 + 0x40 * k) ≠ o

/-- Each slot's state and image stay, or its job is FAULTED; the addresses of images stay. -/
structure FaultsOnly (s t : State) : Prop where
  jobs : ∀ k, (getJob t k).st = .faulted ∨
    (getJob t k).st = (getJob s k).st ∧ (getJob t k).img = (getJob s k).img
  addr : ∀ k < 4, imgAddr t k = imgAddr s k

theorem notImgAddr_of_page {p : Nat} (o : Nat) (h : pgSCH < p) : NotImgAddr (at' p o) := by
  intro k hk
  simp only [at', pgSCH] at *
  omega

theorem imgAddr_of_regsKept {s t : State} {os : List Nat} (h : RegsKept s t os) (ho : ∀ o ∈ os, NotImgAddr o) :
    ∀ k < 4, imgAddr t k = imgAddr s k := by
  intro k hk
  have lo : reg t (at' pgSCH (0x11C + 0x40 * k)) = reg s (at' pgSCH (0x11C + 0x40 * k)) :=
    h _ (fun hm => (ho _ hm k hk).1 rfl)
  have hi : reg t (at' pgSCH (0x120 + 0x40 * k)) = reg s (at' pgSCH (0x120 + 0x40 * k)) :=
    h _ (fun hm => (ho _ hm k hk).2 rfl)
  unfold imgAddr
  rw [lo, hi]

section
variable {s t u : State}

theorem FaultsOnly.trans (h : FaultsOnly s t) (h' : FaultsOnly t u) : FaultsOnly s u where
  jobs k := by
    rcases h'.jobs k with hf | ⟨hst, himg⟩
    · exact .inl hf
    · rw [hst, himg]; exact h.jobs k
  addr k hk := (h'.addr k hk).trans (h.addr k hk)

theorem FaultsOnly.of_regsKept {os : List Nat} (hj : t.jobs = s.jobs) (h : RegsKept s t os)
    (ho : ∀ o ∈ os, NotImgAddr o) : FaultsOnly s t where
  jobs k := .inr (by rw [getJob_congr hj]; exact ⟨rfl, rfl⟩)
  addr := imgAddr_of_regsKept h ho

/-- Neither jobs nor registers change. -/
theorem FaultsOnly.of_eq (hj : t.jobs = s.jobs) (hr : t.regs = s.regs) : FaultsOnly s t :=
  .of_regsKept (os := []) hj (fun o _ => reg_congr hr o) (by simp)

protected theorem FaultsOnly.refl (s : State) : FaultsOnly s s := .of_eq rfl rfl

theorem faultsOnly_bump (s : State) {o : Nat} (n : Nat) (ho : NotImgAddr o) : FaultsOnly s (bump s o n) :=
  .of_regsKept rfl (regsKept_bump s o n) (by simpa using ho)

theorem faultsOnly_post (s : State) {src : Nat} (sev code : Nat) (acc : BitVec 12) (d0 d1 : W32) (h : pgSCH < src) :
    FaultsOnly s (post s src sev code acc d0 d1) := by
  refine .of_regsKept (by simp) (post_regs s src sev code acc d0 d1) (fun o ho => ?_)
  rcases List.mem_cons.1 ho with rfl | ho
  · intro k _; simp only [at', pgSCH, pgLDG]; omega
  · obtain rfl : o = at' src 0x18 := by
      split at ho
      · simpa using ho
      · cases ho
    exact notImgAddr_of_page _ h

theorem regsKept_jobFault (s : State) (j : Nat) : RegsKept s (jobFault s j) [at' pgQP 0x130, at' pgSCH 0x10] := by
  unfold jobFault
  dsimp only
  split
  · exact fun _ _ => rfl
  · exact ((regsKept_bump s (at' pgQP 0x130) _).of_regs_eq rfl).trans (raiseInt_spec _ pgSCH j).2

theorem faultsOnly_jobFault (s : State) (j : Nat) : FaultsOnly s (jobFault s j) where
  jobs k := by
    obtain ⟨stays, faults, others⟩ := jobFault_slots s j
    by_cases e : k = j
    · subst e
      cases hr : resident (getJob s k).st with
      | true => exact .inl (faults hr)
      | false => rw [stays hr]; exact .inr ⟨rfl, rfl⟩
    · rw [others k e]; exact .inr ⟨rfl, rfl⟩
  addr := by
    refine imgAddr_of_regsKept (regsKept_jobFault s j) (fun o ho => ?_)
    rcases List.mem_pair.1 ho with rfl | rfl
    · exact notImgAddr_of_page _ (by decide)
    · intro k _; simp only [at', pgSCH]; omega

theorem faultsOnly_foldl {β : Type} {f : State → β → State} (hf : ∀ s b, FaultsOnly s (f s b)) (l : List β)
    (s : State) : FaultsOnly s (l.foldl f s) := by
  induction l generalizing s with
  | nil => exact .refl s
  | cons b r ih => exact (hf s b).trans (ih _)

end

/-- The job that is first on a quadrant is FAULTED, or still the first there. -/
theorem FaultsOnly.residentOn_or_faulted {s t : State} {q i : Nat} (h : FaultsOnly s t) (hi : residentOn s q = some i) :
    (getJob t i).st = .faulted ∨ residentOn t q = some i := by
  have same : ∀ k < 4, (getJob t k).st = .faulted ∨
      (resident (getJob t k).st && (jobQuads t k).contains q) =
        (resident (getJob s k).st && (jobQuads s k).contains q) := by
    intro k hk
    rcases h.jobs k with hf | ⟨hst, himg⟩
    · exact .inl hf
    · right; simp only [jobQuads, hst, himg, h.addr k hk]
  have slots : ∀ k ∈ [0, 1, 2, 3], k < 4 := by decide
  unfold residentOn at hi ⊢
  obtain ⟨hp, before, after, hl, hb⟩ := List.find?_eq_some_iff_append.1 hi
  rcases same i (slots i (hl ▸ by simp)) with hf | he
  · exact .inl hf
  · refine .inr (List.find?_eq_some_iff_append.2 ⟨he.trans hp, before, after, hl, fun k hk => ?_⟩)
    rcases same k (slots k (hl ▸ List.mem_append_left _ hk)) with hf | he
    · rw [hf]; rfl
    · rw [he]; exact hb k hk

/-- A fault that is counted and logged first. -/
theorem faultsOnly_countedFault (s : State) {o src : Nat} (sev code : Nat) (acc : BitVec 12) (d0 d1 : W32) (j : Nat)
    (ho : NotImgAddr o) (hsrc : pgSCH < src) : FaultsOnly s (jobFault (post (bump s o 1) src sev code acc d0 d1) j) :=
  ((faultsOnly_bump s 1 ho).trans (faultsOnly_post _ sev code acc d0 d1 hsrc)).trans (faultsOnly_jobFault _ j)

/-! ## Messages of this module -/

theorem faultsOnly_injPut (s : State) (j g : Nat) (p : Packet) : FaultsOnly s (injPut s j g p) := by
  unfold injPut
  split
  · exact .of_eq rfl rfl
  · exact faultsOnly_countedFault s _ _ _ _ _ _ (notImgAddr_of_page _ (by decide)) (by decide)

theorem faultsOnly_rtrDrop (s : State) (code who acc g mid : Nat) : FaultsOnly s (rtrDrop s code who acc g mid) := by
  unfold rtrDrop
  split
  · exact faultsOnly_countedFault s _ _ _ _ _ _ (notImgAddr_of_page _ (by decide)) (by decide)
  · exact faultsOnly_post _ _ _ _ _ _ (by decide)

theorem faultsOnly_originateMc (s : State) (j g ed x : Nat) (p : Packet) : FaultsOnly s (originateMc s j g ed x p) := by
  unfold originateMc
  dsimp only
  split
  · exact faultsOnly_rtrDrop _ _ _ _ _ _
  · split
    · exact faultsOnly_injPut _ _ _ _
    · exact faultsOnly_rtrDrop _ _ _ _ _ _

theorem faultsOnly_originate (s : State) (j g : Nat) (p : Packet) : FaultsOnly s (originate s j g p) := by
  have hfresh : FaultsOnly s (fresh s) := .of_eq rfl rfl
  unfold originate
  dsimp only
  split
  · exact faultsOnly_originateMc _ _ _ _ _ _
  · split
    · split
      · exact hfresh.trans (faultsOnly_injPut _ _ _ _)
      · exact hfresh.trans (faultsOnly_rtrDrop _ _ _ _ _ _)
    · exact hfresh.trans (faultsOnly_rtrDrop _ _ _ _ _ _)

theorem faultsOnly_originateAll (s : State) (j g : Nat) (ps : List Packet) : FaultsOnly s (originateAll s j g ps) := by
  refine faultsOnly_foldl (fun s p => ?_) ps s
  split
  · exact faultsOnly_originate s j g p
  · exact .refl s

/-- A message number is taken: the slot's state and image stay. -/
theorem faultsOnly_nextMid (s : State) (j : Nat) : FaultsOnly s (nextMid s j).2 where
  jobs k := by
    right
    unfold nextMid
    by_cases e : k = j
    · subst e; simp
    · simp [getJob_setJob_ne _ _ e]
  addr := imgAddr_of_regsKept (os := []) (fun _ _ => rfl) (by simp)

theorem faultsOnly_sendMessages (s : State) (j g mt dst : Nat) (mk : Nat → W128) (ps : List (Nat × List Byte)) :
    FaultsOnly s (sendMessages s j g mt dst mk ps) :=
  faultsOnly_foldl (fun s _ => (faultsOnly_nextMid s j).trans (faultsOnly_originateAll _ j g _)) _ s

/-! ## Collisions (R45) -/

theorem pgSCH_lt_pgQD (q : Nat) : pgSCH < pgQD q := by simp only [pgSCH, pgQD]; omega

theorem pgSCH_lt_pgCLU (q c : Nat) : pgSCH < pgCLU q c := by simp only [pgSCH, pgCLU, pgQD]; omega

theorem faultOpt_keeps_faulted {s : State} {i : Nat} (o : Option Nat) (h : (getJob s i).st = .faulted) :
    (getJob (faultOpt s o) i).st = .faulted := by
  cases o with
  | none => exact h
  | some j => exact jobFault_keeps_faulted j h

theorem resident_of_residentOn {s : State} {q i : Nat} (h : residentOn s q = some i) :
    resident (getJob s i).st = true := by
  have hp := List.find?_some h
  exact (Bool.and_eq_true_iff.1 hp).1

theorem jobOn_of_residentOn {s : State} {q i : Nat} (h : residentOn s q = some i) : jobOn s q = some i := by
  simp only [jobOn, h]

/-- A collision in a cluster counts, logs, and then faults the job that works on the quadrant, if any. -/
theorem cluCollide_eq_faultOpt (s : State) (cl : Clu) (x : Collision) :
    ∃ u, u.jobs = s.jobs ∧ u.mem = s.mem ∧ u.cores = s.cores ∧ u.clk = s.clk ∧
      cluCollide s cl x = faultOpt u (jobOn (bump s (at' (pgCLU cl.q.val cl.c.val) 0x104) 1) cl.q.val) := by
  unfold cluCollide collide
  simp only [if_neg (show ¬(0x104 = 0) by decide)]
  generalize hj : jobOn (bump s (at' (pgCLU cl.q.val cl.c.val) 0x104) 1) cl.q.val = o
  cases o with
  | none => exact ⟨post _ _ _ _ _ _ _, by simp, by simp, by simp, by simp, rfl⟩
  | some j => exact ⟨post _ _ _ _ _ _ _, by simp, by simp, by simp, by simp, rfl⟩

theorem cluCollide_frame (s : State) (cl : Clu) (x : Collision) :
    (cluCollide s cl x).mem = s.mem ∧ (cluCollide s cl x).cores = s.cores ∧ (cluCollide s cl x).clk = s.clk := by
  obtain ⟨u, -, hmem, hcores, hclk, e⟩ := cluCollide_eq_faultOpt s cl x
  rw [e]
  simp [hmem, hcores, hclk]

/-- A collision in a cluster faults the job that is resident on its quadrant, and no slot leaves FAULTED. -/
theorem cluCollide_faulted {s : State} {cl : Clu} (x : Collision) {i : Nat}
    (h : (getJob s i).st = .faulted ∨ residentOn s cl.q.val = some i) :
    (getJob (cluCollide s cl x) i).st = .faulted := by
  obtain ⟨u, hjobs, -, -, -, e⟩ := cluCollide_eq_faultOpt s cl x
  have counted : FaultsOnly s (bump s (at' (pgCLU cl.q.val cl.c.val) 0x104) 1) :=
    faultsOnly_bump s 1 (notImgAddr_of_page _ (pgSCH_lt_pgCLU _ _))
  have sameJob : getJob (bump s (at' (pgCLU cl.q.val cl.c.val) 0x104) 1) i = getJob u i :=
    (getJob_congr (s := s) (t := bump s _ 1) rfl i).trans (getJob_congr hjobs i).symm
  rw [e]
  rcases h with hf | hr
  · exact faultOpt_keeps_faulted _ (by rw [getJob_congr hjobs]; exact hf)
  · rcases counted.residentOn_or_faulted hr with hf | hr
    · exact faultOpt_keeps_faulted _ (sameJob ▸ hf)
    · rw [jobOn_of_residentOn hr]
      exact jobFault_faulted (.inl (sameJob ▸ resident_of_residentOn hr))

end Sys2Proof
end

section
/-! PROOFS. The move engine (R20, R159 to R161, R481): the start of the queue's head, the lines of a move, completion. -/

namespace Sys2Proof

open Sys2Proof.Machine

theorem getCore_congr {s t : State} (h : t.cores = s.cores) (c : CoreId) : getCore t c = getCore s c := by
  simp only [getCore, h]

theorem onlyCore_setCore (s : State) (c : CoreId) (x : Core) : OnlyCore s (setCore s c x) c :=
  ⟨rfl, fun _ hd => getCore_setCore_ne s x hd⟩

/-! ## The start of the queue's head (R159) -/

section
variable {s : State} {c : CoreId} {j : Nat} {m : Move} {rest : List Move}
  (hj : runSlot s c = some j) (hq : (getCore s c).mq = m :: rest)
include hj hq

theorem exec_moveIssueStart_early (h : s.clk.dst < max m.launch (getCore s c).mvFree) (y : Option Collision) :
    exec (.moveIssueStart c y) s = .next s := by
  change execMoveIssueStart c y s = _
  simp only [execMoveIssueStart, hj, hq, if_pos h]

theorem exec_moveIssueStart_due (h : max m.launch (getCore s c).mvFree ≤ s.clk.dst) :
    exec (.moveIssueStart c none) s = .next (startMove s c j (max m.launch (getCore s c).mvFree) m) := by
  change execMoveIssueStart c none s = _
  simp only [execMoveIssueStart, hj, hq, if_neg (not_lt.2 h)]

theorem exec_moveIssueStart_meets (h : max m.launch (getCore s c).mvFree ≤ s.clk.dst) (y : Collision) :
    exec (.moveIssueStart c (some y)) s = .next (cluCollide
      (if y.lo = 6 + c.cl.c.val then s else startMove s c j (max m.launch (getCore s c).mvFree) m) c.cl y) := by
  change execMoveIssueStart c (some y) s = _
  simp only [execMoveIssueStart, hj, hq, if_neg (not_lt.2 h)]

end

section
variable {s : State} {c : CoreId} {m : Move} {a : End} {b : Option End} (j t : Nat)
  (h3 : m.op ≠ 3) (h5 : m.op ≠ 5) (he : mdEnds s c m.op m.md m.ofs = some (a, b))
include h3 h5 he

/-- A masked move, or one whose path is open, leaves the queue for the engine. -/
theorem startMove_issues (h : m.masked = true ∨ pathClosed s j c.cl.q.val (otherQuad c a b) = false) :
    startMove s c j t m = issueHead s c t m (if m.masked then [] else movePlan m a b) := by
  have hsig : m.op ≠ opSIG := h5
  have hget : m.op ≠ opGET := h3
  unfold startMove
  simp only [hsig, hget, he, if_false]
  cases hm : m.masked with
  | true => simp
  | false => simp [h.resolve_left (by simp [hm])]

/-- A move whose path uses a closed neighbour link is dropped (R20). -/
theorem startMove_closed (hm : m.masked = false) (hc : pathClosed s j c.cl.q.val (otherQuad c a b) = true) :
    startMove s c j t m = closedLink s c j m := by
  have hsig : m.op ≠ opSIG := h5
  have hget : m.op ≠ opGET := h3
  unfold startMove
  simp [hsig, hget, he, hm, hc]

end

theorem issueHead_core (s : State) (c : CoreId) (t : Nat) {m : Move} {rest : List Move} (evs : List Ev)
    (hq : (getCore s c).mq = m :: rest) :
    getCore (issueHead s c t m evs) c = { getCore s c with
      mq := rest, mvFree := t + 4 * m.lines
      mvFly := (getCore s c).mvFly ++ [{ m with start := some t, plan := placeEvs t evs }] } := by
  simp [issueHead, hq, cyc]

/-- A move dropped at a closed link leaves the queue and no other trace in the core; the job faults, memory stays (R20). -/
theorem closedLink_spec {s : State} {c : CoreId} {j : Nat} {m : Move} {rest : List Move}
    (hj : runSlot s c = some j) (hq : (getCore s c).mq = m :: rest) :
    getCore (closedLink s c j m) c = { getCore s c with mq := rest } ∧
      (getJob (closedLink s c j m) j).st = .faulted ∧ (closedLink s c j m).mem = s.mem := by
  refine ⟨?_, ?_, by simp [closedLink]⟩
  · have dropped : (closedLink s c j m).cores =
        (setCore s c { getCore s c with mq := (getCore s c).mq.drop 1 }).cores := by
      simp [closedLink]
    rw [getCore_congr dropped, getCore_setCore, hq]
    rfl
  · refine jobFault_faulted ?_
    rw [getJob_congr (s := s) (by simp)]
    exact runSlot_runs_or_stops hj

/-! ## What the start of a move does to the jobs -/

theorem faultsOnly_issueHead (s : State) (c : CoreId) (t : Nat) (m : Move) (evs : List Ev) :
    FaultsOnly s (issueHead s c t m evs) := .of_eq rfl rfl

theorem faultsOnly_closedLink (s : State) (c : CoreId) (j : Nat) (m : Move) : FaultsOnly s (closedLink s c j m) := by
  have dropped : FaultsOnly s (setCore s c { getCore s c with mq := (getCore s c).mq.drop 1 }) := .of_eq rfl rfl
  exact (dropped.trans (faultsOnly_post _ _ _ _ _ _ (pgSCH_lt_pgQD _))).trans (faultsOnly_jobFault _ j)

theorem faultsOnly_startSig (s : State) (c : CoreId) (j t : Nat) (m : Move) : FaultsOnly s (startSig s c j t m) := by
  unfold startSig
  split
  · exact .refl s
  · exact (faultsOnly_issueHead s c t m []).trans (faultsOnly_sendMessages _ _ _ _ _ _ _)

theorem faultsOnly_setFab (s : State) (f : Fabric) : FaultsOnly s { s with fab := f } := .of_eq rfl rfl

theorem faultsOnly_startGet (s : State) (c : CoreId) (j t : Nat) (m : Move) (a : End) :
    FaultsOnly s (startGet s c j t m a) := by
  have issued := faultsOnly_issueHead s c t m []
  unfold startGet
  dsimp only
  split
  · exact (issued.trans (faultsOnly_post _ _ _ _ _ _ (by decide))).trans (faultsOnly_jobFault _ j)
  · exact (issued.trans (faultsOnly_setFab _ _)).trans (faultsOnly_sendMessages _ _ _ _ _ _ _)

theorem faultsOnly_startMove (s : State) (c : CoreId) (j t : Nat) (m : Move) : FaultsOnly s (startMove s c j t m) := by
  unfold startMove
  split
  · exact faultsOnly_startSig s c j t m
  · split
    · exact .refl s
    · split
      · exact faultsOnly_startGet s c j t m _
      · split
        · exact faultsOnly_issueHead s c t m []
        · split
          · exact faultsOnly_closedLink s c j m
          · exact faultsOnly_issueHead s c t m _

/-! ## Lines (R159, R160) -/

/-- Outside HBM no memory-port slot is asked for. -/
theorem portAccept_grid (s : State) (j : Nat) (w : Who) {line : Nat} (h : spaceOf (64 * line) ≠ 0) :
    portAccept s j w line = (s, true) := by
  simp [portAccept, h]

theorem readLine_flawless {s : State} (h : s.flaws = []) (w : Who) (line : Nat) (want : Nat → Bool) :
    readLine s w line want = (s, some (rdBytes s (64 * line) 64)) := by
  simp [readLine, h]

theorem store_flawless {s : State} (h : s.flaws = []) (w : Who) (cs : List Host.Cell) : store s w cs = wrCells s cs := by
  simp [store, flawsOf, h]

section
variable {s : State} {c : CoreId} {j : Nat} {m : Move} {a b : End} {e : Ev} (hj : jobOn s c.cl.q.val = some j)
  (he : mdEnds s c m.op m.md m.ofs = some (a, some b)) (hf : s.flaws = []) (hs : spaceOf (64 * e.line) ≠ 0)
include hj he hf hs

theorem mvEvent_reads (hk : e.kind = .rd) :
    mvEvent s c m e = (s, { m with held := (e.line, rdBytes s (64 * e.line) 64) :: m.held }) := by
  simp [mvEvent, hj, he, hk, portAccept_grid _ _ _ hs, readLine_flawless hf]

theorem mvEvent_writes (hk : e.kind = .wr) : mvEvent s c m e = (wrCells s (lineCells m a b e.grp e.line), m) := by
  simp [mvEvent, hj, he, hk, portAccept_grid _ _ _ hs, store_flawless hf]

end

/-- Without TRS byte i of a destination row is byte i of the source row. -/
theorem mem_lineCells {m : Move} (a b : End) {r i p q line : Nat} (ht : mdTrs m.md = false)
    (hp : (a.rowAddrs r)[i]? = some p) (hq : (b.rowAddrs r)[i]? = some q) (hl : q / 64 = line) :
    (q, movedByte m.held p) ∈ lineCells m a b r line := by
  have hz : (p, q) ∈ (a.rowAddrs r).zip (b.rowAddrs r) :=
    List.mem_of_getElem? (List.getElem?_zip_eq_some.2 ⟨hp, hq⟩)
  simp only [lineCells, ht, Bool.false_eq_true, if_false]
  exact List.mem_map.2 ⟨(p, q), List.mem_filter.2 ⟨hz, by simp [lineOf, hl]⟩, rfl⟩

/-! ## Completion (R161, R481) -/

theorem credit_spec (s : State) (k n : Nat) :
    getCtr (credit s k n 1) k n = { getCtr s k n with sum := (getCtr s k n).sum - 1, at' := s.clk.dst } ∧
      (k, n) ∈ (credit s k n 1).dirty ∧
      credit s k n 1 = { s with clus := (credit s k n 1).clus, dirty := (credit s k n 1).dirty } := by
  obtain ⟨hctr, -, hdirty, heq⟩ := ctrAdd_spec s k n (-1) none
  exact ⟨hctr, hdirty, heq⟩

/-- The oldest move leaves the engine when it is due. -/
theorem exec_moveComplete_move {s : State} {c : CoreId} {m : Move} {rest : List Move} {x : Nat}
    (hq : (getCore s c).mvFly = m :: rest) (hd : moveDue m = some x) (hx : x ≤ s.clk.dst) :
    exec (.moveComplete c) s = .next (moveDone (setCore s c { getCore s c with mvFly := rest }) c m.cc) := by
  change execMoveComplete c s = _
  simp [execMoveComplete, hq, findIdx?, hd, hx, removeAt]

/-- Where no move is in flight the oldest LDTD or STTD leaves when it is due. -/
theorem exec_moveComplete_td {s : State} {c : CoreId} {o : TdOp} {rest : List TdOp}
    (hm : (getCore s c).mvFly = []) (hq : (getCore s c).tdFly = o :: rest) (hd : o.due ≤ s.clk.dst) :
    (o.cc = none → exec (.moveComplete c) s = .next (setCore s c { getCore s c with tdFly := rest })) ∧
      ∀ n, o.cc = some n →
        exec (.moveComplete c) s = .next (credit (setCore s c { getCore s c with tdFly := rest }) c.cl.key n 1) := by
  change (_ → execMoveComplete c s = _) ∧ ∀ n, _ → execMoveComplete c s = _
  constructor
  · intro hcc
    simp [execMoveComplete, hm, hq, findIdx?, hd, removeAt, hcc]
  · intro n hcc
    simp [execMoveComplete, hm, hq, findIdx?, hd, removeAt, hcc]

/-- A completed move counts in CLU_MOVE_CNT and credits the counter that it names. -/
theorem moveDone_spec (s : State) (c : CoreId) (cc : Option Nat) :
    let p := at' (pgCLU c.cl.q.val c.cl.c.val) 0x188
    let t := moveDone s c cc
    t.cores = s.cores ∧ t.regs = (bump s p 1).regs ∧
      (cc = none → t = { s with regs := t.regs }) ∧
      (∀ n, cc = some n → getCtr t c.cl.key n = { getCtr s c.cl.key n with
          sum := (getCtr s c.cl.key n).sum - 1, at' := s.clk.dst } ∧ (c.cl.key, n) ∈ t.dirty ∧
        t = { s with regs := t.regs, clus := t.clus, dirty := t.dirty }) := by
  cases cc with
  | none => exact ⟨rfl, rfl, fun _ => rfl, by simp⟩
  | some n =>
    obtain ⟨hctr, hdirty, -⟩ := credit_spec (bump s (at' (pgCLU c.cl.q.val c.cl.c.val) 0x188) 1) c.cl.key n
    refine ⟨rfl, rfl, by simp, fun k hk => ?_⟩
    obtain rfl : n = k := by simpa using hk
    exact ⟨hctr, hdirty, rfl⟩

end Sys2Proof
end

section
/-! PROOFS. An LDTD or STTD that meets a line of a queued move (R481), and the obligation O25. -/

namespace Sys2Proof

open Sys2Proof.Machine

/-! ## Units without an event in this cycle -/

theorem dueEvs_congr {s t : State} (h : t.clk = s.clk) (p : List Ev) : dueEvs t p = dueEvs s p := by
  simp only [dueEvs, h]

theorem coreOfKey_key (c : CoreId) : coreOfKey c.key = c := by
  obtain ⟨⟨q, cl⟩, k⟩ := c
  simp only [coreOfKey, CoreId.key, Clu.key, CoreId.mk.injEq, Clu.mk.injEq, Fin.ext_iff, Fin.val_ofNat]
  omega

theorem coreDue_eq_false_iff (s : State) (k : Core) :
    coreDue s k = false ↔ (∀ f ∈ k.mxFly, dueEvs s f.plan = []) ∧ (∀ f ∈ k.stFly, dueEvs s f.plan = []) ∧
      (∀ o ∈ k.tdFly, dueEvs s o.plan = []) ∧ ∀ m ∈ k.mvFly, dueEvs s m.plan = [] := by
  simp [coreDue, and_assoc]

/-- Operations without an event in this cycle make no access. -/
theorem listUses_eq_nil {α : Type} {s : State} {plan : α → List Ev} {l : List α} (h : ∀ x ∈ l, dueEvs s (plan x) = [])
    (key unit : Nat) (user : Bool → SlotUse) : listUses s key unit user plan l = [] := by
  refine List.flatMap_eq_nil_iff.2 (fun e he => ?_)
  simp [usesOf, h e.2 (List.of_mem_zip he).2]

theorem coreUses_eq_nil {s : State} {k : Core} (hmx : ∀ f ∈ k.mxFly, dueEvs s f.plan = [])
    (hst : ∀ f ∈ k.stFly, dueEvs s f.plan = []) (htd : issuing s k = true ∨ ∀ o ∈ k.tdFly, dueEvs s o.plan = [])
    (hmv : ∀ m ∈ k.mvFly, dueEvs s m.plan = []) (key : Nat) : coreUses s key k = [] := by
  have td : (if issuing s k then [] else listUses s key 2 coreUser TdOp.plan k.tdFly) = [] := by
    split
    · rfl
    · next h => exact listUses_eq_nil (htd.resolve_left h) _ _ _
  simp [coreUses, td, listUses_eq_nil hmx, listUses_eq_nil hst, listUses_eq_nil hmv]

/-- A phase does nothing in a unit none of whose operations has an event in this cycle. -/
theorem unitPhase_idle {α : Type} {s : State} {key : Nat} {get : Core → List α} {plan : α → List Ev}
    (h : ∀ x ∈ get (getCore s (coreOfKey key)), dueEvs s (plan x) = []) (ls : List (Use × Nat)) (wr : Bool) (unit : Nat)
    (put : Core → List α → Core) (drop : α → List Ev → α) (f : State → CoreId → α → Ev → State × α) :
    unitPhase ls wr key unit get put plan drop f s = s := by
  refine List.foldl_fixed' (fun i => ?_) _
  dsimp only
  split
  · rfl
  · next x hx =>
    have hd := h x (List.mem_of_getElem? hx)
    simp [phaseEvs, hd]

/-! ## The meeting -/

/-- At this Datestamp core `c` alone has an event, of its LDTD or STTD `o`, while its engine issues a line of a move. -/
structure TdMeets (s : State) (c : CoreId) (o : TdOp) : Prop where
  cores : s.cores.filter (fun e => coreDue s e.2) = [(c.key, getCore s c)]
  clus  : ∀ e ∈ s.clus, cluDue s e.2 = false
  line  : issuing s (getCore s c) = true
  td    : (getCore s c).tdFly = [o]
  due   : dueEvs s o.plan ≠ []
  units : ∀ f ∈ (getCore s c).mxFly ++ (getCore s c).stFly, dueEvs s f.plan = []
  moves : ∀ m ∈ (getCore s c).mvFly, dueEvs s m.plan = []

namespace TdMeets

variable {s : State} {c : CoreId} {o : TdOp} (h : TdMeets s c o)
include h

theorem allUses_eq_nil : allUses s = [] := by
  have ofCores : s.cores.flatMap (fun e => coreUses s e.1 e.2) = [] := by
    refine List.flatMap_eq_nil_iff.2 (fun e he => ?_)
    cases hd : coreDue s e.2 with
    | false =>
      obtain ⟨hmx, hst, htd, hmv⟩ := (coreDue_eq_false_iff s e.2).1 hd
      exact coreUses_eq_nil hmx hst (.inr htd) hmv e.1
    | true =>
      have hm : e ∈ s.cores.filter (fun e => coreDue s e.2) := List.mem_filter.2 ⟨he, hd⟩
      obtain rfl : e = (c.key, getCore s c) := by simpa [h.cores] using hm
      exact coreUses_eq_nil (fun f hf => h.units f (List.mem_append_left _ hf))
        (fun f hf => h.units f (List.mem_append_right _ hf)) (.inl h.line) h.moves _
  have ofClus : s.clus.flatMap (fun e => listUses s (cluKey e.1) 0 (fun _ => .poolRow) CmdFly.plan e.2.re.fly) = [] := by
    refine List.flatMap_eq_nil_iff.2 (fun e he => listUses_eq_nil (fun f hf => ?_) _ _ _)
    have hn := List.any_eq_false.1 (h.clus e he) f (List.mem_append_left _ hf)
    simpa using hn
  rw [allUses, ofCores, ofClus, List.append_nil]

theorem losers_eq_nil : losers s = [] := by
  simp [losers, h.allUses_eq_nil]

theorem tdMeetings_eq : tdMeetings s = [c.key] := by
  have due : ∀ e : Nat × Core, (issuing s e.2 && e.2.tdFly.any (fun o => !(dueEvs s o.plan).isEmpty)) =
      (coreDue s e.2 && (issuing s e.2 && e.2.tdFly.any (fun o => !(dueEvs s o.plan).isEmpty))) := by
    intro e
    simp only [coreDue]
    cases e.2.tdFly.any (fun o => !(dueEvs s o.plan).isEmpty) <;> simp
  have own : (issuing s (getCore s c) && (getCore s c).tdFly.any (fun o => !(dueEvs s o.plan).isEmpty)) = true := by
    simpa [h.line, h.td] using h.due
  rw [tdMeetings, List.filter_congr (fun e _ => (due e).trans (Bool.and_comm _ _)), ← List.filter_filter, h.cores]
  simp [own]

end TdMeets

/-- The only LDTD or STTD of a core that met a queued move is dropped. -/
theorem dropTd_met {s : State} {c : CoreId} {o : TdOp} (htd : (getCore s c).tdFly = [o]) (hd : dueEvs s o.plan ≠ []) :
    dropTd [] [c.key] s c.key = setCore s c
      { getCore s c with tdFly := [], tdPend := (getCore (dropTd [] [c.key] s c.key) c).tdPend } := by
  simp [dropTd, coreOfKey_key, htd, hd]

/-- A phase does nothing in a core whose matrix, stream and move units have no event in this cycle and whose LDTD or STTD
has lost already. -/
theorem corePhase_met {s : State} {c : CoreId}
    (units : ∀ f ∈ (getCore s c).mxFly ++ (getCore s c).stFly, dueEvs s f.plan = [])
    (moves : ∀ m ∈ (getCore s c).mvFly, dueEvs s m.plan = []) (wr : Bool) :
    corePhase [] [c.key] wr s c.key = s := by
  have hmx : ∀ f ∈ (getCore s (coreOfKey c.key)).mxFly, dueEvs s f.plan = [] := by
    rw [coreOfKey_key]; exact fun f hf => units f (List.mem_append_left _ hf)
  have hst : ∀ f ∈ (getCore s (coreOfKey c.key)).stFly, dueEvs s f.plan = [] := by
    rw [coreOfKey_key]; exact fun f hf => units f (List.mem_append_right _ hf)
  have hmv : ∀ m ∈ (getCore s (coreOfKey c.key)).mvFly, dueEvs s m.plan = [] := by
    rw [coreOfKey_key]; exact moves
  simp only [corePhase, List.contains_cons, beq_self_eq_true, Bool.true_or, if_true, unitPhase_idle hmx,
    unitPhase_idle hst, unitPhase_idle hmv]

/-- The cycle of such a meeting: it is counted, logged and faults, and the LDTD or STTD is dropped. -/
theorem TdMeets.runCores_eq {s : State} {c : CoreId} {o : TdOp} (h : TdMeets s c o) :
    ∃ p, runCores s = setCore (cluCollide s c.cl { hi := 2, lo := 2 }) c
      { getCore s c with tdFly := [], tdPend := p } := by
  obtain ⟨-, hcores, hclk⟩ := cluCollide_frame s c.cl { hi := 2, lo := 2 }
  have idle : s.clus.filter (fun e => cluDue s e.2) = [] := List.filter_eq_nil_iff.2 (fun e he => by simp [h.clus e he])
  have run : runCores s = phase [] [c.key] [c.key] [] true (phase [] [c.key] [c.key] [] false
      (dropTd [] [c.key] (cluCollide s c.cl { hi := 2, lo := 2 }) c.key)) := by
    simp [runCores, h.cores, idle, h.losers_eq_nil, h.tdMeetings_eq, reportLosers, coreOfKey_key]
  rw [run]
  generalize cluCollide s c.cl { hi := 2, lo := 2 } = u at hcores hclk ⊢
  have core : getCore u c = getCore s c := getCore_congr hcores c
  have hd : dueEvs u o.plan ≠ [] := by rw [dueEvs_congr hclk]; exact h.due
  have dropped := dropTd_met (core ▸ h.td) hd
  generalize (getCore (dropTd [] [c.key] u c.key) c).tdPend = p at dropped
  rw [core] at dropped
  have due (q : List Ev) : dueEvs (setCore u c { getCore s c with tdFly := [], tdPend := p }) q = dueEvs s q :=
    dueEvs_congr (by simpa using hclk) q
  have still (wr : Bool) : corePhase [] [c.key] wr (setCore u c { getCore s c with tdFly := [], tdPend := p }) c.key =
      setCore u c { getCore s c with tdFly := [], tdPend := p } :=
    corePhase_met (by simpa [due] using h.units) (by simpa [due] using h.moves) wr
  exact ⟨p, by simp [dropped, phase, still]⟩

/-- Settles O25: each clause by the rules above on what the engine does when it starts a move, moves a line, completes one
or meets an LDTD or STTD. -/
theorem moveEngine : Obligations.MoveEngine := by
  refine ⟨?start, ?lines, ?moves, ?tds, ?meets⟩
  case start =>
    intro c j m rest s hj hq
    refine ⟨fun h y => exec_moveIssueStart_early hj hq h y, ?issues, ?closed, ?reported⟩
    case issues =>
      intro h a b h3 h5 he hopen
      refine ⟨_, (exec_moveIssueStart_due hj hq h).trans (congrArg _ (startMove_issues j _ h3 h5 he hopen)), ?_, ?_⟩
      · exact onlyCore_setCore s c _
      · exact issueHead_core s c _ _ hq
    case closed =>
      intro h a b h3 h5 he hm hclosed
      obtain ⟨hcore, hjob, hmem⟩ := closedLink_spec hj hq
      exact ⟨_, (exec_moveIssueStart_due hj hq h).trans (congrArg _ (startMove_closed j _ h3 h5 he hm hclosed)),
        by rw [hcore], by rw [hcore], hjob, hmem⟩
    case reported =>
      intro h y i hi
      refine ⟨_, exec_moveIssueStart_meets hj hq h y, cluCollide_faulted y ?_⟩
      split
      · exact .inr hi
      · exact (faultsOnly_startMove s c j _ m).residentOn_or_faulted hi
  case lines =>
    intro c j m a b e s hj he hf hs
    exact ⟨mvEvent_reads hj he hf hs, mvEvent_writes hj he hf hs,
      fun ht _ _ _ hp hq hl => mem_lineCells a b ht hp hq hl⟩
  case moves =>
    intro c m rest x s hq hd hx
    obtain ⟨hcores, hregs, hnone, hsome⟩ := moveDone_spec (setCore s c { getCore s c with mvFly := rest }) c m.cc
    have counted := regsKept_bump s (at' (pgCLU c.cl.q.val c.cl.c.val) 0x188) 1
    refine ⟨_, exec_moveComplete_move hq hd hx, ?_, ?_, counted.of_regs_eq hregs, ?_, ?_⟩
    · rw [getCore_congr hcores, getCore_setCore]
    · rw [reg_congr hregs]; exact reg_bump _ _ _
    · intro hcc; rw [hnone hcc]; rfl
    · intro n hcc
      obtain ⟨hctr, hdirty, heq⟩ := hsome n hcc
      exact ⟨hctr, hdirty, by rw [heq]; rfl⟩
  case tds =>
    intro c o rest s hm hq hd
    obtain ⟨hnone, hsome⟩ := exec_moveComplete_td hm hq hd
    cases hcc : o.cc with
    | none =>
      exact ⟨_, hnone hcc, getCore_setCore s c _, fun _ => onlyCore_setCore s c _, by simp⟩
    | some n =>
      obtain ⟨hctr, hdirty, -⟩ := credit_spec (setCore s c { getCore s c with tdFly := rest }) c.cl.key n
      refine ⟨_, hsome n hcc, getCore_setCore s c _, by simp, fun k hk => ?_⟩
      obtain rfl : n = k := by simpa using hk
      exact ⟨hctr, hdirty, rfl⟩
  case meets =>
    intro c o i s hcores hclus hline htd hdue hunits hmoves hjob
    have h : TdMeets s c o := ⟨hcores, hclus, hline, htd, hdue, hunits, hmoves⟩
    obtain ⟨p, hrun⟩ := h.runCores_eq
    rw [hrun, getCore_setCore]
    refine ⟨rfl, ?_, (cluCollide_frame s c.cl _).1⟩
    exact cluCollide_faulted _ (.inr hjob)

end Sys2Proof
end

section
/-! PROOFS. A tick at which nothing falls due (R27), the state after reset, and the obligations O2 and O3. -/

namespace Sys2Proof

open Sys2Proof.Machine

/-! ## A tick at which nothing falls due -/

namespace Quiet

variable {s : State} (h : Quiet s)
include h

theorem runCores_eq : runCores s = s := by
  have cores : s.cores.filter (fun e => coreDue s e.2) = [] :=
    List.filter_eq_nil_iff.2 (fun e he => by simp [(h.cores e he).1])
  have clus : s.clus.filter (fun e => cluDue s e.2) = [] := List.filter_eq_nil_iff.2 (fun e he => by simp [h.clus e he])
  simp [runCores, cores, clus]

theorem ueTick_eq {e : Nat} (he : e ∈ s.ues.map Prod.fst) : ueTick s e = s := by
  obtain ⟨u, hu, rfl⟩ := List.mem_map.1 he
  have none : (getUe s u.1).fly = none := h.ues u hu
  unfold ueTick
  rw [none]
  split
  · simp_all
  · rfl

theorem foldl_ueTick_eq : (s.ues.map Prod.fst).foldl ueTick s = s := by
  have fixed : ∀ l : List Nat, (∀ e ∈ l, e ∈ s.ues.map Prod.fst) → l.foldl ueTick s = s := by
    intro l
    induction l with
    | nil => exact fun _ => rfl
    | cons e r ih =>
      intro hl
      rw [List.foldl_cons, h.ueTick_eq (hl e List.mem_cons_self)]
      exact ih (fun x hx => hl x (List.mem_cons_of_mem e hx))
  exact fixed _ (fun _ he => he)

theorem hostTick_eq : hostTick s = s := by
  have idle : ∀ q < 4, [0, 1, 2, 3].find? (fun r => (ringMove s q r).isSome) = none := by
    intro q hq
    refine List.find?_eq_none.2 (fun r hr => ?_)
    have hr4 : r < 4 := (by decide : ∀ r ∈ [0, 1, 2, 3], r < 4) r hr
    simp [h.rings q hq r hr4]
  simp [hostTick, idle]

theorem countStalls_eq : countStalls s = s := by
  rcases h.room with hp | ⟨h3, h5⟩
  · simp [countStalls, hp]
  · simp [countStalls, h3, h5]

theorem workDue_eq : workDue s = s := by
  simp only [workDue, h.runCores_eq, h.foldl_ueTick_eq, h.hostTick_eq, h.countStalls_eq, ite_self]

theorem bootTick_eq : bootTick s = s := by
  rcases h.up with hl | hr
  · simp [bootTick, hl]
  · simp [bootTick, hr]

theorem cycleEnd_eq (t : Nat) : cycleEnd s t = s := by
  obtain ⟨hd, hs⟩ := h.ends
  have tds : s.cores.filter (fun e => !e.2.tdPend.isEmpty) = [] :=
    List.filter_eq_nil_iff.2 (fun e he => by simp [(h.cores e he).2])
  have settled : settleTds s (t - 4) = s := by simp [settleTds, tds]
  have clean : ({ s with dirty := [] } : State) = s := by rw [← hd]
  unfold cycleEnd
  rw [clean, hd]
  simp only [List.foldl_nil, settled, hs, List.map_nil]

theorem idleTick_eq (hr : rootRuns s = true) : idleTick s = { s with clk := { s.clk with dst := s.clk.dst + 1 } } := by
  simp only [idleTick, hr, if_true, h.workDue_eq, h.bootTick_eq, h.cycleEnd_eq, ite_self]

end Quiet

theorem step_idle {s : State} (h : s.pending = []) : step s = .next (idleTick s) := by
  simp only [step, h]

/-- Settles O2: a quiet tick does no work (`Quiet.workDue_eq`, `Quiet.cycleEnd_eq`), a stopped root none at all. -/
theorem idleStepIsOneTick : Obligations.IdleStepIsOneTick := by
  intro s hp
  refine ⟨step_idle hp, fun hr hq => ?_, fun hr => ?_⟩
  · rw [step_idle hp, hq.idleTick_eq hr]
  · rw [step_idle hp]
    simp [idleTick, hr]

/-! ## The state after reset -/

theorem pageCode_SCH : pageCode pgSCH = 0x0A := by decide

theorem pageCode_LNK {p : Nat} (h : p < 6) : pageCode (pgLNK p) = 0x12 := by
  have hp : ¬ pgLNK p ≤ 0x010 := by unfold pgLNK; omega
  have hq : 0x018 ≤ pgLNK p ∧ pgLNK p ≤ 0x01D := by unfold pgLNK; omega
  simp only [pageCode, if_neg hp, if_pos hq]

theorem pageCode_SHW {q c : Nat} (hq : q < 4) (hc : c < 16) : pageCode (pgSHW q c) = 0x32 := by
  unfold pageCode pgSHW pgQD
  have : (0x1000 + 0x100 * q + 0x12 + 4 * c) % 0x100 = 0x12 + 4 * c := by omega
  simp only [this]
  rw [if_neg (by omega), if_neg (by omega), if_pos (by omega), if_neg (by omega), if_neg (by omega), if_neg (by omega),
    if_pos (by omega)]
  omega

theorem reg_reset (o : Nat) : reg State.reset o = regReset o := rfl

/-- SCH_HOLD_LIMIT of a slot (R50). -/
theorem regReset_holdLimit {k : Nat} (h : k < 4) : regReset (at' pgSCH (0x110 + 0x40 * k)) = 10000 := by
  obtain ⟨hp, ho⟩ := at_page pgSCH (0x110 + 0x40 * k) (by omega)
  simp only [regReset, hp, ho, pageCode_SCH, if_true]
  exact if_pos (by omega)

/-- The credit limit of a lane group (R277). -/
theorem regReset_creditLimit {p g : Nat} (hp : p < 6) (hg : g < 4) : regReset (at' (pgLNK p) (0x10C + 0x40 * g)) = 256 := by
  obtain ⟨hpage, ho⟩ := at_page (pgLNK p) (0x10C + 0x40 * g) (by omega)
  have range : 0x100 ≤ 0x10C + 0x40 * g ∧ 0x10C + 0x40 * g < 0x200 ∧ (0x10C + 0x40 * g) % 0x40 = 0x0C := by omega
  simp only [regReset, hpage, ho, pageCode_LNK hp, range, if_true, if_false, and_self, Nat.reduceEqDiff]

/-- The control register of a shadow unit (R190). -/
theorem regReset_shadow {q c : Nat} (hq : q < 4) (hc : c < 16) : regReset (at' (pgSHW q c) 0x100) = 0x80060040 := by
  obtain ⟨hp, ho⟩ := at_page (pgSHW q c) 0x100 (by decide)
  simp only [regReset, hp, ho, pageCode_SHW hq hc]
  rfl

/-- Settles O3: every table is empty, so each read gives its default (`reg_reset`, `regReset_holdLimit` and others). -/
theorem resetValues : Obligations.ResetValues :=
  ⟨rfl, rfl, rfl, rfl, rfl, rfl, rfl, rfl, rfl, rfl, fun j => ⟨rfl, regReset_holdLimit (Nat.mod_lt j (by decide))⟩,
    fun _ => ⟨rfl, rfl⟩, fun _ => rfl, fun _ _ hp hg => regReset_creditLimit hp hg, by decide, by decide, by decide,
    fun _ _ hq hc => regReset_shadow hq hc⟩

end Sys2Proof
end

section
/-! PROOFS. The Datestamp's commands (R28 to R32, R51, R52, R379), and the obligation O9. -/

namespace Sys2Proof

open Sys2Proof.Machine

/-! ## Reading and slewing (R28, R52) -/

theorem exec_dstNowLoRead_served {s : State} (h : Served s pgDST) :
    exec .dstNowLoRead s = .next { s with
      clk := { s.clk with nowHi := BitVec.ofNat 32 (s.clk.dst / 2 ^ 32), nowFine := BitVec.ofNat 32 s.clk.fine.toNat }
      out := .rd (BitVec.ofNat 32 s.clk.dst) :: s.out } := by
  obtain ⟨hbar, habs, hlive⟩ := h
  change execDstNowLoRead s = _
  simp only [execDstNowLoRead, hostRead, hbar, habs, hlive, Bool.not_true, Bool.false_eq_true, if_false, if_true]
  rfl

theorem exec_phaseSlew_due {s : State} (hr : rootRuns s = true) (hb : s.bup.ready = true) (hm : s.clk.dst % 4096 = 0)
    (ha : s.clk.slewAt ≠ some s.clk.dst) (ht : s.clk.target ≠ 0) :
    exec .phaseSlew s = .next (steerTo
      { s with clk := { s.clk with
          fine := if 0 < s.clk.target then s.clk.fine + 1 else s.clk.fine - 1, slewAt := some s.clk.dst } }
      (if 0 < s.clk.target then s.clk.target - 1 else s.clk.target + 1)) := by
  change execPhaseSlew s = _
  simp [execPhaseSlew, hr, hb, hm, ha, ht]

/-! ## Steering the rate (R30) -/

/-- The measurements of the ports `l` are used up. -/
def ratesUsed (l : List Nat) (s : State) : State := l.foldl (fun s g => setLink s g { getLink s g with rateNew := false }) s

theorem getLink_ratesUsed (l : List Nat) (s : State) (g : Nat) :
    getLink (ratesUsed l s) g = if g ∈ l then { getLink s g with rateNew := false } else getLink s g := by
  induction l generalizing s with
  | nil => rfl
  | cons a r ih =>
    rw [ratesUsed, List.foldl_cons, ← ratesUsed, ih]
    by_cases hg : g = a
    · subst hg; simp
    · simp [hg, getLink_setLink_ne _ _ hg]

theorem ratesUsed_frame (l : List Nat) (s : State) : ratesUsed l s = { s with links := (ratesUsed l s).links } := by
  induction l generalizing s with
  | nil => rfl
  | cons a r ih =>
    rw [ratesUsed, List.foldl_cons, ← ratesUsed]
    exact ih _

/-- The pull that the rates of the trained ports ask for. -/
def pulled (w : List Nat) (s : State) : Int :=
  max (-50000) (min 50000 (s.clk.pull
    + wMean (fun g => w.getD (g / 4) 0) (fun g => (getLink s g).rate.getD 0) (rateGrps s)))

theorem exec_rateSteer_measured {s : State} (w : List Nat) (h : ∃ g ∈ rateGrps s, (getLink s g).rateNew = true) :
    exec (.rateSteer w) s = .next { ratesUsed (rateGrps s) s with
      clk := { s.clk with pull := if isRoot s then s.clk.pull else pulled w s } } := by
  have any : (rateGrps s).any (fun g => (getLink s g).rateNew) = true := List.any_eq_true.2 h
  have frame := ratesUsed_frame (rateGrps s) s
  have clk : (ratesUsed (rateGrps s) s).clk = s.clk := by rw [frame]
  have root : isRoot (ratesUsed (rateGrps s) s) = isRoot s := by rw [frame]; rfl
  change execRateSteer w s = _
  simp only [execRateSteer, any, Bool.not_true, Bool.false_eq_true, if_false, ← ratesUsed.eq_1, root, clk]
  cases isRoot s with
  | true => simp only [if_true, ← clk]
  | false => simp only [Bool.false_eq_true, if_false, pulled]

/-- After 16 SYNC intervals the offset's change over the ticks that have passed gives the rate. -/
theorem takeOffset_measured {now : Nat} (o : Int) {l : Link} (h : l.syncN = 16) (hn : l.offsAt < now) :
    takeOffset now o l = { l with offs := o, offs16 := o, offsAt := now, syncN := 1, rateNew := true
                                  rate := some ((o - l.offs16) * 1000000000 / (256 * (now - l.offsAt : Nat) : Int)) } := by
  have passed : max 1 (now - l.offsAt) = now - l.offsAt := by omega
  simp [takeOffset, h, passed, rateOf]

/-! ## UNLOCKED (R32, R51, R379) -/

theorem offHigh_eq_true {t : Int} (h : 96000 < 125 * t.natAbs) : offHigh t = true := by simpa [offHigh] using h

theorem offHigh_eq_false {t : Int} (h : 125 * t.natAbs ≤ 96000) : offHigh t = false := by simpa [offHigh] using h

theorem foldl_jobFault_frame (l : List Nat) (s : State) :
    (l.foldl jobFault s).clk = s.clk ∧ (l.foldl jobFault s).ldg = s.ldg := by
  induction l generalizing s with
  | nil => exact ⟨rfl, rfl⟩
  | cons j r ih =>
    obtain ⟨hc, hl⟩ := ih (jobFault s j)
    exact ⟨hc.trans (by simp), hl.trans (by simp)⟩

theorem Logged.congr {s t t' : State} {src sev code : Nat} {acc : BitVec 12} {d0 d1 : W32}
    (h : Logged s t src sev code acc d0 d1) (e : t'.ldg = t.ldg) : Logged s t' src sev code acc d0 d1 := by
  simpa only [Logged, e] using h

theorem exec_dstUnlocked_due {s : State} (hu : s.clk.unlocked = false) (ho : 96000 < 125 * s.clk.target.natAbs)
    (hs : s.clk.since + 6000000 ≤ s.clk.dst) :
    ∃ t, exec .dstUnlocked s = .next t ∧ t.clk = { s.clk with unlocked := true } ∧
      Logged s t pgDST 3 0x0207 0 0 0 ∧ (∀ j < 4, resident (getJob t j).st = false) := by
  let u : State := { s with clk := { s.clk with unlocked := true } }
  have late : ¬ s.clk.dst < s.clk.since + msTicks := by unfold msTicks; omega
  obtain ⟨hclk, hldg⟩ := foldl_jobFault_frame [0, 1, 2, 3] (post u pgDST sevFault 0x0207 0 0 0)
  refine ⟨[0, 1, 2, 3].foldl jobFault (post u pgDST sevFault 0x0207 0 0 0), ?_, ?_, ?_, fun j hj => ?_⟩
  · change execDstUnlocked s = _
    simp [execDstUnlocked, hu, offHigh_eq_true ho, late, u]
  · rw [hclk]; simp [u]
  · exact (post_logged u pgDST sevFault 0x0207 0 0 0).congr hldg
  · refine no_resident_after [0, 1, 2, 3] j _ (.inr ?_)
    simp only [List.mem_cons, List.not_mem_nil, or_false]
    omega

theorem exec_dstLockRegained_due {s : State} (hu : s.clk.unlocked = true) (ho : 125 * s.clk.target.natAbs ≤ 96000)
    (hs : s.clk.since + 600000000 ≤ s.clk.dst) (hr : rootRuns s = true) (hp : isRoot s = true ∨ steerGrps s ≠ []) :
    exec .dstLockRegained s = .next { s with clk := { s.clk with unlocked := false } } := by
  have late : ¬ s.clk.dst < s.clk.since + 100 * msTicks := by unfold msTicks; omega
  have steers : ¬ (isRoot s = false ∧ steerGrps s = []) := fun ⟨hroot, hnil⟩ => hp.elim (by simp [hroot]) (· hnil)
  change execDstLockRegained s = _
  simp [execDstLockRegained, hu, offHigh_eq_false ho, late, hr, steers]

/-- Settles O9: one lemma for each row; the rate by `getLink_ratesUsed`, the entry by `post_logged`. -/
theorem datestampRows : Obligations.DatestampRows := by
  refine ⟨fun _ h => exec_dstNowLoRead_served h, fun s hr hb hm ha ht => ?_, fun w s h => ?_,
    fun _ o _ h hn => takeOffset_measured o h hn, fun _ hu ho hs => exec_dstUnlocked_due hu ho hs,
    fun _ hu ho hs hr hp => exec_dstLockRegained_due hu ho hs hr hp⟩
  · exact ⟨_, exec_phaseSlew_due hr hb hm ha ht, rfl, rfl, rfl, rfl, rfl⟩
  · refine ⟨_, exec_rateSteer_measured w h, rfl, fun g => getLink_ratesUsed _ s g, ?_⟩
    rw [ratesUsed_frame]

end Sys2Proof
end

section
/-! PROOFS. The control writes of a job slot (R36, R46, R50, R54): what a job leaves when it goes, and the obligation O10. -/

namespace Sys2Proof

open Sys2Proof.Machine

/-! ## What a job holds, and its release (R54) -/

/-- A read of a table gives the default or a listed value. -/
theorem tget_eq_default_or_mem {α : Type} (d : α) (t : Tab α) (k : Nat) : tget d t k = d ∨ (k, tget d t k) ∈ t := by
  induction t with
  | nil => exact .inl rfl
  | cons e r ih =>
    obtain ⟨a, v⟩ := e
    by_cases hk : k = a
    · subst hk; simp [tget]
    · simp only [tget, if_neg hk]
      exact ih.imp_right (List.mem_cons_of_mem _)

theorem releaseEnd_touches (s : State) (j : Nat) : ∃ x0 x1 x2 x3 x4 x5, releaseEnd s j =
    { s with jobs := x0, ctxs := x1, cready := x2, grps := x3, links := x4, fab := x5 } :=
  ⟨_, _, _, _, _, _, rfl⟩

theorem getJob_releaseEnd_ne (s : State) {j i : Nat} (h : i ≠ j) : getJob (releaseEnd s j) i = getJob s i := by
  rw [releaseEnd, getJob_setJob_ne _ _ h]
  rfl

/-- What stays of the contexts belongs to no job that left. -/
theorem getCtx_releaseEnd_job {s : State} {j e : Nat} (h : (getCtx (releaseEnd s j) e).owner ≠ 0) :
    (getCtx (releaseEnd s j) e).job ≠ j := by
  rcases tget_eq_default_or_mem Ctx.free (releaseEnd s j).ctxs e with hd | hm
  · exact absurd (congrArg Ctx.owner hd) h
  · have kept := (List.mem_filter.1 hm).2
    rw [← getCtx] at kept
    have left : (getCtx (releaseEnd s j) e).owner = 0 ∨ (getCtx (releaseEnd s j) e).job ≠ j := by simpa using kept
    exact left.resolve_left h

theorem getGrp_releaseEnd_job {s : State} {j e : Nat} (h : (getGrp (releaseEnd s j) e).owner ≠ 0) :
    (getGrp (releaseEnd s j) e).job ≠ j := by
  rcases tget_eq_default_or_mem GrpEntry.free (releaseEnd s j).grps e with hd | hm
  · exact absurd (congrArg GrpEntry.owner hd) h
  · have kept := (List.mem_filter.1 hm).2
    rw [← getGrp] at kept
    have left : (getGrp (releaseEnd s j) e).owner = 0 ∨ (getGrp (releaseEnd s j) e).job ≠ j := by simpa using kept
    exact left.resolve_left h

/-- A resident job that faults sets its bit of SCH_INT_STAT (R46). -/
theorem jobFault_bit {s : State} {j : Nat} (hr : resident (getJob s j).st = true) (hj : j < 32) :
    bit (reg (jobFault s j) (at' pgSCH 0x10)) j = true := by
  unfold jobFault
  simp only [hr, Bool.not_true, Bool.false_eq_true, if_false]
  rw [(raiseInt_spec _ pgSCH j).1 j hj]
  simp

/-! ## The writes (R50, R54) -/

theorem exec_admitImage_placed {s : State} {j : Fin 4} (h : Served s pgSCH) (hr : reusable (getJob s j).st = true)
    (hp : imgPlaced s j = true) : exec (.admitImage j 1) s = .next (setJob s j { Job.reset with st := .admitting }) := by
  change execAdmit j 1 s = _
  simp [execAdmit, jobCtl, hostWrite_served h, admitWrite, hr, hp]

/-- A write of END (R54). -/
theorem exec_schJobEnd_served {s : State} (j : Fin 4) (h : Served s pgSCH) :
    exec (.schJobEnd j 2) s = .next (endWrite s j) := by
  change execSchJobEnd j 2 s = _
  simp [execSchJobEnd, jobCtl, hostWrite_served h]

theorem endWrite_admitted {s : State} {j : Nat} (h : (getJob s j).st = .admitted) :
    endWrite s j = setJob (releaseEnd s j) j Job.reset := by
  simp only [endWrite, h]

theorem endWrite_running {s : State} {j : Nat} (h : (getJob s j).st = .running) :
    endWrite s j = jobFault (post s pgSCH sevFault 0x0206 (getJob s j).acc (d0Sch (getJob s j).acc j 0) 0) j := by
  simp only [endWrite, h]

theorem exec_clear_left {s : State} {j : Fin 4} (h : Served s pgSCH)
    (hs : (getJob s j).st = .refused ∨ (getJob s j).st = .ended ∨ (getJob s j).st = .faulted) :
    exec (.clear j 4) s = .next (setJob s j Job.reset) := by
  have cleared : clearWrite s j = setJob s j Job.reset := by
    rcases hs with e | e | e <;> simp only [clearWrite, e]
  change execClear j 4 s = _
  simp [execClear, jobCtl, hostWrite_served h, cleared]

/-! ## The start (R36) -/

/-- The Datestamp S that the two halves of SCH_JOB_START name, once the high half is written. -/
def startAt (s : State) (j : Nat) (hi : W32) : Nat := (reg s (at' pgSCH (0x100 + 0x40 * j))).toNat + 2 ^ 32 * hi.toNat

/-- SCH_JOB_START with the high half written. -/
def startWritten (s : State) (j : Nat) (hi : W32) : State := setReg s (at' pgSCH (0x104 + 0x40 * j)) hi

theorem getJob_startWritten (s : State) (j i : Nat) (hi : W32) : getJob (startWritten s j hi) i = getJob s i :=
  getJob_congr rfl i

theorem startAt_startWritten (s : State) (j : Nat) (hi : W32) : startAt (startWritten s j hi) j hi = startAt s j hi := by
  unfold startAt startWritten
  rw [reg_setReg_ne s hi (by unfold at'; omega)]

theorem exec_schJobStart_refuses {s : State} {j : Fin 4} {hi : W32} {r : Nat} (h : Served s pgSCH)
    (hr : startReason (startWritten s j hi) j (startAt s j hi) = some r) :
    exec (.schJobStart j hi) s = .next
      (post (startWritten s j hi) pgSCH sevWarning 0x0202 (getJob s j).acc (d0Sch (getJob s j).acc j r) 0) := by
  rw [← startAt_startWritten] at hr
  unfold startAt startWritten at hr
  change execSchJobStart j hi s = _
  unfold execSchJobStart
  rw [hostWrite_served h]
  simp only [hr]
  rfl

theorem exec_schJobStart_accepts {s : State} {j : Fin 4} {hi : W32} (h : Served s pgSCH)
    (hr : startReason (startWritten s j hi) j (startAt s j hi) = none) :
    exec (.schJobStart j hi) s = .next (setJob (startWritten s j hi) j
      { getJob s j with st := .running, armed := some (startAt s j hi), s := startAt s j hi, h := 0, seg := 0 }) := by
  rw [← startAt_startWritten] at hr ⊢
  unfold startAt startWritten at *
  change execSchJobStart j hi s = _
  unfold execSchJobStart
  rw [hostWrite_served h]
  simp only [hr]
  rfl

theorem startReason_early {s : State} {j x : Nat} (h : x < s.clk.dst + 6000000) : startReason s j x = some 1 := by
  simp only [startReason, if_pos h]

theorem startReason_accepted {s : State} {j x : Nat} (hx : s.clk.dst + 6000000 ≤ x) (h4 : x % 4 = 0)
    (ha : (getJob s j).st = .admitted) (ht : inThrottle s 4 = false) (hq : (jobQuads s j).any (quadThrottle s) = false) :
    startReason s j x = none := by
  simp [startReason, Nat.not_lt.2 hx, h4, ha, ht, hq]

/-- The quadrants of an admitted job stand in its image. -/
theorem jobQuads_congr_admitted {s t : State} {j : Nat} (h : t.jobs = s.jobs) (ha : (getJob s j).st = .admitted) :
    jobQuads t j = jobQuads s j := by
  simp [jobQuads, getJob_congr h, ha]

theorem throttle_startWritten (s : State) (j : Nat) (hi : W32) :
    inThrottle (startWritten s j hi) = inThrottle s ∧ quadThrottle (startWritten s j hi) = quadThrottle s :=
  ⟨rfl, rfl⟩

theorem exec_schJobStart_accepted {s : State} {j : Fin 4} {hi : W32} (h : Served s pgSCH)
    (hx : s.clk.dst + 6000000 ≤ startAt s j hi) (h4 : startAt s j hi % 4 = 0) (ha : (getJob s j).st = .admitted)
    (ht : inThrottle s 4 = false) (hq : (jobQuads s j).any (quadThrottle s) = false) :
    exec (.schJobStart j hi) s = .next (setJob (startWritten s j hi) j
      { getJob s j with st := .running, armed := some (startAt s j hi), s := startAt s j hi, h := 0, seg := 0 }) := by
  have accepted : startReason (startWritten s j hi) j (startAt s j hi) = none := by
    refine startReason_accepted hx h4 ha ht ?_
    rw [jobQuads_congr_admitted (s := s) (t := startWritten s j hi) rfl ha]
    exact hq
  exact exec_schJobStart_accepts h accepted

theorem exec_schJobStart_early {s : State} {j : Fin 4} {hi : W32} (h : Served s pgSCH)
    (hx : startAt s j hi < s.clk.dst + 6000000) :
    exec (.schJobStart j hi) s = .next (post (startWritten s j hi) pgSCH sevWarning 0x0202 (getJob s j).acc
      (d0Sch (getJob s j).acc j 1) 0) := by
  exact exec_schJobStart_refuses h (startReason_early (s := startWritten s j hi) hx)

theorem d0Sch_fin (acc : BitVec 12) (j : Fin 4) : d0Sch acc j 1 = BitVec.ofNat 32 (acc.toNat * 2 ^ 20 + j.val * 2 ^ 16 + 1) := by
  rw [d0Sch, Nat.mod_eq_of_lt j.isLt, Nat.mod_eq_of_lt (by decide : 1 < 2 ^ 16)]

/-- Settles O10: the writes by `endWrite_admitted` and its like, the start by `startReason`. -/
theorem jobSlotWrites : Obligations.JobSlotWrites := by
  refine ⟨fun j s h hr hp => exec_admitImage_placed h hr hp, fun j s h ha => ?_, fun j s h hr => ?_,
    fun j s h hs => exec_clear_left h hs, fun j hi s h hx h4 ha ht hq => exec_schJobStart_accepted h hx h4 ha ht hq,
    fun j hi s h hx => ?_⟩
  · refine ⟨setJob (releaseEnd s j) j Job.reset, by rw [exec_schJobEnd_served j h, endWrite_admitted ha], getJob_setJob _ _ _, fun i hi => ?_,
      fun e => getCtx_releaseEnd_job, fun e => getGrp_releaseEnd_job, rfl⟩
    rw [getJob_setJob_ne _ _ hi, getJob_releaseEnd_ne s hi]
  · let u := post s pgSCH sevFault 0x0206 (getJob s j).acc (d0Sch (getJob s j).acc j 0) 0
    have jobs : ∀ i, getJob u i = getJob s i := getJob_congr (by simp [u])
    have res : resident (getJob u j).st = true := by rw [jobs, hr]; rfl
    obtain ⟨-, faults, others⟩ := jobFault_slots u j
    exact ⟨_, (exec_schJobEnd_served j h).trans (by rw [endWrite_running hr]), faults res, jobFault_bit res (by omega),
      fun i hi => (others i hi).trans (jobs i)⟩
  · obtain ⟨_, _, touched⟩ := post_touches (startWritten s j hi) pgSCH sevWarning 0x0202 (getJob s j).acc
      (d0Sch (getJob s j).acc j 1) 0
    refine ⟨_, exec_schJobStart_early h hx, ?_, ?_, by rw [touched]; rfl⟩
    · exact getJob_congr (s := startWritten s j hi) (by simp) j
    · rw [← d0Sch_fin]
      exact post_logged (startWritten s j hi) pgSCH sevWarning 0x0202 _ _ 0

end Sys2Proof
end

section
/-! PROOFS. Admission (R53, R54, R152, R369): what an admitted and a refused image leave, and the obligation O11. -/

namespace Sys2Proof

open Sys2Proof.Machine

/-! ## An admitted image (R53) -/

/-- The job of slot `j` takes contexts and groups: state, accession and image of the slot stay, and so does all else. -/
structure TakesOnly (j : Nat) (s t : State) : Prop where
  st     : (getJob t j).st = (getJob s j).st
  acc    : (getJob t j).acc = (getJob s j).acc
  img    : (getJob t j).img = (getJob s j).img
  others : ∀ i, i ≠ j → getJob t i = getJob s i
  frame  : t = { s with jobs := t.jobs, ctxs := t.ctxs, grps := t.grps }

namespace TakesOnly

variable {j : Nat} {s t u : State}

protected theorem refl (j : Nat) (s : State) : TakesOnly j s s := ⟨rfl, rfl, rfl, fun _ _ => rfl, rfl⟩

theorem trans (h : TakesOnly j s t) (k : TakesOnly j t u) : TakesOnly j s u where
  st := k.st.trans h.st
  acc := k.acc.trans h.acc
  img := k.img.trans h.img
  others i hi := (k.others i hi).trans (h.others i hi)
  frame := by rw [k.frame, h.frame]

theorem foldl {β : Type} {f : State → β → State} (hf : ∀ s b, TakesOnly j s (f s b)) (l : List β) (s : State) :
    TakesOnly j s (l.foldl f s) := by
  induction l generalizing s with
  | nil => exact .refl j s
  | cons b r ih => exact (hf s b).trans (ih _)

/-- Tables of contexts and groups change, and the slot's own lists of them. -/
theorem setJob (s : State) {j : Nat} (c : Tab Ctx) (g : Tab GrpEntry) {x : Job}
    (h : x.st = (getJob s j).st ∧ x.acc = (getJob s j).acc ∧ x.img = (getJob s j).img) :
    TakesOnly j s (setJob { s with ctxs := c, grps := g } j x) where
  st := by rw [getJob_setJob]; exact h.1
  acc := by rw [getJob_setJob]; exact h.2.1
  img := by rw [getJob_setJob]; exact h.2.2
  others i hi := getJob_setJob_ne _ _ hi
  frame := rfl

end TakesOnly

theorem takesOnly_takeCtx (j : Nat) (acc : BitVec 12) (s : State) (d : CtxDef) : TakesOnly j s (takeCtx j acc s d) := by
  unfold takeCtx
  split
  · exact .refl j s
  · exact .setJob s _ _ ⟨rfl, rfl, rfl⟩

theorem takesOnly_takeGrp (j : Nat) (acc : BitVec 12) (s : State) (p : Nat × List W32) :
    TakesOnly j s (takeGrp j acc s p) := by
  unfold takeGrp
  split
  · exact .refl j s
  · exact .setJob s _ _ ⟨rfl, rfl, rfl⟩

/-- An image that passes every check: its slot, the units of its quadrants, its contexts and groups. -/
theorem admitJob_spec (s : State) (j : Nat) (i : Image) :
    let t := admitJob s j i
    (getJob t j).st = .admitted ∧ (getJob t j).acc = i.acc ∧ (getJob t j).img = some i ∧
      (∀ k, k ≠ j → getJob t k = getJob s k) ∧
      t = { s with jobs := t.jobs, cores := t.cores, clus := t.clus, ues := t.ues, ctxs := t.ctxs, grps := t.grps } := by
  let v := setJob s j { Job.reset with st := .admitted, acc := i.acc, img := some i }
  let u := readyUnits v i
  have slot : getJob u j = { Job.reset with st := .admitted, acc := i.acc, img := some i } :=
    (getJob_congr (s := v) rfl j).trans (getJob_setJob s j _)
  have others : ∀ k, k ≠ j → getJob u k = getJob s k := fun k hk =>
    (getJob_congr (s := v) rfl k).trans (getJob_setJob_ne s _ hk)
  have takes : TakesOnly j u (admitJob s j i) :=
    (TakesOnly.foldl (takesOnly_takeCtx j i.acc) i.contexts u).trans (.foldl (takesOnly_takeGrp j i.acc) _ _)
  refine ⟨takes.st.trans (by rw [slot]), takes.acc.trans (by rw [slot]), takes.img.trans (by rw [slot]),
    fun k hk => (takes.others k hk).trans (others k hk), ?_⟩
  rw [takes.frame]
  rfl

/-! ## A refused image (R53, R55) -/

theorem refuseJob_spec (s : State) (j : Nat) (acc : BitVec 12) (why : Nat) (detail : W32) :
    let t := refuseJob s j acc why detail
    (getJob t j).st = .refused ∧ (getJob t j).reason = why ∧ (∀ k, k ≠ j → getJob t k = getJob s k) ∧
      t = { s with jobs := t.jobs, ldg := t.ldg, regs := t.regs } := by
  let u := setJob s j { Job.reset with st := .refused, reason := why, acc := acc }
  have touches : ∃ x0 x1, refuseJob s j acc why detail = { u with ldg := x0, regs := x1 } := by
    obtain ⟨l, r, hp⟩ := post_touches u pgSCH sevWarning 0x0201 acc (d0Sch acc j why) detail
    unfold refuseJob
    dsimp only
    split
    · obtain ⟨l', r', hp'⟩ := post_touches (post u pgSCH sevWarning 0x0201 acc (d0Sch acc j why) detail) pgPWR sevError
        0x1101 acc 0 detail
      exact ⟨l', r', by rw [hp', hp]⟩
    · exact ⟨l, r, hp⟩
  obtain ⟨l, r, e⟩ := touches
  have jobs : ∀ k, getJob (refuseJob s j acc why detail) k = getJob u k := getJob_congr (by rw [e])
  have slot : getJob (refuseJob s j acc why detail) j = { Job.reset with st := .refused, reason := why, acc := acc } :=
    (jobs j).trans (getJob_setJob s j _)
  refine ⟨by rw [slot], by rw [slot], fun k hk => (jobs k).trans (getJob_setJob_ne s _ hk), ?_⟩
  rw [e]
  rfl

/-! ## Errors that the hub's read meets (R152) -/

/-- Counters, entries and repair notes change, and nothing else. -/
def BooksOnly (s t : State) : Prop := t = { s with regs := t.regs, ldg := t.ldg, bup := t.bup }

theorem BooksOnly.trans {s t u : State} (h : BooksOnly s t) (k : BooksOnly t u) : BooksOnly s u := by
  unfold BooksOnly at *
  rw [k, h]

theorem BooksOnly.of_bup (s : State) (b : Bringup) : BooksOnly s { s with bup := b } := rfl

theorem booksOnly_setReg (s : State) (o : Nat) (v : W32) : BooksOnly s (setReg s o v) := rfl

theorem booksOnly_bump (s : State) (o n : Nat) : BooksOnly s (bump s o n) := rfl

theorem booksOnly_post (s : State) (src sev code : Nat) (acc : BitVec 12) (d0 d1 : W32) :
    BooksOnly s (post s src sev code acc d0 d1) := by
  obtain ⟨l, r, e⟩ := post_touches s src sev code acc d0 d1
  rw [BooksOnly, e]

theorem booksOnly_pendRow (s : State) (u : Nat) : BooksOnly s (pendRow s u) := by
  unfold pendRow
  dsimp only
  split
  · rfl
  · exact (booksOnly_post s pgRPR sevWarning 0x1007 0 _ 0).trans rfl

theorem booksOnly_annexCe (s : State) (u : Nat) : BooksOnly s (annexCe s u) := by
  unfold annexCe
  dsimp only
  split
  · split
    · exact (BooksOnly.of_bup s _).trans (booksOnly_pendRow _ u)
    · rfl
  · rfl

theorem booksOnly_memCe (s : State) (u : Nat) : BooksOnly s (memCe s u) := by
  unfold memCe
  split
  · rfl
  · exact (booksOnly_bump s _ 1).trans (booksOnly_annexCe _ u)

theorem booksOnly_pendUnit (s : State) (b : BadUnit) : BooksOnly s (pendUnit s b) := by
  unfold pendUnit
  dsimp only
  split
  · rfl
  · exact (booksOnly_post s pgRPR sevWarning 0x1007 0 _ 0).trans rfl

theorem booksOnly_annexUe (s : State) (u : Nat) : BooksOnly s (annexUe s u) := by
  unfold annexUe
  split
  · exact booksOnly_pendRow s u
  · split
    · exact booksOnly_pendUnit s _
    · rfl

/-- An uncorrectable error that no job meets faults no job (R152). -/
theorem booksOnly_memUe_noJob (s : State) (acc : BitVec 12) (u : Nat) : BooksOnly s (memUe s { acc := acc, job := none } u) := by
  unfold memUe
  dsimp only [faultOpt]
  refine BooksOnly.trans ?_ (booksOnly_post _ _ _ _ _ _ _)
  split
  · exact ((booksOnly_bump s _ 1).trans (booksOnly_setReg _ _ _)).trans (booksOnly_setReg _ _ _)
  · exact (booksOnly_bump s _ 1).trans (booksOnly_annexUe _ u)

theorem booksOnly_foldl {β : Type} {f : State → β → State} (hf : ∀ s b, BooksOnly s (f s b)) (l : List β) (s : State) :
    BooksOnly s (l.foldl f s) := by
  induction l generalizing s with
  | nil => rfl
  | cons b r ih => exact (hf s b).trans (ih _)

/-! ## ADMISSION_CHECK -/

/-- The state after the correctable errors of the image read are counted. -/
def imgRead (s : State) (j : Nat) : State :=
  ((imgFlaws s j).filter (fun f => f.2 == 1)).foldl (fun s f => memCe s f.1) s

theorem booksOnly_imgRead (s : State) (j : Nat) : BooksOnly s (imgRead s j) := by
  unfold imgRead
  refine booksOnly_foldl (fun s f => ?_) _ s
  exact booksOnly_memCe s f.1

theorem imgRead_flawless {s : State} {j : Nat} (h : imgFlaws s j = []) : imgRead s j = s := by
  simp [imgRead, h]

theorem imgUe_flawless {s : State} {j : Nat} (h : imgFlaws s j = []) : imgUe s j false = none := by
  simp [imgUe, h]

/-- A slot waits while a named quadrant is being zeroised (R369). -/
theorem exec_admissionCheck_zeroising {s : State} {img : Image} (j : Fin 4) (ue : Bool) (h : s.cus.zbusy &&& img.quads ≠ 0) :
    exec (.admissionCheck j img ue) s = .next s := by
  have waits : zeroising s img = true := decide_eq_true h
  change execAdmissionCheck j img ue s = _
  simp [execAdmissionCheck, waits]

section
variable {s : State} {j : Fin 4} {img : Image} (ha : (getJob s j).st = .admitting) (hz : s.cus.zbusy &&& img.quads = 0)
include ha hz

theorem exec_admissionCheck_ue {ue : Bool} {u : Nat} (hu : imgUe s j ue = some u) :
    exec (.admissionCheck j img ue) s = .next (refuseJob (memUe (imgRead s j) { acc := 0, job := none } u) j
      (if img.parses then img.acc else 0) 16 0) := by
  change execAdmissionCheck j img ue s = _
  simp only [execAdmissionCheck, ha, zeroising, hz, hu, imgRead]
  simp

theorem exec_admissionCheck_fails {why : Nat} {detail : W32} (hf : imgFlaws s j = [])
    (hr : admitReason s j img = some (why, detail)) :
    exec (.admissionCheck j img false) s = .next (refuseJob s j (if img.parses then img.acc else 0) why detail) := by
  change execAdmissionCheck j img false s = _
  simp only [execAdmissionCheck, ha, zeroising, hz, imgUe_flawless hf, ← imgRead.eq_1, imgRead_flawless hf, hr]
  simp

theorem exec_admissionCheck_passes (hf : imgFlaws s j = []) (hr : admitReason s j img = none) :
    exec (.admissionCheck j img false) s = .next (admitJob s j img) := by
  change execAdmissionCheck j img false s = _
  simp only [execAdmissionCheck, ha, zeroising, hz, imgUe_flawless hf, ← imgRead.eq_1, imgRead_flawless hf, hr]
  simp

end

/-- Settles O11: an admitted image by `admitJob_spec`, a refused one by `refuseJob_spec`; what the read's errors leave by
`BooksOnly`. -/
theorem admissionOutcome : Obligations.AdmissionOutcome := by
  refine ⟨fun j img s ha hz hf hr => ?_, fun j img why detail s ha hz hf hr => ?_, fun j img ue u s ha hz hu => ?_,
    fun j img ue s h => exec_admissionCheck_zeroising j ue h⟩
  · obtain ⟨hst, hacc, himg, hothers, hframe⟩ := admitJob_spec s j img
    exact ⟨_, exec_admissionCheck_passes ha hz hf hr, hst, hacc, himg, hothers, by rw [hframe]⟩
  · exact ⟨_, exec_admissionCheck_fails ha hz hf hr, refuseJob_spec s j _ why detail⟩
  · let v := memUe (imgRead s j) { acc := 0, job := none } u
    have books : BooksOnly s v := (booksOnly_imgRead s j).trans (booksOnly_memUe_noJob _ 0 u)
    obtain ⟨hst, hwhy, hothers, hframe⟩ := refuseJob_spec v j (if img.parses then img.acc else 0) 16 0
    refine ⟨_, exec_admissionCheck_ue ha hz hu, hst, hwhy, fun i hi => (hothers i hi).trans (getJob_congr ?_ i), ?_⟩
    · rw [books]
    · rw [hframe, books]

end Sys2Proof
end

section
/-! PROOFS. Job start, segments and job end (R33, R54, R59, R68, R149), and the obligation O12. -/

namespace Sys2Proof

open Sys2Proof.Machine

/-! ## Job time begins (R33, R149) -/

/-- Bytes of the picked regions read 0. -/
theorem rdByte_zeroRegions_in {s : State} {p : Nat → Bool} {a : Nat} (h : p (regionOf a) = true) :
    rdByte (zeroRegions s p) a = 0 := by
  have lost : gen (zeroRegions s p) a = 0 := by
    refine (tget_filter_key 0 (fun r => !p r) s.stale (regionOf a)).trans ?_
    simp [h]
  have default : unlisted (zeroRegions s p) a = 0 := by simp only [unlisted, lost, if_true]
  rw [rdByte, default]
  refine (tget_filter_key 0 (fun x => !p (regionOf x)) s.mem a).trans ?_
  simp [h]

/-- Bytes of the other regions read as before. -/
theorem rdByte_zeroRegions_out {s : State} {p : Nat → Bool} {a : Nat} (h : p (regionOf a) = false) :
    rdByte (zeroRegions s p) a = rdByte s a := by
  have kept : gen (zeroRegions s p) a = gen s a := by
    refine (tget_filter_key 0 (fun r => !p r) s.stale (regionOf a)).trans ?_
    simp [h, gen]
  have default : unlisted (zeroRegions s p) a = unlisted s a := by simp only [unlisted, kept]
  rw [rdByte, default]
  refine (tget_filter_key (unlisted s a) (fun x => !p (regionOf x)) s.mem a).trans ?_
  simp [h, rdByte]

/-- The regions that a job's start zeroes: all SRAM of its quadrants (R149). -/
def startRegions (qs : List Nat) (r : Nat) : Bool := decide (2 ^ 20 ≤ r) && qs.contains ((r >>> 11) % 4)

theorem startRegions_sram {qs : List Nat} {a : Nat} (h : 2 ^ 48 ≤ a) (hq : (a / 2 ^ 39) % 4 ∈ qs) :
    startRegions qs (regionOf a) = true := by
  have high : regionOf a = a / 2 ^ 28 := by
    rw [regionOf, if_neg (by omega), Nat.shiftRight_eq_div_pow]
  have quad : (a / 2 ^ 28) >>> 11 = a / 2 ^ 39 := by
    rw [Nat.shiftRight_eq_div_pow, Nat.div_div_eq_div_mul, ← pow_add]
  have large : 2 ^ 20 ≤ a / 2 ^ 28 := by omega
  simp only [startRegions, high, quad, large, decide_true, Bool.true_and]
  exact List.contains_iff_mem.2 hq

theorem startRegions_hbm (qs : List Nat) {a : Nat} (h : a < 2 ^ 48) : startRegions qs (regionOf a) = false := by
  have small : regionOf a < 2 ^ 20 := by
    unfold regionOf
    split
    · rw [Nat.shiftRight_eq_div_pow]; omega
    · rw [Nat.shiftRight_eq_div_pow]; omega
  simp only [startRegions, not_le.2 small, decide_false, Bool.false_and]

theorem rdByte_congr {s t : State} (hm : t.mem = s.mem) (hs : t.stale = s.stale) (a : Nat) : rdByte t a = rdByte s a := by
  simp only [rdByte, hm, unlisted_congr hs]

theorem foldl_setClu_frame (f : State → Nat → Cluster) (l : List Nat) (s : State) :
    l.foldl (fun s k => setClu s k (f s k)) s = { s with clus := (l.foldl (fun s k => setClu s k (f s k)) s).clus } := by
  induction l generalizing s with
  | nil => rfl
  | cons k r ih => exact ih (setClu s k (f s k))

theorem beginJob_touches (s : State) (j : Nat) (i : Image) : ∃ x0 x1 x2 x3, beginJob s j i =
    let t := setJob { zeroRegions s (startRegions (imgQuads i)) with regs := x0, cores := x1, ues := x2, clus := x3 } j
      { getJob s j with armed := none, h := 0, pend := false, held := false, late := [], first := none, seg := 0,
                        skew := [], advPos := 0, adv := [] }
    t := by
  unfold beginJob
  dsimp only
  rw [foldl_setClu_frame]
  exact ⟨_, _, _, _, rfl⟩

theorem exec_jobTimeBegin_due {s : State} {j : Fin 4} {x : Nat} {i : Image} (hr : (getJob s j).st = .running)
    (ha : (getJob s j).armed = some x) (hi : (getJob s j).img = some i) (hx : x ≤ s.clk.dst) :
    exec (.jobTimeBegin j) s = .next (beginJob s j i) := by
  change execJobTimeBegin j s = _
  simp [execJobTimeBegin, ha, hi, hr, hx]

/-! ## Segments (R59, R68) -/

theorem tdPend_settleTd_subset (dst jt : Nat) (c : Core) : (settleTd dst jt c).tdPend ⊆ c.tdPend :=
  List.filter_sublist.subset

/-- A descriptor write that is no longer there meets no load. -/
theorem loadMeets_mono {s t : State} {c : CoreId} (jt : Nat) (tds : List (Nat × W128)) (hc : t.clk = s.clk)
    (hp : (getCore t c).tdPend ⊆ (getCore s c).tdPend) (h : loadMeets s c jt tds = []) : loadMeets t c jt tds = [] := by
  simp only [loadMeets, List.filter_eq_nil_iff, hc] at h ⊢
  exact fun p hm => h p (hp hm)

/-- A core whose load meets no descriptor write takes its segment; the rest of the module stays, and no core has a
descriptor write more. -/
theorem startCore_spec {s : State} {jt k : Nat} {g : Seg} (h : loadMeets s (coreOfKey k) jt (tget [] g.td k) = []) :
    startCore jt g s k = { s with cores := (startCore jt g s k).cores } ∧
      ∀ c, (getCore (startCore jt g s k) c).tdPend ⊆ (getCore s c).tdPend := by
  unfold startCore
  simp only [h, List.foldl_nil]
  refine ⟨rfl, fun c => ?_⟩
  by_cases e : c.key = (coreOfKey k).key
  · have same : getCore s c = getCore s (coreOfKey k) := by simp only [getCore, e]
    rw [getCore, e, ← getCore, getCore_setCore, same]
    exact List.Subset.trans (tdPend_settleTd_subset _ _ _) List.filter_sublist.subset
  · rw [getCore_setCore_ne _ _ e]
    exact List.Subset.refl _

theorem foldl_startCore_frame (jt : Nat) (g : Seg) (ks : List Nat) (s : State)
    (h : ∀ k ∈ ks, loadMeets s (coreOfKey k) jt (tget [] g.td k) = []) :
    ks.foldl (startCore jt g) s = { s with cores := (ks.foldl (startCore jt g) s).cores } := by
  induction ks generalizing s with
  | nil => rfl
  | cons k r ih =>
    obtain ⟨frame, pend⟩ := startCore_spec (h k List.mem_cons_self)
    have rest := ih (startCore jt g s k) (fun x hx =>
      loadMeets_mono jt _ (by rw [frame]) (pend _) (h x (List.mem_cons_of_mem k hx)))
    rw [List.foldl_cons, rest, frame]

theorem foldl_setUe_frame (f : State → Nat → Ue) (l : List Nat) (s : State) :
    l.foldl (fun s k => setUe s k (f s k)) s = { s with ues := (l.foldl (fun s k => setUe s k (f s k)) s).ues } := by
  induction l generalizing s with
  | nil => rfl
  | cons k r ih => exact ih (setUe s k (f s k))

/-- Where no descriptor write meets a load the segment begins, and the job does not fault. -/
theorem startSegment_touches {s : State} {j : Nat} {i : Image} {g : Seg}
    (h : ∀ k ∈ jobCores s i, loadMeets s (coreOfKey k) (jobTime s (getJob s j)) (tget [] g.td k) = []) :
    ∃ x0 x1 x2, startSegment s j i g = setJob { s with cores := x0, clus := x1, ues := x2 } j
      { getJob s j with seg := (getJob s j).seg + 1, advPos := 0 } := by
  unfold startSegment
  dsimp only
  rw [foldl_startCore_frame _ g _ s h, foldl_setClu_frame, foldl_setUe_frame]
  exact ⟨_, _, _, rfl⟩

theorem postFaults_jobs (es : List (Nat × Nat × Nat × W32 × W32)) (s : State) : (postFaults s es).jobs = s.jobs := by
  induction es generalizing s with
  | nil => rfl
  | cons e r ih => exact (ih _).trans (by simp [postFault])

section
variable {s : State} {j : Fin 4} {i : Image} {g : Seg} (hi : (getJob s j).img = some i)
  (hg : i.segs[(getJob s j).seg]? = some g) (hr : (getJob s j).st = .running) (ha : (getJob s j).armed = none)
  (hh : (getJob s j).held = false) (ht : (getJob s j).s + g.origin ≤ jobTime s (getJob s j))
include hi hg hr ha hh ht

theorem exec_segmentOrigin_finished (hu : unfinished s j i = []) :
    exec (.segmentOrigin j) s = .next (startSegment s j i g) := by
  change execSegmentOrigin j s = _
  simp [execSegmentOrigin, hi, hg, hr, ha, hh, not_lt.2 ht, hu]

theorem exec_segmentOrigin_unfinished (hu : unfinished s j i ≠ []) :
    exec (.segmentOrigin j) s = .next (jobFault (postFaults s (unfinished s j i)) j) := by
  change execSegmentOrigin j s = _
  simp [execSegmentOrigin, hi, hg, hr, ha, hh, not_lt.2 ht, hu]

end

/-! ## Job end (R54, R186) -/

/-- Closing the steps of a shadow unit's tags leaves memory, clock and custody. -/
theorem closeStep_frame (s : State) (clu t : Nat) :
    (closeStep s clu t).mem = s.mem ∧ (closeStep s clu t).clk = s.clk ∧ (closeStep s clu t).cus = s.cus := by
  unfold closeStep
  dsimp only
  repeat' split
  all_goals simp [setTag]

theorem foldl_closeStep_frame (clu : Nat) (l : List Nat) (s : State) :
    let t := l.foldl (fun s t => closeStep s clu t) s
    t.mem = s.mem ∧ t.clk = s.clk ∧ t.cus = s.cus := by
  induction l generalizing s with
  | nil => exact ⟨rfl, rfl, rfl⟩
  | cons k r ih =>
    obtain ⟨hm, hc, hu⟩ := closeStep_frame s clu k
    obtain ⟨hm', hc', hu'⟩ := ih (closeStep s clu k)
    exact ⟨hm'.trans hm, hc'.trans hc, hu'.trans hu⟩

theorem closeAll_frame (s : State) (clu : Nat) :
    (closeAll s clu).mem = s.mem ∧ (closeAll s clu).clk = s.clk ∧ (closeAll s clu).cus = s.cus := by
  unfold closeAll
  split
  · exact ⟨rfl, rfl, rfl⟩
  · exact foldl_closeStep_frame clu _ s

theorem foldl_closeAll_frame (l : List Nat) (s : State) :
    (l.foldl closeAll s).mem = s.mem ∧ (l.foldl closeAll s).clk = s.clk ∧ (l.foldl closeAll s).cus = s.cus := by
  induction l generalizing s with
  | nil => exact ⟨rfl, rfl, rfl⟩
  | cons k r ih =>
    obtain ⟨hm, hc, hu⟩ := closeAll_frame s k
    obtain ⟨hm', hc', hu'⟩ := ih (closeAll s k)
    exact ⟨hm'.trans hm, hc'.trans hc, hu'.trans hu⟩

/-- The job of slot `j` leaves without a fault. -/
def jobEnds (s : State) (j : Nat) (i : Image) : State :=
  let u := releaseEnd ((jobClus s i).foldl closeAll s) j
  setJob u j { getJob u j with st := .ended }

theorem exec_jobEnded_done {s : State} {j : Fin 4} {i : Image} (hi : (getJob s j).img = some i)
    (hr : (getJob s j).st = .running) (hd : allDone s j i = true) :
    exec (.jobEnded j) s = .next (raiseInt (jobEnds s j i) pgSCH (4 + j)) := by
  change execJobEnded j s = _
  simp [execJobEnded, hi, hr, hd, jobEnds]

theorem getCtx_congr {s t : State} (h : t.ctxs = s.ctxs) (e : Nat) : getCtx t e = getCtx s e := by simp only [getCtx, h]

theorem getGrp_congr {s t : State} (h : t.grps = s.grps) (e : Nat) : getGrp t e = getGrp s e := by simp only [getGrp, h]

theorem jobEnds_frame (s : State) (j : Nat) (i : Image) :
    (jobEnds s j i).mem = s.mem ∧ (jobEnds s j i).clk = s.clk ∧ (jobEnds s j i).cus = s.cus :=
  foldl_closeAll_frame (jobClus s i) s

/-- Settles O12: the start by `beginJob_touches` and `rdByte_zeroRegions_in`, a segment by `startSegment_touches`, the end
by what `releaseEnd` leaves. -/
theorem jobRuns : Obligations.JobRuns := by
  refine ⟨fun j x i s hr ha hi hx => ?_, fun j i g s hi hg hr ha hh ht => ⟨fun hu hm => ?_, fun hu => ?_⟩,
    fun j i s hi hr hd => ?_⟩
  · obtain ⟨x0, x1, x2, x3, e⟩ := beginJob_touches s j i
    have slot := (congrArg (getJob · j) e).trans (getJob_setJob _ _ _)
    have bytes : ∀ a, rdByte (beginJob s j i) a = rdByte (zeroRegions s (startRegions (imgQuads i))) a :=
      rdByte_congr (by rw [e]; rfl) (by rw [e]; rfl)
    dsimp only at slot
    refine ⟨_, exec_jobTimeBegin_due hr ha hi hx, by rw [slot], by rw [slot], by rw [slot]; exact hr, by rw [slot], ?_,
      fun a h hq => (bytes a).trans (rdByte_zeroRegions_in (startRegions_sram h hq)),
      fun a h => (bytes a).trans (rdByte_zeroRegions_out (startRegions_hbm _ h)), by rw [e]; rfl⟩
    rw [slot, e]
    rfl
  · obtain ⟨x0, x1, x2, e⟩ := startSegment_touches hm
    exact ⟨_, exec_segmentOrigin_finished hi hg hr ha hh ht hu, by rw [e]; exact getJob_setJob _ _ _, by rw [e]; rfl⟩
  · refine ⟨_, exec_segmentOrigin_unfinished hi hg hr ha hh ht hu, jobFault_faulted (.inl ?_)⟩
    rw [getJob_congr (postFaults_jobs _ s), hr]
    rfl
  · let u := (jobClus s i).foldl closeAll s
    obtain ⟨hmem, hclk, hcus⟩ := jobEnds_frame s j i
    have ended : (getJob (jobEnds s j i) j).st = .ended := by rw [jobEnds, getJob_setJob]
    have ctxs : ∀ e, getCtx (raiseInt (jobEnds s j i) pgSCH (4 + j)) e = getCtx (releaseEnd u j) e :=
      getCtx_congr (by simp [jobEnds, u])
    have grps : ∀ e, getGrp (raiseInt (jobEnds s j i) pgSCH (4 + j)) e = getGrp (releaseEnd u j) e :=
      getGrp_congr (by simp [jobEnds, u])
    have bits := (raiseInt_spec (jobEnds s j i) pgSCH (4 + j)).1 (4 + j) (by omega)
    refine ⟨_, exec_jobEnded_done hi hr hd, (congrArg Job.st (getJob_congr (by simp) j)).trans ended, by rw [bits]; simp,
      fun e h => ?_, fun e h => ?_, ?_, ?_, ?_⟩
    · rw [ctxs] at h ⊢; exact getCtx_releaseEnd_job h
    · rw [grps] at h ⊢; exact getGrp_releaseEnd_job h
    · simpa using hmem
    · simpa using hclk
    · simpa using hcus

end Sys2Proof
end

section
/-! PROOFS. The power profile's two readers (R47, R48, R315, R409), and the obligation O13. -/

namespace Sys2Proof

open Sys2Proof.Machine

/-! ## Forecasts -/

theorem newest_noteAhead (t : Nat) (q p : Fin 4) (c : W32) (fs : List Forecast) :
    newest (noteAhead t q c fs) p.val = if p = q then noted fs t q c else newest fs p.val := by
  have same : (fun f : Forecast => decide (f.q = q)) = fun f => decide (f.q.val = q.val) := by
    funext f; simp [Fin.ext_iff]
  have consed : newest (⟨t, q, c⟩ :: fs) p.val = if p = q then some ⟨t, q, c⟩ else newest fs p.val := by
    by_cases h : p = q
    · subst h; simp [newest]
    · have hv : q.val ≠ p.val := fun e => h (Fin.ext e.symm)
      simp [newest, hv, h]
  unfold noteAhead
  rw [same, ← newest.eq_1 fs q.val]
  cases hn : newest fs q.val with
  | none => simp only [consed, noted, hn]; rfl
  | some f =>
    dsimp only
    by_cases hc : f.code = c
    · rw [if_pos hc]
      by_cases h : p = q
      · subst h; simp [noted, hn, hc]
      · simp [h]
    · rw [if_neg hc, consed]
      simp [noted, hn, hc]

/-- Each quadrant of a list without repetitions takes its own code, the others keep theirs. -/
theorem newest_foldl_noteAhead (t : Nat) (code : Nat → W32) (p : Fin 4) {qs : List Nat} (hn : qs.Nodup)
    (h4 : ∀ q ∈ qs, q < 4) (fs : List Forecast) :
    newest (qs.foldl (fun fs q => noteAhead t (Fin.ofNat 4 q) (code q) fs) fs) p.val =
      if p.val ∈ qs then noted fs t p (code p.val) else newest fs p.val := by
  induction qs generalizing fs with
  | nil => rfl
  | cons q r ih =>
    obtain ⟨hq, hr⟩ := List.nodup_cons.1 hn
    have lt : q < 4 := h4 q List.mem_cons_self
    have key := newest_noteAhead t (Fin.ofNat 4 q) p (code q) fs
    rw [List.foldl_cons, ih hr (fun x hx => h4 x (List.mem_cons_of_mem q hx))]
    by_cases e : p.val = q
    · have hp : p = Fin.ofNat 4 q := Fin.ext (by simp [e, Nat.mod_eq_of_lt lt])
      rw [if_neg (e ▸ hq), if_pos (by simp [e]), key, if_pos hp, e, ← hp]
    · have hp : p ≠ Fin.ofNat 4 q := fun h => e (by rw [h]; simp [Nat.mod_eq_of_lt lt])
      rw [if_neg hp] at key
      simp only [noted, key, List.mem_cons, e, false_or]

theorem imgQuads_nodup (i : Image) : (imgQuads i).Nodup := List.Nodup.filter _ (by decide)

theorem imgQuads_lt {i : Image} {q : Nat} (h : q ∈ imgQuads i) : q < 4 := by
  have hq := (List.mem_filter.1 h).1
  exact (by decide : ∀ q ∈ [0, 1, 2, 3], q < 4) q hq

/-! ## The code ahead (R47, R48) -/

theorem codeOf_eq (w : W32) (q : Nat) : codeOf w q = w.toNat / 2 ^ (8 * q) % 256 := by
  have width : 8 * q + 7 + 1 - 8 * q = 8 := by omega
  simp [codeOf, fld, width, Nat.shiftRight_eq_div_pow]

/-- From entry 0 on the profile gives a code. -/
theorem aheadCode_eq {s : State} {j : Nat} (i : Image) {look : Nat} (q : Nat)
    (h : (getJob s j).s ≤ jobTime s (getJob s j) + look) :
    aheadCode s (getJob s j) i look q = some (codeAhead s j i look q) := by
  simp only [aheadCode, profileAt, if_neg (not_lt.2 h), Option.map_some, codeOf_eq, codeAhead]

/-- Taking the codes `look` ticks ahead. -/
theorem newest_takeCodes {s : State} {j : Nat} (i : Image) {look : Nat} (fs : List Forecast) (q : Fin 4)
    (h : (getJob s j).s ≤ jobTime s (getJob s j) + look) :
    newest (takeCodes s (getJob s j) i look fs) q.val = if q.val ∈ imgQuads i
      then noted fs (s.clk.dst + look) q (codeAhead s j i look q.val) else newest fs q.val := by
  simp only [takeCodes, aheadCode_eq i _ h]
  exact newest_foldl_noteAhead _ (codeAhead s j i look) q (imgQuads_nodup i) (fun _ hq => imgQuads_lt hq) fs

theorem exec_powerProfileRead_running {j : Fin 4} {i : Image} {s : State} (hi : (getJob s j).img = some i)
    (hr : (getJob s j).st = .running) : exec (.powerProfileRead j) s =
      .next { s with pwr := { s.pwr with ahead := takeCodes s (getJob s j) i 60000 s.pwr.ahead } } := by
  change execPowerProfileRead j s = _
  simp [execPowerProfileRead, hi, hr, usTicks]

theorem exec_heaterForecastRead_running {j : Fin 4} {i : Image} {s : State} (hi : (getJob s j).img = some i)
    (hr : (getJob s j).st = .running) (hf : bit (reg s (at' pgOPT 0x100)) 1 = true) : exec (.heaterForecastRead j) s =
      .next { s with opt := { s.opt with ahead := takeCodes s (getJob s j) i 600000 s.opt.ahead } } := by
  change execHeaterForecastRead j s = _
  simp [execHeaterForecastRead, hi, hr, hf, usTicks]

/-! ## The way to the idle code in a hold (R48, log 74) -/

theorem relaxed_zero (c i : Nat) : relaxed c i 0 = c := by simp [relaxed]

theorem relaxed_late (c i : Nat) {n : Nat} (h : 600000 ≤ n) : relaxed c i n = i := by
  have span : 100 * usTicks = 600000 := rfl
  simp [relaxed, span, Nat.min_eq_right h]

/-- A part of a difference, in whole steps, lies between 0 and the difference. -/
theorem ediv_part_between (d : Int) {n k : Nat} (hk : 0 < k) (hn : n ≤ k) :
    min d 0 ≤ d * n / k ∧ d * n / k ≤ max d 0 := by
  have hk' : (0 : Int) < k := by exact_mod_cast hk
  have hn' : (n : Int) ≤ k := by exact_mod_cast hn
  rcases le_total 0 d with hd | hd
  · rw [min_eq_right hd, max_eq_left hd]
    exact ⟨Int.ediv_nonneg (by positivity) hk'.le, Int.ediv_le_of_le_mul hk' (by nlinarith)⟩
  · rw [min_eq_left hd, max_eq_right hd]
    exact ⟨(Int.le_ediv_iff_mul_le hk').2 (by nlinarith), Int.ediv_le_of_le_mul hk' (by nlinarith)⟩

theorem relaxed_between (c i n : Nat) : min c i ≤ relaxed c i n ∧ relaxed c i n ≤ max c i := by
  obtain ⟨lo, hi⟩ := ediv_part_between ((i : Int) - c) (k := 100 * usTicks) (by decide) (min_le_right n _)
  simp only [relaxed]
  omega

/-- Settles O13: both readers take the codes of `newest_takeCodes`; a hold's code by `relaxed_between`. -/
theorem profileReads : Obligations.ProfileReads :=
  ⟨fun _ i s hi hr h => ⟨_, exec_powerProfileRead_running hi hr, fun q => newest_takeCodes i s.pwr.ahead q h, rfl⟩,
    fun _ i s hi hr hf h => ⟨_, exec_heaterForecastRead_running hi hr hf, fun q => newest_takeCodes i s.opt.ahead q h, rfl⟩,
    fun c i n => ⟨relaxed_zero c i, relaxed_late c i, relaxed_between c i n⟩⟩

end Sys2Proof
end

section
/-! PROOFS. Launch order, underrun and the WAIT rows (R38, R39, R42, R43, R56, R59), and the obligation O17. -/

namespace Sys2Proof

open Sys2Proof.Machine

/-! ## A sequencer that faults its job (R38, R46, R56) -/

theorem postFault_frame (s : State) (clu page : Nat) (e : Nat × W32 × W32) :
    (postFault s clu page e).jobs = s.jobs ∧ (postFault s clu page e).clk = s.clk ∧
      (postFault s clu page e).cus = s.cus := by
  simp [postFault]

theorem seqFault_spec {s : State} {c : CoreId} {k : Nat} (off code : Nat) (h : residentOn s c.cl.q.val = some k) :
    (getJob (seqFault s c off code) k).st = .faulted ∧ (seqFault s c off code).clk = s.clk ∧
      (seqFault s c off code).cus = s.cus := by
  have quad : c.cl.key / 16 = c.cl.q.val := by
    have := c.cl.c.isLt
    unfold Clu.key
    omega
  obtain ⟨jobs, clk, cus⟩ := postFault_frame s c.cl.key (pgCLU (c.cl.key / 16) (c.cl.key % 16))
    (code, d0Core c.k.val off, BitVec.ofNat 32 0)
  have faults : slotFault s c off code 0 = jobFault (postFault s c.cl.key (pgCLU (c.cl.key / 16) (c.cl.key % 16))
      (code, d0Core c.k.val off, BitVec.ofNat 32 0)) k := by
    simp only [slotFault, coreFault, coreFaults, faultsAt, quad, h, List.foldl_cons, List.foldl_nil, faultOpt]
  refine ⟨?_, ?_, ?_⟩
  · refine Eq.trans (congrArg Job.st (getJob_congr (s := slotFault s c off code 0) rfl k)) ?_
    rw [faults]
    refine jobFault_faulted (.inl ?_)
    rw [getJob_congr jobs]
    exact resident_of_residentOn h
  · simp [seqFault, faults, clk]
  · simp [seqFault, faults, cus]

/-! ## What a core's sequencer finds at a launch row -/

section
variable {s : State} {c : CoreId} {j : Nat} {b : W256} {off : Nat} {p : W256 → Bool} (hp : p b = true)
  (hf : (getJob s j).held = false) (hr : (getCore s c).st = .ready)
include hp hf hr

/-- The next bundle is late, or its offset does not rise (R38). -/
theorem look_order (hn : nextBn (getCore s c) = some (b, off))
    (ht : originOf s j (getCore s c).seg + 4 * off < jobTime s (getJob s j) ∨
      (originOf s j (getCore s c).seg + 4 * off = jobTime s (getJob s j) ∧ ∃ l, (getCore s c).last = some l ∧ off ≤ l)) :
    look s j c p = .order (bnOffset b) := by
  rcases ht with late | ⟨due, l, hl, hle⟩
  · simp [look, hf, hr, hn, hp, late, late.le]
  · simp [look, hf, hr, hn, hp, due, hl, hle]

/-- The next bundle is due and was not fetched (R56). -/
theorem look_underrun (hn : nextBn (getCore s c) = none) (hm : (coreStream s j c)[(getCore s c).sp]? = some b)
    (ht : originOf s j (getCore s c).seg + 4 * bnOffset b ≤ jobTime s (getJob s j)) :
    look s j c p = .underrun (bnOffset b) := by
  simp [look, hf, hr, hn, missing, hm, hp, ht]

end

/-- The next bundle is due. -/
theorem Due.look_eq {s : State} {c : CoreId} {j : Nat} {b : W256} {off : Nat} (h : Due s c j b off) {p : W256 → Bool}
    (hp : p b = true) : look s j c p = .due b off := by
  have falls : ∀ l, (getCore s c).last = some l → ¬ off ≤ l := fun l hl => not_le.2 (h.rises l hl)
  simp only [look, h.free, h.ready, h.next, hp, h.time]
  cases hl : (getCore s c).last with
  | none => simp
  | some l => simp [falls l hl]

/-- What a core finds due at its edge is done. -/
theorem onEdge_some {s t : State} {c : CoreId} {j : Nat} {f : State → Nat → Option State} (hj : runSlot s c = some j)
    (hf : f s j = some t) : onEdge s c f = t := by
  simp only [onEdge, hj, hf, Option.getD_some]

theorem exec_nop_order {s : State} {c : CoreId} {j o : Nat} (hj : runSlot s c = some j)
    (hl : look s j c (fun b => ctlOp b == 0 || decide (5 < ctlOp b)) = .order o) :
    exec (.nop c) s = .next (seqFault s c o 0x0301) := by
  change Host.Outcome.next (launch s c _) = _
  rw [launch, onEdge_some hj]
  simp only [launchDue, hl]

theorem exec_nop_underrun {s : State} {c : CoreId} {j o : Nat} (hj : runSlot s c = some j)
    (hl : look s j c (fun b => ctlOp b == 0 || decide (5 < ctlOp b)) = .underrun o) :
    exec (.nop c) s = .next (seqFault s c o 0x0302) := by
  change Host.Outcome.next (launch s c _) = _
  rw [launch, onEdge_some hj]
  simp only [launchDue, hl]

/-! ## The WAIT rows (R39, R42, R43) -/

theorem exec_waitBundleReachL_due {s : State} {c : CoreId} {j : Nat} {b : W256} {off : Nat} (h : Due s c j b off)
    (hw : bnWait b = true) (hp : bnHP b = false) :
    exec (.waitBundleReachL c) s = .next (setCore s c { getCore s c with
      st := .waiting, missed := false, dline := jobTime s (getJob s j) + 4 * (getCtr s c.cl.key (bnCtr b)).win }) := by
  have due : look s j c (fun b => bnWait b && !bnHP b) = .due b off := h.look_eq (by simp [hw, hp])
  change execWaitBundleReachL c s = _
  simp only [execWaitBundleReachL, onEdge, h.slot, due, Option.getD_some]

section
variable {s : State} {c : CoreId} {j : Nat} {b : W256} {off : Nat} (hj : runSlot s c = some j)
  (hn : nextBn (getCore s c) = some (b, off)) (hw : (getCore s c).st = .waiting) (hm : (getCore s c).missed = false)
include hj hn hw hm

theorem exec_waitSatisfied_met (hf : (getJob s j).held = false) (ht : jobTime s (getJob s j) ≤ (getCore s c).dline)
    (h4 : s.clk.dst % 4 = 0) (hd : (getCtr s c.cl.key (bnCtr b)).deficit ≤ 0) :
    exec (.waitSatisfied c) s = .next (launchBundle s c j (jobTime s (getJob s j)) b off) := by
  change execWaitSatisfied c s = _
  simp [execWaitSatisfied, onEdge, hj, hn, hw, hm, hf, ht, h4, ctrMet, hd]

end

/-- A late counter, as the job keeps it. -/
def lateOf (s : State) (c : CoreId) (j : Nat) (b : W256) : Late :=
  { core := c, cc := bnCtr b, d := (getCore s c).dline + (getJob s j).h }

/-- The state in which core `c` has missed its deadline and the hold of its job is pending. -/
def missedState (s : State) (c : CoreId) (j : Nat) (b : W256) : State :=
  let u := setCore s c { getCore s c with missed := true }
  setJob (if (getJob s j).pend then u else bump u (at' pgSCH (0x114 + 0x40 * j)) 1) j
    { getJob s j with pend := true, late := (getJob s j).late ++ [lateOf s c j b]
                      first := if (getJob s j).pend then (getJob s j).first else some (lateOf s c j b) }

theorem missedState_cores (s : State) (c : CoreId) (j : Nat) (b : W256) :
    (missedState s c j b).cores = (setCore s c { getCore s c with missed := true }).cores := by
  unfold missedState
  dsimp only
  split <;> rfl

theorem missedState_spec (s : State) (c : CoreId) (j : Nat) (b : W256) :
    let t := missedState s c j b
    getCore t c = { getCore s c with missed := true } ∧ OnlyCore s { t with jobs := s.jobs, regs := s.regs } c ∧
      getJob t j = { getJob s j with
        pend := true, late := (getJob s j).late ++ [lateOf s c j b]
        first := if (getJob s j).pend then (getJob s j).first else some (lateOf s c j b) } ∧
      reg t (at' pgSCH (0x114 + 0x40 * j)) = (if (getJob s j).pend then reg s (at' pgSCH (0x114 + 0x40 * j))
        else satAdd (reg s (at' pgSCH (0x114 + 0x40 * j))) 1) ∧
      RegsKept s t [at' pgSCH (0x114 + 0x40 * j)] ∧ t = { s with cores := t.cores, jobs := t.jobs, regs := t.regs } := by
  have core := getCore_congr (missedState_cores s c j b)
  refine ⟨(core c).trans (getCore_setCore s c _), ⟨?_, fun d hd => (core d).trans (getCore_setCore_ne s _ hd)⟩,
    getJob_setJob _ _ _, ?_⟩
  · unfold missedState
    dsimp only
    split <;> rfl
  · unfold missedState
    dsimp only
    cases (getJob s j).pend with
    | true => exact ⟨rfl, fun _ _ => rfl, rfl⟩
    | false => exact ⟨reg_bump s _ 1, (regsKept_bump s _ 1).of_regs_eq rfl, rfl⟩

section
variable {s : State} {c : CoreId} {j : Nat} {b : W256} {off : Nat} (hj : runSlot s c = some j)
  (hn : nextBn (getCore s c) = some (b, off)) (hw : (getCore s c).st = .waiting) (hm : (getCore s c).missed = false)
include hj hn hw hm

/-- A deadline passed short of the target, where no core of the module has issued an HP bundle. -/
theorem exec_missedDeadline_short (ht : (getCore s c).dline ≤ jobTime s (getJob s j))
    (hd : 0 < (getCtr s c.cl.key (bnCtr b)).deficit) (hcores : ∀ e ∈ s.cores, e.2.hpAt = none)
    (hown : (getCore s c).hpAt = none) : exec (.missedDeadline c) s = .next (missedState s c j b) := by
  have missed : missedAt s (getJob s j) c.cl.key (bnCtr b) (getCore s c).dline = true := by simp [missedAt, hd]
  have hpNone : ∀ e ∈ (missedState s c j b).cores, e.2.hpAt = none := by
    rw [missedState_cores]
    intro e he
    rcases mem_tput _ _ _ _ _ he with ⟨rfl, -⟩ | ⟨hm, -⟩
    · exact hown
    · exact hcores e hm
  change execMissedDeadline c s = _
  unfold execMissedDeadline
  simp only [hj, hn]
  rw [if_pos ⟨hw, by simp [hm], ht, missed⟩, if_neg]
  · rfl
  · intro h
    obtain ⟨e, he, hx⟩ := List.any_eq_true.1 h
    rw [hpNone e he] at hx
    simp at hx

end

/-- Settles O17: an order or underrun by `seqFault_spec`, the WAIT rows by what each does at its edge. -/
theorem launchOrderAndWaits : Obligations.LaunchOrderAndWaits := by
  refine ⟨fun c j k b off s hj hk hf hr hb => ⟨fun hn ht => ?_, fun hn hm ht => ?_⟩, fun c j b off s h hw hp => ?_,
    fun c j b off s hj hn hw hm hf ht h4 hd => exec_waitSatisfied_met hj hn hw hm hf ht h4 hd,
    fun c j b off s hj hn hw hm ht hd hcores hown => ?_⟩
  · exact ⟨_, exec_nop_order hj (look_order (by simp [hb]) hf hr hn ht), seqFault_spec _ _ hk⟩
  · exact ⟨_, exec_nop_underrun hj (look_underrun (by simp [hb]) hf hr hn hm ht), seqFault_spec _ _ hk⟩
  · exact ⟨_, exec_waitBundleReachL_due h hw hp, onlyCore_setCore s c _, getCore_setCore s c _⟩
  · obtain ⟨core, only, job, count, regs, frame⟩ := missedState_spec s c j b
    exact ⟨_, exec_missedDeadline_short hj hn hw hm ht hd hcores hown, core, job, count, regs, only, frame⟩

end Sys2Proof
end

section
/-! PROOFS. The anchors of a state: the tick count, READY and the fuses. Few transitions touch one of the three, and the
sections that follow say so of every operation and row of the model, in the order of its files: `anchors_<operation>`,
and `keeps_<row>` for a command. What no command moves (R28, R355) is read off these lemmas. -/

namespace Sys2Proof
open Sys2Proof.Machine

/-- What hardly any transition touches: the tick count, READY and the fuses. -/
def anchors (s : State) : Nat × Bool × Tab W32 := (s.clk.dst, s.bup.ready, s.cus.fuses)

theorem anchors_eq_iff (s t : State) : anchors t = anchors s ↔
    t.clk.dst = s.clk.dst ∧ t.bup.ready = s.bup.ready ∧ t.cus.fuses = s.cus.fuses := by simp [anchors]

/-- The anchors by the parts of a state that hold them, so that an update of another part or field drops out. -/
def anchorsOf (c : Clock) (b : Bringup) (u : Custody) : Nat × Bool × Tab W32 := (c.dst, b.ready, u.fuses)

@[simp] theorem anchorsOf_self (s : State) : anchorsOf s.clk s.bup s.cus = anchors s := rfl

@[simp] theorem anchors_mk (p : List Instr)
    (o d r m st fl c l j sp dy co cl mc ue g cx cr li fa la ce op tp cu bu pw ri rr br mg sy) :
    anchors ⟨p, o, d, r, m, st, fl, c, l, j, sp, dy, co, cl, mc, ue, g, cx, cr, li, fa, la, ce, op, tp, cu, bu, pw, ri,
      rr, br, mg, sy⟩ = anchorsOf c bu cu := rfl

@[simp] theorem anchorsOf_clock (c : Clock) (b : Bringup) (u : Custody)
    (fi ta si sl pu un ex nh nf st mg fs fh fc fn fr ft) :
    anchorsOf ⟨c.dst, fi, ta, si, sl, pu, un, ex, nh, nf, st, mg, fs, fh, fc, fn, fr, ft⟩ b u = anchorsOf c b u := rfl

@[simp] theorem anchorsOf_bringup (c : Clock) (b : Bringup) (u : Custody)
    (pw ra pe ba mg ph fa lo fu so te ps pr ce la de sp bo up rs) :
    anchorsOf c ⟨pw, ra, pe, ba, mg, ph, fa, lo, b.ready, fu, so, te, ps, pr, ce, la, de, sp, bo, up, rs⟩ u =
      anchorsOf c b u := rfl

@[simp] theorem anchorsOf_custody (c : Clock) (b : Bringup) (u : Custody)
    (no bu og pe dl re ba lo ve cm st si ow se ke kv xt de zb sn cr) :
    anchorsOf c b ⟨no, bu, og, pe, dl, re, ba, lo, ve, cm, st, si, ow, se, ke, kv, xt, de, zb, u.fuses, sn, cr⟩ =
      anchorsOf c b u := rfl

@[simp] theorem anchors_ite (c : Prop) [Decidable c] (s t : State) :
    anchors (if c then s else t) = if c then anchors s else anchors t := apply_ite anchors c s t

@[simp] theorem anchors_fst_ite {β : Type} (c : Prop) [Decidable c] (p q : State × β) :
    anchors (if c then p else q).1 = if c then anchors p.1 else anchors q.1 := by split <;> rfl

@[simp] theorem anchors_foldl {β : Type} {f : State → β → State} (hf : ∀ s b, anchors (f s b) = anchors s) (l : List β)
    (s : State) : anchors (l.foldl f s) = anchors s := by
  induction l generalizing s with
  | nil => rfl
  | cons b r ih => exact (ih _).trans (hf s b)

@[simp] theorem anchors_foldl_fst {β γ : Type} {f : State × β → γ → State × β}
    (hf : ∀ r b, anchors (f r b).1 = anchors r.1) (l : List γ) (r : State × β) :
    anchors (l.foldl f r).1 = anchors r.1 := by
  induction l generalizing r with
  | nil => rfl
  | cons b l ih => exact (ih _).trans (hf r b)

@[simp] theorem anchors_loopN {n f} {s : State} (hf : ∀ i s, anchors (f i s) = anchors s) :
    anchors (loopN n f s) = anchors s := by
  induction n with
  | zero => rfl
  | succ n ih => exact (hf _ _).trans ih

/-- A command that goes on leaves the anchors. -/
def Keeps (s : State) : Res → Prop
  | .next t => anchors t = anchors s
  | _ => True

@[simp] theorem keeps_next (s t : State) : Keeps s (.next t) ↔ anchors t = anchors s := .rfl
@[simp] theorem keeps_fault (s : State) (f : Fault) : Keeps s (.fault f) := trivial
@[simp] theorem keeps_refused (s : State) (f : Refusal) : Keeps s (.refused f) := trivial
@[simp] theorem keeps_ite (s : State) (c : Prop) [Decidable c] (a b : Res) :
    Keeps s (if c then a else b) ↔ if c then Keeps s a else Keeps s b := by split <;> rfl

/-- A launch that happens leaves the anchors. -/
def KeepsSome (s : State) : Option State → Prop
  | some t => anchors t = anchors s
  | none => True

@[simp] theorem keepsSome_some (s t : State) : KeepsSome s (some t) ↔ anchors t = anchors s := .rfl
@[simp] theorem keepsSome_none (s : State) : KeepsSome s none := trivial
@[simp] theorem keepsSome_ite (s : State) (c : Prop) [Decidable c] (a b : Option State) :
    KeepsSome s (if c then a else b) ↔ if c then KeepsSome s a else KeepsSome s b := by split <;> rfl

/-- A legal control instruction leaves the anchors. -/
def CtlKeeps (s : State) : CtlRes → Prop
  | some r => anchors r.1 = anchors s
  | none => True

@[simp] theorem ctlKeeps_some (s : State) (r : State × Int × Bool) :
    CtlKeeps s (some r) ↔ anchors r.1 = anchors s := .rfl
@[simp] theorem ctlKeeps_none (s : State) : CtlKeeps s none := trivial
@[simp] theorem ctlKeeps_ite (s : State) (c : Prop) [Decidable c] (a b : CtlRes) :
    CtlKeeps s (if c then a else b) ↔ if c then CtlKeeps s a else CtlKeeps s b := by split <;> rfl

end Sys2Proof
end

section
/-! PROOFS. The shared operations leave the anchors: registers, the Ledger, memory and its checks, faults, queues. -/

namespace Sys2Proof
open Sys2Proof.Machine

/-! ### Ops -/

@[simp] theorem anchors_setReg (s off v) : anchors (setReg s off v) = anchors s := by simp [setReg]
@[simp] theorem anchors_bump (s off n) : anchors (bump s off n) = anchors s := by simp [bump]
@[simp] theorem anchors_emit (s o) : anchors (emit s o) = anchors s := by simp [emit]
@[simp] theorem anchors_fresh (s) : anchors (fresh s) = anchors s := by simp [fresh]
@[simp] theorem anchors_raiseInt (s page b) : anchors (raiseInt s page b) = anchors s := by simp [raiseInt]

@[simp] theorem anchors_post (s src sev code acc d0 d1) : anchors (post s src sev code acc d0 d1) = anchors s := by
  simp [post]

@[simp] theorem anchors_badAcc (s bar off) : anchors (badAcc s bar off) = anchors s := by simp [badAcc]
@[simp] theorem anchors_badWrite (s page off) : anchors (badWrite s page off) = anchors s := by simp [badWrite]

@[simp] theorem anchors_hostWrite (s page off f) (hf : ∀ s, anchors (f s) = anchors s) :
    anchors (hostWrite s page off f) = anchors s := by
  simp [hostWrite, hf]

@[simp] theorem anchors_setJob (s j x) : anchors (setJob s j x) = anchors s := by simp [setJob]
@[simp] theorem anchors_setCore (s c x) : anchors (setCore s c x) = anchors s := by simp [setCore]
@[simp] theorem anchors_setClu (s k x) : anchors (setClu s k x) = anchors s := by simp [setClu]
@[simp] theorem anchors_setLink (s g x) : anchors (setLink s g x) = anchors s := by simp [setLink]
@[simp] theorem anchors_setMc (s m x) : anchors (setMc s m x) = anchors s := by simp [setMc]
@[simp] theorem anchors_setUe (s e x) : anchors (setUe s e x) = anchors s := by simp [setUe]
@[simp] theorem anchors_setGrp (s g x) : anchors (setGrp s g x) = anchors s := by simp [setGrp]
@[simp] theorem anchors_setCtx (s e x) : anchors (setCtx s e x) = anchors s := by simp [setCtx]
@[simp] theorem anchors_setLane (s l x) : anchors (setLane s l x) = anchors s := by simp [setLane]
@[simp] theorem anchors_setCell (s x c) : anchors (setCell s x c) = anchors s := by simp [setCell]
@[simp] theorem anchors_setRing (s r x) : anchors (setRing s r x) = anchors s := by simp [setRing]
@[simp] theorem anchors_wrCells (s cs) : anchors (wrCells s cs) = anchors s := by simp [wrCells]
@[simp] theorem anchors_zeroRegions (s p) : anchors (zeroRegions s p) = anchors s := by simp [zeroRegions]
@[simp] theorem anchors_loseRegion (s r) : anchors (loseRegion s r) = anchors s := by simp [loseRegion]
@[simp] theorem anchors_releaseHub (s j qs) : anchors (releaseHub s j qs) = anchors s := by simp [releaseHub]
@[simp] theorem anchors_stopQuad (s q) : anchors (stopQuad s q) = anchors s := by simp [stopQuad]
@[simp] theorem anchors_jobFault (s j) : anchors (jobFault s j) = anchors s := by simp [jobFault]
@[simp] theorem anchors_faultOpt (s j) : anchors (faultOpt s j) = anchors s := by unfold faultOpt; split <;> simp
@[simp] theorem anchors_pendRow (s u) : anchors (pendRow s u) = anchors s := by simp [pendRow]
@[simp] theorem anchors_pendUnit (s b) : anchors (pendUnit s b) = anchors s := by simp [pendUnit]
@[simp] theorem anchors_annexUe (s u) : anchors (annexUe s u) = anchors s := by simp [annexUe]
@[simp] theorem anchors_annexCe (s u) : anchors (annexCe s u) = anchors s := by simp [annexCe]
@[simp] theorem anchors_memUe (s w u) : anchors (memUe s w u) = anchors s := by simp [memUe]
@[simp] theorem anchors_memCe (s u) : anchors (memCe s u) = anchors s := by simp [memCe]

@[simp] theorem anchors_readCheck (s w as) : anchors (readCheck s w as).1 = anchors s := by
  unfold readCheck
  dsimp only
  split <;> simp

@[simp] theorem anchors_store (s w cs) : anchors (store s w cs) = anchors s := by simp [store]

@[simp] theorem anchors_hbmAccept (s w q st t n a) : anchors (hbmAccept s w q st t n a).1 = anchors s := by
  simp [hbmAccept]

@[simp] theorem anchors_setCtr (s clu n c) : anchors (setCtr s clu n c) = anchors s := by simp [setCtr]
@[simp] theorem anchors_postFault (s clu page e) : anchors (postFault s clu page e) = anchors s := by simp [postFault]
@[simp] theorem anchors_faultsAt (s clu page es) : anchors (faultsAt s clu page es) = anchors s := by simp [faultsAt]
@[simp] theorem anchors_coreFaults (s clu es) : anchors (coreFaults s clu es) = anchors s := by simp [coreFaults]

@[simp] theorem anchors_coreFault (s clu code d0 d1) : anchors (coreFault s clu code d0 d1) = anchors s := by
  simp [coreFault]

@[simp] theorem anchors_ctrAdd (s clu n delta win) : anchors (ctrAdd s clu n delta win) = anchors s := by simp [ctrAdd]
@[simp] theorem anchors_ctrSettle (s e) : anchors (ctrSettle s e) = anchors s := by simp [ctrSettle]
@[simp] theorem anchors_credit (s clu n k) : anchors (credit s clu n k) = anchors s := by simp [credit]

/-! ### Flags -/

@[simp] theorem anchors_slotFault (s c off code slot) : anchors (slotFault s c off code slot) = anchors s := by
  simp [slotFault]

@[simp] theorem anchors_unitBusy (s c off slot) : anchors (unitBusy s c off slot) = anchors s := by simp [unitBusy]

@[simp] theorem anchors_collide (s page off q hi lo) : anchors (collide s page off q hi lo) = anchors s := by
  unfold collide
  dsimp only
  split <;> simp

@[simp] theorem anchors_cluCollide (s cl x) : anchors (cluCollide s cl x) = anchors s := by simp [cluCollide]
@[simp] theorem anchors_handSummary (s clu m) : anchors (handSummary s clu m) = anchors s := by simp [handSummary]

/-! ### PassOps -/

@[simp] theorem anchors_ueFault (s e j off idx code hi) : anchors (ueFault s e j off idx code hi) = anchors s := by
  simp [ueFault]

@[simp] theorem anchors_portMeet (s m) : anchors (portMeet s m).1 = anchors s := by unfold portMeet; split <;> simp

/-! ### GlobalAddr -/
@[simp] theorem anchors_chargeEnd (s w x t0) : anchors (chargeEnd s w x t0).1 = anchors s := by simp [chargeEnd]

/-! ### Queues -/
@[simp] theorem anchors_lostItem (s c n) : anchors (lostItem s c n) = anchors s := by simp [lostItem]
@[simp] theorem anchors_qCheck (s n) : anchors (qCheck s n).1 = anchors s := by simp [qCheck]

@[simp] theorem anchors_itemCheck (s n c drop) (hdrop : ∀ s, anchors (drop s) = anchors s) :
    anchors (itemCheck s n c drop) = anchors s := by
  simp [itemCheck, hdrop]

@[simp] theorem anchors_pushRec (s c r) : anchors (pushRec s c r) = anchors s := by
  have h : ∀ q : State → Fabric, anchors (itemCheck s (0x1FA + c) c (fun s => { s with fab := q s })) = anchors s :=
    fun _ => anchors_itemCheck _ _ _ _ fun _ => rfl
  unfold pushRec
  dsimp only
  split
  · simp [h]
  · split <;> simp [h]

@[simp] theorem anchors_rtrDrop (s code who acc g mid) : anchors (rtrDrop s code who acc g mid) = anchors s := by
  unfold rtrDrop; split <;> simp

@[simp] theorem anchors_injFull (s j g p) : anchors (injFull s j g p) = anchors s := by simp [injFull]
@[simp] theorem anchors_injPut (s j g p) : anchors (injPut s j g p) = anchors s := by simp [injPut]

@[simp] theorem anchors_originateMc (s j g ed x p) : anchors (originateMc s j g ed x p) = anchors s := by
  simp [originateMc]

@[simp] theorem anchors_originate (s j g p) : anchors (originate s j g p) = anchors s := by
  unfold originate
  dsimp only
  repeat' split
  all_goals simp

@[simp] theorem anchors_originateAll (s j g ps) : anchors (originateAll s j g ps) = anchors s := by simp [originateAll]
@[simp] theorem anchors_nextMid (s j) : anchors (nextMid s j).2 = anchors s := by simp [nextMid]

@[simp] theorem anchors_sendMessages (s j g mt dst mk ps) : anchors (sendMessages s j g mt dst mk ps) = anchors s := by
  simp [sendMessages]

end Sys2Proof
end

section
/-! PROOFS. Circuits, links and custody leave the anchors; the steps of the Datestamp (`steer`) stand further below. -/

namespace Sys2Proof
open Sys2Proof.Machine

/-! ### CircOps -/

@[simp] theorem anchors_cirFault (s j code x) : anchors (cirFault s j code x) = anchors s := by simp [cirFault]

@[simp] theorem anchors_sendChunk (s e dst chunk wid down last bytes) :
    anchors (sendChunk s e dst chunk wid down last bytes) = anchors s := by
  simp [sendChunk]

@[simp] theorem anchors_handResult (s e chunk res) : anchors (handResult s e chunk res) = anchors s := by
  simp [handResult]

@[simp] theorem anchors_cirUe (s e chunk) : anchors (cirUe s e chunk) = anchors s := by simp [cirUe]

@[simp] theorem anchors_staged (s e chunk f) (hf : ∀ s, anchors (f s) = anchors s) :
    anchors (staged s e chunk f) = anchors s := by
  simp [staged, hf]

@[simp] theorem anchors_stagePart (s e p) : anchors (stagePart s e p) = anchors s := by simp [stagePart]
@[simp] theorem anchors_takePart (s j e c input) : anchors (takePart s j e c input) = anchors s := by simp [takePart]
@[simp] theorem anchors_stepFault (s j e c) : anchors (stepFault s j e c) = anchors s := by simp [stepFault]
@[simp] theorem anchors_dupPart (s j c) : anchors (dupPart s j c) = anchors s := by simp [dupPart]
@[simp] theorem anchors_byState (s j e c input) : anchors (byState s j e c input) = anchors s := by simp [byState]

@[simp] theorem anchors_noCtx (s c) : anchors (noCtx s c) = anchors s := by
  unfold noCtx
  dsimp only
  split <;> simp

@[simp] theorem anchors_takeContrib (s c) : anchors (takeContrib s c) = anchors s := by
  unfold takeContrib
  dsimp only
  repeat' split
  all_goals simp

@[simp] theorem anchors_takeRed (s core ctx bkt step bytes) :
    anchors (takeRed s core ctx bkt step bytes) = anchors s := by
  unfold takeRed
  dsimp only
  repeat' split
  all_goals simp

@[simp] theorem anchors_passChunk (s e chunk wid bytes) : anchors (passChunk s e chunk wid bytes) = anchors s := by
  simp [passChunk]

/-! ### LinkOps -/

@[simp] theorem anchors_setLaneAt (s p l x) : anchors (setLaneAt s p l x) = anchors s := by simp [setLaneAt]
@[simp] theorem anchors_goSt (s g st) : anchors (goSt s g st) = anchors s := by simp [goSt]
@[simp] theorem anchors_holdKeys (s g) : anchors (holdKeys s g) = anchors s := by simp [holdKeys]

@[simp] theorem anchors_sendFlit (s g ty seq vc nxt pay) : anchors (sendFlit s g ty seq vc nxt pay) = anchors s := by
  simp [sendFlit]

@[simp] theorem anchors_stepEpoch (s g f) : anchors (stepEpoch s g f) = anchors s := by simp [stepEpoch]
@[simp] theorem anchors_sendIdle (s g pay) : anchors (sendIdle s g pay) = anchors s := by simp [sendIdle]
@[simp] theorem anchors_sendTraining (s g pay) : anchors (sendTraining s g pay) = anchors s := by simp [sendTraining]
@[simp] theorem anchors_tryUp (s g) : anchors (tryUp s g) = anchors s := by simp [tryUp]
@[simp] theorem anchors_tryUpPort (s p) : anchors (tryUpPort s p) = anchors s := by simp [tryUpPort]
@[simp] theorem anchors_tryUpAll (s) : anchors (tryUpAll s) = anchors s := by simp [tryUpAll]
@[simp] theorem anchors_enterRetrain (s g) : anchors (enterRetrain s g) = anchors s := by simp [enterRetrain]
@[simp] theorem anchors_resendAll (s g) : anchors (resendAll s g) = anchors s := by simp [resendAll]
@[simp] theorem anchors_applyFields (s g h) : anchors (applyFields s g h) = anchors s := by simp [applyFields]
@[simp] theorem anchors_putEgress (s g vc p) : anchors (putEgress s g vc p) = anchors s := by simp [putEgress]

@[simp] theorem anchors_routeOn (s j ed g vc p) : anchors (routeOn s j ed g vc p) = anchors s := by
  unfold routeOn
  dsimp only
  repeat' split
  all_goals simp

@[simp] theorem anchors_routeMc (s j ed g vc p) : anchors (routeMc s j ed g vc p) = anchors s := by
  unfold routeMc
  dsimp only
  split <;> simp

@[simp] theorem anchors_stampMc (s j g vc p) : anchors (stampMc s j g vc p) = anchors s := by simp [stampMc]
@[simp] theorem anchors_routeStamp (s j g vc p) : anchors (routeStamp s j g vc p) = anchors s := by simp [routeStamp]
@[simp] theorem anchors_reinject (s j ed g t) : anchors (reinject s j ed g t) = anchors s := by simp [reinject]
@[simp] theorem anchors_dropPartial (s g) : anchors (dropPartial s g) = anchors s := by simp [dropPartial]
@[simp] theorem anchors_failover (s g j l) : anchors (failover s g j l) = anchors s := by simp [failover]
@[simp] theorem anchors_endMigs (s p q) : anchors (endMigs s p q) = anchors s := by simp [endMigs]

@[simp] theorem anchors_linkFail (s g) : anchors (linkFail s g) = anchors s := by
  unfold linkFail
  dsimp only
  split <;> simp

@[simp] theorem anchors_onewayLost (s g) : anchors (onewayLost s g) = anchors s := by simp [onewayLost]
@[simp] theorem anchors_takeSlot (s g k old new) : anchors (takeSlot s g k old new) = anchors s := by simp [takeSlot]

@[simp] theorem anchors_laneFail (s p l) : anchors (laneFail s p l) = anchors s := by
  unfold laneFail
  dsimp only
  repeat' split
  all_goals simp

@[simp] theorem anchors_topCheckD (s d0) : anchors (topCheckD s d0) = anchors s := by simp [topCheckD]
@[simp] theorem anchors_topCheck (s g) : anchors (topCheck s g) = anchors s := by simp [topCheck]
@[simp] theorem anchors_identReject (s g r why) : anchors (identReject s g r why) = anchors s := by simp [identReject]

@[simp] theorem anchors_takeIdent (s g pay) : anchors (takeIdent s g pay) = anchors s := by
  unfold takeIdent
  dsimp only
  repeat' split
  all_goals simp

@[simp] theorem anchors_retrained (s g) : anchors (retrained s g) = anchors s := by simp [retrained]
@[simp] theorem anchors_takeCredit (s g pay) : anchors (takeCredit s g pay) = anchors s := by simp [takeCredit]

@[simp] theorem anchors_takeTraining (s g pay) : anchors (takeTraining s g pay) = anchors s := by
  unfold takeTraining
  dsimp only
  split <;> simp

@[simp] theorem anchors_countRx (s g) : anchors (countRx s g) = anchors s := by
  unfold countRx
  dsimp only
  split <;> simp

@[simp] theorem anchors_passState (s g) : anchors (passState s g) = anchors s := by simp [passState]
@[simp] theorem anchors_badFlit (s g crcOk) : anchors (badFlit s g crcOk) = anchors s := by simp [badFlit]
@[simp] theorem anchors_takePacket (s g vc n p) : anchors (takePacket s g vc n p) = anchors s := by simp [takePacket]
@[simp] theorem anchors_takePay (s g h pay) : anchors (takePay s g h pay) = anchors s := by simp [takePay]
@[simp] theorem anchors_sendNak (s g) : anchors (sendNak s g) = anchors s := by simp [sendNak]
@[simp] theorem anchors_takeData (s g f) : anchors (takeData s g f) = anchors s := by simp [takeData]
@[simp] theorem anchors_loseStream (s g) : anchors (loseStream s g) = anchors s := by simp [loseStream]

@[simp] theorem anchors_countFec (s g f) : anchors (countFec s g f) = anchors s := by
  refine anchors_foldl (fun s e => ?_) _ _
  split <;> simp

@[simp] theorem anchors_rxFlit (s g ty w bad good) (hbad : ∀ s, anchors (bad s) = anchors s)
    (hgood : ∀ s b, anchors (good s b) = anchors s) :
    anchors (rxFlit s g ty w bad good) = anchors s := by
  simp [rxFlit, hbad, hgood]

@[simp] theorem anchors_recvData (s g w) : anchors (recvData s g w) = anchors s := by simp [recvData]
@[simp] theorem anchors_steerTo (s t) : anchors (steerTo s t) = anchors s := by simp [steerTo]

/-! ### CusOps -/
@[simp] theorem anchors_cusPost (s sev code w r p) : anchors (cusPost s sev code w r p) = anchors s := by simp [cusPost]

@[simp] theorem anchors_vendor (s cmd f) (hf : ∀ s, anchors (f s) = anchors s) :
    anchors (vendor s cmd f) = anchors s := by
  simp [vendor, hf]

@[simp] theorem anchors_answer (s p cmd) : anchors (answer s p cmd) = anchors s := by unfold answer; split <;> simp
@[simp] theorem anchors_cusEnd (s p cmd w r) : anchors (cusEnd s p cmd w r) = anchors s := by simp [cusEnd]
@[simp] theorem anchors_cusDiscard (s) : anchors (cusDiscard s) = anchors s := by simp [cusDiscard]
@[simp] theorem anchors_cusBadsig (s p cmd w) : anchors (cusBadsig s p cmd w) = anchors s := by simp [cusBadsig]
@[simp] theorem anchors_zeroise (s q) : anchors (zeroise s q) = anchors s := by simp [zeroise]
@[simp] theorem anchors_freshKey (s q) : anchors (freshKey s q) = anchors s := by simp [freshKey]
@[simp] theorem anchors_setSeal (s q on) : anchors (setSeal s q on) = anchors s := by simp [setSeal]
@[simp] theorem anchors_setOwner (s q a) : anchors (setOwner s q a) = anchors s := by simp [setOwner]
@[simp] theorem anchors_stageIssue (s p w sig) : anchors (stageIssue s p w sig) = anchors s := by simp [stageIssue]
@[simp] theorem anchors_stageKeep (s p w nonce) : anchors (stageKeep s p w nonce) = anchors s := by simp [stageKeep]

@[simp] theorem anchors_stageVerify (s p w sig) : anchors (stageVerify s p w sig) = anchors s := by
  unfold stageVerify
  dsimp only
  repeat' split
  all_goals simp

@[simp] theorem anchors_confirmVerify (s p w sig) : anchors (confirmVerify s p w sig) = anchors s := by
  simp [confirmVerify]

@[simp] theorem anchors_commitRow (s op f) (hf : ∀ s b, anchors (f s b) = anchors s) :
    anchors (commitRow s op f) = anchors s := by
  unfold commitRow; split <;> simp [hf]

end Sys2Proof
end

section
/-! PROOFS. The units of a core and a bundle's launch leave the anchors. -/

namespace Sys2Proof
open Sys2Proof.Machine

/-! ### MatrixOps -/

@[simp] theorem anchors_readLine (s w line want) : anchors (readLine s w line want).1 = anchors s := by simp [readLine]
@[simp] theorem anchors_mxIssue (s cid i f) : anchors (mxIssue s cid i f) = anchors s := by simp [mxIssue]
@[simp] theorem anchors_startMma (s cid l w op) : anchors (startMma s cid l w op) = anchors s := by simp [startMma]
@[simp] theorem anchors_startAld (s cid l w) : anchors (startAld s cid l w) = anchors s := by simp [startAld]

@[simp] theorem anchors_startAst (s cid l w scaledOp) : anchors (startAst s cid l w scaledOp) = anchors s := by
  simp [startAst]

@[simp] theorem anchors_startAclr (s cid l w) : anchors (startAclr s cid l w) = anchors s := by simp [startAclr]
@[simp] theorem anchors_mxStart (s cid l w) : anchors (mxStart s cid l w) = anchors s := by simp [mxStart]

@[simp] theorem anchors_lineIn (s cid ts f e) : anchors (lineIn s cid ts f e).1 = anchors s := by
  unfold lineIn
  dsimp only
  split <;> simp

@[simp] theorem anchors_opSummary (s c tag rtag f) : anchors (opSummary s c tag rtag f) = anchors s := by
  simp [opSummary]

@[simp] theorem anchors_mxEvent (s cid f e) : anchors (mxEvent s cid f e).1 = anchors s := by
  unfold mxEvent; split <;> simp

/-! ### StreamOps -/

@[simp] theorem anchors_stEvent (s cid f e) : anchors (stEvent s cid f e).1 = anchors s := by
  unfold stEvent; split <;> simp

@[simp] theorem anchors_stStart (s cid l w) : anchors (stStart s cid l w) = anchors s := by simp [stStart]

/-! ### MoveOps -/
@[simp] theorem anchors_tdCollide (s cl p) : anchors (tdCollide s cl p) = anchors s := by simp [tdCollide]

@[simp] theorem anchors_addTd (s cid jt p) : anchors (addTd s cid jt p) = anchors s := by
  unfold addTd
  dsimp only
  split <;> simp

@[simp] theorem anchors_startLdtd (s cid l w) : anchors (startLdtd s cid l w) = anchors s := by simp [startLdtd]
@[simp] theorem anchors_startSttd (s cid l w) : anchors (startSttd s cid l w) = anchors s := by simp [startSttd]
@[simp] theorem anchors_queueMove (s cid j l w) : anchors (queueMove s cid j l w) = anchors s := by simp [queueMove]
@[simp] theorem anchors_mvStart (s cid j l w) : anchors (mvStart s cid j l w) = anchors s := by simp [mvStart]
@[simp] theorem anchors_closedLink (s cid j m) : anchors (closedLink s cid j m) = anchors s := by simp [closedLink]
@[simp] theorem anchors_issueHead (s cid t m evs) : anchors (issueHead s cid t m evs) = anchors s := by simp [issueHead]

@[simp] theorem anchors_startSig (s cid j t m) : anchors (startSig s cid j t m) = anchors s := by
  unfold startSig; split <;> simp

@[simp] theorem anchors_startGet (s cid j t m a) : anchors (startGet s cid j t m a) = anchors s := by
  unfold startGet
  dsimp only
  split <;> simp

@[simp] theorem anchors_startMove (s cid j t m) : anchors (startMove s cid j t m) = anchors s := by
  simp only [startMove]
  repeat' split
  all_goals simp

@[simp] theorem anchors_moveDone (s cid cc) : anchors (moveDone s cid cc) = anchors s := by
  unfold moveDone; split <;> simp

@[simp] theorem anchors_portAccept (s j w line) : anchors (portAccept s j w line).1 = anchors s := by simp [portAccept]

@[simp] theorem anchors_moveSend (s cid j m a b) : anchors (moveSend s cid j m a b) = anchors s := by
  unfold moveSend; split <;> simp

@[simp] theorem anchors_mvEvent (s cid m e) : anchors (mvEvent s cid m e).1 = anchors s := by
  unfold mvEvent
  dsimp only
  repeat' split
  all_goals simp

@[simp] theorem anchors_tdEvent (s cid o e) : anchors (tdEvent s cid o e).1 = anchors s := by simp [tdEvent]

/-! ### Launch -/
@[simp] theorem anchors_actLoop (s cid j l w) : anchors (actLoop s cid j l w) = anchors s := by simp [actLoop]
@[simp] theorem anchors_actTdadd (s cid l w) : anchors (actTdadd s cid l w) = anchors s := by simp [actTdadd]
@[simp] theorem anchors_actEnd (s cid j) : anchors (actEnd s cid j) = anchors s := by simp [actEnd]
@[simp] theorem anchors_ctlAct (s cid j l b) : anchors (ctlAct s cid j l b) = anchors s := by simp [ctlAct]
@[simp] theorem anchors_skewCheck (s j jt) : anchors (skewCheck s j jt) = anchors s := by simp [skewCheck]

@[simp] theorem anchors_latchBundle (s cid j jt b off) : anchors (latchBundle s cid j jt b off) = anchors s := by
  simp [latchBundle]

@[simp] theorem anchors_launchBundle (s cid j jt b off) : anchors (launchBundle s cid j jt b off) = anchors s := by
  simp [launchBundle]

@[simp] theorem anchors_onEdge (s cid f) (hf : ∀ j, KeepsSome s (f s j)) : anchors (onEdge s cid f) = anchors s := by
  unfold onEdge
  split
  case h_1 j _ =>
    have h := hf j
    cases hj : f s j with
    | none => rfl
    | some t => simpa [hj] using h
  case h_2 => rfl

@[simp] theorem anchors_seqFault (s cid off code) : anchors (seqFault s cid off code) = anchors s := by simp [seqFault]

@[simp] theorem keepsSome_launchDue (cid p s j) : KeepsSome s (launchDue cid p s j) := by
  unfold launchDue
  split <;> simp

@[simp] theorem anchors_launch (s cid p) : anchors (launch s cid p) = anchors s := by simp [launch]

@[simp] theorem anchors_releaseCore (j e s k) : anchors (releaseCore j e s k) = anchors s := by
  unfold releaseCore
  dsimp only
  repeat' split
  all_goals simp

end Sys2Proof
end

section
/-! PROOFS. Scalar control, row engine, route unit and the work of a tick leave the anchors. -/

namespace Sys2Proof
open Sys2Proof.Machine

/-! ### Scalar -/

@[simp] theorem anchors_ccIllegal (s clu pc) : anchors (ccIllegal s clu pc) = anchors s := by simp [ccIllegal]

@[simp] theorem anchors_ctlStep (s cl p f) (hf : ∀ j w jt, CtlKeeps s (f j w jt)) :
    anchors (ctlStep s cl p f) = anchors s := by
  unfold ctlStep
  split
  case h_1 => rfl
  case h_2 j _ =>
    refine (anchors_ite _ _ _).trans (ite_eq_left_iff.2 fun _ => ?_)
    have h := hf j (tget 0 (getClu s cl.key).imem (getClu s cl.key).pc) (jobTime s (getJob s j))
    split
    case h_1 => simp
    case h_2 hr =>
      rw [hr] at h
      split <;> simpa using h

@[simp] theorem ctlKeeps_ctlNext (s t cl) : CtlKeeps s (ctlNext t cl) ↔ anchors t = anchors s := .rfl
@[simp] theorem ctlKeeps_ctlSet (s cl jt d v) : CtlKeeps s (ctlSet s cl jt d v) := anchors_setClu _ _ _

@[simp] theorem keeps_execAlu (cl s) : Keeps s (execAlu cl s) := by
  refine anchors_ctlStep _ _ _ _ fun _ w jt => ?_
  dsimp only
  repeat' split
  all_goals simp

@[simp] theorem keeps_execAddi (cl s) : Keeps s (execAddi cl s) := by simp [execAddi]
@[simp] theorem keeps_execAndi (cl s) : Keeps s (execAndi cl s) := by simp [execAndi]
@[simp] theorem keeps_execOri (cl s) : Keeps s (execOri cl s) := by simp [execOri]
@[simp] theorem keeps_execXori (cl s) : Keeps s (execXori cl s) := by simp [execXori]
@[simp] theorem keeps_execShi (cl s) : Keeps s (execShi cl s) := by simp [execShi]
@[simp] theorem keeps_execLui (cl s) : Keeps s (execLui cl s) := by simp [execLui]

@[simp] theorem keeps_execLw (cl s) : Keeps s (execLw cl s) := by
  refine anchors_ctlStep _ _ _ _ fun _ w jt => ?_
  dsimp only
  repeat' split
  all_goals simp

@[simp] theorem keeps_execSw (cl s) : Keeps s (execSw cl s) := by
  refine anchors_ctlStep _ _ _ _ fun _ w jt => ?_
  dsimp only
  repeat' split
  all_goals simp

@[simp] theorem ctlKeeps_ctlBranch (s cl w t) : CtlKeeps s (ctlBranch s cl w t) := by simp [ctlBranch]
@[simp] theorem keeps_execBeq (cl s) : Keeps s (execBeq cl s) := by simp [execBeq]
@[simp] theorem keeps_execBne (cl s) : Keeps s (execBne cl s) := by simp [execBne]
@[simp] theorem keeps_execBlt (cl s) : Keeps s (execBlt cl s) := by simp [execBlt]
@[simp] theorem keeps_execBge (cl s) : Keeps s (execBge cl s) := by simp [execBge]
@[simp] theorem keeps_execJmp (cl s) : Keeps s (execJmp cl s) := by simp [execJmp]
@[simp] theorem keeps_execWaitj (cl s) : Keeps s (execWaitj cl s) := by simp [execWaitj]
@[simp] theorem keeps_execArmc (cl s) : Keeps s (execArmc cl s) := by simp [execArmc]
@[simp] theorem keeps_execMget (cl s) : Keeps s (execMget cl s) := by simp [execMget]
@[simp] theorem keeps_execRdcc (cl s) : Keeps s (execRdcc cl s) := by simp [execRdcc]
@[simp] theorem keeps_execRdj (cl s) : Keeps s (execRdj cl s) := by simp [execRdj]
@[simp] theorem anchors_tdwCore (jt pc td v s cid) : anchors (tdwCore jt pc td v s cid) = anchors s := by simp [tdwCore]
@[simp] theorem keeps_execTdw (cl s) : Keeps s (execTdw cl s) := by simp [execTdw]

/-! ### CmdOps -/
@[simp] theorem anchors_setUnit (s clu rt u) : anchors (setUnit s clu rt u) = anchors s := by simp [setUnit]

@[simp] theorem anchors_unitFault (s clu rt code off op hi) :
    anchors (unitFault s clu rt code off op hi) = anchors s := by
  simp [unitFault]

@[simp] theorem anchors_unitFetch (s cl rt) : anchors (unitFetch s cl rt) = anchors s := by
  unfold unitFetch; split <;> simp

@[simp] theorem anchors_countCmd (s clu rt) : anchors (countCmd s clu rt) = anchors s := by simp [countCmd]

@[simp] theorem anchors_unitLaunch (s cl rt p f) (hf : ∀ s b c d, anchors (f s b c d) = anchors s) :
    anchors (unitLaunch s cl rt p f) = anchors s := by
  unfold unitLaunch
  dsimp only
  repeat' split
  all_goals simp [hf]

@[simp] theorem anchors_unitIssue (s cl rt i f evs) : anchors (unitIssue s cl rt i f evs) = anchors s := by
  simp [unitIssue]

@[simp] theorem anchors_unitEnd (s cl rt) : anchors (unitEnd s cl rt) = anchors s := by simp [unitEnd]
@[simp] theorem anchors_dropInt (s clu es) : anchors (dropInt s clu es) = anchors s := by simp [dropInt]
@[simp] theorem anchors_orReg (s off v) : anchors (orReg s off v) = anchors s := by simp [orReg]

@[simp] theorem anchors_writeMask (s cl due m) : anchors (writeMask s cl due m) = anchors s := by
  unfold writeMask; split <;> simp

@[simp] theorem anchors_gateCount (s clu es) : anchors (gateCount s clu es) = anchors s := by simp [gateCount]

@[simp] theorem anchors_unitComplete (s cl rt) : anchors (unitComplete s cl rt) = anchors s := by
  unfold unitComplete
  dsimp only
  repeat' split
  all_goals simp

/-! ### RowEngine -/

@[simp] theorem anchors_reFactor (s cl f) : anchors (reFactor s cl f).1 = anchors s := by simp [reFactor]

@[simp] theorem anchors_reEvent (s cl f e) : anchors (reEvent s cl f e).1 = anchors s := by
  unfold reEvent; split <;> simp

@[simp] theorem anchors_reRun (cl s _j jt w) : anchors (reRun cl s _j jt w) = anchors s := by
  unfold reRun
  dsimp only
  split <;> simp

@[simp] theorem keeps_execReFetchSlot (cl s) : Keeps s (execReFetchSlot cl s) := by simp [execReFetchSlot]
@[simp] theorem keeps_execReNop (cl s) : Keeps s (execReNop cl s) := by simp [execReNop]
@[simp] theorem keeps_execReEnd (cl s) : Keeps s (execReEnd cl s) := by simp [execReEnd]
@[simp] theorem keeps_execNormf (cl s) : Keeps s (execNormf cl s) := by simp [execNormf]
@[simp] theorem keeps_execRmsf (cl s) : Keeps s (execRmsf cl s) := by simp [execRmsf]
@[simp] theorem keeps_execSmxf (cl s) : Keeps s (execSmxf cl s) := by simp [execSmxf]
@[simp] theorem keeps_execNormb (cl s) : Keeps s (execNormb cl s) := by simp [execNormb]
@[simp] theorem keeps_execRmsb (cl s) : Keeps s (execRmsb cl s) := by simp [execRmsb]
@[simp] theorem keeps_execSmxb (cl s) : Keeps s (execSmxb cl s) := by simp [execSmxb]
@[simp] theorem keeps_execSolve (cl s) : Keeps s (execSolve cl s) := by simp [execSolve]
@[simp] theorem keeps_execMspill (cl s) : Keeps s (execMspill cl s) := by simp [execMspill]
@[simp] theorem keeps_execMfill (cl s) : Keeps s (execMfill cl s) := by simp [execMfill]

@[simp] theorem keeps_execReCommandComplete (cl s) : Keeps s (execReCommandComplete cl s) := by
  simp [execReCommandComplete]

@[simp] theorem keeps_execRePivotFlagClear (cl hi v hw s) : Keeps s (execRePivotFlagClear cl hi v hw s) := by
  simp [execRePivotFlagClear]

/-! ### Route -/

@[simp] theorem anchors_rtGatherRow (s j cl f i c) : anchors (rtGatherRow s j cl f i c).1 = anchors s := by
  simp [rtGatherRow]

@[simp] theorem anchors_rtDead (s cl f code hi) : anchors (rtDead s cl f code hi).1 = anchors s := by simp [rtDead]

@[simp] theorem anchors_rtWork (s j cl f e) : anchors (rtWork s j cl f e).1 = anchors s := by
  unfold rtWork
  dsimp only
  repeat' split
  all_goals simp

@[simp] theorem anchors_rtEvent (s cl f e) : anchors (rtEvent s cl f e).1 = anchors s := by
  unfold rtEvent
  dsimp only
  repeat' split
  all_goals simp

@[simp] theorem anchors_rtRun (cl s j jt w) : anchors (rtRun cl s j jt w) = anchors s := by unfold rtRun; split <;> simp
@[simp] theorem anchors_gateWins (s cl g) : anchors (gateWins s cl g) = anchors s := by unfold gateWins; split <;> simp

@[simp] theorem keeps_execMset (cl s) : Keeps s (execMset cl s) := by
  refine anchors_ctlStep _ _ _ _ fun _ w jt => ?_
  dsimp only
  repeat' split
  all_goals simp

@[simp] theorem keeps_execRtFetchSlot (cl s) : Keeps s (execRtFetchSlot cl s) := by simp [execRtFetchSlot]
@[simp] theorem keeps_execRtNop (cl s) : Keeps s (execRtNop cl s) := by simp [execRtNop]
@[simp] theorem keeps_execRtEnd (cl s) : Keeps s (execRtEnd cl s) := by simp [execRtEnd]
@[simp] theorem keeps_execGate (cl s) : Keeps s (execGate cl s) := by simp [execGate]
@[simp] theorem keeps_execDispatch (cl s) : Keeps s (execDispatch cl s) := by simp [execDispatch]
@[simp] theorem keeps_execCombine (cl s) : Keeps s (execCombine cl s) := by simp [execCombine]
@[simp] theorem keeps_execWgrad (cl s) : Keeps s (execWgrad cl s) := by simp [execWgrad]
@[simp] theorem keeps_execGather (cl s) : Keeps s (execGather cl s) := by simp [execGather]
@[simp] theorem keeps_execPack (cl s) : Keeps s (execPack cl s) := by simp [execPack]
@[simp] theorem keeps_execMerge (cl s) : Keeps s (execMerge cl s) := by simp [execMerge]

@[simp] theorem keeps_execRtCommandComplete (cl s) : Keeps s (execRtCommandComplete cl s) := by
  simp [execRtCommandComplete]

@[simp] theorem keeps_execRtClr (cl v s) : Keeps s (execRtClr cl v s) := by simp [execRtClr]

/-! ### Engine -/
@[simp] theorem anchors_reportLosers (s ls tds) : anchors (reportLosers s ls tds) = anchors s := by simp [reportLosers]

theorem anchors_runEvs {α : Type} (ls op) (f : State → α → Ev → State × α) (evs x)
    (hf : ∀ s x e, anchors (f s x e).1 = anchors s) : anchors (runEvs ls op f evs x).1 = anchors x.1 :=
  anchors_foldl_fst (fun r e => hf r.1 r.2 e) _ _

theorem anchors_unitPhase {α : Type} (ls wr key unit get put plan drop) (f : State → CoreId → α → Ev → State × α) (s)
    (hf : ∀ s c x e, anchors (f s c x e).1 = anchors s) :
    anchors (unitPhase ls wr key unit get put plan drop f s) = anchors s := by
  refine anchors_foldl (fun s i => ?_) _ _
  split
  case h_1 => rfl
  case h_2 =>
    dsimp only
    split
    · rfl
    · simp [anchors_runEvs ls _ _ _ _ fun s x e => hf s _ x e]

@[simp] theorem anchors_corePhase (ls tds wr s key) : anchors (corePhase ls tds wr s key) = anchors s := by
  simp [corePhase, anchors_unitPhase]

@[simp] theorem anchors_dropTd (ls tds s key) : anchors (dropTd ls tds s key) = anchors s := by simp [dropTd]
@[simp] theorem anchors_cmdEvent (rt s cl f e) : anchors (cmdEvent rt s cl f e).1 = anchors s := by simp [cmdEvent]

@[simp] theorem anchors_cmdPhase (ls rt wr s k) : anchors (cmdPhase ls rt wr s k) = anchors s := by
  refine anchors_foldl (fun s i => ?_) _ _
  split
  case h_1 => rfl
  case h_2 x _ =>
    have h := fun evs : List Ev => anchors_foldl_fst (f := fun y e => cmdEvent rt y.1 (cluOfKey k) y.2 e)
      (fun r e => anchors_cmdEvent rt r.1 (cluOfKey k) r.2 e) evs (s, x)
    dsimp only
    split
    · rfl
    · simp [h]

@[simp] theorem anchors_phase (ls tds cores clus wr s) : anchors (phase ls tds cores clus wr s) = anchors s := by
  simp [phase]

@[simp] theorem anchors_runCores (s) : anchors (runCores s) = anchors s := by simp [runCores]
@[simp] theorem anchors_drainUnit (s k rt) : anchors (drainUnit s k rt) = anchors s := by simp [drainUnit]
@[simp] theorem anchors_drainCore (s cid) : anchors (drainCore s cid) = anchors s := by simp [drainCore]
@[simp] theorem anchors_settleTds (s t) : anchors (settleTds s t) = anchors s := by simp [settleTds]
@[simp] theorem anchors_cycleEnd (s t) : anchors (cycleEnd s t) = anchors s := by simp [cycleEnd]

end Sys2Proof
end

section
/-! PROOFS. Lanes, the resets below the module, messages leave the anchors. -/

namespace Sys2Proof
open Sys2Proof.Machine

/-! ### LaneOps -/

@[simp] theorem anchors_optPost (s sev code p l d1) : anchors (optPost s sev code p l d1) = anchors s := by
  simp [optPost]

@[simp] theorem anchors_laserTo (s p l st) : anchors (laserTo s p l st) = anchors s := by simp [laserTo]
@[simp] theorem anchors_putMig (s p m) : anchors (putMig s p m) = anchors s := by simp [putMig]
@[simp] theorem anchors_dropMig (s p m) : anchors (dropMig s p m) = anchors s := by simp [dropMig]
@[simp] theorem anchors_sendRec (s p m opc) : anchors (sendRec s p m opc) = anchors s := by simp [sendRec]

@[simp] theorem anchors_trySwitch (s g) : anchors (trySwitch s g) = anchors s := by
  simp only [trySwitch]
  repeat' split
  all_goals simp

@[simp] theorem anchors_sendReady (s g) : anchors (sendReady s g) = anchors s := by simp [sendReady]
@[simp] theorem anchors_tryRise (s p l) : anchors (tryRise s p l) = anchors s := by simp [tryRise]

@[simp] theorem anchors_startMig (s g k old new cal) : anchors (startMig s g k old new cal) = anchors s := by
  simp [startMig]

@[simp] theorem anchors_freeCounter (s) : anchors (freeCounter s) = anchors s := by simp [freeCounter]
@[simp] theorem anchors_abortCal (s) : anchors (abortCal s) = anchors s := by unfold abortCal; split <;> simp

@[simp] theorem anchors_moveOff (s g k l cal) : anchors (moveOff s g k l cal) = anchors s := by
  unfold moveOff
  dsimp only
  repeat' split
  all_goals simp

@[simp] theorem anchors_moveSlot (s p l) : anchors (moveSlot s p l) = anchors s := by unfold moveSlot; split <;> simp
@[simp] theorem anchors_retire (s p l) : anchors (retire s p l) = anchors s := by simp [retire]
@[simp] theorem anchors_moveWaiting (s p) : anchors (moveWaiting s p) = anchors s := by simp [moveWaiting]
@[simp] theorem anchors_onFree (s p) : anchors (onFree s p) = anchors s := by simp [onFree]

@[simp] theorem anchors_upMoves (was s g) : anchors (upMoves was s g) = anchors s := by
  simp [upMoves]

@[simp] theorem anchors_keepPast (s p m) : anchors (keepPast s p m) = anchors s := by simp [keepPast]
@[simp] theorem anchors_endMig (s p m) : anchors (endMig s p m) = anchors s := by simp [endMig]
@[simp] theorem anchors_endIfDone (s p m) : anchors (endIfDone s p m) = anchors s := by simp [endIfDone]
@[simp] theorem anchors_sendPast (s p m opc) : anchors (sendPast s p m opc) = anchors s := by simp [sendPast]
@[simp] theorem anchors_takePast (s g r) : anchors (takePast s g r) = anchors s := by unfold takePast; split <;> simp

@[simp] theorem anchors_takeRequest (s g r cal) : anchors (takeRequest s g r cal) = anchors s := by
  unfold takeRequest; split <;> simp

@[simp] theorem anchors_takeReady (s g r) : anchors (takeReady s g r) = anchors s := by unfold takeReady; split <;> simp

@[simp] theorem anchors_takeSwitch (s g r) : anchors (takeSwitch s g r) = anchors s := by
  unfold takeSwitch
  dsimp only
  repeat' split
  all_goals simp

@[simp] theorem anchors_takeDone (s g r) : anchors (takeDone s g r) = anchors s := by unfold takeDone; split <;> simp

@[simp] theorem anchors_giveUpMig (s p m) : anchors (giveUpMig s p m) = anchors s := by
  unfold giveUpMig
  dsimp only
  repeat' split
  all_goals simp

@[simp] theorem anchors_takeAbort (s g r) : anchors (takeAbort s g r) = anchors s := by unfold takeAbort; split <;> simp
@[simp] theorem anchors_measureCell (s ax i) : anchors (measureCell s ax i) = anchors s := by simp [measureCell]
@[simp] theorem anchors_calFreed (s p l) : anchors (calFreed s p l) = anchors s := by simp [calFreed]

@[simp] theorem anchors_calDone (s g r) : anchors (calDone s g r) = anchors s := by
  unfold calDone
  dsimp only
  repeat' split
  all_goals simp

@[simp] theorem anchors_takeRec (s g r) : anchors (takeRec s g r) = anchors s := by unfold takeRec; split <;> simp
@[simp] theorem anchors_cellLight (s p l cur) : anchors (cellLight s p l cur) = anchors s := by simp [cellLight]
@[simp] theorem anchors_settleCell (s x) : anchors (settleCell s x) = anchors s := by simp [settleCell]
@[simp] theorem anchors_allSafe (s) : anchors (allSafe s) = anchors s := by simp [allSafe]

/-! ### ResetOps -/
@[simp] theorem anchors_assignLanes (s) : anchors (assignLanes s) = anchors s := by simp [assignLanes]
@[simp] theorem anchors_lightLanes (s) : anchors (lightLanes s) = anchors s := by simp [lightLanes]
@[simp] theorem anchors_darkCells (s) : anchors (darkCells s) = anchors s := by simp [darkCells]
@[simp] theorem anchors_addSoft (s u log) : anchors (addSoft s u log) = anchors s := by simp [addSoft]
@[simp] theorem anchors_shortCheck (s q) : anchors (shortCheck s q) = anchors s := by simp [shortCheck]
@[simp] theorem anchors_replaceRow (s row) : anchors (replaceRow s row) = anchors s := by simp [replaceRow]
@[simp] theorem anchors_selfTest (s b p) : anchors (selfTest s b p) = anchors s := by simp [selfTest]
@[simp] theorem anchors_runPpr (s m) : anchors (runPpr s m) = anchors s := by simp [runPpr]
@[simp] theorem anchors_applyRepairs (s q) : anchors (applyRepairs s q) = anchors s := by simp [applyRepairs]
@[simp] theorem anchors_reviveQuad (b test s q) : anchors (reviveQuad b test s q) = anchors s := by simp [reviveQuad]
@[simp] theorem anchors_bupPost (s sev code phase) : anchors (bupPost s sev code phase) = anchors s := by simp [bupPost]
@[simp] theorem anchors_bupOverruns (s ks) : anchors (bupOverruns s ks) = anchors s := by simp [bupOverruns]
@[simp] theorem anchors_bootTick (s) : anchors (bootTick s) = anchors s := by simp [bootTick]
@[simp] theorem anchors_clearPages (s p) : anchors (clearPages s p) = anchors s := by simp [clearPages]
@[simp] theorem anchors_loseAll (s rs) : anchors (loseAll s rs) = anchors s := by simp [loseAll]
@[simp] theorem anchors_absorbAt (s p) : anchors (absorbAt s p) = anchors s := by simp [absorbAt]
@[simp] theorem anchors_resetCore (s c) : anchors (resetCore s c) = anchors s := by simp [resetCore]
@[simp] theorem anchors_resetCluster (s q c) : anchors (resetCluster s q c) = anchors s := by simp [resetCluster]
@[simp] theorem anchors_refuseBar2 (s q) : anchors (refuseBar2 s q) = anchors s := by simp [refuseBar2]
@[simp] theorem anchors_resetQuad (s q) : anchors (resetQuad s q) = anchors s := by simp [resetQuad]
@[simp] theorem anchors_resetHub (s) : anchors (resetHub s) = anchors s := by simp [resetHub]

@[simp] theorem anchors_startReset (s r f) (hf : ∀ s, anchors (f s) = anchors s) :
    anchors (startReset s r f) = anchors s := by
  unfold startReset; split <;> simp [hf]

@[simp] theorem anchors_rstCtl (s k v f) (hf : ∀ s, anchors (f s) = anchors s) :
    anchors (rstCtl s k v f) = anchors s := by
  simp [rstCtl, hf]

/-! ### Bringup -/

@[simp] theorem keeps_execPerstNRise (s) : Keeps s (execPerstNRise s) := by simp [execPerstNRise]
@[simp] theorem keeps_execCoreReset (v s) : Keeps s (execCoreReset v s) := by simp [execCoreReset]
@[simp] theorem keeps_execClusterReset (v s) : Keeps s (execClusterReset v s) := by simp [execClusterReset]
@[simp] theorem keeps_execQuadrantReset (v s) : Keeps s (execQuadrantReset v s) := by simp [execQuadrantReset]
@[simp] theorem keeps_execHubReset (v s) : Keeps s (execHubReset v s) := by simp [execHubReset]
@[simp] theorem keeps_execRprAdd (v s) : Keeps s (execRprAdd v s) := by simp [execRprAdd]

@[simp] theorem keeps_execD2dLost (a b s) : Keeps s (execD2dLost a b s) := by
  simp only [execD2dLost]
  repeat' split
  all_goals simp

/-! ### MsgOps -/

@[simp] theorem anchors_qpUe (s acc g mid) : anchors (qpUe s acc g mid) = anchors s := by
  unfold qpUe
  dsimp only
  split <;> simp

@[simp] theorem anchors_popIn (s g vc) : anchors (popIn s g vc) = anchors s := by simp [popIn]

@[simp] theorem anchors_takeIn (s g vc p f) (hf : ∀ s, anchors (f s) = anchors s) :
    anchors (takeIn s g vc p f) = anchors s := by
  simp [takeIn, hf]

@[simp] theorem anchors_bumpRtr (s acc o) : anchors (bumpRtr s acc o) = anchors s := by unfold bumpRtr; split <;> simp

@[simp] theorem anchors_mvRemote (s p a) : anchors (mvRemote s p a) = anchors s := by
  unfold mvRemote
  dsimp only
  split <;> simp

@[simp] theorem anchors_msgPut (s j g q p) : anchors (msgPut s j g q p) = anchors s := by simp [msgPut]
@[simp] theorem anchors_msgTake (s g q p) : anchors (msgTake s g q p) = anchors s := by unfold msgTake; split <;> simp

@[simp] theorem anchors_mcOvf (s g p) : anchors (mcOvf s g p) = anchors s := by
  unfold mcOvf
  dsimp only
  split <;> simp

@[simp] theorem anchors_mcForward (s g vc p) : anchors (mcForward s g vc p) = anchors s := by
  simp only [mcForward]
  repeat' split
  all_goals simp

@[simp] theorem anchors_msgRow (s g vc mt store f) (hf : ∀ s b, anchors (f s b) = anchors s) :
    anchors (msgRow s g vc mt store f) = anchors s := by
  unfold msgRow; split <;> simp [hf]

@[simp] theorem anchors_chargeCells (s w cs) : anchors (chargeCells s w cs).1 = anchors s := by simp [chargeCells]

@[simp] theorem anchors_getLanded (s q tag offs) : anchors (getLanded s q tag offs) = anchors s := by
  unfold getLanded
  dsimp only
  split <;> simp

@[simp] theorem anchors_land (s a) : anchors (land s a) = anchors s := by
  unfold land
  dsimp only
  repeat' split
  all_goals simp

@[simp] theorem anchors_popArr (s i) : anchors (popArr s i) = anchors s := by simp [popArr]

end Sys2Proof
end

section
/-! PROOFS. The rows of circuits, control, custody, the host and the Datestamp leave the anchors. -/

namespace Sys2Proof
open Sys2Proof.Machine

/-! ### Circ -/
@[simp] theorem keeps_execReduce (g vc s) : Keeps s (execReduce g vc s) := by unfold execReduce; split <;> simp
@[simp] theorem keeps_execChunkSum (s) : Keeps s (execChunkSum s) := by unfold execChunkSum; split <;> simp
@[simp] theorem keeps_execVoteCount (s) : Keeps s (execVoteCount s) := by unfold execVoteCount; split <;> simp

@[simp] theorem keeps_execRowFreeStage (x row s) : Keeps s (execRowFreeStage x row s) := by
  unfold execRowFreeStage
  dsimp only
  split <;> simp

@[simp] theorem keeps_execDeliveryLanding (x s) : Keeps s (execDeliveryLanding x s) := by
  unfold execDeliveryLanding
  dsimp only
  repeat' split
  all_goals simp

/-! ### Control -/

@[simp] theorem keeps_execFetchSlot (c s) : Keeps s (execFetchSlot c s) := by unfold execFetchSlot; split <;> simp

@[simp] theorem keeps_execWaitBundleReachL (c s) : Keeps s (execWaitBundleReachL c s) := by
  refine anchors_onEdge _ _ _ fun j => ?_
  dsimp only
  split <;> simp

@[simp] theorem keeps_execWaitSatisfied (c s) : Keeps s (execWaitSatisfied c s) := by
  refine anchors_onEdge _ _ _ fun j => ?_
  dsimp only
  split <;> simp

@[simp] theorem keeps_execMissedDeadline (c s) : Keeps s (execMissedDeadline c s) := by
  unfold execMissedDeadline
  dsimp only
  repeat' split
  all_goals simp

@[simp] theorem anchors_holdUnits (s j) : anchors (holdUnits s j) = anchors s := by simp [holdUnits]
@[simp] theorem keeps_execHoldEpochStop (j s) : Keeps s (execHoldEpochStop j s) := by simp [execHoldEpochStop]
@[simp] theorem keeps_execHoldRelease (j s) : Keeps s (execHoldRelease j s) := by simp [execHoldRelease]

@[simp] theorem keeps_execSchHoldGiveup (j s) : Keeps s (execSchHoldGiveup j s) := by
  unfold execSchHoldGiveup
  dsimp only
  repeat' split
  all_goals simp

@[simp] theorem keeps_execNop (c s) : Keeps s (execNop c s) := by simp [execNop]
@[simp] theorem keeps_execEndBundle (c s) : Keeps s (execEndBundle c s) := by simp [execEndBundle]
@[simp] theorem keeps_execLoop (c s) : Keeps s (execLoop c s) := by simp [execLoop]
@[simp] theorem keeps_execTdadd (c s) : Keeps s (execTdadd c s) := by simp [execTdadd]
@[simp] theorem keeps_execCrd (c s) : Keeps s (execCrd c s) := by simp [execCrd]
@[simp] theorem keeps_execMark (c s) : Keeps s (execMark c s) := by simp [execMark]

/-! ### Custody -/
@[simp] theorem keeps_execStage (via s) : Keeps s (execStage via s) := by unfold execStage; split <;> simp

@[simp] theorem keeps_execStageVerified (party rec s) : Keeps s (execStageVerified party rec s) := by
  unfold execStageVerified; split <;> simp

@[simp] theorem keeps_execConfirm (party rec sig s) : Keeps s (execConfirm party rec sig s) := by
  unfold execConfirm; split <;> simp

@[simp] theorem anchors_cancelBy (s p) : anchors (cancelBy s p) = anchors s := by simp [cancelBy]
@[simp] theorem keeps_execCancel (party s) : Keeps s (execCancel party s) := by unfold execCancel; split <;> simp
@[simp] theorem keeps_execQuadAssign (s) : Keeps s (execQuadAssign s) := by simp [execQuadAssign]
@[simp] theorem keeps_execQuadRelease (s) : Keeps s (execQuadRelease s) := by simp [execQuadRelease]
@[simp] theorem keeps_execGroupOwn (s) : Keeps s (execGroupOwn s) := by simp [execGroupOwn]
@[simp] theorem keeps_execKeyLoad (s) : Keeps s (execKeyLoad s) := by simp [execKeyLoad]
@[simp] theorem keeps_execKeyErase (s) : Keeps s (execKeyErase s) := anchors_commitRow _ _ _ fun _ _ => rfl
@[simp] theorem keeps_execSeal (s) : Keeps s (execSeal s) := by simp [execSeal]
@[simp] theorem keeps_execUnseal (s) : Keeps s (execUnseal s) := by simp [execUnseal]
@[simp] theorem keeps_execDebugEnable (s) : Keeps s (execDebugEnable s) := by simp [execDebugEnable]
@[simp] theorem keeps_execDebugDisable (s) : Keeps s (execDebugDisable s) := anchors_commitRow _ _ _ fun _ _ => rfl
@[simp] theorem keeps_execCusExpire (s) : Keeps s (execCusExpire s) := by simp [execCusExpire]

@[simp] theorem keeps_execCusLockExpiry (s) : Keeps s (execCusLockExpiry s) := by
  unfold execCusLockExpiry; split <;> simp

@[simp] theorem keeps_execZeroiseDone (q s) : Keeps s (execZeroiseDone q s) := by simp [execZeroiseDone]

/-! ### HostOps -/
@[simp] theorem anchors_sealDeny (s q) : anchors (sealDeny s q) = anchors s := by simp [sealDeny]
@[simp] theorem anchors_serveBar2 (s r) : anchors (serveBar2 s r) = anchors s := by unfold serveBar2; split <;> simp
@[simp] theorem anchors_hmDone (s r status) : anchors (hmDone s r status) = anchors s := by simp [hmDone]
@[simp] theorem anchors_hostReads (s d) : anchors (hostReads s d) = anchors s := by simp [hostReads]
@[simp] theorem anchors_hostWrites (s a bs) : anchors (hostWrites s a bs) = anchors s := by simp [hostWrites]
@[simp] theorem anchors_hostLine (s r g d) : anchors (hostLine s r g d) = anchors s := by simp [hostLine]

@[simp] theorem anchors_hostTick (s) : anchors (hostTick s) = anchors s := by
  simp [hostTick]
  repeat' split
  all_goals simp

@[simp] theorem anchors_ringFail (s r) : anchors (ringFail s r) = anchors s := by simp [ringFail]
@[simp] theorem anchors_ringOk (s r d q) : anchors (ringOk s r d q) = anchors s := by simp [ringOk]
@[simp] theorem anchors_ringCtl (s r v) : anchors (ringCtl s r v) = anchors s := by simp [ringCtl]
@[simp] theorem anchors_ldgPush (s) : anchors (ldgPush s) = anchors s := by simp [ldgPush]
@[simp] theorem anchors_sendEvent (s kind val) : anchors (sendEvent s kind val) = anchors s := by simp [sendEvent]
@[simp] theorem anchors_updateSensor (s n) : anchors (updateSensor s n) = anchors s := by simp [updateSensor]

/-! ### HostIf -/
@[simp] theorem keeps_execHstWinWrite (v s) : Keeps s (execHstWinWrite v s) := by simp [execHstWinWrite]
@[simp] theorem keeps_execBar2Read (off len tag s) : Keeps s (execBar2Read off len tag s) := by simp [execBar2Read]
@[simp] theorem keeps_execBar2Write (off data s) : Keeps s (execBar2Write off data s) := by simp [execBar2Write]

@[simp] theorem keeps_execHostSlotService (q s) : Keeps s (execHostSlotService q s) := by
  unfold execHostSlotService
  dsimp only
  repeat' split
  all_goals simp

@[simp] theorem keeps_execDoorbell (r v s) : Keeps s (execDoorbell r v s) := by simp [execDoorbell]

@[simp] theorem keeps_execHostMove (r desc s) : Keeps s (execHostMove r desc s) := by
  unfold execHostMove
  dsimp only
  repeat' split
  all_goals simp

@[simp] theorem anchors_hostLand (s x g d data) : anchors (hostLand s x g d data) = anchors s := by simp [hostLand]

@[simp] theorem keeps_execHostMoveComplete (r res s) : Keeps s (execHostMoveComplete r res s) := by
  unfold execHostMoveComplete
  dsimp only
  repeat' split
  all_goals simp

@[simp] theorem keeps_execRingRestart (r v s) : Keeps s (execRingRestart r v s) := by simp [execRingRestart]
@[simp] theorem keeps_execSetEndpointId (eid s) : Keeps s (execSetEndpointId eid s) := by simp [execSetEndpointId]
@[simp] theorem keeps_execMctpControl (cmd s) : Keeps s (execMctpControl cmd s) := by simp [execMctpControl]

@[simp] theorem keeps_execPldmRequest (ty req s) : Keeps s (execPldmRequest ty req s) := by
  unfold execPldmRequest
  dsimp only
  repeat' split
  all_goals simp

@[simp] theorem keeps_execMctpDiscard (ty s) : Keeps s (execMctpDiscard ty s) := by simp [execMctpDiscard]

@[simp] theorem anchors_vendorNow (s cmd f) (hf : ∀ s, anchors (f s) = anchors s) :
    anchors (vendorNow s cmd f) = anchors s := by
  simp [vendorNow, hf]

@[simp] theorem keeps_execCusRead (s) : Keeps s (execCusRead s) := by simp [execCusRead]
@[simp] theorem keeps_execLdgRead (count s) : Keeps s (execLdgRead count s) := by simp [execLdgRead]
@[simp] theorem keeps_execSensorUpdate (s) : Keeps s (execSensorUpdate s) := by simp [execSensorUpdate]
@[simp] theorem keeps_execTelemetryRecord (s) : Keeps s (execTelemetryRecord s) := by simp [execTelemetryRecord]

@[simp] theorem keeps_execLedgerCommit (s) : Keeps s (execLedgerCommit s) := by
  have h : ∀ q : State → Ledger, anchors (itemCheck s 0x202 8 (fun s => { s with ldg := q s })) = anchors s :=
    fun _ => anchors_itemCheck _ _ _ _ fun _ => rfl
  unfold execLedgerCommit
  dsimp only
  split
  · simp
  · split
    · simp
    · split <;> simp [h]

theorem anchors_ite_setLdg (s : State) (l : Ledger) (c : Prop) [Decidable c] :
    anchors (if c then s else { s with ldg := l }) = anchors s := by split <;> rfl

@[simp] theorem keeps_execLdgRdWrite (v s) : Keeps s (execLdgRdWrite v s) := by
  unfold execLdgRdWrite
  exact (keeps_next _ _).2 (anchors_hostWrite _ _ _ _ fun s => anchors_ite_setLdg s _ _)

@[simp] theorem anchors_suppress (s) : anchors (suppress s) = anchors s := by simp [suppress]
@[simp] theorem anchors_refLost (s) : anchors (refLost s) = anchors s := by simp [refLost]
@[simp] theorem keeps_execSyncRefLost (s) : Keeps s (execSyncRefLost s) := by unfold execSyncRefLost; split <;> simp
@[simp] theorem keeps_execSyncTrig (s) : Keeps s (execSyncTrig s) := by simp [execSyncTrig]

@[simp] theorem anchors_hostRead (s page off f) (hf : ∀ s, anchors (f s).1 = anchors s) :
    anchors (hostRead s page off f) = anchors s := by
  simp [hostRead, hf]

@[simp] theorem keeps_execSyncTrigDstLoRead (s) :
    Keeps s (execSyncTrigDstLoRead s) := anchors_hostRead _ _ _ _ fun _ => rfl

@[simp] theorem keeps_execConfigurationRequest (s) : Keeps s (execConfigurationRequest s) := by
  simp [execConfigurationRequest]

@[simp] theorem anchors_debugShelf (s c addr f) (hf : ∀ s, anchors (f s) = anchors s) :
    anchors (debugShelf s c addr f) = anchors s := by
  simp only [debugShelf]
  repeat' split
  all_goals simp [hf]

@[simp] theorem keeps_execDebugAccess (a s) : Keeps s (execDebugAccess a s) := by unfold execDebugAccess; split <;> simp

/-! ### Datestamp -/
@[simp] theorem keeps_execDstNowLoRead (s) : Keeps s (execDstNowLoRead s) := anchors_hostRead _ _ _ _ fun _ => rfl
@[simp] theorem keeps_execPhaseSlew (s) : Keeps s (execPhaseSlew s) := by simp [execPhaseSlew]
@[simp] theorem keeps_execRateSteer (weights s) : Keeps s (execRateSteer weights s) := by simp [execRateSteer]
@[simp] theorem keeps_execDstUnlocked (s) : Keeps s (execDstUnlocked s) := by simp [execDstUnlocked]
@[simp] theorem keeps_execDstLockRegained (s) : Keeps s (execDstLockRegained s) := by simp [execDstLockRegained]

end Sys2Proof
end

section
/-! PROOFS. The rows of links, fabric, units, lanes, power and shadows leave the anchors. -/

namespace Sys2Proof
open Sys2Proof.Machine

/-! ### Link -/
@[simp] theorem keeps_execLaneFailed (l _cause s) : Keeps s (execLaneFailed l _cause s) := by simp [execLaneFailed]

@[simp] theorem keeps_execLnkSerWarn (l ppb s) : Keeps s (execLnkSerWarn l ppb s) := by
  simp only [execLnkSerWarn]
  repeat' split
  all_goals simp

@[simp] theorem keeps_execDataFlit (g f s) : Keeps s (execDataFlit g f s) := by simp [execDataFlit]

@[simp] theorem anchors_takeIdle (s k f) : anchors (takeIdle s k f) = anchors s := by
  unfold takeIdle
  dsimp only
  repeat' split
  all_goals simp

@[simp] theorem keeps_execIdleFlit (g f s) : Keeps s (execIdleFlit g f s) := by simp [execIdleFlit]
@[simp] theorem keeps_execTrainingFlit (g w s) : Keeps s (execTrainingFlit g w s) := by simp [execTrainingFlit]
@[simp] theorem anchors_sendData (s g vc two) : anchors (sendData s g vc two) = anchors s := by simp [sendData]
@[simp] theorem anchors_sendReplay (s g f r) : anchors (sendReplay s g f r) = anchors s := by simp [sendReplay]

@[simp] theorem anchors_upFlit (s g) : anchors (upFlit s g) = anchors s := by
  unfold upFlit
  dsimp only
  repeat' split
  all_goals simp

@[simp] theorem keeps_execFlitTransmit (g s) : Keeps s (execFlitTransmit g s) := by
  unfold execFlitTransmit
  dsimp only
  repeat' split
  all_goals simp

@[simp] theorem keeps_execKeyEpochChange (g s) : Keeps s (execKeyEpochChange g s) := by simp [execKeyEpochChange]
@[simp] theorem keeps_execSyncSend (g s) : Keeps s (execSyncSend g s) := by simp [execSyncSend]
@[simp] theorem keeps_execReplayTimeout (g s) : Keeps s (execReplayTimeout g s) := by simp [execReplayTimeout]

@[simp] theorem keeps_execAlignLock (g skew s) : Keeps s (execAlignLock g skew s) := by
  unfold execAlignLock
  dsimp only
  repeat' split
  all_goals simp

@[simp] theorem keeps_execAlignTimeout (g s) : Keeps s (execAlignTimeout g s) := by simp [execAlignTimeout]
@[simp] theorem keeps_execRetrainTimeout (g s) : Keeps s (execRetrainTimeout g s) := by simp [execRetrainTimeout]

@[simp] theorem keeps_execCreditAuthTimeout (g s) : Keeps s (execCreditAuthTimeout g s) := by
  simp [execCreditAuthTimeout]

@[simp] theorem keeps_execOnewayTrainingSend (g s) : Keeps s (execOnewayTrainingSend g s) := by
  simp [execOnewayTrainingSend]

@[simp] theorem keeps_execOnewayIdentTimeout (g s) : Keeps s (execOnewayIdentTimeout g s) := by
  simp [execOnewayIdentTimeout]

@[simp] theorem keeps_execLnkEnable (g s) : Keeps s (execLnkEnable g s) := by simp [execLnkEnable]
@[simp] theorem keeps_execLnkDisable (g s) : Keeps s (execLnkDisable g s) := by simp [execLnkDisable]
@[simp] theorem keeps_execLnkRestart (g s) : Keeps s (execLnkRestart g s) := by simp [execLnkRestart]
@[simp] theorem keeps_execLnkCrdLimWrite (g v s) : Keeps s (execLnkCrdLimWrite g v s) := by simp [execLnkCrdLimWrite]

/-! ### Fabric -/
@[simp] theorem anchors_absorb (s) : anchors (absorb s) = anchors s := by simp [absorb]
@[simp] theorem keeps_execPut (g vc s) : Keeps s (execPut g vc s) := by simp [execPut]

@[simp] theorem keeps_execGet (g vc s) : Keeps s (execGet g vc s) := by
  refine anchors_msgRow _ _ _ _ _ _ fun s p => ?_
  dsimp only
  repeat' split
  all_goals simp

@[simp] theorem keeps_execGetReply (g vc s) : Keeps s (execGetReply g vc s) := by
  refine anchors_msgRow _ _ _ _ _ _ fun s p => ?_
  repeat' split
  all_goals simp

@[simp] theorem keeps_execSignal (g vc s) : Keeps s (execSignal g vc s) := by simp [execSignal]

@[simp] theorem keeps_execMessageLanding (q s) : Keeps s (execMessageLanding q s) := by
  unfold execMessageLanding; split <;> simp

@[simp] theorem keeps_execGetResponse (q s) : Keeps s (execGetResponse q s) := by
  unfold execGetResponse
  dsimp only
  repeat' split
  all_goals simp

@[simp] theorem keeps_execMsgTombExpiry (q acc src mid s) : Keeps s (execMsgTombExpiry q acc src mid s) := by
  simp [execMsgTombExpiry]

@[simp] theorem keeps_execMsgStale (q acc src mid s) : Keeps s (execMsgStale q acc src mid s) := by
  unfold execMsgStale; split <;> simp

@[simp] theorem keeps_execPacketTransit (g vc s) : Keeps s (execPacketTransit g vc s) := by
  unfold execPacketTransit
  split
  · simp
  · split
    · simp
    · refine anchors_takeIn _ _ _ _ _ fun s => ?_
      split <;> simp

@[simp] theorem keeps_execPacketInject (g s) : Keeps s (execPacketInject g s) := by
  unfold execPacketInject
  dsimp only
  split <;> simp

@[simp] theorem keeps_execInjectionWindowClose (g s) : Keeps s (execInjectionWindowClose g s) := by
  unfold execInjectionWindowClose
  dsimp only
  repeat' split
  all_goals simp

@[simp] theorem keeps_execRtrTblWordWrite (w v s) : Keeps s (execRtrTblWordWrite w v s) := by simp [execRtrTblWordWrite]
@[simp] theorem keeps_execMsgTombWrite (v s) : Keeps s (execMsgTombWrite v s) := by simp [execMsgTombWrite]
@[simp] theorem keeps_execQpClsMinWrite (v s) : Keeps s (execQpClsMinWrite v s) := by simp [execQpClsMinWrite]
@[simp] theorem anchors_flushed (s n) : anchors (flushed s n) = anchors s := by simp [flushed]
@[simp] theorem anchors_flushQueue (s n) : anchors (flushQueue s n) = anchors s := by simp [flushQueue]
@[simp] theorem keeps_execFlush (v s) : Keeps s (execFlush v s) := by simp [execFlush]

/-! ### Matrix -/
@[simp] theorem keeps_execMma (c s) : Keeps s (execMma c s) := by simp [execMma]
@[simp] theorem keeps_execMmz (c s) : Keeps s (execMmz c s) := by simp [execMmz]
@[simp] theorem keeps_execAld (c s) : Keeps s (execAld c s) := by simp [execAld]
@[simp] theorem keeps_execAst (c s) : Keeps s (execAst c s) := by simp [execAst]
@[simp] theorem keeps_execAsts (c s) : Keeps s (execAsts c s) := by simp [execAsts]
@[simp] theorem keeps_execAclr (c s) : Keeps s (execAclr c s) := by simp [execAclr]

@[simp] theorem keeps_execMatrixOpComplete (c s) : Keeps s (execMatrixOpComplete c s) := by
  unfold execMatrixOpComplete
  dsimp only
  split <;> simp

/-! ### Moves -/

@[simp] theorem keeps_execMov (c s) : Keeps s (execMov c s) := by simp [execMov]
@[simp] theorem keeps_execPutMove (c s) : Keeps s (execPutMove c s) := by simp [execPutMove]
@[simp] theorem keeps_execGetMove (c s) : Keeps s (execGetMove c s) := by simp [execGetMove]
@[simp] theorem keeps_execRed (c s) : Keeps s (execRed c s) := by simp [execRed]
@[simp] theorem keeps_execSig (c s) : Keeps s (execSig c s) := by simp [execSig]
@[simp] theorem keeps_execLdtd (c s) : Keeps s (execLdtd c s) := by simp [execLdtd]
@[simp] theorem keeps_execSttd (c s) : Keeps s (execSttd c s) := by simp [execSttd]

@[simp] theorem keeps_execMoveIssueStart (c coll s) : Keeps s (execMoveIssueStart c coll s) := by
  unfold execMoveIssueStart
  dsimp only
  repeat' split
  all_goals simp

@[simp] theorem keeps_execMoveComplete (c s) : Keeps s (execMoveComplete c s) := by
  unfold execMoveComplete
  dsimp only
  repeat' split
  all_goals simp

@[simp] theorem anchors_setPpr (s m) : anchors (setPpr s m) = anchors s := by simp [setPpr]
@[simp] theorem anchors_scrubHit (s m row) : anchors (scrubHit s m row) = anchors s := by simp [scrubHit]

@[simp] theorem keeps_execPatrolScrub (m row errors newPass s) : Keeps s (execPatrolScrub m row errors newPass s) := by
  simp [execPatrolScrub]

/-! ### Optical -/

@[simp] theorem keeps_execOptLcWrite (v s) : Keeps s (execOptLcWrite v s) := by simp [execOptLcWrite]
@[simp] theorem keeps_execLaneCellSettled (x s) : Keeps s (execLaneCellSettled x s) := by simp [execLaneCellSettled]
@[simp] theorem keeps_execOptGrpModeWrite (p v s) : Keeps s (execOptGrpModeWrite p v s) := by simp [execOptGrpModeWrite]
@[simp] theorem keeps_execRingSweep (l found s) : Keeps s (execRingSweep l found s) := by simp [execRingSweep]
@[simp] theorem keeps_execRingAcquireLock (l s) : Keeps s (execRingAcquireLock l s) := by simp [execRingAcquireLock]

@[simp] theorem keeps_execRingAcquireTimeout (l s) : Keeps s (execRingAcquireTimeout l s) := by
  simp [execRingAcquireTimeout]

@[simp] theorem keeps_execRingLockLoss (l errTenthPm s) : Keeps s (execRingLockLoss l errTenthPm s) := by
  simp [execRingLockLoss]

@[simp] theorem keeps_execMziLockLoss (x errMrad s) : Keeps s (execMziLockLoss x errMrad s) := by simp [execMziLockLoss]

@[simp] theorem keeps_execInterferometerOnTarget (x errMrad s) : Keeps s (execInterferometerOnTarget x errMrad s) := by
  simp [execInterferometerOnTarget]

@[simp] theorem keeps_execPhotonicCooled (s) : Keeps s (execPhotonicCooled s) := by simp [execPhotonicCooled]
@[simp] theorem anchors_fadeAt (s p l n) : anchors (fadeAt s p l n) = anchors s := by simp [fadeAt]

@[simp] theorem keeps_execFadeMeasure (l fade s) : Keeps s (execFadeMeasure l fade s) := by
  simp [execFadeMeasure]
  repeat' split
  all_goals simp

@[simp] theorem anchors_onRec (s g r) : anchors (onRec s g r) = anchors s := by simp [onRec]
@[simp] theorem keeps_execRequest (g r s) : Keeps s (execRequest g r s) := by simp [execRequest]
@[simp] theorem keeps_execReady (g r s) : Keeps s (execReady g r s) := by simp [execReady]
@[simp] theorem keeps_execSwitch (g r s) : Keeps s (execSwitch g r s) := by simp [execSwitch]
@[simp] theorem keeps_execDoneRec (g r s) : Keeps s (execDoneRec g r s) := by simp [execDoneRec]
@[simp] theorem keeps_execAbort (g r s) : Keeps s (execAbort g r s) := by simp [execAbort]
@[simp] theorem keeps_execCalreq (g r s) : Keeps s (execCalreq g r s) := by simp [execCalreq]
@[simp] theorem keeps_execCaldone (g r s) : Keeps s (execCaldone g r s) := by simp [execCaldone]

@[simp] theorem keeps_execMigrationTimeout (p txn s) : Keeps s (execMigrationTimeout p txn s) := by
  unfold execMigrationTimeout; split <;> simp

@[simp] theorem keeps_execLaneRecordRepeat (p txn s) : Keeps s (execLaneRecordRepeat p txn s) := by
  unfold execLaneRecordRepeat; split <;> simp

@[simp] theorem anchors_calTake (s p i) : anchors (calTake s p i) = anchors s := by
  unfold calTake
  dsimp only
  repeat' split
  all_goals simp

@[simp] theorem anchors_calPause (s ax i) : anchors (calPause s ax i) = anchors s := by simp [calPause]
@[simp] theorem anchors_claimCounter (s) : anchors (claimCounter s) = anchors s := by simp [claimCounter]
@[simp] theorem anchors_calTurn (s ax next) : anchors (calTurn s ax next) = anchors s := by simp [calTurn]

@[simp] theorem anchors_calNextCell (n s) : anchors (calNextCell n s) = anchors s := by
  induction n generalizing s with
  | zero => rfl
  | succ n ih =>
    simp only [calNextCell]
    split
    · simp [ih]
    · split <;> simp [ih]

@[simp] theorem keeps_execCalibrationStart (s) : Keeps s (execCalibrationStart s) := by
  simp [execCalibrationStart]

@[simp] theorem keeps_execLightPresent (l pwr s) : Keeps s (execLightPresent l pwr s) := by simp [execLightPresent]
@[simp] theorem keeps_execOptOfc (l pwr s) : Keeps s (execOptOfc l pwr s) := by simp [execOptOfc]
@[simp] theorem keeps_execLaserRise (l s) : Keeps s (execLaserRise l s) := by simp [execLaserRise]

/-! ### Power -/
@[simp] theorem keeps_execClkSrcWrite (v s) : Keeps s (execClkSrcWrite v s) := by simp [execClkSrcWrite]
@[simp] theorem anchors_fcEnd (s st) : anchors (fcEnd s st) = anchors s := by simp [fcEnd]
@[simp] theorem anchors_fcStart (s) : anchors (fcStart s) = anchors s := by simp [fcStart]
@[simp] theorem anchors_fcWrite (s v) : anchors (fcWrite s v) = anchors s := by simp [fcWrite]
@[simp] theorem keeps_execStart (v s) : Keeps s (execStart v s) := by simp [execStart]
@[simp] theorem keeps_execStop (v s) : Keeps s (execStop v s) := by simp [execStop]
@[simp] theorem keeps_execFcMeasureDone (count s) : Keeps s (execFcMeasureDone count s) := by simp [execFcMeasureDone]
@[simp] theorem keeps_execStoppedClock (src s) : Keeps s (execStoppedClock src s) := by simp [execStoppedClock]
@[simp] theorem keeps_execPwrUv (cv s) : Keeps s (execPwrUv cv s) := by simp [execPwrUv]

@[simp] theorem anchors_powerDie (s q) : anchors (powerDie s q) = anchors s := by
  unfold powerDie
  dsimp only
  repeat' split
  all_goals simp

@[simp] theorem keeps_execPowerSample (r s) : Keeps s (execPowerSample r s) := by simp [execPowerSample]
@[simp] theorem anchors_thermThrottle (s i t) : anchors (thermThrottle s i t) = anchors s := by simp [thermThrottle]
@[simp] theorem anchors_thermPhotonic (s t) : anchors (thermPhotonic s t) = anchors s := by simp [thermPhotonic]

@[simp] theorem keeps_execThrottleEnd (die s) : Keeps s (execThrottleEnd die s) := by
  unfold execThrottleEnd; split <;> simp

@[simp] theorem keeps_execCoolantSample (inlet outlet s) : Keeps s (execCoolantSample inlet outlet s) := by
  unfold execCoolantSample
  dsimp only
  repeat' split
  all_goals simp

/-! ### Shadow -/

@[simp] theorem anchors_setTag (s clu t x) : anchors (setTag s clu t x) = anchors s := by simp [setTag]

@[simp] theorem anchors_closeStep (s clu t) : anchors (closeStep s clu t) = anchors s := by
  unfold closeStep
  dsimp only
  split <;> simp

@[simp] theorem anchors_watchNan (s clu t st) : anchors (watchNan s clu t st) = anchors s := by simp [watchNan]
@[simp] theorem anchors_applyTrunc (s clu m) : anchors (applyTrunc s clu m) = anchors s := by simp [applyTrunc]
@[simp] theorem anchors_applySummary (s clu m) : anchors (applySummary s clu m) = anchors s := by simp [applySummary]

@[simp] theorem anchors_takeSummary (s clu) : anchors (takeSummary s clu) = anchors s := by
  unfold takeSummary
  dsimp only
  repeat' split
  all_goals simp

@[simp] theorem anchors_closeAll (s clu) : anchors (closeAll s clu) = anchors s := by simp [closeAll]

@[simp] theorem keeps_execShadowSummaryTake (cl s) : Keeps s (execShadowSummaryTake cl s) :=
  anchors_loopN fun _ s => anchors_takeSummary s cl.key

@[simp] theorem keeps_execShwClr (cl v s) : Keeps s (execShwClr cl v s) := by simp [execShwClr]

end Sys2Proof
end

section
/-! PROOFS. The rows of updates, registers, admission, jobs, streams and topology leave the anchors, and so does
the work of a tick. -/

namespace Sys2Proof
open Sys2Proof.Machine

/-! ### UpdateOps -/
@[simp] theorem anchors_ueCharge (s e xs) : anchors (ueCharge s e xs).1 = anchors s := by simp [ueCharge]
@[simp] theorem anchors_ueRead (s e xs) : anchors (ueRead s e xs).1 = anchors s := by simp [ueRead]
@[simp] theorem anchors_keepPass (s e f) : anchors (keepPass s e f) = anchors s := by simp [keepPass]
@[simp] theorem anchors_passRead (s e xs f) : anchors (passRead s e xs f) = anchors s := by simp [passRead]

@[simp] theorem anchors_passStep (s e j jt f) : anchors (passStep s e j jt f) = anchors s := by
  unfold passStep
  dsimp only
  repeat' split
  all_goals simp

@[simp] theorem anchors_passWarn (s e f said n code) : anchors (passWarn s e f said n code) = anchors s := by
  simp [passWarn]

@[simp] theorem anchors_passWrite (s e jt f) : anchors (passWrite s e jt f).1 = anchors s := by simp [passWrite]
@[simp] theorem anchors_ueTick (s e) : anchors (ueTick s e) = anchors s := by unfold ueTick; split <;> simp

@[simp] theorem anchors_passGo (s e j t idx w d gw) : anchors (passGo s e j t idx w d gw) = anchors s := by
  simp [passGo]

@[simp] theorem anchors_passDone (s e f) : anchors (passDone s e f) = anchors s := by unfold passDone; split <;> simp

@[simp] theorem anchors_passLaunch (s e row) : anchors (passLaunch s e row) = anchors s := by
  unfold passLaunch
  dsimp only
  repeat' split
  all_goals simp

@[simp] theorem anchors_passMeet (s e row) : anchors (passMeet s e row) = anchors s := by
  unfold passMeet; split <;> simp

@[simp] theorem anchors_schFault (s j off idx code) : anchors (schFault s j off idx code) = anchors s := by
  simp [schFault]

@[simp] theorem anchors_advanceOne (j idx w r g) : anchors (advanceOne j idx w r g).1 = anchors r.1 := by
  unfold advanceOne
  split
  case isTrue => rfl
  case isFalse =>
    dsimp only
    split
    case h_1 => rfl
    case h_2 =>
      repeat' split
      all_goals simp

@[simp] theorem anchors_advanceCharge (s j w) : anchors (advanceCharge s j w).1 = anchors s := by simp [advanceCharge]

/-! ### RegOps -/
@[simp] theorem anchors_clearRC (s p o n) : anchors (clearRC s p o n) = anchors s := by simp [clearRC]
@[simp] theorem anchors_writeReg (s p o v) : anchors (writeReg s p o v) = anchors s := by simp [writeReg]

/-! ### Regs -/
@[simp] theorem keeps_execRegisterWrite (off v s) : Keeps s (execRegisterWrite off v s) := by simp [execRegisterWrite]

@[simp] theorem keeps_execRcCounterRead (off inc s) : Keeps s (execRcCounterRead off inc s) := by
  simp [execRcCounterRead]

@[simp] theorem keeps_execIntStatW1c (page v hw s) : Keeps s (execIntStatW1c page v hw s) := by simp [execIntStatW1c]
@[simp] theorem keeps_execIntEnWrite (page v s) : Keeps s (execIntEnWrite page v s) := by simp [execIntEnWrite]

@[simp] theorem keeps_execHstBadAcc (bar off isWrite s) : Keeps s (execHstBadAcc bar off isWrite s) := by
  simp [execHstBadAcc]

/-! ### AdmitOps -/

@[simp] theorem anchors_takeCtx (j acc s d) : anchors (takeCtx j acc s d) = anchors s := by
  unfold takeCtx; split <;> simp

@[simp] theorem anchors_takeGrp (j acc s p) : anchors (takeGrp j acc s p) = anchors s := by
  unfold takeGrp; split <;> simp

@[simp] theorem anchors_readyUnits (s i) : anchors (readyUnits s i) = anchors s := by simp [readyUnits]
@[simp] theorem anchors_admitJob (s j i) : anchors (admitJob s j i) = anchors s := by simp [admitJob]

@[simp] theorem anchors_refuseJob (s j acc why detail) : anchors (refuseJob s j acc why detail) = anchors s := by
  simp [refuseJob]

@[simp] theorem anchors_releaseEnd (s j) : anchors (releaseEnd s j) = anchors s := by simp [releaseEnd]

/-! ### Sched -/
@[simp] theorem anchors_admitWrite (s j) : anchors (admitWrite s j) = anchors s := by simp [admitWrite]

@[simp] theorem anchors_endWrite (s j) : anchors (endWrite s j) = anchors s := by
  unfold endWrite
  dsimp only
  split <;> simp

@[simp] theorem anchors_clearWrite (s j) : anchors (clearWrite s j) = anchors s := by unfold clearWrite; split <;> simp
@[simp] theorem anchors_jobCtl (s j v) : anchors (jobCtl s j v) = anchors s := by simp [jobCtl]
@[simp] theorem keeps_execAdmit (j v s) : Keeps s (execAdmit j v s) := by simp [execAdmit]
@[simp] theorem keeps_execSchJobEnd (j v s) : Keeps s (execSchJobEnd j v s) := by simp [execSchJobEnd]
@[simp] theorem keeps_execClear (j v s) : Keeps s (execClear j v s) := by simp [execClear]

@[simp] theorem keeps_execAdmissionCheck (j img ue s) : Keeps s (execAdmissionCheck j img ue s) := by
  unfold execAdmissionCheck
  dsimp only
  repeat' split
  all_goals simp

@[simp] theorem keeps_execSchJobStart (j hi s) : Keeps s (execSchJobStart j hi s) := by
  refine anchors_hostWrite _ _ _ _ fun s => ?_
  dsimp only
  split <;> simp

@[simp] theorem anchors_beginJob (s j i) : anchors (beginJob s j i) = anchors s := by simp [beginJob]

@[simp] theorem keeps_execJobTimeBegin (j s) : Keeps s (execJobTimeBegin j s) := by
  unfold execJobTimeBegin
  dsimp only
  split <;> simp

@[simp] theorem keeps_execJobEnded (j s) : Keeps s (execJobEnded j s) := by
  unfold execJobEnded
  dsimp only
  split <;> simp

@[simp] theorem anchors_postFaults (s es) : anchors (postFaults s es) = anchors s := by simp [postFaults]
@[simp] theorem anchors_startCore (jt g s k) : anchors (startCore jt g s k) = anchors s := by simp [startCore]
@[simp] theorem anchors_startSegment (s j i g) : anchors (startSegment s j i g) = anchors s := by simp [startSegment]

@[simp] theorem keeps_execSegmentOrigin (j s) : Keeps s (execSegmentOrigin j s) := by
  unfold execSegmentOrigin
  dsimp only
  repeat' split
  all_goals simp

@[simp] theorem keeps_execPowerProfileRead (j s) : Keeps s (execPowerProfileRead j s) := by
  unfold execPowerProfileRead
  dsimp only
  split <;> simp

@[simp] theorem keeps_execHeaterForecastRead (j s) : Keeps s (execHeaterForecastRead j s) := by
  unfold execHeaterForecastRead
  dsimp only
  split <;> simp

/-! ### Stream -/

@[simp] theorem keeps_execAdd (c s) : Keeps s (execAdd c s) := by simp [execAdd]
@[simp] theorem keeps_execSub (c s) : Keeps s (execSub c s) := by simp [execSub]
@[simp] theorem keeps_execMul (c s) : Keeps s (execMul c s) := by simp [execMul]
@[simp] theorem keeps_execFma (c s) : Keeps s (execFma c s) := by simp [execFma]
@[simp] theorem keeps_execMinOp (c s) : Keeps s (execMinOp c s) := by simp [execMinOp]
@[simp] theorem keeps_execMaxOp (c s) : Keeps s (execMaxOp c s) := by simp [execMaxOp]
@[simp] theorem keeps_execAbsOp (c s) : Keeps s (execAbsOp c s) := by simp [execAbsOp]
@[simp] theorem keeps_execNeg (c s) : Keeps s (execNeg c s) := by simp [execNeg]
@[simp] theorem keeps_execScale (c s) : Keeps s (execScale c s) := by simp [execScale]
@[simp] theorem keeps_execAxpy (c s) : Keeps s (execAxpy c s) := by simp [execAxpy]
@[simp] theorem keeps_execClip (c s) : Keeps s (execClip c s) := by simp [execClip]
@[simp] theorem keeps_execSelectOp (c s) : Keeps s (execSelectOp c s) := by simp [execSelectOp]
@[simp] theorem keeps_execCmpgt (c s) : Keeps s (execCmpgt c s) := by simp [execCmpgt]
@[simp] theorem keeps_execCvt (c s) : Keeps s (execCvt c s) := by simp [execCvt]
@[simp] theorem keeps_execCopy (c s) : Keeps s (execCopy c s) := by simp [execCopy]
@[simp] theorem keeps_execExpOp (c s) : Keeps s (execExpOp c s) := by simp [execExpOp]
@[simp] theorem keeps_execLogOp (c s) : Keeps s (execLogOp c s) := by simp [execLogOp]
@[simp] theorem keeps_execRecip (c s) : Keeps s (execRecip c s) := by simp [execRecip]
@[simp] theorem keeps_execRsqrt (c s) : Keeps s (execRsqrt c s) := by simp [execRsqrt]
@[simp] theorem keeps_execTanhOp (c s) : Keeps s (execTanhOp c s) := by simp [execTanhOp]
@[simp] theorem keeps_execSigmoid (c s) : Keeps s (execSigmoid c s) := by simp [execSigmoid]
@[simp] theorem keeps_execGelu (c s) : Keeps s (execGelu c s) := by simp [execGelu]
@[simp] theorem keeps_execSignOp (c s) : Keeps s (execSignOp c s) := by simp [execSignOp]
@[simp] theorem keeps_execFill (c s) : Keeps s (execFill c s) := by simp [execFill]

@[simp] theorem keeps_execStreamOpComplete (c s) : Keeps s (execStreamOpComplete c s) := by
  unfold execStreamOpComplete
  dsimp only
  split <;> simp

/-! ### Topology -/

@[simp] theorem keeps_execTopNodeWrite (v s) : Keeps s (execTopNodeWrite v s) := by simp [execTopNodeWrite]
@[simp] theorem keeps_execTopCatWordWrite (w v s) : Keeps s (execTopCatWordWrite w v s) := by simp [execTopCatWordWrite]
@[simp] theorem keeps_execTopEpochWrite (v s) : Keeps s (execTopEpochWrite v s) := by simp [execTopEpochWrite]

/-! ### Update -/
@[simp] theorem keeps_execDensePass (e meet s) : Keeps s (execDensePass e meet s) := by simp [execDensePass]
@[simp] theorem keeps_execRowPass (e meet s) : Keeps s (execRowPass e meet s) := by simp [execRowPass]

@[simp] theorem keeps_execPassComplete (e s) : Keeps s (execPassComplete e s) := by
  simp only [execPassComplete]
  repeat' split
  all_goals simp

@[simp] theorem keeps_execAdvanceEntry (j s) : Keeps s (execAdvanceEntry j s) := by
  unfold execAdvanceEntry
  dsimp only
  split
  · simp
  · split
    · simp
    · split
      · simp
      · split <;> simp

@[simp] theorem keeps_execAdvanceComplete (j trafficDone s) : Keeps s (execAdvanceComplete j trafficDone s) := by
  unfold execAdvanceComplete
  dsimp only
  split <;> simp

@[simp] theorem keeps_execSchGrpWordWrite (w v s) : Keeps s (execSchGrpWordWrite w v s) := by simp [execSchGrpWordWrite]

/-! ### Tick -/
@[simp] theorem anchors_countStalls (s) : anchors (countStalls s) = anchors s := by simp [countStalls]
@[simp] theorem anchors_workDue (s) : anchors (workDue s) = anchors s := by simp [workDue]

end Sys2Proof
end

section
/-! PROOFS. The Datestamp while READY (O59): the commands that leave the anchors, and the few that reset, power or
steer, which step the Datestamp only where the module is not ready afterwards. -/

namespace Sys2Proof
open Sys2Proof.Machine

/-- The commands under which READY, the tick count or the fuses may move: power, reset and bring-up, the fuse write, and
those that steer the Datestamp. -/
def unsettles : Instr → Bool
  | .powerOn .. | .bupReady | .moduleReset .. | .resetComplete .. | .fuseWrite | .ppsEdge .. | .syncFlit ..
  | .inputShutdown .. | .pwrEnFall | .thermalSample .. => true
  | _ => false

theorem keeps_exec (i : Instr) (s : State) (h : unsettles i = false) : Keeps s (exec i s) := by
  cases i with
  | powerOn | bupReady | moduleReset | resetComplete | fuseWrite | ppsEdge | syncFlit | inputShutdown | pwrEnFall
  | thermalSample => cases h
  | _ => simp [exec]

/-- Ready afterwards only where ready before with the same tick count; the fuses stay. -/
def Steady (s t : State) : Prop :=
  (t.bup.ready = true → s.bup.ready = true ∧ t.clk.dst = s.clk.dst) ∧ t.cus.fuses = s.cus.fuses

theorem steady_of_anchors {s t : State} (h : anchors t = anchors s) : Steady s t := by
  obtain ⟨hd, hr, hf⟩ := (anchors_eq_iff s t).1 h
  exact ⟨fun ht => ⟨hr ▸ ht, hd⟩, hf⟩

/-- A transition after which the module is not ready is steady where the fuses stay. -/
theorem steady_of_down {s t : State} {d : Nat} (h : anchors t = (d, false, s.cus.fuses)) : Steady s t := by
  obtain ⟨-, hr, hf⟩ : t.clk.dst = d ∧ t.bup.ready = false ∧ t.cus.fuses = s.cus.fuses := by simpa [anchors] using h
  exact ⟨fun ht => absurd (hr.symm.trans ht) (by decide), hf⟩

@[simp] theorem Steady.refl (s : State) : Steady s s := steady_of_anchors rfl

theorem Steady.trans {s t u : State} (h : Steady s t) (h' : Steady t u) : Steady s u := by
  obtain ⟨hr, hf⟩ := h
  obtain ⟨hr', hf'⟩ := h'
  refine ⟨fun hu => ?_, hf'.trans hf⟩
  obtain ⟨ht, hd'⟩ := hr' hu
  obtain ⟨hs, hd⟩ := hr ht
  exact ⟨hs, hd'.trans hd⟩

theorem Steady.congr_left {s s' t : State} (h : anchors s' = anchors s) : Steady s' t → Steady s t :=
  (steady_of_anchors h).trans

theorem steady_foldl {β : Type} {f : State → β → State} (hf : ∀ s b, Steady s (f s b)) (l : List β) (s : State) :
    Steady s (l.foldl f s) := by
  induction l generalizing s with
  | nil => exact .refl s
  | cons b r ih => exact (hf s b).trans (ih _)

/-- The Datestamp is stepped, not slewed, only before READY (R28). -/
theorem steady_steer (s : State) (t : Int) : Steady s (steer s t) := by
  unfold steer
  split
  case isTrue h =>
    have hs : s.bup.ready = false := by simpa using h.1
    refine (Steady.trans ?_ (steady_of_anchors (anchors_steerTo _ _)) : Steady s _)
    exact ⟨fun ht => absurd (hs.symm.trans ht) (by decide), rfl⟩
  case isFalse => exact steady_of_anchors (anchors_steerTo _ _)

theorem steady_ite {s a b : State} {c : Prop} [Decidable c] (ha : Steady s a) (hb : Steady s b) :
    Steady s (if c then a else b) := by split <;> assumption

theorem steady_takeSync (s : State) (g : Nat) (pay : List Byte) : Steady s (takeSync s g pay) :=
  steady_ite (steady_of_anchors (anchors_setLink _ _ _))
    (steady_ite (steady_of_anchors (by simp)) ((steady_steer _ _).congr_left (by simp)))

theorem steady_rxFlit (s : State) (g ty : Nat) (w : RxWire) (good : State → RxFlit → State)
    (hg : ∀ s f, Steady s (good s f)) : Steady s (rxFlit s g ty w (fun s => s) good) := by
  unfold rxFlit
  dsimp only
  split
  · exact .refl s
  · split
    · exact steady_of_anchors (by simp)
    · split
      · exact steady_of_anchors (by simp)
      · split
        · exact steady_of_anchors (by simp)
        · exact (hg _ _).congr_left (by simp)

theorem steady_refSteer (s : State) (gap : Nat) : Steady s (refSteer s gap) :=
  (steady_steer _ _).congr_left (by simp)

theorem anchors_powerDown (s : State) (p sh tr : Bool) : anchors (powerDown s p sh tr) = (0, false, s.cus.fuses) := by
  unfold powerDown
  exact anchors_foldl anchors_loseRegion _ _

theorem anchors_bringUp (s : State) (b : BringUp) : ∃ d, anchors (bringUp s b) = (d, false, s.cus.fuses) := by
  unfold bringUp
  dsimp only
  split
  · simp; exact ⟨_, rfl⟩
  · split
    · simp; exact ⟨_, rfl⟩
    · simp; exact ⟨_, rfl⟩

theorem anchors_resetModule (s : State) : anchors (resetModule s) = (s.clk.dst, false, s.cus.fuses) := by
  have h := anchors_resetHub s
  unfold resetModule
  dsimp only
  rw [anchors_clearPages]
  generalize resetHub s = t at h ⊢
  obtain ⟨hd, -, hf⟩ := (anchors_eq_iff _ _).1 h
  exact congrArg₂ (fun d f => (d, false, f)) hd hf

/-! ### The commands that reset, power, steer or sample -/

/-- A command that goes on is steady. -/
def ResSteady (s : State) : Res → Prop
  | .next t => Steady s t
  | _ => True

theorem steady_powerDown (s s' : State) (p sh tr : Bool) (h : anchors s' = anchors s) :
    Steady s (powerDown s' p sh tr) :=
  (steady_of_down (anchors_powerDown s' p sh tr)).congr_left h

theorem steady_bringUp (s : State) (b : BringUp) : Steady s (bringUp s b) := by
  obtain ⟨d, h⟩ := anchors_bringUp s b
  exact steady_of_down h

theorem steady_resetModule (s : State) : Steady s (resetModule s) := steady_of_down (anchors_resetModule s)

theorem execPowerOn_steady (b : BringUp) (s : State) : ResSteady s (execPowerOn b s) := by
  have hd : Steady s _ := steady_of_down (anchors_powerDown s true false s.pwr.tripN)
  refine steady_ite (.refl s) (steady_ite (hd.trans (steady_of_anchors (by simp))) ?_)
  exact (hd.trans (steady_of_anchors (by simp))).trans (steady_bringUp _ b)

theorem steady_setRst (s : State) (r : ResetRun) :
    Steady s { resetModule s with bup := { (resetModule s).bup with rst := some r } } :=
  (steady_resetModule s).trans (steady_of_anchors (by simp))

theorem steady_hostWrite (s : State) (page off : Nat) (f : State → State) (hf : ∀ s, Steady s (f s)) :
    Steady s (hostWrite s page off f) :=
  steady_ite (.refl s) (steady_ite (hf s) (steady_of_anchors (anchors_badWrite _ _ _)))

theorem steady_startReset (s : State) (r : ResetRun) : Steady s (startReset s r resetModule) := by
  unfold startReset
  dsimp only
  split
  · exact steady_setRst s r
  · exact steady_ite (steady_setRst s r) (steady_of_anchors (by simp))

theorem execModuleReset_steady (cause : ModReset) (s : State) : ResSteady s (execModuleReset cause s) := by
  cases cause with
  | rstCtl v => exact steady_hostWrite _ _ _ _ fun s => steady_ite (.refl s) (steady_startReset _ _)
  | perst =>
    refine steady_ite (steady_of_anchors (by simp)) ?_
    split
    · exact steady_ite (steady_of_anchors (by simp)) ((steady_setRst _ _).congr_left (by simp))
    · exact (steady_setRst _ _).congr_left (by simp)

theorem execResetComplete_steady (b : BringUp) (s : State) : ResSteady s (execResetComplete b s) := by
  unfold execResetComplete
  dsimp only [ResSteady]
  split
  · exact .refl s
  · split
    · exact steady_of_anchors (by simp)
    · exact steady_of_anchors (by simp)
    · exact (steady_bringUp _ b).congr_left (by simp)
    · exact steady_of_anchors (by simp)

theorem execPpsEdge_steady (n : Nat) (s : State) : ResSteady s (execPpsEdge n s) := by
  refine steady_ite (.refl s) ?_
  dsimp only
  split
  · exact steady_of_anchors (by simp)
  · refine steady_ite (steady_of_anchors (by simp)) (steady_ite ?_ (steady_of_anchors ?_))
    · exact (steady_refSteer _ _).congr_left (by simp)
    · simp

theorem execSyncFlit_steady (g : Grp) (w : RxWire) (s : State) : ResSteady s (execSyncFlit g w s) :=
  steady_rxFlit _ _ _ _ _ fun s f =>
    steady_ite (.refl s) (steady_ite ((steady_takeSync _ _ _).congr_left (by simp)) (steady_of_anchors (by simp)))

theorem execInputShutdown_steady (cv : Nat) (s : State) : ResSteady s (execInputShutdown cv s) :=
  steady_ite (steady_powerDown _ _ _ _ _ rfl) (.refl s)

theorem execPwrEnFall_steady (s : State) : ResSteady s (execPwrEnFall s) := steady_powerDown _ _ _ _ _ rfl

theorem steady_thermDie (s : State) (e : Nat × Int) : Steady s (thermDie s e) :=
  steady_ite (.refl s) (steady_ite (steady_powerDown _ _ _ _ _ (by simp)) (steady_of_anchors (by simp)))

theorem execThermalSample_steady (r : ThermalReading) (s : State) : ResSteady s (execThermalSample r s) :=
  steady_ite (.refl s) ((steady_foldl steady_thermDie _ _).congr_left (by simp))

/-- The tick count and READY as they were. -/
def SameClock (s t : State) : Prop := t.clk.dst = s.clk.dst ∧ t.bup.ready = s.bup.ready

theorem sameClock_of_anchors {s t u : State} (hs : SameClock s t) (h : anchors u = anchors t) : SameClock s u := by
  obtain ⟨hd, hr⟩ := hs
  obtain ⟨hd', hr', -⟩ := (anchors_eq_iff t u).1 h
  exact ⟨hd'.trans hd, hr'.trans hr⟩

/-- A commit whose effect leaves the tick count and READY leaves them altogether. -/
theorem sameClock_commitRow (s : State) (op : Nat) (f : State → BitVec 2048 → State) (hf : ∀ s w, SameClock s (f s w)) :
    SameClock s (commitRow s op f) := by
  have ended : SameClock s (cusDiscard s) := sameClock_of_anchors ⟨rfl, rfl⟩ (anchors_cusDiscard s)
  unfold commitRow
  split
  case h_1 => exact ⟨rfl, rfl⟩
  case h_2 r _ =>
    have done : SameClock s (f (cusDiscard s) r.word) := by
      obtain ⟨hd, hr⟩ := ended
      obtain ⟨hd', hr'⟩ := hf (cusDiscard s) r.word
      exact ⟨hd'.trans hd, hr'.trans hr⟩
    dsimp only
    repeat' split
    · exact ⟨rfl, rfl⟩
    · exact sameClock_of_anchors ended (anchors_cusEnd _ _ _ _ _)
    · exact sameClock_of_anchors done (by simp)
    · exact sameClock_of_anchors ended (anchors_cusEnd _ _ _ _ _)

theorem execFuseWrite_sameClock {s t : State} (h : execFuseWrite s = .next t) : SameClock s t := by
  cases h
  exact sameClock_commitRow _ _ _ fun _ _ => ⟨rfl, rfl⟩

/-- BUP_READY does nothing to a module that is ready. -/
theorem execBupReady_of_ready {s : State} (h : s.bup.ready = true) : execBupReady s = .next s := by
  simp [execBupReady, h]

theorem resSteady_of_keeps {s : State} {r : Res} (h : Keeps s r) : ResSteady s r := by
  cases r with
  | next t => exact steady_of_anchors h
  | fault => trivial
  | refused => trivial

theorem resSteady_exec {i : Instr} {s : State} (hb : i ≠ .bupReady) (hf : i ≠ .fuseWrite) : ResSteady s (exec i s) := by
  by_cases hi : unsettles i = true
  case neg => exact resSteady_of_keeps (keeps_exec i s (by simpa using hi))
  case pos =>
    cases i with
    | powerOn b => exact execPowerOn_steady b s
    | bupReady => exact absurd rfl hb
    | moduleReset c => exact execModuleReset_steady c s
    | resetComplete b => exact execResetComplete_steady b s
    | fuseWrite => exact absurd rfl hf
    | ppsEdge n => exact execPpsEdge_steady n s
    | syncFlit g w => exact execSyncFlit_steady g w s
    | inputShutdown cv => exact execInputShutdown_steady cv s
    | pwrEnFall => exact execPwrEnFall_steady s
    | thermalSample r => exact execThermalSample_steady r s
    | _ => cases hi

/-- While READY stays a command leaves the tick count. -/
theorem exec_dst_of_ready {i : Instr} {s t : State} (hs : s.bup.ready = true) (h : exec i s = .next t)
    (ht : t.bup.ready = true) : t.clk.dst = s.clk.dst := by
  by_cases hb : i = .bupReady
  · subst hb
    cases (execBupReady_of_ready hs).symm.trans h
    rfl
  · by_cases hf : i = .fuseWrite
    · subst hf
      exact (execFuseWrite_sameClock h).1
    · have hr : ResSteady s (exec i s) := resSteady_exec hb hf
      rw [h] at hr
      exact (hr.1 ht).2

theorem idleTick_dst (s : State) : (idleTick s).clk.dst = s.clk.dst + if rootRuns s = true then 1 else 0 := by
  have h : anchors (bootTick (workDue s)) = anchors s := by simp
  have hd : (bootTick (workDue s)).clk.dst = s.clk.dst := ((anchors_eq_iff _ _).1 h).1
  unfold idleTick
  split
  · exact congrArg (· + 1) hd
  · rfl

/-- Settles O59: an idle step by `idleTick_dst`; a command either leaves the anchors, or is one of the few that power,
reset or steer, and these step the Datestamp only where READY is 0 afterwards (`Steady`). -/
theorem datestampInReady : Obligations.DatestampInReady := by
  intro s t hs h ht
  unfold step at h
  split at h
  case h_1 hp =>
    cases h
    simpa [hp] using idleTick_dst s
  case h_2 c r hp => simpa [hp] using exec_dst_of_ready (s := { s with pending := r }) hs h ht

end Sys2Proof
end

section
/-! PROOFS. The launch of a bundle leaves every job's accumulator and hold: what `holds` shows of a slot stays through
the release of a core. -/

namespace Sys2Proof
open Sys2Proof.Machine

/-- Accumulator and hold of every job slot, in a table of jobs. -/
def holdsOf (js : Tab Job) (j : Nat) : Nat × Bool × Bool :=
  ((tget Job.reset js j).h, (tget Job.reset js j).held, (tget Job.reset js j).pend)

/-- Accumulator and hold of every job slot. -/
def holds (s : State) : Nat → Nat × Bool × Bool := holdsOf s.jobs

@[simp] theorem holdsOf_self (s : State) : holdsOf s.jobs = holds s := rfl

@[simp] theorem holds_mk (p : List Instr)
    (o d r m st fl c l j sp dy co cl mc ue g cx cr li fa la ce op tp cu bu pw ri rr br mg sy) :
    holds ⟨p, o, d, r, m, st, fl, c, l, j, sp, dy, co, cl, mc, ue, g, cx, cr, li, fa, la, ce, op, tp, cu, bu, pw, ri,
      rr, br, mg, sy⟩ = holdsOf j := rfl

@[simp] theorem holds_ite (c : Prop) [Decidable c] (s t : State) :
    holds (if c then s else t) = if c then holds s else holds t := apply_ite holds c s t

@[simp] theorem holds_foldl {β : Type} {f : State → β → State} (hf : ∀ s b, holds (f s b) = holds s) (l : List β)
    (s : State) : holds (l.foldl f s) = holds s := by
  induction l generalizing s with
  | nil => rfl
  | cons b r ih => exact (ih _).trans (hf s b)

@[simp] theorem holds_fst_ite {β : Type} (c : Prop) [Decidable c] (p q : State × β) :
    holds (if c then p else q).1 = if c then holds p.1 else holds q.1 := by split <;> rfl

theorem holds_congr {s t : State} (h : t.jobs = s.jobs) : holds t = holds s := congrArg holdsOf h

/-- A job written with the accumulator and the hold that its slot has. -/
theorem holds_setJob (s : State) (j : Nat) (x : Job) (h : holds s j = (x.h, x.held, x.pend)) :
    holds (setJob s j x) = holds s := by
  funext k
  by_cases hk : k = j
  · subst hk
    exact (congrArg (fun y : Job => (y.h, y.held, y.pend)) (getJob_setJob s k x)).trans h.symm
  · exact congrArg (fun y : Job => (y.h, y.held, y.pend)) (getJob_setJob_ne s x hk)

@[simp] theorem holds_setReg (s off v) : holds (setReg s off v) = holds s := by simp [setReg]
@[simp] theorem holds_bump (s off n) : holds (bump s off n) = holds s := by simp [bump]
@[simp] theorem holds_raiseInt (s page b) : holds (raiseInt s page b) = holds s := holds_congr (by simp)

@[simp] theorem holds_post (s src sev code acc d0 d1) : holds (post s src sev code acc d0 d1) = holds s := by
  simp [post]

@[simp] theorem holds_setCore (s c x) : holds (setCore s c x) = holds s := by simp [setCore]
@[simp] theorem holds_setClu (s k x) : holds (setClu s k x) = holds s := by simp [setClu]
@[simp] theorem holds_releaseHub (s j qs) : holds (releaseHub s j qs) = holds s := by simp [releaseHub]

@[simp] theorem holds_jobFault (s j) : holds (jobFault s j) = holds s := by
  have h := holds_releaseHub s j (jobQuads s j)
  refine (holds_ite _ _ _).trans (ite_eq_left_iff.2 fun _ => ?_)
  rw [holds_raiseInt]
  refine (holds_setJob _ _ _ ?_).trans h
  exact congrFun h j

@[simp] theorem holds_faultOpt (s j) : holds (faultOpt s j) = holds s := by unfold faultOpt; split <;> simp
@[simp] theorem holds_pendRow (s u) : holds (pendRow s u) = holds s := by simp [pendRow]
@[simp] theorem holds_pendUnit (s b) : holds (pendUnit s b) = holds s := by simp [pendUnit]
@[simp] theorem holds_annexUe (s u) : holds (annexUe s u) = holds s := by simp [annexUe]
@[simp] theorem holds_annexCe (s u) : holds (annexCe s u) = holds s := by simp [annexCe]
@[simp] theorem holds_memUe (s w u) : holds (memUe s w u) = holds s := by simp [memUe]
@[simp] theorem holds_memCe (s u) : holds (memCe s u) = holds s := by simp [memCe]

@[simp] theorem holds_readCheck (s w as) : holds (readCheck s w as).1 = holds s := by
  unfold readCheck
  dsimp only
  split <;> simp

@[simp] theorem holds_setCtr (s clu n c) : holds (setCtr s clu n c) = holds s := by simp [setCtr]
@[simp] theorem holds_postFault (s clu page e) : holds (postFault s clu page e) = holds s := by simp [postFault]
@[simp] theorem holds_faultsAt (s clu page es) : holds (faultsAt s clu page es) = holds s := by simp [faultsAt]
@[simp] theorem holds_coreFaults (s clu es) : holds (coreFaults s clu es) = holds s := by simp [coreFaults]

@[simp] theorem holds_coreFault (s clu code d0 d1) : holds (coreFault s clu code d0 d1) = holds s := by
  simp [coreFault]

@[simp] theorem holds_ctrAdd (s clu n delta win) : holds (ctrAdd s clu n delta win) = holds s := by simp [ctrAdd]
@[simp] theorem holds_credit (s clu n k) : holds (credit s clu n k) = holds s := by simp [credit]

@[simp] theorem holds_slotFault (s c off code slot) : holds (slotFault s c off code slot) = holds s := by
  simp [slotFault]

@[simp] theorem holds_unitBusy (s c off slot) : holds (unitBusy s c off slot) = holds s := by simp [unitBusy]
@[simp] theorem holds_lostItem (s c n) : holds (lostItem s c n) = holds s := by simp [lostItem]
@[simp] theorem holds_qCheck (s n) : holds (qCheck s n).1 = holds s := by simp [qCheck]

@[simp] theorem holds_itemCheck (s n c drop) (hdrop : ∀ s, holds (drop s) = holds s) :
    holds (itemCheck s n c drop) = holds s := by
  simp [itemCheck, hdrop]

@[simp] theorem holds_pushRec (s c r) : holds (pushRec s c r) = holds s := by
  have h : ∀ q : State → Fabric, holds (itemCheck s (0x1FA + c) c (fun s => { s with fab := q s })) = holds s :=
    fun _ => holds_itemCheck _ _ _ _ fun _ => rfl
  unfold pushRec
  dsimp only
  split
  · simp [h]
  · split <;> simp [h]

@[simp] theorem holds_mxIssue (s cid i f) : holds (mxIssue s cid i f) = holds s := by simp [mxIssue]
@[simp] theorem holds_startMma (s cid l w op) : holds (startMma s cid l w op) = holds s := by simp [startMma]
@[simp] theorem holds_startAld (s cid l w) : holds (startAld s cid l w) = holds s := by simp [startAld]

@[simp] theorem holds_startAst (s cid l w scaledOp) : holds (startAst s cid l w scaledOp) = holds s := by
  simp [startAst]

@[simp] theorem holds_startAclr (s cid l w) : holds (startAclr s cid l w) = holds s := by simp [startAclr]
@[simp] theorem holds_mxStart (s cid l w) : holds (mxStart s cid l w) = holds s := by simp [mxStart]
@[simp] theorem holds_stStart (s cid l w) : holds (stStart s cid l w) = holds s := by simp [stStart]
@[simp] theorem holds_tdCollide (s cl p) : holds (tdCollide s cl p) = holds s := by simp [tdCollide]

@[simp] theorem holds_addTd (s cid jt p) : holds (addTd s cid jt p) = holds s := by
  unfold addTd
  dsimp only
  split <;> simp

@[simp] theorem holds_startLdtd (s cid l w) : holds (startLdtd s cid l w) = holds s := by simp [startLdtd]
@[simp] theorem holds_startSttd (s cid l w) : holds (startSttd s cid l w) = holds s := by simp [startSttd]
@[simp] theorem holds_queueMove (s cid j l w) : holds (queueMove s cid j l w) = holds s := by simp [queueMove]
@[simp] theorem holds_mvStart (s cid j l w) : holds (mvStart s cid j l w) = holds s := by simp [mvStart]
@[simp] theorem holds_actLoop (s cid j l w) : holds (actLoop s cid j l w) = holds s := by simp [actLoop]
@[simp] theorem holds_actTdadd (s cid l w) : holds (actTdadd s cid l w) = holds s := by simp [actTdadd]
@[simp] theorem holds_actEnd (s cid j) : holds (actEnd s cid j) = holds s := by simp [actEnd]
@[simp] theorem holds_ctlAct (s cid j l b) : holds (ctlAct s cid j l b) = holds s := by simp [ctlAct]

@[simp] theorem holds_skewCheck (s j jt) : holds (skewCheck s j jt) = holds s := by
  have h := holds_post s pgSCH sevWarning 0x0208 (getJob s j).acc (d0Sch (getJob s j).acc j 0) 0
  refine (holds_ite _ _ _).trans (ite_eq_left_iff.2 fun _ => ?_)
  refine (holds_setJob _ _ _ ?_).trans h
  exact congrFun h j

@[simp] theorem holds_latchBundle (s cid j jt b off) : holds (latchBundle s cid j jt b off) = holds s := by
  simp [latchBundle]

@[simp] theorem holds_launchBundle (s cid j jt b off) : holds (launchBundle s cid j jt b off) = holds s := by
  simp [launchBundle]

@[simp] theorem holds_releaseCore (j e s k) : holds (releaseCore j e s k) = holds s := by
  unfold releaseCore
  dsimp only
  repeat' split
  all_goals simp

end Sys2Proof
end

section
/-! PROOFS. The hold (R33, R41, R42, R44, R129, R142), and the obligation O18. -/

namespace Sys2Proof

open Sys2Proof.Machine

theorem jobQuads_setJob {s : State} {j : Nat} {x : Job} (hi : x.img = (getJob s j).img) (hs : x.st = (getJob s j).st) :
    jobQuads (setJob s j x) j = jobQuads s j := by
  unfold jobQuads
  rw [getJob_setJob, hi, hs]
  rfl

theorem jobQuads_lt {s : State} {j q : Nat} (h : (jobQuads s j).contains q = true) : q < 4 := by
  have mem : q ∈ jobQuads s j := by simpa using h
  unfold jobQuads at mem
  split at mem
  · have := (List.mem_filter.1 mem).1
    simp at this
    omega
  · split at mem
    · simp at mem
      omega
    · cases mem

/-! ## Job time stops at the epoch (R33, R42) -/

/-- The job in slot `j` with its time stopped here. -/
def heldJob (s : State) (j : Nat) : Job :=
  { getJob s j with held := true, e := jobTime s (getJob s j), stopAt := s.clk.dst }

/-- The core's next bundle is an HP bundle due at job time `jt`. -/
def hpDueAt (s : State) (j jt : Nat) (c : Core) : Bool :=
  match nextBn c with
  | some (b, off) => bnHP b && decide (originOf s j c.seg + 4 * off = jt)
  | none => false

/-- A core of the job whose HP bundle is due at job time `jt` is held. -/
def holdCore (s : State) (j jt : Nat) (qs : List Nat) (k : Nat) (c : Core) : Core :=
  if qs.contains (k / 1536) && c.st == .ready && hpDueAt s j jt c then { c with st := .held } else c

/-- A hold that is due: pending, at its epoch, and not released by now. -/
structure Stops (s : State) (j : Fin 4) : Prop where
  runs : (getJob s j).st = .running
  pend : (getJob s j).pend = true
  free : (getJob s j).held = false
  epoch : epochNow s j = true
  late : ∀ r, releaseAt s (getJob s j) (jobTime s (getJob s j)) = some r → s.clk.dst < r

theorem Stops.exec_eq {s : State} {j : Fin 4} (h : Stops s j) : exec (.holdEpochStop j) s = .next (
    let u := holdUnits (setJob s j (heldJob s j)) j
    if (getJob u j).st ≠ .running then u
    else { u with cores := tmap Core.reset (holdCore u j (jobTime s (getJob s j)) (jobQuads s j)) u.cores }) := by
  change execHoldEpochStop j s = _
  unfold execHoldEpochStop
  dsimp only
  rw [if_pos]
  · rfl
  · refine ⟨h.runs, h.pend, by simp [h.free], h.epoch, ?_⟩
    split
    case h_1 r hr => simpa using h.late r hr
    case h_2 => rfl

theorem originOf_setJob_held (s : State) (j seg : Nat) :
    originOf (setJob s j (heldJob s j)) j seg = originOf s j seg := by
  simp [originOf, segsOf, heldJob]

/-- Where no unit runs a command a hold meets none. -/
theorem holdUnits_idle {s : State} (j : Nat) (h : ∀ e ∈ s.clus, e.2.re.busy ≤ s.clk.dst ∧ e.2.rt.busy ≤ s.clk.dst) :
    holdUnits s j = s := by
  have none : ∀ e ∈ s.clus, [false, true].filter (fun rt => decide (s.clk.dst < (unitOf rt e.2).busy)) = [] := by
    intro e he
    obtain ⟨hre, hrt⟩ := h e he
    simp [unitOf, hre, hrt]
  unfold holdUnits
  dsimp only
  rw [if_pos]
  rw [List.isEmpty_iff, List.flatMap_eq_nil_iff]
  intro e he
  rw [none e (List.mem_filter.1 he).1, List.map_nil]

/-- A core that stays ready has no HP bundle at the epoch. -/
theorem holdCore_ready {s : State} {j jt k : Nat} {qs : List Nat} {c : Core} {b : W256} {off : Nat}
    (hk : qs.contains (k / 1536) = true) (hr : (holdCore s j jt qs k c).st = .ready)
    (hn : nextBn (holdCore s j jt qs k c) = some (b, off)) (hb : bnHP b = true) :
    originOf s j (holdCore s j jt qs k c).seg + 4 * off ≠ jt := by
  have hk : k / 1536 ∈ qs := by simpa using hk
  unfold holdCore at hr hn ⊢
  split at hr
  case isTrue => cases hr
  case isFalse hno =>
    rw [if_neg hno] at hn ⊢
    intro he
    exact hno (by simp [hpDueAt, hn, hk, hr, hb, he])

/-- The state of a hold that meets no running unit. -/
def stoppedState (s : State) (j : Nat) : State :=
  { setJob s j (heldJob s j) with
    cores := tmap Core.reset (holdCore (setJob s j (heldJob s j)) j (jobTime s (getJob s j)) (jobQuads s j)) s.cores }

theorem getJob_stoppedState (s : State) (j : Nat) : getJob (stoppedState s j) j = heldJob s j :=
  getJob_setJob s j (heldJob s j)

theorem jobTime_heldJob (s t : State) (j : Nat) : jobTime t (heldJob s j) = jobTime s (getJob s j) := rfl

theorem exec_holdEpochStop_idle {s : State} {j : Fin 4} (h : Stops s j)
    (hu : ∀ e ∈ s.clus, e.2.re.busy ≤ s.clk.dst ∧ e.2.rt.busy ≤ s.clk.dst) :
    exec (.holdEpochStop j) s = .next (stoppedState s j) := by
  have runs : (heldJob s j).st = .running := h.runs
  rw [h.exec_eq, holdUnits_idle (s := setJob s j (heldJob s j)) j hu]
  dsimp only
  rw [if_neg (by simp [runs])]
  rfl

theorem ready_of_mem_tmap_holdCore {s : State} {j jt : Nat} {qs : List Nat} {t : Tab Core} {e : Nat × Core} {b : W256}
    {off : Nat} (he : e ∈ tmap Core.reset (holdCore s j jt qs) t) (hk : qs.contains (e.1 / 1536) = true)
    (hr : e.2.st = .ready) (hn : nextBn e.2 = some (b, off)) (hb : bnHP b = true) :
    originOf s j e.2.seg + 4 * off ≠ jt := by
  obtain ⟨x, -, rfl⟩ := List.mem_map.1 (List.mem_filter.1 he).1
  exact holdCore_ready hk hr hn hb

/-! ## A unit that runs a command at the epoch (R129, R142) -/

/-- A fault entry of source `p` with code `c` waits for its commit. -/
def Raised (s : State) (p c : Nat) : Prop := ∃ x ∈ s.ldg.wait, x.src = p ∧ x.code = c ∧ x.sev = 3

theorem Logged.wait_subset {s t : State} {src sev code : Nat} {acc : BitVec 12} {d0 d1 : W32}
    (h : Logged s t src sev code acc d0 d1) : s.ldg.wait ⊆ t.ldg.wait := by
  unfold Logged at h
  split at h
  · rw [h.1]; exact List.Subset.refl _
  · rw [h.2]; exact List.subset_append_left _ _

theorem Logged.wait_of_noneWaits {s t : State} {src sev code : Nat} {acc : BitVec 12} {d0 d1 : W32}
    (h : Logged s t src sev code acc d0 d1) (hs : NoneWaits s src) :
    t.ldg.wait = s.ldg.wait ++ [entryNow s src sev code acc d0 d1] := by
  have none : s.ldg.wait.filter (fun e => e.src == src) = [] :=
    List.filter_eq_nil_iff.2 fun x hx => by simpa using hs x hx
  unfold Logged at h
  rw [none, if_neg (by simp)] at h
  exact h.2

theorem Logged.noneWaits_ne {s t : State} {src sev code p : Nat} {acc : BitVec 12} {d0 d1 : W32}
    (h : Logged s t src sev code acc d0 d1) (hp : NoneWaits s p) (hne : src ≠ p) : NoneWaits t p := by
  unfold Logged at h
  split at h
  · unfold NoneWaits; rw [h.1]; exact hp
  · intro x hx
    rw [h.2, List.mem_append, List.mem_singleton] at hx
    rcases hx with hx | rfl
    · exact hp x hx
    · exact hne

theorem postFault_logged (s : State) (clu page : Nat) (e : Nat × W32 × W32) :
    Logged s (postFault s clu page e) page sevFault e.1 (quadAcc s (clu / 16)) e.2.1 e.2.2 := by
  exact post_logged (bump s _ 1) page sevFault e.1 (quadAcc s (clu / 16)) e.2.1 e.2.2

theorem foldl_postFault_raised {β : Type} (clu page : β → Nat) (e : β → Nat × W32 × W32) {p c : Nat} {l : List β}
    {s : State} (hc : ∀ x ∈ l, page x = p → (e x).1 = c) (h : Raised s p c ∨ NoneWaits s p ∧ ∃ x ∈ l, page x = p) :
    Raised (l.foldl (fun s x => postFault s (clu x) (page x) (e x)) s) p c := by
  induction l generalizing s with
  | nil => exact h.elim id fun ⟨_, x, hx, _⟩ => absurd hx List.not_mem_nil
  | cons x r ih =>
    have log := postFault_logged s (clu x) (page x) (e x)
    refine ih (fun y hy => hc y (List.mem_cons_of_mem _ hy)) ?_
    rcases h with ⟨y, hy, hsrc⟩ | ⟨hn, y, hy, hpy⟩
    · exact .inl ⟨y, log.wait_subset hy, hsrc⟩
    · by_cases hx : page x = p
      · refine .inl ⟨entryNow s (page x) sevFault (e x).1 (quadAcc s (clu x / 16)) (e x).2.1 (e x).2.2, ?_, hx,
          hc x List.mem_cons_self hx, rfl⟩
        · rw [log.wait_of_noneWaits (hx ▸ hn)]
          exact List.mem_append_right _ (List.mem_singleton_self _)
      · refine .inr ⟨log.noneWaits_ne hn hx, y, ?_, hpy⟩
        rcases List.mem_cons.1 hy with rfl | hy
        · exact absurd hpy hx
        · exact hy

theorem foldl_postFault_jobs {β : Type} (clu page : β → Nat) (e : β → Nat × W32 × W32) (l : List β) (s : State) :
    (l.foldl (fun s x => postFault s (clu x) (page x) (e x)) s).jobs = s.jobs := by
  induction l generalizing s with
  | nil => rfl
  | cons x r ih => exact (ih _).trans (by simp [postFault])

theorem unitPage_mod (rt : Bool) (k : Nat) : unitPage rt k % 4 = if rt then 3 else 1 := by
  cases rt <;> simp [unitPage, pgRE, pgRT, pgQD] <;> omega

/-- The pages of row engines and of route units differ. -/
theorem unitPage_unit {rt rt' : Bool} {k k' : Nat} (h : unitPage rt k = unitPage rt' k') : rt = rt' := by
  have hmod : (if rt then 3 else 1) = if rt' then 3 else 1 := by rw [← unitPage_mod rt k, h, unitPage_mod]
  have inj : ∀ a b : Bool, ((if a then 3 else 1) = if b then 3 else 1) → a = b := by decide
  exact inj rt rt' hmod

/-- A unit that runs a command when a hold stops job time faults the job, with an entry of its own. -/
theorem holdUnits_busy {s : State} {j : Nat} {e : Nat × Cluster} {rt : Bool} (he : e ∈ s.clus)
    (hq : (jobQuads s j).contains (e.1 / 16) = true) (hb : s.clk.dst < (unitOf rt e.2).busy)
    (hn : NoneWaits s (unitPage rt e.1)) (hr : (getJob s j).st = .running) :
    (getJob (holdUnits s j) j).st = .faulted ∧ Raised (holdUnits s j) (unitPage rt e.1) (unitCode rt 4) := by
  have mem : (e.1, rt, ((unitOf rt e.2).fly.getLast?.map CmdFly.w).getD 0) ∈
      (s.clus.filter (fun e => (jobQuads s j).contains (e.1 / 16))).flatMap (fun e =>
        ([false, true].filter (fun rt => decide (s.clk.dst < (unitOf rt e.2).busy))).map (fun rt =>
          (e.1, rt, ((unitOf rt e.2).fly.getLast?.map CmdFly.w).getD 0))) := by
    refine List.mem_flatMap.2 ⟨e, List.mem_filter.2 ⟨he, hq⟩, List.mem_map.2 ⟨rt, List.mem_filter.2 ⟨?_, ?_⟩, rfl⟩⟩
    · cases rt <;> simp
    · simpa using hb
  unfold holdUnits
  dsimp only
  rw [if_neg fun hemp => List.not_mem_nil (List.isEmpty_iff.1 hemp ▸ mem)]
  refine ⟨jobFault_faulted (.inl ?_), ?_⟩
  · rw [getJob_congr (foldl_postFault_jobs _ _ _ _ s), hr]
    rfl
  · obtain ⟨x, hx, hs⟩ := foldl_postFault_raised (fun x => x.1) (fun x => unitPage x.2.1 x.1)
      (fun x : Nat × Bool × W256 => (unitCode x.2.1 4, d0Core (if x.2.1 then 0xFD else 0xFE) (cmOff x.2.2),
        BitVec.ofNat 32 (cmOp x.2.2))) (fun x _ hp => by rw [unitPage_unit hp]) (.inr ⟨hn, _, mem, rfl⟩)
    exact ⟨x, by simpa using hx, hs⟩

theorem exec_holdEpochStop_busy {s : State} {j : Fin 4} {e : Nat × Cluster} {rt : Bool} (h : Stops s j)
    (he : e ∈ s.clus) (hq : (jobQuads s j).contains (e.1 / 16) = true) (hb : s.clk.dst < (unitOf rt e.2).busy)
    (hn : NoneWaits s (unitPage rt e.1)) :
    ∃ t, exec (.holdEpochStop j) s = .next t ∧ (getJob t j).st = .faulted ∧
      Raised t (unitPage rt e.1) (unitCode rt 4) := by
  have quads : jobQuads (setJob s j (heldJob s j)) j = jobQuads s j := jobQuads_setJob rfl rfl
  have runs : (getJob (setJob s j (heldJob s j)) j).st = .running := by rw [getJob_setJob]; exact h.runs
  obtain ⟨hf, hraised⟩ := holdUnits_busy (s := setJob s j (heldJob s j)) (j := j) he (quads ▸ hq) hb hn runs
  refine ⟨_, ?_, hf, hraised⟩
  rw [h.exec_eq]
  dsimp only
  rw [if_pos (by simp [hf])]

/-! ## The release (R33, R41) -/

/-- A release waits for the epoch's own instant. -/
theorem le_of_releaseAt {s : State} {x : Job} {e r : Nat} (h : releaseAt s x e = some r) : e + x.h ≤ r := by
  obtain ⟨t, -, rfl⟩ := Option.map_eq_some_iff.1 h
  unfold cdiv
  omega

theorem jobTime_of_free {s : State} {x : Job} (h : x.held = false) : jobTime s x = s.clk.dst - x.h := by
  simp [jobTime, h]

/-- The job in slot `j` with its hold over and its time going on from `e`. -/
def releasedJob (s : State) (j e : Nat) : Job :=
  { getJob s j with h := s.clk.dst - e, held := false, pend := false, late := [], first := none }

/-- The state after the release, its cores launched in the order of their keys. -/
def released (s : State) (j e : Nat) : State :=
  let u := setJob s j (releasedJob s j e)
  ((u.cores.map Prod.fst).filter (fun k => (jobQuads u j).contains (k / 1536))).foldl (releaseCore j e) u

theorem exec_holdRelease_due {s : State} {j : Fin 4} (hr : (getJob s j).st = .running) (hp : (getJob s j).pend = true)
    (he : (getJob s j).held = true ∨ epochNow s j = true)
    (ha : releaseAt s (getJob s j) (jobTime s (getJob s j)) = some s.clk.dst) :
    exec (.holdRelease j) s = .next (released s j (jobTime s (getJob s j))) := by
  change execHoldRelease j s = _
  unfold execHoldRelease
  dsimp only
  rw [if_pos ⟨hr, hp, he, ha⟩]
  rfl

theorem released_hold (s : State) (j e : Nat) :
    (getJob (released s j e) j).h = s.clk.dst - e ∧ (getJob (released s j e) j).held = false ∧
      (getJob (released s j e) j).pend = false := by
  have h : holds (released s j e) = holds (setJob s j (releasedJob s j e)) := holds_foldl (holds_releaseCore j e) _ _
  have hj : holds (setJob s j (releasedJob s j e)) j = (s.clk.dst - e, false, false) :=
    congrArg (fun x : Job => (x.h, x.held, x.pend)) (getJob_setJob s j _)
  have all := (congrFun h j).trans hj
  simp only [holds, holdsOf, Prod.mk.injEq] at all
  exact all

theorem released_dst (s : State) (j e : Nat) : (released s j e).clk.dst = s.clk.dst := by
  have h : anchors (released s j e) = anchors s :=
    (anchors_foldl (anchors_releaseCore j e) _ _).trans (anchors_setJob _ _ _)
  exact ((anchors_eq_iff _ _).1 h).1

/-- One of a core's two turns at the release: a late WAIT bundle, or the bundle that the hold stopped. -/
def releaseTurn (j e : Nat) (cid : CoreId) (s : State) (late : Bool) : State :=
  let c := getCore s cid
  match nextBn c with
  | none => s
  | some (b, off) =>
    if late then (if c.st = .waiting ∧ c.missed then launchBundle s cid j e b off else s)
    else if (c.st = .ready ∨ c.st = .held) ∧ bnHP b ∧ ¬ bnWait b ∧ originOf s j c.seg + 4 * off = e
    then launchBundle s cid j e b off
    else if c.st = .held then setCore s cid { c with st := .ready } else s

theorem releaseCore_eq_turns (j e : Nat) (s : State) (k : Nat) :
    releaseCore j e s k = releaseTurn j e (coreOfKey k) (releaseTurn j e (coreOfKey k) s true) false := rfl

theorem releaseTurn_rest {s : State} {c : CoreId} (j e : Nat) (late : Bool)
    (h : (getCore s c).st = .idle ∨ (getCore s c).st = .done) : releaseTurn j e c s late = s := by
  unfold releaseTurn
  dsimp only
  split
  · rfl
  · rcases h with h | h <;> simp [h]

/-- A release finds nothing to launch on a core that is idle or done. -/
theorem releaseCore_rest {s : State} {k : Nat} (j e : Nat)
    (h : (getCore s (coreOfKey k)).st = .idle ∨ (getCore s (coreOfKey k)).st = .done) : releaseCore j e s k = s := by
  rw [releaseCore_eq_turns, releaseTurn_rest j e true h, releaseTurn_rest j e false h]

theorem key_coreOfKey {k : Nat} (h : k / 1536 < 4) : (coreOfKey k).key = k := by
  simp only [coreOfKey, CoreId.key, Clu.key, Fin.val_ofNat]
  omega

theorem foldl_eq_self {β : Type} {f : State → β → State} {l : List β} {s : State} (h : ∀ x ∈ l, f s x = s) :
    l.foldl f s = s := by
  induction l with
  | nil => rfl
  | cons x r ih =>
    rw [List.foldl_cons, h x List.mem_cons_self]
    exact ih fun y hy => h y (List.mem_cons_of_mem _ hy)

/-- Where no core of the job waits or is ready the release moves the job alone. -/
theorem released_rest {s : State} {j : Nat} (e : Nat)
    (h : ∀ x ∈ s.cores, (jobQuads s j).contains (x.1 / 1536) = true → x.2.st = .idle ∨ x.2.st = .done) :
    released s j e = setJob s j (releasedJob s j e) := by
  have quads : jobQuads (setJob s j (releasedJob s j e)) j = jobQuads s j := jobQuads_setJob rfl rfl
  refine foldl_eq_self fun k hk => releaseCore_rest j e ?_
  have hq : (jobQuads s j).contains (k / 1536) = true := quads ▸ (List.mem_filter.1 hk).2
  have key : (coreOfKey k).key = k := key_coreOfKey (jobQuads_lt hq)
  change (tget Core.reset s.cores (coreOfKey k).key).st = .idle ∨ (tget Core.reset s.cores (coreOfKey k).key).st = .done
  rw [key]
  rcases tget_eq_default_or_mem Core.reset s.cores k with hd | hm
  · exact .inl (congrArg Core.st hd)
  · exact h _ hm hq

/-! ## The hold is given up (R44) -/

theorem d0Sch_fin_zero (acc : BitVec 12) (j : Fin 4) :
    d0Sch acc j 0 = BitVec.ofNat 32 (acc.toNat * 2 ^ 20 + j.val * 2 ^ 16) := by
  simp [d0Sch, Nat.mod_eq_of_lt j.isLt]

theorem Logged.wait_of_room {s t : State} {src sev code : Nat} {acc : BitVec 12} {d0 d1 : W32}
    (h : Logged s t src sev code acc d0 d1) (hs : (s.ldg.wait.filter (fun e => e.src == src)).length < 4) :
    t.ldg.wait = s.ldg.wait ++ [entryNow s src sev code acc d0 d1] := by
  unfold Logged at h
  rw [if_neg (not_le.2 hs)] at h
  exact h.2

theorem jobFault_ldg (s : State) (j : Nat) : (jobFault s j).ldg = s.ldg := by simp

/-- Two entries of one source that its buffer takes. -/
theorem post_post_wait {s : State} {src : Nat} (sev code : Nat) (acc : BitVec 12) (d0 d1 d1' : W32)
    (h : (s.ldg.wait.filter (fun e => e.src == src)).length ≤ 2) :
    (post (post s src sev code acc d0 d1) src sev code acc d0 d1').ldg.wait =
      s.ldg.wait ++ [entryNow s src sev code acc d0 d1, entryNow s src sev code acc d0 d1'] := by
  have one := (post_logged s src sev code acc d0 d1).wait_of_room (by omega)
  have two := (post_logged (post s src sev code acc d0 d1) src sev code acc d0 d1').wait_of_room (by
    rw [one, List.filter_append, List.length_append]
    have := List.length_filter_le (fun e : Entry => e.src == src) [entryNow s src sev code acc d0 d1]
    rw [List.length_singleton] at this
    omega)
  rw [two, one, List.append_assoc]
  simp [entryNow]

theorem exec_schHoldGiveup_late {s : State} {j : Fin 4} {l : Late} (hr : (getJob s j).st = .running)
    (hh : (getJob s j).held = true) (hf : (getJob s j).first = some l)
    (hl : (reg s (at' pgSCH (0x110 + 0x40 * j))).toNat * 6000 < s.clk.dst - (getJob s j).stopAt) :
    exec (.schHoldGiveup j) s = .next (jobFault
      (post (post s pgSCH sevFault 0x0203 (getJob s j).acc (d0Sch (getJob s j).acc j 0)
          (BitVec.ofNat 32 (l.cc + l.core.cl.c.val * 256)))
        pgSCH sevFault 0x0203 (getJob s j).acc (d0Sch (getJob s j).acc j 0) (BitVec.ofNat 32 l.d)) j) := by
  change execSchHoldGiveup j s = _
  unfold execSchHoldGiveup
  dsimp only
  rw [if_pos ⟨hr, hh, hl⟩, hf]

/-- Settles O18: the epoch by `holdCore` and `holdUnits`, the release by what `releaseCore` keeps (`holds`, `anchors`),
the give-up by its two entries. -/
theorem holdRows : Obligations.HoldRows := by
  refine ⟨?epoch, ?busy, ?release, ?giveup⟩
  case epoch =>
    intro j s hr hp hh he hrel hu
    refine ⟨_, exec_holdEpochStop_idle ⟨hr, hp, hh, he, hrel⟩ hu, getJob_stoppedState s j, fun n => ?_, ?_, rfl⟩
    · rw [getJob_stoppedState, jobTime_heldJob]
    · intro e hm hq hst b off hn hb
      rw [← originOf_setJob_held]
      exact ready_of_mem_tmap_holdCore hm hq hst hn hb
  case busy =>
    intro j e rt s hr hp hh he hrel hm hq hb hn _ _
    exact exec_holdEpochStop_busy ⟨hr, hp, hh, he, hrel⟩ hm hq hb hn
  case release =>
    intro j s hr hp hh ha
    obtain ⟨hh', hheld, hpend⟩ := released_hold s j (jobTime s (getJob s j))
    have hle := le_of_releaseAt ha
    refine ⟨_, exec_holdRelease_due hr hp hh ha, hh', by omega, hheld, hpend, ?_, fun hrest => ?_⟩
    · rw [jobTime_of_free hheld, hh', released_dst]
      omega
    · rw [released_rest _ hrest]
      rfl
  case giveup =>
    intro j l s hr hh hf hl hn
    refine ⟨_, [], exec_schHoldGiveup_late hr hh hf hl, jobFault_faulted (.inl ?_), ?_⟩
    · rw [getJob_congr (s := s) (by simp), hr]
      rfl
    · rw [jobFault_ldg, post_post_wait _ _ _ _ _ _ hn, d0Sch_fin_zero, List.append_nil]
      rfl

end Sys2Proof
end

section
/-! PROOFS. A bundle that launches (R57 to R59): what its slots act on, and what an idle slot leaves. -/

namespace Sys2Proof

open Sys2Proof.Machine

/-! ## States that differ in one core -/

theorem OnlyCore.trans {s t u : State} {c : CoreId} (h : OnlyCore s t c) (h' : OnlyCore t u c) : OnlyCore s u c := by
  obtain ⟨ht, hc⟩ := h
  obtain ⟨hu, hc'⟩ := h'
  refine ⟨?_, fun d hd => (hc' d hd).trans (hc d hd)⟩
  rw [hu, ht]

/-! ## The core that launched -/

theorem popBn_eq (c : Core) : ∃ q l, popBn c = { c with bq := q, loop := l } := by
  unfold popBn
  split
  · exact ⟨_, _, rfl⟩
  · exact ⟨_, _, rfl⟩

/-- The launch of a bundle moves the sequencer alone: tables, accumulators and units stay as they were latched. -/
@[simp] theorem launched_frame (s : State) (c : CoreId) (j : Nat) (b : W256) (off : Nat) :
    (launched s c j b off).sp = (latched s c j).sp ∧ (launched s c j b off).seg = (latched s c j).seg ∧
    (launched s c j b off).td = (latched s c j).td ∧ (launched s c j b off).tdPend = (latched s c j).tdPend ∧
    (launched s c j b off).tdOver = (latched s c j).tdOver ∧ (launched s c j b off).md = (latched s c j).md ∧
    (launched s c j b off).acc = (latched s c j).acc ∧ (launched s c j b off).trunc = (latched s c j).trunc ∧
    (launched s c j b off).mxBusy = (latched s c j).mxBusy ∧ (launched s c j b off).mxFly = (latched s c j).mxFly ∧
    (launched s c j b off).stBusy = (latched s c j).stBusy ∧ (launched s c j b off).stFly = (latched s c j).stFly ∧
    (launched s c j b off).mq = (latched s c j).mq ∧ (launched s c j b off).mvFly = (latched s c j).mvFly ∧
    (launched s c j b off).tdFly = (latched s c j).tdFly ∧ (launched s c j b off).last = some off := by
  obtain ⟨q, l, h⟩ := popBn_eq (latched s c j)
  simp [launched, h]

@[simp] theorem latched_frame (s : State) (c : CoreId) (j : Nat) :
    (latched s c j).seg = (getCore s c).seg ∧ (latched s c j).mq = (getCore s c).mq :=
  ⟨rfl, rfl⟩

/-! ## The launch -/

theorem readCheck_good {s : State} {as : List Nat} (w : Who) (h : flawsOf s as = []) : readCheck s w as = (s, true) := by
  simp [readCheck, h]

/-- The row of a due bundle launches it when it does not wait, no pending hold stops it and its words hold no error. -/
theorem Due.launch_eq {s : State} {c : CoreId} {j : Nat} {b : W256} {off : Nat} (h : Due s c j b off)
    {p : W256 → Bool} (hp : p b = true) (hw : bnWait b = false) (hh : bnHP b = true → (getJob s j).pend = false)
    (hg : flawsOf s (bqWords s c) = []) : launch s c p = latchBundle s c j (jobTime s (getJob s j)) b off := by
  have read := readCheck_good (whoOf s c.cl.q.val) hg
  refine onEdge_some h.slot ?_
  have stays : ¬ (bnHP b && !false && (getJob s j).pend) = true := by
    cases hb : bnHP b with
    | false => simp
    | true => simp [hh hb]
  have launches : launchBundle s c j (jobTime s (getJob s j)) b off = latchBundle s c j (jobTime s (getJob s j)) b off := by
    unfold launchBundle
    exact (congrArg (fun r => if r.2 = true then latchBundle r.1 c j _ b off else r.1) read).trans (if_pos rfl)
  simp only [launchDue, h.look_eq hp, hw, Bool.false_and, Bool.false_eq_true, if_false, if_neg stays, launches]

theorem queued_congr {s t : State} (h : t.clk = s.clk) (k : Core) : queued t k = queued s k := by
  unfold queued
  rw [h]

theorem busySlots_congr {s t : State} (h : t.clk = s.clk) (k : Core) (b : W256) : busySlots t k b = busySlots s k b := by
  unfold busySlots
  rw [queued_congr h, h]

/-- The state in which the slots of bundle `b` act: its core has launched. -/
def launchState (s : State) (c : CoreId) (j : Nat) (b : W256) (off : Nat) : State :=
  setCore s c (launched s c j b off)

@[simp] theorem getCore_launchState (s : State) (c : CoreId) (j : Nat) (b : W256) (off : Nat) :
    getCore (launchState s c j b off) c = launched s c j b off := getCore_setCore s c _

theorem onlyCore_launchState (s : State) (c : CoreId) (j : Nat) (b : W256) (off : Nat) :
    OnlyCore s (launchState s c j b off) c := onlyCore_setCore s c _

/-- What a core sets over its launch differs from the state before in this core alone. -/
theorem onlyCore_setCore_launchState (s : State) (c : CoreId) (j : Nat) (b : W256) (off : Nat) (x : Core) :
    OnlyCore s (setCore (launchState s c j b off) c x) c :=
  (onlyCore_launchState s c j b off).trans (onlyCore_setCore _ c x)

theorem ctlAct_idle {b : W256} (h : ctlOp b = 0) (s : State) (c : CoreId) (j : Nat) (l : Latch) : ctlAct s c j l b = s := by
  simp [ctlAct, h]

theorem mxStart_idle {w : W64} (h : fld w 63 58 = 0) (s : State) (c : CoreId) (l : Latch) : mxStart s c l w = s := by
  simp [mxStart, h]

theorem stStart_idle {w : W64} (h : fld w 63 58 = 0) (s : State) (c : CoreId) (l : Latch) : stStart s c l w = s := by
  simp [stStart, h]

theorem mvStart_idle {w : W64} (h : fld w 63 58 = 0) (s : State) (c : CoreId) (j : Nat) (l : Latch) :
    mvStart s c j l w = s := by
  simp [mvStart, h]

section
variable {s : State} {c : CoreId} {j : Nat} {b : W256} {off : Nat} (h : Launches s c j b off)
  {p : W256 → Bool} (hp : p b = true)
include h hp

/-- The four slots of a bundle that launches act in turn. -/
theorem Launches.launch_eq : launch s c p =
    mvStart (stStart (mxStart (ctlAct (launchState s c j b off) c j (latchOf s c j b) b)
      c (latchOf s c j b) (bnMx b)) c (latchOf s c j b) (bnSt b)) c j (latchOf s c j b) (bnMv b) := by
  rw [h.toDue.launch_eq hp h.noWait h.noHold h.good]
  have passes : latchFaults s c j (settleTd s.clk.dst (jobTime s (getJob s j)) (getCore s c)) b = [] := h.passes
  have idle : busySlots s (settleTd s.clk.dst (jobTime s (getJob s j)) (getCore s c)) b = [] := h.idle
  unfold latchBundle
  simp only [passes, h.noPft, busySlots_congr (t := setCore s c _) (s := s) rfl, idle, List.isEmpty_nil, Bool.not_true,
    Bool.false_eq_true, if_false, List.contains_nil, if_true]
  rfl

theorem Launches.launch_ctl (hmx : mxOp b = 0) (hst : stOp b = 0) (hmv : mvOp b = 0) :
    launch s c p = ctlAct (launchState s c j b off) c j (latchOf s c j b) b := by
  rw [h.launch_eq hp, mxStart_idle hmx, stStart_idle hst, mvStart_idle hmv]

theorem Launches.launch_mx (hctl : ctlOp b = 0) (hst : stOp b = 0) (hmv : mvOp b = 0) :
    launch s c p = mxStart (launchState s c j b off) c (latchOf s c j b) (bnMx b) := by
  rw [h.launch_eq hp, ctlAct_idle hctl, stStart_idle hst, mvStart_idle hmv]

theorem Launches.launch_st (hctl : ctlOp b = 0) (hmx : mxOp b = 0) (hmv : mvOp b = 0) :
    launch s c p = stStart (launchState s c j b off) c (latchOf s c j b) (bnSt b) := by
  rw [h.launch_eq hp, ctlAct_idle hctl, mxStart_idle hmx, mvStart_idle hmv]

theorem Launches.launch_mv (hctl : ctlOp b = 0) (hmx : mxOp b = 0) (hst : stOp b = 0) :
    launch s c p = mvStart (launchState s c j b off) c j (latchOf s c j b) (bnMv b) := by
  rw [h.launch_eq hp, ctlAct_idle hctl, mxStart_idle hmx, stStart_idle hst]

end

/-! ## Units that take the slot (R58) -/

section
variable {s : State} {c : CoreId} {j : Nat} {b : W256} {off : Nat} (h : Launches s c j b off)
include h

theorem Launches.mx_free (hop : mxOp b ≠ 0) : ¬ s.clk.dst < (launched s c j b off).mxBusy := by
  have idle := h.idle
  simp only [busySlots, List.append_eq_nil_iff, ite_eq_right_iff, List.cons_ne_nil, imp_false, not_and] at idle
  simpa using idle.1.1 hop

theorem Launches.st_free (hop : stOp b ≠ 0) : ¬ s.clk.dst < (launched s c j b off).stBusy := by
  have idle := h.idle
  simp only [busySlots, List.append_eq_nil_iff, ite_eq_right_iff, List.cons_ne_nil, imp_false, not_and] at idle
  simpa using idle.1.2 hop

theorem Launches.queue_free (hlo : 1 ≤ mvOp b) (hhi : mvOp b ≤ 5) :
    ¬ 8 ≤ queued (launchState s c j b off) (launched s c j b off) := by
  have idle := h.idle
  simp only [busySlots, List.append_eq_nil_iff, ite_eq_right_iff, List.cons_ne_nil, imp_false, not_and] at idle
  simpa [queued, launchState] using idle.2 hlo hhi

end

end Sys2Proof
end

section
/-! PROOFS. The control slot's rows of a launching bundle (R57, R59, R60, R68, R70 to R72, R77), and the obligation O15. -/

namespace Sys2Proof

open Sys2Proof.Machine

/-! ## What each opcode does over the launch -/

section
variable (s : State) (c : CoreId) (j : Nat) (b : W256) (off : Nat)

/-- END takes the sequencer out of its segment, and out of the stream after the last one. -/
theorem actEnd_launchState : actEnd (launchState s c j b off) c j = setCore (launchState s c j b off) c
    { launched s c j b off with
      st := if (segsOf s j).length ≤ (getCore s c).seg then .done else .idle, loop := none } := by
  simp only [actEnd, getCore_launchState, launched_frame, latched_frame]
  rfl

/-- A LOOP that passes its checks takes the next K bundles of the stream as its body. -/
theorem actLoop_launchState {per : Int} {body : List W256}
    (hper : per = (sReg (getClu s c.cl.key) (jobTime s (getJob s j)) (fld (bnCtl b) 9 4)).toInt)
    (hbody : body = (coreStream s j c).drop ((launched s c j b off).sp - (launched s c j b off).bq.length))
    (hok : loopBad (fld (bnCtl b) 25 21) (fld (bnCtl b) 20 10) per (body.take (fld (bnCtl b) 25 21))
      (body[fld (bnCtl b) 25 21]?) = false) :
    actLoop (launchState s c j b off) c j (latchOf s c j b) (bnCtl b) = setCore (launchState s c j b off) c
      { launched s c j b off with
        loop := some { body := body.take (fld (bnCtl b) 25 21), n := fld (bnCtl b) 20 10
                       per := per.toNat, iter := 0, idx := 0 } } := by
  subst hper hbody
  simp only [actLoop, getCore_launchState]
  exact if_neg (Bool.eq_false_iff.1 hok)

/-- A descriptor write that meets no other of its descriptor and cycle waits for its edge. -/
theorem addTd_alone {t : State} {d : CoreId} {jt : Nat} {p : TdPend}
    (h : (getCore t d).tdPend.find? (tdMeet t.clk.dst jt p) = none) :
    addTd t d jt p = setCore t d { getCore t d with tdPend := (getCore t d).tdPend ++ [p] } := by
  simp only [addTd, h]

theorem actTdadd_launchState
    (h : (latched s c j).tdPend.find? (tdMeet s.clk.dst (jobTime s (getJob s j)) (tdaddPend s c j b)) = none) :
    actTdadd (launchState s c j b off) c (latchOf s c j b) (bnCtl b) = setCore (launchState s c j b off) c
      { launched s c j b off with tdPend := (latched s c j).tdPend ++ [tdaddPend s c j b] } := by
  have pend : actTdadd (launchState s c j b off) c (latchOf s c j b) (bnCtl b) =
      addTd (launchState s c j b off) c (jobTime s (getJob s j)) (tdaddPend s c j b) := by
    simp only [actTdadd, getCore_launchState, launched_frame]
    rfl
  have alone : (getCore (launchState s c j b off) c).tdPend.find?
      (tdMeet (launchState s c j b off).clk.dst (jobTime s (getJob s j)) (tdaddPend s c j b)) = none := by
    simp only [getCore_launchState, launched_frame]
    exact h
  rw [pend, addTd_alone alone]
  simp only [getCore_launchState, launched_frame]

end

/-- A credit of n in a cluster (R77), summed with the other changes of its core cycle. -/
theorem credit_counter (s : State) (k n x : Nat) :
    getCtr (credit s k n x) k n = { getCtr s k n with sum := (getCtr s k n).sum - (x : Int), at' := s.clk.dst } ∧
      (∀ m, m ≠ n → getCtr (credit s k n x) k m = getCtr s k m) ∧ (k, n) ∈ (credit s k n x).dirty ∧
      credit s k n x = { s with clus := (credit s k n x).clus, dirty := (credit s k n x).dirty } := by
  obtain ⟨counter, others, dirty, frame⟩ := ctrAdd_spec s k n (-(x : Int)) none
  exact ⟨counter, fun m hm => others k m (by simp [hm]), dirty, frame⟩

/-- A trace queue that is not frozen, has a cell and holds no error takes the record (R294, R296). -/
theorem pushRec_trace {s : State} {r : List Byte} (hf : s.sync.frozen = false) (hr : clsRoom s 7 (byteCells r.length) = true)
    (hq : tget 0 s.fab.qFlaws 0x201 = 0) :
    pushRec s 7 r = { s with fab := { s.fab with trace := s.fab.trace ++ [r], qFlaws := tput 0 s.fab.qFlaws 0x201 0 } } := by
  have check : itemCheck s 0x201 7 (fun s => { s with fab := { s.fab with trace := s.fab.trace.drop 1 } }) =
      { s with fab := { s.fab with qFlaws := tput 0 s.fab.qFlaws 0x201 0 } } := by
    simp only [itemCheck, hq, if_true]
  have room : clsRoom { s with fab := { s.fab with qFlaws := tput 0 s.fab.qFlaws 0x201 0 } } 7 (byteCells r.length) = true := hr
  unfold pushRec
  dsimp only
  simp only [show ((7 : Nat) = 6) = False by simp, if_false, check, hf, room, Bool.false_eq_true, and_false, if_true]

theorem length_markRec (s : State) (c : CoreId) (code : Nat) : (markRec s c code).length = 12 := rfl

/-- Settles O15: the launch leaves the control slot alone to act (`Launches.launch_ctl`), and each opcode does what the
lemmas above say. -/
theorem controlSlot : Obligations.ControlSlot := by
  intro c j b off s h hmx hst hmv
  have row {i : Instr} {p : W256 → Bool} {t : State} (hi : exec i s = .next (launch s c p)) (hp : p b = true)
      (act : ctlAct (launchState s c j b off) c j (latchOf s c j b) b = t) : exec i s = .next t := by
    rw [hi, h.launch_ctl hp hmx hst hmv, act]
  have only := onlyCore_setCore_launchState s c j b off
  refine ⟨?nop, ?ending, ?loop, ?tdadd, ?crd, ?mark⟩
  case nop =>
    intro hop
    refine ⟨_, row rfl (by simp [hop]) (ctlAct_idle hop _ _ _ _), ?_, ?_⟩
    · exact onlyCore_launchState s c j b off
    · exact getCore_launchState s c j b off
  case ending =>
    intro hop
    have act : ctlAct (launchState s c j b off) c j (latchOf s c j b) b = actEnd (launchState s c j b off) c j := by
      simp [ctlAct, hop]
    exact ⟨_, row rfl (by simp [hop]) (act.trans (actEnd_launchState s c j b off)),
      only _, getCore_setCore _ c _⟩
  case loop =>
    intro hop body per hok
    have act : ctlAct (launchState s c j b off) c j (latchOf s c j b) b =
        actLoop (launchState s c j b off) c j (latchOf s c j b) (bnCtl b) := by
      simp [ctlAct, hop]
    exact ⟨_, row rfl (by simp [hop]) (act.trans (actLoop_launchState s c j b off rfl rfl hok)), only _, getCore_setCore _ c _⟩
  case tdadd =>
    intro hop alone
    have act : ctlAct (launchState s c j b off) c j (latchOf s c j b) b =
        actTdadd (launchState s c j b off) c (latchOf s c j b) (bnCtl b) := by
      simp [ctlAct, hop]
    exact ⟨_, row rfl (by simp [hop]) (act.trans (actTdadd_launchState s c j b off alone)), only _, getCore_setCore _ c _⟩
  case crd =>
    intro hop n
    have act : ctlAct (launchState s c j b off) c j (latchOf s c j b) b =
        credit (launchState s c j b off) c.cl.key n (fld (bnCtl b) 20 5) := by
      simp [ctlAct, hop, n]
    obtain ⟨counter, others, dirty, frame⟩ := credit_counter (launchState s c j b off) c.cl.key n (fld (bnCtl b) 20 5)
    refine ⟨_, row rfl (by simp [hop]) act, counter, others, ?_, dirty, ?_⟩
    · exact getCore_launchState s c j b off
    · rw [frame]
      rfl
  case mark =>
    intro hop frozen room good
    have act : ctlAct (launchState s c j b off) c j (latchOf s c j b) b =
        pushRec (launchState s c j b off) 7 (markRec (launchState s c j b off) c (fld (bnCtl b) 25 10)) := by
      simp [ctlAct, hop]
    have taken := pushRec_trace (s := launchState s c j b off)
      (r := markRec (launchState s c j b off) c (fld (bnCtl b) 25 10)) frozen (by rw [length_markRec]; exact room) good
    refine ⟨_, row rfl (by simp [hop]) (act.trans taken), ?_, rfl, fun n => ?_, rfl⟩
    · exact getCore_launchState s c j b off
    · by_cases hn : n = 0x201
      · rw [hn, tget_tput_self]
        exact good.symm
      · exact tget_tput_ne 0 0 s.fab.qFlaws 0 hn

end Sys2Proof
end

section
/-! PROOFS. Fault codes that a cluster's units raise (R84, R142, R212): their entries, and what they leave. -/

namespace Sys2Proof

open Sys2Proof.Machine

theorem key_div (cl : Clu) : cl.key / 16 = cl.q.val := by
  have := cl.c.isLt
  unfold Clu.key
  omega

theorem key_mod (cl : Clu) : cl.key % 16 = cl.c.val := by
  have := cl.c.isLt
  unfold Clu.key
  omega

/-- The fault codes `es` raised one after the other under one page, before the job faults. -/
def postFaults (s : State) (clu page : Nat) (es : List (Nat × W32 × W32)) : State :=
  es.foldl (fun t e => postFault t clu page e) s

theorem faultsAt_eq (s : State) (clu page : Nat) (es : List (Nat × W32 × W32)) :
    faultsAt s clu page es = faultOpt (postFaults s clu page es) (residentOn s (clu / 16)) := rfl

theorem postFaults_touches (clu page : Nat) (es : List (Nat × W32 × W32)) (s : State) :
    ∃ l r, postFaults s clu page es = { s with ldg := l, regs := r } := by
  induction es generalizing s with
  | nil => exact ⟨_, _, rfl⟩
  | cons e es ih =>
    obtain ⟨l, r, h⟩ := ih (postFault s clu page e)
    obtain ⟨l', r', h'⟩ := post_touches (bump s (at' (pgCLU (clu / 16) (clu % 16)) 0x100) 1) page sevFault e.1
      (quadAcc s (clu / 16)) e.2.1 e.2.2
    refine ⟨l, r, h.trans ?_⟩
    rw [postFault, h']
    rfl

/-- A source with room for them keeps an entry of each code (R438). -/
theorem postFaults_wait {clu page : Nat} {es : List (Nat × W32 × W32)} {s : State}
    (h : (s.ldg.wait.filter (fun e => e.src == page)).length + es.length ≤ 4) :
    ∃ l, (postFaults s clu page es).ldg.wait = s.ldg.wait ++ l ∧
      l.map (fun x => (x.src, x.code, x.sev)) = es.map (fun e => (page, e.1, 3)) := by
  induction es generalizing s with
  | nil => exact ⟨[], by simp [postFaults], rfl⟩
  | cons e es ih =>
    rw [List.length_cons] at h
    have first := (postFault_logged s clu page e).wait_of_room (by omega)
    obtain ⟨l, wait, codes⟩ := ih (s := postFault s clu page e) (by
      rw [first, List.filter_append, List.length_append]
      have := List.length_filter_le (fun e => e.src == page)
        [entryNow s page sevFault e.1 (quadAcc s (clu / 16)) e.2.1 e.2.2]
      rw [List.length_singleton] at this
      omega)
    refine ⟨entryNow s page sevFault e.1 (quadAcc s (clu / 16)) e.2.1 e.2.2 :: l, ?_, ?_⟩
    · exact wait.trans (by rw [first, List.append_assoc, List.singleton_append])
    · rw [List.map_cons, List.map_cons, codes]
      rfl

/-- Codes raised on the quadrant of a resident job fault it and leave memory, clock, custody, cores and clusters. -/
theorem faultsAt_faults {s : State} {clu i : Nat} (h : residentOn s (clu / 16) = some i) (page : Nat)
    (es : List (Nat × W32 × W32)) : (getJob (faultsAt s clu page es) i).st = .faulted := by
  obtain ⟨l, r, hp⟩ := postFaults_touches clu page es s
  rw [faultsAt_eq, h]
  refine jobFault_faulted (.inl ?_)
  rw [getJob_congr (s := s) (by rw [hp])]
  exact resident_of_residentOn h

@[simp] theorem faultsAt_frame (s : State) (clu page : Nat) (es : List (Nat × W32 × W32)) :
    (faultsAt s clu page es).mem = s.mem ∧ (faultsAt s clu page es).clk = s.clk ∧
    (faultsAt s clu page es).cus = s.cus ∧ (faultsAt s clu page es).cores = s.cores ∧
    (faultsAt s clu page es).clus = s.clus := by
  obtain ⟨l, r, hp⟩ := postFaults_touches clu page es s
  simp [faultsAt_eq, hp]

/-- Of at most four codes each leaves its entry where none of the page waits. -/
theorem faultsAt_raised {s : State} {page : Nat} (hn : NoneWaits s page) (clu : Nat) {es : List (Nat × W32 × W32)}
    (hl : es.length ≤ 4) {e : Nat × W32 × W32} (he : e ∈ es) : Raised (faultsAt s clu page es) page e.1 := by
  have none : s.ldg.wait.filter (fun e => e.src == page) = [] :=
    List.filter_eq_nil_iff.2 fun x hx => by simpa using hn x hx
  obtain ⟨l, wait, codes⟩ := postFaults_wait (s := s) (clu := clu) (page := page) (es := es) (by simpa [none] using hl)
  have mem : (page, e.1, 3) ∈ l.map (fun x => (x.src, x.code, x.sev)) := codes ▸ List.mem_map.2 ⟨e, he, rfl⟩
  obtain ⟨x, hx, hxe⟩ := List.mem_map.1 mem
  simp only [Prod.mk.injEq] at hxe
  have kept : (faultsAt s clu page es).ldg = (postFaults s clu page es).ldg := by simp [faultsAt_eq]
  refine ⟨x, ?_, hxe⟩
  rw [kept, wait]
  exact List.mem_append_right _ hx

end Sys2Proof
end

section
/-! PROOFS. Descriptor writes and DESC_RANGE (R68, R72, R480), and the obligation O16. -/

namespace Sys2Proof

open Sys2Proof.Machine

/-! ## A descriptor write from its edge on (R68) -/

/-- The one write on its way has landed: its descriptor has the value, out of range or not. -/
theorem settleTd_single {dst jt : Nat} {k : Core} {p : TdPend} (hp : k.tdPend = [p]) (hv : tdVisible dst jt p = true) :
    settleTd dst jt k = { k with
      td := tput 0 k.td p.td (p.val &&& tdMask)
      tdOver := (if p.ovr then [p.td] else []) ++ k.tdOver.filter (· ≠ p.td), tdPend := [] } := by
  simp [settleTd, hp, hv, loopN]

theorem mem_tdOver_after (p : TdPend) (os : List Nat) :
    p.td ∈ (if p.ovr then [p.td] else []) ++ os.filter (· ≠ p.td) ↔ p.ovr = true := by
  cases p.ovr <;> simp

/-! ## A descriptor out of its range at a latch (R72, R480) -/

theorem tdLatch_over {k : Core} {n : Nat} (h : n ∈ k.tdOver) : (tdLatch k n).2 = true := by
  simp [tdLatch, h]

theorem mxCheck_over {s : State} {k : Core} {w : W64} {n : Nat} (hn : n ∈ k.tdOver) (hi : mxIllegal w = false)
    (h : (fld w 63 58 = 1 ∨ fld w 63 58 = 2) ∧ (mxTda w = n ∨ mxTdb w = n) ∨
      3 ≤ fld w 63 58 ∧ fld w 63 58 ≤ 5 ∧ mxTdc w = n) : mxCheck s k w = some 0x0304 := by
  have hop : fld w 63 58 ≠ 0 := by omega
  have bad : fld w 63 58 ≤ 2 ∧ ((tdLatch k (mxTda w)).2 = true ∨ (tdLatch k (mxTdb w)).2 = true) ∨
      (3 ≤ fld w 63 58 ∧ fld w 63 58 ≤ 5 ∧ (tdLatch k (mxTdc w)).2 = true) := by
    rcases h with ⟨hop, rfl | rfl⟩ | ⟨hlo, hhi, rfl⟩
    · exact .inl ⟨by omega, .inl (tdLatch_over hn)⟩
    · exact .inl ⟨by omega, .inr (tdLatch_over hn)⟩
    · exact .inr ⟨hlo, hhi, tdLatch_over hn⟩
  simp only [mxCheck, hi, Bool.false_eq_true, if_false, if_neg hop, if_pos bad]

theorem stCheck_over {k : Core} {w : W64} {n : Nat} (hn : n ∈ k.tdOver) (hi : stIllegal w = false)
    (hop : fld w 63 58 ≠ 0) (h : stTdd w = n ∨ n ∈ stSrcs w ∨ stRed w ≠ 0 ∧ stTdr w = n) :
    stCheck k w = some 0x0304 := by
  have bad : (tdLatch k (stTdd w)).2 = true ∨ ((stSrcs w).map (tdLatch k)).any Prod.snd = true ∨
      (stRed w ≠ 0 ∧ (tdLatch k (stTdr w)).2 = true) := by
    rcases h with rfl | hs | ⟨hr, rfl⟩
    · exact .inl (tdLatch_over hn)
    · exact .inr (.inl (List.any_eq_true.2 ⟨_, List.mem_map.2 ⟨n, hs, rfl⟩, tdLatch_over hn⟩))
    · exact .inr (.inr ⟨hr, tdLatch_over hn⟩)
  simp only [stCheck, hi, Bool.false_eq_true, if_false, if_neg hop, if_pos bad]

/-- The code of a slot, if its check fails. -/
def slotCode (slot : Nat) (o : Option Nat) : List (Nat × Nat) := (o.map (slot, ·)).toList

theorem length_slotCode_le (slot : Nat) (o : Option Nat) : (slotCode slot o).length ≤ 1 := by
  cases o <;> simp [slotCode]

theorem latchFaults_eq (s : State) (c : CoreId) (j : Nat) (k : Core) (b : W256) :
    latchFaults s c j k b = slotCode 0 (if ctlIllegal b then some 0x0303 else none) ++ slotCode 1 (mxCheck s k (bnMx b))
      ++ slotCode 2 (stCheck k (bnSt b)) ++ slotCode 3 (mvCheck s c j k (bnMv b)) := by
  have code (slot : Nat) (o : Option Nat) : (match o with | some x => [(slot, x)] | none => []) = slotCode slot o := by
    cases o <;> rfl
  simp only [← code]
  rfl

/-- A bundle raises at most one code a slot (R480). -/
theorem length_latchFaults_le (s : State) (c : CoreId) (j : Nat) (k : Core) (b : W256) :
    (latchFaults s c j k b).length ≤ 4 := by
  have ctl := length_slotCode_le 0 (if ctlIllegal b then some 0x0303 else none)
  have mx := length_slotCode_le 1 (mxCheck s k (bnMx b))
  have st := length_slotCode_le 2 (stCheck k (bnSt b))
  have mv := length_slotCode_le 3 (mvCheck s c j k (bnMv b))
  simp only [latchFaults_eq, List.length_append]
  omega

/-- A bundle with a failing slot raises the codes and starts no unit (R57, R480). -/
theorem latchBundle_faults {s : State} {c : CoreId} {j : Nat} {b : W256} (off : Nat) (hp : bnPft b = false)
    (hf : latchFaults s c j (latched s c j) b ≠ []) :
    latchBundle s c j (jobTime s (getJob s j)) b off = coreFaults (launchState s c j b off) c.cl.key
      ((latchFaults s c j (latched s c j) b).map (fun f => (f.2, d0Core c.k.val (bnOffset b), d1Slot f.1 f.2 b))) := by
  have some' : (latchFaults s c j (settleTd s.clk.dst (jobTime s (getJob s j)) (getCore s c)) b).isEmpty = false :=
    Bool.eq_false_iff.2 fun h => hf (List.isEmpty_iff.1 h)
  unfold latchBundle
  simp only [some', hp, Bool.not_false, Bool.false_eq_true, if_false, if_true]
  rfl

/-- Settles O16: a write by what the table reads once it has landed (`settleTd_single`), DESC_RANGE by the check of the
slot that latches the descriptor (`mxCheck_over`, `stCheck_over`). -/
theorem descRange : Obligations.DescRange := by
  refine ⟨?write, ?range⟩
  case write =>
    intro c j b off dst jt s h hmx hst hmv hop hnone hdst p
    have act : ctlAct (launchState s c j b off) c j (latchOf s c j b) b =
        actTdadd (launchState s c j b off) c (latchOf s c j b) (bnCtl b) := by
      simp [ctlAct, hop]
    have row : exec (.tdadd c) s = .next (launch s c (fun b => ctlOp b == 3)) := rfl
    refine ⟨_, row.trans (congrArg _ ((h.launch_ctl (by simp [hop]) hmx hst hmv).trans
      (act.trans (actTdadd_launchState s c j b off (by rw [hnone]; rfl))))), ?_⟩
    have landed := settleTd_single (dst := dst) (jt := jt) (p := p)
      (k := { launched s c j b off with tdPend := (latched s c j).tdPend ++ [p] }) (by simp [hnone])
      (by simpa [tdVisible, p, tdaddPend] using hdst)
    rw [getCore_setCore, landed]
    refine ⟨tget_tput_self _ _ _ _, fun m hm => ?_, mem_tdOver_after p _⟩
    simp only [tget_tput_ne _ _ _ _ hm, launched_frame]
  case range =>
    intro c j i n b off s h hw hh hp hop hg hi hn hslot hnone
    have due : launch s c (fun b => ctlOp b == 0 || decide (5 < ctlOp b)) = latchBundle s c j _ b off :=
      h.launch_eq (by simp [hop]) hw (by simp [hh]) hg
    have fails : ∃ x, (x, 0x0304) ∈ latchFaults s c j (latched s c j) b := by
      rcases hslot with ⟨hill, hmx⟩ | ⟨hill, hst, htd⟩
      · exact ⟨1, by simp [latchFaults_eq, slotCode, mxCheck_over (s := s) hn hill hmx]⟩
      · exact ⟨2, by simp [latchFaults_eq, slotCode, stCheck_over hn hill hst htd]⟩
    obtain ⟨x, hx⟩ := fails
    have row : exec (.nop c) s = .next (launch s c (fun b => ctlOp b == 0 || decide (5 < ctlOp b))) := rfl
    refine ⟨_, row.trans (congrArg _ (due.trans (latchBundle_faults off hp (List.ne_nil_of_mem hx)))), ?_, ?_, ?_⟩
    · exact faultsAt_faults (s := launchState s c j b off) (by rw [key_div]; exact hi) _ _
    · rw [coreFaults, (faultsAt_frame _ _ _ _).1]
      rfl
    · have page : pgCLU (c.cl.key / 16) (c.cl.key % 16) = pgCLU c.cl.q.val c.cl.c.val := by rw [key_div, key_mod]
      rw [coreFaults, page]
      exact faultsAt_raised (s := launchState s c j b off) hnone c.cl.key
        (by rw [List.length_map]; exact length_latchFaults_le _ _ _ _ _) (List.mem_map.2 ⟨_, hx, rfl⟩)

end Sys2Proof
end

section
/-! PROOFS. The fetch slots of cores, row engines and route units (R56, R127, R148, R193), and the obligation O14. -/

namespace Sys2Proof

open Sys2Proof.Machine

theorem onlyClu_setClu (s : State) (cl : Clu) (x : Cluster) : OnlyClu s (setClu s cl.key x) cl :=
  ⟨rfl, fun _ hk => getClu_setClu_ne s x hk⟩

/-! ## Bundles (R56) -/

/-- The bundles that a fetch slot of a core with room takes: of one 64 B line, no more than fit. -/
def fetched (s : State) (c : CoreId) (j : Nat) : List W256 :=
  ((coreStream s j c).drop (getCore s c).sp).take (min 2 (64 - ((getCore s c).bq.length + heldBody (getCore s c))))

section
variable {s : State} {c : CoreId} {j : Nat} (hj : residentOn s c.cl.q.val = some j) (hf : (getCore s c).st ≠ .fault)
  (ha : (getJob s j).st ≠ .admitting)
include hj hf ha

theorem exec_fetchSlot_room (hr : (getCore s c).bq.length + heldBody (getCore s c) < 64) :
    exec (.fetchSlot c) s = .next (setCore { s with flaws := s.flaws.filter (fun f =>
      !((List.range (fetched s c j).length).map (fun i => bqAddr c ((getCore s c).sp + i))).contains (f.1 / 32 * 32)) } c
      { getCore s c with bq := (getCore s c).bq ++ fetched s c j, sp := (getCore s c).sp + (fetched s c j).length }) := by
  change execFetchSlot c s = _
  simp only [execFetchSlot, hj, hf, ha, or_self, if_false, if_neg (not_le.2 hr), fetched]

theorem exec_fetchSlot_full (hr : 64 ≤ (getCore s c).bq.length + heldBody (getCore s c)) :
    exec (.fetchSlot c) s = .next (bump s (at' (pgCLU c.cl.q.val c.cl.c.val) 0x108) 1) := by
  change execFetchSlot c s = _
  simp only [execFetchSlot, hj, hf, ha, or_self, if_false, if_pos hr]

end

/-- Writing entries of the queue whole takes the errors of these entries alone (R148). -/
theorem mem_flaws_written {fs : Tab Nat} {f : Nat × Nat} {n : Nat} {a : Nat → Nat} :
    f ∈ fs.filter (fun f => !((List.range n).map a).contains (f.1 / 32 * 32)) ↔
      f ∈ fs ∧ ∀ i < n, f.1 / 32 * 32 ≠ a i := by
  rw [List.mem_filter]
  refine and_congr_right fun _ => ?_
  simpa using forall₂_congr fun _ _ => not_congr eq_comm

/-! ## Commands (R127, R193) -/

/-- The commands that a fetch slot of a unit with room takes. -/
def fetchedCmds (s : State) (cl : Clu) (rt : Bool) (j : Nat) : List W256 :=
  ((unitStream s j cl.key rt).drop (unitOf rt (getClu s cl.key)).sp).take
    (min 2 (16 - (unitOf rt (getClu s cl.key)).q.length))

section
variable {s : State} {cl : Clu} {j : Nat} (hj : residentOn s cl.q.val = some j) (ha : (getJob s j).st ≠ .admitting)
  (rt : Bool)
include hj ha

theorem unitFetch_room (hr : (unitOf rt (getClu s cl.key)).q.length < 16) :
    unitFetch s cl rt = setUnit s cl.key rt { unitOf rt (getClu s cl.key) with
      q := (unitOf rt (getClu s cl.key)).q ++ fetchedCmds s cl rt j
      sp := (unitOf rt (getClu s cl.key)).sp + (fetchedCmds s cl rt j).length } := by
  simp only [unitFetch, hj, ha, if_false, if_neg (not_le.2 hr), fetchedCmds]

theorem unitFetch_full (hr : 16 ≤ (unitOf rt (getClu s cl.key)).q.length) :
    unitFetch s cl rt = bump s (at' (unitPage rt cl.key) (if rt then 0x118 else 0x110)) 1 := by
  simp only [unitFetch, hj, ha, if_false, if_pos hr]

end

/-- The unit that is set reads as set, and the cluster's other unit as before. -/
theorem setUnit_spec (s : State) (cl : Clu) (rt : Bool) (u : CmdUnit) :
    OnlyClu s (setUnit s cl.key rt u) cl ∧ unitOf rt (getClu (setUnit s cl.key rt u) cl.key) = u ∧
      unitOf (!rt) (getClu (setUnit s cl.key rt u) cl.key) = unitOf (!rt) (getClu s cl.key) := by
  refine ⟨onlyClu_setClu s cl _, ?_, ?_⟩ <;> cases rt <;> simp [setUnit, unitOf]

/-- A counter that goes up by one, and nothing else. -/
theorem bump_one_spec (s : State) (o : Nat) :
    reg (bump s o 1) o = satAdd (reg s o) 1 ∧ RegsKept s (bump s o 1) [o] ∧
      bump s o 1 = { s with regs := (bump s o 1).regs } :=
  ⟨reg_bump s o 1, regsKept_bump s o 1, rfl⟩

/-- Settles O14: with room the next bundles or commands of the stream (`exec_fetchSlot_room`, `unitFetch_room`), a full
queue counts (`bump_one_spec`). -/
theorem fetchSlots : Obligations.FetchSlots := by
  refine ⟨?room, ?full, ?units⟩
  case room =>
    intro c j s hj hf ha hr n bs
    exact ⟨_, exec_fetchSlot_room hj hf ha hr, ⟨rfl, fun d hd => tget_tput_ne _ _ _ _ hd⟩, getCore_setCore _ c _,
      fun f => mem_flaws_written⟩
  case full =>
    intro c j s hj hf ha hr
    exact ⟨_, exec_fetchSlot_full hj hf ha hr, bump_one_spec s _⟩
  case units =>
    intro cl j s hj ha e he u
    have row : exec e.2.1 s = .next (unitFetch s cl e.1) ∧ e.2.2 = if e.1 then 0x118 else 0x110 := by
      rcases List.mem_pair.1 he with rfl | rfl
      · exact ⟨rfl, rfl⟩
      · exact ⟨rfl, rfl⟩
    obtain ⟨hi, ho⟩ := row
    refine ⟨fun hr => ?_, fun hr => ?_⟩
    · exact ⟨_, hi.trans (congrArg _ (unitFetch_room hj ha e.1 hr)), setUnit_spec s cl e.1 _⟩
    · exact ⟨_, hi.trans (congrArg _ (unitFetch_full hj ha e.1 hr)), ho ▸ bump_one_spec s _⟩

end Sys2Proof
end

section
/-! PROOFS. Writes of S and M registers (R62, R83): what launches and the control core see, and the obligation O30. -/

namespace Sys2Proof

open Sys2Proof.Machine

/-! ## Older writes that stay (R62) -/

/-- Writes of another register all stay. -/
theorem find?_keepSeen_ne {t r q : Nat} (h : q ≠ r) (p : SWrite → Bool) (done : Bool) (l : List SWrite) :
    (keepSeen t r done l).find? (fun w => w.reg == q && p w) = l.find? (fun w => w.reg == q && p w) := by
  induction l generalizing done with
  | nil => rfl
  | cons w l ih =>
    by_cases hw : w.reg = r
    · have other : (r == q) = false := by simpa using h.symm
      have drops : (w :: l).find? (fun w => w.reg == q && p w) = l.find? (fun w => w.reg == q && p w) := by
        simp only [List.find?_cons, hw, other, Bool.false_and]
      rw [drops]
      cases done with
      | true => simp only [keepSeen, hw, ne_eq, not_true_eq_false, if_false, if_true, ih]
      | false =>
        simp only [keepSeen, hw, ne_eq, not_true_eq_false, if_false, Bool.false_eq_true, List.find?_cons, other,
          Bool.false_and, ih]
    · simp only [keepSeen, if_pos hw, List.find?_cons, ih]

/-- Of the register itself the newest write that a launch at `y`, not before `t`, can see stays. -/
theorem find?_keepSeen_same {t y r : Nat} (h : t ≤ y) (l : List SWrite) :
    (keepSeen t r false l).find? (fun w => w.reg == r && decide (w.at' + 24 ≤ y)) =
      l.find? (fun w => w.reg == r && decide (w.at' + 24 ≤ y)) := by
  induction l with
  | nil => rfl
  | cons w l ih =>
    by_cases hw : w.reg = r
    · by_cases seen : w.at' + 24 ≤ y
      · simp [keepSeen, hw, seen]
      · have late : ¬ w.at' + 24 ≤ t := by omega
        simp [keepSeen, hw, seen, late, ih]
    · simp [keepSeen, hw, ih]

/-! ## What a launch sees (R62) -/

/-- The newest write of register `r` that a launch at job time `y` sees. -/
def seenAt (k : Cluster) (y r : Nat) : BitVec 96 :=
  ((k.sw.find? (fun w => w.reg == r && decide (w.at' + 24 ≤ y))).map SWrite.val).getD 0

theorem swFind_eq_seenAt (k : Cluster) {y : Nat} (r : Nat) (h : 24 ≤ y) : swFind k.sw r (y - 24) = seenAt k y r := by
  have same : (fun w : SWrite => w.reg == r && decide (w.at' ≤ y - 24)) =
      (fun w => w.reg == r && decide (w.at' + 24 ≤ y)) := by
    funext w
    congr 2
    rw [eq_iff_iff]
    omega
  unfold swFind seenAt
  rw [same]
  cases k.sw.find? (fun w => w.reg == r && decide (w.at' + 24 ≤ y)) <;> rfl

/-- Before the first visible instant nothing is seen. -/
theorem seenAt_early (k : Cluster) {y : Nat} (r : Nat) (h : y < 24) : seenAt k y r = 0 := by
  have none : k.sw.find? (fun w => w.reg == r && decide (w.at' + 24 ≤ y)) = none := by
    simp only [List.find?_eq_none, Bool.and_eq_true, decide_eq_true_eq, not_and]
    intros
    omega
  simp [seenAt, none]

theorem sReg_eq_seenAt (k : Cluster) (y r : Nat) : sReg k y r = if r = 0 then 0 else BitVec.ofNat 32 (seenAt k y r).toNat := by
  unfold sReg
  by_cases hr : r = 0
  · simp [hr]
  · by_cases hy : y < 24
    · simp [hr, hy, seenAt_early k r hy]
    · simp [hr, hy, swFind_eq_seenAt k r (not_lt.1 hy)]

theorem mReg_eq_seenAt (k : Cluster) (y m : Nat) : mReg k y m = seenAt k y (64 + m) := by
  unfold mReg
  by_cases hy : y < 24
  · rw [if_pos hy, seenAt_early k _ hy]
  · rw [if_neg hy, swFind_eq_seenAt k _ (not_lt.1 hy)]

section
variable (k : Cluster) (x r : Nat) (v : BitVec 96) (hr : r ≠ 0)
include hr

theorem regWrite_sw : (regWrite k x r v).sw = { at' := x, reg := r, val := v } :: keepSeen x r false k.sw := by
  simp [regWrite, hr]

theorem seenAt_regWrite_after {y : Nat} (h : x + 24 ≤ y) : seenAt (regWrite k x r v) y r = v := by
  simp [seenAt, regWrite_sw k x r v hr, h]

theorem seenAt_regWrite_before {y : Nat} (hx : x ≤ y) (h : y < x + 24) :
    seenAt (regWrite k x r v) y r = seenAt k y r := by
  have late : ¬ x + 24 ≤ y := by omega
  simp only [seenAt, regWrite_sw k x r v hr, List.find?_cons, late, decide_false, Bool.and_false,
    find?_keepSeen_same hx]

theorem seenAt_regWrite_ne {q : Nat} (hq : q ≠ r) (y : Nat) : seenAt (regWrite k x r v) y q = seenAt k y q := by
  have other : (r == q) = false := by simpa using hq.symm
  simp only [seenAt, regWrite_sw k x r v hr, List.find?_cons, other, Bool.false_and, find?_keepSeen_ne hq]

end

/-- Settles O30: sReg and mReg by the newest write that is seen (`seenAt`), and what a write changes of it. -/
theorem registerWriteVisibility : Obligations.RegisterWriteVisibility := by
  refine ⟨?scalar, ?mask, ?zero⟩
  case scalar =>
    intro k x r v hr hr64
    have h0 : r ≠ 0 := by omega
    refine ⟨fun y hy => ?_, fun y hx hy => ?_, fun q y hq => ?_, fun m y => ?_⟩
    · rw [sReg_eq_seenAt, if_neg h0, seenAt_regWrite_after k x r v h0 hy]
    · rw [sReg_eq_seenAt, sReg_eq_seenAt, seenAt_regWrite_before k x r v h0 hx hy]
    · rw [sReg_eq_seenAt, sReg_eq_seenAt, seenAt_regWrite_ne k x r v h0 hq]
    · rw [mReg_eq_seenAt, mReg_eq_seenAt, seenAt_regWrite_ne k x r v h0 (by omega)]
  case mask =>
    intro k x i v _
    have h0 : 64 + i ≠ 0 := by omega
    refine ⟨fun y hy => ?_, fun y hx hy => ?_, fun m y hm => ?_, fun r y hr => ?_⟩
    · rw [mReg_eq_seenAt, seenAt_regWrite_after k x _ v h0 hy]
    · rw [mReg_eq_seenAt, mReg_eq_seenAt, seenAt_regWrite_before k x _ v h0 hx hy]
    · rw [mReg_eq_seenAt, mReg_eq_seenAt, seenAt_regWrite_ne k x _ v h0 (by omega)]
    · rw [sReg_eq_seenAt, sReg_eq_seenAt, seenAt_regWrite_ne k x _ v h0 (by omega)]
  case zero =>
    intro k x y r v
    refine ⟨by simp [regWrite], fun hr => ?_⟩
    rw [sReg_eq_seenAt, if_pos hr]

/-! ## What the control core sees (R80, R83) -/

theorem curReg_regWrite_same (k : Cluster) (x r : Nat) (v : BitVec 96) (hr : r ≠ 0) : curReg (regWrite k x r v) r = v := by
  simp [curReg, regWrite_sw k x r v hr]

theorem curReg_regWrite_ne (k : Cluster) (x r : Nat) (v : BitVec 96) {q : Nat} (hq : q ≠ r) :
    curReg (regWrite k x r v) q = curReg k q := by
  by_cases hr : r = 0
  · simp [regWrite, hr]
  · have other : (r == q) = false := by simpa using hq.symm
    have kept := find?_keepSeen_ne (t := x) hq (fun _ => true) false k.sw
    simp only [Bool.and_true] at kept
    simp only [curReg, regWrite_sw k x r v hr, List.find?_cons, other, kept]

/-- A write of S[d] reads back, S0 stays 0, and no other S register changes. -/
theorem curS_regWrite (k : Cluster) (x d : Nat) (v : BitVec 96) (r : Nat) :
    curS (regWrite k x d v) r = if r = d ∧ d ≠ 0 then BitVec.ofNat 32 v.toNat else curS k r := by
  unfold curS
  by_cases hr : r = 0
  · have : ¬ (r = d ∧ d ≠ 0) := fun ⟨h, h'⟩ => h' (h ▸ hr)
    rw [if_pos hr, if_neg this, if_pos hr]
  · by_cases hd : r = d
    · subst hd
      simp [hr, curReg_regWrite_same k x r v hr]
    · simp [hr, hd, curReg_regWrite_ne k x d v hd]

theorem curM_regWrite_ne (k : Cluster) (x d : Nat) (v : BitVec 96) {m : Nat} (h : 64 + m ≠ d) :
    curM (regWrite k x d v) m = curM k m := curReg_regWrite_ne k x d v h

theorem curM_regWrite_same (k : Cluster) (x m : Nat) (v : BitVec 96) : curM (regWrite k x (64 + m) v) m = v :=
  curReg_regWrite_same k x _ v (by omega)

theorem regWrite_eq (k : Cluster) (x r : Nat) (v : BitVec 96) : regWrite k x r v = { k with sw := (regWrite k x r v).sw } := by
  unfold regWrite
  split <;> rfl

end Sys2Proof
end

section
/-! PROOFS. The control core: instructions that issue, the rows that write S[D], the ALU (R80 to R83), and the obligation
O27. -/

namespace Sys2Proof

open Sys2Proof.Machine

theorem OnlyClu.trans {s t u : State} {cl : Clu} (h : OnlyClu s t cl) (h' : OnlyClu t u cl) : OnlyClu s u cl := by
  obtain ⟨ht, hk⟩ := h
  obtain ⟨hu, hk'⟩ := h'
  refine ⟨?_, fun k hk'' => (hk' k hk'').trans (hk k hk'')⟩
  rw [hu, ht]

/-! ## An instruction that issues (R80) -/

/-- The cluster after its control core has issued an instruction and goes on at `n`, over a branch bubble where one was
`taken`; only WAITJ leaves a stall. -/
def issued (s : State) (cl : Clu) (w : W32) (t : State) (n : Nat) (taken : Bool) : State :=
  setClu t cl.key { getClu t cl.key with
    pc := n, nextJ := s.clk.dst + (if taken then 12 else 6)
    stall := if fld w 31 26 = 0x0E then (getClu t cl.key).stall else none }

section
variable {s : State} {cl : Clu} {j : Nat} {w : W32} (h : CtlReady s cl j w) {p : Nat → Bool}
  {f : Nat → W32 → Nat → CtlRes} (hp : p (fld w 31 26) = true)
include h hp

theorem CtlReady.ctlStep_eq : ctlStep s cl p f =
    match f j w (jobTime s (getJob s j)) with
    | none => ccIllegal s cl.key (getClu s cl.key).pc
    | some (t, npc, taken) =>
      if npc < 0 ∨ 4095 < npc then ccIllegal t cl.key (getClu s cl.key).pc
      else issued s cl w t npc.toNat taken := by
  obtain ⟨slot, on, free, edge, next, go, word, -⟩ := h
  unfold ctlStep
  simp only [slot, on, free, edge, not_lt.2 next, word, hp]
  rw [if_neg]
  · rcases f j w (jobTime s (getJob s j)) with _ | ⟨t, npc, taken⟩
    · rfl
    · simp only [issued, decide_eq_true_eq]
  · cases hs : (getClu s cl.key).stall with
    | none => simp
    | some x => simpa using go x hs

theorem CtlReady.ctlStep_some {t : State} {npc : Int} {n : Nat} {taken : Bool}
    (hf : f j w (jobTime s (getJob s j)) = some (t, npc, taken)) (hn : (n : Int) = npc) (hlt : n < 4096) :
    ctlStep s cl p f = issued s cl w t n taken := by
  rw [h.ctlStep_eq hp, hf]
  subst hn
  exact if_neg (by omega)

theorem CtlReady.ctlStep_none (hf : f j w (jobTime s (getJob s j)) = none) :
    ctlStep s cl p f = ccIllegal s cl.key (getClu s cl.key).pc := by
  rw [h.ctlStep_eq hp, hf]

end

section
variable {s : State} {cl : Clu} {w : W32}

theorem getClu_issued (t : State) (n : Nat) (taken : Bool) : getClu (issued s cl w t n taken) cl.key =
    { getClu t cl.key with
      pc := n, nextJ := s.clk.dst + (if taken then 12 else 6)
      stall := if fld w 31 26 = 0x0E then (getClu t cl.key).stall else none } := getClu_setClu _ _ _

theorem onlyClu_issued {t : State} (h : OnlyClu s t cl) (n : Nat) (taken : Bool) :
    OnlyClu s (issued s cl w t n taken) cl := h.trans (onlyClu_setClu t cl _)

end

/-- A row that sets S[d] to `v` and goes on does so and no more. -/
theorem CtlReady.wrote {s : State} {cl : Clu} {j : Nat} {w : W32} (h : CtlReady s cl j w) {p : Nat → Bool}
    {f : Nat → W32 → Nat → CtlRes} (hp : p (fld w 31 26) = true) (hw : fld w 31 26 ≠ 0x0E) {d : Nat} {v : W32}
    (hd : d < 64) (hf : f j w (jobTime s (getJob s j)) = ctlSet s cl (jobTime s (getJob s j)) d v) :
    CtlWrote s (ctlStep s cl p f) cl d v := by
  have room : (getClu s cl.key).pc + 1 < 4096 := by have := h.room; omega
  rw [h.ctlStep_some hp (n := (getClu s cl.key).pc + 1) hf rfl room]
  have same : BitVec.ofNat 32 (v.setWidth 96).toNat = v := by
    apply BitVec.eq_of_toNat_eq
    have := v.isLt
    simp only [BitVec.toNat_ofNat, BitVec.toNat_setWidth]
    omega
  refine ⟨onlyClu_issued (onlyClu_setClu s cl _) _ _, fun r _ => ?_, fun m _ => ?_, ?_⟩
  · rw [getClu_issued, getClu_setClu]
    exact (curS_regWrite (getClu s cl.key) _ d _ r).trans (by rw [same])
  · rw [getClu_issued, getClu_setClu]
    exact curM_regWrite_ne (getClu s cl.key) _ d _ (by omega)
  · rw [getClu_issued, getClu_setClu, regWrite_eq]
    simp [hw]

theorem ciD_lt (w : W32) : ciD w < 64 := Nat.mod_lt _ (by decide)

/-! ## The ALU's functions as numbers (R82, R83) -/

theorem toInt_sub_emod (a b : W32) : ((a - b).toInt - (a.toInt - b.toInt)) % 2 ^ 32 = 0 := by
  rw [BitVec.toInt_sub, Int.bmod_def]
  omega

theorem toInt_sshiftRight_ediv (a : W32) (n : Nat) : (a.sshiftRight n).toInt = a.toInt / 2 ^ n := by
  rw [BitVec.toInt_sshiftRight, Int.shiftRight_eq_div_pow]
  norm_cast

theorem ftoi_nan {x : Ext} (h : x.isNan = true) : ftoi x = 0 := by simp [ftoi, h]

theorem toInt_ftoi_fin (n : Bool) (m : Nat) (e : Int) :
    (ftoi (.fin n m e)).toInt = max (-2147483648) (min 2147483647 (Ext.roundInt (.fin n m e))) := by
  simp only [ftoi, Ext.isNan, Ext.isInf, Bool.false_eq_true, if_false]
  generalize Ext.roundInt (.fin n m e) = i
  rw [BitVec.toInt_ofInt, Int.bmod_def]
  omega

theorem toInt_ftoi_inf (n : Bool) : (ftoi (.inf n)).toInt = if n then -2147483648 else 2147483647 := by
  cases n <;> decide

/-- FTOI by the class of its operand. -/
theorem aluFn_ftoi (a b : W32) : ∃ v, aluFn 0x16 a b = some v ∧ ((val a).isNan = true → v = 0) ∧
    (∀ n m e, val a = .fin n m e → v.toInt = max (-2147483648) (min 2147483647 (Ext.roundInt (val a)))) ∧
    (∀ n, val a = .inf n → v.toInt = if n then -2147483648 else 2147483647) :=
  ⟨ftoi (val a), rfl, ftoi_nan, fun n m e h => h ▸ toInt_ftoi_fin n m e, fun n h => h ▸ toInt_ftoi_inf n⟩

theorem aluFn_reserved (a b : W32) {fn : Nat} (h : 0xC < fn ∧ fn < 0x10 ∨ 0x16 < fn) : aluFn fn a b = none := by
  unfold aluFn
  repeat rw [if_neg (by omega)]

theorem dataAddr_word {k : Cluster} {w : W32} {x : Nat} (h : (x : Int) = (curS k (ciA w)).toInt + sfld w 13 0)
    (h4 : x % 4 = 0) (hx : x < 65536) : dataAddr k w = some x := by
  unfold dataAddr ciImm
  rw [← h]
  exact if_neg (by omega)

/-- Settles O27: each row is one write of S[D] (`CtlReady.wrote`), the ALU's functions by the numbers that they stand for. -/
theorem controlWrites : Obligations.ControlWrites := by
  refine ⟨?rows, fun a b => ⟨_, rfl, BitVec.toNat_add a b⟩, fun a b => ⟨_, rfl, toInt_sub_emod a b⟩, fun a b i => ?logic,
    fun a b => ⟨_, rfl, ?shl⟩, fun a b => ⟨_, rfl, ?shr⟩, fun a b => ⟨_, rfl, toInt_sshiftRight_ediv a _⟩,
    fun a b => ⟨_, rfl, BitVec.toNat_mul a b⟩, fun a b => ⟨_, rfl, ?least⟩, fun a b => ⟨_, rfl, ?largest⟩, fun _ _ => rfl,
    fun _ _ => rfl, aluFn_ftoi, fun a b fn h => aluFn_reserved a b h⟩
  case rows =>
    intro cl j w s h k jt a
    have row {i : Instr} {p : Nat → Bool} {f : Nat → W32 → Nat → CtlRes} {v : W32}
        (hi : exec i s = .next (ctlStep s cl p f)) (hp : p (fld w 31 26) = true) (hw : fld w 31 26 ≠ 0x0E)
        (hf : f j w jt = ctlSet s cl jt (ciD w) v) : ∃ t, exec i s = .next t ∧ CtlWrote s t cl (ciD w) v :=
      ⟨_, hi, h.wrote hp hw (ciD_lt w) hf⟩
    refine ⟨fun v hop hv => ?alu, ?immediates, fun hop h7 v hv => ?shift, fun hop x hx h4 hlt => ?load,
      fun hop hpart hlow hhigh => ?mget, fun hop hlow => ?rdcc⟩
    case alu =>
      have value : aluFn (fld w 7 0) (curS (getClu s cl.key) (ciA w)) (curS (getClu s cl.key) (ciB w)) = some v := hv
      exact row rfl (by simp [hop]) (by simp [hop]) (by simp [hop, value])
    case immediates =>
      simp only [List.forall_mem_cons]
      refine ⟨?_, ?_, ?_, ?_, ?_, ?_, by simp⟩ <;> intro hop <;> exact row rfl (by simp [hop]) (by simp [hop]) rfl
    case shift =>
      refine row rfl (by simp [hop]) (by simp [hop]) ?_
      rcases hv with ⟨hsel, rfl⟩ | ⟨hsel, rfl⟩ | ⟨hsel, rfl⟩ <;> simp [hsel, h7, shiftBy, a, k]
    case load =>
      exact row rfl (by simp [hop]) (by simp [hop]) (by simp only [dataAddr_word hx h4 hlt, k])
    case mget =>
      exact row rfl (by simp [hop]) (by simp [hop]) (if_neg (by simp [hpart, hlow, hhigh]))
    case rdcc =>
      exact row rfl (by simp [hop]) (by simp [hop]) (if_neg (by simp [hlow]))
  case logic =>
    exact ⟨_, _, _, rfl, rfl, rfl, by simp [bit], by simp [bit], by simp [bit]⟩
  case shl => simp [shiftBy, Nat.shiftLeft_eq]
  case shr => simp [shiftBy, Nat.shiftRight_eq_div_pow]
  case least => split <;> omega
  case largest => split <;> omega

end Sys2Proof
end

section
/-! PROOFS. The control core: branches, JMP and the illegal instruction (R80 to R82, R84), and the obligation O28. -/

namespace Sys2Proof

open Sys2Proof.Machine

/-- What an instruction leaves that only goes on, at `n`. -/
theorem getClu_issued_go {w : W32} (hw : fld w 31 26 ≠ 0x0E) (s : State) (cl : Clu) (n : Nat) (taken : Bool) :
    getClu (issued s cl w s n taken) cl.key =
      { getClu s cl.key with pc := n, nextJ := s.clk.dst + (if taken then 12 else 6), stall := none } := by
  rw [getClu_issued, if_neg hw]

section
variable {s : State} {cl : Clu} {j : Nat} {w : W32} (h : CtlReady s cl j w) {p : Nat → Bool}
  (hp : p (fld w 31 26) = true) (hw : fld w 31 26 ≠ 0x0E)
include h hp hw

/-- An instruction that only goes on changes the cluster's pc, its next edge and its stall. -/
theorem CtlReady.ctlStep_go {f : Nat → W32 → Nat → CtlRes} {npc : Int} {n : Nat} {taken : Bool}
    (hf : f j w (jobTime s (getJob s j)) = some (s, npc, taken)) (hn : (n : Int) = npc) (hlt : n < 4096) :
    OnlyClu s (ctlStep s cl p f) cl ∧ getClu (ctlStep s cl p f) cl.key =
      { getClu s cl.key with pc := n, nextJ := s.clk.dst + (if taken then 12 else 6), stall := none } := by
  rw [h.ctlStep_some hp hf hn hlt]
  exact ⟨onlyClu_issued ⟨rfl, fun _ _ => rfl⟩ n taken, getClu_issued_go hw s cl n taken⟩

/-- A branch by its condition `t`. -/
theorem CtlReady.exec_branch {i : Instr} {t : W32 → W32 → Bool}
    (hi : exec i s = .next (ctlStep s cl p (fun _ w _ => ctlBranch s cl w t))) {c : Bool}
    (hc : t (curS (getClu s cl.key) (ciD w)) (curS (getClu s cl.key) (ciA w)) = c) :
    (c = true → ∀ n : Nat, (n : Int) = (getClu s cl.key).pc + sfld w 13 0 → n < 4096 →
      ∃ u, exec i s = .next u ∧ OnlyClu s u cl ∧
        getClu u cl.key = { getClu s cl.key with pc := n, nextJ := s.clk.dst + 12, stall := none }) ∧
    (c = false →
      ∃ u, exec i s = .next u ∧ OnlyClu s u cl ∧ getClu u cl.key =
        { getClu s cl.key with pc := (getClu s cl.key).pc + 1, nextJ := s.clk.dst + 6, stall := none }) := by
  refine ⟨fun taken n hn hlt => ⟨_, hi, ?_⟩, fun fails => ⟨_, hi, ?_⟩⟩
  · exact h.ctlStep_go hp hw (taken := true) (if_pos (hc.trans taken)) hn hlt
  · have room : (getClu s cl.key).pc + 1 < 4096 := by have := h.room; omega
    exact h.ctlStep_go hp hw (taken := false) (if_neg (by simp [hc, fails])) rfl room

end

/-- Settles O28: `CtlReady.ctlStep_branch` for each condition, and `faultsAt_faults` for the illegal instruction. -/
theorem controlBranches : Obligations.ControlBranches := by
  refine ⟨fun cl j w s h => ⟨?rows, ?jump⟩, ?illegal⟩
  case rows =>
    simp only [List.forall_mem_cons]
    refine ⟨fun hop => ?_, fun hop => ?_, fun hop => ?_, fun hop => ?_, by simp⟩
    · exact h.exec_branch (p := fun op => op == 9) (by simp [hop]) (by simp [hop]) rfl rfl
    · exact h.exec_branch (p := fun op => op == 10) (by simp [hop]) (by simp [hop]) rfl (by simp [bne, Bool.beq_eq_decide_eq])
    · exact h.exec_branch (p := fun op => op == 11) (by simp [hop]) (by simp [hop]) rfl rfl
    · exact h.exec_branch (p := fun op => op == 12) (by simp [hop]) (by simp [hop]) rfl rfl
  case jump =>
    intro hop n hn hlt
    exact ⟨_, rfl, h.ctlStep_go (p := fun op => op == 13) (taken := true) (by simp [hop]) (by simp [hop]) rfl hn hlt⟩
  case illegal =>
    intro cl j i w s h resident hop
    have faults : exec (.alu cl) s = .next (ccIllegal s cl.key (getClu s cl.key).pc) :=
      congrArg _ (h.ctlStep_none (p := fun op => op == 0 || decide (0x14 < op)) (by simp [hop]) (if_pos (by omega)))
    obtain ⟨-, clk, cus, -, -⟩ := faultsAt_frame s cl.key (pgCLU (cl.key / 16) (cl.key % 16))
      [(0x0308, d0Core 0xFF (getClu s cl.key).pc, 0)]
    exact ⟨_, faults, faultsAt_faults (by rw [key_div]; exact resident) _ _, clk, cus⟩

end Sys2Proof
end

section
/-! PROOFS. The control core: words of a mask, SW, WAITJ, ARMC, MSET, TDW, and the counters at the end of a core cycle (R64,
R68, R77, R78, R80, R82, R83, R201), and the obligation O29. -/

namespace Sys2Proof

open Sys2Proof.Machine

/-! ## Words of a mask (R64) -/

theorem bit_eq_getLsbD {n : Nat} (w : BitVec n) (i : Nat) : bit w i = w.getLsbD i := rfl

/-- Word `part` of a mask reads `v`, and the others stay. -/
theorem bit_maskWord (m : BitVec 96) (v : W32) {part i : Nat} (hi : i < 96) :
    bit (maskWord m part v) i = if i / 32 = part then bit v (i % 32) else bit m i := by
  have ones : (0xFFFFFFFF : BitVec 96) = (BitVec.allOnes 32).setWidth 96 := by decide
  simp only [bit_eq_getLsbD, maskWord, ones, BitVec.getLsbD_or, BitVec.getLsbD_and, BitVec.getLsbD_not,
    BitVec.getLsbD_shiftLeft, BitVec.getLsbD_setWidth, BitVec.getLsbD_allOnes, hi, decide_true, Bool.true_and]
  by_cases hp : i / 32 = part
  · subst hp
    have at' : i - 32 * (i / 32) = i % 32 := by omega
    have ge : ¬ i < 32 * (i / 32) := by omega
    have lt : i % 32 < 96 := by omega
    simp [at', ge, lt, Nat.mod_lt i (show 0 < 32 by decide)]
  · by_cases hlt : i < 32 * part
    · simp [hp, hlt]
    · have far : ¬ i - 32 * part < 32 := by omega
      have out : v.getLsbD (i - 32 * part) = false := BitVec.getLsbD_of_ge _ _ (not_lt.1 far)
      simp [hp, hlt, far, out]

theorem bit_word (m : BitVec 96) (part : Nat) {i : Nat} (hi : i < 32) :
    bit (BitVec.ofNat 32 (m.toNat >>> (32 * part))) i = bit m (32 * part + i) := by
  simp only [bit, BitVec.toNat_ofNat, Nat.testBit_mod_two_pow, Nat.testBit_shiftRight, hi, decide_true, Bool.true_and]

/-- The word that MSET writes, by its FN. -/
def msetWord (fn : Nat) (old a : W32) : W32 :=
  if fn = 0 then a else if fn = 1 then old &&& a else if fn = 2 then old ||| a else old &&& ~~~a

theorem bit_msetWord (fn : Nat) (old a : W32) {i : Nat} (hi : i < 32) : bit (msetWord fn old a) i =
    if fn = 0 then bit a i else if fn = 1 then bit old i && bit a i else if fn = 2 then bit old i || bit a i
    else bit old i && !bit a i := by
  unfold msetWord
  split_ifs <;> simp [bit_eq_getLsbD, hi]

/-! ## An instruction that goes on (R80) -/

/-- An instruction whose effect leaves the pc goes on to the next one. -/
theorem CtlReady.ctlStep_next {s t : State} {cl : Clu} {j : Nat} {w : W32} (h : CtlReady s cl j w) {p : Nat → Bool}
    {f : Nat → W32 → Nat → CtlRes} (hp : p (fld w 31 26) = true) (hf : f j w (jobTime s (getJob s j)) = ctlNext t cl)
    (hpc : (getClu t cl.key).pc = (getClu s cl.key).pc) :
    ctlStep s cl p f = issued s cl w t ((getClu s cl.key).pc + 1) false := by
  have room : (getClu s cl.key).pc + 1 < 4096 := by have := h.room; omega
  refine h.ctlStep_some hp hf ?_ room
  rw [hpc]
  rfl

theorem getCore_issued (s : State) (cl : Clu) (w : W32) (t : State) (n : Nat) (taken : Bool) (d : CoreId) :
    getCore (issued s cl w t n taken) d = getCore t d := rfl

theorem getJob_issued (s : State) (cl : Clu) (w : W32) (t : State) (n : Nat) (taken : Bool) (i : Nat) :
    getJob (issued s cl w t n taken) i = getJob t i := rfl

theorem getCtr_issued (s : State) (cl : Clu) (w : W32) (t : State) (n : Nat) (taken : Bool) (m : Nat) :
    getCtr (issued s cl w t n taken) cl.key m = getCtr t cl.key m := by
  simp [getCtr, getClu_issued]

/-! ## Counters (R77, R78) -/

theorem getCtr_setCtr_same (s : State) (k n : Nat) (c : Ctr) : getCtr (setCtr s k n c) k n = c := by
  simp [getCtr, setCtr]

theorem getCtr_setCtr_ne (s : State) (k n : Nat) (c : Ctr) {m : Nat} (h : m ≠ n) :
    getCtr (setCtr s k n c) k m = getCtr s k m := by
  simp [getCtr, setCtr, tget_tput_ne _ _ _ _ h]

theorem getCtr_congr {s t : State} (h : t.clus = s.clus) (k n : Nat) : getCtr t k n = getCtr s k n := by
  simp only [getCtr, getClu, h]

/-- A change of a counter leaves everything else of the clusters. -/
theorem ctrAdd_clus (s : State) (k n : Nat) (d : Int) (w : Option Nat) :
    (∃ cc, getClu (ctrAdd s k n d w) k = { getClu s k with cc := cc }) ∧
    (∀ i, i ≠ k → getClu (ctrAdd s k n d w) i = getClu s i) := by
  exact ⟨⟨_, getClu_setClu s k _⟩, fun i hi => getClu_setClu_ne s _ hi⟩

/-! ## A GATE that an MSET meets (R201) -/

/-- The write of a GATE's mask changes the register file of its cluster alone. -/
theorem writeMask_touches (s : State) (cl : Clu) (due : Nat) (m : Option (Nat × BitVec 96)) :
    ∃ sw, writeMask s cl due m = setClu s cl.key { getClu s cl.key with sw := sw } ∨ writeMask s cl due m = s := by
  cases m with
  | none => exact ⟨[], .inr rfl⟩
  | some x => exact ⟨_, .inl (congrArg (setClu s cl.key) (regWrite_eq _ _ _ _))⟩

theorem residentOn_congr {s t : State} (hj : t.jobs = s.jobs) (ha : ∀ k < 4, imgAddr t k = imgAddr s k) (q : Nat) :
    residentOn t q = residentOn s q := by
  have slots : ∀ k ∈ [0, 1, 2, 3], k < 4 := by decide
  refine List.find?_congr fun k hk => ?_
  simp only [jobQuads, getJob_congr hj, ha k (slots k hk)]

/-- The mask is written or it is not and the collision is counted, and then the fault is raised under the route unit's page. -/
theorem gateWins_eq (s : State) (cl : Clu) (g : GateRun) : ∃ t d0 d1,
    gateWins s cl g = faultsAt t cl.key (pgRT cl.q.val cl.c.val) [(0x0909, d0, d1)] ∧
    t = { s with clus := t.clus, regs := t.regs } ∧ (getClu t cl.key).pc = (getClu s cl.key).pc ∧
    ∀ q, residentOn t q = residentOn s q := by
  have page : unitPage true cl.key = pgRT cl.q.val cl.c.val := by simp [unitPage, key_div, key_mod]
  have counted {u : State} (hu : u = { s with clus := u.clus }) (hpc : (getClu u cl.key).pc = (getClu s cl.key).pc) :
      bump u (at' (pgCLU cl.q.val cl.c.val) 0x104) 1 = { s with
        clus := (bump u (at' (pgCLU cl.q.val cl.c.val) 0x104) 1).clus
        regs := (bump u (at' (pgCLU cl.q.val cl.c.val) 0x104) 1).regs } ∧
      (getClu (bump u (at' (pgCLU cl.q.val cl.c.val) 0x104) 1) cl.key).pc = (getClu s cl.key).pc ∧
      ∀ q, residentOn (bump u (at' (pgCLU cl.q.val cl.c.val) 0x104) 1) q = residentOn s q := by
    have kept : RegsKept s (bump u (at' (pgCLU cl.q.val cl.c.val) 0x104) 1) [at' (pgCLU cl.q.val cl.c.val) 0x104] :=
      fun o ho => (regsKept_bump u _ 1 o ho).trans (reg_congr (by rw [hu]) o)
    refine ⟨by rw [bump, setReg, hu], hpc, residentOn_congr (by rw [bump, setReg, hu]) (imgAddr_of_regsKept kept ?_)⟩
    intro o ho
    rw [List.mem_singleton.1 ho]
    exact notImgAddr_of_page _ (by simp [pgCLU, pgQD, pgSCH]; omega)
  have written (due : Nat) (m : Option (Nat × BitVec 96)) : writeMask s cl due m = { s with clus := (writeMask s cl due m).clus } ∧
      (getClu (writeMask s cl due m) cl.key).pc = (getClu s cl.key).pc := by
    obtain ⟨sw, h | h⟩ := writeMask_touches s cl due m <;> rw [h]
    · exact ⟨rfl, by rw [getClu_setClu]⟩
    · exact ⟨rfl, rfl⟩
  unfold gateWins
  rw [← page]
  split
  · exact ⟨_, _, _, rfl, counted (written _ _).1 (written _ _).2⟩
  · exact ⟨_, _, _, rfl, counted rfl rfl⟩

/-! ## TDW (R68, R82) -/

section
variable (cl : Clu) (jt pc td : Nat) (v : W128)

/-- The descriptor write of a TDW, seen from the first core edge from T + 24 on. -/
def tdwPend : TdPend :=
  { byJob := true, vis := 4 * ((jt + 24 + 3) / 4), td := td, val := v, ovr := false, rank := 3, d0 := d0Core 0xFF pc, slot := 0 }

/-- TDn to core `n` of the cluster. -/
def tdwTo (s : State) (n : Nat) : State := tdwCore jt pc td v s { cl := cl, k := Fin.ofNat 96 n }

theorem tdwTo_alone {s : State} {n : Nat} (h : (getCore s { cl := cl, k := Fin.ofNat 96 n }).tdPend = []) :
    tdwTo cl jt pc td v s n = setCore s { cl := cl, k := Fin.ofNat 96 n }
      { getCore s { cl := cl, k := Fin.ofNat 96 n } with tdPend := [tdwPend jt pc td v] } := by
  rw [tdwTo, tdwCore, addTd_alone (by rw [h]; rfl), h]
  rfl

theorem coreId_key_ne {cl : Clu} {n m : Fin 96} (h : n ≠ m) :
    (CoreId.mk cl n).key ≠ (CoreId.mk cl m).key := by
  have := Fin.val_ne_of_ne h
  simp only [CoreId.key]
  omega

theorem coreId_key_ne_of_clu {cl : Clu} {d : CoreId} (h : d.cl.key ≠ cl.key) (m : Fin 96) :
    d.key ≠ (CoreId.mk cl m).key := by
  have := d.k.isLt
  have := m.isLt
  simp only [CoreId.key]
  omega

/-- The cores of the mask have their write, where none had one on its way. -/
theorem foldl_tdwTo {ns : List Nat} (hd : ns.Nodup) (hlt : ∀ n ∈ ns, n < 96) {s : State}
    (h : ∀ n ∈ ns, (getCore s { cl := cl, k := Fin.ofNat 96 n }).tdPend = []) :
    ns.foldl (tdwTo cl jt pc td v) s = { s with cores := (ns.foldl (tdwTo cl jt pc td v) s).cores } ∧
    (∀ n : Fin 96, getCore (ns.foldl (tdwTo cl jt pc td v) s) { cl := cl, k := n } =
      if n.val ∈ ns then { getCore s { cl := cl, k := n } with tdPend := [tdwPend jt pc td v] }
      else getCore s { cl := cl, k := n }) ∧
    (∀ d : CoreId, d.cl.key ≠ cl.key → getCore (ns.foldl (tdwTo cl jt pc td v) s) d = getCore s d) := by
  induction ns generalizing s with
  | nil => exact ⟨rfl, fun n => (if_neg (List.not_mem_nil)).symm, fun _ _ => rfl⟩
  | cons m ns ih =>
    obtain ⟨hm, hd⟩ := List.nodup_cons.1 hd
    have step := tdwTo_alone cl jt pc td v (h m List.mem_cons_self)
    have val {n : Nat} (hn : n < 96) : (Fin.ofNat 96 n).val = n := Nat.mod_eq_of_lt hn
    have lt := hlt m List.mem_cons_self
    have other {n : Fin 96} (hn : n.val ≠ m) : getCore (tdwTo cl jt pc td v s m) { cl := cl, k := n } =
        getCore s { cl := cl, k := n } := by
      rw [step]
      exact getCore_setCore_ne s _ (coreId_key_ne fun e => hn (by rw [e, val lt]))
    obtain ⟨frame, mine, others⟩ := ih hd (fun n hn => hlt n (List.mem_cons_of_mem _ hn)) (s := tdwTo cl jt pc td v s m)
      (fun n hn => by
        rw [other (by rw [val (hlt n (List.mem_cons_of_mem _ hn))]; exact fun e => hm (e ▸ hn))]
        exact h n (List.mem_cons_of_mem _ hn))
    refine ⟨?_, fun n => ?_, fun d hd' => ?_⟩
    · rw [List.foldl_cons, frame, step]
      rfl
    · rw [List.foldl_cons, mine n]
      by_cases hn : n.val = m
      · have same : n = Fin.ofNat 96 m := Fin.ext (by rw [hn, val lt])
        have out : n.val ∉ ns := hn ▸ hm
        rw [if_neg out, if_pos (by simp [hn]), step, same, getCore_setCore]
      · simp only [List.mem_cons, hn, false_or, other hn]
    · rw [List.foldl_cons, others d hd', step]
      exact getCore_setCore_ne s _ (coreId_key_ne_of_clu hd' _)

end

/-! ## The obligation -/

section
variable {cl : Clu} {j : Nat} {w : W32} {s : State} (h : CtlReady s cl j w)
include h

theorem CtlReady.exec_sw (hop : fld w 31 26 = 8) {x : Nat} (hx : (x : Int) = (curS (getClu s cl.key) (ciA w)).toInt + sfld w 13 0)
    (h4 : x % 4 = 0) (hlt : x < 65536) : exec (.sw cl) s = .next (issued s cl w (setClu s cl.key
      { getClu s cl.key with dmem := tput 0 (getClu s cl.key).dmem (x / 4) (curS (getClu s cl.key) (ciD w)) })
      ((getClu s cl.key).pc + 1) false) := by
  refine congrArg _ (h.ctlStep_next (p := fun op => op == 8) (by simp [hop]) ?_ (by rw [getClu_setClu]))
  simp only [dataAddr_word hx h4 hlt]

theorem CtlReady.exec_waitj (hop : fld w 31 26 = 0xE) : exec (.waitj cl) s = .next (issued s cl w (setClu s cl.key
      { getClu s cl.key with
        stall := if (jobTime s (getJob s j) : Int) < curOrigin s j (jobTime s (getJob s j)) + 4 *
          ((curS (getClu s cl.key) (ciA w)).toInt + sfld w 13 0) then some (curOrigin s j (jobTime s (getJob s j)) + 4 *
          ((curS (getClu s cl.key) (ciA w)).toInt + sfld w 13 0)) else none }) ((getClu s cl.key).pc + 1) false) :=
  congrArg _ (h.ctlStep_next (p := fun op => op == 0xE) (by simp [hop]) rfl (by rw [getClu_setClu]))

theorem CtlReady.exec_armc (hop : fld w 31 26 = 0xF) : exec (.armc cl) s = .next (issued s cl w
      (ctrAdd s cl.key (fld w 25 21) (curS (getClu s cl.key) (fld w 20 15)).toInt (some (fld w 14 0)))
      ((getClu s cl.key).pc + 1) false) := by
  obtain ⟨⟨cc, hc⟩, -⟩ := ctrAdd_clus s cl.key (fld w 25 21) (curS (getClu s cl.key) (fld w 20 15)).toInt (some (fld w 14 0))
  exact congrArg _ (h.ctlStep_next (p := fun op => op == 0xF) (by simp [hop]) rfl (by rw [hc]))

/-- MSET where it meets no GATE. -/
theorem CtlReady.exec_mset (hop : fld w 31 26 = 0x10) (hpart : fld w 22 21 ≠ 3) (hfn : fld w 14 12 ≤ 3) (hlow : fld w 11 0 = 0)
    (hg : gateMeets s (getClu s cl.key) (fld w 25 23) = none) :
    exec (.mset cl) s = .next (issued s cl w (setClu s cl.key (regWrite (getClu s cl.key) (jobTime s (getJob s j))
      (64 + fld w 25 23) (maskWord (curM (getClu s cl.key) (fld w 25 23)) (fld w 22 21)
        (msetWord (fld w 14 12) (BitVec.ofNat 32 ((curM (getClu s cl.key) (fld w 25 23)).toNat >>> (32 * fld w 22 21)))
          (curS (getClu s cl.key) (fld w 20 15)))))) ((getClu s cl.key).pc + 1) false) := by
  refine congrArg _ (h.ctlStep_next (p := fun op => op == 0x10) (by simp [hop]) ?_ (by rw [getClu_setClu, regWrite_eq]))
  have legal : ¬ (fld w 22 21 = 3 ∨ 3 < fld w 14 12 ∨ fld w 11 0 ≠ 0) := by omega
  simp only [if_neg legal, hg]
  rfl

/-- MSET where it meets a GATE of its mask. -/
theorem CtlReady.exec_mset_gate (hop : fld w 31 26 = 0x10) (hpart : fld w 22 21 ≠ 3) (hfn : fld w 14 12 ≤ 3)
    (hlow : fld w 11 0 = 0) {g : GateRun} (hg : gateMeets s (getClu s cl.key) (fld w 25 23) = some g) :
    exec (.mset cl) s = .next (issued s cl w (gateWins s cl g) ((getClu s cl.key).pc + 1) false) := by
  obtain ⟨t, d0, d1, wins, -, pc, -⟩ := gateWins_eq s cl g
  refine congrArg _ (h.ctlStep_next (p := fun op => op == 0x10) (by simp [hop]) ?_ ?_)
  · have legal : ¬ (fld w 22 21 = 3 ∨ 3 < fld w 14 12 ∨ fld w 11 0 ≠ 0) := by omega
    simp only [if_neg legal, hg]
  · obtain ⟨-, -, -, -, clus⟩ := faultsAt_frame t cl.key (pgRT cl.q.val cl.c.val) [(0x0909, d0, d1)]
    rw [wins, getClu, clus]
    exact pc

theorem CtlReady.exec_tdw (hop : fld w 31 26 = 0x14) (ha : fld w 16 11 ≤ 60) (hlow : fld w 10 0 = 0) {v : W128}
    (hv : v = BitVec.ofNat 128 ((curS (getClu s cl.key) (fld w 16 11)).toNat +
        (curS (getClu s cl.key) (fld w 16 11 + 1)).toNat * 2 ^ 32 + (curS (getClu s cl.key) (fld w 16 11 + 2)).toNat * 2 ^ 64 +
        (curS (getClu s cl.key) (fld w 16 11 + 3)).toNat * 2 ^ 96)) {u : State}
    (hu : u = ((List.range 96).filter (fun n => bit (curM (getClu s cl.key) (fld w 25 23)) n)).foldl
      (tdwTo cl (jobTime s (getJob s j)) (getClu s cl.key).pc (fld w 22 17) v) s)
    (frame : u = { s with cores := u.cores }) :
    exec (.tdw cl) s = .next (issued s cl w u ((getClu s cl.key).pc + 1) false) := by
  refine congrArg _ (h.ctlStep_next (p := fun op => op == 0x14) (by simp [hop]) ?_ (by rw [frame]; rfl))
  subst hu hv
  exact if_neg (by omega)

end

/-- The end of a core cycle where DEF stays in its range. -/
theorem ctrSettle_in {s : State} {k n : Nat} (hlo : -8388608 ≤ (getCtr s k n).deficit + (getCtr s k n).sum)
    (hhi : (getCtr s k n).deficit + (getCtr s k n).sum ≤ 8388607) : ctrSettle s (k, n) = setCtr s k n { getCtr s k n with
      deficit := (getCtr s k n).deficit + (getCtr s k n).sum, sum := 0
      met := if 0 < (getCtr s k n).deficit ∧ (getCtr s k n).deficit + (getCtr s k n).sum ≤ 0 then (getCtr s k n).at'
        else (getCtr s k n).met } := if_neg (by simp only; omega)

theorem ctrSettle_out {s : State} {k n : Nat} (h : (getCtr s k n).deficit + (getCtr s k n).sum < -8388608 ∨
      8388607 < (getCtr s k n).deficit + (getCtr s k n).sum) : ctrSettle s (k, n) =
    faultsAt (setCtr s k n { getCtr s k n with sum := 0 }) k (pgCLU (k / 16) (k % 16))
      [(0x0307, 0xFC000000, BitVec.ofNat 32 n)] := if_pos h

/-- Settles O29: each instruction by its effect over the next edge, TDW by `foldl_tdwTo`, the counters by `ctrSettle_in` and
`ctrSettle_out`. -/
theorem controlEffects : Obligations.ControlEffects := by
  refine ⟨?instructions, ?settle⟩
  case instructions =>
    intro cl j w s h k jt
    refine ⟨?sw, ?waitj, ?armc, ?mset, ?tdw⟩
    case sw =>
      intro hop x hx h4 hlt
      refine ⟨_, h.exec_sw hop hx h4 hlt, onlyClu_issued (onlyClu_setClu s cl _) _ _, ?_, fun n => ?_⟩
      · rw [getClu_issued, getClu_setClu, if_neg (show fld w 31 26 ≠ 0x0E by omega)]
        rfl
      · rw [getClu_issued, getClu_setClu]
        exact tget_tput _ _ _ _ _
    case waitj =>
      intro hop x
      refine ⟨_, h.exec_waitj hop, onlyClu_issued (onlyClu_setClu s cl _) _ _, ?_⟩
      rw [getClu_issued, getClu_setClu, if_pos hop]
      rfl
    case armc =>
      intro hop n
      obtain ⟨counter, others, dirty, frame⟩ := ctrAdd_spec s cl.key n (curS k (fld w 20 15)).toInt (some (fld w 14 0))
      obtain ⟨⟨cc, hc⟩, hk⟩ := ctrAdd_clus s cl.key n (curS k (fld w 20 15)).toInt (some (fld w 14 0))
      refine ⟨_, h.exec_armc hop, ?_, fun m hm => ?_, dirty, ?_, fun i hi => ?_, ?_⟩
      · rw [getCtr_issued, counter]
        rfl
      · rw [getCtr_issued]
        exact others _ _ (by simp [hm])
      · rw [getClu_issued, if_neg (show fld w 31 26 ≠ 0x0E by omega), hc]
        rfl
      · exact (getClu_setClu_ne _ _ hi).trans (hk i hi)
      · rw [issued, frame]
        rfl
    case mset =>
      intro hop hpart hfn hlow
      refine ⟨fun hg => ?_, fun g i hg resident quiet => ?_⟩
      · refine ⟨_, h.exec_mset hop hpart hfn hlow hg, onlyClu_issued (onlyClu_setClu s cl _) _ _, fun i hi => ?_,
          fun m _ hm => ?_, fun r hr => ?_, ?_⟩
        · rw [getClu_issued, getClu_setClu]
          refine (congrArg (bit · i) (curM_regWrite_same k jt (fld w 25 23) _)).trans ?_
          rw [bit_maskWord _ _ hi]
          split
          · next word =>
            have inWord : 32 * fld w 22 21 + i % 32 = i := by omega
            rw [bit_msetWord _ _ _ (by omega), bit_word _ _ (by omega), inWord]
          · rfl
        · rw [getClu_issued, getClu_setClu]
          exact curM_regWrite_ne k jt (64 + fld w 25 23) _ (by omega)
        · rw [getClu_issued, getClu_setClu]
          refine (curS_regWrite k jt (64 + fld w 25 23) _ r).trans (if_neg (by omega))
        · rw [getClu_issued]
      · obtain ⟨t, d0, d1, wins, frame, -, quads⟩ := gateWins_eq s cl g
        refine ⟨_, h.exec_mset_gate hop hpart hfn hlow hg, ?_, ?_, ?_⟩
        · rw [getJob_issued, wins]
          refine faultsAt_faults ?_ _ _
          rw [key_div, quads]
          exact resident
        · obtain ⟨mem, -⟩ := faultsAt_frame t cl.key (pgRT cl.q.val cl.c.val) [(0x0909, d0, d1)]
          have kept : (gateWins s cl g).mem = s.mem := by rw [wins, mem, frame]
          exact kept
        · have raised : Raised (gateWins s cl g) (pgRT cl.q.val cl.c.val) 0x0909 := by
            rw [wins]
            refine faultsAt_raised ?_ _ (by simp) (e := (0x0909, d0, d1)) (by simp)
            rw [frame]
            exact quiet
          exact raised
    case tdw =>
      intro hop ha hlow a v alone
      obtain ⟨frame, mine, others⟩ := foldl_tdwTo cl jt k.pc (fld w 22 17) v
        (ns := (List.range 96).filter (fun n => bit (curM k (fld w 25 23)) n)) (List.nodup_range.filter _)
        (fun n hn => List.mem_range.1 (List.mem_filter.1 hn).1) (s := s) (fun n _ => alone _)
      refine ⟨_, h.exec_tdw hop ha hlow rfl rfl frame, ?_, ?_, fun n => ?_, fun d hd => ?_⟩
      · rw [getClu_issued]
      · rw [issued, frame]
        rfl
      · rw [getCore_issued, mine n]
        simp only [List.mem_filter, List.mem_range, n.isLt, true_and]
        rfl
      · rw [getCore_issued]
        exact others d hd
  case settle =>
    intro k n s c d
    refine ⟨?inRange, ?outOfRange⟩
    case inRange =>
      intro hlo hhi
      rw [ctrSettle_in hlo hhi]
      exact ⟨getCtr_setCtr_same s k n _, fun m hm => getCtr_setCtr_ne s k n _ hm, rfl⟩
    case outOfRange =>
      intro hd i resident quiet
      rw [ctrSettle_out hd]
      obtain ⟨-, -, -, -, clus⟩ := faultsAt_frame (setCtr s k n { c with sum := 0 }) k (pgCLU (k / 16) (k % 16))
        [(0x0307, 0xFC000000, BitVec.ofNat 32 n)]
      refine ⟨faultsAt_faults ?_ _ _, ?_, ?_⟩
      · exact (residentOn_congr rfl (fun _ _ => rfl) _).trans resident
      · rw [getCtr_congr clus, getCtr_setCtr_same]
      · have raised := faultsAt_raised (s := setCtr s k n { c with sum := 0 }) quiet k
          (es := [(0x0307, 0xFC000000, BitVec.ofNat 32 n)]) (by simp) (List.mem_singleton.2 rfl)
        exact raised

end Sys2Proof
end

section
/-! PROOFS. Completion of a command of the row engine or route unit (R77, R138, R143, R184, R197 to R200, R211, R213), and the
obligation O32. -/

namespace Sys2Proof

open Sys2Proof.Machine

theorem RegsKept.mono {s t : State} {os ps : List Nat} (h : RegsKept s t os) (hs : os ⊆ ps) : RegsKept s t ps :=
  fun o ho => h o fun hm => ho (hs hm)

/-! ## The parts of a completion -/

/-- With CCE the completion counter is credited with 1. -/
def creditTo (s : State) (clu : Nat) : Option Nat → State
  | some n => credit s clu n 1
  | none => s

theorem creditTo_spec (s : State) (k : Nat) (cc : Option Nat) :
    creditTo s k cc = { s with clus := (creditTo s k cc).clus, dirty := (creditTo s k cc).dirty } ∧
    (∃ x, getClu (creditTo s k cc) k = { getClu s k with cc := x }) ∧
    (∀ i, i ≠ k → getClu (creditTo s k cc) i = getClu s i) := by
  cases cc with
  | none => exact ⟨rfl, ⟨_, rfl⟩, fun _ _ => rfl⟩
  | some n => exact ⟨(credit_counter s k n 1).2.2.2, ctrAdd_clus s k n (-1) none⟩

/-- The command has left the unit and is counted. -/
def leftUnit (s : State) (cl : Clu) (rt : Bool) (fly : List CmdFly) : State :=
  countCmd (setUnit s cl.key rt { unitOf rt (getClu s cl.key) with fly := fly }) cl.key rt

theorem leftUnit_spec (s : State) (cl : Clu) (rt : Bool) (fly : List CmdFly) :
    let t := leftUnit s cl rt fly
    let cnt := at' (unitPage rt cl.key) (if rt then 0x114 else 0x10C)
    t = { s with clus := t.clus, regs := t.regs } ∧
    unitOf rt (getClu t cl.key) = { unitOf rt (getClu s cl.key) with fly := fly } ∧
    unitOf (!rt) (getClu t cl.key) = unitOf (!rt) (getClu s cl.key) ∧ (getClu t cl.key).sums = (getClu s cl.key).sums ∧
    (getClu t cl.key).cc = (getClu s cl.key).cc ∧ (∀ k, k ≠ cl.key → getClu t k = getClu s k) ∧
    reg t cnt = satAdd (reg s cnt) 1 ∧ RegsKept s t [cnt] := by
  obtain ⟨⟨frame, others⟩, mine, other⟩ := setUnit_spec s cl rt { unitOf rt (getClu s cl.key) with fly := fly }
  obtain ⟨count, kept, -⟩ := bump_one_spec
    (setUnit s cl.key rt { unitOf rt (getClu s cl.key) with fly := fly }) (at' (unitPage rt cl.key) (if rt then 0x114 else 0x10C))
  refine ⟨rfl, mine, other, ?_, ?_, others, count, kept⟩ <;> cases rt <;> simp [leftUnit, countCmd, bump, setReg, setUnit, getClu, setClu]

/-- A summary waits for the shadow unit, or is counted as lost where its source has no place (R184). -/
theorem handSummary_spec (s : State) (k : Nat) (m : Summary) :
    let t := handSummary s k m
    let lost := at' (pgSHW (k / 16) (k % 16)) 0x12C
    t = { s with clus := t.clus, regs := t.regs } ∧ (∃ x, getClu t k = { getClu s k with sums := x }) ∧
    (∀ i, i ≠ k → getClu t i = getClu s i) ∧ RegsKept s t [lost] ∧
    (((getClu s k).sums.filter (fun x => x.src == m.src)).length < 4 →
      RegsKept s t [] ∧ (getClu t k).sums = (getClu s k).sums ++ [m]) := by
  simp only [handSummary]
  split
  · next full =>
    split
    · exact ⟨rfl, ⟨_, rfl⟩, fun _ _ => rfl, regsKept_bump s _ 1, fun room => absurd full (not_le.2 room)⟩
    · exact ⟨rfl, ⟨_, rfl⟩, fun _ _ => rfl, fun _ _ => rfl, fun room => absurd full (not_le.2 room)⟩
  · exact ⟨rfl, ⟨_, getClu_setClu s k _⟩, fun i hi => getClu_setClu_ne s _ hi, fun _ _ => rfl,
      fun _ => ⟨fun _ _ => rfl, by rw [getClu_setClu]⟩⟩

/-- The summary of a row-engine command from NORMF to SOLVE goes to the shadow unit. -/
def summaryTo (s : State) (cl : Clu) (rt : Bool) (f : CmdFly) : State :=
  if !rt && decide (cmOp f.w ≤ 8)
  then handSummary s cl.key { src := 96, tag := reTag f.w, step := f.step, cnt := f.cnt } else s

/-- The NaN tokens of a GATE are counted. -/
def nanTo (s : State) (cl : Clu) (rt : Bool) (n : Nat) : State :=
  if n = 0 then s else bump s (at' (unitPage rt cl.key) 0x10C) n

/-- The oldest command of a unit is complete once it is due. -/
theorem unitComplete_eq {s : State} {cl : Clu} {rt : Bool} {f : CmdFly} {rest : List CmdFly}
    (hf : (unitOf rt (getClu s cl.key)).fly = f :: rest) (hd : f.due ≤ s.clk.dst) : unitComplete s cl rt =
      creditTo (summaryTo (writeMask (gateCount (nanTo (leftUnit s cl rt rest) cl rt f.nan) cl.key f.experts)
        cl f.due f.mask) cl rt f) cl.key f.cc := by
  have oldest : findIdx? (fun f => decide (f.due ≤ s.clk.dst)) (f :: rest) 0 = some (0, f) := by simp [findIdx?, hd]
  simp only [unitComplete, hf, oldest]
  cases f.cc <;> rfl

/-- Where there is nothing to add for a GATE it leaves, hands its summary on and credits. -/
theorem unitComplete_plain {s : State} {cl : Clu} {rt : Bool} {f : CmdFly} {rest : List CmdFly}
    (hf : (unitOf rt (getClu s cl.key)).fly = f :: rest) (hd : f.due ≤ s.clk.dst) (hn : f.nan = 0) (he : f.experts = [])
    (hm : f.mask = none) :
    unitComplete s cl rt = creditTo (summaryTo (leftUnit s cl rt rest) cl rt f) cl.key f.cc := by
  rw [unitComplete_eq hf hd, hn, he, hm]
  rfl

/-- The summary's step of a completion. -/
theorem summaryTo_spec (s : State) (cl : Clu) (rt : Bool) (f : CmdFly) :
    let t := summaryTo s cl rt f
    t = { s with clus := t.clus, regs := t.regs } ∧ (∃ x, getClu t cl.key = { getClu s cl.key with sums := x }) ∧
    (∀ i, i ≠ cl.key → getClu t i = getClu s i) ∧ RegsKept s t [at' (pgSHW cl.q.val cl.c.val) 0x12C] ∧
    (rt = true ∨ 8 < cmOp f.w → t = s) ∧
    (rt = false → cmOp f.w ≤ 8 → ((getClu s cl.key).sums.filter (fun x => x.src == 96)).length < 4 →
      RegsKept s t [] ∧ (getClu t cl.key).sums =
        (getClu s cl.key).sums ++ [{ src := 96, tag := reTag f.w, step := f.step, cnt := f.cnt }]) := by
  by_cases h : rt = false ∧ cmOp f.w ≤ 8
  · obtain ⟨hrt, hop⟩ := h
    have handed : summaryTo s cl rt f =
        handSummary s cl.key { src := 96, tag := reTag f.w, step := f.step, cnt := f.cnt } := if_pos (by simp [hrt, hop])
    obtain ⟨frame, sums, others, lost, room⟩ :=
      handSummary_spec s cl.key { src := 96, tag := reTag f.w, step := f.step, cnt := f.cnt }
    rw [key_div, key_mod] at lost
    simp only [handed]
    refine ⟨frame, sums, others, lost, fun out => ?_, fun _ _ => room⟩
    rcases out with out | out
    · simp [hrt] at out
    · omega
  · have stays : summaryTo s cl rt f = s := if_neg (by simpa using h)
    simp only [stays]
    exact ⟨trivial, ⟨_, rfl⟩, fun _ _ => trivial, fun _ _ => rfl, fun _ => trivial, fun hrt hop => absurd ⟨hrt, hop⟩ h⟩

/-! ## What a GATE's completion adds (R197, R198, R200, R213) -/

theorem satAdd_zero (v : W32) : satAdd v 0 = v := by
  have := v.isLt
  apply BitVec.eq_of_toNat_eq
  simp only [satAdd, BitVec.toNat_ofNat]
  omega

theorem nanTo_spec (s : State) (cl : Clu) (rt : Bool) (n : Nat) :
    nanTo s cl rt n = { s with regs := (nanTo s cl rt n).regs } ∧
    reg (nanTo s cl rt n) (at' (unitPage rt cl.key) 0x10C) = satAdd (reg s (at' (unitPage rt cl.key) 0x10C)) n ∧
    RegsKept s (nanTo s cl rt n) [at' (unitPage rt cl.key) 0x10C] := by
  unfold nanTo
  split
  · next h => exact ⟨rfl, by rw [h, satAdd_zero], fun _ _ => rfl⟩
  · exact ⟨rfl, reg_bump s _ n, regsKept_bump s _ n⟩

/-- The interrupt of a drop counter that rises from 0. -/
theorem dropInt_spec (s : State) (k : Nat) (x a d : Nat) :
    let t := dropInt s k [(x, a, d)]
    let int := at' (pgRT (k / 16) (k % 16)) 0x10
    t = { s with regs := t.regs, out := t.out } ∧ RegsKept s t [int] ∧
    (0 < d → tget 0 (getClu s k).drop x = 0 → bit (reg t int) 0 = true) := by
  simp only [dropInt, List.any_cons, List.any_nil, Bool.or_false, Bool.and_eq_true, decide_eq_true_eq]
  split
  · obtain ⟨r, o, touches⟩ := raiseInt_touches s (pgRT (k / 16) (k % 16)) 0
    obtain ⟨raised, kept⟩ := raiseInt_spec s (pgRT (k / 16) (k % 16)) 0
    exact ⟨by rw [touches], kept, fun _ _ => by rw [raised 0 (by decide)]; simp⟩
  · next h => exact ⟨rfl, fun _ _ => rfl, fun hd h0 => absurd ⟨hd, h0⟩ h⟩

/-- One expert's counters take what the GATE adds, and the cluster's record of this core cycle. -/
theorem gateCount_single (s : State) (k x a d : Nat) : ∃ upd,
    gateCount s k [(x, a, d)] = setClu (dropInt s k [(x, a, d)]) k
      { countExpert (getClu (dropInt s k [(x, a, d)]) k) (x, a, d) with gateUpd := upd } := ⟨_, rfl⟩

theorem countExpert_spec (k : Cluster) (x a d : Nat) :
    tget 0 (countExpert k (x, a, d)).assign x = min 0xFFFFFFFF (tget 0 k.assign x + a) ∧
    tget 0 (countExpert k (x, a, d)).drop x = min 0xFFFFFFFF (tget 0 k.drop x + d) ∧
    (∀ i, i ≠ x → tget 0 (countExpert k (x, a, d)).assign i = tget 0 k.assign i ∧
      tget 0 (countExpert k (x, a, d)).drop i = tget 0 k.drop i) :=
  ⟨tget_tput_self _ _ _ _, tget_tput_self _ _ _ _,
    fun _ hi => ⟨tget_tput_ne _ _ _ _ hi, tget_tput_ne _ _ _ _ hi⟩⟩

/-- The mask of a GATE is in place once it has completed. -/
theorem writeMask_some (s : State) (cl : Clu) (due mi : Nat) (m : BitVec 96) : ∃ x,
    writeMask s cl due (some (mi, m)) = setClu s cl.key (regWrite (getClu s cl.key) x (64 + mi) m) := ⟨_, rfl⟩

/-- A GATE of one expert completes: its cluster, the registers and memory. -/
theorem unitComplete_gate {s : State} {cl : Clu} {mi x a d : Nat} {m : BitVec 96} {f : CmdFly}
    (hf : (getClu s cl.key).rt.fly = [f]) (hd : f.due ≤ s.clk.dst) (hm : f.mask = some (mi, m)) (he : f.experts = [(x, a, d)]) :
    let t := unitComplete s cl true
    let n := nanTo (leftUnit s cl true []) cl true f.nan
    let u := dropInt n cl.key [(x, a, d)]
    t.regs = u.regs ∧ t.mem = s.mem ∧ ∃ upd due cc, getClu t cl.key =
      { regWrite { countExpert (getClu (leftUnit s cl true []) cl.key) (x, a, d) with gateUpd := upd } due (64 + mi) m with
        cc := cc } := by
  intro t n u
  have complete := unitComplete_eq (rt := true) (rest := []) hf hd
  obtain ⟨nanFrame, -, -⟩ := nanTo_spec (leftUnit s cl true []) cl true f.nan
  obtain ⟨intFrame, -, -⟩ := dropInt_spec n cl.key x a d
  obtain ⟨upd, counted⟩ := gateCount_single n cl.key x a d
  obtain ⟨due, written⟩ := writeMask_some (gateCount n cl.key [(x, a, d)]) cl f.due mi m
  obtain ⟨credFrame, ⟨cc, cred⟩, -⟩ :=
    creditTo_spec (writeMask (gateCount n cl.key [(x, a, d)]) cl f.due (some (mi, m))) cl.key f.cc
  have ends : t = creditTo (writeMask (gateCount n cl.key [(x, a, d)]) cl f.due (some (mi, m))) cl.key f.cc := by
    rw [show t = _ from complete, he, hm]
    rfl
  have intClus : u.clus = n.clus := by simp only [u]; rw [intFrame]
  have nanClus : n.clus = (leftUnit s cl true []).clus := by simp only [n]; rw [nanFrame]
  have clus : getClu u cl.key = getClu (leftUnit s cl true []) cl.key :=
    congrArg (tget Cluster.reset · cl.key) (intClus.trans nanClus)
  have intMem : u.mem = n.mem := by simp only [u]; rw [intFrame]
  have nanMem : n.mem = s.mem := by simp only [n]; rw [nanFrame]; rfl
  refine ⟨?_, ?_, upd, due, cc, ?_⟩
  · rw [ends, credFrame, written, counted]
    rfl
  · rw [ends, credFrame, written, counted]
    exact intMem.trans nanMem
  · rw [ends, cred, written, getClu_setClu, counted, getClu_setClu, clus]

/-- Settles O32: a completion as its parts (`unitComplete_plain`, `unitComplete_gate`), each with its rule above. -/
theorem commandCompletes : Obligations.CommandCompletes := by
  refine ⟨?plain, ?gate⟩
  case plain =>
    intro cl f rest s hd hn he hm e hmem hf cnt
    have row : exec e.2.1 s = .next (unitComplete s cl e.1) ∧ e.2.2 = if e.1 then 0x114 else 0x10C := by
      rcases List.mem_pair.1 hmem with rfl | rfl
      · exact ⟨rfl, rfl⟩
      · exact ⟨rfl, rfl⟩
    obtain ⟨hexec, hcnt⟩ := row
    rw [unitComplete_plain hf hd hn he hm] at hexec
    have hL := leftUnit_spec s cl e.1 rest
    simp only [← hcnt] at hL
    obtain ⟨leftFrame, mine, other, sums, ccs, others, count, kept⟩ := hL
    generalize leftUnit s cl e.1 rest = l at *
    obtain ⟨sumFrame, ⟨x, sumClu⟩, sumOthers, lost, stays, handed⟩ := summaryTo_spec l cl e.1 f
    generalize hu : summaryTo l cl e.1 f = u at *
    obtain ⟨credFrame, ⟨y, credClu⟩, credOthers⟩ := creditTo_spec u cl.key f.cc
    have credRegs : (creditTo u cl.key f.cc).regs = u.regs := by rw [credFrame]
    have unitKept (b : Bool) : unitOf b (getClu (creditTo u cl.key f.cc) cl.key) = unitOf b (getClu l cl.key) := by
      rw [credClu, sumClu]
      cases b <;> rfl
    have sumsKept : (getClu (creditTo u cl.key f.cc) cl.key).sums = (getClu u cl.key).sums := by rw [credClu]
    have ctrKept (n : Nat) : getCtr u cl.key n = getCtr s cl.key n := by
      rw [getCtr, sumClu]
      exact congrArg (tget Ctr.zero · n) ccs
    have dst : u.clk.dst = s.clk.dst := by rw [sumFrame, leftFrame]
    have dirty : u.dirty = s.dirty := by rw [sumFrame, leftFrame]
    have cntKept : cnt ≠ at' (pgSHW cl.q.val cl.c.val) 0x12C := by
      intro h
      have := unitPage_mod e.1 cl.key
      have : pgSHW cl.q.val cl.c.val % 4 = 2 := by simp [pgSHW, pgQD]; omega
      have off : e.2.2 < 4096 := by rw [hcnt]; split <;> decide
      simp only [cnt, at'] at h
      split at * <;> omega
    refine ⟨_, hexec, ?_, (unitKept e.1).trans mine, (unitKept (!e.1)).trans other, fun k hk => ?_, ?_, ?_, fun out => ?_,
      fun hrt hop room => ?_, fun hcc => ?_, fun n hcc => ?_⟩
    · rw [credFrame, sumFrame, leftFrame]
    · exact (credOthers k hk).trans ((sumOthers k hk).trans (others k hk))
    · rw [reg_congr credRegs, lost _ (by simpa using cntKept), count]
    · exact ((kept.trans lost).of_regs_eq credRegs)
    · have same := stays out
      exact ⟨by rw [sumsKept, same, sums], kept.of_regs_eq (by rw [credRegs, same])⟩
    · obtain ⟨keptAll, waits⟩ := handed hrt hop (by rw [sums]; exact room)
      refine ⟨(kept.trans keptAll).of_regs_eq credRegs, ?_⟩
      rw [sumsKept, waits, sums]
    · rw [hcc]
      exact ⟨dirty, ctrKept⟩
    · obtain ⟨counter, rest, noted, -⟩ := credit_counter u cl.key n 1
      rw [hcc]
      refine ⟨noted, fun m hm => (rest m hm).trans (ctrKept m), counter.trans ?_⟩
      rw [ctrKept, dst]
      rfl
  case gate =>
    intro cl mi x a d m f s hf hd hm he hmi p
    obtain ⟨regs, mem, upd, due, cc, clu⟩ := unitComplete_gate hf hd hm he
    obtain ⟨-, mine, -, -, -, -, count, leftKept⟩ := leftUnit_spec s cl true []
    obtain ⟨nanFrame, nan, nanKept⟩ := nanTo_spec (leftUnit s cl true []) cl true f.nan
    obtain ⟨-, intKept, raised⟩ := dropInt_spec (nanTo (leftUnit s cl true []) cl true f.nan) cl.key x a d
    have page : unitPage true cl.key = p := by simp [p, unitPage, key_div, key_mod]
    simp only [page, if_true] at nan nanKept count leftKept
    rw [key_div, key_mod] at intKept raised
    have leftClu : getClu (leftUnit s cl true []) cl.key = { getClu s cl.key with rt := { (getClu s cl.key).rt with fly := [] } } :=
      getClu_setClu s cl.key _
    obtain ⟨assign, drop, rest⟩ := countExpert_spec (getClu (leftUnit s cl true []) cl.key) x a d
    have keys : at' p 0x10 ≠ at' p 0x10C ∧ at' p 0x10 ≠ at' p 0x114 ∧ at' p 0x10C ≠ at' p 0x114 := by
      simp only [at']
      omega
    obtain ⟨h10, h10', h114⟩ := keys
    have gateRegs (o : Nat) : reg (unitComplete s cl true) o = reg (dropInt (nanTo (leftUnit s cl true []) cl true f.nan)
        cl.key [(x, a, d)]) o := reg_congr regs o
    have counters (i : Nat) : tget 0 (getClu (unitComplete s cl true) cl.key).assign i =
          tget 0 (countExpert (getClu (leftUnit s cl true []) cl.key) (x, a, d)).assign i ∧
        tget 0 (getClu (unitComplete s cl true) cl.key).drop i =
          tget 0 (countExpert (getClu (leftUnit s cl true []) cl.key) (x, a, d)).drop i := by
      rw [clu, regWrite_eq]
      exact ⟨rfl, rfl⟩
    rw [leftClu] at assign drop rest
    refine ⟨_, rfl, ?_, ?_, ?_, ?_, fun i hi => ?_, fun i _ hi => ?_, ?_, ?_, ?_, mem, fun h0 hx => ?_⟩
    · rw [clu]
      exact curM_regWrite_same _ _ _ _
    · rw [clu, regWrite_eq, leftClu]
      rfl
    · exact (counters x).1.trans (leftClu ▸ assign)
    · exact (counters x).2.trans (leftClu ▸ drop)
    · exact ⟨(counters i).1.trans (leftClu ▸ (rest i hi).1), (counters i).2.trans (leftClu ▸ (rest i hi).2)⟩
    · rw [clu]
      refine (curM_regWrite_ne _ due (64 + mi) m (by omega)).trans ?_
      rw [leftClu]
      rfl
    · rw [gateRegs, intKept _ (by simpa using h10.symm), nan, leftKept _ (by simpa using h114)]
    · rw [gateRegs, intKept _ (by simpa using h10'.symm), nanKept _ (by simpa using h114.symm), count]
    · exact (((leftKept.trans nanKept).trans intKept).of_regs_eq regs).mono (fun _ h => by
        simp only [List.mem_append, List.mem_cons, List.not_mem_nil, or_false] at h ⊢
        rcases h with (h | h) | h
        exacts [.inr (.inr h), .inr (.inl h), .inl h])
    · rw [gateRegs]
      refine raised h0 ?_
      rw [getClu, nanFrame]
      exact (congrArg (fun k => tget 0 k.drop x) leftClu).trans hx

end Sys2Proof
end

section
/-! PROOFS. The matrix slot (R58, R64, R73, R88, R93, R99, R100): what a launch takes, the sums of a block, and the obligation
O19. -/

namespace Sys2Proof

open Sys2Proof.Machine

/-! ## Folds of which one step counts -/

/-- What no step changes is as before. -/
theorem foldl_keeps {σ α β : Type} {f : σ → α → σ} {obs : σ → β} {l : List α}
    (h : ∀ y ∈ l, ∀ t, obs (f t y) = obs t) (s : σ) : obs (l.foldl f s) = obs s := by
  induction l generalizing s with
  | nil => rfl
  | cons y l ih =>
    exact (ih (fun z hz => h z (List.mem_cons_of_mem _ hz)) (f s y)).trans (h y List.mem_cons_self s)

/-- Of a list without repetition only `x` changes what is observed: it is changed once where `x` stands in the list. -/
theorem foldl_once {σ α β : Type} {f : σ → α → σ} {obs : σ → β} {x : α} {g : β → β} (hx : ∀ t, obs (f t x) = g (obs t))
    {l : List α} (hd : l.Nodup) (hne : ∀ y ∈ l, y ≠ x → ∀ t, obs (f t y) = obs t) (s : σ) [Decidable (x ∈ l)] :
    obs (l.foldl f s) = if x ∈ l then g (obs s) else obs s := by
  split
  · next h =>
    obtain ⟨as, bs, rfl⟩ := List.append_of_mem h
    obtain ⟨-, hxb, hab⟩ := List.nodup_append.1 hd
    have before : ∀ y ∈ as, y ≠ x := fun y hy e => hab y hy x List.mem_cons_self e
    have after : ∀ y ∈ bs, y ≠ x := fun y hy e => (List.nodup_cons.1 hxb).1 (e ▸ hy)
    rw [List.foldl_append, List.foldl_cons, foldl_keeps fun y hy => hne y (by simp [hy]) (after y hy), hx,
      foldl_keeps fun y hy => hne y (by simp [hy]) (before y hy)]
  · next h => exact foldl_keeps (fun y hy => hne y hy fun e => h (e ▸ hy)) s

/-! ## Tiles of an accumulator (R87) -/

theorem accGet_accPut (c : Core) (a m n : Nat) (v : W32) {b m' n' : Nat} (hm : m < 64) (hn : n < 64) (hm' : m' < 64)
    (hn' : n' < 64) : accGet (accPut c a m n v) b m' n' =
      if b = a ∧ m' = m ∧ n' = n then v else accGet c b m' n' := by
  have key : (4096 * b + 64 * m' + n' = 4096 * a + 64 * m + n) ↔ b = a ∧ m' = m ∧ n' = n := by omega
  exact (tget_tput 0 c.acc _ _ v).trans (by simp only [key]; rfl)

/-- A step that gives element [m][n] of accumulator `A` the value `v m n` of its old one, and keeps every other element. -/
def PutsElem (A : Nat) (v : Nat → Nat → W32 → W32) (step : Core → Nat → Nat → Core) : Prop :=
  ∀ c m n a m' n', m < 64 → n < 64 → m' < 64 → n' < 64 → accGet (step c m n) a m' n' =
    if a = A ∧ m' = m ∧ n' = n then v m n (accGet c a m' n') else accGet c a m' n'

/-- Such a step for each element of a tile does so for the tile. -/
theorem PutsElem.foldl {A : Nat} {v : Nat → Nat → W32 → W32} {step : Core → Nat → Nat → Core} (h : PutsElem A v step)
    {R N : Nat} (hR : R ≤ 64) (hN : N ≤ 64) (c : Core) {a m n : Nat} (hm : m < 64) (hn : n < 64) :
    accGet ((List.range R).foldl (fun c r => (List.range N).foldl (fun c i => step c r i) c) c) a m n =
      if a = A ∧ m < R ∧ n < N then v m n (accGet c a m n) else accGet c a m n := by
  have col {r : Nat} (hr : r < 64) {i : Nat} (hi : i ∈ List.range N) (hne : ¬ (a = A ∧ m = r ∧ n = i)) (t : Core) :
      accGet (step t r i) a m n = accGet t a m n := by
    have hi := List.mem_range.1 hi
    rw [h t r i a m n hr (by omega) hm hn, if_neg hne]
  by_cases ha : a = A
  · have row (t : Core) : accGet ((List.range N).foldl (fun c i => step c m i) t) a m n =
        if n < N then v m n (accGet t a m n) else accGet t a m n := by
      refine (foldl_once (obs := (accGet · a m n)) (x := n) (g := v m n) (fun t => ?_) List.nodup_range
        (fun i hi hin t => col hm hi (fun e => hin e.2.2.symm) t) t).trans (by simp only [List.mem_range])
      rw [h t m n a m n hm hn hm hn, if_pos ⟨ha, rfl, rfl⟩]
    refine (foldl_once (obs := (accGet · a m n)) (x := m) (g := fun x => if n < N then v m n x else x) row
      List.nodup_range (fun r hr hrm t => ?_) c).trans ?_
    · have hr := List.mem_range.1 hr
      exact foldl_keeps (obs := (accGet · a m n)) (fun i hi => col (by omega) hi fun e => hrm e.2.1.symm) t
    · by_cases hmR : m < R <;> by_cases hnN : n < N <;> simp [ha, hmR, hnN]
  · rw [if_neg fun e => ha e.1]
    refine foldl_keeps (obs := (accGet · a m n)) (fun r hr t => ?_) c
    have hr := List.mem_range.1 hr
    exact foldl_keeps (obs := (accGet · a m n)) (fun i hi => col (by omega) hi fun e => ha e.1) t

/-! ## The products of a block (R88, R93) -/

theorem nibble_lt (rd : Nat → Byte) (c : CoreId) (t : Td) (r g : Nat) : nibble rd c t r g < 16 := by
  have := (rd (nibbleAddr c t r g)).isLt
  simp only [nibble]
  split <;> omega

/-- The stored positions of block j lie in the 64 logical columns of the block. -/
theorem sparsePos_range {rd : Nat → Byte} {c : CoreId} {t : Td} {r j p : Nat} (h : p ∈ sparsePos rd c t r j) :
    64 * j ≤ p ∧ p - 64 * j < 64 := by
  obtain ⟨g, hg, hp⟩ := List.mem_flatMap.1 h
  obtain ⟨i, hi, rfl⟩ := List.mem_map.1 (List.mem_filter.1 hg).1
  have := List.mem_range.1 hi
  have := nibble_lt rd c t r (16 * j + i)
  rcases List.mem_pair.1 hp with rfl | rfl <;> omega

/-- The column of B that block j of an MMA multiplies with row m of A. -/
theorem mmaColumn_eq (rd : Nat → Byte) (c : CoreId) (A : Td) (g : Nat → Ext) (j m : Nat) :
    (let ks := ((List.range 32).map (32 * j + ·)).filter (· < kStored A)
     let kb := if A.spe then (List.range 64).map (64 * j + ·) else ks
     let ps := if A.spe then sparsePos rd c A m j else []
     if A.spe then ps.map (fun p => (kb.map g).getD (p - 64 * j) Ext.zero) else kb.map g) =
    (if A.spe then sparsePos rd c A m j else ((List.range 32).map (32 * j + ·)).filter (· < kStored A)).map g := by
  cases A.spe with
  | false => rfl
  | true =>
    refine List.map_congr_left fun p hp => ?_
    obtain ⟨lo, hi⟩ := sparsePos_range hp
    have at' : 64 * j + (p - 64 * j) = p := by omega
    simp [List.getD, hi, at']

/-- The truncation flag of accumulator `a` where something was truncated (R91). -/
def flagTrunc (c : Core) (a : Nat) (t : Bool) : Core := if t then { c with trunc := setFlag c.trunc a true } else c

theorem accGet_flagTrunc (c : Core) (a : Nat) (t : Bool) (b m n : Nat) : accGet (flagTrunc c a t) b m n = accGet c b m n := by
  cases t <;> rfl

/-- What block j adds to element [m][n], whose value is `x`, rounded once; and whether it was truncated. -/
def mmaSum (rd : Nat → Byte) (cid : CoreId) (op : Nat) (A B : Td) (j m n : Nat) (x : W32) : W32 × Bool :=
  accBlocks (if op = 2 ∧ j = 0 then 0 else x) [blockProducts rd cid A B j m n]

def mmaElem (rd : Nat → Byte) (cid : CoreId) (op acc : Nat) (A B : Td) (j : Nat) (c : Core) (m n : Nat) : Core :=
  flagTrunc (accPut c acc m n (mmaSum rd cid op A B j m n (accGet c acc m n)).1) acc
    (mmaSum rd cid op A B j m n (accGet c acc m n)).2

theorem range_zip_map {α : Type} (N : Nat) (g : Nat → α) :
    (List.range ((List.range N).map g).length).zip ((List.range N).map g) = (List.range N).map (fun n => (n, g n)) := by
  refine List.ext_getElem (by simp) fun i h h' => by simp

/-- A block is summed element by element. -/
theorem mmaBlock_eq (rd : Nat → Byte) (cid : CoreId) (op acc : Nat) (A B : Td) (j : Nat) (c : Core) :
    mmaBlock rd cid op acc A B j c = (List.range A.pRows).foldl (fun c m =>
      (List.range B.pCols).foldl (fun c n => mmaElem rd cid op acc A B j c m n) c) c := by
  simp only [mmaBlock, range_zip_map, List.foldl_map]
  congr 1
  funext c m
  congr 1
  funext c n
  have column := mmaColumn_eq rd cid A (fun k => if k < A.pCols then presented rd cid B k n else Ext.zero) j m
  simp only at column
  simp only [column]
  rfl

theorem putsElem_mmaElem (rd : Nat → Byte) (cid : CoreId) (op acc : Nat) (A B : Td) (j : Nat) :
    PutsElem acc (fun m n x => (mmaSum rd cid op A B j m n x).1) (mmaElem rd cid op acc A B j) := by
  intro c m n a m' n' hm hn hm' hn'
  rw [mmaElem, accGet_flagTrunc, accGet_accPut c acc m n _ hm hn hm' hn']
  refine if_ctx_congr Iff.rfl (fun e => ?_) (fun _ => rfl)
  rw [e.1, e.2.1, e.2.2]

theorem putsElem_accPut (A : Nat) (v : Nat → Nat → W32) :
    PutsElem A (fun m n _ => v m n) (fun c m n => accPut c A m n (v m n)) :=
  fun c m n _ _ _ hm hn hm' hn' => accGet_accPut c A m n _ hm hn hm' hn'

/-! ## The events that change an accumulator (R88, R96) -/

section
variable {f : OpFly} {e : Ev} (hk : e.kind = .calc) (c : CoreId) (s : State)
include hk

/-- The event that sums a block. -/
theorem mxEvent_sum (hop : fld f.w 63 58 ≠ 3) (hs : e.sub ≠ 0) : mxEvent s c f e =
    (setCore s c (mmaBlock (heldByte f.held none) c (fld f.w 63 58) (mxAcc f.w) (tdOf (f.tds.getD 0 0))
      (tdOf (f.tds.getD 1 0)) e.grp (getCore s c)), keepLines f e.grp) := by
  simp only [mxEvent, hk, if_neg hop, if_neg hs, List.getD_map]

/-- The event that loads a tile. -/
theorem mxEvent_load (hop : fld f.w 63 58 = 3) : mxEvent s c f e =
    (setCore s c ((List.range (tdOf (f.tds.getD 0 0)).pRows).foldl (fun k m =>
      (List.range (tdOf (f.tds.getD 0 0)).pCols).foldl (fun k n => accPut k (mxAcc f.w) m n
        (rne (presented (heldByte f.held none) c (tdOf (f.tds.getD 0 0)) m n))) k) (getCore s c)), f) := by
  simp only [mxEvent, hk, if_pos hop, List.getD_map]

end

/-! ## What a launch takes (R57, R58, R100) -/

section
variable (s : State) (c : CoreId) (j : Nat) (b : W256) (off : Nat)

/-- An operation as a slot of the launching bundle latches it. -/
theorem latches_newOp (w : W64) (tds : List Nat) (tag unit scl due msk : Nat) (evs : List Ev) :
    Latches s c j b w tds msk due evs
      (newOp (launchState s c j b off) c (latchOf s c j b) w tds tag unit scl due msk evs) :=
  ⟨rfl, rfl, rfl, rfl, rfl, rfl, rfl, rfl, rfl, rfl, rfl⟩

/-- The matrix unit is taken for `i` core cycles by the operation `f`, and the accumulators are `acc`. -/
def TakesMatrix (i : Nat) (f : OpFly) (acc : Tab W32) (t : State) : Prop :=
  OnlyCore s t c ∧ (getCore t c).mxFly = (latched s c j).mxFly ++ [f] ∧ (getCore t c).mxBusy = s.clk.dst + 4 * i ∧
  (getCore t c).acc = acc ∧ (getCore t c).last = some off ∧ (getCore t c).bq = (launched s c j b off).bq

theorem launched_acc : (launched s c j b off).acc = (latched s c j).acc := by
  simp only [launched_frame]

/-- A masked operation takes the unit and no more. -/
theorem takesMatrix_masked (i : Nat) (f : OpFly) :
    TakesMatrix s c j b off i f (latched s c j).acc (mxIssue (launchState s c j b off) c i f) := by
  refine ⟨onlyCore_setCore_launchState s c j b off _, ?_⟩
  rw [mxIssue, getCore_setCore, getCore_launchState]
  simp only [launched_frame]
  exact ⟨trivial, rfl, trivial, trivial, trivial⟩

/-- One that is not masked also notes the accumulator's writer and truncation. -/
theorem takesMatrix_writer (i : Nat) (f : OpFly) (acc : Tab W32) (tr : BitVec 4) (a iss due : Nat) (mma : Bool) :
    TakesMatrix s c j b off i f acc (mxIssue (setCore (launchState s c j b off) c
      (accWriter { launched s c j b off with acc := acc, trunc := tr } a iss due mma)) c i f) := by
  refine ⟨(onlyCore_setCore_launchState s c j b off _).trans (onlyCore_setCore _ c _), ?_⟩
  rw [mxIssue, getCore_setCore, getCore_setCore]
  simp only [accWriter, launched_frame]
  exact ⟨trivial, rfl, trivial, trivial, trivial⟩

theorem startMma_takes (w : W64) (op : Nat) : ∃ f,
    let p := mmaPlan c (tdLatch (latched s c j) (mxTda w)).1 (tdLatch (latched s c j) (mxTdb w)).1
    TakesMatrix s c j b off p.1 f (latched s c j).acc (startMma (launchState s c j b off) c (latchOf s c j b) w op) ∧
    Latches s c j b w [mxTda w, mxTdb w] (mxMsk w) (p.1 + 12) p.2 f ∧ f.outD = [] := by
  refine ⟨_, ?_, latches_newOp s c j b off w [mxTda w, mxTdb w] 0 0 0 _ _ _, rfl⟩
  simp only [startMma, getCore_launchState]
  split
  · exact takesMatrix_masked s c j b off _ _
  · rw [← launched_acc s c j b off]
    exact takesMatrix_writer s c j b off _ _ _ _ _ _ _ _

theorem startAld_takes (w : W64) : ∃ f,
    let q := loadPlan c (tdLatch (latched s c j) (mxTdc w)).1
    TakesMatrix s c j b off q.1 f (latched s c j).acc (startAld (launchState s c j b off) c (latchOf s c j b) w) ∧
    Latches s c j b w [mxTdc w] (mxMsk w) (q.1 + 4) (q.2 ++ [⟨q.1 + 3, .calc, 0, 0, 0, 0⟩]) f ∧ f.outD = [] := by
  refine ⟨_, ?_, latches_newOp s c j b off w [mxTdc w] 0 0 0 _ _ _, rfl⟩
  simp only [startAld, getCore_launchState]
  split
  · exact takesMatrix_masked s c j b off _ _
  · rw [← launched_acc s c j b off]
    exact takesMatrix_writer s c j b off _ _ _ _ _ _ _ _

/-- ACLR's accumulator reads +0 at once, unless it is masked. -/
theorem startAclr_takes (w : W64) : ∃ f acc,
    TakesMatrix s c j b off 1 f acc (startAclr (launchState s c j b off) c (latchOf s c j b) w) ∧
    Latches s c j b w [] (mxMsk w) 1 [] f ∧ acc = if f.live then (latched s c j).acc.filter (fun e => e.1 / 4096 ≠ mxAcc w)
      else (latched s c j).acc := by
  refine ⟨_, _, ?_, latches_newOp s c j b off w [] 0 0 0 1 _ [], rfl⟩
  simp only [startAclr, getCore_launchState, Bool.not_eq_true']
  cases (newOp (launchState s c j b off) c (latchOf s c j b) w [] 0 0 0 1 (mxMsk w) []).live with
  | false => exact takesMatrix_masked s c j b off _ _
  | true =>
    rw [← launched_acc s c j b off]
    exact takesMatrix_writer s c j b off _ _ _ _ _ _ _ _

end

section
variable {s : State} {c : CoreId} {j : Nat} {b : W256} {off : Nat} (h : Launches s c j b off)
  (hctl : ctlOp b = 0) (hst : stOp b = 0) (hmv : mvOp b = 0)
include h hctl hst hmv

/-- A row of the matrix slot starts its operation. -/
theorem Launches.exec_mx {i : Instr} {n : Nat} (hi : exec i s = .next (launch s c (fun b => mxOp b == n))) (hn : n ≠ 0)
    (hop : mxOp b = n) : exec i s = .next (
      if n ≤ 2 then startMma (launchState s c j b off) c (latchOf s c j b) (bnMx b) n
      else if n = 3 then startAld (launchState s c j b off) c (latchOf s c j b) (bnMx b)
      else if n = 4 then startAst (launchState s c j b off) c (latchOf s c j b) (bnMx b) false
      else if n = 5 then startAst (launchState s c j b off) c (latchOf s c j b) (bnMx b) true
      else startAclr (launchState s c j b off) c (latchOf s c j b) (bnMx b)) := by
  have free : ¬ (launchState s c j b off).clk.dst < (getCore (launchState s c j b off) c).mxBusy := by
    rw [getCore_launchState]
    exact h.mx_free (by omega)
  rw [hi, h.launch_mx (by simp [hop]) hctl hst hmv]
  subst hop
  exact congrArg _ ((if_neg hn).trans (if_neg free))

end

/-- An accumulator whose elements are listed no more reads +0, and the others stay. -/
theorem tget_filter_acc (acc : Tab W32) (x : Nat) {a m n : Nat} (hm : m < 64) (hn : n < 64) :
    tget 0 (acc.filter (fun e => e.1 / 4096 ≠ x)) (4096 * a + 64 * m + n) =
      if a = x then 0 else tget 0 acc (4096 * a + 64 * m + n) := by
  have key : (4096 * a + 64 * m + n) / 4096 = a := by omega
  rw [tget_filter_key 0 (fun i => decide (i / 4096 ≠ x)) acc, key]
  by_cases ha : a = x <;> simp [ha]

/-- Settles O19: what each launch takes (`startMma_takes`, `startAld_takes`, `startAclr_takes`), and the elements that a sum
or a load puts (`PutsElem.foldl`). -/
theorem matrixSlot : Obligations.MatrixSlot := by
  refine ⟨?launches, ?events⟩
  case launches =>
    intro c j b off s h hctl hst hmv w k p q masked
    refine ⟨?sums, ?load, ?clear⟩
    case sums =>
      have row {i : Instr} {n : Nat} (hi : exec i s = .next (launch s c (fun b => mxOp b == n))) (hn : n = 1 ∨ n = 2)
          (hop : mxOp b = n) : ∃ t f, exec i s = .next t ∧ OnlyCore s t c ∧ (getCore t c).mxFly = k.mxFly ++ [f] ∧
            Latches s c j b w [mxTda w, mxTdb w] (mxMsk w) (p.1 + 12) p.2 f ∧ f.outD = [] ∧
            (getCore t c).mxBusy = s.clk.dst + 4 * p.1 ∧ (getCore t c).acc = k.acc ∧
            (getCore t c).last = some off ∧ (getCore t c).bq = (launched s c j b off).bq := by
        obtain ⟨f, ⟨only, fly, busy, acc, last, bq⟩, latches, out⟩ := startMma_takes s c j b off w n
        exact ⟨_, f, (h.exec_mx hctl hst hmv hi (by omega) hop).trans (congrArg _ (if_pos (by omega))), only, fly, latches,
          out, busy, acc, last, bq⟩
      simp only [List.forall_mem_cons]
      exact ⟨row rfl (.inl rfl), row rfl (.inr rfl), by simp⟩
    case load =>
      intro hop
      obtain ⟨f, ⟨only, fly, busy, acc, -⟩, latches, out⟩ := startAld_takes s c j b off w
      exact ⟨_, f, h.exec_mx (n := 3) hctl hst hmv rfl (by decide) hop, only, fly, latches, out, busy, acc⟩
    case clear =>
      intro hop
      obtain ⟨f, acc, ⟨only, fly, busy, hacc, -⟩, latches, cleared⟩ := startAclr_takes s c j b off w
      have row : exec (.aclr c) s = .next (startAclr (launchState s c j b off) c (latchOf s c j b) w) :=
        h.exec_mx (n := 6) hctl hst hmv rfl (by decide) hop
      refine ⟨_, f, row, only, fly, latches, busy, fun a m n hm hn => ?_⟩
      have live : f.live = !masked := latches.live
      rw [accGet, hacc, cleared, live]
      cases hm' : masked with
      | true => simp [accGet, k]
      | false => simpa [accGet] using tget_filter_acc k.acc (mxAcc w) hm hn
  case events =>
    intro c f e s A B op rd kind hA
    refine ⟨fun hop hs hB => ?_, fun hop hN => ?_⟩
    · rw [mxEvent_sum kind c s (by omega) hs, mmaBlock_eq]
      refine ⟨onlyCore_setCore s c _, rfl, fun a m n hm hn => ?_⟩
      rw [getCore_setCore]
      exact (putsElem_mmaElem rd c op (mxAcc f.w) A B e.grp).foldl hA hB (getCore s c) hm hn
    · rw [mxEvent_load kind c s hop]
      refine ⟨onlyCore_setCore s c _, fun a m n hm hn => ?_⟩
      rw [getCore_setCore]
      exact (putsElem_accPut (mxAcc f.w) fun m n => rne (presented rd c A m n)).foldl hA hN (getCore s c) hm hn

end Sys2Proof
end

section
/-! PROOFS. Stores of an accumulator (R73, R100, R170), and the obligation O20. -/

namespace Sys2Proof

open Sys2Proof.Machine

/-- The rows that an AST or ASTS stores: `g` of the accumulator's elements. -/
def storedRows (k : Core) (C : Td) (a : Nat) (g : Ext → Ext) : List (List Ext) :=
  (List.range C.rows).map (fun m => (List.range C.cols).map (fun n => g (val (accGet k a m n))))

section
variable (s : State) (c : CoreId) (j : Nat) (b : W256) (off : Nat) (w : W64)

/-- What stands in the slot's descriptor. -/
def astTd : Td := (tdLatch (latched s c j) (mxTdc w)).1

/-- The operation of an AST or ASTS before its bytes are formed. -/
def astOp : OpFly :=
  newOp (launchState s c j b off) c (latchOf s c j b) w [mxTdc w] (astTd s c j w).tag 0 (mxScl w)
    ((storePlan c (astTd s c j w)).1 + 4) (mxMsk w) (storePlan c (astTd s c j w)).2

/-- The bytes of an AST or ASTS, the values that they store, and the counts. -/
def astTile (g : Ext → Ext) : List Host.Cell × List (List Ext) × Counts :=
  storeTile c (astTd s c j w) (mxRnd w) (tolOf s c.cl)
    (drawOf s c.cl (jobTime s (getJob s j)) (astTd s c j w).tag c.k.val 0)
    (Config.padBits (astOp s c j b off w).pad) (storedRows (latched s c j) (astTd s c j w) (mxAcc w) g)

theorem accGet_launched (a m n : Nat) : accGet (launched s c j b off) a m n = accGet (latched s c j) a m n := by
  rw [accGet, launched_acc]
  rfl

/-- A masked one carries no byte. -/
theorem startAst_masked (hm : maskedBy (getClu s c.cl.key) (jobTime s (getJob s j)) c.k.val (mxMsk w) = true) (scaledOp : Bool) :
    startAst (launchState s c j b off) c (latchOf s c j b) w scaledOp =
      mxIssue (launchState s c j b off) c (storePlan c (astTd s c j w)).1 (astOp s c j b off w) := by
  have dead : (astOp s c j b off w).live = false := congrArg not hm
  exact if_pos (congrArg not dead)

/-- One that is not masked forms its bytes from the accumulator as it stands. -/
theorem startAst_live (hm : maskedBy (getClu s c.cl.key) (jobTime s (getJob s j)) c.k.val (mxMsk w) = false) (scaledOp : Bool) :
    startAst (launchState s c j b off) c (latchOf s c j b) w scaledOp =
      mxIssue (launchState s c j b off) c (storePlan c (astTd s c j w)).1 { astOp s c j b off w with
        outD := (astTile s c j b off w (if scaledOp then Ext.mul (astOp s c j b off w).scl else id)).1
        cnt := { (astTile s c j b off w (if scaledOp then Ext.mul (astOp s c j b off w).scl else id)).2.2 with
          trunc := if truncFlag (latched s c j) (mxAcc w) then 1 else 0 } } := by
  have live : (!(astOp s c j b off w).live) = false := congrArg (fun x => !!x) hm
  refine (if_neg (Bool.eq_false_iff.1 live)).trans ?_
  simp only [getCore_launchState, accGet_launched, truncFlag, launched_frame]
  rfl

/-- What an AST or ASTS takes, carries and counts. -/
theorem startAst_takes (scaledOp : Bool) : ∃ f,
    let masked := maskedBy (getClu s c.cl.key) (jobTime s (getJob s j)) c.k.val (mxMsk w)
    TakesMatrix s c j b off (storePlan c (astTd s c j w)).1 f (latched s c j).acc
      (startAst (launchState s c j b off) c (latchOf s c j b) w scaledOp) ∧
    Latches s c j b w [mxTdc w] (mxMsk w) ((storePlan c (astTd s c j w)).1 + 4) (storePlan c (astTd s c j w)).2 f ∧
    f.pad = (astOp s c j b off w).pad ∧
    f.outD = (if masked then [] else (astTile s c j b off w (if scaledOp then Ext.mul (astOp s c j b off w).scl else id)).1) ∧
    (masked = false → f.cnt.trunc = if truncFlag (latched s c j) (mxAcc w) then 1 else 0) := by
  cases hm : maskedBy (getClu s c.cl.key) (jobTime s (getJob s j)) c.k.val (mxMsk w) with
  | true =>
    rw [startAst_masked s c j b off w hm]
    exact ⟨_, takesMatrix_masked s c j b off _ _, latches_newOp s c j b off w _ _ _ _ _ _ _, rfl, rfl,
      fun h => Bool.noConfusion h⟩
  | false =>
    rw [startAst_live s c j b off w hm]
    exact ⟨_, takesMatrix_masked s c j b off _ _, ⟨rfl, rfl, rfl, rfl, rfl, rfl, rfl, rfl, rfl, rfl, rfl⟩, rfl, rfl,
      fun _ => rfl⟩

end

/-- Settles O20: what the launch takes (`startAst_takes`), and a store of a line that meets no flaw. -/
theorem accumulatorStores : Obligations.AccumulatorStores := by
  refine ⟨?launches, ?line⟩
  case launches =>
    intro c j b off s h hctl hst hmv w k jt C masked p
    simp only [List.forall_mem_cons]
    refine ⟨fun hop => ?_, fun hop => ?_, by simp⟩
    · obtain ⟨f, ⟨only, fly, busy, acc, -⟩, latches, pad, out, count⟩ := startAst_takes s c j b off w false
      have row : exec (.ast c) s = .next (startAst (launchState s c j b off) c (latchOf s c j b) w false) :=
        h.exec_mx (n := 4) hctl hst hmv rfl (by decide) hop
      refine ⟨_, f, row, only, fly, acc, busy, latches, ?_, count⟩
      rw [out, pad]
      rfl
    · obtain ⟨f, ⟨only, fly, busy, acc, -⟩, latches, pad, out, count⟩ := startAst_takes s c j b off w true
      have row : exec (.asts c) s = .next (startAst (launchState s c j b off) c (latchOf s c j b) w true) :=
        h.exec_mx (n := 5) hctl hst hmv rfl (by decide) hop
      refine ⟨_, f, row, only, fly, acc, busy, latches, ?_, count⟩
      rw [out, pad]
      rfl
  case line =>
    intro c f e s hk hf
    have event : mxEvent s c f e = (store s (whoOf s c.cl.q.val) (lineOut f.outD e.line).1,
        { f with outD := (lineOut f.outD e.line).2 }) := by
      simp only [mxEvent, hk]
    rw [event, store_flawless hf, lineOut, List.partition_eq_filter_filter]
    exact ⟨rfl, rfl⟩

end Sys2Proof
end

section
/-! PROOFS. The stream slot (R57, R58, R74, R103 to R105, R111 to R120): launch, groups and beats, and the obligation O21. -/

namespace Sys2Proof

open Sys2Proof.Machine

/-! ## The launch -/

theorem exec_streamRow {e : Nat × (CoreId → Instr)} (he : e ∈ streamRows) (c : CoreId) (s : State) :
    exec (e.2 c) s = .next (launch s c (fun b => stOp b == e.1)) ∧ e.1 ≠ 0 := by
  revert e
  simp only [streamRows, List.forall_mem_cons]
  repeat refine ⟨⟨rfl, by decide⟩, ?_⟩
  exact fun _ he => absurd he List.not_mem_nil

/-- A stream operation takes the stream unit with everything that it needs latched. -/
theorem stStart_launchState (s : State) (c : CoreId) (j : Nat) (b : W256) (off : Nat) {w : W64} (hop : fld w 63 58 ≠ 0)
    (free : ¬ s.clk.dst < (launched s c j b off).stBusy) :
    let d := (tdLatch (latched s c j) (stTdd w)).1
    let p := streamPlan c d ((stSrcs w).map (fun n => (tdLatch (latched s c j) n).1)) (stRed w)
      (tdLatch (latched s c j) (stTdr w)).1
    stStart (launchState s c j b off) c (latchOf s c j b) w = setCore (launchState s c j b off) c
      { launched s c j b off with
        stBusy := s.clk.dst + 4 * p.1
        stFly := (latched s c j).stFly ++ [newOp (launchState s c j b off) c (latchOf s c j b) w
          ([stTdd w] ++ stSrcs w ++ [stTdr w]) d.tag 1 (stScl w) p.1 (stMsk w) p.2] } := by
  have free' : ¬ (launchState s c j b off).clk.dst < (getCore (launchState s c j b off) c).stBusy := by
    rw [getCore_launchState]
    exact free
  refine (if_neg hop).trans ((if_neg free').trans ?_)
  simp only [getCore_launchState, launched_frame]
  rfl

/-! ## Lines that a group reads and writes (R114, R120) -/

section
variable (c : CoreId) (d : Td) (srcs : List Td) (red : Nat) (r : Td)

/-- An access of group g: its kind, operand and line, with what R114 says of it. -/
def GroupAccess (g : Nat) (k : EvKind) (sub line : Nat) : Prop :=
  (k = .rd → g < numBeats d ∧ ∃ x, srcs[sub]? = some x ∧ line ∈ srcLines c d x g) ∧
  (k = .wr → 8 ≤ g ∧ (sub = 0 ∧ line ∈ dstLines c d (g - 8) ∨ sub = 1 ∧ line ∈ redLines c d r red (g - 8)))

/-- The lines that the operands need in group g. -/
def groupNeed (g : Nat) : List (List Nat) :=
  if g < numBeats d then srcs.map (fun y => srcLines c d y g) else srcs.map (fun _ => [])

/-- The accesses of group g in the order of R114. -/
def groupAccs (x : GroupSt) (g : Nat) : List (EvKind × Nat × Nat) :=
  (((List.range (groupNeed c d srcs g).length).zip (x.had.zip (groupNeed c d srcs g))).flatMap (fun p =>
    (p.2.2.filter (fun l => !p.2.1.contains l)).map (fun l => (p.1, l)))).map (fun p => (EvKind.rd, p.1, p.2)) ++
  (if 8 ≤ g then dstLines c d (g - 8) else []).map (fun l => (EvKind.wr, 0, l)) ++
  (if 8 ≤ g then redLines c d r red (g - 8) else []).map (fun l => (EvKind.wr, 1, l))

/-- Each access with its cycle. -/
def groupPlaced (as : List (EvKind × Nat × Nat)) : List ((EvKind × Nat × Nat) × Nat) :=
  (as.filter (fun a => inShelf a.2.2)).zip ((shelfSched ((as.filter (fun a => inShelf a.2.2)).map (·.2.2)) [] 0).map Prod.fst) ++
  [0, 1, 2].flatMap (fun f => [EvKind.rd, EvKind.wr].flatMap (fun k =>
    (as.filter (fun a => inFolio f a.2.2 && a.1 == k)).zip
      ((List.range (as.filter (fun a => inFolio f a.2.2 && a.1 == k)).length).map (· / 4))))

/-- How many cycles group g takes. -/
def groupLen (x : GroupSt) (g : Nat) : Nat :=
  max 1 (maxNat ((groupPlaced (groupAccs c d srcs red r x g)).map (fun e => e.2 + 1)))

theorem groupEvs_t (x : GroupSt) (g : Nat) :
    (groupEvs c d srcs red r x g).t = x.t + groupLen c d srcs red r x g := rfl

theorem mem_of_mem_groupPlaced {as : List (EvKind × Nat × Nat)} {e : (EvKind × Nat × Nat) × Nat} (h : e ∈ groupPlaced as) :
    e.1 ∈ as := by
  rcases List.mem_append.1 h with h | h
  · exact (List.mem_filter.1 (List.of_mem_zip h).1).1
  · obtain ⟨f, -, h⟩ := List.mem_flatMap.1 h
    obtain ⟨k, -, h⟩ := List.mem_flatMap.1 h
    exact (List.mem_filter.1 (List.of_mem_zip h).1).1

/-- A line that operand number `q.1` needs is one of that source's lines of the group's beat. -/
theorem mem_groupNeed {had : List (List Nat)} {g : Nat} {q : Nat × List Nat × List Nat}
    (hq : q ∈ (List.range (groupNeed c d srcs g).length).zip (had.zip (groupNeed c d srcs g))) {l : Nat} (hl : l ∈ q.2.2) :
    g < numBeats d ∧ ∃ x, srcs[q.1]? = some x ∧ l ∈ srcLines c d x g := by
  obtain ⟨i, hi, rfl⟩ := List.mem_iff_getElem.1 hq
  simp only [List.length_zip, List.length_range, lt_inf_iff] at hi
  simp only [List.getElem_zip, List.getElem_range] at hl ⊢
  by_cases hg : g < numBeats d
  · have lines : groupNeed c d srcs g = srcs.map (fun y => srcLines c d y g) := if_pos hg
    have hlen : i < srcs.length := by simpa [lines] using hi.1
    simp only [lines, List.getElem_map] at hl
    exact ⟨hg, srcs[i], List.getElem?_eq_getElem hlen, hl⟩
  · have none : groupNeed c d srcs g = srcs.map (fun _ => []) := if_neg hg
    simp only [none, List.getElem_map, List.not_mem_nil] at hl

theorem groupAccess_of_mem {x : GroupSt} {g : Nat} {a : EvKind × Nat × Nat} (h : a ∈ groupAccs c d srcs red r x g) :
    GroupAccess c d srcs red r g a.1 a.2.1 a.2.2 := by
  rcases List.mem_append.1 h with h | h
  · rcases List.mem_append.1 h with h | h
    · obtain ⟨p, hp, rfl⟩ := List.mem_map.1 h
      obtain ⟨q, hq, hp⟩ := List.mem_flatMap.1 hp
      obtain ⟨l, hl, rfl⟩ := List.mem_map.1 hp
      refine ⟨fun _ => ?_, fun hk => EvKind.noConfusion hk⟩
      exact mem_groupNeed c d srcs hq (List.mem_filter.1 hl).1
    · obtain ⟨l, hl, rfl⟩ := List.mem_map.1 h
      by_cases h8 : 8 ≤ g
      · rw [if_pos h8] at hl
        exact ⟨fun hk => EvKind.noConfusion hk, fun _ => ⟨h8, .inl ⟨rfl, hl⟩⟩⟩
      · rw [if_neg h8] at hl
        exact absurd hl List.not_mem_nil
  · obtain ⟨l, hl, rfl⟩ := List.mem_map.1 h
    by_cases h8 : 8 ≤ g
    · rw [if_pos h8] at hl
      exact ⟨fun hk => EvKind.noConfusion hk, fun _ => ⟨h8, .inr ⟨rfl, hl⟩⟩⟩
    · rw [if_neg h8] at hl
      exact absurd hl List.not_mem_nil

/-- An event of group g is one of its accesses, or its beat. -/
theorem mem_groupEvs {x : GroupSt} {g : Nat} {e : Ev} (h : e ∈ (groupEvs c d srcs red r x g).out) :
    e ∈ x.out ∨ e.at' < (groupEvs c d srcs red r x g).t ∧ e.grp = g ∧
      (e.kind = .calc ∨ GroupAccess c d srcs red r g e.kind e.sub e.line) := by
  rcases List.mem_append.1 h with h | h
  · exact .inl h
  · refine .inr ?_
    obtain ⟨i, hi, h⟩ := List.mem_flatMap.1 h
    have hi : i < groupLen c d srcs red r x g := List.mem_range.1 hi
    have placed {e : Ev} {p : Ev → Bool} (h : e ∈ (((groupPlaced (groupAccs c d srcs red r x g)).map (fun y => ({
        at' := x.t + y.2, kind := y.1.1, grp := g, sub := y.1.2.1, line := y.1.2.2
        prio := if y.1.1 = .wr ∧ y.1.2.1 = 1 then rdPrio y.1.2.2 else stPrio y.1.2.2 } : Ev))).filter p)) :
        e.grp = g ∧ GroupAccess c d srcs red r g e.kind e.sub e.line := by
      obtain ⟨y, hy, rfl⟩ := List.mem_map.1 (List.mem_filter.1 h).1
      exact ⟨rfl, groupAccess_of_mem c d srcs red r (mem_of_mem_groupPlaced hy)⟩
    have now (h : (e.at' == x.t + i) = true) : e.at' < (groupEvs c d srcs red r x g).t := by
      rw [groupEvs_t, eq_of_beq h]
      omega
    rcases List.mem_append.1 h with h | h
    · rcases List.mem_append.1 h with h | h
      · obtain ⟨grp, access⟩ := placed h
        have at' := (Bool.and_eq_true_iff.1 (List.mem_filter.1 h).2).1
        exact ⟨now at', grp, .inr access⟩
      · obtain ⟨hb, at'⟩ := List.mem_filter.1 h
        split at hb
        · rw [List.mem_singleton.1 hb] at at' now ⊢
          exact ⟨now at', rfl, .inl rfl⟩
        · exact absurd hb List.not_mem_nil
    · obtain ⟨grp, access⟩ := placed h
      have at' := (Bool.and_eq_true_iff.1 (List.mem_filter.1 h).2).1
      exact ⟨now at', grp, .inr access⟩

/-- What R114 says of an event of the groups, all of which end by cycle `t`. -/
def GroupEvent (t : Nat) (e : Ev) : Prop :=
  e.at' < t ∧ (e.kind = .calc ∨ GroupAccess c d srcs red r e.grp e.kind e.sub e.line)

theorem mem_foldl_groupEvs (gs : List Nat) {x : GroupSt} (hx : ∀ e ∈ x.out, GroupEvent c d srcs red r x.t e) :
    ∀ e ∈ (gs.foldl (groupEvs c d srcs red r) x).out,
      GroupEvent c d srcs red r (gs.foldl (groupEvs c d srcs red r) x).t e := by
  induction gs generalizing x with
  | nil => exact hx
  | cons g gs ih =>
    rw [List.foldl_cons]
    refine ih (x := groupEvs c d srcs red r x g) fun e he => ?_
    rcases mem_groupEvs c d srcs red r he with he | ⟨lt, rfl, access⟩
    · obtain ⟨lt, access⟩ := hx e he
      exact ⟨lt.trans_le (by rw [groupEvs_t]; omega), access⟩
    · exact ⟨lt, access⟩

theorem streamPlan_events : ∀ e ∈ (streamPlan c d srcs red r).2, GroupEvent c d srcs red r (streamPlan c d srcs red r).1 e :=
  mem_foldl_groupEvs c d srcs red r _ (fun _ he => absurd he List.not_mem_nil)

end

end Sys2Proof
end

section
/-! PROOFS. What a beat writes (R74, R105, R112, R113), and the obligation O21. -/

namespace Sys2Proof

open Sys2Proof.Machine

/-! ## Bytes and their places -/

theorem length_bytesOf (m v : Nat) : (bytesOf m v).length = m := by
  induction m generalizing v with
  | zero => rfl
  | succ m ih => simp [bytesOf, ih]

theorem cellsAt_append (a : Nat) (xs ys : List Byte) : cellsAt a (xs ++ ys) = cellsAt a xs ++ cellsAt (a + xs.length) ys := by
  induction xs generalizing a with
  | nil => rfl
  | cons x xs ih =>
    have next : a + (xs.length + 1) = a + 1 + xs.length := by omega
    simp [cellsAt, ih, next]

/-- The bytes from `a` on stand in turn. -/
theorem mem_cellsAt {bs : List Byte} {x : Nat} (h : x < bs.length) (a : Nat) : (a + x, bs.getD x 0) ∈ cellsAt a bs := by
  induction bs generalizing a x with
  | nil => exact absurd h (Nat.not_lt_zero x)
  | cons b bs ih =>
    cases x with
    | zero => exact List.mem_cons_self
    | succ x =>
      have := ih (Nat.lt_of_succ_lt_succ h) (a + 1)
      rw [show a + (x + 1) = a + 1 + x by omega]
      exact List.mem_cons_of_mem _ this

/-- Code number i of codes of m bytes stands i * m bytes on. -/
theorem mem_cellsAt_codes {m i x : Nat} {cs : List Nat} (hi : i < cs.length) (hx : x < m) (a : Nat) :
    (a + (i * m + x), (bytesOf m cs[i]).getD x 0) ∈ cellsAt a (cs.flatMap (bytesOf m)) := by
  induction cs generalizing a i with
  | nil => exact absurd hi (Nat.not_lt_zero i)
  | cons c cs ih =>
    rw [List.flatMap_cons, cellsAt_append, length_bytesOf]
    cases i with
    | zero =>
      rw [Nat.zero_mul, Nat.zero_add]
      exact List.mem_append_left _ (mem_cellsAt (by rw [length_bytesOf]; exact hx) a)
    | succ i =>
      rw [show a + ((i + 1) * m + x) = a + m + (i * m + x) by rw [Nat.succ_mul]; omega]
      exact List.mem_append_right _ (ih (Nat.lt_of_succ_lt_succ hi) (a + m))

theorem mem_firsts {seen l : List Nat} {b : Nat} (h : b ∈ l) (hs : b ∉ seen) : b ∈ firsts seen l := by
  induction l generalizing seen with
  | nil => exact h
  | cons a l ih =>
    rw [firsts]
    rcases List.mem_cons.1 h with rfl | h
    · rw [if_neg (by simpa using hs)]
      exact List.mem_cons_self
    · split
      · exact ih h hs
      · by_cases e : b = a
        · exact e ▸ List.mem_cons_self
        · exact List.mem_cons_of_mem _ (ih h (by simp [e, hs]))

/-! ## Formats of whole bytes (R167, R169) -/

/-- Formats whose codes take whole bytes and that share no scale. -/
theorem fmtBits_bytes {f : Nat} (h : f ∈ [0, 1, 2, 3, 4, 8]) :
    fmtBits f = 8 * (fmtBits f / 8) ∧ 0 < fmtBits f / 8 ∧ isMx f = false := by
  revert f
  decide

theorem mul_fmtBits_div {f : Nat} (h : f ∈ [0, 1, 2, 3, 4, 8]) (n : Nat) : n * fmtBits f / 8 = n * (fmtBits f / 8) :=
  Nat.mul_div_assoc n ⟨_, (fmtBits_bytes h).1⟩

theorem length_flatMap_bytesOf (m : Nat) (cs : List Nat) : (cs.flatMap (bytesOf m)).length = cs.length * m := by
  simp [List.length_flatMap, length_bytesOf]

theorem filter_range_lt (n k cols : Nat) :
    ((List.range n).map (k + ·)).filter (fun i => decide (i < cols)) = (List.range (min n (cols - k))).map (k + ·) := by
  induction n with
  | zero => simp
  | succ n ih =>
    rw [List.range_succ, List.map_append, List.filter_append, ih]
    by_cases h : k + n < cols
    · rw [show min (n + 1) (cols - k) = n + 1 by omega, show min n (cols - k) = n by omega, List.range_succ,
        List.map_append]
      simp [h]
    · rw [show min (n + 1) (cols - k) = min n (cols - k) by omega]
      simp [h]

/-- How many columns beat j has. -/
def beatWidth (d : Td) (j : Nat) : Nat := min 32 (d.cols - 32 * (j % beatsPerRow d))

/-- The row and columns of a beat (R113). -/
theorem beatElems_eq (d : Td) (j : Nat) : beatElems d j = (j / beatsPerRow d,
    (List.range (beatWidth d j)).map (32 * (j % beatsPerRow d) + ·)) := by
  simp only [beatElems, filter_range_lt, beatWidth]

theorem beatReduce_outD (f : OpFly) (c : CoreId) (d t : Td) (j : Nat) (vs : List Ext) :
    (beatReduce f c d t j vs).outD = f.outD := by
  simp only [beatReduce]
  split
  · rfl
  · split <;> rfl

/-! ## The bytes of a beat -/

section
variable (f : OpFly) (c : CoreId) (d t : Td) (srcs : List Td) (j : Nat)

/-- The bytes of the beat join those that wait. -/
theorem streamBeat_outD : ∃ sh : List Host.Cell, (streamBeat f c d t srcs j).outD = f.outD ++
    (if fld f.w 63 58 = 0x0F
      then copyCells f c d (srcs.getD 0 d) (j / beatsPerRow d)
        ((List.range (beatWidth d j)).map (32 * (j % beatsPerRow d) + ·))
      else (beatOut f c d (j / beatsPerRow d)
        (((List.range (beatWidth d j)).map (32 * (j % beatsPerRow d) + ·)).headD 0)
        ((List.range (beatWidth d j)).map (fun i => beatVal f c srcs (j / beatsPerRow d) (32 * (j % beatsPerRow d) + i)))).1)
    ++ sh := by
  by_cases h : fld f.w 63 58 = 0x0F
  · simp only [streamBeat, beatReduce_outD, beatElems_eq, h, if_true]
    exact ⟨_, rfl⟩
  · simp only [streamBeat, beatReduce_outD, beatElems_eq, h, if_false, List.map_map]
    exact ⟨_, rfl⟩

variable {d} {i : Nat} (hd : d.fmt ∈ [0, 1, 2, 3, 4, 8])
include hd

/-- A result rounds into its bytes (R112, R171). -/
theorem mem_beatOut {row k0 : Nat} {xs : List Ext} (hi : i < xs.length) {x : Nat} (hx : x < fmtBits d.fmt / 8) :
    (rowAddr c d row + (k0 + i) * (fmtBits d.fmt / 8) + x,
      (bytesOf (fmtBits d.fmt / 8) (storeCode d.fmt (stRnd f.w)
        (if stRnd f.w = 1 then drawAt f.draw d.cols row (k0 + i) else 0) xs[i])).getD x 0) ∈ (beatOut f c d row k0 xs).1 := by
  obtain ⟨bits, pos, mx⟩ := fmtBits_bytes hd
  have wide : 8 ≤ fmtBits d.fmt := by omega
  have place := mul_fmtBits_div hd k0
  have wholeBytes : cdiv (xs.length * fmtBits d.fmt) 8 = xs.length * (fmtBits d.fmt / 8) := by
    have := mul_fmtBits_div hd xs.length
    have : 8 ∣ xs.length * fmtBits d.fmt := Dvd.dvd.mul_left ⟨_, bits⟩ _
    unfold cdiv
    omega
  refine List.mem_append_left _ ?_
  simp only [encodeRow, mx, Bool.false_eq_true, if_false, packCodes, wide, if_true]
  rw [List.take_of_length_le (by rw [length_flatMap_bytesOf]; simp [wholeBytes]), place,
    show rowAddr c d row + (k0 + i) * (fmtBits d.fmt / 8) + x =
      rowAddr c d row + k0 * (fmtBits d.fmt / 8) + (i * (fmtBits d.fmt / 8) + x) by rw [Nat.add_mul]; omega]
  have code := mem_cellsAt_codes (m := fmtBits d.fmt / 8) (i := i) (x := x) (cs := (xs.zip ((List.range xs.length).map
    (fun i => if stRnd f.w = 1 then drawAt f.draw d.cols row (k0 + i) else 0))).map
      (fun p => storeCode d.fmt (stRnd f.w) p.2 p.1)) (by simpa using hi) hx (rowAddr c d row + k0 * (fmtBits d.fmt / 8))
  simpa using code

/-- A COPY takes the source's own bytes (R105). -/
theorem mem_copyCells {y : Td} {row col : Nat} {ks : List Nat} (hc : col ∈ ks) {x : Nat} (hx : x < fmtBits d.fmt / 8) :
    (rowAddr c d row + col * (fmtBits d.fmt / 8) + x,
      heldByte f.held (some 0) (rowAddr c y (srcRowOf y row) + col * (fmtBits d.fmt / 8) + x)) ∈ copyCells f c d y row ks := by
  obtain ⟨bits, pos, mx⟩ := fmtBits_bytes hd
  have wide : 8 ≤ fmtBits d.fmt := by omega
  have place := mul_fmtBits_div hd col
  have mine : col * (fmtBits d.fmt / 8) + x ∈ elemBytes d.fmt d.stored col := by
    refine List.mem_append_left _ ?_
    rw [if_pos wide, place]
    exact List.mem_map.2 ⟨x, List.mem_range.2 hx, rfl⟩
  refine List.mem_map.2 ⟨col * (fmtBits d.fmt / 8) + x, mem_firsts (List.mem_flatMap.2 ⟨col, hc, mine⟩) List.not_mem_nil, ?_⟩
  rw [Nat.add_assoc, Nat.add_assoc]

end

theorem headD_map_range {n : Nat} (h : 0 < n) (k : Nat) : ((List.range n).map (k + ·)).headD 0 = k := by
  obtain ⟨m, rfl⟩ := Nat.exists_eq_succ_of_ne_zero (Nat.pos_iff_ne_zero.1 h)
  rw [Nat.succ_eq_add_one, List.range_succ_eq_map]
  rfl

/-- Settles O21: the launch (`stStart_launchState`), the lines of the groups (`streamPlan_events`), the bytes of a beat
(`mem_beatOut`, `mem_copyCells`). -/
theorem streamSlot : Obligations.StreamSlot := by
  refine ⟨?launch, ?groups, ?beat⟩
  case launch =>
    intro c j b off s h hctl hmx hmv w k d p e he hop
    obtain ⟨hi, hne⟩ := exec_streamRow he c s
    have start := stStart_launchState s c j b off (w := bnSt b) (by rw [show fld (bnSt b) 63 58 = e.1 from hop]; exact hne)
      (h.st_free (by rw [hop]; exact hne))
    rw [h.launch_st (by simp [hop]) hctl hmx hmv, start] at hi
    exact ⟨_, _, hi, onlyCore_setCore_launchState s c j b off _, getCore_setCore _ c _,
      latches_newOp s c j b off w _ _ _ _ _ _ _, rfl, rfl, rfl, rfl, rfl⟩
  case groups =>
    intro c d r srcs red e he
    obtain ⟨lt, access⟩ := streamPlan_events c d srcs red r e he
    refine ⟨lt, fun hk => ?_, fun hk => ?_⟩
    · rcases access with calc' | ⟨reads, -⟩
      · exact EvKind.noConfusion (hk.symm.trans calc')
      · exact reads hk
    · rcases access with calc' | ⟨-, writes⟩
      · exact EvKind.noConfusion (hk.symm.trans calc')
      · exact writes hk
  case beat =>
    intro c d r srcs j i x f hd hi hcol hx row col u
    obtain ⟨sh, out⟩ := streamBeat_outD f c d r srcs j
    have width : i < beatWidth d j := by
      unfold beatWidth
      omega
    rw [out]
    refine ⟨fun y hy => List.mem_append_left _ (List.mem_append_left _ hy), fun hop => ?_, fun hop y hy => ?_⟩
    · refine List.mem_append_left _ (List.mem_append_right _ ?_)
      rw [if_neg hop, headD_map_range (by omega)]
      have byte := mem_beatOut f c hd (row := row) (k0 := 32 * (j % beatsPerRow d)) (i := i) (xs := (List.range (beatWidth d j)).map
        (fun i => beatVal f c srcs row (32 * (j % beatsPerRow d) + i))) (by simpa using width) hx
      simpa using byte
    · refine List.mem_append_left _ (List.mem_append_right _ ?_)
      have first : srcs.getD 0 d = y := by
        cases srcs with
        | nil => exact absurd hy (by simp)
        | cons z zs => exact Option.some.inj hy
      rw [if_pos hop, first]
      exact mem_copyCells f c hd (List.mem_map.2 ⟨i, List.mem_range.2 width, rfl⟩) hx

end Sys2Proof
end

section
/-! PROOFS. The move slot's rows at their launch (R58, R68, R76, R481), and the obligation O24. -/

namespace Sys2Proof

open Sys2Proof.Machine

/-- The move that a slot queues: latched, and not yet started. -/
def moveOf (s : State) (c : CoreId) (j : Nat) (l : Latch) (w : W64) : Move :=
  { op := fld w 63 58, md := mdOf l.core w, mdIdx := mvMd w, ofs := mvOfs w
    cc := if mvCCE w then some (mvCC w) else none
    step := if fld w 63 58 = opRED then sReg (getClu s c.cl.key) l.jt (mvSstep w) else 0
    launch := s.clk.dst, lines := moveLines s c (fld w 63 58) (mdOf l.core w) (mvOfs w)
    lp := if fld w 63 58 = opMOV then
        (match mdEnds s c (fld w 63 58) (mdOf l.core w) (mvOfs w) with
         | some (a, some b) => movLatency s c j a b
         | _ => 0) else 0
    start := none, plan := [], held := []
    masked := fld w 63 58 == opMOV && maskedBy (getClu s c.cl.key) l.jt c.k.val (mvMsk w) }

theorem queueMove_room {s : State} {c : CoreId} (room : ¬ 8 ≤ queued s (getCore s c)) (j : Nat) (l : Latch) (w : W64) :
    queueMove s c j l w = setCore s c { getCore s c with mq := (getCore s c).mq ++ [moveOf s c j l w] } := if_neg room

section
variable (s : State) (c : CoreId) (j : Nat) (b : W256) (off : Nat)

/-- A move takes the last place of the core's queue. -/
theorem queueMove_launchState (room : ¬ 8 ≤ queued (launchState s c j b off) (launched s c j b off)) (w : W64) :
    queueMove (launchState s c j b off) c j (latchOf s c j b) w = setCore (launchState s c j b off) c
      { launched s c j b off with mq := (getCore s c).mq ++ [moveOf (launchState s c j b off) c j (latchOf s c j b) w] } := by
  rw [queueMove_room (by rw [getCore_launchState]; exact room), getCore_launchState]
  simp only [launched_frame, latched_frame]

/-- LDTD has read its bytes and its descriptor write is on its way. -/
theorem startLdtd_launchState (good : s.flaws = [])
    (alone : (latched s c j).tdPend.find? (tdMeet s.clk.dst (jobTime s (getJob s j)) (ldtdPend s c b)) = none) :
    let t := startLdtd (launchState s c j b off) c (latchOf s c j b) (bnMv b)
    OnlyCore s t c ∧ getCore t c = { launched s c j b off with
      tdFly := (latched s c j).tdFly ++ [ldtdOp s c (bnMv b)], tdPend := (latched s c j).tdPend ++ [ldtdPend s c b] } := by
  have read := readCheck_good (s := launchState s c j b off) (whoOf (launchState s c j b off) c.cl.q.val)
    (as := (List.range 16).map (shelfAddr c (tdByte (bnMv b)) + ·)) (by simp [flawsOf, launchState, setCore, good])
  have load : startLdtd (launchState s c j b off) c (latchOf s c j b) (bnMv b) =
      addTd (setCore (launchState s c j b off) c { launched s c j b off with
        tdFly := (latched s c j).tdFly ++ [ldtdOp s c (bnMv b)] }) c (jobTime s (getJob s j)) (ldtdPend s c b) := by
    refine (if_neg (by rw [read]; simp)).trans ?_
    simp only [read, getCore_launchState, launched_frame]
    rfl
  have pend : (getCore (setCore (launchState s c j b off) c { launched s c j b off with
      tdFly := (latched s c j).tdFly ++ [ldtdOp s c (bnMv b)] }) c).tdPend.find?
        (tdMeet s.clk.dst (jobTime s (getJob s j)) (ldtdPend s c b)) = none := by
    rw [getCore_setCore]
    simp only [launched_frame]
    exact alone
  intro t
  rw [show t = _ from load, addTd_alone pend]
  refine ⟨(onlyCore_setCore_launchState s c j b off _).trans (onlyCore_setCore _ c _), ?_⟩
  rw [getCore_setCore, getCore_setCore]
  simp only [launched_frame]

/-- STTD carries the descriptor as latched. -/
theorem startSttd_launchState : startSttd (launchState s c j b off) c (latchOf s c j b) (bnMv b) =
    setCore (launchState s c j b off) c { launched s c j b off with
      tdFly := (latched s c j).tdFly ++ [sttdOp s c (bnMv b) (tget 0 (latched s c j).td (mvTd (bnMv b)))] } := by
  simp only [startSttd, getCore_launchState, launched_frame]
  rfl

end

theorem exec_queuedMoveRow {e : Nat × (CoreId → Instr)} (he : e ∈ queuedMoveRows) (c : CoreId) (s : State) :
    exec (e.2 c) s = .next (launch s c (fun b => mvOp b == e.1)) ∧ 1 ≤ e.1 ∧ e.1 ≤ 5 := by
  revert e
  simp only [queuedMoveRows, List.forall_mem_cons]
  repeat refine ⟨⟨rfl, by decide⟩, ?_⟩
  exact fun _ he => absurd he List.not_mem_nil

/-- Settles O24: the launch leaves the move slot alone to act (`Launches.launch_mv`), and each row does what the lemmas
above say. -/
theorem moveSlot : Obligations.MoveSlot := by
  refine ⟨?launches, ?event⟩
  case launches =>
    intro c j b off s h hctl hmx hst w k
    refine ⟨fun e he hop => ?_, fun hop good alone => ?_, fun hop => ?_⟩
    · obtain ⟨hi, lo, hi5⟩ := exec_queuedMoveRow he c s
      have op : fld (bnMv b) 63 58 = e.1 := hop
      have queues := queueMove_launchState s c j b off (h.queue_free (by rw [hop]; exact lo) (by rw [hop]; exact hi5)) (bnMv b)
      have act : mvStart (launchState s c j b off) c j (latchOf s c j b) (bnMv b) =
          queueMove (launchState s c j b off) c j (latchOf s c j b) (bnMv b) := by
        have others : fld (bnMv b) 63 58 ≠ 0 ∧ fld (bnMv b) 63 58 ≠ opLDTD ∧ fld (bnMv b) 63 58 ≠ opSTTD := by
          rw [op, opLDTD, opSTTD]
          omega
        obtain ⟨h0, hl, hs⟩ := others
        exact (if_neg h0).trans ((if_neg hl).trans (if_neg hs))
      rw [h.launch_mv (by simp [hop]) hctl hmx hst, act, queues] at hi
      refine ⟨_, _, hi, onlyCore_setCore_launchState s c j b off _, getCore_setCore _ c _, op, rfl, rfl, rfl, rfl, rfl, rfl,
        rfl, by rw [← op]; rfl, by rw [← op]; rfl⟩
    · have op : fld (bnMv b) 63 58 = 6 := hop
      have act : mvStart (launchState s c j b off) c j (latchOf s c j b) (bnMv b) =
          startLdtd (launchState s c j b off) c (latchOf s c j b) (bnMv b) := by
        simp [mvStart, op, opLDTD]
      have row : exec (.ldtd c) s = .next (launch s c (fun b => mvOp b == 6)) := rfl
      rw [h.launch_mv (by simp [hop]) hctl hmx hst, act] at row
      exact ⟨_, row, startLdtd_launchState s c j b off good alone⟩
    · have op : fld (bnMv b) 63 58 = 7 := hop
      have act : mvStart (launchState s c j b off) c j (latchOf s c j b) (bnMv b) =
          startSttd (launchState s c j b off) c (latchOf s c j b) (bnMv b) := by
        simp [mvStart, op, opLDTD, opSTTD]
      have row : exec (.sttd c) s = .next (launch s c (fun b => mvOp b == 7)) := rfl
      rw [h.launch_mv (by simp [hop]) hctl hmx hst, act, startSttd_launchState] at row
      exact ⟨_, row, onlyCore_setCore_launchState s c j b off _, getCore_setCore _ c _⟩
  case event =>
    intro c o e s good
    simp only [tdEvent, store_flawless good]

end Sys2Proof
end

section
/-! PROOFS. The matrix and the stream unit in a core cycle (R99, R100, R113, R115), and the completion of their operations
(R64, R184). -/

namespace Sys2Proof

open Sys2Proof.Machine

/-! ## What an event leaves of its core -/

/-- The operations that a core has in flight. -/
def flies (k : Core) : List TdOp × List OpFly × List OpFly × List Move := (k.tdFly, k.mxFly, k.stFly, k.mvFly)

/-- The clock, the errors in memory and the operations that core `c` has in flight stay. -/
structure FliesKept (s t : State) (c : CoreId) : Prop where
  clk   : t.clk = s.clk
  flaws : t.flaws = s.flaws
  fly   : flies (getCore t c) = flies (getCore s c)

section
variable {s t u : State} {c : CoreId}

theorem FliesKept.trans (h : FliesKept s t c) (h' : FliesKept t u c) : FliesKept s u c where
  clk := h'.clk.trans h.clk
  flaws := h'.flaws.trans h.flaws
  fly := h'.fly.trans h.fly

theorem FliesKept.of_eq (hclk : t.clk = s.clk) (hflaws : t.flaws = s.flaws) (hcores : t.cores = s.cores) : FliesKept s t c where
  clk := hclk
  flaws := hflaws
  fly := by rw [getCore_congr hcores]

protected theorem FliesKept.refl (s : State) (c : CoreId) : FliesKept s s c := .of_eq rfl rfl rfl

theorem fliesKept_setCore {x : Core} (h : flies x = flies (getCore s c)) : FliesKept s (setCore s c x) c where
  clk := rfl
  flaws := rfl
  fly := by rw [getCore_setCore, h]

theorem fliesKept_slotFault (s : State) (c d : CoreId) (off code slot : Nat) : FliesKept s (slotFault s d off code slot) c := by
  obtain ⟨l, r, h⟩ := postFaults_touches d.cl.key (pgCLU (d.cl.key / 16) (d.cl.key % 16))
    [(code, d0Core d.k.val off, BitVec.ofNat 32 slot)] s
  have raised : slotFault s d off code slot = faultOpt { s with ldg := l, regs := r } (residentOn s (d.cl.key / 16)) := by
    rw [slotFault, coreFault, coreFaults, faultsAt_eq, h]
  exact .of_eq (by simp [raised]) (by simp [raised]) (by simp [raised])

/-- A line that is read with no error in memory is held, and nothing else changes. -/
theorem lineIn_flawless (hf : s.flaws = []) (c : CoreId) (ts : List Td) (f : OpFly) (e : Ev) :
    ∃ h, lineIn s c ts f e = (s, { f with held := h }) :=
  ⟨_, by rw [lineIn, readLine_flawless hf]⟩

end

/-- A block that is summed changes the accumulators and their flags alone. -/
theorem flies_mmaBlock (rd : Nat → Byte) (c : CoreId) (op acc : Nat) (A B : Td) (j : Nat) (k : Core) :
    flies (mmaBlock rd c op acc A B j k) = flies k := by
  have elem (k : Core) (m n : Nat) : flies (mmaElem rd c op acc A B j k m n) = flies k := by
    unfold mmaElem flagTrunc
    split <;> rfl
  rw [mmaBlock_eq]
  exact foldl_keeps (obs := flies) (fun m _ k => foldl_keeps (obs := flies) (fun n _ k => elem k m n) k) k

/-- A tile that is loaded changes the accumulator alone. -/
theorem flies_foldl_accPut (a R N : Nat) (v : Nat → Nat → W32) (k : Core) :
    flies ((List.range R).foldl (fun k m => (List.range N).foldl (fun k n => accPut k a m n (v m n)) k) k) = flies k := by
  have elem (k : Core) (m n : Nat) : flies (accPut k a m n (v m n)) = flies k := rfl
  exact foldl_keeps (obs := flies) (fun m _ k => foldl_keeps (obs := flies) (fun n _ k => elem k m n) k) k

theorem streamBeat_plan (f : OpFly) (c : CoreId) (d t : Td) (srcs : List Td) (j : Nat) :
    (streamBeat f c d t srcs j).plan = f.plan := by
  simp only [streamBeat, beatReduce]
  split
  · rfl
  · split <;> rfl

section
variable {s : State} (hf : s.flaws = []) (c : CoreId) (f : OpFly) (e : Ev)
include hf

theorem mxEvent_keeps : FliesKept s (mxEvent s c f e).1 c ∧ (mxEvent s c f e).2.plan = f.plan := by
  match hk : e.kind with
  | .rd =>
    obtain ⟨h, line⟩ := lineIn_flawless hf c (f.tds.map tdOf) f e
    simp only [mxEvent, hk, line]
    exact ⟨.refl s c, trivial⟩
  | .wr =>
    simp only [mxEvent, hk, store_flawless hf]
    exact ⟨.of_eq rfl rfl rfl, trivial⟩
  | .calc =>
    by_cases load : fld f.w 63 58 = 3
    · rw [mxEvent_load hk c s load]
      exact ⟨fliesKept_setCore (flies_foldl_accPut _ _ _ _ _), rfl⟩
    · by_cases sum : e.sub = 0
      · simp only [mxEvent, hk, if_neg load, if_pos sum]
        split
        · exact ⟨fliesKept_slotFault s c c _ _ _, trivial⟩
        · exact ⟨.refl s c, trivial⟩
      · rw [mxEvent_sum hk c s load sum]
        exact ⟨fliesKept_setCore (flies_mmaBlock _ _ _ _ _ _ _ _), rfl⟩

theorem stEvent_keeps : FliesKept s (stEvent s c f e).1 c ∧ (stEvent s c f e).2.plan = f.plan := by
  match hk : e.kind with
  | .rd =>
    obtain ⟨h, line⟩ := lineIn_flawless hf c (stTds f).2.1 f e
    simp only [stEvent, hk, line]
    exact ⟨.refl s c, trivial⟩
  | .wr =>
    simp only [stEvent, hk, store_flawless hf]
    refine ⟨.of_eq rfl rfl rfl, ?_⟩
    split <;> rfl
  | .calc =>
    simp only [stEvent, hk]
    exact ⟨.refl s c, streamBeat_plan f c _ _ _ _⟩

end

/-! ## The matrix and the stream unit of a core -/

/-- The units of a core whose operations are latched whole at their launch. -/
inductive SlotUnit where
  | matrix
  | stream

namespace SlotUnit

/-- Its number among the units of a core. -/
def num : SlotUnit → Nat
  | matrix => 0
  | stream => 1

/-- The operations of the unit. -/
def get : SlotUnit → Core → List OpFly
  | matrix => Core.mxFly
  | stream => Core.stFly

/-- The core with other operations in the unit. -/
def put : SlotUnit → Core → List OpFly → Core
  | matrix => fun k l => { k with mxFly := l }
  | stream => fun k l => { k with stFly := l }

/-- The operations of the other of the two. -/
def other : SlotUnit → Core → List OpFly
  | matrix => Core.stFly
  | stream => Core.mxFly

/-- An event of one of its operations. -/
def event : SlotUnit → State → CoreId → OpFly → Ev → State × OpFly
  | matrix => mxEvent
  | stream => stEvent

/-- The unit's part in a phase of a core cycle in which no access loses. -/
def phase (u : SlotUnit) (wr : Bool) (s : State) (key : Nat) : State :=
  unitPhase [] wr key u.num u.get u.put OpFly.plan (fun o p => { o with plan := p }) u.event s

/-- Events of an operation, one after the other. -/
def events (u : SlotUnit) (c : CoreId) (evs : List Ev) (x : State × OpFly) : State × OpFly :=
  evs.foldl (fun y e => u.event y.1 c y.2 e) x

section
variable (u : SlotUnit) (k : Core) (l m : List OpFly)

@[simp] theorem get_put : u.get (u.put k l) = l := by cases u <;> rfl
@[simp] theorem put_put : u.put (u.put k l) m = u.put k m := by cases u <;> rfl
@[simp] theorem put_get : u.put k (u.get k) = k := by cases u <;> rfl
@[simp] theorem other_put : u.other (u.put k l) = u.other k := by cases u <;> rfl
@[simp] theorem tdFly_put : (u.put k l).tdFly = k.tdFly := by cases u <;> rfl
@[simp] theorem mvFly_put : (u.put k l).mvFly = k.mvFly := by cases u <;> rfl

end

theorem get_eq_flies (u : SlotUnit) (k : Core) : u.get k = match u with
    | matrix => (flies k).2.1
    | stream => (flies k).2.2.1 := by cases u <;> rfl

theorem other_eq_flies (u : SlotUnit) (k : Core) : u.other k = match u with
    | matrix => (flies k).2.2.1
    | stream => (flies k).2.1 := by cases u <;> rfl

/-! ### Events -/

theorem event_keeps (u : SlotUnit) {s : State} (hf : s.flaws = []) (c : CoreId) (f : OpFly) (e : Ev) :
    FliesKept s (u.event s c f e).1 c ∧ (u.event s c f e).2.plan = f.plan :=
  match u with
  | matrix => mxEvent_keeps hf c f e
  | stream => stEvent_keeps hf c f e

theorem events_keep (u : SlotUnit) (c : CoreId) (evs : List Ev) {s : State} (hf : s.flaws = []) (f : OpFly) :
    FliesKept s (u.events c evs (s, f)).1 c ∧ (u.events c evs (s, f)).2.plan = f.plan := by
  induction evs generalizing s f with
  | nil => exact ⟨.refl s c, rfl⟩
  | cons e evs ih =>
    obtain ⟨kept, plan⟩ := u.event_keeps hf c f e
    obtain ⟨kept', plan'⟩ := ih (s := (u.event s c f e).1) (kept.flaws.trans hf) (u.event s c f e).2
    exact ⟨kept.trans kept', plan'.trans plan⟩

/-- An event that writes stores the same bytes in every state without an error in memory. -/
theorem event_writes (u : SlotUnit) (c : CoreId) (f : OpFly) {e : Ev} (hk : e.kind = .wr) :
    ∃ cs g, ∀ s : State, s.flaws = [] → u.event s c f e = (wrCells s cs, g) := by
  cases u with
  | matrix => exact ⟨_, _, fun s hf => by simp only [event, mxEvent, hk, store_flawless hf]; rfl⟩
  | stream => exact ⟨_, _, fun s hf => by simp only [event, stEvent, hk, store_flawless hf]; rfl⟩

theorem wrCells_append (s : State) (cs ds : List Host.Cell) : wrCells (wrCells s cs) ds = wrCells s (cs ++ ds) := by
  simp only [wrCells, List.foldl_append]
  rfl

theorem events_write (u : SlotUnit) (c : CoreId) {evs : List Ev} (hk : ∀ e ∈ evs, e.kind = .wr) (f : OpFly) :
    ∃ cs g, ∀ s : State, s.flaws = [] → u.events c evs (s, f) = (wrCells s cs, g) := by
  induction evs generalizing f with
  | nil => exact ⟨[], f, fun _ _ => rfl⟩
  | cons e evs ih =>
    obtain ⟨cs, g, first⟩ := u.event_writes c f (hk e List.mem_cons_self)
    obtain ⟨ds, g', rest⟩ := ih (fun x hx => hk x (List.mem_cons_of_mem _ hx)) g
    refine ⟨cs ++ ds, g', fun s hf => ?_⟩
    rw [events, List.foldl_cons, first s hf, ← wrCells_append]
    exact rest (wrCells s cs) hf

/-! ### The phases of the unit -/

/-- What the core has in flight beside the unit's operations stays. -/
structure RestKept (u : SlotUnit) (s t : State) (c : CoreId) : Prop where
  clk   : t.clk = s.clk
  other : u.other (getCore t c) = u.other (getCore s c)
  tds   : (getCore t c).tdFly = (getCore s c).tdFly
  mvs   : (getCore t c).mvFly = (getCore s c).mvFly

theorem restKept_put (u : SlotUnit) {s t : State} {c : CoreId} (h : FliesKept s t c) (l : List OpFly) :
    u.RestKept s (setCore t c (u.put (getCore t c) l)) c := by
  obtain ⟨clk, -, same⟩ := h
  refine ⟨clk, ?_, ?_, ?_⟩ <;> rw [getCore_setCore]
  · rw [other_put, other_eq_flies, other_eq_flies, same]
  · exact (u.tdFly_put _ l).trans (congrArg Prod.fst same)
  · exact (u.mvFly_put _ l).trans (congrArg (fun x => x.2.2.2) same)

section
variable {u : SlotUnit} {s : State} {c : CoreId} {f : OpFly} (hg : u.get (getCore s c) = [f]) (hf : s.flaws = [])
include hg hf

theorem get_events (evs : List Ev) : u.get (getCore (u.events c evs (s, f)).1 c) = [f] := by
  rw [get_eq_flies, (u.events_keep c evs hf f).1.fly, ← get_eq_flies, hg]

/-- A phase of a unit with one operation does that operation's events of the phase. -/
theorem phase_eq (wr : Bool) : u.phase wr s c.key =
    if (phaseEvs s wr f.plan).isEmpty && (!wr || (dueEvs s f.plan).length == 0) then s
    else
      let r := u.events c (phaseEvs s wr f.plan) (s, f)
      setCore r.1 c (u.put (getCore r.1 c)
        [if wr then { r.2 with plan := f.plan.drop (dueEvs s f.plan).length } else r.2]) := by
  have all (op : Nat) (evs : List Ev) : evs.filter (carried [] op) = evs := by
    refine List.filter_eq_self.2 (fun e _ => ?_)
    unfold carried
    split <;> simp
  have after := get_events hg hf (phaseEvs s wr f.plan)
  simp only [events] at after
  simp only [phase, unitPhase, coreOfKey_key, hg, List.length_singleton, List.range_one, List.foldl_cons, List.foldl_nil,
    List.getElem?_cons_zero, runEvs, all, after, setAt, events]

theorem restKept_phase (wr : Bool) : u.RestKept s (u.phase wr s c.key) c := by
  rw [phase_eq hg hf]
  split
  · exact ⟨rfl, rfl, rfl, rfl⟩
  · exact u.restKept_put (u.events_keep c _ hf f).1 _

/-- After the reads and sums of a cycle the unit holds the operation as they left it. -/
theorem phase_reads : OnlyCore (u.events c (phaseEvs s false f.plan) (s, f)).1 (u.phase false s c.key) c ∧
    getCore (u.phase false s c.key) c = u.put (getCore (u.events c (phaseEvs s false f.plan) (s, f)).1 c)
      [(u.events c (phaseEvs s false f.plan) (s, f)).2] := by
  rw [phase_eq hg hf]
  split
  · next none =>
    have none : phaseEvs s false f.plan = [] := by simpa using none
    rw [none, events, List.foldl_nil, ← hg, put_get]
    exact ⟨⟨rfl, fun _ _ => rfl⟩, rfl⟩
  · exact ⟨onlyCore_setCore _ c _, getCore_setCore _ c _⟩

/-- After the writes of a cycle the cycle's events have left the plan. -/
theorem phase_writes (hd : dueEvs s f.plan ≠ []) : u.phase true s c.key =
    let r := u.events c (phaseEvs s true f.plan) (s, f)
    setCore r.1 c (u.put (getCore r.1 c) [{ r.2 with plan := f.plan.drop (dueEvs s f.plan).length }]) := by
  rw [phase_eq hg hf, if_neg (by simp [hd])]
  rfl

end

/-! ### The cycle of a core whose only events are the unit's -/

/-- Operation `f` stands alone in the unit, and nothing else of the core has an event in this cycle. -/
structure Alone (u : SlotUnit) (s : State) (c : CoreId) (f : OpFly) : Prop where
  mine  : u.get (getCore s c) = [f]
  other : ∀ g ∈ u.other (getCore s c), dueEvs s g.plan = []
  tds   : ∀ o ∈ (getCore s c).tdFly, dueEvs s o.plan = []
  mvs   : ∀ m ∈ (getCore s c).mvFly, dueEvs s m.plan = []

theorem Alone.of_restKept {u : SlotUnit} {s t : State} {c : CoreId} {f g : OpFly} (h : u.Alone s c f) (k : u.RestKept s t c)
    (hg : u.get (getCore t c) = [g]) : u.Alone t c g where
  mine := hg
  other := by simpa only [k.other, dueEvs_congr k.clk] using h.other
  tds := by simpa only [k.tds, dueEvs_congr k.clk] using h.tds
  mvs := by simpa only [k.mvs, dueEvs_congr k.clk] using h.mvs

theorem Alone.corePhase_eq {u : SlotUnit} {s : State} {c : CoreId} {f : OpFly} (h : u.Alone s c f) (hf : s.flaws = [])
    (wr : Bool) : corePhase [] [] wr s c.key = u.phase wr s c.key := by
  obtain ⟨clk, other, -, mvs⟩ := restKept_phase h.mine hf wr
  have tds : ∀ o ∈ (getCore s (coreOfKey c.key)).tdFly, dueEvs s o.plan = [] := by rw [coreOfKey_key]; exact h.tds
  have mvs : ∀ m ∈ (getCore (u.phase wr s c.key) (coreOfKey c.key)).mvFly, dueEvs (u.phase wr s c.key) m.plan = [] := by
    simpa only [coreOfKey_key, mvs, dueEvs_congr clk] using h.mvs
  cases u with
  | matrix =>
    have st : ∀ g ∈ (getCore (matrix.phase wr s c.key) (coreOfKey c.key)).stFly,
        dueEvs (matrix.phase wr s c.key) g.plan = [] := by
      rw [coreOfKey_key]
      intro g hg
      rw [dueEvs_congr clk]
      exact h.other g (other ▸ hg)
    simp only [corePhase, List.contains_nil, Bool.false_eq_true, if_false, unitPhase_idle tds]
    exact (congrArg _ (unitPhase_idle st _ _ _ _ _ _)).trans (unitPhase_idle mvs _ _ _ _ _ _)
  | stream =>
    have mx : ∀ g ∈ (getCore s (coreOfKey c.key)).mxFly, dueEvs s g.plan = [] := by rw [coreOfKey_key]; exact h.other
    simp only [corePhase, List.contains_nil, Bool.false_eq_true, if_false, unitPhase_idle tds, unitPhase_idle mx]
    exact unitPhase_idle mvs _ _ _ _ _ _

end SlotUnit

/-! ## A cycle in which only one operation has events -/

/-- Where every access is carried, none is dropped. -/
theorem losers_eq_nil_of_carried {s : State} (h : ∀ v ∈ allUses s, losesTo s (allUses s) v = none) : losers s = [] := by
  refine List.foldlRecOn (motive := (· = [])) _ _ rfl (fun l hl v hv => ?_)
  simp [hl, h v hv]

/-- An access outside the pools that no other operation's access meets is carried. -/
theorem losesTo_eq_none {s : State} {us : List Use} {v : Use} (hp : spaceOf (64 * v.line) ≠ 2)
    (ho : ∀ w ∈ us, w.op = v.op) : losesTo s us v = none := by
  have none : us.filter (fun w => beats w v) = [] :=
    List.filter_eq_nil_iff.2 (fun w hw => by simp [beats, ho w hw])
  simp [losesTo, granted, hp, none, carries]

/-- The accesses of an operation are those of its events of this cycle that read or write. -/
theorem mem_usesOf {s : State} {user : Bool → SlotUse} {op : Nat} {p : List Ev} {v : Use} (h : v ∈ usesOf s user op p) :
    v.op = op ∧ ∃ e ∈ dueEvs s p, e.kind ≠ .calc ∧ v.line = e.line := by
  obtain ⟨e, he, hv⟩ := List.mem_filterMap.1 h
  match hk : e.kind with
  | .calc => simp [hk] at hv
  | .rd | .wr =>
    simp only [hk, Option.map_eq_some_iff] at hv
    obtain ⟨r, -, rfl⟩ := hv
    exact ⟨rfl, e, he, by simp [hk], rfl⟩

namespace SlotUnit

theorem Alone.coreUses_eq {u : SlotUnit} {s : State} {c : CoreId} {f : OpFly} (h : u.Alone s c f) (key : Nat) :
    coreUses s key (getCore s c) = usesOf s coreUser (opId key u.num 0) f.plan := by
  have one : ∀ unit, listUses s key unit coreUser OpFly.plan [f] = usesOf s coreUser (opId key unit 0) f.plan :=
    fun unit => by simp [listUses]
  have td : (if issuing s (getCore s c) then [] else listUses s key 2 coreUser TdOp.plan (getCore s c).tdFly) = [] := by
    simp [listUses_eq_nil h.tds]
  have other := listUses_eq_nil h.other key
  have mine := h.mine
  cases u with
  | matrix =>
    simp only [get, SlotUnit.other] at mine other
    simp only [coreUses, td, listUses_eq_nil h.mvs, mine, other, one, num, List.append_nil]
  | stream =>
    simp only [get, SlotUnit.other] at mine other
    simp only [coreUses, td, listUses_eq_nil h.mvs, mine, other, one, num, List.append_nil, List.nil_append]

end SlotUnit

section
variable {u : SlotUnit} {s : State} {c : CoreId} {f : OpFly} {evs : List Ev}

theorem OnlyEvents.due_ne_nil (h : OnlyEvents s c u.get f evs) : dueEvs s f.plan ≠ [] := by
  rw [h.due]; exact h.some'

theorem OnlyEvents.alone_unit (h : OnlyEvents s c u.get f evs) : u.Alone s c f := by
  have mine : [f].filter (fun g => !(dueEvs s g.plan).isEmpty) = [f] := by simp [h.due_ne_nil]
  have idle (l : List OpFly) (hl : l.filter (fun g => !(dueEvs s g.plan).isEmpty) = []) :
      ∀ g ∈ l, dueEvs s g.plan = [] := fun g hg => by simpa using List.filter_eq_nil_iff.1 hl g hg
  have unit := h.unit
  have alone := h.alone
  rw [List.filter_append] at unit
  refine ⟨alone, idle _ ?_, h.tds, h.mvs⟩
  cases u with
  | matrix =>
    rw [show (getCore s c).mxFly = [f] from alone, mine] at unit
    exact List.append_cancel_left (as := [f]) (unit.trans (List.append_nil _).symm)
  | stream =>
    rw [show (getCore s c).stFly = [f] from alone, mine] at unit
    exact List.append_cancel_right (bs := [f]) unit

theorem OnlyEvents.eq_of_coreDue (h : OnlyEvents s c u.get f evs) {e : Nat × Core} (he : e ∈ s.cores)
    (hd : coreDue s e.2 = true) : e = (c.key, getCore s c) := by
  have : e ∈ s.cores.filter (fun e => coreDue s e.2) := List.mem_filter.2 ⟨he, hd⟩
  simpa [h.cores] using this

theorem OnlyEvents.mem_allUses (h : OnlyEvents s c u.get f evs) {v : Use} (hv : v ∈ allUses s) :
    v.op = opId c.key u.num 0 ∧ spaceOf (64 * v.line) ≠ 2 := by
  rcases List.mem_append.1 hv with hv | hv
  · obtain ⟨e, he, hv⟩ := List.mem_flatMap.1 hv
    cases hd : coreDue s e.2 with
    | false =>
      obtain ⟨mx, st, td, mv⟩ := (coreDue_eq_false_iff s e.2).1 hd
      simp [coreUses_eq_nil mx st (.inr td) mv] at hv
    | true =>
      obtain rfl := h.eq_of_coreDue he hd
      rw [h.alone_unit.coreUses_eq] at hv
      obtain ⟨op, x, hx, hk, line⟩ := mem_usesOf hv
      rw [h.due] at hx
      exact ⟨op, line ▸ (h.place x hx).resolve_left hk⟩
  · obtain ⟨e, he, hv⟩ := List.mem_flatMap.1 hv
    have idle : ∀ g ∈ e.2.re.fly, dueEvs s g.plan = [] := fun g hg => by
      simpa using List.any_eq_false.1 (h.clus e he) g (List.mem_append_left _ hg)
    simp [listUses_eq_nil idle] at hv

theorem OnlyEvents.losers_eq_nil (h : OnlyEvents s c u.get f evs) : losers s = [] :=
  losers_eq_nil_of_carried (fun _ hv => losesTo_eq_none (h.mem_allUses hv).2
    (fun _ hw => (h.mem_allUses hw).1.trans (h.mem_allUses hv).1.symm))

theorem OnlyEvents.tdMeetings_eq_nil (h : OnlyEvents s c u.get f evs) : tdMeetings s = [] := by
  refine List.map_eq_nil_iff.2 (List.filter_eq_nil_iff.2 (fun e he meets => ?_))
  obtain ⟨-, td⟩ := Bool.and_eq_true_iff.1 meets
  obtain rfl := h.eq_of_coreDue he (by simp [coreDue, td])
  obtain ⟨o, ho, due⟩ := List.any_eq_true.1 td
  simp [h.tds o ho] at due

theorem OnlyEvents.runCores_eq (h : OnlyEvents s c u.get f evs) :
    runCores s = corePhase [] [] true (corePhase [] [] false s c.key) c.key := by
  have idle : s.clus.filter (fun e => cluDue s e.2) = [] := List.filter_eq_nil_iff.2 (fun e he => by simp [h.clus e he])
  have kept : dropTd [] [] s c.key = s := by simp [dropTd]
  simp [runCores, h.cores, idle, h.losers_eq_nil, h.tdMeetings_eq_nil, reportLosers, kept, phase]

/-- The events of the cycle read and sum in its first phase and write in its second. -/
theorem inPhases_eq (h : dueEvs s f.plan = evs) :
    inPhases (fun s f e => u.event s c f e) evs (s, f) =
      u.events c (phaseEvs s true f.plan) (u.events c (phaseEvs s false f.plan) (s, f)) := by
  have reads : evs.filter (fun e => e.kind != .wr) = phaseEvs s false f.plan := by
    rw [phaseEvs, h]
    exact List.filter_congr (fun e _ => by cases e.kind <;> rfl)
  have writes : evs.filter (fun e => e.kind == .wr) = phaseEvs s true f.plan := by
    rw [phaseEvs, h]
    exact List.filter_congr (fun e _ => by cases e.kind <;> rfl)
  rw [inPhases, reads, writes, List.foldl_append]
  rfl

theorem onlyCore_wrCells {s t : State} (h : OnlyCore s t c) (cs : List Host.Cell) : OnlyCore (wrCells s cs) (wrCells t cs) c := by
  obtain ⟨same, others⟩ := h
  refine ⟨?_, others⟩
  generalize t.cores = k at same
  subst same
  rfl

/-- The cycle does the events, and they leave the plan. -/
theorem runCores_onlyEvents (hf : s.flaws = []) (h : OnlyEvents s c u.get f evs) :
    let r := inPhases (fun s f e => u.event s c f e) evs (s, f)
    OnlyCore r.1 (runCores s) c ∧
      getCore (runCores s) c = u.put (getCore r.1 c) [{ r.2 with plan := f.plan.drop evs.length }] := by
  have alone := h.alone_unit
  have rest := SlotUnit.restKept_phase alone.mine hf false
  obtain ⟨kept, plan⟩ := u.events_keep c (phaseEvs s false f.plan) hf f
  obtain ⟨only, mine⟩ := SlotUnit.phase_reads alone.mine hf
  obtain ⟨cs, g, write⟩ := u.events_write c (evs := phaseEvs s true f.plan) (fun e he => by simpa using (List.mem_filter.1 he).2)
    (u.events c (phaseEvs s false f.plan) (s, f)).2
  rw [h.runCores_eq, alone.corePhase_eq hf, inPhases_eq h.due]
  generalize u.events c (phaseEvs s false f.plan) (s, f) = r at kept plan only mine write ⊢
  generalize u.phase false s c.key = t at rest only mine ⊢
  have flawless : r.1.flaws = [] := kept.flaws.trans hf
  have flawless' : t.flaws = [] := (congrArg State.flaws only.1).trans flawless
  have alone' : u.Alone t c r.2 := alone.of_restKept rest (by rw [mine, SlotUnit.get_put])
  have due : dueEvs t r.2.plan = dueEvs s f.plan := by rw [plan, dueEvs_congr rest.clk]
  have writes : phaseEvs t true r.2.plan = phaseEvs s true f.plan := by rw [phaseEvs, phaseEvs, due]
  have all : u.events c (phaseEvs s true f.plan) r = (wrCells r.1 cs, g) := write r.1 flawless
  rw [alone'.corePhase_eq flawless', SlotUnit.phase_writes alone'.mine flawless' (due ▸ h.due_ne_nil), writes, due, plan, h.due,
    all, write t flawless']
  have stored : getCore (wrCells t cs) c = u.put (getCore (wrCells r.1 cs) c) [r.2] := mine
  refine ⟨(onlyCore_wrCells only cs).trans (onlyCore_setCore _ c _), ?_⟩
  rw [getCore_setCore, stored, SlotUnit.put_put]

theorem coreId_key_ne_of_ne {c d : CoreId} (h : d ≠ c) : d.key ≠ c.key :=
  fun e => h (by rw [← coreOfKey_key d, e, coreOfKey_key])

/-- The same, one core at a time. -/
theorem runCores_unit (hf : s.flaws = []) (h : OnlyEvents s c u.get f evs) :
    let r := inPhases (fun s f e => u.event s c f e) evs (s, f)
    getCore (runCores s) c = u.put (getCore r.1 c) [{ r.2 with plan := f.plan.drop evs.length }] ∧
    (∀ d : CoreId, d ≠ c → getCore (runCores s) d = getCore r.1 d) ∧
    runCores s = { r.1 with cores := (runCores s).cores } := by
  obtain ⟨⟨same, others⟩, mine⟩ := runCores_onlyEvents hf h
  exact ⟨mine, fun d hd => others d (coreId_key_ne_of_ne hd), same⟩

end

/-! ## Completion -/

/-- The summary of an operation that was not masked waits for the shadow unit. -/
theorem opSummary_spec (s : State) (c : CoreId) (tag rtag : Nat) (f : OpFly) :
    let t := opSummary s c tag rtag f
    t = { s with clus := t.clus, regs := t.regs } ∧ (f.live = false → t = s) ∧
    (f.live = true → ((getClu s c.cl.key).sums.filter (fun x => x.src == c.k.val)).length < 4 →
      getClu t c.cl.key = { getClu s c.cl.key with sums := (getClu s c.cl.key).sums ++
        [{ src := c.k.val, tag := tag, step := f.step, cnt := f.cnt, rtag := rtag, rtrunc := f.trunc }] }) := by
  cases live : f.live with
  | false => simp [opSummary, live]
  | true =>
    obtain ⟨frame, ⟨x, sums⟩, -, -, room⟩ := handSummary_spec s c.cl.key
      { src := c.k.val, tag := tag, step := f.step, cnt := f.cnt, rtag := rtag, rtrunc := f.trunc }
    simp only [opSummary, live, if_true]
    refine ⟨frame, by simp, fun _ few => ?_⟩
    have put := (room few).2
    rw [sums] at put ⊢
    exact congrArg (fun y => { getClu s c.cl.key with sums := y }) put

/-- An operation that leaves core `c` as `x` hands its summary over. -/
theorem opSummary_setCore (s : State) (c : CoreId) (x : Core) (tag rtag : Nat) (f : OpFly) :
    let t := opSummary (setCore s c x) c tag rtag f
    getCore t c = x ∧ t = { s with cores := t.cores, clus := t.clus, regs := t.regs } ∧
    (f.live = false → t = { s with cores := t.cores }) ∧
    (f.live = true → ((getClu s c.cl.key).sums.filter (fun x => x.src == c.k.val)).length < 4 →
      getClu t c.cl.key = { getClu s c.cl.key with sums := (getClu s c.cl.key).sums ++
        [{ src := c.k.val, tag := tag, step := f.step, cnt := f.cnt, rtag := rtag, rtrunc := f.trunc }] }) := by
  obtain ⟨frame, masked, handed⟩ := opSummary_spec (setCore s c x) c tag rtag f
  have cores : (opSummary (setCore s c x) c tag rtag f).cores = (setCore s c x).cores := by rw [frame]
  refine ⟨(getCore_congr cores c).trans (getCore_setCore s c x), ?_, fun quiet => ?_, handed⟩
  · exact frame.trans (by rw [cores]; rfl)
  · rw [masked quiet]
    rfl

section
variable {s : State} {c : CoreId} {f : OpFly} {rest : List OpFly} (hd : f.due ≤ s.clk.dst)
include hd

theorem exec_matrixOpComplete_due (hq : (getCore s c).mxFly = f :: rest) : exec (.matrixOpComplete c) s = .next (
    let t := setCore s c { getCore s c with mxFly := rest }
    if fld f.w 63 58 = 4 ∨ fld f.w 63 58 = 5 then opSummary t c (tdOf (f.tds.getD 0 0)).tag 0 f else t) := by
  simp only [exec, execMatrixOpComplete, hq, findIdx?, hd, decide_true, if_true, removeAt]

theorem exec_streamOpComplete_due (hq : (getCore s c).stFly = f :: rest) : exec (.streamOpComplete c) s = .next (
    opSummary (setCore s c { getCore s c with stFly := rest }) c (tdOf (f.tds.headD 0)).tag (tdOf (f.tds.getLastD 0)).tag f) := by
  have first : (stTds f).1 = tdOf (f.tds.headD 0) := by cases hl : f.tds <;> simp [stTds, hl]
  have last : (stTds f).2.2 = tdOf (f.tds.getLastD 0) := by simp [stTds, List.getLastD_eq_getLast?]
  simp only [exec, execStreamOpComplete, hq, findIdx?, hd, decide_true, if_true, removeAt, first, last]

end

/-- Settles O22: the events of a cycle by what its two phases do (`runCores_unit`), a completion by the summary that it hands
over (`opSummary_setCore`). -/
theorem unitCompletes : Obligations.UnitCompletes := by
  refine ⟨fun c f evs s => runCores_unit (u := .matrix), fun c f evs s => runCores_unit (u := .stream), ?matrixDone, ?streamDone⟩
  case matrixDone =>
    intro c f rest s hq hd op tag
    refine ⟨_, exec_matrixOpComplete_due hd hq, ?_⟩
    obtain ⟨core, frame, masked, handed⟩ := opSummary_setCore s c { getCore s c with mxFly := rest } tag 0 f
    by_cases stores : op = 4 ∨ op = 5
    · rw [if_pos stores]
      have quiet (h : f.live = false ∨ (op ≠ 4 ∧ op ≠ 5)) : f.live = false := h.resolve_right (by tauto)
      exact ⟨core, frame, fun h => masked (quiet h), fun live _ => handed live⟩
    · rw [if_neg stores]
      exact ⟨getCore_setCore s c _, rfl, fun _ => rfl, fun _ h => absurd h stores⟩
  case streamDone =>
    intro c f rest s hq hd
    exact ⟨_, exec_streamOpComplete_due hd hq, opSummary_setCore s c _ _ _ f⟩

end Sys2Proof
end

section
/-! PROOFS. The launch of a command of the row engine or route unit (R127, R128, R193, R211): what a command that is due
leaves, for NOP and END and for those that run. -/

namespace Sys2Proof

open Sys2Proof.Machine

/-! ## A command leaves the queue (R128) -/

/-- A cluster with another row engine (false) or route unit (true). -/
def withUnit (rt : Bool) (k : Cluster) (u : CmdUnit) : Cluster := if rt then { k with rt := u } else { k with re := u }

theorem setUnit_eq (s : State) (k : Nat) (rt : Bool) (u : CmdUnit) :
    setUnit s k rt u = setClu s k (withUnit rt (getClu s k) u) := rfl

@[simp] theorem unitOf_withUnit (rt : Bool) (k : Cluster) (u : CmdUnit) : unitOf rt (withUnit rt k u) = u := by
  cases rt <;> rfl

@[simp] theorem withUnit_withUnit (rt : Bool) (k : Cluster) (u v : CmdUnit) :
    withUnit rt (withUnit rt k u) v = withUnit rt k v := by
  cases rt <;> rfl

@[simp] theorem sReg_withUnit (rt : Bool) (k : Cluster) (u : CmdUnit) (jt r : Nat) :
    sReg (withUnit rt k u) jt r = sReg k jt r := by
  cases rt <;> rfl

/-- The state once command `w` has left the queue of its unit, with `rest` behind it. -/
def headTaken (s : State) (cl : Clu) (rt : Bool) (w : W256) (rest : List W256) : State :=
  setUnit s cl.key rt { unitOf rt (getClu s cl.key) with q := rest, last := some (cmOff w) }

theorem getClu_headTaken (s : State) (cl : Clu) (rt : Bool) (w : W256) (rest : List W256) :
    getClu (headTaken s cl rt w rest) cl.key = withUnit rt (getClu s cl.key)
      { unitOf rt (getClu s cl.key) with q := rest, last := some (cmOff w) } := getClu_setClu _ _ _

theorem onlyClu_headTaken (s : State) (cl : Clu) (rt : Bool) (w : W256) (rest : List W256) :
    OnlyClu s (headTaken s cl rt w rest) cl := onlyClu_setClu s cl _

/-- What a command latches does not depend on the queues. -/
theorem newCmd_headTaken (s : State) (cl : Clu) (rt : Bool) (v : W256) (rest : List W256) (jt : Nat) (w : W256)
    (cc : Option Nat) (tag core : Nat) :
    newCmd (headTaken s cl rt v rest) cl jt w cc tag core = newCmd s cl jt w cc tag core := by
  have seeds : seedsOf (headTaken s cl rt v rest) cl.q.val = seedsOf s cl.q.val := rfl
  simp only [newCmd, stepOf, drawOf, seeds, getClu_headTaken, sReg_withUnit]

/-- A command that is due leaves the queue, and its unit acts on it. -/
theorem CmdDue.unitLaunch_eq {s : State} {cl : Clu} {rt : Bool} {j : Nat} {w : W256} {rest : List W256}
    (h : CmdDue s cl rt j w rest) {p : Nat → Bool} (hp : p (cmOp w) = true) (f : State → Nat → Nat → W256 → State) :
    unitLaunch s cl rt p f = f (headTaken s cl rt w rest) j (jobTime s (getJob s j)) w := by
  obtain ⟨slot, free, going, head, time, rises, idle⟩ := h
  unfold unitLaunch
  simp only [headTaken, slot, free]
  generalize unitOf rt (getClu s cl.key) = u at *
  obtain ⟨q, sp, seg, last, busy, fly, done⟩ := u
  obtain rfl : q = w :: rest := head
  obtain rfl : done = false := going
  cases last with
  | none => simpa [← time, hp, setUnit_eq] using fun h => absurd h (not_lt.2 idle)
  | some l =>
    have order : ¬ cmOff w ≤ l := not_le.2 (rises l rfl)
    simpa [← time, hp, order, setUnit_eq] using fun h => absurd h (not_lt.2 idle)

/-! ## NOP and END (R128, R143, R213) -/

/-- A command that only counts, and for END ends the segment's stream. -/
def countedCmd (s : State) (cl : Clu) (rt : Bool) (w : W256) (rest : List W256) : State :=
  if cmOp w = 0 then countCmd (headTaken s cl rt w rest) cl.key rt else unitEnd (headTaken s cl rt w rest) cl rt

theorem countedCmd_spec (s : State) (cl : Clu) (rt : Bool) {w : W256} (rest : List W256) (hop : cmOp w ≤ 1) :
    let t := countedCmd s cl rt w rest
    let u := unitOf rt (getClu s cl.key)
    let cnt := at' (unitPage rt cl.key) (if rt then 0x114 else 0x10C)
    OnlyClu { s with regs := t.regs } t cl ∧
    getClu t cl.key = withUnit rt (getClu s cl.key)
      { u with q := rest, last := some (cmOff w), done := u.done || decide (cmOp w = 1) } ∧
    reg t cnt = satAdd (reg s cnt) 1 ∧ RegsKept s t [cnt] := by
  obtain ⟨-, others⟩ := onlyClu_headTaken s cl rt w rest
  obtain ⟨count, kept, -⟩ := bump_one_spec (headTaken s cl rt w rest)
    (at' (unitPage rt cl.key) (if rt then 0x114 else 0x10C))
  have clu : getClu (countCmd (headTaken s cl rt w rest) cl.key rt) cl.key = _ := getClu_headTaken s cl rt w rest
  obtain h0 | h1 : cmOp w = 0 ∨ cmOp w = 1 := by omega
  · have nop : countedCmd s cl rt w rest = countCmd (headTaken s cl rt w rest) cl.key rt := if_pos h0
    simp only [nop, h0, zero_ne_one, decide_false, Bool.or_false]
    exact ⟨⟨rfl, others⟩, clu, count, kept⟩
  · have fin : countedCmd s cl rt w rest = unitEnd (headTaken s cl rt w rest) cl rt := if_neg (by omega)
    simp only [fin, h1, decide_true, Bool.or_true]
    refine ⟨⟨rfl, fun k hk => (getClu_setClu_ne _ _ hk).trans (others k hk)⟩, ?_, count, kept⟩
    rw [unitEnd, setUnit_eq, getClu_setClu, clu, withUnit_withUnit, unitOf_withUnit]

/-! ## A command that runs (R136, R137, R211) -/

/-- The command is in flight for its interval, and nothing but its unit changes. -/
theorem unitIssue_headTaken (s : State) (cl : Clu) (rt : Bool) (w : W256) (rest : List W256) (i : Nat) (f : CmdFly)
    (evs : List Ev) :
    let t := unitIssue (headTaken s cl rt w rest) cl rt i f evs
    OnlyClu s t cl ∧ getClu t cl.key =
      withUnit rt (getClu s cl.key) (took (unitOf rt (getClu s cl.key)) s w rest i f evs) := by
  refine ⟨(onlyClu_headTaken s cl rt w rest).trans (onlyClu_setClu _ cl _), ?_⟩
  simp only [unitIssue, setUnit_eq, getClu_setClu, getClu_headTaken, withUnit_withUnit, unitOf_withUnit]
  rfl

end Sys2Proof
end

section
/-! PROOFS. The row engine's commands (R128 to R137): launch, rows, copies, lines, and the obligation O31. -/

namespace Sys2Proof

open Sys2Proof.Machine

/-! ## Launch (R128, R132, R136, R137) -/

theorem reCheck_withUnit (rt : Bool) (k : Cluster) (u : CmdUnit) (jt : Nat) (w : W256) :
    reCheck (withUnit rt k u) jt w = reCheck k jt w := by
  cases rt <;> rfl

/-- What a row-engine command latches at its launch. -/
def reCmd (s : State) (cl : Clu) (jt : Nat) (w : W256) : CmdFly :=
  { newCmd s cl jt w (reCC w) (reTag w) 0x7F with
    sclA := sReg (getClu s cl.key) jt (reSeps w), sclB := sReg (getClu s cl.key) jt (reSeps w + 1) }

section
variable {s : State} {cl : Clu} {w : W256} {jt : Nat} (hc : reCheck (getClu s cl.key) jt w = none) (rest : List W256) (j : Nat)
include hc

theorem reRun_counts (hop : cmOp w ≤ 1) : reRun cl (headTaken s cl false w rest) j jt w = countedCmd s cl false w rest := by
  simp only [reRun, getClu_headTaken, reCheck_withUnit, hc, countedCmd]
  obtain h0 | h1 : cmOp w = 0 ∨ cmOp w = 1 := by omega
  · simp [h0]
  · simp [h1]

theorem reRun_runs (hop : 2 ≤ cmOp w) : reRun cl (headTaken s cl false w rest) j jt w =
    unitIssue (headTaken s cl false w rest) cl false (reInterval w) (reCmd s cl jt w) (rePlan cl w) := by
  have h0 : cmOp w ≠ 0 := by omega
  have h1 : cmOp w ≠ 1 := by omega
  simp only [reRun, getClu_headTaken, reCheck_withUnit, sReg_withUnit, hc, h0, h1, if_false, newCmd_headTaken, reCmd]

end

/-- The rows of the commands that take the row engine, by opcode. -/
def reLaunchRows (cl : Clu) : List (Nat × Instr) :=
  [(2, .normf cl), (3, .rmsf cl), (4, .smxf cl), (5, .normb cl), (6, .rmsb cl), (7, .smxb cl), (8, .solve cl), (9, .mspill cl),
    (10, .mfill cl)]

theorem exec_reLaunchRows (cl : Clu) (s : State) :
    ∀ e ∈ reLaunchRows cl, 2 ≤ e.1 ∧ exec e.2 s = .next (unitLaunch s cl false (· == e.1) (reRun cl)) := by
  simp only [reLaunchRows, List.forall_mem_cons]
  exact ⟨⟨by decide, rfl⟩, ⟨by decide, rfl⟩, ⟨by decide, rfl⟩, ⟨by decide, rfl⟩, ⟨by decide, rfl⟩, ⟨by decide, rfl⟩,
    ⟨by decide, rfl⟩, ⟨by decide, rfl⟩, ⟨by decide, rfl⟩, by simp⟩

/-- NOP and END. -/
theorem exec_reNop_reEnd (cl : Clu) (s : State) {w : W256} (hop : cmOp w ≤ 1) : ∃ p : Nat → Bool, p (cmOp w) = true ∧
    exec (if cmOp w = 0 then .reNop cl else .reEnd cl) s = .next (unitLaunch s cl false p (reRun cl)) := by
  obtain h0 | h1 : cmOp w = 0 ∨ cmOp w = 1 := by omega
  · rw [if_pos h0]
    exact ⟨_, by simp [h0], rfl⟩
  · rw [if_neg (by omega)]
    exact ⟨_, by simp [h1], rfl⟩

/-! ## Rows (R133, R134) -/

section
variable (s : State) (cl : Clu) {f : CmdFly} {e : Ev} (hk : e.kind = .calc)
include hk

/-- At its event a row of NORMF to SMXB is formed. -/
theorem reEvent_row (hop : cmOp f.w ≤ 7) : reEvent s cl f e = (s, reRow cl f e.grp) := by
  simp only [reEvent, hk, if_pos hop]

/-- At its event MSPILL or MFILL copies what it holds. -/
theorem reEvent_copy (hop : 9 ≤ cmOp f.w) : reEvent s cl f e = (s, reCopied cl f) := by
  simp only [reEvent, hk, if_neg (show ¬ cmOp f.w ≤ 7 by omega), if_pos hop]

end

/-- A row that is formed takes the lines held and leaves the plan. -/
theorem reRow_frame (cl : Clu) (f : CmdFly) (r : Nat) : (reRow cl f r).held = [] ∧ (reRow cl f r).plan = f.plan := by
  simp only [reRow]
  split <;> exact ⟨rfl, rfl⟩

/-- The values of a row operand, from the lines held under `n`. -/
def heldRow (cl : Clu) (f : CmdFly) (n base fmt r : Nat) : List Ext :=
  packedRow (heldByte f.held (some n)) (poolRowAt cl base (reStride f.w) r) fmt (reCols f.w)

/-- The bytes of a forward row: its record, and its values rounded once. -/
theorem reRow_forward (cl : Clu) (f : CmdFly) (r : Nat) (hop : cmOp f.w ≤ 4) :
    let x := heldRow cl f 0 (reSrc f.w) (reFmt f.w) r
    let v := if cmOp f.w = 4 then smxRow x else normRow (cmOp f.w == 3) (val f.sclA) x
    (reRow cl f r).out = recCells cl f.w r v.1 v.2.1 ++
      (packRow f.draw (reFmt f.w) 0 (reCols f.w) r (poolRowAt cl (reDst f.w) (reStride f.w) r) v.2.2).1 := by
  simp only [reRow, if_pos hop]
  rfl

/-- The values of a backward row, from the lines held: of SMXB, else of NORMB or RMSB. -/
def backwardRow (cl : Clu) (f : CmdFly) (r : Nat) : List Ext :=
  let x := heldRow cl f 0 (reSrc f.w) (reFmt f.w) r
  let g := heldRow cl f 1 (reAux f.w) 1 r
  let st := recRead (heldByte f.held (some 2)) cl f.w r
  if cmOp f.w = 7 then smxBack st x g else normBack (cmOp f.w == 6) st x g

/-- The bytes of a backward row: its values rounded once. -/
theorem reRow_backward (cl : Clu) (f : CmdFly) (r : Nat) (hop : 5 ≤ cmOp f.w) : (reRow cl f r).out =
    (packRow f.draw 1 1 (reCols f.w) r (poolRowAt cl (reDst f.w) (reStride f.w) r) (backwardRow cl f r)).1 := by
  simp only [reRow, if_neg (show ¬ cmOp f.w ≤ 4 by omega)]
  rfl

/-! ## MSPILL and MFILL (R137) -/

theorem copyEnds_eq (cl : Clu) (w : W256) : copyEnds cl w =
    (if cmOp w = 9 then margAddr cl.q.val cl.c.val (64 * reMgb w) else poolAddr cl.q.val cl.c.val (64 * reSrc w),
     if cmOp w = 9 then poolAddr cl.q.val cl.c.val (64 * reDst w) else margAddr cl.q.val cl.c.val (64 * reMgb w)) := by
  unfold copyEnds
  by_cases h : cmOp w = 9 <;> simp [h, recAddr, poolRowAt]

/-- Each byte of a line held that lies in the records goes to its place at the destination. -/
theorem mem_reCopied {cl : Clu} {f : CmdFly} {l : Nat × Nat × List Byte} (hl : l ∈ f.held) (h64 : l.2.2.length = 64)
    {i : Nat} (hi : i < 64) (hin : 64 * l.2.1 + i < (copyEnds cl f.w).1 + 8 * reRows f.w) :
    (64 * l.2.1 + i + (copyEnds cl f.w).2 - (copyEnds cl f.w).1, l.2.2.getD i 0) ∈ (reCopied cl f).out := by
  have byte : l.2.2[i]? = some (l.2.2.getD i 0) := by simp [h64, hi]
  have cell : (64 * l.2.1 + i, l.2.2.getD i 0) ∈ ((List.range 64).map (64 * l.2.1 + ·)).zip l.2.2 :=
    List.mem_of_getElem? (List.getElem?_zip_eq_some.2 ⟨by simp [hi], byte⟩)
  exact List.mem_map.2 ⟨_, List.mem_filter.2 ⟨List.mem_flatMap.2 ⟨l, hl, cell⟩, by simpa using hin⟩, rfl⟩

/-! ## Lines -/

section
variable {s : State} (hf : s.flaws = []) (cl : Clu) (f : CmdFly) {e : Ev}
include hf

theorem reEvent_reads (hk : e.kind = .rd) :
    reEvent s cl f e = (s, { f with held := f.held ++ [(e.sub, e.line, rdBytes s (64 * e.line) 64)] }) := by
  simp [reEvent, hk, readLine_flawless hf]

theorem reEvent_writes (hk : e.kind = .wr) : reEvent s cl f e = (wrCells s (f.out.filter (fun x => lineOf x.1 == e.line)),
    { f with out := f.out.filter (fun x => lineOf x.1 != e.line) }) := by
  simp [reEvent, hk, store_flawless hf, lineOut, List.partition_eq_filter_filter, Function.comp_def, bne]

end

/-- Settles O31: launches by `CmdDue.unitLaunch_eq` and what the unit then does, events by their rules above. -/
theorem rowEngineCommands : Obligations.RowEngineCommands := by
  refine ⟨?launch, ?rows, fun cl f e s hf => ⟨reEvent_reads hf cl f, reEvent_writes hf cl f⟩⟩
  case launch =>
    intro cl j w rest s hd hc k jt cnt
    refine ⟨fun hop => ?counts, fun e he hop => ?runs⟩
    case counts =>
      obtain ⟨p, hp, row⟩ := exec_reNop_reEnd cl s hop
      have page : cnt = at' (unitPage false cl.key) 0x10C := by simp [cnt, unitPage, key_div, key_mod]
      refine ⟨_, row.trans (by rw [hd.unitLaunch_eq hp, reRun_counts hc rest j hop]), ?_⟩
      rw [page]
      exact countedCmd_spec s cl false rest hop
    case runs =>
      intro i
      obtain ⟨h2, row⟩ := exec_reLaunchRows cl s e he
      obtain ⟨only, clu⟩ := unitIssue_headTaken s cl false w rest (reInterval w) (reCmd s cl jt w) (rePlan cl w)
      have interval : i = reInterval w := by rw [reInterval, hop]; rfl
      refine ⟨_, reCmd s cl jt w, row.trans ?_, only, interval ▸ clu, rfl, rfl, rfl, rfl, rfl, rfl, rfl, rfl, rfl, rfl⟩
      rw [hd.unitLaunch_eq (by simp [hop]), reRun_runs hc rest j (by omega)]
  case rows =>
    intro cl f r s e hk hr w rd x g st d
    subst hr
    obtain ⟨held, plan⟩ := reRow_frame cl f e.grp
    refine ⟨fun (hop : cmOp f.w = 2 ∨ cmOp f.w = 3 ∨ cmOp f.w = 4) => ?_, fun (hop : cmOp f.w = 5 ∨ cmOp f.w = 6) => ?_,
      fun (hop : cmOp f.w = 7) => ?_, fun (hop : cmOp f.w = 9 ∨ cmOp f.w = 10) => ?_⟩
    · exact ⟨_, reEvent_row s cl hk (by omega), reRow_forward cl f e.grp (by omega), held, plan⟩
    · have formed := reRow_backward cl f e.grp (by omega)
      rw [backwardRow, if_neg (by omega)] at formed
      exact ⟨_, reEvent_row s cl hk (by omega), formed, held, plan⟩
    · have formed := reRow_backward cl f e.grp (by omega)
      rw [backwardRow, if_pos hop] at formed
      exact ⟨_, reEvent_row s cl hk (by omega), formed, held, plan⟩
    · refine ⟨_, reEvent_copy s cl hk (by omega), rfl, rfl, fun l hl h64 _ i hi hin => ?_⟩
      have copied := mem_reCopied hl h64 hi (cl := cl) (by rw [copyEnds_eq]; exact hin)
      rw [copyEnds_eq] at copied
      exact copied

end Sys2Proof
end

section
/-! PROOFS. Clearing writes of a cluster's pages and the shadow unit (R141, R183 to R191, R213), and the obligation O33. -/

namespace Sys2Proof

open Sys2Proof.Machine

/-! ## Clearing writes (R141, R191, R213, R457) -/

/-- Flags written as 1 clear, and those that the hardware sets in the same clock are set. -/
theorem bit_cleared (x v hw : W32) {b : Nat} (hb : b < 32) :
    bit ((x &&& ~~~v) ||| hw) b = ((bit x b && !bit v b) || bit hw b) := by
  simp [bit_eq_getLsbD, hb]

theorem getTag_setTag (s : State) (k t : Nat) (x : TagCnt) : getTag (setTag s k t x) k t = x := by
  simp [getTag, setTag]

theorem getTag_setTag_ne (s : State) (k : Nat) {t i : Nat} (x : TagCnt) (h : i ≠ t) :
    getTag (setTag s k t x) k i = getTag s k i := by
  simp [getTag, setTag, tget_tput_ne _ _ _ _ h]

theorem onlyClu_setTag (s : State) (cl : Clu) (t : Nat) (x : TagCnt) : OnlyClu s (setTag s cl.key t x) cl :=
  onlyClu_setClu s cl _

/-- A core cycle in which no summary was taken added nothing. -/
theorem cycleAdds_none {s : State} {k : Nat} (t : Nat) (h : (getClu s k).tagUpd.1 ≠ s.clk.dst / 4) :
    cycleAdds s k t = TagCnt.zero := by
  simp [cycleAdds, h]

theorem exec_shwClr_clears {s : State} {cl : Clu} {v : W32} (h : Served s (pgSHW cl.q.val cl.c.val)) (hv : bit v 31 = true) :
    let g := fld v 9 0
    let x := cycleAdds s cl.key g
    exec (.shwClr cl v) s = .next (setTag (setReg s (at' (pgSHW cl.q.val cl.c.val) 0x104) (BitVec.ofNat 32 g)) cl.key g
      { getTag s cl.key g with cnt := x.cnt, run := 0, stepElem := x.stepElem, stepZero := x.stepZero }) := by
  change execShwClr cl v s = _
  simp only [execShwClr, hostWrite_served h, hv, if_true]
  rfl

/-- What GATEs add to one expert's counters, from `a` and `d` on: each sum saturates. -/
theorem foldl_countExpert {x : Nat} {es : List (Nat × Nat × Nat)} (hes : ∀ e ∈ es, e.1 = x) (k : Cluster) :
    (∀ a, tget 0 k.assign x = min 0xFFFFFFFF a →
      tget 0 (es.foldl countExpert k).assign x = min 0xFFFFFFFF (a + sumNat (es.map (fun e => e.2.1)))) ∧
    (∀ d, tget 0 k.drop x = min 0xFFFFFFFF d →
      tget 0 (es.foldl countExpert k).drop x = min 0xFFFFFFFF (d + sumNat (es.map (fun e => e.2.2)))) ∧
    (∀ i, i ≠ x → tget 0 (es.foldl countExpert k).assign i = tget 0 k.assign i ∧
      tget 0 (es.foldl countExpert k).drop i = tget 0 k.drop i) := by
  induction es generalizing k with
  | nil => exact ⟨fun a h => by simpa [sumNat] using h, fun d h => by simpa [sumNat] using h, fun _ _ => ⟨rfl, rfl⟩⟩
  | cons e es ih =>
    obtain ⟨y, a0, d0⟩ := e
    obtain rfl : y = x := hes _ List.mem_cons_self
    obtain ⟨assign, drop, others⟩ := ih (fun e he => hes e (List.mem_cons_of_mem _ he)) (countExpert k (y, a0, d0))
    obtain ⟨assign1, drop1, others1⟩ := countExpert_spec k y a0 d0
    refine ⟨fun a h => ?_, fun d h => ?_, fun i hi => ?_⟩
    · refine (assign (a + a0) (by rw [assign1, h]; omega)).trans ?_
      simp [sumNat, Nat.add_assoc]
    · refine (drop (d + d0) (by rw [drop1, h]; omega)).trans ?_
      simp [sumNat, Nat.add_assoc]
    · exact ⟨(others i hi).1.trans (others1 i hi).1, (others i hi).2.trans (others1 i hi).2⟩

/-- A cluster with one expert's counters at 0. -/
def expertCleared (k : Cluster) (x : Nat) : Cluster :=
  { k with assign := tput 0 k.assign x 0, drop := tput 0 k.drop x 0 }

/-- A cleared expert's counters hold what is added after it, and no other's change. -/
theorem foldl_countExpert_cleared {x : Nat} {es : List (Nat × Nat × Nat)} (hes : ∀ e ∈ es, e.1 = x) (k : Cluster) :
    let t := es.foldl countExpert (expertCleared k x)
    tget 0 t.assign x = min 0xFFFFFFFF (sumNat (es.map (fun e => e.2.1))) ∧
    tget 0 t.drop x = min 0xFFFFFFFF (sumNat (es.map (fun e => e.2.2))) ∧
    (∀ i, i ≠ x → tget 0 t.assign i = tget 0 k.assign i ∧ tget 0 t.drop i = tget 0 k.drop i) := by
  obtain ⟨assign, drop, others⟩ := foldl_countExpert hes (expertCleared k x)
  refine ⟨?_, ?_, fun i hi => ?_⟩
  · rw [assign 0 (by simp [expertCleared]), Nat.zero_add]
  · rw [drop 0 (by simp [expertCleared]), Nat.zero_add]
  · obtain ⟨assign, drop⟩ := others i hi
    exact ⟨assign.trans (tget_tput_ne 0 0 k.assign 0 hi), drop.trans (tget_tput_ne 0 0 k.drop 0 hi)⟩

/-- What GATEs of this core cycle added to an expert's counters. -/
def gateAdds (s : State) (k x : Nat) : List (Nat × Nat × Nat) :=
  if (getClu s k).gateUpd.1 = s.clk.dst / 4 then (getClu s k).gateUpd.2.filter (fun e => e.1 == x) else []

theorem exec_rtClr_clears {s : State} {cl : Clu} {v : W32} (h : Served s (pgRT cl.q.val cl.c.val)) (hv : bit v 31 = true) :
    let x := fld v 7 0
    exec (.rtClr cl v) s = .next (setClu (setReg s (at' (pgRT cl.q.val cl.c.val) 0x100) (BitVec.ofNat 32 x)) cl.key
      ((gateAdds s cl.key x).foldl countExpert (expertCleared (getClu s cl.key) x))) := by
  change execRtClr cl v s = _
  simp only [execRtClr, hostWrite_served h, hv, if_true]
  rfl

theorem gateAdds_expert {s : State} {k x : Nat} : ∀ e ∈ gateAdds s k x, e.1 = x := by
  intro e he
  unfold gateAdds at he
  split at he
  · simpa using (List.mem_filter.1 he).2
  · simp at he

/-! ## SHADOW_SUMMARY_TAKE (R184) -/

/-- Where only the first round acts, eight rounds are one. -/
theorem loopN_first {α : Type} {f : Nat → α → α} {a b : α} (first : f 0 a = b) (rest : ∀ n, f n b = b) (n : Nat) :
    loopN (n + 1) f a = b := by
  induction n with
  | zero => exact first
  | succ n ih => rw [loopN, ih, rest]

theorem nextSrc_none {k : Cluster} (h : k.sums = []) : nextSrc k = none :=
  List.find?_eq_none.2 fun _ _ => by simp [h]

theorem takeSummary_none {s : State} {k : Nat} (h : (getClu s k).sums = []) : takeSummary s k = s := by
  simp only [takeSummary, nextSrc_none h]

/-- The source of the one summary that waits comes next in the rotation. -/
theorem nextSrc_single {k : Cluster} {m : Summary} (h : k.sums = [m]) (hm : m.src < 97) : nextSrc k = some m.src := by
  have turn : (k.rot + (m.src + 97 - k.rot % 97) % 97) % 97 = m.src := by omega
  have listed : m.src ∈ (List.range 97).map (fun i => (k.rot + i) % 97) :=
    List.mem_map.2 ⟨_, List.mem_range.2 (Nat.mod_lt _ (by decide)), turn⟩
  unfold nextSrc
  cases hf : ((List.range 97).map (fun i => (k.rot + i) % 97)).find? (fun n => k.sums.any (fun m => m.src == n)) with
  | none => exact absurd (List.find?_eq_none.1 hf _ listed) (by simp [h])
  | some n =>
    have waits : k.sums.any (fun m => m.src == n) = true :=
      List.find?_some (p := fun n => k.sums.any (fun m => m.src == n)) hf
    have same : m.src = n := by simpa only [h, List.any_cons, List.any_nil, Bool.or_false, beq_iff_eq] using waits
    rw [same]

/-- The state once the one summary that waited was taken, before it is counted. -/
def summaryTaken (s : State) (k : Nat) (m : Summary) : State :=
  setClu s k { getClu s k with
    sums := [], rot := (m.src + 1) % 97
    taken := (s.clk.dst / 4, (if (getClu s k).taken.1 = s.clk.dst / 4 then (getClu s k).taken.2 else 0) + 1) }

theorem takeSummary_single {s : State} {k : Nat} {m : Summary} (h : (getClu s k).sums = [m]) (hm : m.src < 97)
    (ht : (getClu s k).taken.1 ≠ s.clk.dst / 4 ∨ (getClu s k).taken.2 < 8) :
    takeSummary s k = applySummary (summaryTaken s k m) k m := by
  have room : ¬ 8 ≤ (if (getClu s k).taken.1 = s.clk.dst / 4 then (getClu s k).taken.2 else 0) := by
    split
    · next same => exact not_le.2 (ht.resolve_left (not_not.2 same))
    · decide
  simp only [takeSummary, nextSrc_single h hm, h, findIdx?, beq_self_eq_true, if_true, if_neg room]
  rfl

/-- The unit's row takes the one summary that waits, and then finds none. -/
theorem exec_take_single {s : State} {cl : Clu} {m : Summary} (h : (getClu s cl.key).sums = [m]) (hm : m.src < 97)
    (ht : (getClu s cl.key).taken.1 ≠ s.clk.dst / 4 ∨ (getClu s cl.key).taken.2 < 8) {t : State}
    (hs : applySummary (summaryTaken s cl.key m) cl.key m = t) (he : (getClu t cl.key).sums = []) :
    exec (.shadowSummaryTake cl) s = .next t :=
  congrArg Host.Outcome.next (loopN_first (f := fun _ s => takeSummary s cl.key) ((takeSummary_single h hm ht).trans hs)
    (fun _ => takeSummary_none he) 7)

/-! ## Counting a summary (R183, R186, R187) -/

/-- A tag once a summary of its open step was counted; a NaN that is news marks the step. -/
def tagWith (g : TagCnt) (m : Summary) : TagCnt :=
  { g with
    cnt := g.cnt.plusSat m.cnt, step := some m.step, stepElem := g.stepElem + m.cnt.elem
    stepZero := g.stepZero + m.cnt.zero + m.cnt.ufz
    nanStep := if 0 < m.cnt.nan ∧ g.nanStep ≠ some m.step then some m.step else g.nanStep }

/-- The summary is noted for a CLR of the same core cycle. -/
def noteSummary (s : State) (k : Nat) (m : Summary) : State :=
  setClu s k { getClu s k with tagUpd :=
    (s.clk.dst / 4, (if (getClu s k).tagUpd.1 = s.clk.dst / 4 then (getClu s k).tagUpd.2 else []) ++ [m]) }

/-- A summary as the watch counts it where its tag's step stays open. -/
def countSummary (s : State) (k : Nat) (m : Summary) : State :=
  noteSummary (applyTrunc (setTag s k m.tag (tagWith (getTag s k m.tag) m)) k m) k m

theorem applySummary_off {s : State} {k : Nat} (m : Summary) (h : bit (shwCtl s k) 31 = false) : applySummary s k m = s := by
  simp [applySummary, h]

theorem applySummary_open {s : State} {k : Nat} {m : Summary} (h : bit (shwCtl s k) 31 = true)
    (ho : (getTag s k m.tag).step = none ∨ (getTag s k m.tag).step = some m.step) : applySummary s k m =
      if 0 < m.cnt.nan ∧ (getTag s k m.tag).nanStep ≠ some m.step then watchNan (countSummary s k m) k m.tag m.step
      else countSummary s k m := by
  have stays : ¬ ((getTag s k m.tag).step.isSome = true ∧ (getTag s k m.tag).step ≠ some m.step) := by
    rcases ho with ho | ho <;> simp [ho]
  simp only [applySummary, h, Bool.not_true, Bool.false_eq_true, if_false, if_neg stays, Bool.and_eq_true, decide_eq_true_eq]
  rfl

/-- TDR's part counts under its own tag and touches nothing else. -/
theorem applyTrunc_spec (s : State) (cl : Clu) (m : Summary) :
    let t := applyTrunc s cl.key m
    OnlyClu s t cl ∧ (getClu t cl.key).sums = (getClu s cl.key).sums ∧
    (m.rtrunc ≠ 0 → getTag t cl.key m.rtag = { getTag s cl.key m.rtag with
      cnt := (getTag s cl.key m.rtag).cnt.plusSat { Counts.none with trunc := m.rtrunc } }) ∧
    (∀ i, m.rtrunc = 0 ∨ i ≠ m.rtag → getTag t cl.key i = getTag s cl.key i) := by
  by_cases h : m.rtrunc = 0
  · have stays : applyTrunc s cl.key m = s := if_pos h
    simp only [stays]
    exact ⟨⟨rfl, fun _ _ => rfl⟩, trivial, fun hn => absurd h hn, fun _ _ => trivial⟩
  · have adds : applyTrunc s cl.key m = setTag s cl.key m.rtag _ := if_neg h
    simp only [adds]
    exact ⟨onlyClu_setTag s cl _ _, by simp [setTag], fun _ => getTag_setTag s _ _ _,
      fun i hi => getTag_setTag_ne s _ _ (hi.resolve_left h)⟩

theorem countSummary_spec (s : State) (cl : Clu) (m : Summary) :
    let t := countSummary s cl.key m
    let x := tagWith (getTag s cl.key m.tag) m
    let tr : Counts := { Counts.none with trunc := m.rtrunc }
    OnlyClu s t cl ∧ (getClu t cl.key).sums = (getClu s cl.key).sums ∧
    getTag t cl.key m.tag = { x with cnt := if m.rtrunc ≠ 0 ∧ m.rtag = m.tag then x.cnt.plusSat tr else x.cnt } ∧
    (m.rtrunc ≠ 0 → m.rtag ≠ m.tag → getTag t cl.key m.rtag = { getTag s cl.key m.rtag with
      cnt := (getTag s cl.key m.rtag).cnt.plusSat tr }) ∧
    (∀ i, i ≠ m.tag → m.rtrunc = 0 ∨ i ≠ m.rtag → getTag t cl.key i = getTag s cl.key i) := by
  intro t x tr
  have own : getTag (setTag s cl.key m.tag x) cl.key m.tag = x := getTag_setTag s cl.key m.tag x
  have others (i : Nat) (hi : i ≠ m.tag) : getTag (setTag s cl.key m.tag x) cl.key i = getTag s cl.key i :=
    getTag_setTag_ne s cl.key x hi
  obtain ⟨only, sums, adds, stays⟩ := applyTrunc_spec (setTag s cl.key m.tag x) cl m
  have noted (i : Nat) : getTag t cl.key i = getTag (applyTrunc (setTag s cl.key m.tag x) cl.key m) cl.key i := by
    simp only [t, countSummary, noteSummary, getTag, getClu_setClu]
    rfl
  refine ⟨((onlyClu_setTag s cl m.tag x).trans only).trans (onlyClu_setClu _ cl _), ?_, ?_, fun hn hr => ?_, fun i hi hr => ?_⟩
  · simp only [t, countSummary, noteSummary, getClu_setClu]
    exact sums.trans (by simp [setTag])
  · rw [noted]
    by_cases h : m.rtrunc ≠ 0 ∧ m.rtag = m.tag
    · obtain ⟨hn, hr⟩ := h
      rw [hr] at adds
      rw [if_pos ⟨hn, hr⟩, adds hn, own]
    · rw [if_neg h, stays _ (by tauto), own]
  · rw [noted, adds hn, others _ hr]
  · rw [noted, stays _ hr, others _ hi]

/-- WATCH_NAN without NAN_FAULT (R187): a warning and its interrupt; summaries and tags stay. -/
theorem watchNan_warns {s : State} {cl : Clu} (tag : Nat) (st : W32) (h : bit (shwCtl s cl.key) 30 = false) :
    let t := watchNan s cl.key tag st
    let pg := pgSHW cl.q.val cl.c.val
    (getClu t cl.key).sums = (getClu s cl.key).sums ∧ (∀ i, getTag t cl.key i = getTag s cl.key i) ∧
    bit (reg t (at' pg 0x10)) 1 = true ∧
    Logged s t pg 1 0x0802 (quadAcc s cl.q.val) (BitVec.ofNat 32 (tag % 1024 + cl.c.val * 1024)) st := by
  have warns : watchNan s cl.key tag st = raiseInt (post s (pgSHW cl.q.val cl.c.val) sevWarning 0x0802 (quadAcc s cl.q.val)
      (BitVec.ofNat 32 (tag % 1024 + cl.c.val * 1024)) st) (pgSHW cl.q.val cl.c.val) 1 := by
    simp only [watchNan, h, Bool.false_eq_true, if_false, d0Shw, key_div, key_mod]
  simp only [warns]
  refine ⟨by simp [getClu], fun i => by simp [getTag, getClu], ?_, Logged.congr (post_logged s _ _ _ _ _ _) ?_⟩
  · rw [(raiseInt_spec _ _ 1).1 1 (by decide)]
    simp
  · exact (raiseInt_frame _ _ 1).2.2.2.2.2.2.1

/-- An entry handed in after a cluster changed is one handed in before. -/
theorem Logged.of_onlyClu {s t u : State} {cl : Clu} {src sev code : Nat} {acc : BitVec 12} {d0 d1 : W32}
    (h : Logged u t src sev code acc d0 d1) (hu : OnlyClu s u cl) : Logged s t src sev code acc d0 d1 := by
  obtain ⟨frame, -⟩ := hu
  rw [frame] at h
  exact h

theorem quadAcc_of_onlyClu {s u : State} {cl : Clu} (hu : OnlyClu s u cl) (q : Nat) : quadAcc u q = quadAcc s q := by
  obtain ⟨frame, -⟩ := hu
  rw [frame]
  rfl

theorem shwCtl_of_onlyClu {s u : State} {cl : Clu} (hu : OnlyClu s u cl) (k : Nat) : shwCtl u k = shwCtl s k := by
  obtain ⟨frame, -⟩ := hu
  rw [frame]
  rfl

/-- What a summary that was taken leaves of the tags and the rest. -/
theorem summaryTaken_spec (s : State) (cl : Clu) (m : Summary) :
    let t := summaryTaken s cl.key m
    OnlyClu s t cl ∧ (getClu t cl.key).sums = [] ∧
    ∀ i, getTag t cl.key i = getTag s cl.key i :=
  ⟨onlyClu_setClu s cl _, by simp [summaryTaken], fun i => by simp [summaryTaken, getTag]⟩

/-- Settles O33: a clearing write by what it leaves of the one tag or expert (`exec_shwClr_clears`, `foldl_countExpert`), a
summary by how it is counted (`countSummary_spec`, `watchNan_warns`). -/
theorem shadowAndClears : Obligations.ShadowAndClears := by
  refine ⟨?pivot, ?tag, ?expert, ?take⟩
  case pivot =>
    intro cl hi v hw s served o
    refine ⟨setReg s o ((reg s o &&& ~~~v) ||| hw), ?_, fun b hb => ?_, regsKept_setReg s o _, rfl⟩
    · change execRePivotFlagClear cl hi v hw s = _
      simp only [execRePivotFlagClear, hostWrite_served served, o]
    · rw [reg_setReg]
      exact bit_cleared _ v hw hb
  case tag =>
    intro cl v s served hv g x
    refine ⟨_, exec_shwClr_clears served hv, ⟨rfl, fun k hk => getClu_setClu_ne _ _ hk⟩, getTag_setTag _ _ _ _,
      cycleAdds_none g, fun i hi => getTag_setTag_ne _ _ _ hi, reg_setReg s _ _, regsKept_setReg s _ _⟩
  case expert =>
    intro cl v s served hv x now
    refine ⟨_, exec_rtClr_clears served hv, ⟨rfl, fun k hk => getClu_setClu_ne _ _ hk⟩, ?_⟩
    rw [getClu_setClu]
    obtain ⟨assign, drop, others⟩ :=
      foldl_countExpert_cleared (gateAdds_expert (s := s) (k := cl.key) (x := x)) (getClu s cl.key)
    exact ⟨assign, drop, others, reg_setReg s _ _, regsKept_setReg s _ _⟩
  case take =>
    intro cl m s hs hm ht g tr
    obtain ⟨taken, empty, tags⟩ := summaryTaken_spec s cl m
    have ctl := shwCtl_of_onlyClu taken cl.key
    have take {t : State} := exec_take_single (t := t) hs hm ht
    generalize summaryTaken s cl.key m = u at *
    have watch : bit (shwCtl s cl.key) 31 = true → g.step = none ∨ g.step = some m.step → applySummary u cl.key m =
        if 0 < m.cnt.nan ∧ g.nanStep ≠ some m.step then watchNan (countSummary u cl.key m) cl.key m.tag m.step
        else countSummary u cl.key m := by
      intro on hg
      have same : getTag u cl.key m.tag = g := tags m.tag
      rw [applySummary_open (ctl ▸ on) (by rw [same]; exact hg), same]
    obtain ⟨only, sums, own, rtag, others⟩ := countSummary_spec u cl m
    simp only [tags] at own rtag others
    refine ⟨fun on hg hn => ?counts, fun on warns hg hn hnew => ?reports, fun off => ?drops⟩
    case counts =>
      have counted := watch on hg
      rw [if_neg (by omega)] at counted
      refine ⟨_, take counted (sums.trans empty), taken.trans only, sums.trans empty, ?_, ?_, ?_, ?_, ?_, rtag, others⟩
      all_goals rw [own]; rfl
    case reports =>
      have counted := watch on hg
      rw [if_pos ⟨hn, hnew⟩] at counted
      have whole := taken.trans only
      obtain ⟨sums', tags', int, logged⟩ := watchNan_warns (s := countSummary u cl.key m) (cl := cl) m.tag m.step
        (by rw [shwCtl_of_onlyClu whole]; exact warns)
      rw [quadAcc_of_onlyClu whole] at logged
      refine ⟨_, take counted (sums'.trans (sums.trans empty)), ?_, logged.of_onlyClu whole, int⟩
      rw [tags', own]
      exact if_pos ⟨hn, hnew⟩
    case drops =>
      exact ⟨u, take (applySummary_off m (ctl ▸ off)) empty, taken, empty, tags⟩

end Sys2Proof
end

section
/-! PROOFS. The route unit's commands (R195 to R211): launch, lists out of range or order, null rows, and the
obligation O34. -/

namespace Sys2Proof

open Sys2Proof.Machine

/-! ## Launch (R196, R201, R211) -/

/-- A GATE opens its mask window, which lasts until it is due (R201). -/
def gateWindow (s : State) (w : W256) : GateRun :=
  { mi := rtMI w, off := cmOff w, launch := s.clk.dst, due := s.clk.dst + 4 * rtInterval w }

theorem rgGA_congr {s t : State} (h : t.top = s.top) (r : W128) : rgGA t r = rgGA s r := by simp only [rgGA, h]

/-- The checks of the launch do not depend on the queues. -/
theorem rtCheck_headTaken (s : State) (cl : Clu) (rt : Bool) (v : W256) (rest : List W256) (j : Nat) (w : W256) :
    rtCheck (headTaken s cl rt v rest) j cl w = rtCheck s j cl w := by
  have region : rtRegion (headTaken s cl rt v rest) j w = rtRegion s j w := rfl
  have top : (headTaken s cl rt v rest).top = s.top := rfl
  have regionBad : rtRegionBad (headTaken s cl rt v rest) j cl w = rtRegionBad s j cl w := by
    simp only [rtRegionBad, region, rgGA_congr top]
  simp only [rtCheck, regionBad]

section
variable {s : State} {cl : Clu} {w : W256} {j : Nat} (hc : rtCheck s j cl w = none) (rest : List W256) (jt : Nat)
include hc

theorem rtRun_counts (hop : cmOp w ≤ 1) : rtRun cl (headTaken s cl true w rest) j jt w = countedCmd s cl true w rest := by
  simp only [rtRun, rtCheck_headTaken, hc, countedCmd]
  obtain h0 | h1 : cmOp w = 0 ∨ cmOp w = 1 := by omega
  · simp [h0]
  · simp [h1]

/-- A command that runs takes the unit; a GATE opens its window too. -/
theorem rtRun_runs (hop : 2 ≤ cmOp w) :
    let t := rtRun cl (headTaken s cl true w rest) j jt w
    OnlyClu s t cl ∧ getClu t cl.key = { getClu s cl.key with
      rt := took (getClu s cl.key).rt s w rest (rtInterval w) (newCmd s cl jt w (rtCC w) (rtTag w) 0x7E) (rtPlan w)
      gate := if cmOp w = 2 then some (gateWindow s w) else (getClu s cl.key).gate } := by
  have h0 : cmOp w ≠ 0 := by omega
  have h1 : cmOp w ≠ 1 := by omega
  obtain ⟨only, clu⟩ := unitIssue_headTaken s cl true w rest (rtInterval w)
    (newCmd s cl jt w (rtCC w) (rtTag w) 0x7E) (rtPlan w)
  simp only [rtRun, rtCheck_headTaken, hc, h0, h1, if_false, rtCmd, newCmd_headTaken]
  by_cases gate : cmOp w = 2
  · simp only [if_pos gate]
    refine ⟨only.trans (onlyClu_setClu _ cl _), ?_⟩
    rw [getClu_setClu, clu]
    rfl
  · simp only [if_neg gate]
    exact ⟨only, clu⟩

end

/-- The rows of the commands that take the route unit, by opcode, with their intervals (R211). -/
def rtLaunchRows (cl : Clu) (w : W256) : List (Nat × Instr × Nat) :=
  let n := rtN w
  let p4 := (rtP w + 3) / 4
  let pr4 := (rtPr w + 3) / 4
  [(2, Instr.gate cl, 64 + n * ((rtE w * rtSz w + 255) / 256 + rtK w) + (rtE w * rtCap w * 8 + 255) / 256),
    (3, .dispatch cl, 32 + rtE w * rtCap w * p4), (4, .combine cl, 32 + n * (rtK w * p4 + 1)),
    (5, .wgrad cl, 32 + n * rtK w * 2 * p4), (6, .gather cl, 32 + (n + 63) / 64 + n * p4 + 240),
    (7, .pack cl, 32 + (n + 63) / 64 + (n * clog2 (max n 2) + 15) / 16 + n * pr4),
    (8, .merge cl, 32 + (rtNL w * n + 3) / 4 + rtNL w * n * pr4)]

theorem exec_rtLaunchRows (cl : Clu) (w : W256) (s : State) : ∀ e ∈ rtLaunchRows cl w, 2 ≤ e.1 ∧
    exec e.2.1 s = .next (unitLaunch s cl true (· == e.1) (rtRun cl)) ∧ (cmOp w = e.1 → rtInterval w = e.2.2) := by
  simp only [rtLaunchRows, List.forall_mem_cons]
  refine ⟨⟨by decide, rfl, ?_⟩, ⟨by decide, rfl, ?_⟩, ⟨by decide, rfl, ?_⟩, ⟨by decide, rfl, ?_⟩, ⟨by decide, rfl, ?_⟩,
    ⟨by decide, rfl, ?_⟩, ⟨by decide, rfl, ?_⟩, by simp⟩
  all_goals
    intro hop
    simp only [rtInterval, hop]
    rfl

/-- NOP and END. -/
theorem exec_rtNop_rtEnd (cl : Clu) (s : State) {w : W256} (hop : cmOp w ≤ 1) : ∃ p : Nat → Bool, p (cmOp w) = true ∧
    exec (if cmOp w = 0 then .rtNop cl else .rtEnd cl) s = .next (unitLaunch s cl true p (rtRun cl)) := by
  obtain h0 | h1 : cmOp w = 0 ∨ cmOp w = 1 := by omega
  · rw [if_pos h0]
    exact ⟨_, by simp [h0], rfl⟩
  · rw [if_neg (by omega)]
    exact ⟨_, by simp [h1], rfl⟩

/-! ## Lists (R207, R210) -/

theorem readCheck_flawless {s : State} (h : s.flaws = []) (who : Who) (as : List Nat) : readCheck s who as = (s, true) := by
  simp [readCheck, flawsOf, h]

/-- With no error in memory a step reads what it needs and works. -/
theorem rtEvent_works {s : State} {cl : Clu} {j : Nat} (hf : s.flaws = []) (hj : jobOn s cl.q.val = some j) (f : CmdFly)
    {e : Ev} (hk : e.kind = .calc) : rtEvent s cl f e = rtWork s j cl f e := by
  simp only [rtEvent, hk, hj, readCheck_flawless hf, if_true]

/-- A list that breaks its rule ends the command and faults the job of the quadrant; its code waits for its commit. -/
theorem rtDead_spec {s : State} {cl : Clu} {i : Nat} (f : CmdFly) (code hi : Nat) (hr : residentOn s cl.q.val = some i)
    (hn : NoneWaits s (pgRT cl.q.val cl.c.val)) :
    let r := rtDead s cl f code hi
    (getJob r.1 i).st = .faulted ∧ r.2.plan = [] ∧ r.2.out = [] ∧ r.1.mem = s.mem ∧
      Raised r.1 (pgRT cl.q.val cl.c.val) code := by
  have page : unitPage true cl.key = pgRT cl.q.val cl.c.val := by simp [unitPage, key_div, key_mod]
  simp only [rtDead, unitFault, page]
  refine ⟨faultsAt_faults (by rw [key_div]; exact hr) _ _, trivial, trivial, (faultsAt_frame s _ _ _).1, ?_⟩
  exact faultsAt_raised hn cl.key (by simp) (List.mem_singleton_self _)

theorem rtWork_gatherBad {s : State} {j : Nat} {cl : Clu} {f : CmdFly} {e : Ev} {n : Nat} (hop : cmOp f.w = 6)
    (hs : e.sub = 0) (h : gatherBad s j cl f.w = some n) : rtWork s j cl f e = rtDead s cl f 0x0907 n := by
  simp [rtWork, hop, hs, h]

theorem rtWork_mergeBad {s : State} {cl : Clu} {f : CmdFly} {e : Ev} (j : Nat) (hop : cmOp f.w = 8) (hs : e.sub = 0)
    (h : mergeBad s cl f.w = true) : rtWork s j cl f e = rtDead s cl f 0x0908 0 := by
  simp [rtWork, hop, hs, h]

/-- A null row of a GATHER is +0, and its first bytes count it (R207). -/
theorem rtGatherRow_null (s : State) (j : Nat) (cl : Clu) {f : CmdFly} {i : Nat} (h : tget 0 f.nums i = 0xFFFFFFFF) :
    rtGatherRow s j cl f i 0 = (bump s (at' (pgRT cl.q.val cl.c.val) 0x110) 1,
      { f with held := f.held ++ [(i, 0, List.replicate (min 256 (rtCols f.w * rtSz f.w)) 0)] }) := by
  have null : (tget 0 f.nums i).toNat = nullIdx := by rw [h]; rfl
  simp only [rtGatherRow, if_pos null, if_true, Nat.mul_zero, Nat.sub_zero]

theorem rtWork_gatherFirst (s : State) (j : Nat) (cl : Clu) {f : CmdFly} {e : Ev} (hop : cmOp f.w = 6) (hs : e.sub = 1) :
    rtWork s j cl f e = rtGatherRow s j cl f e.grp 0 := by
  simp [rtWork, hop, hs]

/-- Settles O34: launches by `CmdDue.unitLaunch_eq` and `rtRun_runs`, a list that breaks its rule by `rtDead_spec`. -/
theorem routeCommands : Obligations.RouteCommands := by
  refine ⟨?launch, ?lists, ?null⟩
  case launch =>
    intro cl j w rest s hd hc k jt n p4 pr4 cnt
    refine ⟨fun hop => ?counts, fun e he hop => ?runs⟩
    case counts =>
      obtain ⟨p, hp, row⟩ := exec_rtNop_rtEnd cl s hop
      have page : cnt = at' (unitPage true cl.key) 0x114 := by simp [cnt, unitPage, key_div, key_mod]
      refine ⟨_, row.trans (by rw [hd.unitLaunch_eq hp, rtRun_counts hc rest _ hop]), ?_⟩
      rw [page]
      exact countedCmd_spec s cl true rest hop
    case runs =>
      obtain ⟨h2, row, interval⟩ := exec_rtLaunchRows cl w s e he
      obtain ⟨only, clu⟩ := rtRun_runs hc rest jt (by omega)
      refine ⟨_, row.trans (by rw [hd.unitLaunch_eq (by simp [hop])]), only, clu.trans ?_⟩
      rw [gateWindow, interval hop, hop]
  case lists =>
    intro cl j i f e s hf hj hr hk hs hn
    rw [rtEvent_works hf hj f hk]
    refine ⟨fun n hop bad => ?_, fun hop bad => ?_⟩
    · rw [rtWork_gatherBad hop hs bad]
      exact rtDead_spec f 0x0907 n hr hn
    · rw [rtWork_mergeBad j hop hs bad]
      exact rtDead_spec f 0x0908 0 hr hn
  case null =>
    intro cl j f e s hf hj hop hk hs hx
    rw [rtEvent_works hf hj f hk, rtWork_gatherFirst s j cl hop hs, rtGatherRow_null s j cl hx]
    obtain ⟨count, kept, frame⟩ := bump_one_spec s (at' (pgRT cl.q.val cl.c.val) 0x110)
    exact ⟨rfl, count, kept, frame⟩

end Sys2Proof
end

section
/-! PROOFS. Codes of a floating-point format that round to themselves (R167, R168, R171), the special values of the stream
opcodes (R111), and the obligation O23. -/

namespace Sys2Proof

open Sys2Proof.Machine

/-! ## A code rounds to itself (R167, R168, R171) -/

section
variable (f : FFmt) (rnd u : Nat)

/-- A value on the format's grid: m units of its place k, where a place above the lowest holds the leading bit. The
round finds the same place again and loses nothing, so that neither the rounding mode nor the draw matters. -/
theorem round_grid (neg : Bool) {m k : Nat} (hm : m ≠ 0) (hlt : m < 2 ^ (f.mb + 1)) (hk : k = 0 ∨ 2 ^ f.mb ≤ m)
    (hfit : k * 2 ^ f.mb + m ≤ f.maxMag) :
    f.round rnd u (.fin neg m (1 - (f.bias : Int) - f.mb + k)) = f.sign neg (k * 2 ^ f.mb + m) := by
  have top : Nat.log2 m < f.mb + 1 := (Nat.log2_lt hm).2 hlt
  have lead : k = 0 ∨ f.mb ≤ Nat.log2 m := hk.imp_right (Nat.le_log2 hm).2
  have place : max ((Nat.log2 m : Int) + (1 - f.bias - f.mb + k) - f.mb) (1 - f.bias - f.mb) = 1 - f.bias - f.mb + k := by
    omega
  have above : (1 - (f.bias : Int) - f.mb + k - (1 - f.bias - f.mb)).toNat = k := by omega
  simp only [FFmt.round, if_neg hm, place, le_refl, if_true, sub_self, Int.toNat_zero, above,
    Nat.shiftLeft_eq, Nat.pow_zero, Nat.mul_one, pickUp, Bool.false_eq_true, if_false]
  exact if_neg (by omega)

theorem round_zero (neg : Bool) (e : Int) : f.round rnd u (.fin neg 0 e) = f.sign neg 0 := rfl

/-- Subnormals, and zeros of both signs (R168): place 0, with no hidden bit. -/
theorem round_subnormal (neg : Bool) {m : Nat} (hlt : m < 2 ^ f.mb) (hfit : m ≤ f.maxMag) :
    f.round rnd u (.fin neg m (1 - (f.bias : Int) - f.mb)) = f.sign neg m := by
  have double : 2 ^ (f.mb + 1) = 2 ^ f.mb * 2 := Nat.pow_succ ..
  by_cases zero : m = 0
  · rw [zero, round_zero]
  · simpa using round_grid f rnd u neg zero (k := 0) (by omega) (.inl rfl) (by omega)

/-- Normal values: the exponent field counts places from 1, and the hidden bit leads. -/
theorem round_normal (neg : Bool) {m : Nat} (hex : m / 2 ^ f.mb ≠ 0) (hfit : m ≤ f.maxMag) :
    f.round rnd u (.fin neg (m % 2 ^ f.mb + 2 ^ f.mb) (((m / 2 ^ f.mb : Nat) : Int) - f.bias - f.mb)) = f.sign neg m := by
  have parts : m / 2 ^ f.mb * 2 ^ f.mb + m % 2 ^ f.mb = m := Nat.div_add_mod' m _
  have low : m % 2 ^ f.mb < 2 ^ f.mb := Nat.mod_lt _ (Nat.two_pow_pos _)
  have double : 2 ^ (f.mb + 1) = 2 ^ f.mb * 2 := Nat.pow_succ ..
  obtain ⟨k, hk⟩ := Nat.exists_eq_succ_of_ne_zero hex
  rw [hk, Nat.succ_mul] at parts
  have place : ((k.succ : Nat) : Int) - f.bias - f.mb = 1 - f.bias - f.mb + k := by omega
  have whole : k * 2 ^ f.mb + (m % 2 ^ f.mb + 2 ^ f.mb) = m := by omega
  rw [hk, place, round_grid f rnd u neg (by omega) (by omega) (.inr (by omega)) (by omega), whole]

theorem sign_magnitude {code : Nat} (h : code < 2 ^ (f.eb + f.mb + 1)) :
    f.sign (decide ((code >>> (f.eb + f.mb)) % 2 = 1)) (code % 2 ^ (f.eb + f.mb)) = code := by
  rw [Nat.pow_succ] at h
  have bit : code / 2 ^ (f.eb + f.mb) < 2 := Nat.div_lt_of_lt_mul h
  have parts := Nat.mod_add_div code (2 ^ (f.eb + f.mb))
  rw [FFmt.sign, Nat.shiftRight_eq_div_pow, Nat.mod_eq_of_lt bit]
  obtain h0 | h1 := Nat.le_one_iff_eq_zero_or_eq_one.1 (Nat.le_of_lt_succ bit)
  · simpa [h0] using parts
  · simpa [h1] using parts

/-- A format keeps what it holds, in every rounding mode: R167's three kinds of code that are no NaN, by magnitude. -/
theorem round_decode {code : Nat} (hc : code < 2 ^ (f.eb + f.mb + 1)) (hn : (f.decode code).isNan = false) :
    f.round rnd u (f.decode code) = code := by
  refine Eq.trans ?_ (sign_magnitude f hc)
  rw [FFmt.decode] at hn ⊢
  generalize decide ((code >>> (f.eb + f.mb)) % 2 = 1) = neg at hn ⊢
  generalize code % 2 ^ (f.eb + f.mb) = m at hn ⊢
  simp only [Nat.shiftRight_eq_div_pow] at hn ⊢
  by_cases special : f.maxMag < m
  · simp only [if_pos special] at hn ⊢
    by_cases inf : f.hasInf ∧ m = f.maxMag + 1
    · rw [if_pos inf, FFmt.round, if_pos inf.1, inf.2]
    · rw [if_neg inf] at hn
      cases hn
  · have hfit := Nat.le_of_not_lt special
    simp only [if_neg special]
    by_cases lowest : m / 2 ^ f.mb = 0
    · have hlt : m < 2 ^ f.mb := (Nat.div_eq_zero_iff_lt (Nat.two_pow_pos _)).1 lowest
      rw [if_pos lowest, Nat.mod_eq_of_lt hlt, round_subnormal f rnd u neg hlt hfit]
    · rw [if_neg lowest, round_normal f rnd u neg lowest hfit]

end

theorem rne_val {w : W32} (h : (val w).isNan = false) : rne (val w) = w := by
  rw [rne, val, round_decode fp32 0 0 w.isLt h, BitVec.ofNat_toNat, BitVec.setWidth_eq]

/-! ## NaN (R111) -/

theorem eq_nan_of_isNan {x : Ext} (h : x.isNan = true) : x = .nan := by
  cases x with
  | nan => rfl
  | inf n => cases h
  | fin n m e => cases h

theorem mul_nan (x : Ext) : Ext.mul x .nan = .nan := by
  cases x with
  | nan => rfl
  | inf n => rfl
  | fin n m e => rfl

theorem emin_nan {x y : Ext} (h : x.isNan = true ∨ y.isNan = true) : Ext.emin x y = .nan := by
  simp only [Ext.emin, Bool.or_eq_true, if_pos h]

theorem emax_nan {x y : Ext} (h : x.isNan = true ∨ y.isNan = true) : Ext.emax x y = .nan := by
  simp only [Ext.emax, Bool.or_eq_true, if_pos h]

theorem gt_nan {x y : Ext} (h : x.isNan = true ∨ y.isNan = true) : Ext.gt x y = false := by
  rcases h with h | h <;> simp [Ext.gt, h]

theorem isZero_nan {x : Ext} (h : x.isNan = true) : x.isZero = false := by
  rw [eq_nan_of_isNan h]
  rfl

section
variable (s x y z : Ext)

theorem streamElem_axpy : streamElem 0xA s x y z = Ext.add (Ext.mul s x) y := rfl

theorem streamElem_clip : streamElem 0xB s x y z = if s.isNan ∨ x.isNan then .nan else clipOf s x := rfl

theorem streamElem_select : streamElem 0xC s x y z = if z.isZero then y else x := rfl

theorem streamElem_cmpgt : streamElem 0xD s x y z = if Ext.gt x y then Ext.one else Ext.zero := rfl

end

/-- ADD, SUB, MUL, FMA, ABS, NEG, SCALE, AXPY, CLIP and CVT, by opcode, of a NaN x. -/
theorem streamElem_nan (s y z : Ext) :
    ∀ op ∈ [1, 2, 3, 4, 7, 8, 9, 0xA, 0xB, 0xE], streamElem op s .nan y z = .nan := by
  simp only [List.forall_mem_cons]
  refine ⟨?add, ?sub, ?mul, ?fma, ?abs, ?neg, ?scale, ?axpy, ?clip, ?cvt, by simp⟩
  case add | sub | mul | fma | abs | neg | cvt => rfl
  case scale => exact mul_nan s
  case axpy =>
    rw [streamElem_axpy, mul_nan]
    rfl
  case clip => rw [streamElem_clip, if_pos (.inr rfl)]

/-- MIN, MAX and CMPGT with a NaN source. -/
theorem streamElem_compares_nan (s z : Ext) {x y : Ext} (h : x.isNan = true ∨ y.isNan = true) :
    streamElem 5 s x y z = .nan ∧ streamElem 6 s x y z = .nan ∧ streamElem 0xD s x y z = Ext.zero := by
  refine ⟨emin_nan h, emax_nan h, ?_⟩
  simp [streamElem_cmpgt, gt_nan h]

theorem fn_nan : fnExp .nan = qnan ∧ fnLog .nan = qnan ∧ fnRecip .nan = qnan ∧ fnRsqrt .nan = qnan ∧
    fnTanh .nan = qnan ∧ fnSigmoid .nan = qnan ∧ fnGelu .nan = qnan :=
  ⟨rfl, rfl, rfl, rfl, rfl, rfl, rfl⟩

/-! ## Zeros and negative values (R111) -/

theorem rne_inf (n : Bool) : rne (.inf n) = if n then 0xFF800000 else 0x7F800000 := by
  cases n with
  | false => rfl
  | true => rfl

theorem recip_zero (n : Bool) (e : Int) : Ext.recip (.fin n 0 e) = .inf n := by
  simp [Ext.recip, Ext.one, Ext.div]

theorem fnLog_negative {m : Nat} (hm : m ≠ 0) (e : Int) : fnLog (.fin true m e) = qnan := by
  simp [fnLog, Ext.isNan, Ext.isZero, Ext.isNeg, hm]

theorem rsqrt_negative {m : Nat} (hm : m ≠ 0) (e : Int) : Ext.rsqrt (.fin true m e) = .nan := by
  simp [Ext.rsqrt, hm]

/-- Settles O23: `round_decode` at FP32 for the values that it holds, and the table of R111 row by row. -/
theorem floatingValues : Obligations.FloatingValues := by
  refine ⟨fun w => rne_val, ?arith, fun s x y z h => ?compare, ?select, ?functions,
    fun n e => ⟨rfl, ?recip, rne_inf n⟩, fun m e hm => ⟨fnLog_negative hm e, ?rsqrt⟩, ⟨rfl, rfl⟩, fun s y z n e => rfl⟩
  case arith =>
    intro s x y z op hop hx
    rw [eq_nan_of_isNan hx, streamElem_nan s y z op hop]
    rfl
  case compare =>
    obtain ⟨hmin, hmax, hgt⟩ := streamElem_compares_nan s z h
    rw [hmin, hmax]
    exact ⟨rfl, rfl, hgt⟩
  case select =>
    intro s x y z h
    simp [streamElem_select, isZero_nan h]
  case functions =>
    intro x hx
    rw [eq_nan_of_isNan hx]
    exact fn_nan
  case recip => rw [fnRecip, recip_zero, rne_inf]
  case rsqrt =>
    rw [fnRsqrt, rsqrt_negative hm]
    rfl

end Sys2Proof
end

section
/-! PROOFS. The slot assignment of GATE (R197, R198) and the index order of PACK and MERGE (R209, R210), and the
obligation O35. -/

namespace Sys2Proof

open Sys2Proof.Machine

/-! ## GATE's turns (R197) -/

/-- One turn of the slot assignment: rank, token, and the token's choice of that rank. -/
abbrev GateTurn := Nat × Nat × Nat × W32

/-- The turns of one rank, by rising token. -/
def rankTurns (es : List (Nat × List (Nat × W32))) (r : Nat) : List GateTurn :=
  es.filterMap fun e => e.2[r]?.map fun c => (r, e.1, c)

/-- All turns of a GATE, in the order in which they are served. -/
def gateTurns (w : W256) (cs : List (List (Nat × W32))) : List GateTurn :=
  (List.range (rtK w)).flatMap (rankTurns ((List.range cs.length).zip cs))

/-- The slots after one turn. -/
def serveTurn (w : W256) (g : GateSt) (t : GateTurn) : GateSt := gatePut w t.1 g t.2.1 t.2.2

theorem gateAssign_eq_foldl (w : W256) (cs : List (List (Nat × W32))) :
    gateAssign w cs = (gateTurns w cs).foldl (serveTurn w) { cnt := [], lists := [], asg := [], acc := [], drop := [] } := by
  rw [gateTurns, List.foldl_flatMap, gateAssign]
  congr 1
  funext g r
  rw [rankTurns, List.foldl_filterMap]
  congr 1
  funext g e
  cases e.2[r]? <;> rfl

theorem rank_of_mem_rankTurns {es : List (Nat × List (Nat × W32))} {r : Nat} {t : GateTurn} (h : t ∈ rankTurns es r) :
    t.1 = r := by
  obtain ⟨e, -, he⟩ := List.mem_filterMap.1 h
  obtain ⟨c, -, rfl⟩ := Option.map_eq_some_iff.1 he
  rfl

/-- Every first choice is served before any second, and so on through the ranks; within a rank the lower token wins
(R197, R198). -/
theorem gateTurns_ordered (w : W256) (cs : List (List (Nat × W32))) :
    (gateTurns w cs).Pairwise fun t u => t.1 < u.1 ∨ t.1 = u.1 ∧ t.2.1 < u.2.1 := by
  refine List.pairwise_flatMap.2 ⟨fun r _ => ?tokens, ?ranks⟩
  case tokens =>
    have rise : ((List.range cs.length).zip cs).Pairwise fun d e => d.1 < e.1 := by
      rw [← List.pairwise_map (f := Prod.fst) (R := (· < ·)), List.map_fst_zip (by simp)]
      exact List.pairwise_lt_range
    refine List.pairwise_filterMap.2 (rise.imp fun {d e} hde t ht u hu => .inr ?_)
    obtain ⟨_, -, rfl⟩ := Option.map_eq_some_iff.1 ht
    obtain ⟨_, -, rfl⟩ := Option.map_eq_some_iff.1 hu
    exact ⟨rfl, hde⟩
  case ranks =>
    refine List.pairwise_lt_range.imp fun hrq t ht u hu => .inl ?_
    rwa [rank_of_mem_rankTurns ht, rank_of_mem_rankTurns hu]

theorem flatMap_toList_range {α : Type} (l : List α) : ((List.range l.length).flatMap fun r => l[r]?.toList) = l := by
  induction l with
  | nil => rfl
  | cons a l ih => simpa [List.range_succ_eq_map, List.flatMap_map] using ih

/-- Lists of one length read rank by rank give the entries of all of them. -/
theorem ranks_perm_flatten {α : Type} {n : Nat} {ls : List (List α)} (h : ∀ l ∈ ls, l.length = n) :
    ((List.range n).flatMap fun r => ls.filterMap (·[r]?)).Perm ls.flatten := by
  induction ls with
  | nil => simp
  | cons l ls ih =>
    obtain ⟨rfl, hls⟩ := List.forall_mem_cons.1 h
    have row (r : Nat) : (l :: ls).filterMap (·[r]?) = l[r]?.toList ++ ls.filterMap (·[r]?) := by
      cases hr : l[r]? <;> simp [hr]
    simp only [row, List.flatten_cons]
    refine (List.flatMap_append_perm _ _ _).symm.trans ?_
    rw [flatMap_toList_range]
    exact (ih hls).append_left l

/-- The turns' choices are all choices of the tokens, each once. -/
theorem map_gateTurns_perm {w : W256} {cs : List (List (Nat × W32))} (h : ∀ c ∈ cs, c.length = rtK w) :
    ((gateTurns w cs).map (·.2.2)).Perm cs.flatten := by
  have row (r : Nat) : (rankTurns ((List.range cs.length).zip cs) r).map (·.2.2) = cs.filterMap (·[r]?) := by
    conv_rhs => rw [← List.map_snd_zip (l₁ := List.range cs.length) (l₂ := cs) (by simp)]
    simp [rankTurns, List.map_filterMap, List.filterMap_map, Function.comp_def]
  rw [gateTurns, List.map_flatMap]
  simp only [row]
  exact ranks_perm_flatten h

/-! ## What an expert takes and drops (R197, R198) -/

/-- Expert x holds no more than its capacity, its count is what it took, and `n` choices of it were served. -/
def GateTally (w : W256) (x n : Nat) (g : GateSt) : Prop :=
  tget 0 g.cnt x ≤ rtCap w ∧ tget 0 g.acc x = tget 0 g.cnt x ∧ tget 0 g.acc x + tget 0 g.drop x = n

section
variable {w : W256} {g : GateSt} {t : GateTurn}

/-- An expert with a free slot takes the choice. -/
theorem serveTurn_takes (room : tget 0 g.cnt t.2.2.1 < rtCap w) :
    (serveTurn w g t).cnt = tput 0 g.cnt t.2.2.1 (tget 0 g.cnt t.2.2.1 + 1) ∧
    (serveTurn w g t).acc = tput 0 g.acc t.2.2.1 (tget 0 g.acc t.2.2.1 + 1) ∧ (serveTurn w g t).drop = g.drop := by
  simp only [serveTurn, gatePut, if_pos room, and_self]

/-- A full expert drops it (R198). -/
theorem serveTurn_drops (full : ¬ tget 0 g.cnt t.2.2.1 < rtCap w) :
    (serveTurn w g t).cnt = g.cnt ∧ (serveTurn w g t).acc = g.acc ∧
    (serveTurn w g t).drop = tput 0 g.drop t.2.2.1 (tget 0 g.drop t.2.2.1 + 1) := by
  simp only [serveTurn, gatePut, if_neg full, and_self]

theorem serveTurn_other {x : Nat} (h : x ≠ t.2.2.1) :
    tget 0 (serveTurn w g t).cnt x = tget 0 g.cnt x ∧ tget 0 (serveTurn w g t).acc x = tget 0 g.acc x ∧
    tget 0 (serveTurn w g t).drop x = tget 0 g.drop x := by
  by_cases room : tget 0 g.cnt t.2.2.1 < rtCap w
  · obtain ⟨cnt, acc, drop⟩ := serveTurn_takes room
    simp only [cnt, acc, drop, tget_tput_ne _ _ _ _ h, and_self]
  · obtain ⟨cnt, acc, drop⟩ := serveTurn_drops room
    simp only [cnt, acc, drop, tget_tput_ne _ _ _ _ h, and_self]

theorem serveTurn_tally {x n : Nat} (h : GateTally w x n g) :
    GateTally w x (n + if t.2.2.1 = x then 1 else 0) (serveTurn w g t) := by
  obtain ⟨cap, took, sum⟩ := h
  by_cases mine : t.2.2.1 = x
  · subst mine
    by_cases room : tget 0 g.cnt t.2.2.1 < rtCap w
    · obtain ⟨cnt, acc, drop⟩ := serveTurn_takes room
      simp only [GateTally, cnt, acc, drop, tget_tput_self, if_true]
      omega
    · obtain ⟨cnt, acc, drop⟩ := serveTurn_drops room
      simp only [GateTally, cnt, acc, drop, tget_tput_self, if_true]
      omega
  · obtain ⟨cnt, acc, drop⟩ := serveTurn_other (w := w) (g := g) (Ne.symm mine)
    rw [GateTally, cnt, acc, drop, if_neg mine]
    exact ⟨cap, took, sum⟩

end

theorem foldl_serveTurn_tally {w : W256} {x n : Nat} {g : GateSt} (ts : List GateTurn) (h : GateTally w x n g) :
    GateTally w x (n + ts.countP fun t => t.2.2.1 == x) (ts.foldl (serveTurn w) g) := by
  induction ts generalizing n g with
  | nil => exact h
  | cons t ts ih =>
    have next := ih (serveTurn_tally (t := t) h)
    rw [Nat.add_assoc, Nat.add_comm (ite ..)] at next
    simpa [List.countP_cons] using next

theorem gateAssign_tally {w : W256} {cs : List (List (Nat × W32))} (h : ∀ c ∈ cs, c.length = rtK w) (x : Nat) :
    GateTally w x (cs.flatten.countP fun c => c.1 == x) (gateAssign w cs) := by
  have served := foldl_serveTurn_tally (gateTurns w cs) (w := w) (x := x) (n := 0)
    (g := { cnt := [], lists := [], asg := [], acc := [], drop := [] }) ⟨Nat.zero_le _, rfl, rfl⟩
  rw [← (map_gateTurns_perm h).countP_eq, gateAssign_eq_foldl, List.countP_map]
  simpa [Function.comp_def] using served

/-! ## The indices of PACK and MERGE (R209, R210) -/

theorem mem_insIdx {x y : Nat} {l : List Nat} : y ∈ insIdx x l ↔ y = x ∨ y ∈ l := by
  induction l with
  | nil => simp [insIdx]
  | cons z l ih =>
    rw [insIdx]
    split
    · simp
    · split
      case isTrue same => simp [same]
      case isFalse => simp [ih, or_left_comm]

theorem insIdx_rising {x : Nat} {l : List Nat} (h : l.Pairwise (· < ·)) : (insIdx x l).Pairwise (· < ·) := by
  induction l with
  | nil => simp [insIdx]
  | cons z l ih =>
    obtain ⟨above, tail⟩ := List.pairwise_cons.1 h
    rw [insIdx]
    split
    case isTrue below =>
      exact List.pairwise_cons.2 ⟨List.forall_mem_cons.2 ⟨below, fun y hy => below.trans (above y hy)⟩, h⟩
    case isFalse notBelow =>
      split
      case isTrue => exact h
      case isFalse other =>
        refine List.pairwise_cons.2 ⟨fun y hy => ?_, ih tail⟩
        obtain rfl | hy := mem_insIdx.1 hy
        · omega
        · exact above y hy

theorem foldl_insIdx_rising {acc : List Nat} (xs : List Nat) (h : acc.Pairwise (· < ·)) :
    (xs.foldl (fun a x => insIdx x a) acc).Pairwise (· < ·) :=
  List.foldlRecOn xs _ h fun _ ha _ _ => insIdx_rising ha

theorem mem_foldl_insIdx {y : Nat} {xs acc : List Nat} :
    y ∈ xs.foldl (fun a x => insIdx x a) acc ↔ y ∈ acc ∨ y ∈ xs := by
  induction xs generalizing acc with
  | nil => simp
  | cons x xs ih => rw [List.foldl_cons, ih, mem_insIdx, List.mem_cons, or_assoc, or_left_comm]

theorem distinctIdx_rising (xs : List Nat) : (distinctIdx xs).Pairwise (· < ·) := foldl_insIdx_rising xs .nil

theorem mem_distinctIdx {y : Nat} {xs : List Nat} : y ∈ distinctIdx xs ↔ y ∈ xs := by
  simp [distinctIdx, mem_foldl_insIdx]

/-- Settles O35: the tally of an expert, kept by every turn of `gateTurns`, whose order is `gateTurns_ordered`, and
sorted insertion. -/
theorem routeLists : Obligations.RouteLists := by
  refine ⟨fun w cs h x => ?_, fun xs => ⟨distinctIdx_rising xs, fun x => mem_distinctIdx⟩⟩
  rw [← List.countP_eq_length_filter]
  exact gateAssign_tally h x

end Sys2Proof
end

section
/-! PROOFS. The completion of an update pass (R214, R227, R230), and the obligation O37. -/

namespace Sys2Proof

open Sys2Proof.Machine

/-- A completed pass leaves its engine and is counted. -/
def leftEngine (s : State) (e : Nat) : State :=
  bump (setUe s e { getUe s e with fly := none }) (at' (pgUE (e / 3) (e % 3)) 0x100) 1

theorem leftEngine_spec (s : State) (e : Nat) :
    let t := leftEngine s e
    let cnt := at' (pgUE (e / 3) (e % 3)) 0x100
    t = { s with ues := t.ues, regs := t.regs } ∧ getUe t e = { getUe s e with fly := none } ∧
    (∀ d, d ≠ e → getUe t d = getUe s d) ∧ reg t cnt = satAdd (reg s cnt) 1 ∧ RegsKept s t [cnt] := by
  obtain ⟨count, kept, -⟩ :=
    bump_one_spec (setUe s e { getUe s e with fly := none }) (at' (pgUE (e / 3) (e % 3)) 0x100)
  exact ⟨rfl, getUe_setUe s e _, fun d hd => getUe_setUe_ne s _ hd, count, kept⟩

theorem passDone_eq (s : State) (e : Nat) (f : PassFly) :
    passDone s e f = creditTo (leftEngine s e) (16 * (e / 3) + psClu f.w) (psCC f.w) := by
  unfold passDone
  cases psCC f.w <;> rfl

section
variable {s : State} {e : Fin 12} {j : Nat} {f : PassFly}
variable (hj : runningOn s (e.val / 3) = some j) (hf : (getUe s e).fly = some f)
include hj hf

theorem exec_passComplete_early (h : jobTime s (getJob s j) < f.due) : exec (.passComplete e) s = .next s := by
  change execPassComplete e s = _
  simp only [execPassComplete, passReady, hj, hf, if_neg (not_le.2 h)]

theorem exec_passComplete_due (h : f.due ≤ jobTime s (getJob s j)) :
    exec (.passComplete e) s = .next (passDone s e f) := by
  change execPassComplete e s = _
  simp only [execPassComplete, passReady, hj, hf, if_pos h]

end

/-- Settles O37: a pass that is due leaves its engine (`leftEngine_spec`) and credits its counter (`credit_counter`). -/
theorem passCompletes : Obligations.PassCompletes := by
  intro e j f s hj hf
  refine ⟨exec_passComplete_early hj hf, fun due => ⟨_, exec_passComplete_due hj hf due, ?_⟩⟩
  obtain ⟨left, mine, others, count, kept⟩ := leftEngine_spec s e
  rw [passDone_eq]
  cases hc : psCC f.w with
  | none => exact ⟨mine, others, count, kept, fun _ => left, nofun⟩
  | some n =>
    obtain ⟨counter, rest, dirty, frame⟩ := credit_counter (leftEngine s e) (16 * (e.val / 3) + psClu f.w) n 1
    refine ⟨mine, others, count, kept, nofun, fun m hm => ?_⟩
    obtain rfl : n = m := Option.some.inj hm
    exact ⟨dirty, counter, rest, frame⟩

end Sys2Proof
end

section
/-! PROOFS. The advance list and the group words (R234, R235, R237 to R239, R242), and the obligation O38. -/

namespace Sys2Proof

open Sys2Proof.Machine

/-! ## One advance of a group (R237) -/

/-- The words of R237 after an advance, the computed ones from those that it has just set. -/
theorem advanceGrp_words (w : Tab W32) :
    tget 0 (advanceGrp w) 12 = tget 0 w 12 + 1 ∧
    tget 0 (advanceGrp w) 10 = rne (Ext.mul (val (tget 0 w 10)) (val (tget 0 w 8))) ∧
    tget 0 (advanceGrp w) 11 = rne (Ext.mul (val (tget 0 w 11)) (val (tget 0 w 9))) ∧
    tget 0 (advanceGrp w) 20 = rne (Ext.sub Ext.one (val (tget 0 (advanceGrp w) 10))) ∧
    tget 0 (advanceGrp w) 19 = rne (Ext.mul (val (tget 0 w 0)) (val (tget 0 (advanceGrp w) 18))) := by
  simp [advanceGrp, withFactor, withBias, tget_tput]

/-- A group entry after an advance. -/
def advanced (x : GrpEntry) : GrpEntry := { x with words := advanceGrp x.words }

/-- Later proofs go by these fields, so that `advanceGrp` stays folded in them. -/
theorem advanced_fields (x : GrpEntry) :
    (advanced x).owner = x.owner ∧ (advanced x).job = x.job ∧ (advanced x).words = advanceGrp x.words := by
  simp only [advanced, and_self]

/-- The module's group entry e takes one step. -/
def stepGroup (s : State) (e : Nat) : State := setGrp s e (advanced (getGrp s e))

/-- The group is at its largest STEP. -/
def AtLastStep (s : State) (e : Nat) : Prop := tget 0 (getGrp s e).words 12 = 0xFFFFFFFF

theorem getGrp_stepGroup_ne (s : State) {e i : Nat} (h : i ≠ e) : getGrp (stepGroup s e) i = getGrp s i :=
  getGrp_setGrp_ne s _ h

theorem atLastStep_stepGroup_ne (s : State) {e i : Nat} (h : i ≠ e) : AtLastStep (stepGroup s e) i ↔ AtLastStep s i := by
  rw [AtLastStep, AtLastStep, getGrp_stepGroup_ne s h]

theorem foldl_stepGroup_frame (es : List Nat) (s : State) :
    es.foldl stepGroup s = { s with grps := (es.foldl stepGroup s).grps } := by
  induction es generalizing s with
  | nil => rfl
  | cons e es ih => exact ih (stepGroup s e)

/-- A group that is listed once takes one step, one that is not listed none. -/
theorem getGrp_foldl_stepGroup {es : List Nat} (hd : es.Nodup) (s : State) (e : Nat) :
    getGrp (es.foldl stepGroup s) e = if e ∈ es then advanced (getGrp s e) else getGrp s e :=
  foldl_once (obs := (getGrp · e)) (g := advanced) (fun t => getGrp_setGrp t e _) hd
    (fun _ _ hne t => getGrp_stepGroup_ne t (Ne.symm hne)) s

/-! ## Groups of a job (R234) -/

/-- Which entry a job-local group has hangs on the job's map and on the entries' owners alone. -/
theorem grpEntry_congr {s t : State} {j : Nat} (hm : (getJob t j).grps = (getJob s j).grps)
    (ho : ∀ e, (getGrp t e).owner = (getGrp s e).owner ∧ (getGrp t e).job = (getGrp s e).job) :
    grpEntry t j = grpEntry s j := by
  funext g
  simp only [grpEntry, hm, ho]

theorem grpEntry_stepGroup (s : State) (j e : Nat) : grpEntry (stepGroup s e) j = grpEntry s j := by
  refine grpEntry_congr rfl fun i => ?_
  by_cases hi : i = e
  · subst hi
    rw [stepGroup, getGrp_setGrp]
    obtain ⟨owner, job, -⟩ := advanced_fields (getGrp s i)
    exact ⟨owner, job⟩
  · rw [getGrp_stepGroup_ne s hi]
    exact ⟨rfl, rfl⟩

/-- The job-local groups that an advance entry names, in ascending order. -/
def advGroups (w : W64) : List Nat := (List.range (avCount w)).map (avFirst w + ·)

/-- Their entries of the module. -/
def advEntries (s : State) (j : Nat) (w : W64) : List Nat := (advGroups w).filterMap (grpEntry s j)

theorem advGroups_eq_range' (w : W64) : advGroups w = List.range' (avFirst w) (avCount w) :=
  (List.range'_eq_map_range ..).symm

theorem mem_advEntries {s : State} {j e : Nat} {w : W64} :
    e ∈ advEntries s j w ↔ ∃ n, avFirst w ≤ n ∧ n < avFirst w + avCount w ∧ grpEntry s j n = some e := by
  simp only [advEntries, advGroups_eq_range', List.mem_filterMap, List.mem_range'_1, and_assoc]

/-- Where no two groups of the job share an entry, an advance entry names none twice. -/
theorem advEntries_nodup {s : State} {j : Nat} (h : ∀ m n e, grpEntry s j m = some e → grpEntry s j n = some e → m = n)
    (w : W64) : (advEntries s j w).Nodup := by
  rw [advEntries, advGroups_eq_range']
  exact List.Nodup.filterMap (fun m n e => h m n e) List.nodup_range'

/-! ## The groups of an entry, one after another (R237, R239) -/

theorem schFault_faulted {s : State} {j : Nat} (h : (getJob s j).st = .running) (off idx code : Nat) :
    (getJob (schFault s j off idx code) j).st = .faulted := by
  refine jobFault_faulted (.inl ?_)
  rw [getJob_congr (s := s) (by simp), h]
  rfl

/-- An entry that has faulted its job does nothing more. -/
theorem foldl_advanceOne_stopped (j idx : Nat) (w : W64) (gs : List Nat) (s : State) :
    gs.foldl (advanceOne j idx w) (s, false) = (s, false) := by
  induction gs with
  | nil => rfl
  | cons g gs ih => exact ih

theorem advanceOne_unmapped {s : State} {j g : Nat} (h : grpEntry s j g = none) (idx : Nat) (w : W64) :
    advanceOne j idx w (s, true) g = (s, true) := by
  simp [advanceOne, h]

/-- An advance entry without SAVE, LOAD and NOADV. -/
structure OnlyAdvances (w : W64) : Prop where
  save : avSave w = false
  load : avLoad w = false
  adv : avNoadv w = false

section
variable {s : State} {j g e idx : Nat} {w : W64} (h : OnlyAdvances w)
include h

/-- What such an entry does with a group of the job. -/
theorem advanceOne_mapped (hg : grpEntry s j g = some e) : advanceOne j idx w (s, true) g =
    if tget 0 (getGrp s e).words 12 = 0xFFFFFFFF then
      (schFault (setGrp s e (getGrp s e)) j (avOff w) idx 0x0A09, false)
    else (stepGroup s e, true) := by
  simp only [advanceOne, hg, h.save, h.load, h.adv, Bool.not_true, Bool.not_false, Bool.false_eq_true, if_false, if_true,
    true_and]
  rfl

theorem advanceOne_steps (hg : grpEntry s j g = some e) (hc : ¬ AtLastStep s e) :
    advanceOne j idx w (s, true) g = (stepGroup s e, true) := (advanceOne_mapped h hg).trans (if_neg hc)

theorem advanceOne_saturated (hg : grpEntry s j g = some e) (hc : AtLastStep s e) : advanceOne j idx w (s, true) g =
    (schFault (setGrp s e (getGrp s e)) j (avOff w) idx 0x0A09, false) := (advanceOne_mapped h hg).trans (if_pos hc)

/-- Where no group named is at the largest STEP, each takes its step. -/
theorem foldl_advanceOne_steps {gs : List Nat} (hd : (gs.filterMap (grpEntry s j)).Nodup)
    (hc : ∀ e ∈ gs.filterMap (grpEntry s j), ¬ AtLastStep s e) :
    gs.foldl (advanceOne j idx w) (s, true) = ((gs.filterMap (grpEntry s j)).foldl stepGroup s, true) := by
  induction gs generalizing s with
  | nil => rfl
  | cons g gs ih =>
    rw [List.foldl_cons]
    cases hg : grpEntry s j g with
    | none =>
      rw [List.filterMap_cons_none hg] at hd hc ⊢
      rw [advanceOne_unmapped hg]
      exact ih hd hc
    | some e =>
      rw [List.filterMap_cons_some hg] at hd hc ⊢
      obtain ⟨new, hd⟩ := List.nodup_cons.1 hd
      rw [advanceOne_steps h hg (hc e List.mem_cons_self), List.foldl_cons, ← grpEntry_stepGroup s j e]
      rw [← grpEntry_stepGroup s j e] at hd
      refine ih hd fun i hi => ?_
      rw [grpEntry_stepGroup] at hi
      have other : i ≠ e := fun eq => new (eq ▸ hi)
      exact (atLastStep_stepGroup_ne s other).not.2 (hc i (List.mem_cons_of_mem _ hi))

/-- The first group at the largest STEP faults the job. -/
theorem foldl_advanceOne_faults {gs : List Nat} (hr : (getJob s j).st = .running)
    (hc : ∃ e ∈ gs.filterMap (grpEntry s j), AtLastStep s e) :
    (getJob (gs.foldl (advanceOne j idx w) (s, true)).1 j).st = .faulted := by
  induction gs generalizing s with
  | nil => simp at hc
  | cons g gs ih =>
    rw [List.foldl_cons]
    cases hg : grpEntry s j g with
    | none =>
      rw [List.filterMap_cons_none hg] at hc
      rw [advanceOne_unmapped hg]
      exact ih hr hc
    | some e =>
      by_cases he : AtLastStep s e
      · rw [advanceOne_saturated h hg he, foldl_advanceOne_stopped]
        exact schFault_faulted (s := setGrp s e (getGrp s e)) hr (avOff w) idx 0x0A09
      · obtain ⟨i, hi, last⟩ := hc
        rw [List.filterMap_cons_some hg] at hi
        have other : i ≠ e := fun eq => he (eq ▸ last)
        rw [advanceOne_steps h hg he]
        refine ih hr ⟨i, ?_, (atLastStep_stepGroup_ne s other).2 last⟩
        rw [grpEntry_stepGroup]
        exact List.mem_of_ne_of_mem other hi

theorem advanceCharge_free (s : State) (j : Nat) : advanceCharge s j w = (s, true) := by
  simp [advanceCharge, h.save, h.load]

end

/-! ## ADVANCE_ENTRY (R237) -/

/-- The core edge of the list's next entry has come. -/
structure AdvDue (s : State) (j : Nat) (g : Seg) (w : W64) : Prop where
  seg : (segsOf s j)[(getJob s j).seg - 1]? = some g
  entry : g.adv[(getJob s j).advPos]? = some w
  running : (getJob s j).st = .running
  held : (getJob s j).held = false
  inSeg : (getJob s j).seg ≠ 0
  time : originOf s j (getJob s j).seg + 4 * avOff w ≤ jobTime s (getJob s j)

/-- The entry in flight. -/
def advFly (s : State) (j : Nat) (w : W64) : AdvFly :=
  { grps := advEntries s j w, off := avOff w, idx := (getJob s j).advPos, hbm := false
    due := originOf s j (getJob s j).seg + 4 * avOff w + 4 * (16 + cdiv (avCount w) 4) }

/-- The job has launched the entry. -/
def advLaunched (s : State) (j : Nat) (w : W64) : State :=
  setJob s j { getJob s j with advPos := (getJob s j).advPos + 1, adv := (getJob s j).adv ++ [advFly s j w] }

theorem getGrp_advLaunched (s : State) (j : Nat) (w : W64) (e : Nat) : getGrp (advLaunched s j w) e = getGrp s e := rfl

theorem advEntries_advLaunched (s : State) (j : Nat) (w : W64) :
    (advGroups w).filterMap (grpEntry (advLaunched s j w) j) = advEntries s j w := by
  have same : grpEntry (advLaunched s j w) j = grpEntry s j :=
    grpEntry_congr (by rw [advLaunched, getJob_setJob]) fun _ => ⟨rfl, rfl⟩
  rw [same]
  rfl

section
variable {s : State} {j : Fin 4} {g : Seg} {w : W64} (hd : AdvDue s j g w) (h : OnlyAdvances w)
include hd h

/-- The entry launches, and takes its groups one after another. -/
theorem exec_advanceEntry_due : exec (.advanceEntry j) s =
    .next ((advGroups w).foldl (advanceOne j (getJob s j).advPos w) (advLaunched s j w, true)).1 := by
  have due : ¬ ((getJob s j).st ≠ .running ∨ (getJob s j).held = true ∨ (getJob s j).seg = 0 ∨
      jobTime s (getJob s j) < originOf s j (getJob s j).seg + 4 * avOff w) := by
    simp [hd.running, hd.held, hd.inSeg, hd.time]
  change execAdvanceEntry j s = _
  simp only [execAdvanceEntry, hd.seg, hd.entry, if_neg due, h.save, h.load, advanceCharge_free h, if_true]
  rfl

theorem exec_advanceEntry_steps (hn : (advEntries s j w).Nodup) (hc : ∀ e ∈ advEntries s j w, ¬ AtLastStep s e) :
    exec (.advanceEntry j) s = .next ((advEntries s j w).foldl stepGroup (advLaunched s j w)) := by
  rw [exec_advanceEntry_due hd h, foldl_advanceOne_steps h] <;> rw [advEntries_advLaunched]
  · exact hn
  · exact hc

theorem exec_advanceEntry_faults (hc : ∃ e ∈ advEntries s j w, AtLastStep s e) :
    ∃ t, exec (.advanceEntry j) s = .next t ∧ (getJob t j).st = .faulted := by
  refine ⟨_, exec_advanceEntry_due hd h, foldl_advanceOne_faults h ?_ ?_⟩
  · rw [advLaunched, getJob_setJob]
    exact hd.running
  · rw [advEntries_advLaunched]
    exact hc

end

/-! ## ADVANCE_COMPLETE -/

theorem findIdx?_append {α : Type} {p : α → Bool} {pre : List α} (hpre : ∀ x ∈ pre, p x = false) {a : α} (ha : p a = true)
    (post : List α) (i : Nat) : findIdx? p (pre ++ a :: post) i = some (i + pre.length, a) := by
  induction pre generalizing i with
  | nil => simp [findIdx?, ha]
  | cons x pre ih =>
    obtain ⟨hx, hpre⟩ := List.forall_mem_cons.1 hpre
    rw [List.cons_append, findIdx?, hx, if_neg Bool.false_ne_true, ih hpre, List.length_cons, Nat.add_right_comm,
      Nat.add_assoc]

theorem removeAt_append {α : Type} (pre : List α) (a : α) (post : List α) :
    removeAt (pre ++ a :: post) pre.length = pre ++ post := by
  induction pre with
  | nil => rfl
  | cons x pre ih => exact congrArg (x :: ·) ih

/-- The oldest entry that is due leaves the list; one with unfinished HBM traffic then faults the job (R239). -/
theorem exec_advanceComplete_due {s : State} {j : Fin 4} {a : AdvFly} {pre post : List AdvFly} (done : Bool)
    (hl : (getJob s j).adv = pre ++ a :: post) (hpre : ∀ x ∈ pre, jobTime s (getJob s j) < x.due)
    (ha : a.due ≤ jobTime s (getJob s j)) (hr : (getJob s j).st = .running) :
    let t := setJob s j { getJob s j with adv := pre ++ post }
    exec (.advanceComplete j done) s =
      .next (if a.hbm = true ∧ ¬ done = true then schFault t j a.off a.idx 0x0A08 else t) := by
  have oldest := findIdx?_append (p := fun a => decide (a.due ≤ jobTime s (getJob s j)))
    (fun x hx => decide_eq_false (not_le.2 (hpre x hx))) (decide_eq_true ha) post 0
  rw [Nat.zero_add] at oldest
  change execAdvanceComplete j done s = _
  simp only [execAdvanceComplete, hl, oldest, hr, ne_eq, not_true_eq_false, if_false, removeAt_append]

/-! ## SCH_GRP_WORD_WRITE (R242) -/

theorem d0Sch_zero (acc : BitVec 12) (j : Nat) :
    d0Sch acc j 0 = BitVec.ofNat 32 (acc.toNat * 2 ^ 20 + j % 4 * 2 ^ 16) := by
  rw [d0Sch, Nat.zero_mod, Nat.add_zero]

/-- A running job owns the entry. -/
def GrpTaken (s : State) (e : Nat) : Prop := (getGrp s e).owner ≠ 0 ∧ (getJob s (getGrp s e).job).st = .running

section
variable {s : State} (h : Served s pgSCH) (w : Fin 32) (v : W32)
include h

theorem exec_schGrpWordWrite_taken (ht : GrpTaken s (fld (reg s (at' pgSCH 0x200)) 7 0)) :
    let e := fld (reg s (at' pgSCH 0x200)) 7 0
    exec (.schGrpWordWrite w v) s = .next (post s pgSCH sevWarning 0x0209 (getGrp s e).owner
      (d0Sch (getGrp s e).owner (getGrp s e).job 0) (BitVec.ofNat 32 (e + w.val * 256))) := by
  change execSchGrpWordWrite w v s = _
  rw [execSchGrpWordWrite, hostWrite_served h]
  exact congrArg _ (if_pos ht)

theorem exec_schGrpWordWrite_free (ht : ¬ GrpTaken s (fld (reg s (at' pgSCH 0x200)) 7 0)) :
    let e := fld (reg s (at' pgSCH 0x200)) 7 0
    exec (.schGrpWordWrite w v) s = .next (if 18 ≤ w.val then s else setGrp s e { getGrp s e with
      words := tput 0 (getGrp s e).words w.val (if w.val = 17 then v &&& 0x3F else v) }) := by
  change execSchGrpWordWrite w v s = _
  rw [execSchGrpWordWrite, hostWrite_served h]
  exact congrArg _ (if_neg ht)

end

/-! ## The obligation -/

/-- Settles O38: an entry's groups by `exec_advanceEntry_steps` and `exec_advanceEntry_faults`, its completion by
`exec_advanceComplete_due`, a written word by what the table of words then reads. -/
theorem advanceRows : Obligations.AdvanceRows := by
  refine ⟨?entry, fun j a pre post done s hl hpre ha hr => ?complete, fun w v s h => ?word⟩
  case entry =>
    intro j g w s hg hw hr hh h0 ht hs hl hn named inj
    have due : AdvDue s j g w := ⟨hg, hw, hr, hh, h0, ht⟩
    have only : OnlyAdvances w := ⟨hs, hl, hn⟩
    refine ⟨fun room => ?_, fun ⟨e, he, last⟩ => exec_advanceEntry_faults due only ⟨e, mem_advEntries.2 he, last⟩⟩
    have nodup := advEntries_nodup inj w
    have frame := foldl_stepGroup_frame (advEntries s j w) (advLaunched s j w)
    have groups := getGrp_foldl_stepGroup nodup (advLaunched s j w)
    have start := exec_advanceEntry_steps due only nodup fun e he => room e (mem_advEntries.1 he)
    refine ⟨_, advFly s j w, start, ?_, ?_, rfl, fun i hi => ?_, fun e he => ?_, fun e he => ?_⟩
    · rw [frame]; rfl
    · rw [frame]; exact getJob_setJob s j _
    · rw [frame]; exact getJob_setJob_ne s _ hi
    · rw [groups, if_neg (mem_advEntries.not.2 he), getGrp_advLaunched]
    · rw [groups, if_pos (mem_advEntries.2 he), getGrp_advLaunched]
      obtain ⟨owner, -, words⟩ := advanced_fields (getGrp s e)
      rw [words]
      exact ⟨owner, advanceGrp_words (getGrp s e).words⟩
  case complete =>
    have out := exec_advanceComplete_due done hl hpre ha hr
    refine ⟨fun fine => ?_, fun hbm late => ⟨_, out, ?_⟩⟩
    · rw [out, if_neg]
      rcases fine with noTraffic | finished
      · simp [noTraffic]
      · simp [finished]
    · rw [if_pos ⟨hbm, by simp [late]⟩]
      exact schFault_faulted (by simpa using hr) a.off a.idx 0x0A08
  case word =>
    refine ⟨fun high free => ?_, fun low free => ?_, fun taken => ?_⟩
    · rw [exec_schGrpWordWrite_free h w v free, if_pos high]
    · refine ⟨_, (exec_schGrpWordWrite_free h w v free).trans (by rw [if_neg (not_le.2 low)]), rfl,
        fun i hi => getGrp_setGrp_ne s _ hi, ?_, ?_, fun i hi => ?_⟩
      · rw [getGrp_setGrp]
      · rw [getGrp_setGrp]; exact tget_tput_self ..
      · rw [getGrp_setGrp]; exact tget_tput_ne _ _ _ _ hi
    · refine ⟨_, exec_schGrpWordWrite_taken h w v taken, ?_, d0Sch_zero _ _ ▸ post_logged _ _ _ _ _ _ _⟩
      obtain ⟨l, r, touched⟩ := post_touches s pgSCH sevWarning 0x0209 _ _ _
      rw [touched]

end Sys2Proof
end

section
/-! PROOFS. The header of a REDUCE message of this module (R248), and the obligation O41. -/

namespace Sys2Proof

open Sys2Proof.Machine

theorem bit_eq_fld {n : Nat} (w : BitVec n) (i : Nat) : bit w i = decide (fld w i i = 1) := by
  simp [bit, fld, Nat.testBit_eq_decide_div_mod_eq, Nat.shiftRight_eq_div_pow]

theorem ite_two_pow (b : Bool) (n : Nat) : (if b = true then 2 ^ n else 0) = b.toNat * 2 ^ n := by cases b <;> simp

/-- The second header half as a number, its flags as numbers too (R248). -/
def reduceWord (acc ctx bkt step chunk part down wid vote last src : Nat) : Nat :=
  acc * 2 ^ 116 + ctx * 2 ^ 108 + bkt * 2 ^ 92 + step * 2 ^ 60 + chunk * 2 ^ 36 + part * 2 ^ 33 + down * 2 ^ 32
    + wid * 2 ^ 30 + vote * 2 ^ 29 + last * 2 ^ 28 + src * 2 ^ 15

theorem reducePkt_hdr2 (s : State) (x : Ctx) (mid dst chunk part wid : Nat) (down last : Bool) (b : List Byte) :
    (reducePkt s x mid dst chunk part wid down last b).hdr2 = BitVec.ofNat 128 (reduceWord x.owner.toNat
      (cxCtx x.defn) (cxBkt x.defn) x.step.toNat (chunk % 2 ^ 24) (part % 8) down.toNat (wid % 4)
      (cxVote x.defn).toNat last.toNat s.top.node.toNat) := by
  simp only [reducePkt, reduceWord, ite_two_pow, ownNode]

/-- Fields that fit do not overlap: each reads back from the word, and the rest reads 0. -/
theorem fld_reduceWord {acc ctx bkt step chunk part down wid vote last src : Nat} (hacc : acc < 2 ^ 12)
    (hctx : ctx < 2 ^ 8) (hbkt : bkt < 2 ^ 16) (hstep : step < 2 ^ 32) (hchunk : chunk < 2 ^ 24) (hpart : part < 8)
    (hdown : down < 2) (hwid : wid < 4) (hvote : vote < 2) (hlast : last < 2) (hsrc : src < 2 ^ 13) :
    let h : W128 := BitVec.ofNat 128 (reduceWord acc ctx bkt step chunk part down wid vote last src)
    fld h 127 116 = acc ∧ fld h 115 108 = ctx ∧ fld h 107 92 = bkt ∧ fld h 91 60 = step ∧ fld h 59 36 = chunk ∧
    fld h 35 33 = part ∧ fld h 32 32 = down ∧ fld h 31 30 = wid ∧ fld h 29 29 = vote ∧ fld h 28 28 = last ∧
    fld h 27 15 = src ∧ fld h 14 0 = 0 := by
  simp only [fld, reduceWord, BitVec.toNat_ofNat, Nat.shiftRight_eq_div_pow]
  norm_num at *
  refine ⟨?_, ?_, ?_, ?_, ?_, ?_, ?_, ?_, ?_, ?_, ?_, ?_⟩ <;> omega

theorem fld_mkHdr_mt {mt : Nat} (h : mt < 8) (acc dst src mid pidx n plen : Nat) :
    fld (mkHdr mt acc dst src mid pidx n plen) 127 125 = mt := by
  rw [fld, mkHdr, BitVec.toNat_ofNat, Nat.shiftRight_eq_div_pow, Nat.mod_eq_of_lt (b := 2 ^ 128) (by norm_num; omega),
    Nat.div_eq_of_lt_le (k := mt) (by norm_num; omega) (by norm_num; omega)]
  exact Nat.mod_eq_of_lt h

/-- Settles O41: the header is the sum of its fields (`reducePkt_hdr2`), which fit and do not overlap
(`fld_reduceWord`). -/
theorem reduceHeader : Obligations.ReduceHeader := by
  intro s x mid dst chunk part wid down last b hchunk hpart hwid p
  have hctx : cxCtx x.defn < 2 ^ 8 := Nat.mod_lt _ (Nat.two_pow_pos 8)
  have hbkt : cxBkt x.defn < 2 ^ 16 := Nat.mod_lt _ (Nat.two_pow_pos 16)
  obtain ⟨acc, ctx, bkt, step, chk, prt, dn, wd, vote, lst, src, rest⟩ := fld_reduceWord x.owner.isLt hctx hbkt
    x.step.isLt hchunk hpart down.toNat_lt hwid (cxVote x.defn).toNat_lt last.toNat_lt s.top.node.isLt
  have word : p.hdr2 = _ := reducePkt_hdr2 s x mid dst chunk part wid down last b
  rw [Nat.mod_eq_of_lt hchunk, Nat.mod_eq_of_lt hpart, Nat.mod_eq_of_lt hwid] at word
  simp only [word, bit_eq_fld]
  refine ⟨acc, ctx, bkt, step, chk, prt, ?_, wd, ?_, ?_, src, rest, fld_mkHdr_mt (by decide) .., rfl⟩
  · rw [dn]; cases down <;> rfl
  · rw [vote]; cases cxVote x.defn <;> rfl
  · rw [lst]; cases last <;> rfl

end Sys2Proof
end

section
/-! PROOFS. Contributions of a reduction and their rows (R249 to R253, R258), and the obligation O39. -/

namespace Sys2Proof

open Sys2Proof.Machine

/-! ## Queues without an error (R296) -/

theorem qCheck_sound {s : State} {n : Nat} (h : tget 0 s.fab.qFlaws n = 0) : qCheck s n = (s, 0) := by
  simp [qCheck, h]

theorem takeIn_sound {s : State} {g vc : Nat} (h : tget 0 s.fab.qFlaws (qIngress g vc) = 0) (p : Packet)
    (f : State → State) : takeIn s g vc p f = f (popIn s g vc) := by
  have sound : qCheck (popIn s g vc) (qIngress g vc) = (popIn s g vc, 0) := qCheck_sound h
  rw [takeIn, sound]
  rfl

theorem staged_sound {s : State} {e : Nat} (h : tget 0 s.fab.qFlaws (0x100 + e) = 0) (chunk : Nat) (f : State → State) :
    staged s e chunk f = f s := by
  rw [staged, qCheck_sound h]
  rfl

theorem itemCheck_touches {s : State} {n c : Nat} {drop : State → State}
    (hd : ∀ t, ∃ f, drop t = { t with fab := f }) : ∃ f, itemCheck s n c drop = { s with fab := f } := by
  unfold itemCheck
  dsimp only
  split
  · exact ⟨_, rfl⟩
  · split
    · exact ⟨_, rfl⟩
    · obtain ⟨f, dropped⟩ := hd (lostItem { s with fab := { s.fab with qFlaws := tput 0 s.fab.qFlaws n 0 } } c 1)
      exact ⟨f, dropped⟩

theorem pushRec_touches (s : State) (c : Nat) (r : List Byte) : ∃ f, pushRec s c r = { s with fab := f } := by
  obtain ⟨f, checked⟩ := itemCheck_touches (s := s) (n := 0x1FA + c) (c := c) (drop := fun s => { s with fab :=
    if c = 6 then { s.fab with telem := s.fab.telem.drop 1 } else { s.fab with trace := s.fab.trace.drop 1 } })
    fun _ => ⟨_, rfl⟩
  unfold pushRec
  rw [checked]
  dsimp only
  split
  · exact ⟨_, rfl⟩
  · split <;> exact ⟨_, rfl⟩

/-! ## A REDUCE message that is taken (R249) -/

/-- The message has left its ingress queue, and its record is in the trace queue. -/
def reduceTaken (s : State) (g vc : Nat) (p : Packet) : State := pushRec (popIn s g vc) 7 (reduceRec s p)

theorem reduceTaken_touches (s : State) (g vc : Nat) (p : Packet) :
    ∃ l f, reduceTaken s g vc p = { s with links := l, fab := f } := by
  obtain ⟨f, pushed⟩ := pushRec_touches (popIn s g vc) 7 (reduceRec s p)
  exact ⟨_, f, pushed⟩

theorem length_reduceRec (s : State) (p : Packet) : (reduceRec s p).length = 25 := by
  simp [reduceRec, length_bytesOf]

theorem exec_reduce_takes {s : State} {g : Grp} {vc : Fin 4} {p : Packet} (hp : inHead s g.key vc = some p)
    (hmt : pkMT p = 4) (hh : isHere s p = true) (hq : tget 0 s.fab.qFlaws (qIngress g.key vc) = 0)
    (hw : downWait s (reduceOf p) = false) :
    exec (.reduce g vc) s = .next (takeContrib (reduceTaken s g.key vc p) (reduceOf p)) := by
  have mine : ¬ (pkMT p ≠ mtREDUCE ∨ ¬ isHere s p = true) := by simp [hmt, hh, mtREDUCE]
  change execReduce g vc s = _
  simp only [execReduce, hp, if_neg mine, hw, Bool.false_eq_true, if_false, takeIn_sound hq]
  rfl

/-! ## The checks of R250 -/

theorem downWait_up (s : State) {c : Contrib} (h : c.down = false) : downWait s c = false := by simp [downWait, h]

theorem downWait_unknown {s : State} {c : Contrib} (h : residentAcc s c.acc = none) : downWait s c = false := by
  simp [downWait, h]

theorem residentAcc_congr {s t : State} (h : t.jobs = s.jobs) (acc : Nat) : residentAcc t acc = residentAcc s acc := by
  simp only [residentAcc, getJob_congr h]

theorem ctxEntry_congr {s t : State} (hj : t.jobs = s.jobs) (hx : t.ctxs = s.ctxs) (j n : Nat) :
    ctxEntry t j n = ctxEntry s j n := by
  simp only [ctxEntry, getJob_congr hj, getCtx_congr hx]

theorem UpPasses.congr {s t : State} {c : Contrib} {j e i : Nat} (h : UpPasses s c j e i) (hj : t.jobs = s.jobs)
    (hx : t.ctxs = s.ctxs) : UpPasses t c j e i := by
  obtain ⟨job, ctx, same, up, from', live, range, late⟩ := h
  constructor <;> simpa only [residentAcc_congr hj, ctxEntry_congr hj hx, getCtx_congr hx]

section
variable {s : State} {c : Contrib} {j e i : Nat} (h : UpPasses s c j e i) (hc : c.core = none)
include h hc

/-- The input of a message is one of the context's. -/
theorem UpPasses.input_lt : i < cxNin (getCtx s e).defn := by
  have found := h.from'
  simp only [inputOf, hc, Option.isSome_none, Bool.false_eq_true, if_false] at found
  exact List.mem_range.1 (List.mem_of_find?_eq_some found)

theorem takeContrib_up : takeContrib s c = byState s j e c i := by
  obtain ⟨bkt, vote⟩ := h.same
  obtain ⟨chunk, part, wid⟩ := h.range
  have place : placeOf (getCtx s e).defn c = some i := by simp [placeOf, h.up, h.from']
  have fits : ¬ (cxNch (getCtx s e).defn ≤ c.chunk ∨
      chunkParts (getCtx s e).defn (inputBits (getCtx s e).defn i) c.chunk ≤ c.part ∨
      c.wid ≠ inWid (cxIn (getCtx s e).defn i)) := by simp [chunk, part, wid]
  unfold takeContrib
  simp only [h.job, h.ctx, place, h.up, bkt, vote, ne_eq, not_true_eq_false, or_self, if_false, Bool.false_eq_true,
    if_neg fits]
  -- a message sent again is of a later step than the last one completed
  refine if_neg ?_
  cases hr : c.retx with
  | false => simp
  | true =>
    cases hl : (getCtx s e).last with
    | none => simp
    | some l => simpa [hc] using h.late hr l hl

end

/-! ## Staging (R251 to R253) -/

@[simp] theorem heldPart_defn (x : Ctx) (p : Machine.Part) : (heldPart x p).defn = x.defn := by
  unfold heldPart; dsimp only; split <;> rfl

theorem setFull_heldPart (x : Ctx) (p : Machine.Part) (input chunk : Nat) :
    setFull (heldPart x p) input chunk = setFull { x with parts := x.parts ++ [p] } input chunk := by
  unfold heldPart; dsimp only; split <;> rfl

/-- A part is staged in its row; a chunk that is now complete goes on the ready list. -/
def partStaged (s : State) (e : Nat) (p : Machine.Part) : State :=
  let y := heldPart (getCtx s e) p
  { setCtx s e y with
    cready := s.cready ++ if setFull y p.input p.chunk = true ∧ chunkReady y p.chunk = true then [(e, p.chunk)] else [] }

theorem stagePart_up {s : State} {e : Nat} {p : Machine.Part} (h : p.input ≠ cxNin (getCtx s e).defn) :
    stagePart s e p = partStaged s e p := by
  unfold stagePart partStaged
  dsimp only
  rw [setFull_heldPart]
  cases full : setFull { getCtx s e with parts := (getCtx s e).parts ++ [p] } p.input p.chunk with
  | false => simp [heldPart, full, setCtx]
  | true =>
    have held : heldPart (getCtx s e) p = { getCtx s e with
        parts := (getCtx s e).parts ++ [p], done := (p.input, p.chunk) :: (getCtx s e).done
        sets := (getCtx s e).sets + 1 } := if_pos full
    simp only [held, Bool.not_true, Bool.false_eq_true, if_false, if_neg h, true_and]
    by_cases ready : chunkReady { getCtx s e with
        parts := (getCtx s e).parts ++ [p], done := (p.input, p.chunk) :: (getCtx s e).done
        sets := (getCtx s e).sets + 1 } p.chunk = true
    · exact (if_pos ready).trans (by rw [if_pos ready]; rfl)
    · exact (if_neg ready).trans (by rw [if_neg ready, List.append_nil]; rfl)

theorem partStaged_spec (s : State) (e : Nat) (p : Machine.Part) :
    getCtx (partStaged s e p) e = heldPart (getCtx s e) p ∧
    (∀ d, d ≠ e → getCtx (partStaged s e p) d = getCtx s d) ∧
    partStaged s e p = { s with ctxs := (partStaged s e p).ctxs, cready := (partStaged s e p).cready } :=
  ⟨getCtx_setCtx s e _, fun _ hd => getCtx_setCtx_ne s _ hd, rfl⟩

/-! ## The state table of R260 -/

/-- An idle context opens at the step of the contribution. -/
def openedCtx (x : Ctx) (c : Contrib) : Ctx :=
  if x.st = .idle then { x with st := .open, step := c.step, lo := c.step, hi := c.step } else x

/-- The state once the contribution's context is open. -/
def ctxOpened (s : State) (e : Nat) (c : Contrib) : State :=
  if (getCtx s e).st = .idle then setCtx s e (openedCtx (getCtx s e) c) else s

theorem ctxOpened_spec (s : State) (e : Nat) (c : Contrib) :
    getCtx (ctxOpened s e c) e = openedCtx (getCtx s e) c ∧ (∀ d, d ≠ e → getCtx (ctxOpened s e c) d = getCtx s d) ∧
    ctxOpened s e c = { s with ctxs := (ctxOpened s e c).ctxs } := by
  unfold ctxOpened
  split
  · exact ⟨getCtx_setCtx s e _, fun d hd => getCtx_setCtx_ne s _ hd, rfl⟩
  · next busy => exact ⟨(if_neg busy).symm, fun _ _ => rfl, rfl⟩

theorem ctxOpened_keeps (s : State) (e : Nat) (c : Contrib) : (getCtx (ctxOpened s e c) e).defn = (getCtx s e).defn ∧
    (getCtx (ctxOpened s e c) e).dead = (getCtx s e).dead := by
  rw [(ctxOpened_spec s e c).1, openedCtx]
  split <;> exact ⟨rfl, rfl⟩

/-- The context takes the contribution: it is idle, or open at its step with that part still missing. -/
def TakesPart (x : Ctx) (c : Contrib) (i : Nat) : Prop :=
  x.st = .idle ∨ (x.st = .open ∧ c.step = x.step ∧ isDup x c i = false)

theorem byState_takes {s : State} {e : Nat} {c : Contrib} {i : Nat} (hup : c.down = false) (h : TakesPart (getCtx s e) c i)
    (j : Nat) : byState s j e c i = takePart (ctxOpened s e c) j e c i := by
  rcases h with idle | ⟨isOpen, step, new⟩
  · simp [byState, ctxOpened, openedCtx, idle, hup]
  · simp [byState, ctxOpened, isOpen, step, new, hup]

section
variable {s : State} {e : Nat} {c : Contrib} {i : Nat}
variable (hl : (getCtx s e).dead = false) (hi : i ≠ cxNin (getCtx s e).defn)
include hl hi

theorem takePart_free (h : rowTaken (getCtx s e) c.chunk false = false) (j : Nat) :
    takePart s j e c i = partStaged s e (partOf c i) := by
  simp only [takePart, hl, hi, h, decide_false, Bool.false_eq_true, if_false]
  exact stagePart_up (p := partOf c i) hi

theorem takePart_taken (h : rowTaken (getCtx s e) c.chunk false = true)
    (hr : ovflRoom (bump s (at' pgCIR 0x11C) 1) = true) (j : Nat) :
    takePart s j e c i = setCtx (bump s (at' pgCIR 0x11C) 1) e
      { getCtx s e with ovfl := (getCtx s e).ovfl ++ [partOf c i] } := by
  simp only [takePart, hl, hi, h, hr, decide_false, Bool.false_eq_true, if_false, if_true]
  rfl

end

/-! ## What an up contribution leaves -/

section
variable {s : State} {c : Contrib} {j e i : Nat} (h : UpPasses s c j e i) (hc : c.core = none)
include h hc

theorem takeContrib_takes (ht : TakesPart (getCtx s e) c i) : takeContrib s c = takePart (ctxOpened s e c) j e c i :=
  (takeContrib_up h hc).trans (byState_takes h.up ht j)

/-- A context that opens stays live, and the part goes up still. -/
theorem UpPasses.kept_by_ctxOpened : (getCtx (ctxOpened s e c) e).dead = false ∧
    i ≠ cxNin (getCtx (ctxOpened s e c) e).defn := by
  obtain ⟨defn, dead⟩ := ctxOpened_keeps s e c
  rw [defn, dead]
  exact ⟨h.live, (h.input_lt hc).ne⟩

theorem takeContrib_stages (ht : TakesPart (getCtx s e) c i) (hf : rowTaken (openedCtx (getCtx s e) c) c.chunk false = false) :
    let t := takeContrib s c
    let y := heldPart (openedCtx (getCtx s e) c) (partOf c i)
    getCtx t e = y ∧ (∀ d, d ≠ e → getCtx t d = getCtx s d) ∧
    t.cready = s.cready ++ (if setFull y i c.chunk = true ∧ chunkReady y c.chunk = true then [(e, c.chunk)] else []) ∧
    t = { s with ctxs := t.ctxs, cready := t.cready } := by
  obtain ⟨live, up⟩ := h.kept_by_ctxOpened hc
  obtain ⟨openCtx, others, frame⟩ := ctxOpened_spec s e c
  obtain ⟨held, rest, kept⟩ := partStaged_spec (ctxOpened s e c) e (partOf c i)
  rw [takeContrib_takes h hc ht, takePart_free live up (by rwa [openCtx])]
  refine ⟨by rw [held, openCtx], fun d hd => (rest d hd).trans (others d hd), ?_, kept.trans (by rw [frame])⟩
  have ready : (ctxOpened s e c).cready = s.cready := by rw [frame]
  dsimp only [partStaged]
  rw [ready, openCtx]
  rfl

theorem takeContrib_waits (ht : TakesPart (getCtx s e) c i) (hf : rowTaken (openedCtx (getCtx s e) c) c.chunk false = true)
    (hr : ovflRoom (bump (ctxOpened s e c) (at' pgCIR 0x11C) 1) = true) :
    let t := takeContrib s c
    let x := openedCtx (getCtx s e) c
    getCtx t e = { x with ovfl := x.ovfl ++ [partOf c i] } ∧
    reg t (at' pgCIR 0x11C) = satAdd (reg s (at' pgCIR 0x11C)) 1 ∧
    (∀ d, d ≠ e → getCtx t d = getCtx s d) ∧ t = { s with ctxs := t.ctxs, regs := t.regs } := by
  obtain ⟨live, up⟩ := h.kept_by_ctxOpened hc
  obtain ⟨openCtx, others, frame⟩ := ctxOpened_spec s e c
  have regs : (ctxOpened s e c).regs = s.regs := by rw [frame]
  rw [takeContrib_takes h hc ht, takePart_taken live up (by rwa [openCtx]) hr, openCtx]
  refine ⟨getCtx_setCtx _ e _, ?_, fun d hd => (getCtx_setCtx_ne _ _ hd).trans (others d hd), ?_⟩
  · have count := reg_bump (ctxOpened s e c) (at' pgCIR 0x11C) 1
    rw [reg_congr regs] at count
    exact count
  · rw [frame]
    rfl

theorem takeContrib_dup (ho : (getCtx s e).st = .open) (hs : c.step = (getCtx s e).step)
    (hd : isDup (getCtx s e) c i = true) : takeContrib s c = bump s (at' pgCIR 0x118) 1 := by
  rw [takeContrib_up h hc]
  simp [byState, dupPart, ho, hs, hd, h.up, hc]

end

/-! ## A contribution of no resident job (R262) -/

theorem takeContrib_unknown {s : State} {c : Contrib} (h : residentAcc s c.acc = none)
    (hf : ∀ j < 4, (getJob s j).st = .faulted → (getJob s j).acc.toNat ≠ c.acc) :
    takeContrib s c = post (bump s (at' pgCIR 0x114) 1) pgCIR sevError 0x0B01 (BitVec.ofNat 12 c.acc)
      (d0Cir c.acc c.ctx c.chunk) c.step := by
  have unknown : residentAcc (bump s (at' pgCIR 0x114) 1) c.acc = none := h
  have others : ∀ j < 4, (getJob (bump s (at' pgCIR 0x114) 1) j).st = .faulted →
      (getJob (bump s (at' pgCIR 0x114) 1) j).acc.toNat ≠ c.acc := hf
  have noneFaulted : [0, 1, 2, 3].any (fun j => (getJob (bump s (at' pgCIR 0x114) 1) j).st == .faulted &&
      (getJob (bump s (at' pgCIR 0x114) 1) j).acc.toNat == c.acc) = false := by
    rw [List.any_eq_false]
    intro j hj
    have small : j < 4 := by simp at hj; omega
    simpa using others j small
  simp only [takeContrib, h, noCtx, unknown, noneFaulted, Bool.false_eq_true, if_false]

theorem takeContrib_unknown_spec {s : State} {c : Contrib} (h : residentAcc s c.acc = none)
    (hf : ∀ j < 4, (getJob s j).st = .faulted → (getJob s j).acc.toNat ≠ c.acc) :
    let t := takeContrib s c
    t = { s with regs := t.regs, ldg := t.ldg } ∧
    reg t (at' pgCIR 0x114) = satAdd (reg s (at' pgCIR 0x114)) 1 ∧
    Logged s t pgCIR 2 0x0B01 (BitVec.ofNat 12 c.acc) (d0Cir c.acc c.ctx c.chunk) c.step := by
  rw [takeContrib_unknown h hf]
  refine ⟨?_, ?_, post_logged (bump s (at' pgCIR 0x114) 1) pgCIR sevError _ _ _ _⟩
  · obtain ⟨ledger, regs, touched⟩ := post_touches (bump s (at' pgCIR 0x114) 1) pgCIR sevError 0x0B01
      (BitVec.ofNat 12 c.acc) (d0Cir c.acc c.ctx c.chunk) c.step
    rw [touched]
    rfl
  · exact (post_regs _ pgCIR sevError _ _ _ _ _ (by decide)).trans (reg_bump s _ 1)

/-! ## ROW_FREE_STAGE (R251) -/

theorem foldl_min_chunk {p : Machine.Part} {ps : List Machine.Part} {ch : Nat} (hmem : ∃ q ∈ p :: ps, q.chunk = ch)
    (hle : ∀ q ∈ p :: ps, ch ≤ q.chunk) : ps.foldl (fun a q => min a q.chunk) p.chunk = ch := by
  have least : ((p :: ps).map Machine.Part.chunk).min? = some ch :=
    List.min?_eq_some_iff.2 ⟨List.mem_map.2 hmem, by simpa using hle⟩
  rw [List.map_cons, List.min?_cons', List.foldl_map] at least
  exact Option.some.inj least

/-- Up parts staged one after another touch one context and the ready list. -/
theorem foldl_stagePart_up {e : Nat} (ps : List Machine.Part) {s : State}
    (h : ∀ p ∈ ps, p.input ≠ cxNin (getCtx s e).defn) :
    let t := ps.foldl (fun s p => stagePart s e p) s
    getCtx t e = ps.foldl heldPart (getCtx s e) ∧ (∀ d, d ≠ e → getCtx t d = getCtx s d) ∧
    t = { s with ctxs := t.ctxs, cready := t.cready } := by
  induction ps generalizing s with
  | nil => exact ⟨rfl, fun _ _ => rfl, rfl⟩
  | cons p ps ih =>
    obtain ⟨up, ups⟩ := List.forall_mem_cons.1 h
    obtain ⟨held, others, frame⟩ := partStaged_spec s e p
    have next := ih (s := partStaged s e p) (by simpa only [held, heldPart_defn] using ups)
    obtain ⟨all, rest, kept⟩ := next
    simp only [List.foldl_cons, stagePart_up up]
    exact ⟨all.trans (by rw [held]), fun d hd => (rest d hd).trans (others d hd), kept.trans (by rw [frame])⟩

/-- The parts that wait for a row. -/
def rowWaits (x : Ctx) (row : Nat) : List Machine.Part := x.ovfl.filter fun p => decide (rowOf x.defn p.chunk = row)

/-- Chunk `ch` is the lowest that waits for the row, only up parts of it wait, and the row holds no other part. -/
structure RowFrees (x : Ctx) (row ch : Nat) : Prop where
  owned  : x.owner ≠ 0
  kept   : x.st ≠ .released
  free   : ∀ p ∈ x.parts, rowOf x.defn p.chunk = row → p.chunk = ch ∧ p.input ≠ cxNin x.defn
  waits  : ∃ p ∈ x.ovfl, p.chunk = ch
  inRow  : rowOf x.defn ch = row
  lowest : ∀ p ∈ x.ovfl, rowOf x.defn p.chunk = row → ch ≤ p.chunk
  up     : ∀ p ∈ x.ovfl, p.chunk = ch → p.input < cxNin x.defn

namespace RowFrees
variable {x : Ctx} {row ch : Nat} (h : RowFrees x row ch)
include h

theorem exists_rowWaits : ∃ p ∈ rowWaits x row, p.chunk = ch := by
  obtain ⟨p, hp, hc⟩ := h.waits
  exact ⟨p, by simp [rowWaits, hp, hc, h.inRow], hc⟩

theorem le_of_mem_rowWaits {p : Machine.Part} (hp : p ∈ rowWaits x row) : ch ≤ p.chunk := by
  obtain ⟨waits, inRow⟩ := List.mem_filter.1 hp
  exact h.lowest p waits (of_decide_eq_true inRow)

theorem filter_rowWaits : (rowWaits x row).filter (fun p => decide (p.chunk = ch)) = x.ovfl.filter (fun p => p.chunk == ch) := by
  rw [rowWaits, List.filter_filter]
  refine List.filter_congr fun p _ => ?_
  by_cases hc : p.chunk = ch
  · simp [hc, h.inRow]
  · simp [hc]

/-- No staged part keeps the row from what waits. -/
theorem keepsRow_eq_false {p q : Machine.Part} (hp : p ∈ x.ovfl) (hc : p.chunk = ch) (hq : q ∈ x.parts) :
    keepsRow x ch (decide (p.input = cxNin x.defn)) q = false := by
  by_cases hr : rowOf x.defn q.chunk = rowOf x.defn ch
  · obtain ⟨same, isUp⟩ := h.free q hq (hr.trans h.inRow)
    simp [keepsRow, same, isUp, (h.up p hp hc).ne]
  · simp [keepsRow, hr]

end RowFrees

/-- The parts of a chunk that wait leave their overflow cells. -/
def chunkTaken (x : Ctx) (ch : Nat) : Ctx := { x with ovfl := x.ovfl.filter fun p => p.chunk != ch }

theorem chunkTaken_eq (x : Ctx) (ch : Nat) :
    chunkTaken x ch = { x with ovfl := x.ovfl.filter fun p => decide (p.chunk ≠ ch) } := by
  have others : (fun p : Machine.Part => p.chunk != ch) = fun p => decide (p.chunk ≠ ch) := by
    funext p
    by_cases hc : p.chunk = ch <;> simp [hc]
  rw [chunkTaken, others]

theorem exec_rowFreeStage_stages {e : Fin 256} {row ch : Nat} {s : State} (h : RowFrees (getCtx s e) row ch)
    (hq : tget 0 s.fab.qFlaws (0x100 + e) = 0) :
    exec (.rowFreeStage e row) s = .next (((getCtx s e).ovfl.filter (fun p => p.chunk == ch)).foldl
      (fun s p => stagePart s e p) (setCtx s e (chunkTaken (getCtx s e) ch))) := by
  have stays : ¬ ((getCtx s e).owner = 0 ∨ (getCtx s e).st = .released ∨
      ((getCtx s e).ovfl.filter (fun p => p.chunk == ch)).any (fun p => (getCtx s e).parts.any
        (keepsRow (getCtx s e) ch (decide (p.input = cxNin (getCtx s e).defn)))) = true) := by
    simp only [h.owned, h.kept, false_or, List.any_eq_true, List.mem_filter, beq_iff_eq, not_exists, not_and]
    rintro p ⟨hp, hc⟩ q hq
    simp [h.keepsRow_eq_false hp hc hq]
  have lowest := fun p => h.le_of_mem_rowWaits (p := p)
  have go := h.filter_rowWaits
  obtain ⟨q, hq', hc⟩ := h.exists_rowWaits
  obtain ⟨p, ps, here⟩ := List.exists_cons_of_ne_nil (List.ne_nil_of_mem hq')
  rw [here] at hq' lowest go
  change execRowFreeStage e row s = _
  unfold execRowFreeStage
  dsimp only
  rw [← rowWaits, here]
  simp only [foldl_min_chunk ⟨q, hq', hc⟩ lowest, go, if_neg stays, ← chunkTaken_eq]
  rw [staged_sound (by exact hq)]

/-! ## The obligation -/

/-- Settles O39: a contribution that passes the checks is staged in its row (`takeContrib_stages`), waits
(`takeContrib_waits`) or is a copy (`takeContrib_dup`); one of no resident job is dropped (`takeContrib_unknown_spec`); a
free row takes what waits for it (`exec_rowFreeStage_stages`, `foldl_stagePart_up`). -/
theorem contributionRows : Obligations.ContributionRows := by
  refine ⟨fun g vc p s hp hmt hh hq => ?reduce, fun e row ch s ho hr hf hw hrow hlow hup hq => ?rowFree⟩
  case reduce =>
    intro c u
    have run (hw : downWait s c = false) : exec (.reduce g vc) s = .next (takeContrib u c) :=
      exec_reduce_takes hp hmt hh hq hw
    refine ⟨fun running room sound => ?trace, ?parts⟩
    case trace =>
      have oneCell : byteCells (reduceRec s p).length = 1 := by rw [length_reduceRec]; rfl
      exact congrArg (fun t => t.fab.trace) (pushRec_trace (s := popIn s g.key vc) running (by rwa [oneCell]) sound)
    case parts =>
      obtain ⟨l, f, taken⟩ : ∃ l f, u = { s with links := l, fab := f } := reduceTaken_touches s g.key vc p
      clear_value u
      have passesU {j e i : Nat} (h : UpPasses s c j e i) : UpPasses u c j e i := h.congr (by rw [taken]) (by rw [taken])
      have stages {j e i : Nat} (h : UpPasses s c j e i) := takeContrib_stages (passesU h) rfl
      have waits {j e i : Nat} (h : UpPasses s c j e i) := takeContrib_waits (passesU h) rfl
      have dup {j e i : Nat} (h : UpPasses s c j e i) := takeContrib_dup (passesU h) rfl
      have unknown := takeContrib_unknown_spec (s := u) (c := c)
      subst taken
      refine ⟨fun j e i passes => ?_, fun free others => ⟨_, run (downWait_unknown free), unknown free others⟩⟩
      have known := run (downWait_up s passes.up)
      exact ⟨fun takes free => ⟨_, known, stages passes takes free⟩,
        fun takes full room => ⟨_, known, waits passes takes full room⟩,
        fun isOpen step held => ⟨_, known.trans (congrArg _ (dup passes isOpen step held)), rfl, reg_bump _ _ 1⟩⟩
  case rowFree =>
    have frees : RowFrees (getCtx s e) row ch := ⟨ho, hr, hf, hw, hrow, hlow, hup⟩
    obtain ⟨held, others, frame⟩ := foldl_stagePart_up (e := e) ((getCtx s e).ovfl.filter (fun p => p.chunk == ch))
      (s := setCtx s e (chunkTaken (getCtx s e) ch)) fun p hp => by
        obtain ⟨waits, hc⟩ := List.mem_filter.1 hp
        rw [getCtx_setCtx]
        exact (frees.up p waits (eq_of_beq hc)).ne
    rw [getCtx_setCtx] at held
    exact ⟨_, exec_rowFreeStage_stages frees hq, held, fun d hd => (others d hd).trans (getCtx_setCtx_ne s _ hd), frame⟩

end Sys2Proof
end

section
/-! PROOFS. A step on a waiting command, fuses that stay blown (R355), and interrupts with their status and enable registers
(R458): the obligations O1, O60 and O8. -/

namespace Sys2Proof

open Sys2Proof.Machine

/-- A step acts on the front command with the rest of the queue. -/
theorem step_command {c : Instr} {r : List Instr} {s : State} (h : s.pending = c :: r) :
    step s = exec c { s with pending := r } := by simp only [step, h]

/-- Settles O1. -/
theorem stepRunsFront : Obligations.StepRunsFront := fun _ _ _ h => step_command h

/-! ## Fuses (R355) -/

/-- Every blown fuse bit of `s` is blown in `t`. -/
def FusesKept (s t : State) : Prop :=
  ∀ k b, bit (tget 0 s.cus.fuses k) b = true → bit (tget 0 t.cus.fuses k) b = true

theorem fusesKept_of_eq {s t : State} (h : t.cus.fuses = s.cus.fuses) : FusesKept s t := fun k b hb => by rwa [h]

/-- A commit row leaves the fuses, or does to them what its effect does. -/
theorem commitRow_fuses (s : State) (op : Nat) (f : State → BitVec 2048 → State) :
    (commitRow s op f).cus.fuses = s.cus.fuses ∨ ∃ w, (commitRow s op f).cus.fuses = (f (cusDiscard s) w).cus.fuses := by
  have fusesEq {u v : State} (h : anchors u = anchors v) : u.cus.fuses = v.cus.fuses := ((anchors_eq_iff v u).1 h).2.2
  unfold commitRow
  split
  case h_1 => exact .inl rfl
  case h_2 r _ =>
    dsimp only
    repeat' split
    · exact .inl rfl
    · exact .inl (fusesEq (by simp))
    · exact .inr ⟨r.word, fusesEq (by simp)⟩
    · exact .inl (fusesEq (by simp))

/-- FUSE_WRITE sets bits of one row and clears none (R355). -/
theorem fusesKept_fuseWrite {s t : State} (h : exec .fuseWrite s = .next t) : FusesKept s t := by
  cases h
  intro k b hb
  obtain h | ⟨w, h⟩ := commitRow_fuses s 8 _
  · rwa [h]
  · rw [h]
    dsimp only
    rw [tget_tput]
    split
    · next hk =>
      subst hk
      rw [bit, BitVec.toNat_or, Nat.testBit_or]
      exact Bool.or_eq_true_iff.2 (.inl hb)
    · exact hb

/-- BUP_READY leaves custody. -/
theorem fusesKept_bupReady {s t : State} (h : exec .bupReady s = .next t) : FusesKept s t := by
  cases h
  refine fusesKept_of_eq ?_
  split <;> simp [bupPost]

/-- No command clears a fuse bit: but for FUSE_WRITE, all leave the fuses. -/
theorem fusesKept_exec {i : Instr} {s t : State} (h : exec i s = .next t) : FusesKept s t := by
  by_cases hf : i = .fuseWrite
  · subst hf
    exact fusesKept_fuseWrite h
  · by_cases hb : i = .bupReady
    · subst hb
      exact fusesKept_bupReady h
    · have hr : ResSteady s (exec i s) := resSteady_exec hb hf
      rw [h] at hr
      exact fusesKept_of_eq hr.2

theorem fusesKept_idleTick (s : State) : FusesKept s (idleTick s) := by
  refine fusesKept_of_eq ?_
  have worked : (bootTick (workDue s)).cus.fuses = s.cus.fuses := ((anchors_eq_iff s _).1 (by simp)).2.2
  unfold idleTick
  split
  · dsimp only
    split
    · exact ((anchors_eq_iff _ _).1 (anchors_cycleEnd _ _)).2.2.trans worked
    · exact worked
  · rfl

/-- Settles O60: an idle tick leaves the fuses (`fusesKept_idleTick`), FUSE_WRITE sets bits (`fusesKept_fuseWrite`), and
every other command leaves them (`fusesKept_exec`). -/
theorem fusesNeverClear : Obligations.FusesNeverClear := by
  intro s t k b h
  unfold step at h
  split at h
  case h_1 => cases h; exact fusesKept_idleTick s k b
  case h_2 c r _ => exact fusesKept_exec (s := { s with pending := r }) h k b

/-! ## Interrupts (R458) -/

theorem intEn_ne_intStat (p : Nat) : at' p 0x14 ≠ at' p 0x10 := by unfold at'; omega

/-- An interrupt signals its vector where the status bit becomes 1 while enabled. -/
theorem raiseInt_out (s : State) (p b : Nat) : (raiseInt s p b).out =
    (if !bit (reg s (at' p 0x10)) b && bit (reg s (at' p 0x14)) b then [Out.msix (vectorOf p b)] else []) ++ s.out := by
  unfold raiseInt
  dsimp only
  cases bit (reg s (at' p 0x10)) b <;> cases bit (reg s (at' p 0x14)) b <;> rfl

/-- The bits of `hw` in `l` are raised one after another: the status bits that become 1, and what they signal. -/
theorem foldl_raiseInt (p : Nat) (hw : W32) : ∀ (l : List Nat) (s : State), l.Nodup → (∀ b ∈ l, b < 32) →
    let t := l.foldl (fun s b => if bit hw b then raiseInt s p b else s) s
    (∀ i < 32, bit (reg t (at' p 0x10)) i = (bit (reg s (at' p 0x10)) i || (decide (i ∈ l) && bit hw i))) ∧
    t.out = ((l.filter (fun b => bit hw b && !bit (reg s (at' p 0x10)) b && bit (reg s (at' p 0x14)) b)).map
      (fun b => Out.msix (vectorOf p b))).reverse ++ s.out ∧
    RegsKept s t [at' p 0x10] ∧ t = { s with regs := t.regs, out := t.out } := by
  intro l
  induction l with
  | nil => exact fun s _ _ => ⟨by simp, rfl, fun _ _ => rfl, rfl⟩
  | cons a l ih =>
    intro s hn hl
    obtain ⟨ha, hn⟩ := List.nodup_cons.1 hn
    have hl' : ∀ b ∈ l, b < 32 := fun b hb => hl b (List.mem_cons_of_mem _ hb)
    dsimp only [List.foldl_cons]
    cases hb : bit hw a
    case false =>
      obtain ⟨st, out, kept, frame⟩ := ih s hn hl'
      refine ⟨fun i hi => (st i hi).trans ?_, out.trans (by simp [hb]), kept, frame⟩
      by_cases hia : i = a
      · simp [hia, ha, hb]
      · simp [hia]
    case true =>
      obtain ⟨raised, kept1⟩ := raiseInt_spec s p a
      obtain ⟨r, o, frame1⟩ := raiseInt_touches s p a
      obtain ⟨st, out, kept, frame⟩ := ih (raiseInt s p a) hn hl'
      have en : reg (raiseInt s p a) (at' p 0x14) = reg s (at' p 0x14) :=
        kept1 _ (by simpa using intEn_ne_intStat p)
      have same : l.filter (fun b => bit hw b && !bit (reg (raiseInt s p a) (at' p 0x10)) b && bit (reg s (at' p 0x14)) b) =
          l.filter (fun b => bit hw b && !bit (reg s (at' p 0x10)) b && bit (reg s (at' p 0x14)) b) := by
        refine List.filter_congr fun b hb' => ?_
        rw [raised b (hl' b hb'), decide_eq_false (fun e : b = a => ha (e ▸ hb')), Bool.or_false]
      refine ⟨fun i hi => ?_, ?_, ?_, ?_⟩
      · rw [if_pos rfl, st i hi, raised i hi]
        by_cases hia : i = a
        · simp [hia, hb]
        · simp [hia]
      · rw [if_pos rfl, out, en, same, raiseInt_out]
        cases hs : bit (reg s (at' p 0x10)) a <;> cases he : bit (reg s (at' p 0x14)) a <;> simp [hb, hs, he]
      · rw [if_pos rfl]
        exact fun x hx => (kept x hx).trans (kept1 x hx)
      · rw [if_pos rfl, frame, frame1]

/-- What a fold signals that only emits. -/
theorem foldl_emit {α : Type} (c : α → Bool) (f : α → Out) (l : List α) (s : State) :
    l.foldl (fun s b => if c b then emit s (f b) else s) s = { s with out := ((l.filter c).map f).reverse ++ s.out } := by
  induction l generalizing s with
  | nil => rfl
  | cons a l ih =>
    rw [List.foldl_cons, ih]
    cases h : c a <;> simp [h, emit]

/-- A status bit once a 1 was written to it and the hardware sets it or not (R457). -/
theorem bit_w1c (x v hw : W32) {i : Nat} (hi : i < 32) :
    bit (x &&& ~~~(v &&& ~~~hw)) i = (bit x i && !(bit v i && !bit hw i)) := by
  simp only [bit_eq_getLsbD, BitVec.getLsbD_and, BitVec.getLsbD_not, hi, decide_true, Bool.true_and]

/-- INT_STAT_W1C (R457, R458). -/
theorem exec_intStatW1c_spec {s : State} {p : Nat} (h : Served s p) (v hw : W32) :
    ∃ t, exec (.intStatW1c p v hw) s = .next t ∧
      (∀ b < 8, bit (reg t (at' p 0x10)) b = (bit (hw &&& intBits p) b || (bit (reg s (at' p 0x10)) b && !bit v b))) ∧
      t.out = (((List.range 8).filter (fun b => bit (hw &&& intBits p) b && !bit (reg s (at' p 0x10)) b
        && bit (reg s (at' p 0x14)) b)).map (fun b => Out.msix (vectorOf p b))).reverse ++ s.out ∧
      RegsKept s t [at' p 0x10] ∧ t = { s with regs := t.regs, out := t.out } := by
  let w := hw &&& intBits p
  let u := setReg s (at' p 0x10) (reg s (at' p 0x10) &&& ~~~(v &&& ~~~w))
  have cleared {i : Nat} (hi : i < 8) : bit (reg u (at' p 0x10)) i = (bit (reg s (at' p 0x10)) i && !(bit v i && !bit w i)) :=
    (congrArg (bit · i) (reg_setReg s _ _)).trans (bit_w1c _ _ _ (by omega))
  have en : reg u (at' p 0x14) = reg s (at' p 0x14) := reg_setReg_ne s _ (intEn_ne_intStat p)
  obtain ⟨st, out, kept, frame⟩ := foldl_raiseInt p w (List.range 8) u List.nodup_range (by simp; omega)
  refine ⟨_, congrArg Host.Outcome.next (hostWrite_served h _ _), fun b hb => ?_, ?_, ?_, frame.trans rfl⟩
  · rw [st b (by omega), cleared hb, decide_eq_true (List.mem_range.2 hb)]
    change _ = (bit w b || _)
    cases bit w b <;> cases bit v b <;> cases bit (reg s (at' p 0x10)) b <;> rfl
  · refine out.trans (congrArg (fun x => (List.map _ x).reverse ++ s.out) (List.filter_congr fun b hb => ?_))
    rw [en, cleared (List.mem_range.1 hb)]
    change _ = (bit w b && _ && _)
    cases bit w b <;> cases bit v b <;> simp
  · exact fun x hx => (kept x hx).trans (regsKept_setReg s _ _ x hx)

/-- INT_EN_WRITE (R458). -/
theorem exec_intEnWrite_spec {s : State} {p : Nat} (h : Served s p) (v : W32) :
    ∃ t, exec (.intEnWrite p v) s = .next t ∧ reg t (at' p 0x14) = v &&& intBits p ∧ RegsKept s t [at' p 0x14] ∧
      t.out = (((List.range 8).filter (fun b => bit (v &&& intBits p) b && !bit (reg s (at' p 0x14)) b
        && bit (reg s (at' p 0x10)) b)).map (fun b => Out.msix (vectorOf p b))).reverse ++ s.out ∧
      t = { s with regs := t.regs, out := t.out } := by
  refine ⟨_, congrArg Host.Outcome.next ((hostWrite_served h _ _).trans (foldl_emit _ _ _ _)), ?_, ?_, rfl, rfl⟩
  · exact reg_setReg s _ _
  · exact regsKept_setReg s _ _

/-- Settles O8: the event by what `raiseInt` does, the two writes by the folds over the bits that change
(`foldl_raiseInt`, `foldl_emit`). -/
theorem interruptRegisters : Obligations.InterruptRegisters := by
  refine ⟨fun p b s hb => ⟨fun set => ?_, fun clear => ?_⟩, fun p v hw s h => exec_intStatW1c_spec h v hw,
    fun p v s h => exec_intEnWrite_spec h v⟩
  · simp [raiseInt, set]
  · obtain ⟨st, kept⟩ := raiseInt_spec s p b
    exact ⟨by simp [st b hb], by rw [raiseInt_out, clear]; rfl, kept⟩

end Sys2Proof
end

section
/-! PROOFS. The topology page (R333 to R348), where a write of the epoch brings step 10 of R376 about, so that O51's frame
fails; management (R432 to R439): the obligation O57. -/

namespace Sys2Proof

open Sys2Proof.Machine

/-! ## The epoch's write (R339, R376) -/

/-- A module that is LOCAL, with BAR0 on, every lane group DOWN, and step 9 of bring-up as its last (R376). -/
def localModule : State := { State.reset with
  bup := { State.reset.bup with railsOn := true, bar0 := true, isLocal := true, phase := 9 } }

theorem localModule_served : Served localModule pgTOP := ⟨by decide, by decide, by decide⟩

theorem localModule_allDown : allGrps localModule catOpen = true := by decide

/-- Refutes O51: on a module in LOCAL the write of the epoch also moves the bring-up from step 9 to step 10 (R376), and
the statement's frame for it names the topology, the registers, the Ledger and what leaves the module alone. -/
theorem not_topologyWrites : ¬ Obligations.TopologyWrites := by
  rintro ⟨-, -, epoch⟩
  obtain ⟨writes, -⟩ := epoch 1 localModule localModule_served
  obtain ⟨t, run, -, -, -, frame⟩ := writes localModule_allDown
  have moved : t.bup.phase = 10 := by
    have ran : exec (.topEpochWrite 1) localModule = .next t := run
    have acts : exec (.topEpochWrite 1) localModule = .next (topCheckD { localModule with
        top := { localModule.top with epoch := 1 }, bup := { localModule.bup with phase := 10 } } 0) :=
      congrArg Host.Outcome.next ((hostWrite_served localModule_served _ _).trans (if_pos localModule_allDown))
    cases acts.symm.trans ran
    rfl
  have stays : t.bup.phase = 9 := by rw [frame]; rfl
  exact absurd (moved.symm.trans stays) (by decide)

/-! ## MCTP and vendor commands (R432, R434) -/

/-- A vendor command that runs at once leaves the busy flag as it was. -/
theorem vendorNow_free {s : State} (ha : mgtAddressed s = true) (hp : pageLive s pgCUS = true) (hb : s.mgt.busy = false)
    (cmd : Nat) (f : State → State) : vendorNow s cmd f = f s := by
  have same : { s.mgt with busy := false } = s.mgt := by rw [← hb]
  have free : vendorNow s cmd f = f { s with mgt := { s.mgt with busy := false } } := by
    simp [vendorNow, vendor, ha, hp, hb]
  rw [free, same]

/-- While a command runs a vendor command is answered with code 3 (R434). -/
theorem vendorNow_busy {s : State} (ha : mgtAddressed s = true) (hb : s.mgt.busy = true) (cmd : Nat)
    (f : State → State) : vendorNow s cmd f = { s with out := .mctp cmd 3 [] :: s.out } := by
  simp [vendorNow, vendor, ha, hb, emit]

/-- LDG_READ hands out entries from the BMC's pointer (R439). -/
theorem exec_ldgRead_free {s : State} (ha : mgtAddressed s = true) (hp : pageLive s pgCUS = true)
    (hb : s.mgt.busy = false) {n : Nat} (h1 : 1 ≤ n) (h16 : n ≤ 16) :
    let k := min n (s.ldg.wr - s.ldg.bmc)
    exec (.ldgRead n) s = .next { s with
      ldg := { s.ldg with bmc := s.ldg.bmc + k, bmcLost := 0 }
      out := .mctp 5 0 (bytesOf 4 s.ldg.bmcLost ++ (List.range k).flatMap
        (fun i => entryBytes (ldgSlot s ((s.ldg.bmc + i) % 8192)))) :: s.out } :=
  congrArg Host.Outcome.next ((vendorNow_free ha hp hb 5 _).trans (if_neg (by omega)))

/-! ## PLDM (R433) -/

/-- What a PLDM request is answered with: a code, data, and the event receiver afterwards. -/
structure PldmAnswers (s : State) (ty : Nat) (p : PldmReq) (code : Nat) (data : List Byte) (recv : Byte) : Prop where
  run : exec (.pldmRequest ty p) s = .next
    { s with out := .mctp 1 code data :: s.out, mgt := { s.mgt with recv := recv } }

theorem exec_pldmRequest (ty : Nat) (p : PldmReq) (s : State) : exec (.pldmRequest ty p) s = execPldmRequest ty p s := rfl

theorem pldm_otherType {s : State} (ha : mgtAddressed s = true) {ty : Nat} (h0 : ty ≠ 0) (h2 : ty ≠ 2) (p : PldmReq) :
    PldmAnswers s ty p 0x20 [] s.mgt.recv :=
  ⟨by simp [exec_pldmRequest, execPldmRequest, ha, h0, h2, emit, pldmInvalidType]⟩

theorem pldm_setThreshold {s : State} (ha : mgtAddressed s = true) {ty : Nat} (ht : ty = 0 ∨ ty = 2) (n : Nat) :
    PldmAnswers s ty (.setThreshold n) (if ty = 2 then 1 else 5) [] s.mgt.recv := by
  refine ⟨?_⟩
  rcases ht with rfl | rfl <;> simp [exec_pldmRequest, execPldmRequest, ha, emit, pldmError, pldmUnsupported]

theorem pldm_getSensor {s : State} (ha : mgtAddressed s = true) {n : Nat} (h1 : 1 ≤ n) (h27 : n ≤ 27) :
    PldmAnswers s 2 (.getSensor n) 0 (bytesOf 4 (tget 0 s.mgt.vals n % 2 ^ 32).toNat ++
      [BitVec.ofNat 8 (tget 0 s.mgt.sst n)]) s.mgt.recv := by
  have known : ¬ (n = 0 ∨ 27 < n) := by omega
  exact ⟨by simp [exec_pldmRequest, execPldmRequest, ha, known, emit]⟩

theorem pldm_getThresholds {s : State} (ha : mgtAddressed s = true) {n : Nat} (h1 : 1 ≤ n) (h27 : n ≤ 27) :
    PldmAnswers s 2 (.getThresholds n) 0 (thresholdBytes n) s.mgt.recv := by
  have known : ¬ (n = 0 ∨ 27 < n) := by omega
  exact ⟨by simp [exec_pldmRequest, execPldmRequest, ha, known, emit]⟩

theorem pldm_setEventReceiver {s : State} (ha : mgtAddressed s = true) (e : Byte) :
    PldmAnswers s 2 (.setEventReceiver e) 0 [] e :=
  ⟨by simp [exec_pldmRequest, execPldmRequest, ha, emit]⟩

/-- Every PLDM request is answered, and but for the event receiver management stays. -/
theorem pldm_answers {s : State} (ha : mgtAddressed s = true) (ty : Nat) (p : PldmReq) :
    ∃ code data recv, PldmAnswers s ty p code data recv := by
  by_cases ht : ty ≠ 0 ∧ ty ≠ 2
  · exact ⟨_, _, _, pldm_otherType ha ht.1 ht.2 p⟩
  · have known : exec (.pldmRequest ty p) s = execPldmRequest ty p s := rfl
    simp only [execPldmRequest, ha, ht, Bool.not_true, Bool.false_eq_true, if_false] at known
    cases p with
    | base cmd | other cmd | setThreshold id => exact ⟨_, _, _, ⟨known⟩⟩
    | getSensor id | getThresholds id =>
      dsimp only at known
      split at known
      · exact ⟨_, _, _, ⟨known⟩⟩
      · split at known <;> exact ⟨_, _, _, ⟨known⟩⟩
    | setEventReceiver e =>
      dsimp only at known
      split at known <;> exact ⟨_, _, _, ⟨known⟩⟩

theorem PldmAnswers.unique {s : State} {ty : Nat} {p : PldmReq} {c c' : Nat} {d d' : List Byte} {r r' : Byte}
    (h : PldmAnswers s ty p c d r) (h' : PldmAnswers s ty p c' d' r') : c = c' ∧ d = d' ∧ r = r' := by
  have same := Host.Outcome.next.inj (h.run.symm.trans h'.run)
  have out := congrArg State.out same
  have recv := congrArg (fun t : State => t.mgt.recv) same
  simp only [List.cons.injEq, Out.mctp.injEq, true_and, and_true] at out
  exact ⟨out.1, out.2, recv⟩

/-! ## Sensors (R433, R435) -/

/-- An event touches management's counts, the messages and one counter only. -/
theorem sendEvent_touches (s : State) (k v : Nat) :
    ∃ r o m, sendEvent s k v = { s with regs := r, out := o, mgt := m } ∧ m.vals = s.mgt.vals ∧ m.sst = s.mgt.sst ∧
      RegsKept s (sendEvent s k v) [at' pgMGT 0x108] := by
  unfold sendEvent
  dsimp only
  split
  · exact ⟨_, _, _, rfl, rfl, rfl, fun _ _ => rfl⟩
  · generalize (if decide (s.mgt.evAt + 1000 * msTicks ≤ s.clk.dst) = true then 0 else s.mgt.evCount) = n
    split
    · exact ⟨_, _, _, rfl, rfl, rfl, regsKept_bump _ _ _⟩
    · exact ⟨_, _, _, rfl, rfl, rfl, fun _ _ => rfl⟩

/-- A sensor's value rests on the power page, the temperatures and the lane groups. -/
theorem sensorNow_congr {s t : State} (hr : RegsKept s t [at' pgMGT 0x108]) (hp : t.pwr = s.pwr) (ho : t.opt = s.opt)
    (hl : t.links = s.links) (n : Nat) : sensorNow t n = sensorNow s n := by
  have power (o : Nat) : reg t (at' pgPWR o) = reg s (at' pgPWR o) :=
    hr _ (by simp only [List.mem_singleton, at', pgPWR, pgMGT]; omega)
  have link (g : Nat) : getLink t g = getLink s g := by unfold getLink; rw [hl]
  simp only [sensorNow, power, link, hp, ho]

/-- One sensor is taken. -/
theorem updateSensor_spec (s : State) (n : Nat) :
    ∃ r o m, updateSensor s n = { s with regs := r, out := o, mgt := m } ∧
      m.vals = tput 0 s.mgt.vals n (sensorNow s n) ∧ m.sst = tput 0 s.mgt.sst n (sensorState n (sensorNow s n)) ∧
      RegsKept s (updateSensor s n) [at' pgMGT 0x108] := by
  unfold updateSensor
  dsimp only
  split
  · exact ⟨_, _, _, rfl, rfl, rfl, fun _ _ => rfl⟩
  · obtain ⟨r, o, m, frame, vals, sst, kept⟩ := sendEvent_touches { s with mgt := { s.mgt with
      vals := tput 0 s.mgt.vals n (sensorNow s n), sst := tput 0 s.mgt.sst n (sensorState n (sensorNow s n)) } }
      n (sensorState n (sensorNow s n))
    exact ⟨r, o, m, frame, vals, sst, kept⟩

/-- Sensors taken one after another: each reads as it stood before the first. -/
theorem foldl_updateSensor (l : List Nat) : ∀ s : State, ∃ r o m,
    l.foldl updateSensor s = { s with regs := r, out := o, mgt := m } ∧
      (∀ n, tget 0 m.vals n = if n ∈ l then sensorNow s n else tget 0 s.mgt.vals n) ∧
      (∀ n, tget 0 m.sst n = if n ∈ l then sensorState n (sensorNow s n) else tget 0 s.mgt.sst n) := by
  induction l with
  | nil => exact fun s => ⟨_, _, _, rfl, by simp, by simp⟩
  | cons a l ih =>
    intro s
    obtain ⟨r1, o1, m1, first, vals1, sst1, kept⟩ := updateSensor_spec s a
    obtain ⟨r, o, m, rest, vals, sst⟩ := ih (updateSensor s a)
    have now (n : Nat) : sensorNow (updateSensor s a) n = sensorNow s n :=
      sensorNow_congr kept (by rw [first]) (by rw [first]) (by rw [first]) n
    have mgt : (updateSensor s a).mgt = m1 := by rw [first]
    refine ⟨r, o, m, rest.trans (by rw [first]), fun n => ?_, fun n => ?_⟩
    · rw [vals, now, mgt, vals1, tget_tput]
      by_cases h : n = a
      · simp [h]
      · simp [h]
    · rw [sst, now, mgt, sst1, tget_tput]
      by_cases h : n = a
      · simp [h]
      · simp [h]

/-! ## Telemetry (R436) -/

/-- A telemetry queue that has a cell and holds no error takes the record (R294, R296). -/
theorem pushRec_telemetry {s : State} {r : List Byte} (hr : clsRoom s 6 (byteCells r.length) = true)
    (hq : tget 0 s.fab.qFlaws 0x200 = 0) :
    pushRec s 6 r = { s with fab := { s.fab with telem := s.fab.telem ++ [r], qFlaws := tput 0 s.fab.qFlaws 0x200 0 } } := by
  have check : itemCheck s 0x200 6 (fun s => { s with fab := { s.fab with telem := s.fab.telem.drop 1 } }) =
      { s with fab := { s.fab with qFlaws := tput 0 s.fab.qFlaws 0x200 0 } } := by
    simp only [itemCheck, hq, if_true]
  have room : clsRoom { s with fab := { s.fab with qFlaws := tput 0 s.fab.qFlaws 0x200 0 } } 6 (byteCells r.length) = true := hr
  unfold pushRec
  dsimp only
  simp only [if_true, check, room, show ((6 : Nat) = 7) = False by simp, false_and, if_false]

/-- The record of TELEMETRY_RECORD: Datestamp, number, the sensors, a reserved word (R436). -/
def telemetryBytes (s : State) : List Byte :=
  bytesOf 8 s.clk.dst ++ bytesOf 8 s.mgt.telSeq ++
    ((List.range 27).map (· + 1)).flatMap (fun n => bytesOf 4 (tget 0 s.mgt.vals n % 2 ^ 32).toNat) ++ bytesOf 4 0

theorem length_telemetryBytes (s : State) : (telemetryBytes s).length = 128 := by
  simp only [telemetryBytes, List.length_append, List.length_flatMap, length_bytesOf]
  rfl

theorem exec_telemetryRecord {s : State} (hm : pageLive s pgMGT = true) (hq : pageLive s pgQP = true) :
    exec .telemetryRecord s = .next { pushRec s 6 (telemetryBytes s) with
      mgt := { (pushRec s 6 (telemetryBytes s)).mgt with telSeq := (pushRec s 6 (telemetryBytes s)).mgt.telSeq + 1 } } :=
  congrArg Host.Outcome.next (if_neg (by simp [hm, hq]))

/-! ## The obligation -/

/-- Settles O57: commands by whether a vendor command runs (`vendorNow_free`, `vendorNow_busy`), PLDM by the answer to each
request, the sensors by `foldl_updateSensor`, telemetry by `pushRec_telemetry`. -/
theorem managementRows : Obligations.ManagementRows := by
  refine ⟨fun e s h => congrArg Host.Outcome.next (if_pos h), fun c s h => congrArg Host.Outcome.next (if_pos h),
    fun ty p s => ⟨fun h => ?silent, fun h => ?answers⟩, fun ty s h h0 h1 h2 => ?discard,
    fun s ha hp => ⟨fun hb => ⟨?cusBusy, fun n => ?ldgBusy⟩, fun hb => ?cusRead,
      fun hb n h1 h16 => exec_ldgRead_free ha hp hb h1 h16⟩, fun s h => ?sensors, fun s hm hq => ?telemetry⟩
  case silent => exact congrArg Host.Outcome.next (if_pos (by simp [h]))
  case answers =>
    obtain ⟨code, data, recv, a⟩ := pldm_answers h ty p
    have same {r : Byte} (hr : recv = r) (h : r = s.mgt.recv) : ({ s.mgt with recv := recv } : Mgmt) = s.mgt := by
      rw [hr, h]
    refine ⟨_, code, data, a.run, rfl, rfl, fun h0 h2 => ?_, fun n hp => ?_, fun n hp h2 h1 h27 => ?_,
      fun n hp h2 h1 h27 => ?_, fun e hp h2 => ?_⟩
    · obtain ⟨hc, -, hr⟩ := a.unique (pldm_otherType h h0 h2 p)
      exact ⟨by rw [hc]; decide, same hr rfl⟩
    · subst hp
      by_cases ht : ty = 0 ∨ ty = 2
      · obtain ⟨hc, -, hr⟩ := a.unique (pldm_setThreshold h ht n)
        exact ⟨by rw [hc]; split <;> decide, same hr rfl⟩
      · obtain ⟨hc, -, hr⟩ := a.unique (pldm_otherType h (by omega) (by omega) _)
        exact ⟨by rw [hc]; decide, same hr rfl⟩
    · subst hp h2
      obtain ⟨hc, hd, -⟩ := a.unique (pldm_getSensor h h1 h27)
      exact ⟨hc, hd⟩
    · subst hp h2
      obtain ⟨hc, hd, hr⟩ := a.unique (pldm_getThresholds h h1 h27)
      exact ⟨hc, hd, same hr rfl⟩
    · subst hp h2
      obtain ⟨hc, -, hr⟩ := a.unique (pldm_setEventReceiver h e)
      exact ⟨hc, hr⟩
  case discard =>
    exact ⟨_, congrArg Host.Outcome.next (if_pos ⟨h, h0, h1, h2⟩), reg_bump _ _ 1, regsKept_bump _ _ _, rfl⟩
  case cusBusy => exact congrArg Host.Outcome.next (vendorNow_busy ha hb 4 _)
  case ldgBusy => exact congrArg Host.Outcome.next (vendorNow_busy ha hb 5 _)
  case cusRead => exact congrArg Host.Outcome.next (vendorNow_free ha hp hb 4 _)
  case sensors =>
    obtain ⟨r, o, m, frame, vals, sst⟩ := foldl_updateSensor ((List.range 27).map (· + 1)) s
    refine ⟨_, congrArg Host.Outcome.next ((if_pos h).trans frame), fun n h1 h27 => ?_, rfl⟩
    have listed : n ∈ (List.range 27).map (· + 1) :=
      List.mem_map.2 ⟨n - 1, List.mem_range.2 (by omega), Nat.sub_add_cancel h1⟩
    exact ⟨(vals n).trans (if_pos listed), (sst n).trans (if_pos listed)⟩
  case telemetry =>
    obtain ⟨f, pushed⟩ := pushRec_touches s 6 (telemetryBytes s)
    refine ⟨_, exec_telemetryRecord hm hq, by rw [pushed], by rw [pushed], fun sound room => ?_⟩
    have oneCell : byteCells (telemetryBytes s).length = 1 := by rw [length_telemetryBytes]; rfl
    rw [pushRec_telemetry (by rwa [oneCell]) sound]
    rfl

end Sys2Proof
end

section
/-! PROOFS. The Ledger's commit (R437, R438), SYNC_IN (R441 to R444, R449), configuration requests (R377) and debug access
(R45, R370): the obligation O58. -/

namespace Sys2Proof

open Sys2Proof.Machine

/-! ## The Ledger (R437, R438) -/

/-- The lower of a source number, if there is one, and an entry's. -/
def lowerSrc (a : Option Nat) (e : Entry) : Option Nat :=
  match a with
  | none => some e.src
  | some x => some (min x e.src)

theorem foldl_lowerSrc {m : Nat} (l : List Entry) : ∀ o : Option Nat, (∀ x ∈ l, m ≤ x.src) → (∀ y, o = some y → m ≤ y) →
    (o = some m ∨ ∃ x ∈ l, x.src = m) → l.foldl lowerSrc o = some m := by
  induction l with
  | nil => exact fun o _ _ h => h.resolve_right (by simp)
  | cons a l ih =>
    intro o hl ho h
    obtain ⟨ha, hl⟩ := List.forall_mem_cons.1 hl
    refine ih _ hl (fun y hy => ?_) ?_
    · cases o with
      | none => cases hy; exact ha
      | some z => cases hy; exact le_min (ho z rfl) ha
    · rcases h with rfl | ⟨x, hx, hm⟩
      · exact .inl (congrArg some (Nat.min_eq_left ha))
      · rcases List.mem_cons.1 hx with rfl | hx
        · left
          cases o with
          | none => exact congrArg some hm
          | some z => exact congrArg some ((Nat.min_eq_right (hm ▸ ho z rfl)).trans hm)
        · exact .inr ⟨x, hx, hm⟩

/-- The lowest source's oldest entry is the next to be committed (R437). -/
theorem ldgNext_append {e : Entry} {pre post : List Entry} (hpre : ∀ x ∈ pre, e.src < x.src)
    (hpost : ∀ x ∈ post, e.src ≤ x.src) : ldgNext (pre ++ e :: post) = some (pre.length, e) := by
  have lowest : (pre ++ e :: post).foldl lowerSrc none = some e.src :=
    foldl_lowerSrc _ none (List.forall_mem_append.2 ⟨fun x hx => (hpre x hx).le, List.forall_mem_cons.2 ⟨le_rfl, hpost⟩⟩)
      (by simp) (.inr ⟨e, by simp, rfl⟩)
  have found : findIdx? (fun x : Entry => decide (x.src = e.src)) (pre ++ e :: post) 0 = some (0 + pre.length, e) :=
    findIdx?_append (fun x hx => decide_eq_false (hpre x hx).ne') (by simp) post 0
  change (match (pre ++ e :: post).foldl lowerSrc none with | none => none | some x => findIdx? _ _ 0) = _
  rw [lowest]
  exact found.trans (by rw [Nat.zero_add])

theorem itemCheck_sound {s : State} {n : Nat} (h : tget 0 s.fab.qFlaws n = 0) (c : Nat) (drop : State → State) :
    itemCheck s n c drop = { s with fab := { s.fab with qFlaws := tput 0 s.fab.qFlaws n 0 } } := by
  simp only [itemCheck, h, if_true]

/-- The readers once the Ledger has taken an entry: one 8,192 behind moves on by one, and the host's loss is counted. -/
theorem ldgPush_spec (s : State) :
    let t := ldgPush s
    t.ldg = { s.ldg with rd := t.ldg.rd, bmc := t.ldg.bmc, bmcLost := t.ldg.bmcLost } ∧
    t.ldg.rd = (if 8192 < s.ldg.wr - s.ldg.rd then s.ldg.rd + 1 else s.ldg.rd) ∧
    t.ldg.bmc = (if 8192 < s.ldg.wr - s.ldg.bmc then s.ldg.bmc + 1 else s.ldg.bmc) ∧
    reg t (at' pgLDG 0x108) = satAdd (reg s (at' pgLDG 0x108)) (if 8192 < s.ldg.wr - s.ldg.rd then 1 else 0) ∧
    ∃ l r f, t = { s with ldg := l, regs := r, fab := f } := by
  unfold ldgPush
  dsimp only
  split <;> split
  · exact ⟨rfl, rfl, rfl, reg_bump s _ 1, _, _, _, rfl⟩
  · exact ⟨rfl, rfl, rfl, (satAdd_zero _).symm, _, _, _, rfl⟩
  · exact ⟨rfl, rfl, rfl, reg_bump s _ 1, _, _, _, rfl⟩
  · exact ⟨rfl, rfl, rfl, (satAdd_zero _).symm, _, _, _, rfl⟩

/-- The commit's notices (R435, R440): an entry from Error on raises the page's interrupt and sends an event. -/
def notices (s : State) (e : Entry) : State :=
  if e.sev < sevError then s else sendEvent (raiseInt s pgLDG 0) 0x100 e.code

theorem notices_spec (s : State) (e : Entry) :
    let t := notices s e
    reg t (at' pgLDG 0x108) = reg s (at' pgLDG 0x108) ∧ (2 ≤ e.sev → bit (reg t (at' pgLDG 0x10)) 0 = true) ∧
    ∃ r o m, t = { s with regs := r, out := o, mgt := m } := by
  unfold notices
  split
  case isTrue h => exact ⟨rfl, fun h2 => absurd h (by simp only [sevError]; omega), _, _, _, rfl⟩
  case isFalse h =>
    obtain ⟨raised, others⟩ := raiseInt_spec s pgLDG 0
    obtain ⟨r, o, m, frame, -, -, kept⟩ := sendEvent_touches (raiseInt s pgLDG 0) 0x100 e.code
    obtain ⟨r', o', frame'⟩ := raiseInt_touches s pgLDG 0
    refine ⟨?_, fun _ => ?_, ?_⟩
    · exact (kept _ (by decide)).trans (others _ (by decide))
    · rw [kept _ (by decide), raised 0 (by decide)]
      simp
    · exact ⟨r, o, m, by rw [frame, frame']⟩

/-- The state once the next entry `e`, at place `i` of those that wait, has its number and its slot. -/
def entered (s : State) (i : Nat) (e : Entry) : State :=
  { s with
    fab := { s.fab with qFlaws := tput 0 s.fab.qFlaws 0x202 0 }
    ldg := { s.ldg with
      wait := removeAt s.ldg.wait i, loss := s.ldg.loss.filter (· != e.src)
      slots := tput Entry.zero s.ldg.slots (s.ldg.wr % 8192)
        { e with loss := s.ldg.loss.contains e.src, seq := BitVec.ofNat 32 s.ldg.wr }
      wr := s.ldg.wr + 1, cycle := some (s.clk.dst / 4) } }

theorem exec_ledgerCommit_next {s : State} {i : Nat} {e : Entry} (hs : ldgSpent s = false)
    (hn : ldgNext s.ldg.wait = some (i, e)) (hq : tget 0 s.fab.qFlaws 0x202 = 0) :
    exec .ledgerCommit s = .next (notices (ldgPush (entered s i e)) e) := by
  change execLedgerCommit s = _
  simp only [execLedgerCommit, hs, hn, itemCheck_sound hq, Bool.false_eq_true, if_false]
  rfl

/-- A commit takes the lowest source's oldest entry (R437, R438). -/
theorem exec_ledgerCommit_spec {s : State} {e : Entry} {pre post : List Entry} (hw : s.ldg.wait = pre ++ e :: post)
    (hpre : ∀ x ∈ pre, e.src < x.src) (hpost : ∀ x ∈ post, e.src ≤ x.src) (hs : ldgSpent s = false)
    (hq : tget 0 s.fab.qFlaws 0x202 = 0) :
    let l := s.ldg
    ∃ t, exec .ledgerCommit s = .next t ∧ t.ldg.cycle = some (s.clk.dst / 4) ∧ t.ldg.wait = pre ++ post ∧
      t.ldg.wr = l.wr + 1 ∧
      ldgSlot t (l.wr % 8192) = { e with loss := l.loss.contains e.src, seq := BitVec.ofNat 32 l.wr } ∧
      (∀ k, k ≠ l.wr % 8192 → ldgSlot t k = ldgSlot s k) ∧ e.src ∉ t.ldg.loss ∧
      t.ldg.rd = (if 8192 < l.wr + 1 - l.rd then l.rd + 1 else l.rd) ∧
      t.ldg.bmc = (if 8192 < l.wr + 1 - l.bmc then l.bmc + 1 else l.bmc) ∧
      reg t (at' pgLDG 0x108) = satAdd (reg s (at' pgLDG 0x108)) (if 8192 < l.wr + 1 - l.rd then 1 else 0) ∧
      (2 ≤ e.sev → bit (reg t (at' pgLDG 0x10)) 0 = true) ∧
      t = { s with ldg := t.ldg, regs := t.regs, fab := t.fab, out := t.out, mgt := t.mgt } := by
  have next : ldgNext s.ldg.wait = some (pre.length, e) := by rw [hw]; exact ldgNext_append hpre hpost
  obtain ⟨ledger, rd, bmc, lost, l, r, f, frame⟩ := ldgPush_spec (entered s pre.length e)
  obtain ⟨lost', raised, r', o', m', frame'⟩ := notices_spec (ldgPush (entered s pre.length e)) e
  have same : (notices (ldgPush (entered s pre.length e)) e).ldg = (ldgPush (entered s pre.length e)).ldg := by rw [frame']
  have slots (k : Nat) : ldgSlot (notices (ldgPush (entered s pre.length e)) e) k = ldgSlot (entered s pre.length e) k := by
    unfold ldgSlot
    rw [same, ledger]
  refine ⟨_, exec_ledgerCommit_next hs next hq, by rw [same, ledger]; rfl, ?_, by rw [same, ledger]; rfl,
    (slots _).trans (tget_tput_self _ _ _ _), fun k hk => (slots k).trans (tget_tput_ne _ _ _ _ hk), ?_,
    (congrArg Ledger.rd same).trans rd, (congrArg Ledger.bmc same).trans bmc, lost'.trans lost, raised,
    by rw [frame', frame]; rfl⟩
  · rw [same, ledger]
    exact (congrArg (removeAt · pre.length) hw).trans (removeAt_append pre e post)
  · rw [same, ledger]
    simp [entered]

/-- LDG_RD is set back from the writer by at most the entries held (R439). -/
theorem exec_ldgRdWrite_spec {s : State} (h : Served s pgLDG) {k : Nat} (h1 : k ≤ 8192) (h2 : k ≤ s.ldg.wr) :
    exec (.ldgRdWrite (BitVec.ofNat 32 (s.ldg.wr - k))) s = .next { s with ldg := { s.ldg with rd := s.ldg.wr - k } } := by
  have back : (s.ldg.wr + 2 ^ 32 - (BitVec.ofNat 32 (s.ldg.wr - k)).toNat) % 2 ^ 32 = k := by
    rw [BitVec.toNat_ofNat]
    omega
  refine congrArg Host.Outcome.next ((hostWrite_served h _ _).trans ?_)
  dsimp only
  rw [back]
  exact if_neg (by omega)

/-! ## SYNC_IN (R441 to R444) -/

/-- The reference's suppressed trigger is counted where triggers are enabled (R444). -/
theorem suppress_spec (s : State) :
    reg (suppress s) (at' pgSYNC 0x110) = (if bit (reg s (at' pgSYNC 0x100)) 1 = true
      then satAdd (reg s (at' pgSYNC 0x110)) 1 else reg s (at' pgSYNC 0x110)) ∧
    suppress s = { s with regs := (suppress s).regs } := by
  unfold suppress syncCtl
  split
  · exact ⟨reg_bump _ _ 1, rfl⟩
  · exact ⟨rfl, rfl⟩

/-- The reference is lost: EXTREF clears with its entry (R443). -/
theorem refLost_spec (s : State) :
    Logged s (refLost s) pgSYNC 1 0x1203 0 0 0 ∧ reg (refLost s) (at' pgSYNC 0x110) = reg s (at' pgSYNC 0x110) ∧
    refLost s = { s with
      clk := { s.clk with extref := false }, sync := { s.sync with valid := 0 }
      ldg := (refLost s).ldg, regs := (refLost s).regs } := by
  let u : State := { s with clk := { s.clk with extref := false }, sync := { s.sync with valid := 0 } }
  have logged : Logged s (refLost s) pgSYNC 1 0x1203 0 0 0 := post_logged u pgSYNC 1 0x1203 0 0 0
  have kept := post_regs u pgSYNC 1 0x1203 0 0 0 (at' pgSYNC 0x110) (by decide)
  obtain ⟨l, r, touched⟩ := post_touches u pgSYNC 1 0x1203 0 0 0
  have frame : refLost s = { u with ldg := l, regs := r } := touched
  exact ⟨logged, kept, by rw [frame]⟩

/-- Steering touches the clock alone, and steps the Datestamp before READY only (R28). -/
theorem steer_spec (s : State) (e : Int) :
    let t := steer s e
    t.clk.extref = s.clk.extref ∧ t.clk.pull = s.clk.pull ∧ (s.bup.ready = true → t.clk.dst = s.clk.dst) ∧
    ∃ c, t = { s with clk := c } := by
  unfold steer
  split
  · next h => exact ⟨rfl, rfl, fun hr => absurd hr (by simpa using h.1), _, rfl⟩
  · exact ⟨rfl, rfl, fun _ => rfl, _, rfl⟩

/-- The pull follows the reference within 50 ppm (R443). -/
theorem refSteer_spec (s : State) (gap : Nat) :
    let t := refSteer s gap
    t.clk.extref = s.clk.extref ∧ t.clk.pull = max (-50000) (min 50000 (s.clk.pull - ((gap : Int) - 6000000000) / 6)) ∧
    (s.bup.ready = true → t.clk.dst = s.clk.dst) ∧ ∃ c, t = { s with clk := c } := steer_spec _ _

/-- A second is valid (R442): its gap, its edges and the change of the gap lie within their bounds. -/
def validSecond (s : State) (x g b : Nat) : Prop :=
  let gap := s.clk.dst - x
  5999850000 ≤ gap ∧ gap ≤ 6000150000 ∧ 9999950 ≤ b ∧ b ≤ 10000050 ∧ gap ≤ g + 600 ∧ g ≤ gap + 600

/-- The state in which a second was found valid, its gap and count taken. -/
def secondTaken (s : State) (gap : Nat) : State :=
  { s with
    sync := { s.sync with pps := some s.clk.dst, gap := some gap, valid := s.sync.valid + 1 }
    clk := if 3 ≤ s.sync.valid + 1 then { s.clk with extref := true } else s.clk }

theorem exec_ppsEdge_valid {s : State} {x g b : Nat} (ha : refActive s = true) (hp : s.sync.pps = some x)
    (hg : s.sync.gap = some g) (h : validSecond s x g b) :
    let u := secondTaken (suppress s) (s.clk.dst - x)
    exec (.ppsEdge b) s = .next (if u.clk.extref = true then refSteer u (s.clk.dst - x) else u) := by
  obtain ⟨h1, h2, h3, h4, h5, h6⟩ := h
  obtain ⟨-, frame⟩ := suppress_spec s
  have sync : (suppress s).sync = s.sync := by rw [frame]
  have clk : (suppress s).clk = s.clk := by rw [frame]
  change execPpsEdge b s = _
  simp only [execPpsEdge, ha, sync, clk, hp, hg, secTicks, msTicks, Bool.not_true, Bool.false_eq_true, if_false]
  rw [if_neg (by simp; omega)]
  simp only [secondTaken, sync, clk]
  by_cases hv : 3 ≤ s.sync.valid + 1 <;> simp only [hv, if_true, if_false]

theorem exec_ppsEdge_invalid {s : State} {x g b : Nat} (ha : refActive s = true) (hp : s.sync.pps = some x)
    (hg : s.sync.gap = some g) (h : ¬ validSecond s x g b) :
    exec (.ppsEdge b) s = .next (refLost { suppress s with
      sync := { s.sync with pps := some s.clk.dst, gap := some (s.clk.dst - x) } }) := by
  obtain ⟨-, frame⟩ := suppress_spec s
  have sync : (suppress s).sync = s.sync := by rw [frame]
  have clk : (suppress s).clk = s.clk := by rw [frame]
  change execPpsEdge b s = _
  simp only [execPpsEdge, ha, sync, clk, hp, hg, secTicks, msTicks, Bool.not_true, Bool.false_eq_true, if_false]
  exact congrArg Host.Outcome.next (if_pos (by simp [validSecond] at h ⊢; omega))

theorem exec_ppsEdge_first {s : State} (b : Nat) (ha : refActive s = true) (hp : s.sync.pps = none) :
    exec (.ppsEdge b) s = .next { suppress s with
      sync := { s.sync with pps := some s.clk.dst, gap := none, valid := 0 } } := by
  obtain ⟨-, frame⟩ := suppress_spec s
  have sync : (suppress s).sync = s.sync := by rw [frame]
  have clk : (suppress s).clk = s.clk := by rw [frame]
  change execPpsEdge b s = _
  simp only [execPpsEdge, ha, sync, clk, hp, Bool.not_true, Bool.false_eq_true, if_false]

/-- A trigger came less than 1 us ago (R444), as the model reads it. -/
theorem recent_iff_soon (s : State) : Recent s.sync.trig s.clk.dst 6000 ↔
    (match s.sync.trig with | some t => decide (s.clk.dst < t + usTicks) | none => false) = true := by
  unfold Recent usTicks
  cases s.sync.trig <;> simp

/-- A trigger that is enabled and no reference: one within 1 us of the last is only counted. -/
theorem exec_syncTrig_soon {s : State} (hl : pageLive s pgSYNC = true) (hr : refActive s = false)
    (he : bit (reg s (at' pgSYNC 0x100)) 1 = true) (h : Recent s.sync.trig s.clk.dst 6000) :
    exec .syncTrig s = .next (bump s (at' pgSYNC 0x110) 1) := by
  have enabled : bit (syncCtl s) 1 = true := he
  change execSyncTrig s = _
  unfold execSyncTrig
  rw [if_neg (by simp [hl]), if_neg (by simp [hr]), if_neg (by simp [enabled])]
  exact congrArg Host.Outcome.next (if_pos ((recent_iff_soon s).1 h))

/-- Any other trigger latches the Datestamp, may freeze the trace queue, and is logged (R444). -/
theorem exec_syncTrig_fresh {s : State} (hl : pageLive s pgSYNC = true) (hr : refActive s = false)
    (he : bit (reg s (at' pgSYNC 0x100)) 1 = true) (h : ¬ Recent s.sync.trig s.clk.dst 6000) :
    ∃ t, exec .syncTrig s = .next t ∧ t.sync = { s.sync with
        trig := some s.clk.dst, dst := s.clk.dst, fine := s.clk.fine
        frozen := s.sync.frozen || bit (reg s (at' pgSYNC 0x100)) 2 } ∧
      Logged s t pgSYNC 1 0x1204 0 0 0 ∧ bit (reg t (at' pgSYNC 0x10)) 0 = true ∧
      t = { s with sync := t.sync, ldg := t.ldg, regs := t.regs, out := t.out } := by
  let u : State := { s with sync := { s.sync with
    trig := some s.clk.dst, dst := s.clk.dst, fine := s.clk.fine, frozen := s.sync.frozen || bit (syncCtl s) 2 } }
  have run : exec .syncTrig s = .next (raiseInt (post u pgSYNC sevWarning 0x1204 0 0 0) pgSYNC 0) := by
    have enabled : bit (syncCtl s) 1 = true := he
    change execSyncTrig s = _
    unfold execSyncTrig
    rw [if_neg (by simp [hl]), if_neg (by simp [hr]), if_neg (by simp [enabled])]
    exact congrArg Host.Outcome.next (if_neg fun soon => h ((recent_iff_soon s).2 soon))
  obtain ⟨l, r, posted⟩ := post_touches u pgSYNC sevWarning 0x1204 0 0 0
  obtain ⟨r', o, raised⟩ := raiseInt_touches (post u pgSYNC sevWarning 0x1204 0 0 0) pgSYNC 0
  have logged : Logged s (post u pgSYNC sevWarning 0x1204 0 0 0) pgSYNC 1 0x1204 0 0 0 := post_logged u pgSYNC 1 0x1204 0 0 0
  refine ⟨_, run, by rw [raised, posted]; rfl, ?_, ?_, by rw [raised, posted]⟩
  · rw [Logged, (raiseInt_frame _ pgSYNC 0).2.2.2.2.2.2.1]
    exact logged
  · rw [(raiseInt_spec _ pgSYNC 0).1 0 (by decide)]
    simp

/-! ## Debug access (R45, R370) -/

/-- A collision is counted on its cluster's page once (R45). -/
theorem cluCollide_counts {s : State} {cl : Clu} (x : Collision) {i : Nat} (h : residentOn s cl.q.val = some i) :
    reg (cluCollide s cl x) (at' (pgCLU cl.q.val cl.c.val) 0x104) =
      satAdd (reg s (at' (pgCLU cl.q.val cl.c.val) 0x104)) 1 := by
  let p := pgCLU cl.q.val cl.c.val
  let s1 := bump s (at' p 0x104) 1
  have counted : FaultsOnly s s1 := faultsOnly_bump s 1 (notImgAddr_of_page _ (pgSCH_lt_pgCLU _ _))
  have still : residentOn s1 cl.q.val = some i := (residentOn_congr (s := s) (t := s1) rfl counted.addr _).trans h
  have slot : i < 4 := by
    have : i ∈ [0, 1, 2, 3] := List.mem_of_find?_eq_some h
    simp at this
    omega
  have big : 0x1010 ≤ p := by simp only [p, pgCLU, pgQD]; omega
  obtain ⟨acc, d0, run⟩ : ∃ acc d0, cluCollide s cl x =
      jobFault (post (bump s1 (at' pgSCH (0x118 + 0x40 * i)) 1) p sevFault 0x0204 acc d0 0) i := by
    unfold cluCollide collide
    simp only [if_neg (show ¬(0x104 = 0) by decide)]
    rw [show jobOn (bump s (at' (pgCLU cl.q.val cl.c.val) 0x104) 1) cl.q.val = some i from jobOn_of_residentOn still]
    exact ⟨_, _, rfl⟩
  rw [run]
  refine (regsKept_jobFault _ i _ ?_).trans ((post_regs _ p sevFault 0x0204 _ _ _ _ ?_).trans
    ((reg_bump_ne _ 1 ?_).trans (reg_bump s _ 1)))
  all_goals simp [at', pgQP, pgSCH, pgLDG, sevFault]; omega

theorem debugShelf_meets {s : State} {c : CoreId} {a p : Nat} (hd : s.cus.debug = true)
    (ho : c.cl.c.val < offered s c.cl.q.val) (hm : debugMeets s (shelfAddr c a) = some p) (f : State → State) :
    debugShelf s c a f = cluCollide s c.cl { hi := p, lo := 6 } := by
  simp only [debugShelf, hd, hm, Bool.not_true, Bool.false_eq_true, false_or, if_neg (Nat.not_le.2 ho)]

theorem debugShelf_free {s : State} {c : CoreId} {a : Nat} (hd : s.cus.debug = true)
    (ho : c.cl.c.val < offered s c.cl.q.val) (hm : debugMeets s (shelfAddr c a) = none) (f : State → State) :
    debugShelf s c a f = f s := by
  simp only [debugShelf, hd, hm, Bool.not_true, Bool.false_eq_true, false_or, if_neg (Nat.not_le.2 ho)]

/-- Either access of a debug port, to a shelf byte that exists, does what `debugShelf` does. -/
theorem exec_debugAccess_shelf {c : CoreId} {a : Nat} (ha : a < 1048576) (b : Byte) (s : State) :
    exec (.debugAccess (.shelfRead c a)) s = .next (debugShelf s c a (fun s =>
      let r := readCheck s noJob [shelfAddr c a]
      if r.2 then emit r.1 (.dbg (rdByte r.1 (shelfAddr c a))) else r.1)) ∧
    exec (.debugAccess (.shelfWrite c a b)) s =
      .next (debugShelf s c a (fun s => store s noJob [(shelfAddr c a, b)])) :=
  ⟨if_neg (by omega), if_neg (by omega)⟩

/-! ## The obligation -/

/-- The reference steers where EXTREF is 1. -/
def steered (u : State) (gap : Nat) : State := if u.clk.extref = true then refSteer u gap else u

theorem steered_spec (u : State) (gap : Nat) :
    let t := steered u gap
    t.clk.extref = u.clk.extref ∧
    (t.clk.extref = true → t.clk.pull = max (-50000) (min 50000 (u.clk.pull - ((gap : Int) - 6000000000) / 6))) ∧
    (u.bup.ready = true → t.clk.dst = u.clk.dst) ∧ ∃ c, t = { u with clk := c } := by
  unfold steered
  split
  · obtain ⟨ext, pull, dst, frame⟩ := refSteer_spec u gap
    exact ⟨ext, fun _ => pull, dst, frame⟩
  · next h => exact ⟨rfl, fun hx => absurd hx h, fun _ => rfl, _, rfl⟩

/-- A valid second (R442, R443). -/
theorem exec_ppsEdge_good {s : State} {x g b : Nat} (ha : refActive s = true) (hp : s.sync.pps = some x)
    (hg : s.sync.gap = some g) (h : validSecond s x g b) :
    let gap := s.clk.dst - x
    ∃ t, exec (.ppsEdge b) s = .next t ∧ reg t (at' pgSYNC 0x110) = reg (suppress s) (at' pgSYNC 0x110) ∧
      t.sync = { s.sync with pps := some s.clk.dst, gap := some gap, valid := s.sync.valid + 1 } ∧
      t.clk.extref = (s.clk.extref || decide (2 ≤ s.sync.valid)) ∧
      (t.clk.extref = true → t.clk.pull = max (-50000) (min 50000 (s.clk.pull - ((gap : Int) - 6000000000) / 6))) ∧
      (s.bup.ready = true → t.clk.dst = s.clk.dst) ∧ t = { s with regs := t.regs, sync := t.sync, clk := t.clk } := by
  obtain ⟨-, supp⟩ := suppress_spec s
  have base : secondTaken (suppress s) (s.clk.dst - x) = { secondTaken s (s.clk.dst - x) with regs := (suppress s).regs } := by
    rw [supp]; rfl
  obtain ⟨ext, pull, dst, c, frame⟩ := steered_spec (secondTaken (suppress s) (s.clk.dst - x)) (s.clk.dst - x)
  have clock : (secondTaken (suppress s) (s.clk.dst - x)).clk.extref = (s.clk.extref || decide (2 ≤ s.sync.valid)) ∧
      (secondTaken (suppress s) (s.clk.dst - x)).clk.pull = s.clk.pull ∧
      (secondTaken (suppress s) (s.clk.dst - x)).clk.dst = s.clk.dst := by
    rw [base]
    dsimp only [secondTaken]
    by_cases hv : 3 ≤ s.sync.valid + 1
    · exact ⟨by simp [hv, show 2 ≤ s.sync.valid by omega], by rw [if_pos hv], by rw [if_pos hv]⟩
    · exact ⟨by simp [hv, show ¬ 2 ≤ s.sync.valid by omega], by rw [if_neg hv], by rw [if_neg hv]⟩
  obtain ⟨ext', pull', dst'⟩ := clock
  have ready : (secondTaken (suppress s) (s.clk.dst - x)).bup = s.bup := by rw [base]; rfl
  refine ⟨_, exec_ppsEdge_valid ha hp hg h, reg_congr (by change (steered _ _).regs = _; rw [frame, base]) _,
    by change (steered _ _).sync = _; rw [frame, base]; rfl, ext.trans ext', fun hx => (pull hx).trans (by rw [pull']),
    fun hr => (dst (by rw [ready]; exact hr)).trans dst', ?_⟩
  change steered _ _ = { s with regs := (steered _ _).regs, sync := (steered _ _).sync, clk := (steered _ _).clk }
  rw [frame, base]
  rfl

/-- A second that is not valid clears EXTREF with its entry (R443). -/
theorem exec_ppsEdge_bad {s : State} {x g b : Nat} (ha : refActive s = true) (hp : s.sync.pps = some x)
    (hg : s.sync.gap = some g) (h : ¬ validSecond s x g b) :
    ∃ t, exec (.ppsEdge b) s = .next t ∧ reg t (at' pgSYNC 0x110) = reg (suppress s) (at' pgSYNC 0x110) ∧
      t.sync = { s.sync with pps := some s.clk.dst, gap := some (s.clk.dst - x), valid := 0 } ∧
      t.clk = { s.clk with extref := false } ∧ Logged s t pgSYNC 1 0x1203 0 0 0 ∧
      t = { s with regs := t.regs, sync := t.sync, clk := t.clk, ldg := t.ldg } := by
  obtain ⟨-, supp⟩ := suppress_spec s
  obtain ⟨logged, kept, frame⟩ := refLost_spec { suppress s with
    sync := { s.sync with pps := some s.clk.dst, gap := some (s.clk.dst - x) } }
  refine ⟨_, exec_ppsEdge_invalid ha hp hg h, kept, by rw [frame], by rw [frame, supp], ?_, by rw [frame, supp]⟩
  rw [supp] at logged ⊢
  exact logged

/-- Settles O58: the commit by `ldgNext_append`, `ldgPush_spec` and `notices_spec`, seconds by whether they are valid,
debug access by whether it meets the grid (`cluCollide_faulted`, `cluCollide_counts`). -/
theorem ledgerAndSync : Obligations.LedgerAndSync := by
  refine ⟨fun e pre post s hw hpre hpost => ⟨fun h => congrArg Host.Outcome.next (if_pos h),
      exec_ledgerCommit_spec hw hpre hpost⟩, fun k s h h1 h2 => exec_ldgRdWrite_spec h h1 h2, fun b s ha => ?seconds,
    fun s hl hr he => ⟨fun fresh => ?trigger, fun soon => ?again⟩, fun s h => ?read,
    fun s hp hr h2 => congrArg Host.Outcome.next (if_pos ⟨hp, hr, h2⟩), fun c a b s => ⟨rfl, fun n => rfl,
      fun ha => ⟨if_pos ha, if_pos ha⟩, fun ha hd => ?closed, fun p i ha hd ho hm hr => ?meets,
      fun ha hd ho hm hf => ?free⟩⟩
  case seconds =>
    obtain ⟨counted, supp⟩ := suppress_spec s
    refine ⟨fun x g hp hg => ⟨fun good => ?_, fun bad => ?_⟩, fun hp => ?_, fun x hp late => ?_⟩
    · obtain ⟨t, run, same, rest⟩ := exec_ppsEdge_good ha hp hg good
      exact ⟨t, run, same.trans counted, rest⟩
    · obtain ⟨t, run, same, rest⟩ := exec_ppsEdge_bad ha hp hg bad
      exact ⟨t, run, same.trans counted, rest⟩
    · refine ⟨_, exec_ppsEdge_first b ha hp, counted, rfl, ?_⟩
      rw [supp]
    · obtain ⟨logged, -, frame⟩ := refLost_spec s
      refine ⟨{ refLost s with sync := { (refLost s).sync with pps := none, gap := none } }, ?_, by rw [frame],
        by rw [frame], logged, by rw [frame]⟩
      change execSyncRefLost s = _
      simp only [execSyncRefLost, hp, ha, late, and_self, if_true]
  case trigger => exact exec_syncTrig_fresh hl hr he fresh
  case again => exact ⟨_, exec_syncTrig_soon hl hr he soon, reg_bump s _ 1, regsKept_bump _ _ _, rfl⟩
  case read =>
    obtain ⟨h0, h1, h2⟩ := h
    change execSyncTrigDstLoRead s = _
    simp only [execSyncTrigDstLoRead, hostRead, h0, h1, h2, Bool.not_true, Bool.false_eq_true, if_false, if_true]
    rfl
  case closed =>
    have shut (f : State → State) : debugShelf s c a f = s := if_pos (.inl (by simp [hd]))
    obtain ⟨read, write⟩ := exec_debugAccess_shelf (c := c) ha b s
    exact ⟨read.trans (by rw [shut]), write.trans (by rw [shut])⟩
  case meets =>
    obtain ⟨read, write⟩ := exec_debugAccess_shelf (c := c) ha b s
    have both : ∀ e ∈ [DebugOp.shelfRead c a, .shelfWrite c a b],
        exec (.debugAccess e) s = .next (cluCollide s c.cl { hi := p, lo := 6 }) := by
      simp only [List.mem_cons, List.not_mem_nil, or_false]
      rintro e (rfl | rfl)
      · rw [read, debugShelf_meets hd ho hm]
      · rw [write, debugShelf_meets hd ho hm]
    obtain ⟨mem, -, -⟩ := cluCollide_frame s c.cl { hi := p, lo := 6 }
    exact fun e he => ⟨_, both e he, cluCollide_faulted _ (.inr hr), mem, cluCollide_counts _ hr⟩
  case free =>
    obtain ⟨read, write⟩ := exec_debugAccess_shelf (c := c) ha b s
    refine ⟨read.trans ?_, _, write.trans (by rw [debugShelf_free hd ho hm, store_flawless hf]), ?_, fun x hx => ?_, rfl⟩
    · rw [debugShelf_free hd ho hm, readCheck_flawless hf]
      rfl
    · simp [rdByte_wrCells]
    · exact rdByte_wrCells_ne s _ x (by simpa using hx.symm)

end Sys2Proof
end

section
/-! PROOFS. The registers of router and queue pool (R293 to R300): the obligation O48. -/

namespace Sys2Proof

open Sys2Proof.Machine

theorem fld_lt {n : Nat} (w : BitVec n) (hi lo : Nat) : fld w hi lo < 2 ^ (hi + 1 - lo) := Nat.mod_lt _ (Nat.two_pow_pos _)

/-! ## Table words and the tombstone life (R294, R299) -/

/-- A table word of an edition that is not in use is written (R293). -/
theorem exec_rtrTblWordWrite_free {s : State} (h : Served s pgRTR) (w : Fin 6) (v : W32)
    (free : ¬ ((getJob s (fld (reg s (at' pgRTR 0x200)) 1 0)).st = .running ∧
      edActive s (fld (reg s (at' pgRTR 0x200)) 1 0) = fld (reg s (at' pgRTR 0x200)) 2 2)) :
    exec (.rtrTblWordWrite w v) s = .next { s with fab := { s.fab with
      tbl := tput 0 s.fab.tbl (12 * fld (reg s (at' pgRTR 0x200)) 1 0 + 6 * fld (reg s (at' pgRTR 0x200)) 2 2 + w.val)
        (if w.val = 4 then v &&& 0x3F else if w.val = 5 then v &&& 0xFFFFFF else v) } } :=
  congrArg Host.Outcome.next ((hostWrite_served h _ _).trans (if_neg free))

/-- A write that is ignored and counted (R423). -/
theorem badWrite_spec (s : State) (p o : Nat) :
    reg (badWrite s p o) (at' pgHST 0x104) = satAdd (reg s (at' pgHST 0x104)) 1 ∧
    RegsKept s (badWrite s p o) [at' pgHST 0x104, at' pgLDG 0x10C] := by
  have counted := regsKept_bump s (at' pgHST 0x104) 1
  obtain ⟨-, e⟩ | ⟨-, e⟩ := badAcc_cases s 0 (at' p o)
  · refine ⟨(congrArg (reg · _) e).trans (reg_bump s _ 1), ?_⟩
    change RegsKept s (badAcc s 0 (at' p o)) _
    rw [e]
    exact fun x hx => counted x fun hm => hx (List.mem_cons.2 (.inl (List.mem_singleton.1 hm)))
  · have posted := post_regs (bump s (at' pgHST 0x104) 1) pgHST sevWarning 0x1201 0
      (BitVec.ofNat 32 (0 % 8 * 2 ^ 29 + at' p o % 2 ^ 29)) 0
    change reg (badAcc s 0 (at' p o)) _ = _ ∧ RegsKept s (badAcc s 0 (at' p o)) _
    rw [e]
    refine ⟨(posted _ (by decide)).trans (reg_bump s _ 1), fun x hx => ?_⟩
    obtain ⟨h1, h2⟩ : x ≠ at' pgHST 0x104 ∧ x ≠ at' pgLDG 0x10C := by simpa using hx
    exact (posted x (by simpa [sevWarning] using h2)).trans (counted x (by simpa using h1))

/-! ## FLUSH (R300) -/

/-- Cells that FLUSH frees are counted. -/
theorem flushed_reg (s : State) (n : Nat) :
    reg (flushed s n) (at' pgQP 0x130) = satAdd (reg s (at' pgQP 0x130)) n := reg_bump s _ n

theorem exec_flush_start {s : State} (h : Served s pgQP) {v : W32} (hb : bit v 31 = true) :
    exec (.flush v) s = .next (flushQueue (setReg s (at' pgQP 0x114) (v &&& 0xFFF)) (fld v 11 0)) :=
  congrArg Host.Outcome.next ((hostWrite_served h _ _).trans (if_pos hb))

theorem exec_flush_idle {s : State} (h : Served s pgQP) {v : W32} (hb : bit v 31 = false) :
    exec (.flush v) s = .next (setReg s (at' pgQP 0x114) (v &&& 0xFFF)) :=
  congrArg Host.Outcome.next ((hostWrite_served h _ _).trans (if_neg (by simp [hb])))

section
variable {n : Nat} (s : State)

theorem flushQueue_ingress (h1 : 0x20 ≤ n) (h2 : n < 0x80) : flushQueue s n =
    (let l := getLink s ((n - 0x20) / 4)
     let l' := { l with ingress := tput [] l.ingress (n % 4) [], inAt := tput [] l.inAt (n % 4) [] }
     flushed (setLink s ((n - 0x20) / 4) l') (ingressCells l (n % 4) - ingressCells l' (n % 4))) := if_pos ⟨h1, h2⟩

theorem flushQueue_injection (h1 : 0x80 ≤ n) (h2 : n < 0x98) : flushQueue s n =
    flushed (setLink s (n - 0x80) { getLink s (n - 0x80) with inj := [], late := [] }) (injCells (getLink s (n - 0x80))) := by
  unfold flushQueue
  rw [if_neg (by omega), if_pos ⟨h1, h2⟩]

theorem flushQueue_arrival (h1 : 0xA0 ≤ n) (h2 : n < 0xA4) : ∃ k, flushQueue s n = flushed { s with fab := { s.fab with
    arrive := s.fab.arrive.filter (fun a => a.q.val != n - 0xA0)
    msgs := s.fab.msgs.filter (fun m => !(m.q.val == n - 0xA0 && m.tomb.isNone)) } } k := by
  unfold flushQueue
  rw [if_neg (by omega), if_neg (by omega), if_pos ⟨h1, h2⟩]
  exact ⟨_, rfl⟩

theorem flushQueue_host (h1 : 0xB0 ≤ n) (h2 : n < 0xB4) : ∃ k, flushQueue s n =
    flushed { s with bar2 := s.bar2.filter (fun b => b.q.val != n - 0xB0) } k := by
  unfold flushQueue
  rw [if_neg (by omega), if_neg (by omega), if_neg (by omega), if_pos ⟨h1, h2⟩]
  exact ⟨_, rfl⟩

theorem flushQueue_circulation (h1 : 0x100 ≤ n) (h2 : n < 0x200) : ∃ k, flushQueue s n =
    flushed { setCtx s (n - 0x100) { getCtx s (n - 0x100) with
        parts := [], ovfl := [], dead := decide ((getCtx s (n - 0x100)).owner ≠ 0) } with
      cready := s.cready.filter (fun r => r.1 != n - 0x100) } k := by
  unfold flushQueue
  rw [if_neg (by omega), if_neg (by omega), if_neg (by omega), if_neg (by omega), if_pos ⟨h1, h2⟩]
  exact ⟨_, rfl⟩

end

/-- FLUSH of a data queue, an arrival queue, a host queue, a circulation queue, and of the three item queues. -/
theorem exec_flush_spec {s : State} (h : Served s pgQP) (v : W32) (hb : bit v 31 = true) :
    let n := fld v 11 0
    let freed := at' pgQP 0x130
    (0x80 ≤ n → n < 0x98 → ∃ t, exec (.flush v) s = .next t ∧
      getLink t (n - 0x80) = { getLink s (n - 0x80) with inj := [], late := [] } ∧
      reg t freed = satAdd (reg s freed) (injCells (getLink s (n - 0x80))) ∧ t = { s with regs := t.regs, links := t.links }) ∧
    (0x20 ≤ n → n < 0x80 → ∃ t, exec (.flush v) s = .next t ∧
      (let l := getLink s ((n - 0x20) / 4)
       let l' := { l with ingress := tput [] l.ingress (n % 4) [], inAt := tput [] l.inAt (n % 4) [] }
       getLink t ((n - 0x20) / 4) = l' ∧
        reg t freed = satAdd (reg s freed) (ingressCells l (n % 4) - ingressCells l' (n % 4))) ∧
      t = { s with regs := t.regs, links := t.links }) ∧
    (0xB0 ≤ n → n < 0xB4 → ∃ t, exec (.flush v) s = .next t ∧
      t = { s with regs := t.regs, bar2 := s.bar2.filter (fun b => b.q.val != n - 0xB0) }) ∧
    (0xA0 ≤ n → n < 0xA4 → ∃ t, exec (.flush v) s = .next t ∧
      t.fab.arrive = s.fab.arrive.filter (fun a => a.q.val != n - 0xA0) ∧
      (∀ m ∈ t.fab.msgs, m ∈ s.fab.msgs ∧ (m.q.val = n - 0xA0 → m.tomb ≠ none)) ∧
      t = { s with regs := t.regs, fab := { s.fab with msgs := t.fab.msgs, arrive := t.fab.arrive } }) ∧
    (0x100 ≤ n → n < 0x200 → (getCtx s (n - 0x100)).owner ≠ 0 → ∃ t, exec (.flush v) s = .next t ∧
      getCtx t (n - 0x100) = { getCtx s (n - 0x100) with parts := [], ovfl := [], dead := true } ∧
      (∀ e, e ≠ n - 0x100 → getCtx t e = getCtx s e) ∧ (∀ r ∈ t.cready, r.1 ≠ n - 0x100) ∧
      t = { s with regs := t.regs, ctxs := t.ctxs, cready := t.cready }) := by
  intro n freed
  have start := exec_flush_start h hb
  let u := setReg s (at' pgQP 0x114) (v &&& 0xFFF)
  have count : reg u freed = reg s freed := reg_setReg_ne s _ (by decide)
  refine ⟨fun h1 h2 => ?_, fun h1 h2 => ?_, fun h1 h2 => ?_, fun h1 h2 => ?_, fun h1 h2 ho => ?_⟩
  · refine ⟨_, start.trans (congrArg _ (flushQueue_injection u h1 h2)), getLink_setLink _ _ _, ?_, rfl⟩
    exact (flushed_reg _ _).trans (by rw [← count]; rfl)
  · refine ⟨_, start.trans (congrArg _ (flushQueue_ingress u h1 h2)), ⟨getLink_setLink _ _ _, ?_⟩, rfl⟩
    exact (flushed_reg _ _).trans (by rw [← count]; rfl)
  · obtain ⟨k, e⟩ := flushQueue_host u h1 h2
    exact ⟨_, start.trans (congrArg _ e), rfl⟩
  · obtain ⟨k, e⟩ := flushQueue_arrival u h1 h2
    refine ⟨_, start.trans (congrArg _ e), rfl, fun m hm => ?_, rfl⟩
    obtain ⟨hm, hk⟩ := List.mem_filter.1 hm
    exact ⟨hm, fun hq ht => by simp [hq, ht] at hk⟩
  · obtain ⟨k, e⟩ := flushQueue_circulation u h1 h2
    refine ⟨_, start.trans (congrArg _ e), ?_, fun e' he => getCtx_setCtx_ne _ _ he, fun r hr => ?_, rfl⟩
    · refine (getCtx_setCtx _ _ _).trans ?_
      have owned : decide ((getCtx u (n - 0x100)).owner ≠ 0) = true := decide_eq_true ho
      rw [owned]
      rfl
    · simpa using (List.mem_filter.1 hr).2

/-- Settles O48: the writes by what each sets, FLUSH by the queue that it names (`flushQueue_ingress` and its like). -/
theorem fabricRegisters : Obligations.FabricRegisters := by
  refine ⟨fun w v s h => ⟨fun free => ?table, fun used => ?logged⟩, fun v s h => ⟨fun h0 h1 => ?life, fun bad => ?badLife⟩,
    fun v s h => ⟨fun none => ?fixed, fun h2 h8 room => ?least, fun h2 h8 full => ?beyond⟩, fun v s h => ?flush⟩
  case table =>
    refine ⟨_, exec_rtrTblWordWrite_free h w v free, rfl, tget_tput_self _ _ _ _, fun i x y hx hy ne => ?_⟩
    refine tget_tput_ne _ _ _ _ fun e => ne ?_
    have hed := fld_lt (reg s (at' pgRTR 0x200)) 2 2
    have hw := w.isLt
    simp only [Prod.mk.injEq]
    omega
  case logged =>
    refine ⟨_, congrArg Host.Outcome.next ((hostWrite_served h _ _).trans (if_pos used)), ?_, post_logged _ _ _ _ _ _ _⟩
    obtain ⟨l, r, e⟩ := post_touches s pgRTR sevWarning 0x0C10 (accOf s (fld (reg s (at' pgRTR 0x200)) 1 0))
      (d0Lnk (accOf s (fld (reg s (at' pgRTR 0x200)) 1 0)).toNat 0) 0
    rw [e]
  case life =>
    exact ⟨_, congrArg Host.Outcome.next ((hostWrite_served h _ _).trans (if_neg (not_or.2 ⟨h0, by omega⟩))), reg_setReg _ _ _,
      regsKept_setReg _ _ _, rfl⟩
  case badLife =>
    obtain ⟨counted, kept⟩ := badWrite_spec s pgRTR 0x110
    exact ⟨_, congrArg Host.Outcome.next ((hostWrite_served h _ _).trans (if_pos bad)), kept _ (by decide), counted⟩
  case fixed => exact congrArg Host.Outcome.next ((hostWrite_served h _ _).trans (if_pos none))
  case least =>
    have own : ¬ (fld (reg s (at' pgQP 0x100)) 3 0 = 0 ∨ fld (reg s (at' pgQP 0x100)) 3 0 = 1 ∨
      8 ≤ fld (reg s (at' pgQP 0x100)) 3 0) := by omega
    refine ⟨_, congrArg Host.Outcome.next ((hostWrite_served h _ _).trans ((if_neg own).trans
      (if_neg (by simpa [poolCells] using room)))), rfl, ?_, fun d hd => ?_⟩
    · simp only [clsMinOf]
      rw [if_neg (by omega), if_neg (by omega), if_neg (by omega)]
      exact tget_tput_self _ _ _ _
    · simp only [clsMinOf]
      rw [tget_tput_ne _ _ _ _ hd]
      rfl
  case beyond =>
    have own : ¬ (fld (reg s (at' pgQP 0x100)) 3 0 = 0 ∨ fld (reg s (at' pgQP 0x100)) 3 0 = 1 ∨
      8 ≤ fld (reg s (at' pgQP 0x100)) 3 0) := by omega
    refine ⟨_, congrArg Host.Outcome.next ((hostWrite_served h _ _).trans ((if_neg own).trans
      (if_pos (by simpa [poolCells] using full)))), ?_, post_logged _ _ _ _ _ _ _⟩
    obtain ⟨l, r, e⟩ := post_touches s pgQP sevWarning 0x0C11 0 0 0
    rw [e]
  case flush =>
    refine ⟨fun hb => ⟨_, exec_flush_idle h hb, reg_setReg _ _ _, regsKept_setReg _ _ _, rfl⟩,
      fun hb => (exec_flush_spec h v hb).1, fun hb => (exec_flush_spec h v hb).2.1, fun hb => (exec_flush_spec h v hb).2.2.1,
      fun hb => (exec_flush_spec h v hb).2.2.2.1, fun hb => (exec_flush_spec h v hb).2.2.2.2, fun hb hn => ?_, fun hb hn => ?_,
      fun hb hn => ?_⟩
    all_goals
      have start := exec_flush_start h hb
      rw [hn] at start
    · exact ⟨_, start, rfl, rfl, tget_tput_self _ _ _ _, rfl⟩
    · exact ⟨_, start, rfl, rfl, tget_tput_self _ _ _ _, rfl⟩
    · exact ⟨_, start, rfl, rfl, tget_tput_self _ _ _ _, rfl⟩

end Sys2Proof
end

section
/-! PROOFS. Clocks and the input voltage (R400 to R407, R413): what O55 asks of them. -/

namespace Sys2Proof

open Sys2Proof.Machine

/-! ## The management source (R400) -/

/-- CLK_SRC_WRITE switches the source; a switch from or to a stopped clock leaves the domain without edges. -/
theorem exec_clkSrcWrite_spec {s : State} (h : Served s pgCLK) (v : W32) :
    let old := (reg s (at' pgCLK 0x100)).toNat
    let new := v.toNat % 2
    ∃ t, exec (.clkSrcWrite v) s = .next t ∧ reg t (at' pgCLK 0x100) = BitVec.ofNat 32 new ∧
      RegsKept s t [at' pgCLK 0x100] ∧ t = { s with regs := t.regs, clk := { s.clk with mgmtDead := t.clk.mgmtDead } } ∧
      t.clk.mgmtDead =
        (s.clk.mgmtDead || (decide (old ≠ new) && (clkStopped s (mgtSource old) || clkStopped s (mgtSource new)))) := by
  intro old new
  let u := setReg s (at' pgCLK 0x100) (BitVec.ofNat 32 new)
  have sets : reg u (at' pgCLK 0x100) = BitVec.ofNat 32 new := reg_setReg s _ _
  have kept : RegsKept s u [at' pgCLK 0x100] := regsKept_setReg s _ _
  have run : exec (.clkSrcWrite v) s = .next (if old = new then u
      else if clkStopped s (mgtSource old) || clkStopped s (mgtSource new) then { u with clk := { u.clk with mgmtDead := true } }
      else u) := congrArg Host.Outcome.next (hostWrite_served h _ _)
  refine ⟨_, run, ?_⟩
  by_cases same : old = new
  · rw [if_pos same]
    exact ⟨sets, kept, rfl, by simp [same]; rfl⟩
  · rw [if_neg same]
    split
    · next dead => exact ⟨sets, kept, rfl, by simp [same, dead]⟩
    · next live => exact ⟨sets, kept, rfl, by simp [same, live]; rfl⟩

/-! ## Software measurements (R403, R404) -/

/-- The fields of CLK_FC_CTL that a measurement reads are those that its write keeps (R418). -/
theorem fld_fcFields (v : W32) : fld (v &&& 0x001F031F) 20 16 = fld v 20 16 ∧ fld (v &&& 0x001F031F) 9 8 = fld v 9 8 ∧
    fld (v &&& 0x001F031F) 4 0 = fld v 4 0 := by
  have field (hi lo : Nat) (hw : (0x001F031F >>> lo) % 2 ^ (hi + 1 - lo) = 2 ^ (hi + 1 - lo) - 1) :
      fld (v &&& 0x001F031F) hi lo = fld v hi lo := by
    simp only [fld, BitVec.toNat_and, Nat.shiftRight_and_distrib, Nat.and_mod_two_pow]
    rw [show (0x001F031F : W32).toNat = 0x001F031F from rfl, hw, Nat.and_two_pow_sub_one_eq_mod, Nat.mod_mod]
  exact ⟨field 20 16 rfl, field 9 8 rfl, field 4 0 rfl⟩

/-- CLK_FC_CTL holds the masked write, and only the clock and what an interrupt touches have changed. -/
def FcRan (s t : State) (v : W32) : Prop :=
  reg t (at' pgCLK 0x104) = v &&& 0x001F031F ∧ t = { s with regs := t.regs, clk := t.clk, out := t.out }

/-- The end of a measurement: its state, its interrupt, the counter free again (R403, R404). -/
theorem fcEnd_spec (s : State) (st : Nat) :
    (fcEnd s st).clk = { s.clk with fcState := st, fcHolder := if s.clk.fcHolder = 3 then 0 else s.clk.fcHolder } ∧
    bit (reg (fcEnd s st) (at' pgCLK 0x10)) 0 = true ∧ RegsKept s (fcEnd s st) [at' pgCLK 0x10] ∧
    fcEnd s st = { s with regs := (fcEnd s st).regs, clk := (fcEnd s st).clk, out := (fcEnd s st).out } := by
  let u : State := { s with clk := { s.clk with
    fcState := st, fcHolder := if s.clk.fcHolder = 3 then 0 else s.clk.fcHolder } }
  obtain ⟨raised, kept⟩ := raiseInt_spec u pgCLK 0
  obtain ⟨r, o, frame⟩ := raiseInt_touches u pgCLK 0
  have e : fcEnd s st = { u with regs := r, out := o } := frame
  exact ⟨by rw [e], (raised 0 (by decide)).trans (by simp), kept, by rw [e]⟩

/-- A measurement that ends as soon as CLK_FC_CTL is written. -/
theorem fcRan_fcEnd (s : State) (v : W32) (st : Nat) :
    FcRan s (fcEnd (setReg s (at' pgCLK 0x104) (v &&& 0x001F031F)) st) v := by
  obtain ⟨-, -, kept, frame⟩ := fcEnd_spec (setReg s (at' pgCLK 0x104) (v &&& 0x001F031F)) st
  exact ⟨(kept _ (by decide)).trans (reg_setReg s _ _), frame⟩

theorem fcWrite_start {s : State} (h : Served s pgCLK) {v : W32} (h31 : bit v 31 = true) (h30 : bit v 30 = false) :
    fcWrite s v = fcStart (setReg s (at' pgCLK 0x104) (v &&& 0x001F031F)) := by
  unfold fcWrite
  rw [hostWrite_served h]
  dsimp only
  rw [if_neg (by simp [h30]), if_pos h31]

theorem fcWrite_stop {s : State} (h : Served s pgCLK) {v : W32} (h31 : bit v 31 = false) (h30 : bit v 30 = true)
    (hr : s.clk.fcState = 1) : fcWrite s v = fcEnd (setReg s (at' pgCLK 0x104) (v &&& 0x001F031F)) 4 := by
  unfold fcWrite
  rw [hostWrite_served h]
  dsimp only
  rw [if_neg (by simp [h31] : ¬ bit v 31 = true)]
  exact if_pos ⟨h30, hr⟩

/-- START and STOP of a software measurement. -/
theorem exec_start_stop_spec {s : State} (h : Served s pgCLK) (v : W32) :
    (bit v 31 = true → bit v 30 = false → s.clk.fcHolder ≠ 1 → s.clk.fcHolder ≠ 2 → 4 ≤ fld v 20 16 → fld v 20 16 ≤ 24 →
      ∃ t, exec (.start v) s = .next t ∧ FcRan s t v ∧ t.clk = { s.clk with
        fcState := 1, fcHolder := 3, fcN := fld v 20 16, fcRef := fld v 9 8, fcTgt := fld v 4 0 }) ∧
    (bit v 31 = true → bit v 30 = false → s.clk.fcHolder = 1 ∨ s.clk.fcHolder = 2 → ∃ t, exec (.start v) s = .next t ∧
      FcRan s t v ∧ t.clk = { s.clk with fcState := 3 }) ∧
    (bit v 31 = true → bit v 30 = false → s.clk.fcHolder ≠ 1 → s.clk.fcHolder ≠ 2 → fld v 20 16 < 4 ∨ 24 < fld v 20 16 →
      ∃ t, exec (.start v) s = .next t ∧ FcRan s t v ∧ t.clk.fcState = 4 ∧ t.clk.fcCount = s.clk.fcCount) ∧
    (bit v 31 = false → bit v 30 = true → s.clk.fcState = 1 → ∃ t, exec (.stop v) s = .next t ∧ FcRan s t v ∧
      t.clk = { s.clk with fcState := 4, fcHolder := if s.clk.fcHolder = 3 then 0 else s.clk.fcHolder } ∧
      bit (reg t (at' pgCLK 0x10)) 0 = true) := by
  let u := setReg s (at' pgCLK 0x104) (v &&& 0x001F031F)
  obtain ⟨fn, fr, ft⟩ := fld_fcFields v
  have written : reg u (at' pgCLK 0x104) = v &&& 0x001F031F := reg_setReg s _ _
  have starts (h31 : bit v 31 = true) (h30 : bit v 30 = false) : exec (.start v) s = .next (fcStart u) :=
    congrArg Host.Outcome.next (fcWrite_start h h31 h30)
  refine ⟨fun h31 h30 h1 h2 h4 h24 => ?_, fun h31 h30 busy => ?_, fun h31 h30 h1 h2 bad => ?_, fun h31 h30 run => ?_⟩
  · have begun : fcStart u = { u with clk := { u.clk with
        fcState := 1, fcHolder := 3, fcN := fld v 20 16, fcRef := fld v 9 8, fcTgt := fld v 4 0 } } := by
      unfold fcStart
      simp only [written, fn, fr, ft]
      exact (if_neg (not_or.2 ⟨h1, h2⟩)).trans (if_neg (by omega))
    exact ⟨_, (starts h31 h30).trans (congrArg Host.Outcome.next begun), ⟨written, rfl⟩, rfl⟩
  · have busy' : fcStart u = fcEnd u 3 := if_pos busy
    refine ⟨_, (starts h31 h30).trans (congrArg Host.Outcome.next busy'), fcRan_fcEnd s v 3, (fcEnd_spec u 3).1.trans ?_⟩
    change { s.clk with fcState := 3, fcHolder := if s.clk.fcHolder = 3 then 0 else s.clk.fcHolder } = _
    rw [if_neg (by omega : ¬ s.clk.fcHolder = 3)]
  · have ended : fcStart u = fcEnd u 4 := by
      unfold fcStart
      simp only [written, fn]
      exact (if_neg (not_or.2 ⟨h1, h2⟩)).trans (if_pos bad)
    have clock := (fcEnd_spec u 4).1
    exact ⟨_, (starts h31 h30).trans (congrArg Host.Outcome.next ended), fcRan_fcEnd s v 4, by rw [clock],
      by rw [clock]; rfl⟩
  · obtain ⟨clock, raised, -, -⟩ := fcEnd_spec u 4
    exact ⟨_, congrArg Host.Outcome.next (fcWrite_stop h h31 h30 run), fcRan_fcEnd s v 4, clock, raised⟩

/-- A measurement whose reference runs is DONE; a stopped target counts 0 (R404). -/
theorem exec_fcMeasureDone_spec {s : State} (n : W32) (hr : s.clk.fcState = 1) (hs : clkStopped s s.clk.fcRef = false) :
    ∃ t, exec (.fcMeasureDone n) s = .next t ∧ t.clk = { s.clk with
        fcState := 2, fcCount := if clkStopped s s.clk.fcTgt then 0 else n
        fcHolder := if s.clk.fcHolder = 3 then 0 else s.clk.fcHolder } ∧
      bit (reg t (at' pgCLK 0x10)) 0 = true ∧ t = { s with regs := t.regs, clk := t.clk, out := t.out } := by
  obtain ⟨clock, raised, -, frame⟩ := fcEnd_spec { s with clk := { s.clk with
    fcCount := if clkStopped s s.clk.fcTgt then 0 else n } } 2
  exact ⟨_, congrArg Host.Outcome.next (if_neg (by simp [hr, hs])), clock, raised, frame⟩

/-! ## A clock that stops (R402) -/

/-- A bit of a word with bit `b` set. -/
theorem bit_or_twoPow {n : Nat} (x : BitVec n) {b i : Nat} (hi : i < n) :
    bit (x ||| BitVec.ofNat n (2 ^ b)) i = (bit x i || decide (i = b)) := by
  simp only [bit, BitVec.toNat_or, BitVec.toNat_ofNat, Nat.testBit_or, Nat.testBit_mod_two_pow, hi, decide_true,
    Bool.true_and, Nat.testBit_two_pow, eq_comm]

/-- A bit of a word with bit `b` cleared. -/
theorem bit_andNot_twoPow {n : Nat} (x : BitVec n) {b i : Nat} (hi : i < n) :
    bit (x &&& ~~~ BitVec.ofNat n (2 ^ b)) i = (bit x i && !decide (i = b)) := by
  simp only [bit_eq_getLsbD, BitVec.getLsbD_and, BitVec.getLsbD_not, hi, decide_true, Bool.true_and, BitVec.getLsbD_ofNat,
    Nat.testBit_two_pow, eq_comm]

/-- Nothing reports a stopped clock: its bit alone, what it feeds, and the management domain change. -/
theorem exec_stoppedClock_spec (c : Fin 17) (s : State) :
    ∃ t, exec (.stoppedClock c) s = .next t ∧ bit t.clk.stopped c = true ∧
      (∀ i, i < 17 → i ≠ c.val → bit t.clk.stopped i = bit s.clk.stopped i) ∧
      (c.val = 0 ∨ c.val = 5 → rootRuns t = false) ∧
      t = { s with clk := { s.clk with stopped := t.clk.stopped, mgmtDead := t.clk.mgmtDead }
                   bup := { s.bup with bar0 := t.bup.bar0 } } ∧
      (t.bup.bar0 = s.bup.bar0 ∨ c.val = 4 ∨ c.val = 16) := by
  have stops (i : Nat) (hi : i < 17) : bit (s.clk.stopped ||| BitVec.ofNat 17 (2 ^ c.val)) i =
      (bit s.clk.stopped i || decide (i = c.val)) := bit_or_twoPow _ hi
  obtain ⟨b, d, run, hb⟩ : ∃ b d, exec (.stoppedClock c) s = .next { s with
      clk := { s.clk with stopped := s.clk.stopped ||| BitVec.ofNat 17 (2 ^ c.val), mgmtDead := d }
      bup := { s.bup with bar0 := b } } ∧ (b = s.bup.bar0 ∨ c.val = 4 ∨ c.val = 16) := by
    by_cases hc : c.val = 4 ∨ c.val = 16
    · exact ⟨_, _, congrArg Host.Outcome.next (if_pos hc), .inr hc⟩
    · exact ⟨_, _, congrArg Host.Outcome.next (if_neg hc), .inl rfl⟩
  refine ⟨_, run, (stops c c.isLt).trans (by simp), fun i hi hne => (stops i hi).trans (by simp [hne]), fun hc => ?_, rfl, hb⟩
  simp only [rootRuns, stops 0 (by decide), stops 5 (by decide)]
  rcases hc with hc | hc <;> simp [hc]

/-! ## The input (R407, R413) -/

theorem fld_put32_low (w : W32) {v : Nat} (h : v < 65536) : fld (put32 w 15 0 v) 15 0 = v := by
  simp only [fld, put32, BitVec.toNat_ofNat, Nat.shiftRight_zero, Nat.shiftLeft_zero]
  rw [Nat.mod_mod_of_dvd _ (by decide : 2 ^ 16 ∣ 2 ^ 32), Nat.or_mod_two_pow, Nat.and_mod_two_pow, Nat.and_mod_two_pow]
  simp [Nat.and_two_pow_sub_one_eq_mod v 16, Nat.mod_eq_of_lt h]

theorem exec_pwrUv_spec {s : State} {cv : Nat} (hr : s.bup.railsOn = true) (h : cv < 4000) :
    ∃ t, exec (.pwrUv cv) s = .next t ∧ fld (reg t (at' pgPWR 0x100)) 15 0 = cv ∧ Logged s t pgPWR 1 0x1104 0 0 0 ∧
      t = { s with regs := t.regs, ldg := t.ldg } := by
  let u := setReg s (at' pgPWR 0x100) (put32 (reg s (at' pgPWR 0x100)) 15 0 cv)
  obtain ⟨l, r, frame⟩ := post_touches u pgPWR sevWarning 0x1104 0 0 0
  refine ⟨_, congrArg Host.Outcome.next (if_neg (by simp [hr, h])), ?_, post_logged u pgPWR 1 0x1104 0 0 0, ?_⟩
  · rw [post_regs u pgPWR sevWarning 0x1104 0 0 0 _ (by decide), reg_setReg]
    exact fld_put32_low _ (by omega)
  · change post u _ _ _ _ _ _ = { s with
      regs := (post u pgPWR sevWarning 0x1104 0 0 0).regs, ldg := (post u pgPWR sevWarning 0x1104 0 0 0).ldg }
    rw [frame]
    rfl

/-- What a module without power has lost (R407, R413). -/
def Lost (s t : State) : Prop :=
  t.jobs = [] ∧ t.bup.railsOn = false ∧ t.bup.isLocal = false ∧ t.bup.bar0 = false ∧ t.ldg = Ledger.reset ∧ t.lanes = [] ∧
  t.clk.dst = 0 ∧ t.cus.fuses = s.cus.fuses ∧ t.cus.keys = [] ∧ t.pending = s.pending ∧ t.out = s.out

/-- Power goes: what the power held is lost, and the shut-down's cause stands (R407, R413). -/
theorem powerDown_spec (s : State) (en shut trip : Bool) :
    let t := powerDown s en shut trip
    Lost s t ∧ t.bup.pwrEn = en ∧ t.pwr.shut = shut ∧ t.pwr.tripN = trip :=
  ⟨⟨rfl, rfl, rfl, rfl, rfl, rfl, rfl, rfl, rfl, rfl, rfl⟩, rfl, rfl, rfl⟩

end Sys2Proof
end

section
/-! PROOFS. Power and temperature (R410 to R415), and the obligation O55. -/

namespace Sys2Proof

open Sys2Proof.Machine

/-! ## Changes that fault jobs at most, on any page but the scheduler's -/

theorem notImgAddr_of_ne {p o : Nat} (hp : p ≠ pgSCH) (ho : o < 4096) : NotImgAddr (at' p o) := by
  intro k hk
  simp only [at', pgSCH] at *
  omega

theorem faultsOnly_post_of_ne (s : State) {src : Nat} (sev code : Nat) (acc : BitVec 12) (d0 d1 : W32) (h : src ≠ pgSCH) :
    FaultsOnly s (post s src sev code acc d0 d1) := by
  refine .of_regsKept (by simp) (post_regs s src sev code acc d0 d1) (fun o ho => ?_)
  rcases List.mem_cons.1 ho with rfl | ho
  · exact notImgAddr_of_ne (by decide) (by decide)
  · obtain rfl : o = at' src 0x18 := by
      split at ho
      · simpa using ho
      · cases ho
    exact notImgAddr_of_ne h (by decide)

theorem faultsOnly_raiseInt (s : State) {p : Nat} (b : Nat) (h : p ≠ pgSCH) : FaultsOnly s (raiseInt s p b) :=
  .of_regsKept (by simp) (raiseInt_spec s p b).2 (by simpa using notImgAddr_of_ne h (by decide))

/-- A job's fault on the way from `s` to `t`: a job that is first on a quadrant in `s` is faulted in `t`. -/
theorem FaultsOnly.faulted {s t : State} {i : Nat} (h : FaultsOnly s t) (hf : (getJob s i).st = .faulted) :
    (getJob t i).st = .faulted := by
  rcases h.jobs i with hf' | ⟨hst, -⟩
  · exact hf'
  · rw [hst]; exact hf

/-! ## A fold's one step, and what the steps around it keep -/

/-- What relates a state to the next at every step of a fold relates the first to the last. -/
theorem foldl_rel {σ α : Type} {R : σ → σ → Prop} (refl : ∀ s, R s s) (trans : ∀ {s t u}, R s t → R t u → R s u)
    {f : σ → α → σ} {l : List α} (step : ∀ a ∈ l, ∀ s, R s (f s a)) (s : σ) : R s (l.foldl f s) := by
  induction l generalizing s with
  | nil => exact refl s
  | cons a l ih =>
    exact trans (step a List.mem_cons_self s) (ih (fun b hb => step b (List.mem_cons_of_mem _ hb)) (f s a))

/-- A step of a fold without repetition, between a state that the steps before it reach and one from which those after it
go on. -/
theorem foldl_around {σ α : Type} {R : σ → σ → Prop} (refl : ∀ s, R s s) (trans : ∀ {s t u}, R s t → R t u → R s u)
    {f : σ → α → σ} {l : List α} (hd : l.Nodup) {a : α} (ha : a ∈ l) (step : ∀ b ∈ l, b ≠ a → ∀ s, R s (f s b)) (s : σ) :
    ∃ u, R s u ∧ R (f u a) (l.foldl f s) := by
  obtain ⟨as, bs, rfl⟩ := List.append_of_mem ha
  obtain ⟨-, hab, hne⟩ := List.nodup_append.1 hd
  have before : ∀ b ∈ as, b ≠ a := fun b hb e => hne b hb a List.mem_cons_self e
  have after : ∀ b ∈ bs, b ≠ a := fun b hb e => (List.nodup_cons.1 hab).1 (e ▸ hb)
  rw [List.foldl_append, List.foldl_cons]
  exact ⟨_, foldl_rel refl trans (fun b hb => step b (by simp [hb]) (before b hb)) s,
    foldl_rel refl trans (fun b hb => step b (by simp [hb]) (after b hb)) _⟩

/-- What no step changes of a state that meets `P`, where all steps keep `P`. -/
theorem foldl_keeps_under {σ α β : Type} {P : σ → Prop} {obs : σ → β} {f : σ → α → σ} {l : List α}
    (step : ∀ a ∈ l, ∀ s, P s → P (f s a) ∧ obs (f s a) = obs s) {s : σ} (h : P s) :
    P (l.foldl f s) ∧ obs (l.foldl f s) = obs s := by
  induction l generalizing s with
  | nil => exact ⟨h, rfl⟩
  | cons a l ih =>
    obtain ⟨now, same⟩ := step a List.mem_cons_self s h
    obtain ⟨last, rest⟩ := ih (fun b hb => step b (List.mem_cons_of_mem _ hb)) now
    exact ⟨last, rest.trans same⟩

/-! ## Power samples (R410) -/

/-- What the limits of any die leave as it was, or take further: jobs fault, the interrupt stays. -/
structure LimitsKept (s t : State) : Prop where
  faults : FaultsOnly s t
  hist   : t.pwr.hist = s.pwr.hist
  clk    : t.clk = s.clk
  input  : reg t (at' pgPWR 0x100) = reg s (at' pgPWR 0x100)
  said   : bit (reg s (at' pgPWR 0x10)) 0 = true → bit (reg t (at' pgPWR 0x10)) 0 = true

theorem LimitsKept.refl (s : State) : LimitsKept s s := ⟨.refl s, rfl, rfl, rfl, id⟩

theorem LimitsKept.trans {s t u : State} (h : LimitsKept s t) (k : LimitsKept t u) : LimitsKept s u :=
  ⟨h.faults.trans k.faults, k.hist.trans h.hist, k.clk.trans h.clk, k.input.trans h.input, fun hs => k.said (h.said hs)⟩

/-- What the limits of the other dies leave of die `q`. -/
structure DieKept (q : Nat) (s t : State) : Prop extends LimitsKept s t where
  overAt : tget none t.pwr.overAt q = tget none s.pwr.overAt q
  mean   : reg t (at' pgPWR (0x110 + 4 * q)) = reg s (at' pgPWR (0x110 + 4 * q))

theorem DieKept.refl (q : Nat) (s : State) : DieKept q s s := ⟨.refl s, rfl, rfl⟩

theorem DieKept.trans {q : Nat} {s t u : State} (h : DieKept q s t) (k : DieKept q t u) : DieKept q s u :=
  ⟨h.toLimitsKept.trans k.toLimitsKept, k.overAt.trans h.overAt, k.mean.trans h.mean⟩

/-- The mean of one die is shown (R420). -/
def meanStep (s : State) (q : Nat) : State :=
  setReg s (at' pgPWR (0x110 + 4 * q)) (BitVec.ofNat 32 (powerSum s.pwr.hist 100 q / max 1 s.pwr.hist.length % 65536))

/-- A warning of PWR_OVER was given less than 1 ms ago (R410). -/
def overQuiet (s : State) (q : Nat) : Bool :=
  match tget none s.pwr.overAt q with
  | some t => decide (s.clk.dst < t + msTicks)
  | none => false

/-- The warning of PWR_OVER: counted, logged, signalled, its time kept (R410). -/
def overSaid (s : State) (q : Nat) : State :=
  let t := raiseInt (post (bump s (at' pgPWR 0x148) 1) pgPWR sevWarning 0x1102 (quadAcc s q)
    (d0Die q (powerSum s.pwr.hist 100 q / 100 : Nat)) 0) pgPWR 0
  { t with pwr := { t.pwr with overAt := tput none t.pwr.overAt q (some t.clk.dst) } }

/-- PWR_OVER of one die (R410). -/
def overStep (s : State) (q : Nat) : State :=
  if 100 ≤ s.pwr.hist.length ∧ 480000 < powerSum s.pwr.hist 100 q ∧ ¬ overQuiet s q = true then overSaid s q else s

/-- PWR_OVERDRAW of one die (R410). -/
def drawStep (s : State) (h : List (List Nat)) (q : Nat) : State :=
  if 10 ≤ h.length ∧ 52800 < powerSum h 10 q then
    match residentOn s q with
    | some j => jobFault (post s pgPWR sevFault 0x1103 (accOf s j) (d0Die q (powerSum h 10 q / 10 : Nat))
        (BitVec.ofNat 32 (accOf s j).toNat)) j
    | none => s
  else s

theorem powerDie_eq (s : State) (q : Nat) : powerDie s q = drawStep (overStep (meanStep s q) q) s.pwr.hist q := by
  unfold powerDie
  rfl

theorem meanStep_spec (s : State) {q : Nat} (hq : q < 4) :
    LimitsKept s (meanStep s q) ∧ reg (meanStep s q) (at' pgPWR (0x110 + 4 * q)) =
      BitVec.ofNat 32 (powerSum s.pwr.hist 100 q / max 1 s.pwr.hist.length % 65536) ∧
    (∀ k, k ≠ q → DieKept k s (meanStep s q)) := by
  have other {o : Nat} (h : o ≠ at' pgPWR (0x110 + 4 * q)) : reg (meanStep s q) o = reg s o := reg_setReg_ne s _ h
  have kept : LimitsKept s (meanStep s q) :=
    { faults := .of_regsKept rfl (regsKept_setReg s _ _) (by simpa using notImgAddr_of_ne (by decide) (by omega))
      hist := rfl
      clk := rfl
      input := other (by simp only [at']; omega)
      said := by rw [other (by simp only [at']; omega)]; exact id }
  exact ⟨kept, reg_setReg s _ _, fun k hk => { kept with overAt := rfl, mean := other (by simp only [at']; omega) }⟩

theorem overSaid_spec (s : State) (q : Nat) :
    LimitsKept s (overSaid s q) ∧ (∀ k < 4, reg (overSaid s q) (at' pgPWR (0x110 + 4 * k)) = reg s (at' pgPWR (0x110 + 4 * k))) ∧
    (overSaid s q).jobs = s.jobs ∧ tget none (overSaid s q).pwr.overAt q = some s.clk.dst ∧
    (∀ k, k ≠ q → tget none (overSaid s q).pwr.overAt k = tget none s.pwr.overAt k) ∧
    bit (reg (overSaid s q) (at' pgPWR 0x10)) 0 = true := by
  let b := bump s (at' pgPWR 0x148) 1
  let c := post b pgPWR sevWarning 0x1102 (quadAcc s q) (d0Die q (powerSum s.pwr.hist 100 q / 100 : Nat)) 0
  have counted : RegsKept s b [at' pgPWR 0x148] := regsKept_bump s _ 1
  have posted : RegsKept b c _ := post_regs b pgPWR sevWarning 0x1102 _ _ _
  obtain ⟨raised, signalled⟩ := raiseInt_spec c pgPWR 0
  have regs : (overSaid s q).regs = (raiseInt c pgPWR 0).regs := rfl
  have kept {o : Nat} (h1 : o ≠ at' pgPWR 0x148) (h2 : o ≠ at' pgLDG 0x10C) (h3 : o ≠ at' pgPWR 0x10) :
      reg (overSaid s q) o = reg s o :=
    (reg_congr regs o).trans ((signalled o (by simpa using h3)).trans
      ((posted o (by simpa [sevWarning] using h2)).trans (counted o (by simpa using h1))))
  have said : bit (reg (overSaid s q) (at' pgPWR 0x10)) 0 = true := by
    rw [reg_congr regs, raised 0 (by decide)]
    simp
  have faults : FaultsOnly s (overSaid s q) :=
    (((faultsOnly_bump s 1 (notImgAddr_of_ne (by decide) (by decide))).trans
      (faultsOnly_post_of_ne b sevWarning 0x1102 _ _ _ (by decide))).trans (faultsOnly_raiseInt c 0 (by decide))).trans
      (.of_eq rfl rfl)
  obtain ⟨r, o, sent⟩ := raiseInt_touches c pgPWR 0
  obtain ⟨l, r', logged⟩ := post_touches b pgPWR sevWarning 0x1102 (quadAcc s q)
    (d0Die q (powerSum s.pwr.hist 100 q / 100 : Nat)) 0
  have frame : raiseInt c pgPWR 0 = { s with regs := r, ldg := l, out := o } := by
    rw [sent, show c = { b with ldg := l, regs := r' } from logged]
    rfl
  have whole : overSaid s q = { s with
      regs := r, ldg := l, out := o, pwr := { s.pwr with overAt := tput none s.pwr.overAt q (some s.clk.dst) } } := by
    change { raiseInt c pgPWR 0 with pwr := { (raiseInt c pgPWR 0).pwr with
      overAt := tput none (raiseInt c pgPWR 0).pwr.overAt q (some (raiseInt c pgPWR 0).clk.dst) } } = _
    rw [frame]
  have overAt : (overSaid s q).pwr.overAt = tput none s.pwr.overAt q (some s.clk.dst) := by rw [whole]
  have own : tget none (overSaid s q).pwr.overAt q = some s.clk.dst := by rw [overAt, tget_tput_self]
  have others (k : Nat) (hk : k ≠ q) : tget none (overSaid s q).pwr.overAt k = tget none s.pwr.overAt k := by
    rw [overAt, tget_tput_ne none none _ _ hk]
  refine ⟨⟨faults, by rw [whole], by rw [whole], kept (by decide) (by decide) (by decide), fun _ => said⟩,
    fun k hk => kept ?_ ?_ ?_, by rw [whole], own,
    others, said⟩
  all_goals simp only [at', pgPWR, pgLDG]; omega

theorem overStep_spec (s : State) (q : Nat) :
    LimitsKept s (overStep s q) ∧ (overStep s q).jobs = s.jobs ∧
    (∀ k < 4, reg (overStep s q) (at' pgPWR (0x110 + 4 * k)) = reg s (at' pgPWR (0x110 + 4 * k))) ∧
    (∀ k < 4, k ≠ q → DieKept k s (overStep s q)) ∧ (powerSum s.pwr.hist 100 q ≤ 480000 → overStep s q = s) ∧
    (100 ≤ s.pwr.hist.length → 480000 < powerSum s.pwr.hist 100 q → tget none s.pwr.overAt q = none →
      tget none (overStep s q).pwr.overAt q = some s.clk.dst ∧ bit (reg (overStep s q) (at' pgPWR 0x10)) 0 = true) := by
  obtain ⟨kept, mean, jobs, own, others, said⟩ := overSaid_spec s q
  unfold overStep
  split
  case isTrue h =>
    exact ⟨kept, jobs, mean, fun k hk hne => { kept with overAt := others k hne, mean := mean k hk },
      fun low => absurd h.2.1 (by omega), fun _ _ _ => ⟨own, said⟩⟩
  case isFalse h =>
    exact ⟨.refl s, rfl, fun _ _ => rfl, fun k _ _ => .refl k s, fun _ => rfl,
      fun full high new => absurd ⟨full, high, by simp [overQuiet, new]⟩ h⟩

theorem drawStep_spec (s : State) (h : List (List Nat)) (q : Nat) :
    (∀ k < 4, DieKept k s (drawStep s h q)) ∧ (powerSum h 10 q ≤ 52800 → drawStep s h q = s) ∧
    (∀ j, 10 ≤ h.length → 52800 < powerSum h 10 q → residentOn s q = some j →
      (getJob (drawStep s h q) j).st = .faulted) := by
  have fault (j : Nat) : ∀ k < 4, DieKept k s (jobFault (post s pgPWR sevFault 0x1103 (accOf s j)
      (d0Die q (powerSum h 10 q / 10 : Nat)) (BitVec.ofNat 32 (accOf s j).toNat)) j) := by
    intro k hk
    have posted := post_regs s pgPWR sevFault 0x1103 (accOf s j) (d0Die q (powerSum h 10 q / 10 : Nat))
      (BitVec.ofNat 32 (accOf s j).toNat)
    have faulted := regsKept_jobFault (post s pgPWR sevFault 0x1103 (accOf s j) (d0Die q (powerSum h 10 q / 10 : Nat))
      (BitVec.ofNat 32 (accOf s j).toNat)) j
    have kept (o : Nat) (h1 : o ≠ at' pgLDG 0x10C) (h2 : o ≠ at' pgPWR 0x18) (h3 : o ≠ at' pgQP 0x130)
        (h4 : o ≠ at' pgSCH 0x10) := (faulted o (by simp [h3, h4])).trans (posted o (by simp [sevFault, h1, h2]))
    have pages (o : Nat) (ho : o < 0x1000) (hne : o ≠ 0x18) := kept (at' pgPWR o) (by simp only [at', pgPWR, pgLDG]; omega)
      (by simp only [at', pgPWR]; omega) (by simp only [at', pgPWR, pgQP]; omega) (by simp only [at', pgPWR, pgSCH]; omega)
    exact
      { faults := (faultsOnly_post_of_ne s _ _ _ _ _ (by decide)).trans (faultsOnly_jobFault _ j)
        hist := by simp
        clk := by simp
        overAt := by simp
        input := pages _ (by decide) (by decide)
        mean := pages _ (by omega) (by omega)
        said := by rw [pages _ (by decide) (by decide)]; exact id }
  unfold drawStep
  split
  case isTrue high =>
    refine ⟨?_, fun low => absurd high.2 (by omega), fun j _ _ hj => ?_⟩
    · cases residentOn s q with
      | some j => exact fault j
      | none => exact fun k _ => .refl k s
    · rw [hj]
      exact jobFault_faulted (.inl (by rw [getJob_congr (s := s) (by simp)]; exact resident_of_residentOn hj))
  case isFalse h => exact ⟨fun k _ => .refl k s, fun _ => rfl, fun j h1 h2 _ => absurd ⟨h1, h2⟩ h⟩


/-- One die's power over 10 us and 100 us (R410). -/
theorem powerDie_spec (s : State) {q : Nat} (hq : q < 4) :
    let h := s.pwr.hist
    let t := powerDie s q
    LimitsKept s t ∧ (∀ k < 4, k ≠ q → DieKept k s t) ∧
    reg t (at' pgPWR (0x110 + 4 * q)) = BitVec.ofNat 32 (powerSum h 100 q / max 1 h.length % 65536) ∧
    (∀ j, 10 ≤ h.length → 52800 < powerSum h 10 q → residentOn s q = some j → (getJob t j).st = .faulted) ∧
    (powerSum h 10 q ≤ 52800 → t.jobs = s.jobs) ∧
    (powerSum h 10 q ≤ 52800 → powerSum h 100 q ≤ 480000 → t.ldg = s.ldg ∧ t.out = s.out) ∧
    (100 ≤ h.length → 480000 < powerSum h 100 q → tget none s.pwr.overAt q = none →
      tget none t.pwr.overAt q = some s.clk.dst ∧ bit (reg t (at' pgPWR 0x10)) 0 = true) := by
  intro h t
  have run : t = drawStep (overStep (meanStep s q) q) h q := powerDie_eq s q
  obtain ⟨meanKept, mean, meanOthers⟩ := meanStep_spec s hq
  obtain ⟨overKept, overJobs, overMean, overOthers, quiet, overAt⟩ := overStep_spec (meanStep s q) q
  obtain ⟨drawKept, low, faults⟩ := drawStep_spec (overStep (meanStep s q) q) h q
  rw [run]
  refine ⟨(meanKept.trans overKept).trans (drawKept q hq).toLimitsKept,
    fun k hk hne => ((meanOthers k hne).trans (overOthers k hk hne)).trans (drawKept k hk),
    (drawKept q hq).mean.trans ((overMean q hq).trans mean), fun j h1 h2 hj => ?_, fun h10 => ?_, fun h10 h100 => ?_,
    fun full high new => ?_⟩
  · have still : residentOn (overStep (meanStep s q) q) q = some j :=
      (residentOn_congr (s := s) (overJobs.trans rfl) (meanKept.faults.trans overKept.faults).addr q).trans hj
    exact faults j h1 h2 still
  · rw [low h10, overJobs]
    rfl
  · rw [low h10, quiet h100]
    exact ⟨rfl, rfl⟩
  · obtain ⟨at', said⟩ := overAt full high new
    exact ⟨(drawKept q hq).overAt.trans at', (drawKept q hq).said said⟩

/-- The sample's input and its power, in the history (R410, R419). -/
def sampleTaken (s : State) (r : PowerReading) : State :=
  { setReg s (at' pgPWR 0x100) (BitVec.ofNat 32 (r.cv % 65536 + r.w % 65536 * 65536)) with
    pwr := { s.pwr with hist := (r.die :: s.pwr.hist).take 100 } }

theorem exec_powerSample {s : State} (hr : s.bup.railsOn = true) (r : PowerReading) :
    exec (.powerSample r) s = .next ([0, 1, 2, 3].foldl powerDie (sampleTaken s r)) :=
  congrArg Host.Outcome.next (if_neg (by simp [hr]))

/-- POWER_SAMPLE (R410). -/
theorem exec_powerSample_spec {s : State} (hr : s.bup.railsOn = true) (r : PowerReading) :
    let h := (r.die :: s.pwr.hist).take 100
    ∃ t, exec (.powerSample r) s = .next t ∧ t.pwr.hist = h ∧
      reg t (at' pgPWR 0x100) = BitVec.ofNat 32 (r.cv % 65536 + r.w % 65536 * 65536) ∧
      (∀ q < 4, reg t (at' pgPWR (0x110 + 4 * q)) = BitVec.ofNat 32 (powerSum h 100 q / max 1 h.length % 65536)) ∧
      (∀ q j, q < 4 → 10 ≤ h.length → 52800 < powerSum h 10 q → residentOn s q = some j → (getJob t j).st = .faulted) ∧
      ((∀ q < 4, powerSum h 10 q ≤ 52800) → t.jobs = s.jobs) ∧
      ((∀ q < 4, powerSum h 10 q ≤ 52800 ∧ powerSum h 100 q ≤ 480000) → t.ldg = s.ldg ∧ t.out = s.out) ∧
      (∀ q < 4, 100 ≤ h.length → 480000 < powerSum h 100 q → tget none s.pwr.overAt q = none →
        tget none t.pwr.overAt q = some s.clk.dst ∧ bit (reg t (at' pgPWR 0x10)) 0 = true) := by
  intro h
  let u := sampleTaken s r
  have dies : ∀ q ∈ [0, 1, 2, 3], q < 4 := by decide
  have listed : ∀ q < 4, q ∈ [0, 1, 2, 3] := by decide
  have all : LimitsKept u ([0, 1, 2, 3].foldl powerDie u) :=
    foldl_rel .refl .trans (fun q hq s => (powerDie_spec s (dies q hq)).1) u
  have around {q : Nat} (hq : q < 4) : ∃ x, DieKept q u x ∧ DieKept q (powerDie x q) ([0, 1, 2, 3].foldl powerDie u) :=
    foldl_around (DieKept.refl q) .trans (by decide) (listed q hq)
      (fun b hb hne s => (powerDie_spec s (dies b hb)).2.1 q hq hne.symm) u
  have sampled : FaultsOnly s u :=
    .of_regsKept rfl (regsKept_setReg s _ _) (by simpa using notImgAddr_of_ne (by decide) (by decide))
  refine ⟨_, exec_powerSample hr r, all.hist, all.input.trans (reg_setReg s _ _), fun q hq => ?_, fun q j hq h10 high hj => ?_,
    fun low => ?_, fun low => ?_, fun q hq full high new => ?_⟩
  · obtain ⟨x, before, after⟩ := around hq
    obtain ⟨-, -, mean, -⟩ := powerDie_spec x hq
    rw [after.mean, mean, before.hist]
    rfl
  · obtain ⟨x, before, after⟩ := around hq
    obtain ⟨kept, -, -, faults, -⟩ := powerDie_spec x hq
    rcases (sampled.trans before.faults).residentOn_or_faulted hj with hf | hx
    · exact after.faults.faulted (kept.faults.faulted hf)
    · exact after.faults.faulted (faults j (by rw [before.hist]; exact h10) (by rw [before.hist]; exact high) hx)
  · exact (foldl_keeps_under (P := fun x => x.pwr.hist = h) (obs := State.jobs) (fun q hq x hx => by
      obtain ⟨kept, -, -, -, jobs, -⟩ := powerDie_spec x (dies q hq)
      exact ⟨kept.hist.trans hx, jobs (by rw [hx]; exact low q (dies q hq))⟩) (s := u) rfl).2
  · have same := (foldl_keeps_under (P := fun x => x.pwr.hist = h) (obs := fun x => (x.ldg, x.out)) (fun q hq x hx => by
      obtain ⟨kept, -, -, -, -, quiet, -⟩ := powerDie_spec x (dies q hq)
      obtain ⟨h10, h100⟩ := low q (dies q hq)
      obtain ⟨ldg, out⟩ := quiet (by rw [hx]; exact h10) (by rw [hx]; exact h100)
      exact ⟨kept.hist.trans hx, by rw [ldg, out]⟩) (s := u) rfl).2
    exact Prod.mk.inj same
  · obtain ⟨x, before, after⟩ := around hq
    obtain ⟨-, -, -, -, -, -, said⟩ := powerDie_spec x hq
    obtain ⟨at', set⟩ := said (by rw [before.hist]; exact full) (by rw [before.hist]; exact high) (before.overAt.trans new)
    exact ⟨after.overAt.trans (at'.trans (by rw [before.clk]; rfl)), after.said set⟩

end Sys2Proof
end

section
/-! PROOFS. Temperatures (R314, R411 to R413, R415), and the obligation O55. -/

namespace Sys2Proof

open Sys2Proof.Machine

/-! ## One die's reading (R411 to R413) -/

/-- Jobs fault at most, and power, photonics and lanes stay. -/
structure Warmed (s t : State) : Prop where
  faults : FaultsOnly s t
  bup    : t.bup = s.bup
  opt    : t.opt = s.opt
  lanes  : t.lanes = s.lanes

theorem Warmed.refl (s : State) : Warmed s s := ⟨.refl s, rfl, rfl, rfl⟩

theorem Warmed.trans {s t u : State} (h : Warmed s t) (k : Warmed t u) : Warmed s u :=
  ⟨h.faults.trans k.faults, k.bup.trans h.bup, k.opt.trans h.opt, k.lanes.trans h.lanes⟩

/-- Entry into throttle: counted, logged, signalled (R412). -/
def throttled (s : State) (i : Nat) (x : Int) : State :=
  let t := raiseInt (post (bump s (at' pgPWR 0x14C) 1) pgPWR sevWarning 0x1106 0 (d0Die i x) 0) pgPWR 0
  { t with pwr := { t.pwr with thr := t.pwr.thr ||| BitVec.ofNat 17 (2 ^ i) } }

theorem warmed_throttled (s : State) (i : Nat) (x : Int) : Warmed s (throttled s i x) where
  faults := (((faultsOnly_bump s 1 (notImgAddr_of_ne (by decide) (by decide))).trans
    (faultsOnly_post_of_ne _ sevWarning 0x1106 _ _ _ (by decide))).trans (faultsOnly_raiseInt _ 0 (by decide))).trans
    (.of_eq rfl rfl)
  bup := by simp [throttled]
  opt := by simp [throttled]
  lanes := by simp [throttled]

theorem inThrottle_throttled (s : State) (i : Nat) (x : Int) {k : Nat} (hk : k < 17) :
    inThrottle (throttled s i x) k = (inThrottle s k || decide (k = i)) := by
  have word : (throttled s i x).pwr.thr = s.pwr.thr ||| BitVec.ofNat 17 (2 ^ i) := by simp [throttled]
  rw [inThrottle, word]
  exact bit_or_twoPow _ hk

/-- A reading's throttle (R412): the die enters at its point, and stays in where it is in. -/
theorem thermThrottle_spec (s : State) (i : Nat) (x : Int) :
    Warmed s (thermThrottle s i x) ∧ ∀ k < 17, inThrottle (thermThrottle s i x) k =
      (inThrottle s k || (decide (k = i) && decide (throttleAt i ≤ x))) := by
  have cool (s : State) (c : Tab (Option Nat)) : Warmed s { s with pwr := { s.pwr with coolAt := c } } :=
    ⟨.of_eq rfl rfl, rfl, rfl, rfl⟩
  by_cases h : throttleAt i ≤ x ∧ ¬ inThrottle s i = true
  · have run : ∃ c, thermThrottle s i x = { throttled s i x with pwr := { (throttled s i x).pwr with coolAt := c } } :=
      ⟨_, by unfold thermThrottle; rw [if_pos h]; rfl⟩
    obtain ⟨c, run⟩ := run
    rw [run]
    refine ⟨(warmed_throttled s i x).trans (cool _ c), fun k hk => (inThrottle_throttled s i x hk).trans ?_⟩
    simp [h.1]
  · have run : ∃ c, thermThrottle s i x = { s with pwr := { s.pwr with coolAt := c } } :=
      ⟨_, by unfold thermThrottle; rw [if_neg h]⟩
    obtain ⟨c, run⟩ := run
    rw [run]
    refine ⟨cool s c, fun k hk => ?_⟩
    change inThrottle s k = _
    by_cases hki : k = i
    · subst hki
      by_cases hx : throttleAt k ≤ x
      · have : inThrottle s k = true := by simpa [hx] using h
        simp [this]
      · simp [hx]
    · simp [hki]

/-- The job fault of one job of a die that is too hot (R411). -/
def dieFault (i : Nat) (x : Int) (s : State) (j : Nat) : State :=
  jobFault (post s pgPWR sevFault 0x1107 (accOf s j) (d0Die i x) (BitVec.ofNat 32 (accOf s j).toNat)) j

theorem warmed_dieFault (i : Nat) (x : Int) (s : State) (j : Nat) : Warmed s (dieFault i x s j) where
  faults := (faultsOnly_post_of_ne s sevFault 0x1107 _ _ _ (by decide)).trans (faultsOnly_jobFault _ j)
  bup := by simp [dieFault]
  opt := by simp [dieFault]
  lanes := by simp [dieFault]

theorem dieFault_faulted {i : Nat} {x : Int} {s : State} {j : Nat}
    (h : resident (getJob s j).st = true ∨ (getJob s j).st = .faulted) : (getJob (dieFault i x s j) j).st = .faulted :=
  jobFault_faulted (by rw [getJob_congr (s := s) (by simp)]; exact h)

/-- The job faults of a die at its fault point (R411). -/
def dieFaults (s : State) (i : Nat) (x : Int) : State :=
  if faultAt i ≤ x then (dieJobs s i).foldl (dieFault i x) s else s

theorem warmed_dieFaults (s : State) (i : Nat) (x : Int) : Warmed s (dieFaults s i x) := by
  unfold dieFaults
  split
  · exact foldl_rel .refl .trans (fun j _ s => warmed_dieFault i x s j) s
  · exact .refl s

/-- A job that a die's fault names is faulted; it was resident. -/
theorem foldl_dieFault_faulted {i : Nat} {x : Int} {l : List Nat} {j : Nat} (hj : j ∈ l) {s : State}
    (h : resident (getJob s j).st = true) : (getJob (l.foldl (dieFault i x) s) j).st = .faulted := by
  obtain ⟨as, bs, rfl⟩ := List.append_of_mem hj
  have all (l : List Nat) (s : State) : FaultsOnly s (l.foldl (dieFault i x) s) :=
    foldl_rel .refl .trans (fun j _ s => (warmed_dieFault i x s j).faults) s
  rw [List.foldl_append, List.foldl_cons]
  refine (all bs _).faulted (dieFault_faulted ?_)
  rcases (all as s).jobs j with hf | ⟨hst, -⟩
  · exact .inr hf
  · exact .inl (by rw [hst]; exact h)

/-- At its fault point a quadrant's die faults the job that is first there (R411). -/
theorem dieFaults_quadrant {s : State} {q j : Nat} {x : Int} (hq : q < 4) (hx : 1100 ≤ x)
    (hj : residentOn s q = some j) : (getJob (dieFaults s q x) j).st = .faulted := by
  have hot : faultAt q ≤ x := by rw [faultAt, if_pos (by omega)]; exact hx
  have jobs : dieJobs s q = [j] := by
    unfold dieJobs
    rw [if_neg (by omega), if_pos hq, hj]
  unfold dieFaults
  rw [if_pos hot, jobs]
  exact foldl_dieFault_faulted (List.mem_singleton_self j) (resident_of_residentOn hj)

/-- At its fault point the hub faults every job (R411). -/
theorem dieFaults_hub {s : State} {x : Int} (hx : 1100 ≤ x) {j : Nat} (hj : j < 4) :
    resident (getJob (dieFaults s 4 x) j).st = false := by
  cases hr : resident (getJob s j).st with
  | false =>
    rcases (warmed_dieFaults s 4 x).faults.jobs j with hf | ⟨hst, -⟩
    · rw [hf]; rfl
    · rw [hst]; exact hr
  | true =>
    have named : j ∈ dieJobs s 4 := by
      unfold dieJobs
      rw [if_pos rfl]
      exact List.mem_filter.2 ⟨by simp; omega, hr⟩
    unfold dieFaults
    rw [if_pos (show faultAt 4 ≤ x from hx), foldl_dieFault_faulted named hr]
    rfl

/-- The die trips (R413). -/
def trips (e : Nat × Int) : Prop := e.1 < 5 ∧ 1150 ≤ e.2

theorem thermDie_on {s : State} (hr : s.bup.railsOn = true) (e : Nat × Int) (h : ¬ trips e) :
    thermDie s e = dieFaults (thermThrottle s e.1 e.2) e.1 e.2 := by
  unfold thermDie
  rw [if_neg (by simp [hr])]
  exact if_neg h

theorem thermDie_trip {s : State} (hr : s.bup.railsOn = true) {e : Nat × Int} (h : trips e) :
    ∃ u, u.bup = s.bup ∧ thermDie s e = powerDown u s.bup.pwrEn true false := by
  obtain ⟨warm, -⟩ := thermThrottle_spec s e.1 e.2
  have warm' := warm.trans (warmed_dieFaults (thermThrottle s e.1 e.2) e.1 e.2)
  refine ⟨post (dieFaults (thermThrottle s e.1 e.2) e.1 e.2) pgPWR sevError 0x1108 0 (d0Die e.1 e.2) 0, by simp [warm'.bup], ?_⟩
  unfold thermDie
  rw [if_neg (by simp [hr])]
  refine (if_pos h).trans ?_
  change powerDown _ (dieFaults (thermThrottle s e.1 e.2) e.1 e.2).bup.pwrEn true false = _
  rw [warm'.bup]
  rfl

theorem thermDie_off {s : State} (hr : s.bup.railsOn = false) (e : Nat × Int) : thermDie s e = s := if_pos (by simp [hr])

/-! ## The photonic die (R314) -/

/-- Safe power leaves no laser at full (R314). -/
theorem allSafe_dark (s : State) (l : Nat) : (getLane (allSafe s) l).laser ≠ .full := by
  obtain h | he := tget_eq_default_or_mem Lane.reset (allSafe s).lanes l
  · rw [getLane, h]
    decide
  · obtain ⟨e', -, h⟩ := List.mem_map.1 (List.mem_filter.1 he).1
    rw [getLane, show tget Lane.reset (allSafe s).lanes l = _ from (congrArg Prod.snd h).symm]
    dsimp only
    split
    · exact fun hf => by cases hf
    · assumption

/-- A notice of the photonic die's: an entry and the page's signal. -/
def photonicNotice (s : State) (sev : Nat) (x : Int) : State := raiseInt (post s pgOPT sev 0x0D08 0 0 (iWord x)) pgOPT 1

theorem photonicNotice_spec (s : State) (sev : Nat) (x : Int) :
    FaultsOnly s (photonicNotice s sev x) ∧ (photonicNotice s sev x).bup = s.bup ∧
    (photonicNotice s sev x).pwr = s.pwr ∧ (photonicNotice s sev x).opt = s.opt :=
  ⟨(faultsOnly_post_of_ne s _ _ _ _ _ (by decide)).trans (faultsOnly_raiseInt _ 1 (by decide)),
    by simp [photonicNotice], by simp [photonicNotice], by simp [photonicNotice]⟩

/-- What the photonic die's temperature leads to above 80 degrees (R314). -/
def photonicSafe (s : State) (x : Int) : State :=
  if 800 < x ∧ ¬ s.opt.hot then
    let s := photonicNotice s sevError x
    { allSafe s with opt := { (allSafe s).opt with hot := true } }
  else if 800 < x then allSafe s else s

theorem photonicSafe_spec (s : State) (x : Int) :
    FaultsOnly s (photonicSafe s x) ∧ (photonicSafe s x).bup = s.bup ∧ (photonicSafe s x).pwr = s.pwr ∧
    (photonicSafe s x).opt.temp = s.opt.temp ∧
    (800 < x → (photonicSafe s x).opt.hot = true ∧ ∀ l, (getLane (photonicSafe s x) l).laser ≠ .full) := by
  have safe (s : State) : FaultsOnly s (allSafe s) := .of_eq rfl rfl
  have kept (s : State) : (allSafe s).opt = s.opt := rfl
  unfold photonicSafe
  split
  · obtain ⟨faults, bup, pwr, opt⟩ := photonicNotice_spec s sevError x
    exact ⟨(faults.trans (safe _)).trans (.of_eq rfl rfl), bup, pwr, (congrArg (fun o : Optics => o.temp) opt :),
      fun _ => ⟨rfl, allSafe_dark _⟩⟩
  · next h =>
    split
    · next high => exact ⟨safe _, rfl, rfl, rfl, fun _ => ⟨by simpa [high, kept] using h, allSafe_dark _⟩⟩
    · next low => exact ⟨.refl s, rfl, rfl, rfl, fun high => absurd high low⟩

/-- The photonic die's reading: its temperature, and safe power above 80 degrees (R314). -/
theorem thermPhotonic_spec (s : State) (x : Int) :
    FaultsOnly s (thermPhotonic s x) ∧ (thermPhotonic s x).bup = s.bup ∧ (thermPhotonic s x).pwr = s.pwr ∧
    (thermPhotonic s x).opt.temp = x ∧
    (800 < x → (thermPhotonic s x).opt.hot = true ∧ ∀ l, (getLane (thermPhotonic s x) l).laser ≠ .full) := by
  have set (s : State) (o : Optics) : FaultsOnly s { s with opt := o } := .of_eq rfl rfl
  obtain ⟨u, run, jobs, bup, pwr, temp⟩ : ∃ u : State, thermPhotonic s x = photonicSafe u x ∧
      FaultsOnly s u ∧ u.bup = s.bup ∧ u.pwr = s.pwr ∧ u.opt.temp = x := by
    have warned (o : Optics) (o' : Optics) (ho : o'.temp = x) :
        FaultsOnly s { photonicNotice { s with opt := o } sevWarning x with opt := o' } ∧
        (photonicNotice { s with opt := o } sevWarning x).bup = s.bup ∧
        (photonicNotice { s with opt := o } sevWarning x).pwr = s.pwr ∧ o'.temp = x := by
      obtain ⟨faults, bup, pwr, -⟩ := photonicNotice_spec { s with opt := o } sevWarning x
      exact ⟨((set s o).trans faults).trans (set _ _), bup, pwr, ho⟩
    unfold thermPhotonic
    dsimp only
    split
    · split
      · exact ⟨_, rfl, set _ _, rfl, rfl, rfl⟩
      · exact ⟨_, rfl, warned _ _ rfl⟩
    · exact ⟨_, rfl, set _ _, rfl, rfl, rfl⟩
  obtain ⟨faults, bup', pwr', temp', hot⟩ := photonicSafe_spec u x
  rw [run]
  exact ⟨jobs.trans faults, bup'.trans bup, pwr'.trans pwr, temp'.trans temp, hot⟩

/-! ## THERMAL_SAMPLE -/

/-- The hottest reading of a die: quadrants, hub, stacks (R411). -/
def dieTemp (r : ThermalReading) (i : Nat) : Int :=
  if i < 4 then maxInt 0 (r.quads.getD i []) else if i = 4 then maxInt 0 r.hub else r.hbm.getD (i - 5) 0

/-- The state once the readings of quadrants, hub and stacks stand where software reads them (R411). -/
def readingsShown (s : State) (r : ThermalReading) : State :=
  let s := ((List.range 4).map (fun q => (q, maxInt 0 (r.quads.getD q [])))).foldl
    (fun s e => setReg s (at' pgPWR (0x120 + 4 * e.1)) (BitVec.ofNat 32 (i16 e.2))) s
  let s := setReg s (at' pgPWR 0x130) (BitVec.ofNat 32 (i16 (maxInt 0 r.hub)))
  { s with pwr := { s.pwr with
    hbmT := ((List.range 12).map (fun i => (5 + i, r.hbm.getD i 0))).foldl (fun t e => tput 0 t (e.1 - 5) e.2) s.pwr.hbmT } }

theorem faultsOnly_readingsShown (s : State) (r : ThermalReading) : FaultsOnly s (readingsShown s r) := by
  have one (s : State) (o : Nat) (v : W32) (ho : o < 0x1000) : FaultsOnly s (setReg s (at' pgPWR o) v) :=
    .of_regsKept rfl (regsKept_setReg s _ _) (by simpa using notImgAddr_of_ne (by decide) ho)
  have quads : FaultsOnly s (((List.range 4).map (fun q => (q, maxInt 0 (r.quads.getD q [])))).foldl
      (fun s e => setReg s (at' pgPWR (0x120 + 4 * e.1)) (BitVec.ofNat 32 (i16 e.2))) s) := by
    refine foldl_rel .refl .trans (fun e he s => one s _ _ ?_) s
    obtain ⟨q, hq, rfl⟩ := List.mem_map.1 he
    have := List.mem_range.1 hq
    dsimp only
    omega
  exact (quads.trans (one _ 0x130 (BitVec.ofNat 32 (i16 (maxInt 0 r.hub))) (by decide))).trans (.of_eq rfl rfl)

/-- The state once the photonic die's reading has acted, too. -/
def readingsTaken (s : State) (r : ThermalReading) : State := thermPhotonic (readingsShown s r) (maxInt 0 r.photonic)

theorem exec_thermalSample {s : State} (hr : s.bup.railsOn = true) (r : ThermalReading) :
    exec (.thermalSample r) s =
      .next ((List.range 17).foldl (fun s i => thermDie s (i, dieTemp r i)) (readingsTaken s r)) := by
  have dies : ((List.range 4).map (fun q => (q, maxInt 0 (r.quads.getD q [])))) ++ [(4, maxInt 0 r.hub)] ++
      ((List.range 12).map (fun i => (5 + i, r.hbm.getD i 0))) = (List.range 17).map (fun i => (i, dieTemp r i)) := rfl
  have run : exec (.thermalSample r) s = .next ((((List.range 4).map (fun q => (q, maxInt 0 (r.quads.getD q [])))) ++
      [(4, maxInt 0 r.hub)] ++ ((List.range 12).map (fun i => (5 + i, r.hbm.getD i 0)))).foldl thermDie (readingsTaken s r)) :=
    congrArg Host.Outcome.next (if_neg (by simp [hr]))
  rw [run, dies, List.foldl_map]

theorem readingsTaken_spec (s : State) (r : ThermalReading) :
    FaultsOnly s (readingsTaken s r) ∧ (readingsTaken s r).bup = s.bup ∧ (readingsTaken s r).opt.temp = maxInt 0 r.photonic ∧
    (∀ i, inThrottle (readingsTaken s r) i = inThrottle s i) ∧
    (800 < maxInt 0 r.photonic → (readingsTaken s r).opt.hot = true ∧ ∀ l, (getLane (readingsTaken s r) l).laser ≠ .full) := by
  obtain ⟨faults, bup, pwr, temp, hot⟩ := thermPhotonic_spec (readingsShown s r) (maxInt 0 r.photonic)
  exact ⟨(faultsOnly_readingsShown s r).trans faults, bup, temp,
    fun i => (congrArg (fun p : Power => bit p.thr i) pwr :), hot⟩

theorem dieFaults_pwr (s : State) (i : Nat) (x : Int) : (dieFaults s i x).pwr = s.pwr := by
  unfold dieFaults
  split
  · exact foldl_keeps (fun _ _ s => by simp [dieFault]) s
  · rfl

/-- One die's reading in a powered module where no die trips: faults at most, and its own throttle. -/
theorem thermDie_spec {s : State} (hr : s.bup.railsOn = true) (i : Nat) (x : Int) (h : ¬ trips (i, x)) :
    Warmed s (thermDie s (i, x)) ∧ ∀ k < 17, inThrottle (thermDie s (i, x)) k =
      (inThrottle s k || (decide (k = i) && decide (throttleAt i ≤ x))) := by
  obtain ⟨warm, thr⟩ := thermThrottle_spec s i x
  rw [thermDie_on hr _ h]
  refine ⟨warm.trans (warmed_dieFaults _ i x), fun k hk => .trans ?_ (thr k hk)⟩
  exact congrArg (fun p : Power => bit p.thr k) (dieFaults_pwr _ i x)

/-- The readings of all dies, the steps around one die's reading named (`u` is the state it meets). -/
theorem thermDies_around {r : ThermalReading} (h : ∀ i < 5, dieTemp r i < 1150) {s : State} (hr : s.bup.railsOn = true)
    {i : Nat} (hi : i < 17) : ∃ u, u.bup.railsOn = true ∧ Warmed s u ∧ inThrottle u i = inThrottle s i ∧
      Warmed (thermDie u (i, dieTemp r i)) ((List.range 17).foldl (fun s i => thermDie s (i, dieTemp r i)) s) ∧
      inThrottle ((List.range 17).foldl (fun s i => thermDie s (i, dieTemp r i)) s) i =
        inThrottle (thermDie u (i, dieTemp r i)) i := by
  have cold (b : Nat) : ¬ trips (b, dieTemp r b) := fun ⟨hb, hx⟩ => absurd (h b hb) (not_lt.2 hx)
  obtain ⟨u, before, after⟩ := foldl_around
    (R := fun s t : State => s.bup.railsOn = true → Warmed s t ∧ inThrottle t i = inThrottle s i)
    (fun s _ => ⟨.refl s, rfl⟩)
    (fun h k hr => ⟨(h hr).1.trans (k ((congrArg Bringup.railsOn (h hr).1.bup).trans hr)).1,
      (k ((congrArg Bringup.railsOn (h hr).1.bup).trans hr)).2.trans (h hr).2⟩)
    (f := fun s i => thermDie s (i, dieTemp r i)) List.nodup_range (List.mem_range.2 hi)
    (fun b _ hb s hr => by
      obtain ⟨warm, thr⟩ := thermDie_spec hr b (dieTemp r b) (cold b)
      exact ⟨warm, (thr i hi).trans (by simp [Ne.symm hb])⟩) s
  obtain ⟨warm, thr⟩ := before hr
  have on : u.bup.railsOn = true := (congrArg Bringup.railsOn warm.bup).trans hr
  obtain ⟨warm', thr'⟩ := after ((congrArg Bringup.railsOn (thermDie_spec on i (dieTemp r i) (cold i)).1.bup).trans on)
  exact ⟨u, on, warm, thr, warm', thr'⟩

/-- After the readings of a module where none trips, each die's has had its effects (R411, R412). -/
theorem thermDies_spec {r : ThermalReading} (h : ∀ i < 5, dieTemp r i < 1150) {s : State} (hr : s.bup.railsOn = true) :
    let t := (List.range 17).foldl (fun s i => thermDie s (i, dieTemp r i)) s
    Warmed s t ∧
    (∀ i < 17, inThrottle t i = (inThrottle s i || decide (throttleAt i ≤ dieTemp r i))) ∧
    (∀ q j, q < 4 → 1100 ≤ dieTemp r q → residentOn s q = some j ∨ (getJob s j).st = .faulted → (getJob t j).st = .faulted) ∧
    (1100 ≤ dieTemp r 4 → ∀ j < 4, resident (getJob t j).st = false) := by
  have cold (b : Nat) : ¬ trips (b, dieTemp r b) := fun ⟨hb, hx⟩ => absurd (h b hb) (not_lt.2 hx)
  refine ⟨?_, fun i hi => ?_, fun q j hq hx hj => ?_, fun hx j hj => ?_⟩
  · obtain ⟨u, on, warm, -, after, -⟩ := thermDies_around h hr (i := 0) (by decide)
    exact (warm.trans (thermDie_spec on _ _ (cold 0)).1).trans after
  · obtain ⟨u, on, -, thr, -, after⟩ := thermDies_around h hr hi
    rw [after, (thermDie_spec on i _ (cold i)).2 i hi, thr]
    simp
  · obtain ⟨u, on, before, -, after, -⟩ := thermDies_around h hr (i := q) (by omega)
    refine after.faults.faulted ?_
    rw [thermDie_on on _ (cold q)]
    have met := before.faults.trans (thermThrottle_spec u q (dieTemp r q)).1.faults
    have here : residentOn (thermThrottle u q (dieTemp r q)) q = some j ∨
        (getJob (thermThrottle u q (dieTemp r q)) j).st = .faulted :=
      hj.elim (fun hr => (met.residentOn_or_faulted hr).symm) fun hf => .inr (met.faulted hf)
    exact here.elim (dieFaults_quadrant hq hx) (warmed_dieFaults _ q _).faults.faulted
  · obtain ⟨u, on, -, -, after, -⟩ := thermDies_around h hr (i := 4) (by decide)
    rcases after.faults.jobs j with hf | ⟨hst, -⟩
    · rw [hf]; rfl
    · rw [hst, thermDie_on on _ (cold 4)]
      exact dieFaults_hub hx hj

/-- A trip has shut the module down (R413). -/
structure Tripped (en : Bool) (t : State) : Prop where
  rails : t.bup.railsOn = false
  shut  : t.pwr.shut = true
  tripN : t.pwr.tripN = false
  pwrEn : t.bup.pwrEn = en

/-- The die that trips shuts the module down, whatever the readings before it led to (R413). -/
theorem thermDies_trip {r : ThermalReading} {i : Nat} (hi : i < 5) (hx : 1150 ≤ dieTemp r i) {s : State}
    (hr : s.bup.railsOn = true) :
    Tripped s.bup.pwrEn ((List.range 17).foldl (fun s i => thermDie s (i, dieTemp r i)) s) := by
  let onOr (en : Bool) (t : State) : Prop := t.bup.railsOn = true ∧ t.bup.pwrEn = en ∨ Tripped en t
  have off {en : Bool} {t : State} (h : Tripped en t) (e : Nat × Int) : thermDie t e = t := thermDie_off h.rails e
  have trip {t : State} (hr : t.bup.railsOn = true) {e : Nat × Int} (he : trips e) : Tripped t.bup.pwrEn (thermDie t e) := by
    obtain ⟨u, hu, run⟩ := thermDie_trip hr he
    rw [run]
    exact ⟨rfl, rfl, rfl, rfl⟩
  have one {en : Bool} {t : State} (h : onOr en t) (e : Nat × Int) : onOr en (thermDie t e) := by
    obtain ⟨hr, rfl⟩ | h := h
    · by_cases he : trips e
      · exact .inr (trip hr he)
      · have warm := (thermDie_spec hr e.1 e.2 he).1
        exact .inl ⟨(congrArg Bringup.railsOn warm.bup).trans hr, congrArg Bringup.pwrEn warm.bup⟩
    · rw [off h]
      exact .inr h
  obtain ⟨u, before, after⟩ := foldl_around
    (R := fun s t : State => ∀ en, (onOr en s → onOr en t) ∧ (Tripped en s → Tripped en t))
    (fun s _ => ⟨id, id⟩) (fun h k en => ⟨(k en).1 ∘ (h en).1, (k en).2 ∘ (h en).2⟩)
    (f := fun s i => thermDie s (i, dieTemp r i)) List.nodup_range (List.mem_range.2 (show i < 17 by omega))
    (fun b _ _ s en => ⟨fun h => one h _, fun h => by rw [off h]; exact h⟩) s
  refine (after _).2 ?_
  obtain ⟨hr', hen⟩ | h := (before s.bup.pwrEn).1 (.inl ⟨hr, rfl⟩)
  · rw [← hen]
    exact trip hr' ⟨hi, hx⟩
  · rw [off h]
    exact h

/-- THERMAL_SAMPLE (R314, R411 to R413). -/
theorem exec_thermalSample_spec {s : State} (hr : s.bup.railsOn = true) (r : ThermalReading) :
    ((∀ i < 5, dieTemp r i < 1150) → ∃ t, exec (.thermalSample r) s = .next t ∧ t.bup.railsOn = true ∧
      t.opt.temp = maxInt 0 r.photonic ∧
      (∀ i < 17, throttleAt i ≤ dieTemp r i → inThrottle t i = true) ∧
      (∀ i < 17, dieTemp r i < throttleAt i → inThrottle t i = inThrottle s i) ∧
      (∀ q j, q < 4 → 1100 ≤ dieTemp r q → residentOn s q = some j → (getJob t j).st = .faulted) ∧
      (1100 ≤ dieTemp r 4 → ∀ j < 4, resident (getJob t j).st = false) ∧
      (800 < maxInt 0 r.photonic → t.opt.hot = true ∧ ∀ l, (getLane t l).laser ≠ .full)) ∧
    ((∃ i < 5, 1150 ≤ dieTemp r i) → ∃ t, exec (.thermalSample r) s = .next t ∧ Tripped s.bup.pwrEn t) := by
  obtain ⟨faults, bup, temp, thr, hot⟩ := readingsTaken_spec s r
  have on : (readingsTaken s r).bup.railsOn = true := (congrArg Bringup.railsOn bup).trans hr
  refine ⟨fun cold => ?_, fun ⟨i, hi, hx⟩ => ⟨_, exec_thermalSample hr r, ?_⟩⟩
  · obtain ⟨warm, thr', quads, hub⟩ := thermDies_spec cold on
    refine ⟨_, exec_thermalSample hr r, (congrArg Bringup.railsOn warm.bup).trans on, (congrArg Optics.temp warm.opt).trans temp,
      fun i hi hx => (thr' i hi).trans (by simp [hx]), fun i hi hx => (thr' i hi).trans (by simp [thr, not_le.2 hx]),
      fun q j hq hx hj => quads q j hq hx ((faults.residentOn_or_faulted hj).symm), hub, fun high => ?_⟩
    obtain ⟨isHot, dark⟩ := hot high
    exact ⟨(congrArg Optics.hot warm.opt).trans isHot,
      fun l => by rw [show getLane _ l = _ from congrArg (tget Lane.reset · l) warm.lanes]; exact dark l⟩
  · rw [← bup]
    exact thermDies_trip hi hx on

/-! ## Throttle's end and the coolant (R412, R415) -/

/-- THROTTLE_END: the die leaves throttle once it has been cool for 100 ms, and no other does. -/
theorem exec_throttleEnd_spec {i : Fin 17} {x : Nat} {s : State} (hc : tget none s.pwr.coolAt i = some x)
    (hi : inThrottle s i = true) :
    (x + 600000000 ≤ s.clk.dst → ∃ t, exec (.throttleEnd i) s = .next t ∧ inThrottle t i = false ∧
      (∀ k, k < 17 → k ≠ i.val → inThrottle t k = inThrottle s k) ∧ t = { s with pwr := { s.pwr with thr := t.pwr.thr } }) ∧
    (s.clk.dst < x + 600000000 → exec (.throttleEnd i) s = .next s) := by
  have run : exec (.throttleEnd i) s = .next (if inThrottle s i ∧ x + 600000000 ≤ s.clk.dst then
      { s with pwr := { s.pwr with thr := s.pwr.thr &&& ~~~ BitVec.ofNat 17 (2 ^ i.val) } } else s) := by
    change Host.Outcome.next (match tget none s.pwr.coolAt i.val with | some t => _ | none => _) = _
    rw [hc]
    rfl
  refine ⟨fun hx => ⟨_, run.trans (congrArg Host.Outcome.next (if_pos ⟨hi, hx⟩)), ?_, fun k hk hne => ?_, rfl⟩,
    fun hx => run.trans (congrArg Host.Outcome.next (if_neg fun h => absurd h.2 (by omega)))⟩
  · exact (bit_andNot_twoPow _ i.isLt).trans (by simp)
  · exact (bit_andNot_twoPow _ hk).trans (by simp [hne, inThrottle])

/-- COOLANT_SAMPLE: a rise of at most 18 K clears the flow's warning, a longer one writes it once. -/
theorem exec_coolantSample_spec {s : State} (hr : s.bup.railsOn = true) (a b : Int) :
    (b - a ≤ 180 → ∃ t, exec (.coolantSample a b) s = .next t ∧ t.pwr = { s.pwr with flowAt := none, flowSaid := false } ∧
      RegsKept s t [at' pgPWR 0x140] ∧ t.ldg = s.ldg) ∧
    (∀ x, 180 < b - a → s.pwr.flowAt = some x → x + 6000000000 ≤ s.clk.dst → s.pwr.flowSaid = false →
      ∃ t, exec (.coolantSample a b) s = .next t ∧ Logged s t pgPWR 1 0x1105 0 0 0 ∧
        t.pwr = { s.pwr with flowSaid := true }) := by
  let u := setReg s (at' pgPWR 0x140) (BitVec.ofNat 32 (i16 a + i16 b * 65536))
  have on : ¬ ((!s.bup.railsOn) = true) := by simp [hr]
  refine ⟨fun h => ⟨{ u with pwr := { u.pwr with flowAt := none, flowSaid := false } },
      congrArg Host.Outcome.next ((if_neg on).trans (if_pos h)), rfl, regsKept_setReg s _ _, rfl⟩,
    fun x h hf hx said => ?_⟩
  have due : x + 6000000000 ≤ u.clk.dst ∧ ¬ (u.pwr.flowSaid = true) := ⟨hx, by simp [u, said]⟩
  have run : exec (.coolantSample a b) s = .next { post u pgPWR sevWarning 0x1105 0 0 0 with
      pwr := { (post u pgPWR sevWarning 0x1105 0 0 0).pwr with flowSaid := true } } := by
    refine congrArg Host.Outcome.next ((if_neg on).trans ((if_neg (by omega)).trans ?_))
    change (match u.pwr.flowAt with | none => _ | some t => _) = _
    rw [show u.pwr.flowAt = some x from hf]
    exact if_pos due
  exact ⟨_, run, post_logged u pgPWR sevWarning 0x1105 0 0 0, by simp [u]⟩

/-- Settles O55: one lemma per command; the readings of the dies are a walk over them in which each die's own step is met
in a state that the others have at most faulted jobs of. -/
theorem powerAndClocks : Obligations.PowerAndClocks := by
  refine ⟨fun v s hs => exec_clkSrcWrite_spec hs v, fun v s hs => exec_start_stop_spec hs v,
    fun n s hr hs => exec_fcMeasureDone_spec n hr hs, exec_stoppedClock_spec, fun cv s hr h => exec_pwrUv_spec hr h,
    fun cv s => ⟨fun hr h => ?_, fun hr lo hi => ?_, ?_⟩, fun r s hr => exec_powerSample_spec hr r,
    fun r s hr => ?_, fun i x s hc hi => exec_throttleEnd_spec hc hi, fun a b s hr => exec_coolantSample_spec hr a b⟩
  · obtain ⟨lost, en, shut, -⟩ := powerDown_spec s s.bup.pwrEn true s.pwr.tripN
    exact ⟨_, congrArg Host.Outcome.next (if_pos ⟨hr, h⟩), lost, en, shut⟩
  · exact congrArg Host.Outcome.next (if_neg fun h => absurd h.2 (by omega))
  · obtain ⟨lost, en, -, trip⟩ := powerDown_spec s false false true
    exact ⟨_, rfl, lost, en, trip⟩
  · obtain ⟨cold, hot⟩ := exec_thermalSample_spec hr r
    refine ⟨cold, fun h => ?_⟩
    obtain ⟨t, run, trip⟩ := hot h
    exact ⟨t, run, trip.rails, trip.shut, trip.tripN, trip.pwrEn⟩

end Sys2Proof
end

section
/-! PROOFS. Custody's staging and confirming (R355 to R361, R374, R434): the obligation O52. -/

namespace Sys2Proof

open Sys2Proof.Machine

/-! ## The way in (R357, R434) -/

/-- The state in which custody takes a command of the party: while a command of the BMC's runs its endpoint is busy. -/
def cusIn (s : State) (p : Party) : State :=
  match p with
  | .host => s
  | .bmc => { s with mgt := { s.mgt with busy := true } }

theorem cusIn_eq (s : State) (p : Party) : cusIn s p = { s with mgt := { s.mgt with busy := (cusIn s p).mgt.busy } } := by
  cases p <;> rfl

theorem hostWrite_cus {s : State} (h : CusOpen s .host) (f : State → State) : hostWrite s pgCUS 0x360 f = f (cusIn s .host) :=
  hostWrite_served (by simpa [CusOpen] using h) _ _

theorem vendor_cus {s : State} (h : CusOpen s .bmc) (cmd : Nat) (f : State → State) :
    vendor s cmd f = f (cusIn s .bmc) := by
  obtain ⟨ha, hb, hp⟩ : mgtAddressed s = true ∧ s.mgt.busy = false ∧ pageLive s pgCUS = true := by simpa [CusOpen] using h
  simp [vendor, ha, hb, hp, cusIn]

theorem exec_stage_run {s : State} (via : CusVia) :
    let p := match via with | .host => Party.host | .bmc _ _ => .bmc
    let w := match via with | .host => stagedWord s | .bmc rec _ => rec
    let sig := match via with | .host => stagedSig s | .bmc _ sig => sig
    CusOpen s p → exec (.stage via) s = .next (stageIssue (cusIn s p) p w sig) := by
  cases via with
  | host => exact fun h => congrArg Host.Outcome.next (hostWrite_cus h _)
  | bmc rec sig => exact fun h => congrArg Host.Outcome.next (vendor_cus h 1 _)

theorem exec_confirm_host {s : State} (rec : BitVec 2048) (sig : BitVec 768) (h : CusOpen s .host) :
    exec (.confirm .host rec sig) s = .next (confirmVerify (cusIn s .host) .host (stagedWord s) (stagedSig s)) :=
  congrArg Host.Outcome.next (hostWrite_cus h _)

theorem exec_confirm_bmc {s : State} (rec : BitVec 2048) (sig : BitVec 768) (h : CusOpen s .bmc) :
    exec (.confirm .bmc rec sig) s = .next (confirmVerify (cusIn s .bmc) .bmc rec sig) :=
  congrArg Host.Outcome.next (vendor_cus h 2 _)

theorem exec_cancel_run {s : State} (p : Party) (h : CusOpen s p) : exec (.cancel p) s = .next (cancelBy (cusIn s p) p) := by
  cases p with
  | host => exact congrArg Host.Outcome.next (hostWrite_cus h _)
  | bmc => exact congrArg Host.Outcome.next (vendor_cus h 3 _)

/-! ## Results (R358, R374) -/

theorem answer_touches (s : State) (p : Party) (cmd : Nat) :
    ∃ m o, answer s p cmd = { s with mgt := m, out := o } := by cases p <;> exact ⟨_, _, rfl⟩

/-- An entry is the same one where Ledger and clock are. -/
theorem Logged.before {s s' t : State} {src sev code : Nat} {acc : BitVec 12} {d0 d1 : W32}
    (h : Logged s t src sev code acc d0 d1) (hl : s'.ldg = s.ldg) (hc : s'.clk = s.clk) :
    Logged s' t src sev code acc d0 d1 := by
  simpa only [Logged, entryNow, hl, hc] using h

/-- A request of a party ended with result `r` (R358, R374). -/
structure CusEnded (s t : State) (p : Party) (w : BitVec 2048) (r : Nat) : Prop where
  cus    : t.cus = { s.cus with result := r, badRun := if r = rBadsig then s.cus.badRun + 1 else 0 }
  raised : bit (reg t (at' pgCUS 0x10)) 0 = true
  silent : [rStaged, rCommitted, rExpired, rCancelled].contains r = true → t.ldg = s.ldg
  told   : [rStaged, rCommitted, rExpired, rCancelled].contains r = false →
    Logged s t pgCUS 1 0x0F02 (BitVec.ofNat 12 (recAcc w)) (d0Cus w) (d1Cus r p)
  regs   : RegsKept s t [at' pgCUS 0x10, at' pgLDG 0x10C]
  frame  : t = { s with cus := t.cus, regs := t.regs, ldg := t.ldg, out := t.out, mgt := t.mgt }

theorem cusEnd_spec (s : State) (p : Party) (cmd : Nat) (w : BitVec 2048) (r : Nat) :
    CusEnded s (cusEnd s p cmd w r) p w r := by
  let c : Custody := { s.cus with result := r, badRun := if r = rBadsig then s.cus.badRun + 1 else 0 }
  let u := raiseInt { s with cus := c } pgCUS 0
  let v := if [rStaged, rCommitted, rExpired, rCancelled].contains r then u else cusPost u sevWarning 0x0F02 w r p
  obtain ⟨m, o, ends⟩ : ∃ m o, cusEnd s p cmd w r = { v with mgt := m, out := o } := answer_touches v p cmd
  obtain ⟨bits, kept⟩ := raiseInt_spec { s with cus := c } pgCUS 0
  obtain ⟨r1, o1, hu⟩ : ∃ r o, u = { s with cus := c, regs := r, out := o } := raiseInt_touches { s with cus := c } pgCUS 0
  have raised : bit (reg u (at' pgCUS 0x10)) 0 = true := (bits 0 (by decide)).trans (by simp)
  have keptU : RegsKept s u [at' pgCUS 0x10, at' pgLDG 0x10C] := kept.mono (by simp)
  rw [ends]
  cases hr : [rStaged, rCommitted, rExpired, rCancelled].contains r with
  | true =>
    have hv : v = u := if_pos hr
    rw [hv]
    refine ⟨by rw [hu], raised, fun _ => by rw [hu], fun h => absurd (hr.symm.trans h) (by decide), keptU, ?_⟩
    rw [hu]
  | false =>
    have hv : v = cusPost u sevWarning 0x0F02 w r p := if_neg (by rw [hr]; exact Bool.false_ne_true)
    obtain ⟨l, r2, hp⟩ := post_touches u pgCUS sevWarning 0x0F02 (BitVec.ofNat 12 (recAcc w)) (d0Cus w) (d1Cus r p)
    have posted : RegsKept u v [at' pgLDG 0x10C] := by
      rw [hv]
      exact post_regs u pgCUS sevWarning 0x0F02 _ _ _
    refine ⟨?_, (congrArg (bit · 0) (posted _ (by decide))).trans raised, fun h => absurd (hr.symm.trans h) (by decide),
      fun _ => ?_, (keptU.trans posted).mono (by simp), ?_⟩
    · rw [hv, cusPost, hp, hu]
    · rw [hv]
      exact (post_logged u pgCUS sevWarning 0x0F02 _ _ _).before (by rw [hu]) (by rw [hu])
    · rw [hv, cusPost, hp, hu]

/-- A result that is not of a bad signature ends the run of bad ones. -/
theorem CusEnded.cus_of_ne {s t : State} {p : Party} {w : BitVec 2048} {r : Nat} (h : CusEnded s t p w r) (hr : r ≠ rBadsig) :
    t.cus = { s.cus with result := r, badRun := 0 } := by rw [h.cus, if_neg hr]

/-- A bad signature (R358, R359): counted, and the third in a row locks custody. -/
theorem cusBadsig_spec (s : State) (p : Party) (cmd : Nat) (w : BitVec 2048) :
    reg (cusBadsig s p cmd w) (at' pgCUS 0x110) = satAdd (reg s (at' pgCUS 0x110)) 1 ∧
    (s.cus.badRun < 2 → (cusBadsig s p cmd w).cus = { s.cus with result := 3, badRun := s.cus.badRun + 1 }) ∧
    (2 ≤ s.cus.badRun → (cusBadsig s p cmd w).cus = { s.cus with
      result := 3, badRun := 0, lockAt := some (s.clk.dst + 360000000000), busy := false, commit := none, pend := 0
      dline := 0 }) := by
  let u := cusEnd (bump s (at' pgCUS 0x110) 1) p cmd w rBadsig
  have ended : CusEnded (bump s (at' pgCUS 0x110) 1) u p w rBadsig := cusEnd_spec _ p cmd w rBadsig
  have counted : reg u (at' pgCUS 0x110) = satAdd (reg s (at' pgCUS 0x110)) 1 :=
    (ended.regs _ (by decide)).trans (reg_bump s _ 1)
  have cus : u.cus = { s.cus with result := 3, badRun := s.cus.badRun + 1 } := by
    rw [ended.cus]
    simp [rBadsig]
  by_cases h : s.cus.badRun < 2
  · have run : cusBadsig s p cmd w = u := if_pos (by rw [cus]; dsimp only; omega)
    rw [run]
    exact ⟨counted, fun _ => cus, fun h' => absurd h (by omega)⟩
  · let v : State := { cusDiscard u with cus := { (cusDiscard u).cus with
      badRun := 0, lockAt := some (u.clk.dst + 60000 * msTicks) } }
    have run : cusBadsig s p cmd w = cusPost v sevError 0x0F04 w rBadsig p := if_neg (by rw [cus]; dsimp only; omega)
    have clk : u.clk = s.clk := by rw [ended.frame]; simp
    rw [run]
    refine ⟨(post_regs v pgCUS sevError 0x0F04 _ _ _ _ (by decide)).trans counted, fun h' => absurd h' h, fun _ => ?_⟩
    have kept : (cusPost v sevError 0x0F04 w rBadsig p).cus = v.cus := by simp [cusPost]
    rw [kept]
    simp only [v, cusDiscard, cus, clk]
    rfl

/-! ## Staging (R356, R357) -/

theorem exec_stageVerified_run {r : CusReq} {pre post : List CusReq} {s : State} (hv : s.cus.verify = pre ++ r :: post)
    (hpre : ∀ x ∈ pre, ¬ (x.party = r.party ∧ x.word = r.word)) :
    exec (.stageVerified r.party r.word) s =
      .next (stageVerify { s with cus := { s.cus with verify := pre ++ post } } r.party r.word r.sig) := by
  have found : findIdx? (fun x => decide (x.party = r.party) && decide (x.word = r.word)) s.cus.verify 0 =
      some (pre.length, r) := by
    rw [hv, findIdx?_append (fun x hx => by simpa using hpre x hx) (by simp)]
    simp
  have run : exec (.stageVerified r.party r.word) s = execStageVerified r.party r.word s := rfl
  rw [run, execStageVerified, found, hv]
  dsimp only
  rw [removeAt_append]

section
variable {s : State} {p : Party} {w : BitVec 2048} {sig : BitVec 768}
  (lock : s.cus.lockAt = none) (tie : stageTie s p = false)
include lock tie

omit tie in
theorem stageVerify_bad (h : sigOk s (partyBit p) 0x53 w sig = false) : stageVerify s p w sig = cusBadsig s p 1 w :=
  (if_neg (by simp [lock])).trans (if_pos (by rw [h]; rfl))

omit tie in
theorem stageVerify_unfit (h : sigOk s (partyBit p) 0x53 w sig = true) (hf : (recFormat w && accOk s w) = false) :
    stageVerify s p w sig = cusEnd s p 1 w rFormat :=
  (if_neg (by simp [lock])).trans ((if_neg (by rw [h]; decide)).trans (if_pos (by
    rw [← Bool.not_and, hf]
    rfl)))

theorem stageVerify_fit (h : sigOk s (partyBit p) 0x53 w sig = true) (hf : (recFormat w && accOk s w) = true) :
    stageVerify s p w sig = if recNonce w ≠ s.cus.nonce.toNat then cusEnd s p 1 w rNonce
      else if s.cus.busy then cusEnd s p 1 w rBusy else stageKeep s p w (s.cus.nonce + 1) := by
  obtain ⟨format, acc⟩ := Bool.and_eq_true_iff.1 hf
  have small : s.cus.nonce.toNat % 2 ^ 32 = s.cus.nonce.toNat := Nat.mod_eq_of_lt s.cus.nonce.isLt
  have checked : stageVerify s p w sig = _ := (if_neg (by simp [lock])).trans ((if_neg (by rw [h]; decide)).trans
    (if_neg (by rw [format, acc]; decide)))
  rw [checked]
  simp only [tie, small, Bool.false_eq_true, if_false]

end

/-! ## Confirming (R357, R358, R361) -/

section
variable {s : State} {p : Party} {w : BitVec 2048} {sig : BitVec 768}
  (lock : s.cus.lockAt = none) (busy : s.cus.busy = true) (soon : s.clk.dst ≤ s.cus.dline)
include lock busy soon

theorem confirmVerify_bad (h : sigOk s (partyBit p) 0x43 w sig = false ∨ w ≠ s.cus.pend) :
    confirmVerify s p w sig = cusBadsig s p 2 w :=
  (if_neg (by simp [lock])).trans ((if_neg (by rw [busy]; decide)).trans ((if_neg (Nat.not_lt.2 soon)).trans
    (if_pos (h.imp_left fun h => by rw [h]; rfl))))

theorem confirmVerify_good (h : sigOk s (partyBit p) 0x43 w sig = true) (hw : w = s.cus.pend) :
    confirmVerify s p w sig =
      if p = s.cus.origin then cusEnd s p 2 w rSameparty
      else if !accOk s w then cusEnd (cusDiscard s) p 2 w rFormat
      else if !commitOk s w then cusEnd (cusDiscard s) p 2 w rRefused
      else if recOp w = 4 ∧ (unwrapKey s w).isNone then cusEnd (cusDiscard s) p 2 w rUnwrap
      else { s with cus := { s.cus with commit := some { party := p, word := w, sig := sig } } } :=
  (if_neg (by simp [lock])).trans ((if_neg (by rw [busy]; decide)).trans ((if_neg (Nat.not_lt.2 soon)).trans
    (if_neg (by rw [h]; exact not_or.2 ⟨by decide, not_not.2 hw⟩))))

end

/-- A job key is unwrapped with fuses alone (R361). -/
theorem unwrapKey_congr {s t : State} (h : t.cus.sensed = s.cus.sensed) (w : BitVec 2048) : unwrapKey t w = unwrapKey s w := by
  have fuses (r n : Nat) : fuseBytes t r n = fuseBytes s r n := by simp only [fuseBytes, senseRow, h]
  have scalar : devScalar t = devScalar s := by rw [devScalar, devScalar, fuses]
  have number : serial t = serial s := by rw [serial, serial, fuses]
  delta unwrapKey
  simp only [scalar, number]

/-- A confirm that ends with the staging discarded. -/
theorem cusEnd_discarded (s : State) (p : Party) (w : BitVec 2048) {r : Nat} (hr : r ≠ rBadsig) :
    (cusEnd (cusDiscard s) p 2 w r).cus = { s.cus with
      busy := false, commit := none, pend := 0, dline := 0, result := r, badRun := 0 } :=
  (cusEnd_spec (cusDiscard s) p 2 w r).cus_of_ne hr

/-! ## The obligation -/

theorem exec_stage_spec (via : CusVia) (s : State) :
    let p := match via with | .host => Party.host | .bmc _ _ => .bmc
    let w := match via with | .host => stagedWord s | .bmc rec _ => rec
    let sig := match via with | .host => stagedSig s | .bmc _ sig => sig
    CusOpen s p → (s.cus.lockAt = none → ∃ t, exec (.stage via) s = .next t ∧
      t.cus = { s.cus with verify := s.cus.verify ++ [CusReq.mk p w sig] } ∧
      t = { s with cus := t.cus, mgt := { s.mgt with busy := t.mgt.busy } }) ∧
    (s.cus.lockAt ≠ none → ∃ t, exec (.stage via) s = .next t ∧ t.cus = { s.cus with result := 9, badRun := 0 }) := by
  intro p w sig h
  have run := exec_stage_run via h
  have cus : (cusIn s p).cus = s.cus := by rw [cusIn_eq]
  refine ⟨fun lock => ?_, fun lock => ?_⟩
  · have issued : stageIssue (cusIn s p) p w sig =
        { cusIn s p with cus := { s.cus with verify := s.cus.verify ++ [CusReq.mk p w sig] } } := by
      unfold stageIssue
      rw [cus, lock]
      rfl
    refine ⟨_, run.trans (congrArg Host.Outcome.next issued), rfl, ?_⟩
    rw [cusIn_eq]
  · have locked : stageIssue (cusIn s p) p w sig = cusEnd (cusIn s p) p 1 w rLocked :=
      if_pos (by rw [cus]; exact Option.isSome_iff_ne_none.2 lock)
    refine ⟨_, run.trans (congrArg Host.Outcome.next locked), ?_⟩
    rw [(cusEnd_spec (cusIn s p) p 1 w rLocked).cus_of_ne (by decide), cus]
    rfl

/-- Settles O52: a record passes `stageVerify_fit`, `confirmVerify_good` and their like check by check, and ends with a
result (`cusEnd_spec`) or a bad signature's count (`cusBadsig_spec`). -/
theorem custodyStaging : Obligations.CustodyStaging := by
  refine ⟨exec_stage_spec, fun r pre post s hv hpre lock tie => ?stage, fun p rec sig s => ?confirm,
    fun p s h busy origin commit => ?cancel, fun s busy commit due => ?expire, fun x s hx h => ?lock⟩
  case stage =>
    let u : State := { s with cus := { s.cus with verify := pre ++ post } }
    have run : exec (.stageVerified r.party r.word) s = .next (stageVerify u r.party r.word r.sig) :=
      exec_stageVerified_run hv hpre
    have told {n : Nat} (h : stageVerify u r.party r.word r.sig = cusEnd u r.party 1 r.word n) (hn : n ≠ rBadsig)
        (untold : [rStaged, rCommitted, rExpired, rCancelled].contains n = false) :
        ∃ t, exec (.stageVerified r.party r.word) s = .next t ∧
          t.cus = { s.cus with verify := pre ++ post, result := n, badRun := 0 } ∧
          Logged s t pgCUS 1 0x0F02 (BitVec.ofNat 12 (recAcc r.word)) (d0Cus r.word) (d1Cus n r.party) := by
      have ended := cusEnd_spec u r.party 1 r.word n
      exact ⟨_, run.trans (congrArg Host.Outcome.next h), ended.cus_of_ne hn, (ended.told untold).before rfl rfl⟩
    have fit := fun h hf => stageVerify_fit (s := u) (p := r.party) (w := r.word) (sig := r.sig) lock tie h hf
    refine ⟨fun h hf hn hb => ?_, fun h hf hn hb => ?_, fun h hf hn => ?_, fun h hf => ?_, fun h hb => ?_, fun h hb => ?_⟩
    · have kept : stageVerify u r.party r.word r.sig = stageKeep u r.party r.word (s.cus.nonce + 1) :=
        (fit h hf).trans ((if_neg (not_not.2 hn)).trans (if_neg (by simp [u, hb])))
      have ended : CusEnded _ (stageKeep u r.party r.word (s.cus.nonce + 1)) _ _ _ := cusEnd_spec _ r.party 1 r.word rStaged
      exact ⟨_, run.trans (congrArg Host.Outcome.next kept), ended.cus_of_ne (by decide), ended.raised,
        ended.silent (by decide)⟩
    · exact told ((fit h hf).trans ((if_neg (not_not.2 hn)).trans (if_pos hb))) (by decide) (by decide)
    · exact told ((fit h hf).trans (if_pos hn)) (by decide) (by decide)
    · exact told (stageVerify_unfit lock h hf) (by decide) (by decide)
    · obtain ⟨counted, few, -⟩ := cusBadsig_spec u r.party 1 r.word
      exact ⟨_, run.trans (congrArg Host.Outcome.next (stageVerify_bad lock h)), few hb, counted⟩
    · obtain ⟨-, -, many⟩ := cusBadsig_spec u r.party 1 r.word
      have cus := many hb
      exact ⟨_, run.trans (congrArg Host.Outcome.next (stageVerify_bad lock h)), by rw [cus], by rw [cus], by rw [cus],
        by rw [cus]⟩
  case confirm =>
    intro w g cmd ends h lock busy soon
    have run : cmd = .next (confirmVerify (cusIn s p) p w g) := by
      cases p with
      | host => exact exec_confirm_host rec sig h
      | bmc => exact exec_confirm_bmc rec sig h
    have cus : (cusIn s p).cus = s.cus := by rw [cusIn_eq]
    have clk : (cusIn s p).clk = s.clk := by rw [cusIn_eq]
    have sig' (d : Byte) : sigOk (cusIn s p) (partyBit p) d w g = sigOk s (partyBit p) d w g := by rw [cusIn_eq]; rfl
    have acc : accOk (cusIn s p) w = accOk s w := by rw [cusIn_eq]; rfl
    have ok : commitOk (cusIn s p) w = commitOk s w := by rw [cusIn_eq]; rfl
    have key : unwrapKey (cusIn s p) w = unwrapKey s w := unwrapKey_congr (by rw [cus]) w
    have lock' : (cusIn s p).cus.lockAt = none := by rw [cus, lock]
    have busy' : (cusIn s p).cus.busy = true := by rw [cus, busy]
    have soon' : (cusIn s p).clk.dst ≤ (cusIn s p).cus.dline := by rw [cus, clk]; exact soon
    refine ⟨fun h hw => ?_, fun bad few => ?_⟩
    · have good := run.trans (congrArg Host.Outcome.next
        (confirmVerify_good lock' busy' soon' (p := p) ((sig' _).trans h) (by rw [cus]; exact hw)))
      simp only [acc, ok, key, cus] at good
      have discarded {n : Nat} (hn : n ≠ rBadsig) : (cusEnd (cusDiscard (cusIn s p)) p 2 w n).cus = { s.cus with
          busy := false, commit := none, pend := 0, dline := 0, result := n, badRun := 0 } := by
        rw [cusEnd_discarded _ _ _ hn, cus]
      refine ⟨fun other ha hc hk => ?_, fun own => ?_, fun other ha => ?_, fun other ha hc => ?_, fun other ha hc h4 hk => ?_⟩
      · rw [if_neg other, if_neg (by simp [ha]), if_neg (by simp [hc]),
          if_neg fun h => hk h.1 (Option.isNone_iff_eq_none.1 h.2)] at good
        refine ⟨_, good, rfl, ?_⟩
        rw [cusIn_eq]
      · rw [if_pos own] at good
        refine ⟨_, good, ?_⟩
        rw [(cusEnd_spec (cusIn s p) p 2 w rSameparty).cus_of_ne (by decide), cus]
        rfl
      · rw [if_neg other, if_pos (by simp [ha])] at good
        exact ⟨_, good, discarded (by decide)⟩
      · rw [if_neg other, if_neg (by simp [ha]), if_pos (by simp [hc])] at good
        exact ⟨_, good, discarded (by decide)⟩
      · rw [if_neg other, if_neg (by simp [ha]), if_neg (by simp [hc]), if_pos ⟨h4, by simp [hk]⟩] at good
        exact ⟨_, good, discarded (by decide)⟩
    · have bad' := confirmVerify_bad lock' busy' soon' (p := p) (w := w) (sig := g)
        (bad.imp (sig' _).trans fun h => by rw [cus]; exact h)
      obtain ⟨counted, few', -⟩ := cusBadsig_spec (cusIn s p) p 2 w
      refine ⟨_, run.trans (congrArg Host.Outcome.next bad'), ?_, ?_⟩
      · rw [few' (by rw [cus]; exact few), cus]
      · rw [counted]
        exact congrArg (satAdd · 1) (reg_congr (by rw [cusIn_eq]) _)
  case cancel =>
    have cus : (cusIn s p).cus = s.cus := by rw [cusIn_eq]
    have run : cancelBy (cusIn s p) p = cusEnd (cusDiscard (cusIn s p)) p 3 (cusIn s p).cus.pend rCancelled :=
      if_pos (by rw [cus]; exact ⟨busy, origin, by rw [commit]; rfl⟩)
    have ended := cusEnd_spec (cusDiscard (cusIn s p)) p 3 (cusIn s p).cus.pend rCancelled
    refine ⟨_, (exec_cancel_run p h).trans (congrArg Host.Outcome.next run), ?_, ?_⟩
    · exact (ended.silent (by decide)).trans (by rw [cusIn_eq]; rfl)
    · rw [ended.cus_of_ne (by decide), cusDiscard, cus]
      rfl
  case expire =>
    let u : State := { s with cus := { s.cus with busy := false } }
    obtain ⟨l, r, hp⟩ := post_touches u pgCUS sevWarning 0x0F03 (BitVec.ofNat 12 (recAcc s.cus.pend)) (d0Cus s.cus.pend)
      (d1Cus rExpired s.cus.origin)
    refine ⟨_, congrArg Host.Outcome.next (if_pos ⟨busy, by rw [commit]; rfl, due⟩), ?_,
      (post_logged u pgCUS sevWarning 0x0F03 _ _ _).before rfl rfl, ?_⟩
    · simp [cusPost]
    · change cusPost u _ _ _ _ _ = _
      rw [cusPost, hp]
  case lock =>
    have run : exec .cusLockExpiry s = execCusLockExpiry s := rfl
    rw [run, execCusLockExpiry, hx]
    exact congrArg Host.Outcome.next (if_pos h)

end Sys2Proof
end

section
/-! PROOFS. What custody does to quadrants: owners, seals, zeroising and fresh keys (R351, R367, R369). -/

namespace Sys2Proof

open Sys2Proof.Machine

/-! ## Steps over quadrants -/

/-- Steps of which each that hits sets the same value and every other leaves it. -/
theorem foldl_hit {σ α β : Type} {f : σ → α → σ} {obs : σ → β} {hit : α → Prop} [DecidablePred hit] {v : β} {l : List α}
    (step : ∀ a ∈ l, ∀ s, obs (f s a) = if hit a then v else obs s) (s : σ) :
    obs (l.foldl f s) = if ∃ a ∈ l, hit a then v else obs s := by
  induction l generalizing s with
  | nil => simp
  | cons a l ih =>
    rw [List.foldl_cons, ih (fun b hb => step b (List.mem_cons_of_mem _ hb)), step a List.mem_cons_self]
    by_cases ha : hit a
    · simp [ha]
    · simp [ha]

/-- The same, where a step hits the one place that it names. -/
theorem foldl_named {σ β : Type} {f : σ → Nat → σ} {obs : σ → β} {k : Nat} {v : β} {l : List Nat}
    (step : ∀ q ∈ l, ∀ s, obs (f s q) = if q = k then v else obs s) (s : σ) :
    obs (l.foldl f s) = if k ∈ l then v else obs s := by
  rw [foldl_hit (hit := (· = k)) step]
  simp

theorem recQuads_lt {w : BitVec 2048} {q : Nat} (h : q ∈ recQuads w) : q < 4 := by
  have listed : ∀ q ∈ [0, 1, 2, 3], q < 4 := by decide
  exact listed q (List.mem_filter.1 h).1

/-! ## Owners and seals (R351) -/

theorem owner_setOwner (s : State) (q : Nat) (a : BitVec 12) (k : Nat) :
    owner (setOwner s q a) k = if q = k then a else owner s k := by
  simp only [owner, setOwner, tget_tput, eq_comm]

theorem sealed_setSeal (s : State) {q : Nat} (hq : q < 4) (on : Bool) (k : Nat) :
    sealed (setSeal s q on) k = if q = k then on else sealed s k := by
  by_cases hk : k < 4
  · cases on with
    | true => simp only [sealed, setSeal, if_true, bit_or_twoPow _ hk]; by_cases h : q = k <;> simp [h, eq_comm]
    | false =>
      simp only [sealed, setSeal, Bool.false_eq_true, if_false, bit_andNot_twoPow _ hk]
      by_cases h : q = k <;> simp [h, eq_comm]
  · have past (x : BitVec 4) : bit x k = false := by rw [bit_eq_getLsbD, BitVec.getLsbD_of_ge _ _ (by omega)]
    rw [if_neg (by omega), sealed, sealed, past, past]

/-! ## Fresh keys (R367) -/

theorem length_xtsBlocks_le (f : List Nat → List Nat) (n t : Nat) (l : List Byte) :
    (Aes.xtsBlocks f n t l).length ≤ 16 * n := by
  induction n generalizing t l with
  | zero => simp [Aes.xtsBlocks]
  | succ n ih =>
    have block : (Aes.xorBytes (Aes.octets (f (Aes.nums (Aes.xorBytes (l.take 16) (bytesOf 16 t))))) (bytesOf 16 t)).length
        ≤ 16 := by
      simp only [Aes.xorBytes, List.length_zipWith, length_bytesOf]
      omega
    have rest := ih (Aes.nextTweak t) (l.drop 16)
    simp only [Aes.xtsBlocks, List.length_append]
    omega

theorem of_mem_cellsAt {a : Nat} {bs : List Byte} {c : Nat × Byte} (h : c ∈ cellsAt a bs) : a ≤ c.1 ∧ c.1 < a + bs.length := by
  induction bs generalizing a with
  | nil => cases h
  | cons b bs ih =>
    rcases List.mem_cons.1 h with rfl | h
    · simp
    · have := ih h
      simp only [List.length_cons]
      omega

theorem rdByte_loseRegion_ne (s : State) {r a : Nat} (h : regionOf a ≠ r) : rdByte (loseRegion s r) a = rdByte s a := by
  have kept : gen (loseRegion s r) a = gen s a := by simp only [gen, loseRegion, tget_tput, h, if_false]
  have default : unlisted (loseRegion s r) a = unlisted s a := by simp only [unlisted, kept]
  rw [rdByte, default]
  refine (tget_filter_key (unlisted s a) (fun x => regionOf x != r) s.mem a).trans ?_
  simp [h, rdByte]

/-- Regions of HBM are those of its quadrants, and no address above HBM lies in one. -/
theorem regionOf_quad {a q : Nat} (hq : q < 4) (h : regionOf a = q) : a < 2 ^ 41 := by
  unfold regionOf at h
  split at h
  · rw [Nat.shiftRight_eq_div_pow] at h; omega
  · rw [Nat.shiftRight_eq_div_pow] at h; omega

/-- A fresh key changes nothing but what the quadrant's HBM reads as (R366, R367). -/
theorem freshKey_spec (s : State) (q : Nat) :
    (∃ m st x, freshKey s q = { s with mem := m, stale := st, draws := s.draws + 1, cus := { s.cus with xts := x } }) ∧
    (q < 4 → ∀ a, 2 ^ 47 ≤ a → rdByte (freshKey s q) a = rdByte s a) := by
  refine ⟨⟨_, _, _, rfl⟩, fun hq a ha => ?_⟩
  unfold freshKey
  dsimp only
  rw [rdByte_wrCells_ne]
  · refine (rdByte_congr (s := loseRegion (fresh s) q) (by rfl) (by rfl) a).trans ?_
    exact rdByte_loseRegion_ne (fresh s) fun h => absurd (regionOf_quad hq h) (by omega)
  · intro c hc
    obtain ⟨u, hu, hc⟩ := List.mem_flatMap.1 hc
    obtain ⟨e, he, rfl⟩ := List.mem_map.1 (List.mem_eraseDups.1 hu)
    have low := regionOf_quad hq (by simpa using (List.mem_filter.1 he).2)
    obtain ⟨-, high⟩ := of_mem_cellsAt hc
    have short := length_xtsBlocks_le (Aes.decBlock (Aes.keys (Aes.nums
      ((bytesOf 64 (Config.xtsKey s.draws).toNat).take 32)))) 2
      (Aes.firstTweak ((bytesOf 64 (Config.xtsKey s.draws).toNat).drop 32) (xtsUnit (e.1 / 32 * 32))) (stackUnit s (e.1 / 32 * 32))
    have := high.trans_le (Nat.add_le_add_left short _)
    omega

/-! ## Zeroising (R369) -/

/-- Zeroising a quadrant: its SRAM reads 0, it is marked busy, and owners, seals and keys stay. -/
theorem zeroise_spec (s : State) (q : Nat) :
    (∃ m st fl x0 x1 x2 x3 z, zeroise s q = { s with
      mem := m, stale := st, flaws := fl, cores := x0, clus := x1, fab := x2, bar2 := x3, cus := { s.cus with zbusy := z } }) ∧
    (∀ a, 2 ^ 48 ≤ a → rdByte (zeroise s q) a = if a / 2 ^ 39 % 4 = q then 0 else rdByte s a) ∧
    (∀ a, a < 2 ^ 48 → rdByte (zeroise s q) a = rdByte s a) ∧
    (∀ k < 4, bit (zeroise s q).cus.zbusy k = (bit s.cus.zbusy k || decide (k = q))) := by
  have regions : (fun r => decide (2 ^ 20 ≤ r) && (r >>> 11) % 4 == q) = startRegions [q] := by
    funext r
    simp [startRegions, Bool.beq_eq_decide_eq]
  have read (a : Nat) : rdByte (zeroise s q) a = rdByte (zeroRegions s (startRegions [q])) a := by
    rw [← regions]
    exact rdByte_congr rfl rfl a
  refine ⟨⟨_, _, _, _, _, _, _, _, rfl⟩, fun a ha => ?_, fun a ha => ?_, fun k hk => bit_or_twoPow _ hk⟩
  · rw [read]
    by_cases h : a / 2 ^ 39 % 4 = q
    · rw [if_pos h]
      exact rdByte_zeroRegions_in (startRegions_sram ha (List.mem_singleton.2 h))
    · rw [if_neg h]
      refine rdByte_zeroRegions_out ?_
      have high : regionOf a = a / 2 ^ 28 := by rw [regionOf, if_neg (by omega), Nat.shiftRight_eq_div_pow]
      have quad : (a / 2 ^ 28) >>> 11 = a / 2 ^ 39 := by
        rw [Nat.shiftRight_eq_div_pow, Nat.div_div_eq_div_mul, ← pow_add]
      simp only [startRegions, high, quad, List.contains_cons, List.contains_nil, beq_eq_false_iff_ne.2 h, Bool.or_false, Bool.and_false]
  · rw [read]
    exact rdByte_zeroRegions_out (startRegions_hbm [q] ha)

end Sys2Proof
end

section
/-! PROOFS. Custody's commits of quadrants, groups, keys and fuses (R340, R351 to R361, R367 to R370). -/

namespace Sys2Proof

open Sys2Proof.Machine

/-! ## A commit (R357 step 5) -/

/-- What a commit leaves when its operation left `u`: the result and the entry, and `u` else. -/
structure CommitEnd (s u t : State) (r : CusReq) : Prop where
  applied : Applied s t r
  cus     : t.cus = { u.cus with result := 2, badRun := 0 }
  frame   : t = { u with cus := t.cus, regs := t.regs, ldg := t.ldg, out := t.out, mgt := t.mgt }

theorem commitRow_ends {s : State} {r : CusReq} (hr : s.cus.commit = some r) (ha : accOk s r.word = true)
    (hc : commitOk s r.word = true) {f : State → BitVec 2048 → State} {u : State} (hu : f (cusDiscard s) r.word = u) :
    ∃ t, commitRow s (recOp r.word) f = t ∧ t.cus = { u.cus with result := 2, badRun := 0 } ∧
      t = { u with cus := t.cus, regs := t.regs, ldg := t.ldg, out := t.out, mgt := t.mgt } ∧
      bit (reg t (at' pgCUS 0x10)) 0 = true ∧
      Logged u t pgCUS 1 0x0F01 (BitVec.ofNat 12 (recAcc r.word)) (d0Cus r.word) (d1Cus 2 r.party) := by
  let v := cusPost u sevWarning 0x0F01 r.word rCommitted r.party
  obtain ⟨l, x, hv⟩ : ∃ l x, v = { u with ldg := l, regs := x } := post_touches u pgCUS sevWarning 0x0F01 _ _ _
  have run : commitRow s (recOp r.word) f = cusEnd v r.party 2 r.word rCommitted := by
    unfold commitRow
    rw [hr]
    dsimp only
    rw [if_neg (by simp), ha, if_neg (by decide), if_pos hc, hu]
  have ended : CusEnded v (cusEnd v r.party 2 r.word rCommitted) r.party r.word rCommitted := cusEnd_spec v _ 2 _ _
  have logged : Logged u v pgCUS 1 0x0F01 (BitVec.ofNat 12 (recAcc r.word)) (d0Cus r.word) (d1Cus 2 r.party) :=
    post_logged u pgCUS 1 0x0F01 _ _ _
  refine ⟨_, run, ?_, ?_, ended.raised, logged.congr (ended.silent (by decide))⟩
  · rw [ended.cus_of_ne (by decide), hv]
    rfl
  · refine ended.frame.trans ?_
    rw [hv]

theorem commitRow_applied {s : State} {r : CusReq} (hr : s.cus.commit = some r) (ha : accOk s r.word = true)
    (hc : commitOk s r.word = true) {f : State → BitVec 2048 → State} {u : State} (hu : f (cusDiscard s) r.word = u)
    (nonce : u.cus.nonce = s.cus.nonce) (busy : u.cus.busy = false) (commit : u.cus.commit = none) (ldg : u.ldg = s.ldg)
    (clk : u.clk = s.clk) : ∃ t, commitRow s (recOp r.word) f = t ∧ CommitEnd s u t r := by
  obtain ⟨t, run, cus, frame, raised, logged⟩ := commitRow_ends hr ha hc hu
  refine ⟨t, run, ⟨?_, ?_, ?_, ?_, raised, logged.before ldg.symm clk.symm⟩, cus, frame⟩
  · rw [cus, ← busy]
  · rw [cus, ← commit]
  · rw [cus]
  · rw [cus, ← nonce]

/-- A record whose condition or accession is gone ends, and nothing else changes. -/
theorem commitRow_refused {s : State} {r : CusReq} (hr : s.cus.commit = some r)
    (h : accOk s r.word = false ∨ commitOk s r.word = false) (f : State → BitVec 2048 → State) :
    ∃ t, commitRow s (recOp r.word) f = t ∧ t.cus = { s.cus with
        busy := false, commit := none, pend := 0, dline := 0, badRun := 0, result := if accOk s r.word then 8 else 12 } ∧
      t = { s with cus := t.cus, regs := t.regs, ldg := t.ldg, out := t.out, mgt := t.mgt } := by
  have run : commitRow s (recOp r.word) f = cusEnd (cusDiscard s) r.party 2 r.word (if accOk s r.word then 8 else 12) := by
    unfold commitRow
    rw [hr]
    dsimp only
    rw [if_neg (by simp)]
    cases ha : accOk s r.word with
    | false => rfl
    | true => rw [if_neg (by decide), h.resolve_left (by simp [ha])]; rfl
  have ended := cusEnd_spec (cusDiscard s) r.party 2 r.word (if accOk s r.word then 8 else 12)
  refine ⟨_, run, ended.cus_of_ne (by split <;> decide), ?_⟩
  exact ended.frame

/-- A quadrant operation: what it does to custody besides owners, seals, keys and zeroising, and to Ledger and clock. -/
def Settled (s t : State) : Prop :=
  t.cus.nonce = s.cus.nonce ∧ t.cus.busy = s.cus.busy ∧ t.cus.commit = s.cus.commit ∧ t.ldg = s.ldg ∧ t.clk = s.clk

theorem Settled.refl (s : State) : Settled s s := ⟨rfl, rfl, rfl, rfl, rfl⟩

theorem Settled.trans {s t u : State} (h : Settled s t) (k : Settled t u) : Settled s u := by
  obtain ⟨h1, h2, h3, h4, h5⟩ := h
  obtain ⟨k1, k2, k3, k4, k5⟩ := k
  exact ⟨k1.trans h1, k2.trans h2, k3.trans h3, k4.trans h4, k5.trans h5⟩

theorem commitRow_settled {s : State} {r : CusReq} (hr : s.cus.commit = some r) (ha : accOk s r.word = true)
    (hc : commitOk s r.word = true) {f : State → BitVec 2048 → State} (h : Settled (cusDiscard s) (f (cusDiscard s) r.word)) :
    ∃ t, commitRow s (recOp r.word) f = t ∧ CommitEnd s (f (cusDiscard s) r.word) t r := by
  obtain ⟨nonce, busy, commit, ldg, clk⟩ := h
  exact commitRow_applied hr ha hc rfl nonce busy commit ldg clk

theorem CommitEnd.owner {s u t : State} {r : CusReq} (h : CommitEnd s u t r) (q : Nat) :
    Machine.owner t q = Machine.owner u q := by rw [Machine.owner, h.cus]; rfl

theorem CommitEnd.sealed {s u t : State} {r : CusReq} (h : CommitEnd s u t r) (q : Nat) :
    Machine.sealed t q = Machine.sealed u q := by rw [Machine.sealed, h.cus]; rfl

theorem CommitEnd.rdByte {s u t : State} {r : CusReq} (h : CommitEnd s u t r) (a : Nat) :
    Machine.rdByte t a = Machine.rdByte u a := rdByte_congr (by rw [h.frame]) (by rw [h.frame]) a

/-! ## Quadrants (R351, R367 to R369) -/

/-- The steps of QUAD_ASSIGN, QUAD_RELEASE and UNSEAL on one quadrant. -/
def assignQuad (a : BitVec 12) (on : Bool) (s : State) (q : Nat) : State := freshKey (setSeal (setOwner s q a) q on) q
def releaseQuad (s : State) (q : Nat) : State := freshKey (setSeal (setOwner (zeroise s q) q 0) q false) q
def unsealQuad (s : State) (q : Nat) : State := freshKey (setSeal (zeroise s q) q false) q

theorem assignQuad_spec (a : BitVec 12) (on : Bool) (s : State) {q : Nat} (hq : q < 4) :
    Settled s (assignQuad a on s q) ∧
    (∀ k, owner (assignQuad a on s q) k = if q = k then a else owner s k) ∧
    (∀ k, sealed (assignQuad a on s q) k = if q = k then on else sealed s k) ∧
    (∀ x, 2 ^ 47 ≤ x → rdByte (assignQuad a on s q) x = rdByte s x) :=
  ⟨⟨rfl, rfl, rfl, rfl, rfl⟩, owner_setOwner s q a, sealed_setSeal (setOwner s q a) hq on,
    fun x hx => ((freshKey_spec _ q).2 hq x hx).trans (rdByte_congr rfl rfl x)⟩

theorem unsealQuad_spec (s : State) {q : Nat} (hq : q < 4) :
    Settled s (unsealQuad s q) ∧
    (∀ k, owner (unsealQuad s q) k = owner s k) ∧
    (∀ k, sealed (unsealQuad s q) k = if q = k then false else sealed s k) ∧
    (∀ k < 4, bit (unsealQuad s q).cus.zbusy k = if q = k then true else bit s.cus.zbusy k) ∧
    (∀ x, 2 ^ 48 ≤ x → rdByte (unsealQuad s q) x = if x / 2 ^ 39 % 4 = q then 0 else rdByte s x) := by
  obtain ⟨-, read, -, busy⟩ := zeroise_spec s q
  refine ⟨⟨rfl, rfl, rfl, rfl, rfl⟩, fun k => rfl, sealed_setSeal (zeroise s q) hq false, fun k hk => ?_, fun x hx => ?_⟩
  · refine (busy k hk).trans ?_
    by_cases h : q = k <;> simp [h, eq_comm]
  · exact ((freshKey_spec _ q).2 hq x (by omega)).trans ((rdByte_congr rfl rfl x).trans (read x hx))

theorem releaseQuad_spec (s : State) {q : Nat} (hq : q < 4) :
    Settled s (releaseQuad s q) ∧
    (∀ k, owner (releaseQuad s q) k = if q = k then 0 else owner s k) ∧
    (∀ k, sealed (releaseQuad s q) k = if q = k then false else sealed s k) ∧
    (∀ k < 4, bit (releaseQuad s q).cus.zbusy k = if q = k then true else bit s.cus.zbusy k) ∧
    (∀ x, 2 ^ 48 ≤ x → rdByte (releaseQuad s q) x = if x / 2 ^ 39 % 4 = q then 0 else rdByte s x) := by
  obtain ⟨⟨m, st, fl, x0, x1, x2, x3, z, frame⟩, read, -, busy⟩ := zeroise_spec s q
  unfold releaseQuad
  generalize zeroise s q = u at *
  have own (k : Nat) : owner u k = owner s k := by rw [frame]; rfl
  have seals (k : Nat) : sealed u k = sealed s k := by rw [frame]; rfl
  refine ⟨by rw [frame]; exact ⟨rfl, rfl, rfl, rfl, rfl⟩, fun k => ?_, fun k => ?_, fun k hk => ?_, fun x hx => ?_⟩
  · rw [← own k]
    exact owner_setOwner u q 0 k
  · rw [← seals k]
    exact sealed_setSeal (setOwner u q 0) hq false k
  · refine (busy k hk).trans ?_
    by_cases h : q = k <;> simp [h, eq_comm]
  · exact ((freshKey_spec _ q).2 hq x (by omega)).trans ((rdByte_congr rfl rfl x).trans (read x hx))

/-- The quadrants that QUAD_RELEASE and UNSEAL wipe read 0 in all their SRAM. -/
theorem foldl_wiped {f : State → Nat → State} {x : Nat} {l : List Nat}
    (step : ∀ q ∈ l, ∀ s, rdByte (f s q) x = if x / 2 ^ 39 % 4 = q then 0 else rdByte s x) (s : State) :
    rdByte (l.foldl f s) x = if x / 2 ^ 39 % 4 ∈ l then 0 else rdByte s x :=
  foldl_named (f := f) (obs := fun s => rdByte s x) (k := x / 2 ^ 39 % 4)
    (fun q hq s => (step q hq s).trans (by simp only [eq_comm])) s

section
variable {r : CusReq} {s : State} (hr : s.cus.commit = some r) (ha : accOk s r.word = true)
  (hc : commitOk s r.word = true)
include hr ha hc

theorem exec_quadAssign_spec (h1 : recOp r.word = 1) : ∃ t, exec .quadAssign s = .next t ∧ Applied s t r ∧
    (∀ q, q ∉ recQuads r.word → owner t q = owner s q ∧ sealed t q = sealed s q) ∧
    (∀ q ∈ recQuads r.word, owner t q = BitVec.ofNat 12 (recAcc r.word) ∧ sealed t q = decide (recArg r.word % 2 = 1)) ∧
    ∀ x, 2 ^ 47 ≤ x → rdByte t x = rdByte s x := by
  let f := assignQuad (BitVec.ofNat 12 (recAcc r.word)) (decide (recArg r.word % 2 = 1))
  let u := (recQuads r.word).foldl f (cusDiscard s)
  have step {q : Nat} (hq : q ∈ recQuads r.word) (s : State) :=
    assignQuad_spec (BitVec.ofNat 12 (recAcc r.word)) (decide (recArg r.word % 2 = 1)) s (recQuads_lt hq)
  have settled : Settled (cusDiscard s) u := foldl_rel .refl .trans (fun q hq s => (step hq s).1) _
  obtain ⟨t, run, ended⟩ := commitRow_settled (f := fun s w => (recQuads w).foldl (assignQuad (BitVec.ofNat 12 (recAcc w))
    (decide (recArg w % 2 = 1))) s) hr ha hc settled
  have owners (k : Nat) : owner u k = if k ∈ recQuads r.word then BitVec.ofNat 12 (recAcc r.word) else owner s k :=
    foldl_named (obs := fun s => owner s k) (fun q hq s => (step hq s).2.1 k) (cusDiscard s)
  have seals (k : Nat) : sealed u k = if k ∈ recQuads r.word then decide (recArg r.word % 2 = 1) else sealed s k :=
    foldl_named (obs := fun s => sealed s k) (fun q hq s => (step hq s).2.2.1 k) (cusDiscard s)
  rw [h1] at run
  refine ⟨t, congrArg Host.Outcome.next run, ended.applied, fun q hq => ?_, fun q hq => ?_, fun x hx => ?_⟩
  · exact ⟨(ended.owner q).trans ((owners q).trans (if_neg hq)), (ended.sealed q).trans ((seals q).trans (if_neg hq))⟩
  · exact ⟨(ended.owner q).trans ((owners q).trans (if_pos hq)), (ended.sealed q).trans ((seals q).trans (if_pos hq))⟩
  · refine (ended.rdByte x).trans ?_
    exact foldl_keeps (obs := fun s => rdByte s x) (fun q hq s => (step hq s).2.2.2 x hx) (cusDiscard s)

theorem exec_quadRelease_spec (h2 : recOp r.word = 2) : ∃ t, exec .quadRelease s = .next t ∧ Applied s t r ∧
    (∀ q, q ∉ recQuads r.word → owner t q = owner s q ∧ sealed t q = sealed s q) ∧
    (∀ x, 2 ^ 48 ≤ x → rdByte t x = if x / 2 ^ 39 % 4 ∈ recQuads r.word then 0 else rdByte s x) ∧
    ∀ q ∈ recQuads r.word, owner t q = 0 ∧ sealed t q = false ∧ bit t.cus.zbusy q = true := by
  let u := (recQuads r.word).foldl releaseQuad (cusDiscard s)
  have step {q : Nat} (hq : q ∈ recQuads r.word) (s : State) := releaseQuad_spec s (recQuads_lt hq)
  have settled : Settled (cusDiscard s) u := foldl_rel .refl .trans (fun q hq s => (step hq s).1) _
  obtain ⟨t, run, ended⟩ := commitRow_settled (f := fun s w => (recQuads w).foldl releaseQuad s) hr ha hc settled
  have owners (k : Nat) : owner u k = if k ∈ recQuads r.word then 0 else owner s k :=
    foldl_named (obs := fun s => owner s k) (fun q hq s => (step hq s).2.1 k) (cusDiscard s)
  have seals (k : Nat) : sealed u k = if k ∈ recQuads r.word then false else sealed s k :=
    foldl_named (obs := fun s => sealed s k) (fun q hq s => (step hq s).2.2.1 k) (cusDiscard s)
  have busy {k : Nat} (hk : k < 4) : bit u.cus.zbusy k = if k ∈ recQuads r.word then true else bit s.cus.zbusy k :=
    foldl_named (obs := fun s => bit s.cus.zbusy k) (fun q hq s => (step hq s).2.2.2.1 k hk) (cusDiscard s)
  rw [h2] at run
  refine ⟨t, congrArg Host.Outcome.next run, ended.applied, fun q hq => ?_, fun x hx => ?_, fun q hq => ⟨?_, ?_, ?_⟩⟩
  · exact ⟨(ended.owner q).trans ((owners q).trans (if_neg hq)), (ended.sealed q).trans ((seals q).trans (if_neg hq))⟩
  · exact (ended.rdByte x).trans (foldl_wiped (fun q hq s => (step hq s).2.2.2.2 x hx) (cusDiscard s))
  · exact (ended.owner q).trans ((owners q).trans (if_pos hq))
  · exact (ended.sealed q).trans ((seals q).trans (if_pos hq))
  · rw [ended.cus]
    exact (busy (recQuads_lt hq)).trans (if_pos hq)

theorem exec_unseal_spec (h7 : recOp r.word = 7) : ∃ t, exec .unseal s = .next t ∧ Applied s t r ∧
    (∀ q, q ∉ recQuads r.word → owner t q = owner s q ∧ sealed t q = sealed s q) ∧
    (∀ x, 2 ^ 48 ≤ x → rdByte t x = if x / 2 ^ 39 % 4 ∈ recQuads r.word then 0 else rdByte s x) ∧
    ∀ q ∈ recQuads r.word, sealed t q = false ∧ owner t q = owner s q ∧ bit t.cus.zbusy q = true := by
  let u := (recQuads r.word).foldl unsealQuad (cusDiscard s)
  have step {q : Nat} (hq : q ∈ recQuads r.word) (s : State) := unsealQuad_spec s (recQuads_lt hq)
  have settled : Settled (cusDiscard s) u := foldl_rel .refl .trans (fun q hq s => (step hq s).1) _
  obtain ⟨t, run, ended⟩ := commitRow_settled (f := fun s w => (recQuads w).foldl unsealQuad s) hr ha hc settled
  have owners (k : Nat) : owner u k = owner s k :=
    foldl_keeps (obs := fun s => owner s k) (fun q hq s => (step hq s).2.1 k) (cusDiscard s)
  have seals (k : Nat) : sealed u k = if k ∈ recQuads r.word then false else sealed s k :=
    foldl_named (obs := fun s => sealed s k) (fun q hq s => (step hq s).2.2.1 k) (cusDiscard s)
  have busy {k : Nat} (hk : k < 4) : bit u.cus.zbusy k = if k ∈ recQuads r.word then true else bit s.cus.zbusy k :=
    foldl_named (obs := fun s => bit s.cus.zbusy k) (fun q hq s => (step hq s).2.2.2.1 k hk) (cusDiscard s)
  rw [h7] at run
  refine ⟨t, congrArg Host.Outcome.next run, ended.applied, fun q hq => ?_, fun x hx => ?_, fun q hq => ⟨?_, ?_, ?_⟩⟩
  · exact ⟨(ended.owner q).trans (owners q), (ended.sealed q).trans ((seals q).trans (if_neg hq))⟩
  · exact (ended.rdByte x).trans (foldl_wiped (fun q hq s => (step hq s).2.2.2.2 x hx) (cusDiscard s))
  · exact (ended.sealed q).trans ((seals q).trans (if_pos hq))
  · exact (ended.owner q).trans (owners q)
  · rw [ended.cus]
    exact (busy (recQuads_lt hq)).trans (if_pos hq)

theorem exec_seal_spec (h6 : recOp r.word = 6) : ∃ t, exec .seal s = .next t ∧ Applied s t r ∧
    (∀ q, q ∉ recQuads r.word → owner t q = owner s q ∧ sealed t q = sealed s q) ∧
    (∀ q ∈ recQuads r.word, sealed t q = true ∧ owner t q = owner s q) ∧ t.mem = s.mem := by
  let f : State → Nat → State := fun s q => setSeal s q true
  let u := (recQuads r.word).foldl f (cusDiscard s)
  have settled : Settled (cusDiscard s) u := foldl_rel .refl .trans (fun q _ s => ⟨rfl, rfl, rfl, rfl, rfl⟩) _
  obtain ⟨t, run, ended⟩ := commitRow_settled (f := fun s w => (recQuads w).foldl f s) hr ha hc settled
  have owners (k : Nat) : owner u k = owner s k :=
    foldl_keeps (f := f) (obs := fun s => owner s k) (fun _ _ _ => rfl) (cusDiscard s)
  have seals (k : Nat) : sealed u k = if k ∈ recQuads r.word then true else sealed s k :=
    foldl_named (obs := fun s => sealed s k) (fun q hq s => sealed_setSeal s (recQuads_lt hq) true k) (cusDiscard s)
  have mem : u.mem = s.mem := foldl_keeps (f := f) (obs := State.mem) (fun _ _ _ => rfl) (cusDiscard s)
  rw [h6] at run
  refine ⟨t, congrArg Host.Outcome.next run, ended.applied, fun q hq => ?_, fun q hq => ?_, ?_⟩
  · exact ⟨(ended.owner q).trans (owners q), (ended.sealed q).trans ((seals q).trans (if_neg hq))⟩
  · exact ⟨(ended.sealed q).trans ((seals q).trans (if_pos hq)), (ended.owner q).trans (owners q)⟩
  · rw [ended.frame]
    exact mem

/-! ## Keys and fuses (R355, R361, R465) -/

theorem exec_keyErase_spec (h5 : recOp r.word = 5) : ∃ t, exec .keyErase s = .next t ∧ Applied s t r ∧
    tget 0 t.cus.keys (recTgt r.word) = 0 ∧ tget 0 t.cus.keyVals (recTgt r.word) = 0 ∧
    ∀ k, k ≠ recTgt r.word → tget 0 t.cus.keys k = tget 0 s.cus.keys k := by
  obtain ⟨t, run, ended⟩ := commitRow_settled (f := fun s w => { s with cus := { s.cus with
    keys := tput 0 s.cus.keys (recTgt w) 0, keyVals := tput 0 s.cus.keyVals (recTgt w) 0 } }) hr ha hc
    ⟨rfl, rfl, rfl, rfl, rfl⟩
  rw [h5] at run
  refine ⟨t, congrArg Host.Outcome.next run, ended.applied, ?_, ?_, fun k hk => ?_⟩
  · simp [ended.cus]
  · simp [ended.cus]
  · simp [ended.cus, tget_tput, hk, cusDiscard]

theorem exec_fuseWrite_spec (h8 : recOp r.word = 8) : ∃ t, exec .fuseWrite s = .next t ∧ Applied s t r ∧
    tget 0 t.cus.fuses (recTgt r.word) = tget 0 s.cus.fuses (recTgt r.word) ||| BitVec.ofNat 32 (recArg r.word) ∧
    tget 0 t.cus.sensed (recTgt r.word) = tget 0 t.cus.fuses (recTgt r.word) ∧
    ∀ k, k ≠ recTgt r.word → tget 0 t.cus.fuses k = tget 0 s.cus.fuses k := by
  obtain ⟨t, run, ended⟩ := commitRow_settled (f := fun s w =>
    let row := recTgt w
    let v := tget 0 s.cus.fuses row ||| BitVec.ofNat 32 (recArg w)
    { s with cus := { s.cus with fuses := tput 0 s.cus.fuses row v, sensed := tput 0 s.cus.sensed row v } }) hr ha hc
    ⟨rfl, rfl, rfl, rfl, rfl⟩
  rw [h8] at run
  refine ⟨t, congrArg Host.Outcome.next run, ended.applied, ?_, ?_, fun k hk => ?_⟩
  · simp [ended.cus, cusDiscard]
  · simp [ended.cus]
  · simp [ended.cus, tget_tput, hk, cusDiscard]

theorem exec_debugDisable_spec (h10 : recOp r.word = 10) : ∃ t, exec .debugDisable s = .next t ∧ Applied s t r ∧
    t.cus.debug = false ∧ t.cus.own = s.cus.own ∧ t.cus.seals = s.cus.seals ∧ t.mem = s.mem := by
  obtain ⟨t, run, ended⟩ := commitRow_settled (f := fun s _ => { s with cus := { s.cus with debug := false } }) hr ha hc
    ⟨rfl, rfl, rfl, rfl, rfl⟩
  rw [h10] at run
  refine ⟨t, congrArg Host.Outcome.next run, ended.applied, by rw [ended.cus], by rw [ended.cus]; rfl, by rw [ended.cus]; rfl, ?_⟩
  rw [ended.frame]
  rfl

end

end Sys2Proof
end

section
/-! PROOFS. A lane group by itself: what its operations leave of the others, the flits it sends, its keys, and how it leaves
DOWN (R268, R269, R277, R278, R362 to R364). -/

namespace Sys2Proof

open Sys2Proof.Machine

/-! ## Operations of one group -/

/-- A lane group at most differs, and what was sent. -/
structure OnGroup (s t : State) (g : Nat) : Prop where
  frame  : t = { s with links := t.links, out := t.out }
  others : ∀ i, i ≠ g → getLink t i = getLink s i

section
variable {s t u : State} {g : Nat}

theorem OnGroup.refl (s : State) (g : Nat) : OnGroup s s g := ⟨rfl, fun _ _ => rfl⟩

theorem OnGroup.trans (h : OnGroup s t g) (k : OnGroup t u g) : OnGroup s u g where
  frame := by rw [k.frame, h.frame]
  others i hi := (k.others i hi).trans (h.others i hi)

theorem OnGroup.regs (h : OnGroup s t g) : t.regs = s.regs := by rw [h.frame]

theorem OnGroup.reg (h : OnGroup s t g) (o : Nat) : Machine.reg t o = Machine.reg s o := reg_congr h.regs o

/-- Without a flit, only the group differs. -/
theorem OnGroup.onlyLink (h : OnGroup s t g) (ho : t.out = s.out) : OnlyLink s t g := by
  refine ⟨h.frame.trans ?_, h.others⟩
  rw [ho]

theorem onGroup_setLink (s : State) (g : Nat) (x : Link) : OnGroup s (setLink s g x) g :=
  ⟨rfl, fun _ hi => getLink_setLink_ne s x hi⟩

theorem onGroup_emit (s : State) (g : Nat) (o : Out) : OnGroup s (emit s o) g := ⟨rfl, fun _ _ => rfl⟩

theorem grpMode_congr (h : t.regs = s.regs) (g : Nat) : grpMode t g = grpMode s g := by
  rw [grpMode, grpMode, reg_congr h]

theorem OnGroup.grpMode (h : OnGroup s t g) (k : Nat) : Machine.grpMode t k = Machine.grpMode s k :=
  grpMode_congr h.regs k

end

/-! ## Flits sent (R268, R269) -/

theorem grpOf_key (g : Grp) : (⟨Fin.ofNat 6 (g.key / 4), Fin.ofNat 4 (g.key % 4)⟩ : Grp) = g := by
  obtain ⟨⟨p, hp⟩, ⟨k, hk⟩⟩ := g
  have h4 : (4 * p + k) / 4 = p := by omega
  have m4 : (4 * p + k) % 4 = k := by omega
  simp only [Grp.key, h4, m4, Fin.ofNat, Nat.mod_eq_of_lt hp, Nat.mod_eq_of_lt hk]

/-- The header of a flit that group `g` sends (R268, R269, R309). -/
def hdrOf (s : State) (g ty seq vc nxt : Nat) : W64 :=
  let l := getLink s g
  let two := decide (grpMode s g = 0)
  mkFl ty seq (if two then l.rxSeq else 0) (two && l.nakOut) vc nxt (if two then l.crvc else 0)
    (if two then freedCells l l.crvc else 0) l.kep

theorem hdrOf_two {s : State} {g : Nat} (h : grpMode s g = 0) (ty seq vc nxt : Nat) :
    hdrOf s g ty seq vc nxt = headerOf (getLink s g) ty seq vc nxt := by
  simp [hdrOf, headerOf, h]

section
variable (ty seq ack : Nat) (nak : Bool) (vc nxt crvc crn : Nat) (kep : Bool)

/-- A header as a number, its fields bounded. -/
theorem toNat_mkFl (ht : ty < 16) : (mkFl ty seq ack nak vc nxt crvc crn kep).toNat =
    ty * 2 ^ 60 + seq % 4096 * 2 ^ 48 + ack % 4096 * 2 ^ 36 + (if nak then 2 ^ 35 else 0) + vc % 4 * 2 ^ 33 +
      nxt % 256 * 2 ^ 25 + crvc % 4 * 2 ^ 23 + crn % 1024 * 2 ^ 13 + (if kep then 2 ^ 12 else 0) := by
  rw [mkFl, BitVec.toNat_ofNat, Nat.mod_eq_of_lt]
  cases nak <;> cases kep <;> simp only [Bool.false_eq_true, if_true, if_false] <;> omega

theorem flType_mkFl (ht : ty < 16) : flType (mkFl ty seq ack nak vc nxt crvc crn kep) = ty := by
  rw [flType, fld, toNat_mkFl ty seq ack nak vc nxt crvc crn kep ht, Nat.shiftRight_eq_div_pow]
  cases nak <;> cases kep <;> simp only [Bool.false_eq_true, if_true, if_false] <;> omega

theorem flSeq_mkFl (ht : ty < 16) : flSeq (mkFl ty seq ack nak vc nxt crvc crn kep) = seq % 4096 := by
  rw [flSeq, fld, toNat_mkFl ty seq ack nak vc nxt crvc crn kep ht, Nat.shiftRight_eq_div_pow]
  cases nak <;> cases kep <;> simp only [Bool.false_eq_true, if_true, if_false] <;> omega

theorem flVc_mkFl (ht : ty < 16) : flVc (mkFl ty seq ack nak vc nxt crvc crn kep) = vc % 4 := by
  rw [flVc, fld, toNat_mkFl ty seq ack nak vc nxt crvc crn kep ht, Nat.shiftRight_eq_div_pow]
  cases nak <;> cases kep <;> simp only [Bool.false_eq_true, if_true, if_false] <;> omega

end

theorem flType_hdrOf (s : State) (g : Nat) {ty : Nat} (seq vc nxt : Nat) (ht : ty < 16) :
    flType (hdrOf s g ty seq vc nxt) = ty := flType_mkFl _ _ _ _ _ _ _ _ _ ht

theorem flSeq_hdrOf (s : State) (g : Nat) {ty : Nat} (seq vc nxt : Nat) (ht : ty < 16) :
    flSeq (hdrOf s g ty seq vc nxt) = seq % 4096 := flSeq_mkFl _ _ _ _ _ _ _ _ _ ht

theorem flVc_hdrOf (s : State) (g : Nat) {ty : Nat} (seq vc nxt : Nat) (ht : ty < 16) :
    flVc (hdrOf s g ty seq vc nxt) = vc % 4 := flVc_mkFl _ _ _ _ _ _ _ _ _ ht

/-- A seal rests on what the group holds of keys and counts, and on its mode (R268, R363). -/
theorem sealFlit_congr {s t : State} {g : Nat} (hr : t.regs = s.regs) (hk : (getLink t g).keys = (getLink s g).keys)
    (he : (getLink t g).epoch = (getLink s g).epoch) (hf : (getLink t g).fcTx = (getLink s g).fcTx)
    (hp : (getLink t g).kep = (getLink s g).kep) (ty : Nat) (h : W64) (pay : List Byte) :
    sealFlit t g ty h pay = sealFlit s g ty h pay := by
  simp only [sealFlit, hk, he, hf, hp, grpMode_congr hr]

/-- A flit has left on group `g`, sealed as the group stood in `s`. -/
structure SentOn (s t : State) (g ty : Nat) (h : W64) (pay : List Byte) : Prop where
  onGroup : OnGroup s t g
  out     : t.out = .flit ⟨Fin.ofNat 6 (g / 4), Fin.ofNat 4 (g % 4)⟩ (sealFlit s g ty h (fit 0 232 pay)) :: s.out

section
variable {s t : State} {g ty : Nat} {h : W64} {pay : List Byte}

/-- What changes of the group before it sends, outside keys and counts, does not show in the seal. -/
theorem SentOn.of_setLink {x : Link} (sent : SentOn (setLink s g x) t g ty h pay) (hk : x.keys = (getLink s g).keys)
    (he : x.epoch = (getLink s g).epoch) (hf : x.fcTx = (getLink s g).fcTx) (hp : x.kep = (getLink s g).kep) :
    SentOn s t g ty h pay where
  onGroup := (onGroup_setLink s g x).trans sent.onGroup
  out := by
    rw [sent.out, sealFlit_congr (s := s) (t := setLink s g x) rfl (by rw [getLink_setLink, hk]) (by rw [getLink_setLink, he])
      (by rw [getLink_setLink, hf]) (by rw [getLink_setLink, hp])]
    rfl

end

theorem sendFlit_sent (s : State) (g ty seq vc nxt : Nat) (pay : List Byte) :
    SentOn s (sendFlit s g ty seq vc nxt pay) g ty (hdrOf s g ty seq vc nxt) pay ∧
    getLink (sendFlit s g ty seq vc nxt pay) g = flitSent (getLink s g) :=
  ⟨⟨(onGroup_setLink s g _).trans (onGroup_emit _ g _), rfl⟩, getLink_setLink s g _⟩

theorem sendTraining_sent (s : State) (g : Nat) (pay : List Byte) :
    SentOn s (sendTraining s g pay) g 2 (hdrOf s g 2 0 0 0xFF) pay ∧
    getLink (sendTraining s g pay) g = { flitSent (getLink s g) with trainAt := s.clk.dst } := by
  obtain ⟨⟨onGroup, out⟩, link⟩ := sendFlit_sent s g 2 0 0 0xFF pay
  refine ⟨⟨onGroup.trans (onGroup_setLink _ g _), out⟩, ?_⟩
  refine (getLink_setLink _ g _).trans ?_
  rw [link]
  rfl

/-! ## Keys (R362, R364) -/

theorem holdKeys_spec (s : State) (g : Nat) : OnlyLink s (holdKeys s g) g ∧
    getLink (holdKeys s g) g = { getLink s g with keys := (getLink (holdKeys s g) g).keys } := by
  refine ⟨⟨rfl, fun i hi => getLink_setLink_ne s _ hi⟩, ?_⟩
  rw [holdKeys, getLink_setLink]

theorem onGroup_holdKeys (s : State) (g : Nat) : OnGroup s (holdKeys s g) g := onGroup_setLink s g _

/-- What the group holds: its own direction's key for its epoch, the peer's for the receiver's epoch and the next. -/
theorem keys_holdKeys (s : State) (g : Nat) :
    let l := getLink s g
    tget 0 (getLink (holdKeys s g) g).keys (2 * l.epoch + txDir g) = linkKey (linkRoot s g) (txDir g) l.epoch ∧
    ∀ e ∈ [l.rxEpoch, l.rxEpoch + 1],
      tget 0 (getLink (holdKeys s g) g).keys (2 * e + rxDir g) = linkKey (linkRoot s g) (rxDir g) e := by
  have tx : txDir g < 2 := Nat.mod_lt _ (by decide)
  have rx : rxDir g = 1 - txDir g := rfl
  have own (e e' : Nat) : 2 * e + txDir g ≠ 2 * e' + rxDir g := by omega
  have peer (e e' : Nat) (h : e ≠ e') : 2 * e + rxDir g ≠ 2 * e' + rxDir g := by omega
  dsimp only
  rw [holdKeys, getLink_setLink]
  dsimp only
  refine ⟨?_, fun e he => ?_⟩
  · rw [tget_tput_ne _ _ _ _ (own _ _), tget_tput_ne _ _ _ _ (own _ _), tget_tput_self]
  · rcases List.mem_pair.1 he with rfl | rfl
    · rw [tget_tput_ne _ _ _ _ (peer _ _ (by omega)), tget_tput_self]
    · rw [tget_tput_self]

/-- The root of the keys rests on the group's role, owner and catalogue. -/
theorem linkRoot_setLink (s : State) (g : Nat) {x : Link} (hr : x.role = (getLink s g).role)
    (ho : x.owner = (getLink s g).owner) (hc : x.cat = (getLink s g).cat) : linkRoot (setLink s g x) g = linkRoot s g := by
  have mode : grpMode (setLink s g x) g = grpMode s g := grpMode_congr rfl g
  simp only [linkRoot, getLink_setLink, hr, ho, hc, mode]
  rfl

/-! ## Leaving DOWN (R277, R278, R298) -/

/-- A group that is not DOWN, or must not leave it, stays. -/
theorem tryUp_stays {s : State} {g : Nat} (h : (getLink s g).st ≠ .down ∨ canUp s g = false) : tryUp s g = s := by
  refine if_neg fun ⟨hst, en, ok, locked⟩ => ?_
  rcases h with h | h
  · exact h hst
  · exact absurd (show canUp s g = true by rw [canUp, en, ok, locked]; rfl) (by rw [h]; decide)

/-- A group of two ends, or a receiver, that leaves DOWN goes to ALIGN. -/
theorem tryUp_aligns {s : State} {g : Nat} (hst : (getLink s g).st = .down) (h : canUp s g = true) (hm : grpMode s g ≠ 1) :
    OnGroup s (tryUp s g) g ∧ (grpMode s g = 2 → (tryUp s g).out = s.out) ∧
    ∃ ks c f a n, getLink (tryUp s g) g = { getLink s g with
      st := .align, since := s.clk.dst, locked := false, exch := false, keys := ks, crvc := c, fcTx := f, trainAt := a
      nakOut := n } := by
  obtain ⟨⟨en, ok⟩, locked⟩ : ((getLink s g).en = true ∧ enableOk s g = true) ∧ grpLocked s g = true := by
    simpa [canUp] using h
  let u := setLink s g { (getLink s g).go .align s.clk.dst with locked := false, exch := false }
  have run : tryUp s g = if grpMode (holdKeys u g) g = 0 then sendTraining (holdKeys u g) g (alignPay (holdKeys u g) g)
      else holdKeys u g := (if_pos ⟨hst, en, ok, locked⟩).trans (if_neg hm)
  have held : OnGroup s (holdKeys u g) g := (onGroup_setLink s g _).trans (onGroup_holdKeys u g)
  have mode : grpMode (holdKeys u g) g = grpMode s g := held.grpMode g
  have link : getLink (holdKeys u g) g = { getLink s g with
      st := .align, since := s.clk.dst, locked := false, exch := false, keys := (getLink (holdKeys u g) g).keys } := by
    rw [(holdKeys_spec u g).2, getLink_setLink]
    rfl
  rw [run, mode]
  by_cases h0 : grpMode s g = 0
  · rw [if_pos h0]
    obtain ⟨sent, after⟩ := sendTraining_sent (holdKeys u g) g (alignPay (holdKeys u g) g)
    refine ⟨held.trans sent.onGroup, fun h2 => absurd (h0.symm.trans h2) (by decide), ?_⟩
    rw [after, link]
    exact ⟨_, _, _, _, _, rfl⟩
  · rw [if_neg h0]
    refine ⟨held, fun _ => rfl, ?_⟩
    rw [link]
    exact ⟨_, _, _, _, _, rfl⟩

/-- Whatever a group's leaving DOWN does, it does to that group: owner, role and the rest of its record stay. -/
theorem tryUp_spec (s : State) (g : Nat) : OnGroup s (tryUp s g) g ∧
    ∃ st x lk ex ks c f a n, getLink (tryUp s g) g = { getLink s g with
      st := st, since := x, locked := lk, exch := ex, keys := ks, crvc := c, fcTx := f, trainAt := a, nakOut := n } := by
  by_cases hst : (getLink s g).st = .down
  · cases h : canUp s g with
    | false =>
      rw [tryUp_stays (.inr h)]
      exact ⟨.refl s g, _, _, _, _, _, _, _, _, _, rfl⟩
    | true =>
      by_cases hm : grpMode s g = 1
      · obtain ⟨⟨en, ok⟩, locked⟩ : ((getLink s g).en = true ∧ enableOk s g = true) ∧ grpLocked s g = true := by
          simpa [canUp] using h
        have run : tryUp s g = if (getLink s g).lanes.all (fun x => (laneAt s (g / 4) x.val).laser == .full)
            then holdKeys (goSt s g .up) g else s := (if_pos ⟨hst, en, ok, locked⟩).trans (if_pos hm)
        rw [run]
        split
        · refine ⟨(onGroup_setLink s g _).trans (onGroup_holdKeys _ g), ?_⟩
          rw [(holdKeys_spec _ g).2, goSt, getLink_setLink]
          exact ⟨_, _, _, _, _, _, _, _, _, rfl⟩
        · exact ⟨.refl s g, _, _, _, _, _, _, _, _, _, rfl⟩
      · obtain ⟨onGroup, -, ks, c, f, a, n, link⟩ := tryUp_aligns hst h hm
        exact ⟨onGroup, _, _, _, _, _, _, _, _, _, link⟩
  · rw [tryUp_stays (.inl hst)]
    exact ⟨.refl s g, _, _, _, _, _, _, _, _, _, rfl⟩

end Sys2Proof
end

section
/-! PROOFS. A lane group fails (R292): what that leaves of custody, memory and the other groups; and the obligation O53. -/

namespace Sys2Proof

open Sys2Proof.Machine

/-! ## What routing and failing leave -/

/-- Jobs fault at most and lane groups fail at most: custody, memory, roles and what waits for the Ledger stay. -/
structure NetKept (s t : State) : Prop where
  cus    : t.cus = s.cus
  mem    : t.mem = s.mem ∧ t.stale = s.stale
  clk    : t.clk = s.clk
  faults : FaultsOnly s t
  waits  : s.ldg.wait ⊆ t.ldg.wait
  links  : ∀ k, (getLink t k).role = (getLink s k).role ∧
    ((getLink t k).st = (getLink s k).st ∨ (getLink t k).st = .failed)

section
variable {s t u : State}

theorem NetKept.refl (s : State) : NetKept s s := ⟨rfl, ⟨rfl, rfl⟩, rfl, .refl s, .refl _, fun _ => ⟨rfl, .inl rfl⟩⟩

theorem NetKept.trans (h : NetKept s t) (k : NetKept t u) : NetKept s u where
  cus := k.cus.trans h.cus
  mem := ⟨k.mem.1.trans h.mem.1, k.mem.2.trans h.mem.2⟩
  clk := k.clk.trans h.clk
  faults := h.faults.trans k.faults
  waits := List.Subset.trans h.waits k.waits
  links i := by
    obtain ⟨role, st⟩ := h.links i
    obtain ⟨role', st'⟩ := k.links i
    refine ⟨role'.trans role, st'.elim (fun e => ?_) .inr⟩
    rw [e]
    exact st

/-- Neither links nor what `FaultsOnly` does not cover change. -/
theorem NetKept.of_faults (h : FaultsOnly s t) (hc : t.cus = s.cus) (hm : t.mem = s.mem) (hs : t.stale = s.stale)
    (hk : t.clk = s.clk) (hl : t.links = s.links) (hw : s.ldg.wait ⊆ t.ldg.wait) : NetKept s t :=
  ⟨hc, ⟨hm, hs⟩, hk, h, hw, fun k => by simp only [getLink, hl]; exact ⟨trivial, .inl trivial⟩⟩

/-- A lane group that has failed stays so. -/
theorem NetKept.failed (h : NetKept s t) {k : Nat} (hf : (getLink s k).st = .failed) : (getLink t k).st = .failed :=
  (h.links k).2.elim (fun e => e.trans hf) id

end

theorem netKept_bump (s : State) {o : Nat} (n : Nat) (ho : NotImgAddr o) : NetKept s (bump s o n) :=
  .of_faults (faultsOnly_bump s n ho) rfl rfl rfl rfl rfl (.refl _)

theorem netKept_post (s : State) {src : Nat} (sev code : Nat) (acc : BitVec 12) (d0 d1 : W32) (h : src ≠ pgSCH) :
    NetKept s (post s src sev code acc d0 d1) :=
  .of_faults (faultsOnly_post_of_ne s sev code acc d0 d1 h) (by simp) (by simp) (by simp) (by simp) (by simp)
    (post_logged s src sev code acc d0 d1).wait_subset

theorem netKept_fresh (s : State) : NetKept s (fresh s) := .of_faults (.of_eq rfl rfl) rfl rfl rfl rfl rfl (.refl _)

/-- A group's record changes, its role stays, and its state does or is FAILED. -/
theorem netKept_setLink (s : State) (g : Nat) (x : Link) (hr : x.role = (getLink s g).role)
    (hs : x.st = (getLink s g).st ∨ x.st = .failed) : NetKept s (setLink s g x) where
  cus := rfl
  mem := ⟨rfl, rfl⟩
  clk := rfl
  faults := .of_eq rfl rfl
  waits := .refl _
  links k := by
    by_cases h : k = g
    · subst h
      rw [getLink_setLink]
      exact ⟨hr, hs⟩
    · rw [getLink_setLink_ne s x h]
      exact ⟨rfl, .inl rfl⟩

/-- Entries of a table changed in place: an entry that is not listed reads as the default before and after. -/
theorem tget_map_snd {α : Type} (d : α) (f : α → α) (t : Tab α) (k : Nat) :
    tget d (t.map fun e => (e.1, f e.2)) k = f (tget d t k) ∨
      tget d (t.map fun e => (e.1, f e.2)) k = d ∧ tget d t k = d := by
  induction t with
  | nil => exact .inr ⟨rfl, rfl⟩
  | cons e t ih =>
    obtain ⟨i, v⟩ := e
    by_cases h : k = i
    · exact .inl ((if_pos h).trans (congrArg f (if_pos h).symm))
    · rw [List.map_cons, show tget d ((i, f v) :: t.map fun e => (e.1, f e.2)) k = _ from if_neg h,
        show tget d ((i, v) :: t) k = tget d t k from if_neg h]
      exact ih

/-- A job's end empties injection queues of its owner, and leaves lane groups else (R59). -/
theorem getLink_releaseHub (s : State) (j : Nat) (qs : List Nat) (k : Nat) :
    ∃ i l, getLink (releaseHub s j qs) k = { getLink s k with inj := i, late := l } := by
  let f : Link → Link := fun x => if x.owner = accOf s j then { x with inj := [], late := [] } else x
  have table : (releaseHub s j qs).links = s.links.map fun e => (e.1, f e.2) := by
    refine List.map_congr_left fun e _ => ?_
    dsimp only [f]
    split <;> rfl
  have kept (x : Link) : ∃ i l, f x = { x with inj := i, late := l } := by
    dsimp only [f]
    split
    · exact ⟨_, _, rfl⟩
    · exact ⟨_, _, rfl⟩
  rw [getLink, getLink, table]
  rcases tget_map_snd (Link.reset (k % 4)) f s.links k with h | ⟨h, h'⟩
  · rw [h]
    exact kept _
  · rw [h, h']
    exact ⟨_, _, rfl⟩

/-- A job's fault leaves each lane group but for its injection queue. -/
theorem getLink_jobFault (s : State) (j k : Nat) : ∃ i l, getLink (jobFault s j) k = { getLink s k with inj := i, late := l } := by
  unfold jobFault
  dsimp only
  split
  · exact ⟨_, _, rfl⟩
  · obtain ⟨i, l, h⟩ := getLink_releaseHub s j (jobQuads s j) k
    refine ⟨i, l, .trans ?_ h⟩
    simp only [getLink, raiseInt_frame]
    rfl

theorem netKept_jobFault (s : State) (j : Nat) : NetKept s (jobFault s j) where
  cus := by simp
  mem := ⟨by simp, by simp⟩
  clk := by simp
  faults := faultsOnly_jobFault s j
  waits := by rw [jobFault_ldg]; exact .refl _
  links k := by
    obtain ⟨i, l, h⟩ := getLink_jobFault s j k
    rw [h]
    exact ⟨rfl, .inl rfl⟩

/-! ## Routing (R286 to R290) -/

theorem netKept_rtrDrop (s : State) (code who acc g mid : Nat) : NetKept s (rtrDrop s code who acc g mid) := by
  unfold rtrDrop
  split
  · exact ((netKept_bump s 1 (notImgAddr_of_page _ (by decide))).trans (netKept_post _ _ _ _ _ _ (by decide))).trans
      (netKept_jobFault _ _)
  · exact netKept_post _ _ _ _ _ _ (by decide)

theorem netKept_putEgress (s : State) (g vc : Nat) (p : Packet) : NetKept s (putEgress s g vc p) :=
  netKept_setLink s g _ rfl (.inl rfl)

theorem netKept_routeOn (s : State) (j ed g vc : Nat) (p : Packet) : NetKept s (routeOn s j ed g vc p) := by
  unfold routeOn
  dsimp only
  split
  · exact netKept_rtrDrop _ _ _ _ _ _
  · split
    · split
      · exact netKept_putEgress _ _ _ _
      · exact netKept_rtrDrop _ _ _ _ _ _
    · exact netKept_rtrDrop _ _ _ _ _ _

theorem netKept_routeMc (s : State) (j ed g vc : Nat) (p : Packet) : NetKept s (routeMc s j ed g vc p) := by
  unfold routeMc
  dsimp only
  split
  · exact netKept_putEgress _ _ _ _
  · exact netKept_rtrDrop _ _ _ _ _ _

theorem netKept_injPut (s : State) (j g : Nat) (p : Packet) : NetKept s (injPut s j g p) := by
  unfold injPut
  split
  · exact netKept_setLink s g _ rfl (.inl rfl)
  · exact ((netKept_bump s 1 (notImgAddr_of_page _ (by decide))).trans (netKept_post _ _ _ _ _ _ (by decide))).trans
      (netKept_jobFault _ _)

theorem netKept_originate (s : State) (j g : Nat) (p : Packet) : NetKept s (originate s j g p) := by
  unfold originate
  dsimp only
  split
  · unfold originateMc
    dsimp only
    split
    · exact netKept_rtrDrop _ _ _ _ _ _
    · split
      · exact netKept_injPut _ _ _ _
      · exact netKept_rtrDrop _ _ _ _ _ _
  · split
    · split
      · exact (netKept_fresh s).trans (netKept_injPut _ _ _ _)
      · exact (netKept_fresh s).trans (netKept_rtrDrop _ _ _ _ _ _)
    · exact (netKept_fresh s).trans (netKept_rtrDrop _ _ _ _ _ _)

/-! ## Failing (R292) -/

theorem netKept_foldl {α : Type} {f : State → α → State} (step : ∀ s a, NetKept s (f s a)) (l : List α) (s : State) :
    NetKept s (l.foldl f s) := foldl_rel .refl .trans (fun a _ s => step s a) s

theorem netKept_failover (s : State) (g j : Nat) (l : Link) : NetKept s (failover s g j l) := by
  have multicast (s : State) (t : TxPkt) : NetKept s (if resident (getJob s j).st then
      jobFault (post s (pgLNK (g / 4)) sevFault 0x0C05 l.owner (d0Lnk l.owner.toNat g) (BitVec.ofNat 32 (pkMid t.pkt))) j
      else s) := by
    split
    · exact (netKept_post s _ _ _ _ _ (by simp only [pgLNK, pgSCH]; omega)).trans (netKept_jobFault _ j)
    · exact .refl s
  have set (s : State) (v : W32) : NetKept s (setReg s (at' pgRTR (0x100 + 0x40 * j)) v) :=
    .of_faults (.of_regsKept rfl (regsKept_setReg s _ v) (by simpa using notImgAddr_of_page _ (by decide))) rfl rfl rfl rfl rfl (.refl _)
  have moved (ed vc : Nat) (s : State) (p : Packet) : NetKept s (
      let p := { p with hdr := hdrPut p.hdr 12 6 (pkHops p - 1) }
      if pkMC p then routeMc s j ed g vc p else routeOn s j ed g vc p) := by
    dsimp only
    split
    · exact netKept_routeMc _ _ _ _ _ _
    · exact netKept_routeOn _ _ _ _ _ _
  unfold failover
  dsimp only
  split
  · refine ((((((set s _).trans (netKept_post _ _ _ _ _ _ (by decide))).trans (netKept_foldl multicast _ _)).trans
      (netKept_foldl (fun s t => ?_) _ _)).trans (netKept_bump _ _ (notImgAddr_of_page _ (by decide)))).trans
      (netKept_foldl (fun s e => netKept_foldl (moved _ _) _ _) _ _)).trans (netKept_foldl (fun s p => ?_) _ _)
    · exact (netKept_fresh s).trans (netKept_routeOn _ _ _ _ _ _)
    · split
      · exact netKept_originate _ _ _ _
      · exact .refl s
  · exact (netKept_post _ _ _ _ _ _ (by decide)).trans (netKept_jobFault _ j)

/-- Ending migrations touches the port's migrations and their new lanes (R318). -/
theorem endMigs_spec (s : State) (p : Nat) (q : Migration → Bool) :
    (∃ la, endMigs s p q = { s with
      opt := { s.opt with migs := tput [] s.opt.migs p ((tget [] s.opt.migs p).filter (fun m => !q m)) }, lanes := la }) ∧
    ((∀ m ∈ tget [] s.opt.migs p, q m = false) → (endMigs s p q).lanes = s.lanes) := by
  have lanes (l : List Migration) (u : State) : ∃ la, l.foldl (fun s m =>
      setLaneAt s p m.new.val { laneAt s p m.new.val with laser := (laneAt s p m.new.val).laser.down }) u =
      { u with lanes := la } := by
    induction l generalizing u with
    | nil => exact ⟨_, rfl⟩
    | cons m l ih =>
      obtain ⟨la, h⟩ := ih (setLaneAt u p m.new.val { laneAt u p m.new.val with laser := (laneAt u p m.new.val).laser.down })
      exact ⟨la, h⟩
  refine ⟨lanes _ _, fun h => ?_⟩
  have none : (tget [] s.opt.migs p).filter q = [] := List.filter_eq_nil_iff.2 fun m hm => by simp [h m hm]
  unfold endMigs
  rw [none]
  rfl

/-- What is left of the group's partial packets goes first. -/
def emptied (l : Link) : Link := { l with stream := [], synced := [] }

/-- The entry, the loss of partial packets, and the state FAILED (R292 steps 1 and 2). -/
def downed (s : State) (g : Nat) : State :=
  let s := post s (pgLNK (g / 4)) sevWarning 0x0C03 (getLink s g).owner (d0Own s g) 0
  let s := dropPartial s g
  let l := getLink s g
  setLink s g { l.go .failed s.clk.dst with
    replay := [], resend := [], flying := [], backlog := [], egress := [], inj := [], late := [], nak := false,
    nakOut := false }

theorem dropPartial_spec (s : State) (g : Nat) :
    dropPartial s g = { s with regs := (dropPartial s g).regs, links := (dropPartial s g).links } ∧
    getLink (dropPartial s g) g = emptied (getLink s g) ∧ (∀ i, i ≠ g → getLink (dropPartial s g) i = getLink s i) ∧
    RegsKept s (dropPartial s g) [lnkOff g 0x128] :=
  ⟨rfl, getLink_setLink _ g _, fun _ hi => getLink_setLink_ne _ _ hi, regsKept_bump s (lnkOff g 0x128) _⟩

theorem downed_spec (s : State) (g : Nat) :
    (∃ x r, downed s g = { s with ldg := x, regs := r, links := (downed s g).links }) ∧
    getLink (downed s g) g = failedLink s.clk.dst (getLink s g) ∧
    (∀ i, i ≠ g → getLink (downed s g) i = getLink s i) ∧
    RegsKept s (downed s g) [at' pgLDG 0x10C, lnkOff g 0x128] ∧
    Logged s (downed s g) (pgLNK (g / 4)) 1 0x0C03 (getLink s g).owner (d0Own s g) 0 := by
  have kept : RegsKept s _ [at' pgLDG 0x10C] := post_regs s (pgLNK (g / 4)) sevWarning 0x0C03 (getLink s g).owner (d0Own s g) 0
  have logged : Logged s _ _ _ _ _ _ _ := post_logged s (pgLNK (g / 4)) sevWarning 0x0C03 (getLink s g).owner (d0Own s g) 0
  obtain ⟨x, r, posted⟩ := post_touches s (pgLNK (g / 4)) sevWarning 0x0C03 (getLink s g).owner (d0Own s g) 0
  unfold downed
  dsimp only
  generalize post s (pgLNK (g / 4)) sevWarning 0x0C03 (getLink s g).owner (d0Own s g) 0 = v at *
  obtain ⟨frame, link, others, regs⟩ := dropPartial_spec v g
  generalize dropPartial v g = w at *
  have linkV (i : Nat) : getLink v i = getLink s i := by rw [posted]; rfl
  refine ⟨⟨x, w.regs, ?_⟩, ?_, fun i hi => ?_, kept.trans regs, ?_⟩
  · rw [frame, posted]
    rfl
  · rw [getLink_setLink, link, linkV, frame, posted]
    rfl
  · rw [getLink_setLink_ne _ _ hi, others i hi, linkV]
  · exact logged.congr (by rw [frame]; rfl)

/-- The state in which a group has failed and its migrations have ended, before its job is given the other edition. -/
def failedState (s : State) (g : Nat) : State := downed (endMigs s (g / 4) (fun m => decide (m.g.val = g % 4))) g

theorem failedState_spec (s : State) (g : Nat) :
    (∃ la x r, failedState s g = { s with
      opt := { s.opt with migs := tput [] s.opt.migs (g / 4) ((tget [] s.opt.migs (g / 4)).filter
        (fun m => !decide (m.g.val = g % 4))) }
      lanes := la, ldg := x, regs := r, links := (failedState s g).links } ∧
      ((∀ m ∈ tget [] s.opt.migs (g / 4), m.g.val ≠ g % 4) → la = s.lanes)) ∧
    getLink (failedState s g) g = failedLink s.clk.dst (getLink s g) ∧
    (∀ i, i ≠ g → getLink (failedState s g) i = getLink s i) ∧
    RegsKept s (failedState s g) [at' pgLDG 0x10C, lnkOff g 0x128] ∧
    Logged s (failedState s g) (pgLNK (g / 4)) 1 0x0C03 (getLink s g).owner (d0Own s g) 0 := by
  obtain ⟨⟨la, ended⟩, none⟩ := endMigs_spec s (g / 4) (fun m => decide (m.g.val = g % 4))
  unfold failedState
  generalize endMigs s (g / 4) (fun m => decide (m.g.val = g % 4)) = u at *
  obtain ⟨⟨x, r, frame⟩, link, others, regs, logged⟩ := downed_spec u g
  generalize downed u g = t at *
  have same (i : Nat) : getLink u i = getLink s i := by rw [ended]; rfl
  have own : d0Own u g = d0Own s g := by rw [d0Own, d0Own, same]
  refine ⟨⟨la, x, r, ?_, fun h => ?_⟩, ?_, fun i hi => (others i hi).trans (same i), fun o ho => ?_, ?_⟩
  · rw [frame, ended]
  · rw [← none fun m hm => decide_eq_false (h m hm), ended]
  · rw [link, same, ended]
  · exact (regs o ho).trans (reg_congr (by rw [ended]) o)
  · rw [same, own] at logged
    exact logged.before (by rw [ended]) (by rw [ended])

theorem linkFail_eq (s : State) (g : Nat) : linkFail s g =
    match residentAcc (failedState s g) (getLink s g).owner.toNat with
    | some j => failover (failedState s g) g j (emptied (getLink s g))
    | none => failedState s g := by
  have same (i : Nat) : getLink (endMigs s (g / 4) (fun m => decide (m.g.val = g % 4))) i = getLink s i := by
    obtain ⟨la, ended⟩ := (endMigs_spec s (g / 4) (fun m => decide (m.g.val = g % 4))).1
    rw [ended]
    rfl
  have left : getLink (dropPartial (post (endMigs s (g / 4) (fun m => decide (m.g.val = g % 4))) (pgLNK (g / 4)) sevWarning
      0x0C03 (getLink (endMigs s (g / 4) (fun m => decide (m.g.val = g % 4))) g).owner
      (d0Own (endMigs s (g / 4) (fun m => decide (m.g.val = g % 4))) g) 0) g) g = emptied (getLink s g) := by
    rw [(dropPartial_spec _ g).2.1, ← same g]
    simp only [getLink, post_frame]
  unfold linkFail failedState downed
  dsimp only
  rw [left]
  rfl

theorem netKept_failedState (s : State) (g : Nat) : NetKept s (failedState s g) := by
  obtain ⟨⟨la, x, r, frame, -⟩, link, others, regs, logged⟩ := failedState_spec s g
  refine ⟨by rw [frame], by rw [frame]; exact ⟨rfl, rfl⟩, by rw [frame], .of_regsKept (by rw [frame]) regs fun o ho => ?_,
    logged.wait_subset, fun k => ?_⟩
  · rcases List.mem_pair.1 ho with rfl | rfl
    · exact notImgAddr_of_ne (by decide) (by decide)
    · exact notImgAddr_of_page _ (by simp only [pgLNK, pgSCH]; omega)
  · by_cases h : k = g
    · subst h
      rw [link]
      exact ⟨rfl, .inr rfl⟩
    · rw [others k h]
      exact ⟨rfl, .inl rfl⟩

theorem linkFail_spec (s : State) (g : Nat) : NetKept s (linkFail s g) ∧ (getLink (linkFail s g) g).st = .failed := by
  have base := netKept_failedState s g
  have failed : (getLink (failedState s g) g).st = .failed := by rw [(failedState_spec s g).2.1]; rfl
  rw [linkFail_eq]
  split
  · have rest := netKept_failover (failedState s g) g ‹_› (emptied (getLink s g))
    exact ⟨base.trans rest, rest.failed failed⟩
  · exact ⟨base, failed⟩

end Sys2Proof
end

section
/-! PROOFS. Custody's commits of lane groups, keys and debug (R340, R361, R370), and the obligation O53. -/

namespace Sys2Proof

open Sys2Proof.Machine

/-! ## GROUP_OWN and KEY_LOAD (R340, R361) -/

/-- Lane groups and what was sent at most differ. -/
theorem tryUpAll_frame (s : State) : tryUpAll s = { s with links := (tryUpAll s).links, out := (tryUpAll s).out } :=
  foldl_rel (R := fun s t : State => t = { s with links := t.links, out := t.out }) (fun _ => rfl)
    (fun h k => by rw [k, h]) (fun g _ s => (tryUp_spec s g).1.frame) s

/-- The record of a lane group under its new owner. -/
def ownGroup (s : State) (w : BitVec 2048) : State :=
  setLink s (recGrp w) { getLink s (recGrp w) with
    role := recArg w % 4, owner := BitVec.ofNat 12 (recAcc w), passErr := false }

section
variable {r : CusReq} {s : State} (hr : s.cus.commit = some r) (ha : accOk s r.word = true)
  (hc : commitOk s r.word = true)
include hr ha hc

theorem exec_groupOwn_spec (h3 : recOp r.word = 3) : ∃ t, exec .groupOwn s = .next t ∧ Applied s t r ∧
    (getLink t (recGrp r.word)).role = recArg r.word % 4 ∧
    (getLink t (recGrp r.word)).owner = BitVec.ofNat 12 (recAcc r.word) ∧
    (∀ k, k ≠ recGrp r.word → getLink t k = getLink s k) ∧
    t = { s with links := t.links, out := t.out, cus := t.cus, ldg := t.ldg, regs := t.regs, mgt := t.mgt } := by
  let v := ownGroup (cusDiscard s) r.word
  obtain ⟨onGroup, st, x, lk, ex, ks, c, f, a, n, link⟩ := tryUp_spec v (recGrp r.word)
  have linkV : getLink v (recGrp r.word) = _ := getLink_setLink (cusDiscard s) (recGrp r.word) _
  have settled : Settled (cusDiscard s) (tryUp v (recGrp r.word)) := by
    rw [onGroup.frame]
    exact ⟨rfl, rfl, rfl, rfl, rfl⟩
  obtain ⟨t, run, ended⟩ := commitRow_settled (f := fun s w => tryUp (ownGroup s w) (recGrp w)) hr ha hc settled
  have links (k : Nat) : getLink t k = getLink (tryUp v (recGrp r.word)) k := by rw [ended.frame]; rfl
  rw [h3] at run
  refine ⟨t, congrArg Host.Outcome.next run, ended.applied, ?_, ?_, fun k hk => ?_, ?_⟩
  · rw [links, link, linkV]
  · rw [links, link, linkV]
  · rw [links, onGroup.others k hk]
    exact getLink_setLink_ne _ _ hk
  · have table : t.links = (tryUp v (recGrp r.word)).links := by rw [ended.frame]
    refine ended.frame.trans ?_
    rw [table, onGroup.frame]
    rfl

theorem exec_keyLoad_spec (h4 : recOp r.word = 4) : ∃ t, exec .keyLoad s = .next t ∧ Applied s t r ∧
    tget 0 t.cus.keys (recTgt r.word) = BitVec.ofNat 12 (recAcc r.word) ∧
    (∀ k, unwrapKey s r.word = some k → tget 0 t.cus.keyVals (recTgt r.word) = k) ∧
    ∀ k, k ≠ recTgt r.word → tget 0 t.cus.keys k = tget 0 s.cus.keys k ∧ tget 0 t.cus.keyVals k = tget 0 s.cus.keyVals k := by
  let load : State → BitVec 2048 → State := fun s w => { s with cus := { s.cus with
    keys := tput 0 s.cus.keys (recTgt w) (BitVec.ofNat 12 (recAcc w))
    keyVals := tput 0 s.cus.keyVals (recTgt w) ((unwrapKey s w).getD 0) } }
  have frame := tryUpAll_frame (load (cusDiscard s) r.word)
  have settled : Settled (cusDiscard s) (tryUpAll (load (cusDiscard s) r.word)) := by
    rw [frame]
    exact ⟨rfl, rfl, rfl, rfl, rfl⟩
  obtain ⟨t, run, ended⟩ := commitRow_settled (f := fun s w => tryUpAll (load s w)) hr ha hc settled
  have key : unwrapKey (cusDiscard s) r.word = unwrapKey s r.word :=
    unwrapKey_congr (s := s) (t := cusDiscard s) rfl r.word
  have cus : t.cus = { (load (cusDiscard s) r.word).cus with result := 2, badRun := 0 } := by
    rw [ended.cus, frame]
  rw [h4] at run
  refine ⟨t, congrArg Host.Outcome.next run, ended.applied, ?_, fun k hk => ?_, fun k hk => ⟨?_, ?_⟩⟩
  · simp [cus, load]
  · simp [cus, load, key, hk]
  · simp [cus, load, tget_tput, hk, cusDiscard]
  · simp [cus, load, tget_tput, hk, cusDiscard]

end

/-! ## DEBUG_ENABLE (R370) -/

/-- Its second step: what is sealed is zeroised and unsealed. -/
def unsealOne (s : State) (q : Nat) : State := if sealed s q then setSeal (zeroise s q) q false else s

/-- Its fourth step on one group: an encrypted group loses its keys and fails. -/
def failEncrypted (s : State) (g : Nat) : State :=
  if (getLink s g).role = 1 then
    let s := setLink s g { getLink s g with keys := [] }
    if (getLink s g).st ≠ .failed then linkFail s g else s
  else s

theorem unsealOne_spec (s : State) {q : Nat} (hq : q < 4) :
    (∃ m st fl x0 x1 x2 x3 se z, unsealOne s q = { s with
      mem := m, stale := st, flaws := fl, cores := x0, clus := x1, fab := x2, bar2 := x3
      cus := { s.cus with seals := se, zbusy := z } }) ∧
    (∀ k, sealed (unsealOne s q) k = if q = k then false else sealed s k) ∧
    (∀ x, 2 ^ 48 ≤ x → rdByte (unsealOne s q) x =
      if x / 2 ^ 39 % 4 = q ∧ sealed s q = true then 0 else rdByte s x) := by
  unfold unsealOne
  cases hs : sealed s q with
  | true =>
    obtain ⟨⟨m, st, fl, x0, x1, x2, x3, z, frame⟩, read, -, -⟩ := zeroise_spec s q
    simp only [if_true, and_true]
    refine ⟨⟨m, st, fl, x0, x1, x2, x3, (setSeal (zeroise s q) q false).cus.seals, z, ?_⟩, fun k => ?_, fun x hx => ?_⟩
    · rw [setSeal, frame]
    · refine (sealed_setSeal (zeroise s q) hq false k).trans ?_
      rw [frame]
      rfl
    · exact (rdByte_congr rfl rfl x).trans (read x hx)
  | false =>
    simp only [Bool.false_eq_true, if_false, and_false]
    refine ⟨⟨_, _, _, _, _, _, _, _, _, rfl⟩, fun k => ?_, fun _ _ => trivial⟩
    by_cases h : q = k
    · rw [if_pos h, ← h, hs]
    · rw [if_neg h]

/-- All four quadrants. -/
def unsealAll (s : State) : State := [0, 1, 2, 3].foldl unsealOne s

theorem unsealAll_spec (s : State) :
    (∃ m st fl x0 x1 x2 x3 se z, unsealAll s = { s with
      mem := m, stale := st, flaws := fl, cores := x0, clus := x1, fab := x2, bar2 := x3
      cus := { s.cus with seals := se, zbusy := z } }) ∧
    (∀ q < 4, sealed (unsealAll s) q = false) ∧
    (∀ x, 2 ^ 48 ≤ x → sealed s (x / 2 ^ 39 % 4) = true → rdByte (unsealAll s) x = 0) := by
  have quads : ∀ q ∈ [0, 1, 2, 3], q < 4 := by decide
  have listed : ∀ q < 4, q ∈ [0, 1, 2, 3] := by decide
  refine ⟨?_, fun k hk => ?_, fun x hx hs => ?_⟩
  · refine foldl_rel (R := fun s t : State => ∃ m st fl x0 x1 x2 x3 se z, t = { s with
      mem := m, stale := st, flaws := fl, cores := x0, clus := x1, fab := x2, bar2 := x3
      cus := { s.cus with seals := se, zbusy := z } }) (fun s => ⟨_, _, _, _, _, _, _, _, _, rfl⟩) ?_
      (fun q hq s => (unsealOne_spec s (quads q hq)).1) s
    rintro s t u ⟨_, _, _, _, _, _, _, _, _, rfl⟩ ⟨_, _, _, _, _, _, _, _, _, rfl⟩
    exact ⟨_, _, _, _, _, _, _, _, _, rfl⟩
  · exact (foldl_named (f := unsealOne) (obs := fun s => sealed s k) (k := k)
      (fun q hq s => (unsealOne_spec s (quads q hq)).2.1 k) s).trans (if_pos (listed k hk))
  · let k := x / 2 ^ 39 % 4
    have hk : k < 4 := Nat.mod_lt _ (by decide)
    obtain ⟨u, before, after⟩ := foldl_around (f := unsealOne)
      (R := fun s t : State => sealed t k = sealed s k ∧ rdByte t x = rdByte s x) (fun _ => ⟨rfl, rfl⟩)
      (fun h h' => ⟨h'.1.trans h.1, h'.2.trans h.2⟩) (show [0, 1, 2, 3].Nodup by decide) (listed k hk) (fun q hq hne s => by
        obtain ⟨-, seals, read⟩ := unsealOne_spec s (quads q hq)
        exact ⟨(seals k).trans (if_neg hne), (read x hx).trans (if_neg fun h => hne h.1.symm)⟩) s
    obtain ⟨-, -, read⟩ := unsealOne_spec u hk
    exact after.2.trans ((read x hx).trans (if_pos ⟨rfl, before.1.trans hs⟩))

theorem failEncrypted_spec (s : State) (g : Nat) : NetKept s (failEncrypted s g) ∧
    ((getLink s g).role = 1 → (getLink (failEncrypted s g) g).st = .failed) := by
  unfold failEncrypted
  by_cases h : (getLink s g).role = 1
  · rw [if_pos h]
    dsimp only
    let u := setLink s g { getLink s g with keys := [] }
    have set : NetKept s u := netKept_setLink s g _ rfl (.inl rfl)
    by_cases hf : (getLink u g).st = .failed
    · rw [if_neg (not_not.2 hf)]
      exact ⟨set, fun _ => hf⟩
    · rw [if_pos hf]
      obtain ⟨kept, failed⟩ := linkFail_spec u g
      exact ⟨set.trans kept, fun _ => failed⟩
  · rw [if_neg h]
    exact ⟨.refl s, fun h' => absurd h' h⟩

/-- All 24 groups. -/
def failAllEncrypted (s : State) : State := (List.range 24).foldl failEncrypted s

theorem failAllEncrypted_spec (s : State) : NetKept s (failAllEncrypted s) ∧
    ∀ g < 24, (getLink s g).role = 1 → (getLink (failAllEncrypted s) g).st = .failed := by
  refine ⟨netKept_foldl (fun s g => (failEncrypted_spec s g).1) _ s, fun g hg hr => ?_⟩
  obtain ⟨u, before, after⟩ := foldl_around (f := failEncrypted) NetKept.refl (fun h k => h.trans k) List.nodup_range
    (List.mem_range.2 hg) (fun b _ _ s => (failEncrypted_spec s b).1) s
  exact after.failed ((failEncrypted_spec u g).2 ((before.links g).1.trans hr))

/-- READY follows the epoch and HALT (R339); a fall is logged and signalled. -/
theorem topCheckD_spec (s : State) (d0 : W32) :
    (∃ r l o, topCheckD s d0 = { s with
      top := { s.top with ready := decide (s.top.epoch ≠ 0) && !anyHalt s }, regs := r, ldg := l, out := o }) ∧
    RegsKept s (topCheckD s d0) [at' pgLDG 0x10C, at' pgTOP 0x10] := by
  unfold topCheckD
  dsimp only
  split
  · let u : State := { s with top := { s.top with ready := decide (s.top.epoch ≠ 0) && !anyHalt s } }
    obtain ⟨l, r, posted⟩ := post_touches u pgTOP sevWarning 0x0E01 0 d0 0
    obtain ⟨r', o, raised⟩ := raiseInt_touches (post u pgTOP sevWarning 0x0E01 0 d0 0) pgTOP 0
    refine ⟨⟨r', l, o, ?_⟩, (show RegsKept s (post u pgTOP sevWarning 0x0E01 0 d0 0) [at' pgLDG 0x10C] from
      post_regs u pgTOP sevWarning 0x0E01 0 d0 0).trans (raiseInt_spec _ pgTOP 0).2⟩
    refine raised.trans ?_
    rw [posted]
  · exact ⟨⟨_, _, _, rfl⟩, fun _ _ => rfl⟩

/-- Fresh keys for all quadrants. -/
theorem freshKeys_spec (s : State) :
    (∃ m st d x, [0, 1, 2, 3].foldl freshKey s = { s with mem := m, stale := st, draws := d, cus := { s.cus with xts := x } }) ∧
    ∀ a, 2 ^ 47 ≤ a → rdByte ([0, 1, 2, 3].foldl freshKey s) a = rdByte s a := by
  have quads : ∀ q ∈ [0, 1, 2, 3], q < 4 := by decide
  refine ⟨foldl_rel (R := fun s t : State => ∃ m st d x, t = { s with
      mem := m, stale := st, draws := d, cus := { s.cus with xts := x } }) (fun s => ⟨_, _, _, _, rfl⟩) ?_
      (fun q _ s => ?_) s, fun a ha => ?_⟩
  · rintro s t u ⟨_, _, _, _, rfl⟩ ⟨_, _, _, _, rfl⟩
    exact ⟨_, _, _, _, rfl⟩
  · obtain ⟨m, st, x, h⟩ := (freshKey_spec s q).1
    exact ⟨m, st, _, x, h⟩
  · exact foldl_keeps (obs := fun s => rdByte s a) (fun q hq s => (freshKey_spec s q).2 (quads q hq) a ha) s

/-- DEBUG_ENABLE before its entry: jobs end, seals and keys go, encrypted groups fail, every quadrant has a fresh key. -/
def debugged (s : State) : State :=
  let s := unsealAll ([0, 1, 2, 3].foldl jobFault s)
  let s := failAllEncrypted { s with cus := { s.cus with keys := [], keyVals := [] } }
  [0, 1, 2, 3].foldl freshKey (topCheckD s 0)

theorem debugged_spec (s : State) :
    (∃ se z x, (debugged s).cus = { s.cus with seals := se, zbusy := z, xts := x, keys := [], keyVals := [] }) ∧
    (∀ j < 4, resident (getJob (debugged s) j).st = false) ∧ (∀ q < 4, sealed (debugged s) q = false) ∧
    (∀ x, 2 ^ 48 ≤ x → sealed s (x / 2 ^ 39 % 4) = true → rdByte (debugged s) x = 0) ∧
    ∀ g < 24, (getLink s g).role = 1 → (getLink (debugged s) g).st = .failed := by
  have ended : NetKept s ([0, 1, 2, 3].foldl jobFault s) := netKept_foldl netKept_jobFault _ s
  have listed : ∀ j < 4, j ∈ [0, 1, 2, 3] := by decide
  have jobs (j : Nat) (hj : j < 4) := no_resident_after [0, 1, 2, 3] j s (.inr (listed j hj))
  unfold debugged
  dsimp only
  generalize [0, 1, 2, 3].foldl jobFault s = u at *
  obtain ⟨⟨m, st, fl, x0, x1, x2, x3, se, z, wiped⟩, seals, read⟩ := unsealAll_spec u
  generalize unsealAll u = v at *
  obtain ⟨kept, failed⟩ := failAllEncrypted_spec { v with cus := { v.cus with keys := [], keyVals := [] } }
  generalize failAllEncrypted { v with cus := { v.cus with keys := [], keyVals := [] } } = w at *
  obtain ⟨⟨r, l, o, checked⟩, -⟩ := topCheckD_spec w 0
  generalize topCheckD w 0 = y at *
  obtain ⟨⟨m', st', d, x, keyed⟩, high⟩ := freshKeys_spec y
  generalize [0, 1, 2, 3].foldl freshKey y = t at *
  have links (g : Nat) : getLink t g = getLink w g := by rw [keyed, checked]; rfl
  have job (j : Nat) : getJob t j = getJob w j := by rw [keyed, checked]; rfl
  refine ⟨⟨se, z, x, ?_⟩, fun j hj => ?_, fun q hq => ?_, fun a ha hs => ?_, fun g hg hr => ?_⟩
  · rw [keyed, checked, kept.cus, wiped, ended.cus]
  · rw [job]
    have idle : resident (getJob v j).st = false := by rw [wiped]; exact jobs j hj
    rcases kept.faults.jobs j with hf | ⟨hst, -⟩
    · rw [hf]; rfl
    · rw [hst]; exact idle
  · have same : sealed t q = sealed v q := by rw [keyed, checked, sealed, kept.cus]; rfl
    exact same.trans (seals q hq)
  · have sealedU : sealed u (a / 2 ^ 39 % 4) = true := by rw [sealed, ended.cus]; exact hs
    calc rdByte t a = rdByte y a := high a (by omega)
      _ = rdByte w a := rdByte_congr (by rw [checked]) (by rw [checked]) a
      _ = rdByte v a := rdByte_congr kept.mem.1 kept.mem.2 a
      _ = 0 := read a ha sealedU
  · rw [links]
    refine failed g hg ?_
    have role : (getLink v g).role = (getLink s g).role := by rw [wiped]; exact (ended.links g).1
    exact role.trans hr

/-- Its last step: DEBUG, and the entry, which names a party. -/
def debugSet (s : State) (w : BitVec 2048) (p : Party) : State :=
  cusPost { s with cus := { s.cus with debug := true } } sevError 0x0F06 w rCommitted p

theorem debugSet_touches (s : State) (w : BitVec 2048) (p : Party) :
    ∃ l g, debugSet s w p = { s with cus := { s.cus with debug := true }, ldg := l, regs := g } :=
  post_touches { s with cus := { s.cus with debug := true } } pgCUS sevError 0x0F06 _ _ _

theorem exec_debugEnable_run (s : State) : ∃ f, exec .debugEnable s = .next (commitRow s 9 f) ∧
    ∀ u w, ∃ p, f u w = debugSet (debugged u) w p := by
  refine ⟨_, rfl, fun u w => ?_⟩
  delta debugSet debugged unsealAll failAllEncrypted unsealOne failEncrypted
  exact ⟨_, rfl⟩

/-- What DEBUG_ENABLE does before its answer. -/
structure DebugOn (s u : State) : Prop where
  cus : ∃ se z x, u.cus = { s.cus with seals := se, zbusy := z, xts := x, keys := [], keyVals := [], debug := true }
  jobs : ∀ j < 4, resident (getJob u j).st = false
  seals : ∀ q < 4, sealed u q = false
  read : ∀ x, 2 ^ 48 ≤ x → sealed s (x / 2 ^ 39 % 4) = true → rdByte u x = 0
  failed : ∀ g < 24, (getLink s g).role = 1 → (getLink u g).st = .failed

theorem debugSet_debugged (s : State) (w : BitVec 2048) (p : Party) : DebugOn s (debugSet (debugged s) w p) := by
  obtain ⟨⟨se, z, x, cus⟩, jobs, seals, read, failed⟩ := debugged_spec s
  generalize debugged s = d at *
  obtain ⟨l, g, entry⟩ := debugSet_touches d w p
  have cusD : (debugSet d w p).cus = { d.cus with debug := true } := by rw [entry]
  refine ⟨⟨se, z, x, ?_⟩, fun j hj => ?_, fun q hq => ?_, fun a h hs => ?_, fun k hk hr => ?_⟩
  · rw [cusD, cus]
  · rw [entry]; exact jobs j hj
  · refine .trans ?_ (seals q hq)
    rw [sealed, sealed, cusD]
  · exact (rdByte_congr (by rw [entry]) (by rw [entry]) a).trans (read a h hs)
  · rw [entry]; exact failed k hk hr

theorem debugOn_applied {r : CusReq} {s u : State} {f : State → BitVec 2048 → State} (hr : s.cus.commit = some r)
    (ha : accOk s r.word = true) (hc : commitOk s r.word = true) (set : f (cusDiscard s) r.word = u)
    (h : DebugOn (cusDiscard s) u) : ∃ t, commitRow s (recOp r.word) f = t ∧ t.cus.debug = true ∧
      t.cus.keys = [] ∧ t.cus.keyVals = [] ∧ t.cus.busy = false ∧ t.cus.result = 2 ∧
      (∀ j < 4, resident (getJob t j).st = false) ∧ (∀ q < 4, sealed t q = false ∧ owner t q = owner s q) ∧
      (∀ x, 2 ^ 48 ≤ x → sealed s (x / 2 ^ 39 % 4) = true → rdByte t x = 0) ∧
      ∀ g < 24, (getLink s g).role = 1 → (getLink t g).st = .failed := by
  obtain ⟨t, run, cusT, frame, -, -⟩ := commitRow_ends hr ha hc set
  obtain ⟨⟨se, z, x, cus⟩, jobs, seals, read, failed⟩ := h
  refine ⟨t, run, by rw [cusT, cus], by rw [cusT, cus], by rw [cusT, cus], by rw [cusT, cus]; rfl, by rw [cusT],
    fun j hj => ?_, fun q hq => ⟨?_, ?_⟩, fun a h hs => ?_, fun k hk hr => ?_⟩
  · rw [frame]
    exact jobs j hj
  · refine .trans ?_ (seals q hq)
    rw [sealed, sealed, cusT]
  · rw [owner, cusT, cus]
    rfl
  · exact (rdByte_congr (by rw [frame]) (by rw [frame]) a).trans (read a h hs)
  · rw [frame]
    exact failed k hk hr

theorem exec_debugEnable_spec {r : CusReq} {s : State} (hr : s.cus.commit = some r) (ha : accOk s r.word = true)
    (hc : commitOk s r.word = true) (h9 : recOp r.word = 9) : ∃ t, exec .debugEnable s = .next t ∧ t.cus.debug = true ∧
      t.cus.keys = [] ∧ t.cus.keyVals = [] ∧ t.cus.busy = false ∧ t.cus.result = 2 ∧
      (∀ j < 4, resident (getJob t j).st = false) ∧ (∀ q < 4, sealed t q = false ∧ owner t q = owner s q) ∧
      (∀ x, 2 ^ 48 ≤ x → sealed s (x / 2 ^ 39 % 4) = true → rdByte t x = 0) ∧
      ∀ g < 24, (getLink s g).role = 1 → (getLink t g).st = .failed := by
  obtain ⟨f, runs, sets⟩ := exec_debugEnable_run s
  obtain ⟨p, set⟩ := sets (cusDiscard s) r.word
  obtain ⟨t, run, rest⟩ := debugOn_applied hr ha hc set (debugSet_debugged (cusDiscard s) r.word p)
  rw [h9] at run
  exact ⟨t, runs.trans (congrArg Host.Outcome.next run), rest⟩

/-! ## The obligation -/

/-- ZEROISE_DONE ends the wait of its quadrant alone (R369). -/
theorem exec_zeroiseDone_spec (q : Fin 4) (s : State) : ∃ t, exec (.zeroiseDone q) s = .next t ∧
    bit t.cus.zbusy q = false ∧ (∀ i, i < 4 → i ≠ q.val → bit t.cus.zbusy i = bit s.cus.zbusy i) ∧
    t = { s with cus := { s.cus with zbusy := t.cus.zbusy } } := by
  refine ⟨_, rfl, ?_, fun i hi hne => ?_, rfl⟩
  · exact (bit_andNot_twoPow _ q.isLt).trans (by simp)
  · exact (bit_andNot_twoPow _ hi).trans (by simp [hne])

/-- Settles O53: an operation whose condition holds ends by `commitRow_ends`, on the named quadrants by a walk over them;
every other record ends by `commitRow_refused`. -/
theorem custodyCommits : Obligations.CustodyCommits := by
  refine ⟨fun r s hr ha hc => ⟨exec_quadAssign_spec hr ha hc, exec_quadRelease_spec hr ha hc, exec_groupOwn_spec hr ha hc,
    exec_keyLoad_spec hr ha hc, exec_keyErase_spec hr ha hc, exec_seal_spec hr ha hc, exec_unseal_spec hr ha hc,
    exec_fuseWrite_spec hr ha hc, exec_debugEnable_spec hr ha hc, exec_debugDisable_spec hr ha hc⟩,
    fun r s hr h e he hop => ?_, exec_zeroiseDone_spec⟩
  have refused (f : State → BitVec 2048 → State) (op : Nat) (hop : recOp r.word = op) :
      ∃ t, Host.Outcome.next (commitRow s op f) = (.next t : Res) ∧ t.cus = { s.cus with
        busy := false, commit := none, pend := 0, dline := 0, badRun := 0, result := if accOk s r.word then 8 else 12 } ∧
      t = { s with cus := t.cus, regs := t.regs, ldg := t.ldg, out := t.out, mgt := t.mgt } := by
    subst hop
    obtain ⟨t, run, cus, frame⟩ := commitRow_refused hr h f
    exact ⟨t, congrArg Host.Outcome.next run, cus, frame⟩
  simp only [List.mem_cons, List.not_mem_nil, or_false] at he
  rcases he with rfl | rfl | rfl | rfl | rfl | rfl | rfl | rfl | rfl | rfl <;> exact refused _ _ hop

end Sys2Proof
end

section
/-! PROOFS. The states of a lane group, and lanes that fail: the obligation O42 (R266, R277, R278, R292, R298, R365). -/

namespace Sys2Proof

open Sys2Proof.Machine

/-! ## Leaving DOWN at once -/

/-- Whether a group can leave DOWN rests on its enable, catalogue, role, owner, lanes and their optics, and custody's keys. -/
theorem canUp_congr {s t : State} {g : Nat} (hc : t.cus = s.cus) (hl : t.lanes = s.lanes) (hx : t.cells = s.cells)
    (en : (getLink t g).en = (getLink s g).en) (cat : (getLink t g).cat = (getLink s g).cat)
    (role : (getLink t g).role = (getLink s g).role) (own : (getLink t g).owner = (getLink s g).owner)
    (lanes : (getLink t g).lanes = (getLink s g).lanes) : canUp t g = canUp s g := by
  simp only [canUp, enableOk, grpLocked, optLocked, laneAt, cellAt, getLane, getCell, keyLoaded, hc, hl, hx, en, cat, role, own,
    lanes]

/-- What a group that is not a source has done that has just entered DOWN: it leaves it at once if it can. -/
structure Resettled (s t : State) (g : Nat) : Prop where
  st     : (getLink t g).st = if canUp s g = true then .align else .down
  since  : (getLink t g).since = s.clk.dst
  others : ∀ i, i ≠ g → getLink t i = getLink s i

theorem tryUp_resettled {s : State} {g : Nat} (hst : (getLink s g).st = .down) (hn : (getLink s g).since = s.clk.dst)
    (hm : grpMode s g ≠ 1) : Resettled s (tryUp s g) g ∧ OnGroup s (tryUp s g) g ∧
      (grpMode s g = 2 → (tryUp s g).out = s.out) := by
  cases h : canUp s g with
  | true =>
    obtain ⟨onGroup, silent, ks, c, f, a, n, link⟩ := tryUp_aligns hst h hm
    exact ⟨⟨by rw [link, h]; rfl, by rw [link], onGroup.others⟩, onGroup, silent⟩
  | false =>
    rw [tryUp_stays (.inr h)]
    exact ⟨⟨by rw [hst, h]; rfl, hn, fun _ _ => rfl⟩, .refl s g, fun _ => rfl⟩

/-- The group goes to DOWN in `u`, and leaves it at once if it can. -/
theorem Resettled.of_down {s u t : State} {g : Nat} (h : Resettled u t g) (hu : canUp u g = canUp s g)
    (hc : u.clk = s.clk) (ho : ∀ i, i ≠ g → getLink u i = getLink s i) : Resettled s t g :=
  ⟨by rw [← hu]; exact h.st, by rw [← hc]; exact h.since, fun i hi => (h.others i hi).trans (ho i hi)⟩

theorem resettled_of_set {s u : State} {g : Nat} {x : Link} (hu : u = { setLink s g x with regs := u.regs })
    (hr : grpMode u g = grpMode s g) (hm : grpMode s g ≠ 1) (hst : x.st = .down) (hn : x.since = s.clk.dst)
    (en : x.en = (getLink s g).en) (cat : x.cat = (getLink s g).cat) (role : x.role = (getLink s g).role)
    (own : x.owner = (getLink s g).owner) (lanes : x.lanes = (getLink s g).lanes) :
    Resettled s (tryUp u g) g ∧ OnGroup u (tryUp u g) g ∧ (grpMode s g = 2 → (tryUp u g).out = s.out) := by
  have link : getLink u g = x := by rw [hu]; exact getLink_setLink s g x
  have out : u.out = s.out := by rw [hu]; rfl
  obtain ⟨settled, onGroup, silent⟩ := tryUp_resettled (s := u) (g := g) (by rw [link, hst])
    (by rw [link, hn, hu]; rfl) (by rw [hr]; exact hm)
  refine ⟨settled.of_down ?_ (by rw [hu]; rfl) fun i hi => ?_, onGroup, fun h => (silent (hr.trans h)).trans out⟩
  · exact canUp_congr (by rw [hu]; rfl) (by rw [hu]; rfl) (by rw [hu]; rfl) (by rw [link, en]) (by rw [link, cat])
      (by rw [link, role]) (by rw [link, own]) (by rw [link, lanes])
  · rw [hu]
    exact getLink_setLink_ne s x hi

/-- A group's mode reads no register of a link page (R311). -/
theorem grpMode_of_regsKept {s t : State} {os : List Nat} (h : RegsKept s t os) {g : Nat}
    (ho : at' pgOPT (0x160 + 4 * (g / 4)) ∉ os) : grpMode t g = grpMode s g := by
  rw [grpMode, grpMode, h _ ho]

/-! ## Timeouts and the lock (R277, R278, R365) -/

theorem Grp.key_lt (g : Grp) : g.key < 24 := by
  obtain ⟨⟨p, hp⟩, ⟨k, hk⟩⟩ := g
  simp only [Grp.key]
  omega

theorem Grp.key_div (g : Grp) : g.key / 4 = g.p.val := by
  obtain ⟨⟨p, hp⟩, ⟨k, hk⟩⟩ := g
  simp only [Grp.key]
  omega

theorem Grp.key_mod (g : Grp) : g.key % 4 = g.g.val := by
  obtain ⟨⟨p, hp⟩, ⟨k, hk⟩⟩ := g
  simp only [Grp.key]
  omega

theorem exec_alignLock_align (g : Grp) {s : State} {skew : Nat} (hs : skew ≤ 64) (hl : grpLocked s g.key = true)
    (hst : (getLink s g.key).st = .align) (hm : grpMode s g.key = 0) :
    ∃ t, exec (.alignLock g skew) s = .next t ∧ SentOn s t g.key 2 (hdrOf s g.key 2 0 0 0xFF) (identRec s g.key) ∧
      getLink t g.key = { flitSent (getLink s g.key) with
        st := .ident, since := s.clk.dst, locked := true, exch := false, trainAt := s.clk.dst } := by
  let x : Link := { (getLink s g.key).go .ident s.clk.dst with locked := true, exch := false }
  have link : getLink (setLink s g.key x) g.key = x := getLink_setLink s g.key x
  have ident : identRec (setLink s g.key x) g.key = identRec s g.key := by simp only [identRec, link]; rfl
  have header : hdrOf (setLink s g.key x) g.key 2 0 0 0xFF = hdrOf s g.key 2 0 0 0xFF := by
    simp only [hdrOf, link, grpMode_congr (s := s) (t := setLink s g.key x) rfl]
    rfl
  obtain ⟨sent, after⟩ := sendTraining_sent (setLink s g.key x) g.key (identRec s g.key)
  rw [header] at sent
  refine ⟨_, ?_, sent.of_setLink rfl rfl rfl rfl, ?_⟩
  · have run : exec (.alignLock g skew) s = execAlignLock g skew s := rfl
    rw [run, execAlignLock, if_neg (by simp [hl]; omega), hst, ← ident]
    exact congrArg Host.Outcome.next (if_pos ((grpMode_congr rfl g.key).trans hm))
  · rw [after, link]
    rfl

theorem exec_alignTimeout_spec (g : Grp) {s : State} (hst : (getLink s g.key).st = .align)
    (hn : (getLink s g.key).since + 60000000 ≤ s.clk.dst) (hm : grpMode s g.key ≠ 1) :
    ∃ t, exec (.alignTimeout g) s = .next t ∧ Resettled s t g.key ∧
      reg t (lnkOff g.key 0x12C) = satAdd (reg s (lnkOff g.key 0x12C)) 1 ∧ RegsKept s t [lnkOff g.key 0x12C] ∧
      t = { s with links := t.links, regs := t.regs, out := t.out } := by
  let u := bump (goSt s g.key .down) (lnkOff g.key 0x12C) 1
  have regs : RegsKept s u [lnkOff g.key 0x12C] := regsKept_bump (goSt s g.key .down) (lnkOff g.key 0x12C) 1
  have mode : grpMode u g.key = grpMode s g.key := grpMode_of_regsKept regs (by
    have := g.key_lt
    rw [List.mem_singleton]
    simp only [at', lnkOff, pgLNK, pgOPT]
    omega)
  obtain ⟨settled, onGroup, -⟩ := resettled_of_set (u := u) (x := (getLink s g.key).go .down s.clk.dst) rfl mode hm rfl rfl
    rfl rfl rfl rfl rfl
  refine ⟨tryUp u g.key, congrArg Host.Outcome.next (if_pos ⟨hst, hn⟩), settled, ?_, ?_, ?_⟩
  · rw [onGroup.reg]
    exact reg_bump (goSt s g.key .down) _ 1
  · exact fun o ho => (onGroup.reg o).trans (regs o ho)
  · rw [onGroup.regs]
    exact onGroup.frame

theorem exec_creditAuthTimeout_spec (g : Grp) {s : State} (hst : (getLink s g.key).st = .credit)
    (hn : (getLink s g.key).since + 6000000 ≤ s.clk.dst) (hm : grpMode s g.key ≠ 1) :
    ∃ t, exec (.creditAuthTimeout g) s = .next t ∧ Resettled s t g.key ∧
      t = { s with links := t.links, out := t.out } := by
  obtain ⟨settled, onGroup, -⟩ := resettled_of_set (u := goSt s g.key .down) (x := (getLink s g.key).go .down s.clk.dst) rfl
    (grpMode_congr rfl _) hm rfl rfl rfl rfl rfl rfl rfl
  exact ⟨_, congrArg Host.Outcome.next (if_pos ⟨hst, hn⟩), settled, onGroup.frame⟩

theorem exec_onewayIdentTimeout_spec (g : Grp) {s : State} (hst : (getLink s g.key).st = .ident)
    (hm : grpMode s g.key = 2) (hx : (getLink s g.key).exch = true) (hn : (getLink s g.key).since + 6000000 ≤ s.clk.dst) :
    ∃ t, exec (.onewayIdentTimeout g) s = .next t ∧ Resettled s t g.key ∧ OnlyLink s t g.key := by
  let x : Link := { (getLink s g.key).go .down s.clk.dst with exch := false }
  obtain ⟨settled, onGroup, silent⟩ := resettled_of_set (u := setLink s g.key x) (x := x) rfl
    (grpMode_congr rfl _) (by omega) rfl rfl rfl rfl rfl rfl rfl
  refine ⟨_, congrArg Host.Outcome.next (if_pos ⟨hst, hm, hx, hn⟩), settled, ?_⟩
  exact ((onGroup_setLink s g.key x).trans onGroup).onlyLink (silent hm)

/-! ## RETRAIN_TIMEOUT: the group fails (R277, R292) -/

theorem residentAcc_some {s : State} {a j : Nat} (h : residentAcc s a = some j) :
    j < 4 ∧ resident (getJob s j).st = true := by
  have listed : ∀ i ∈ [0, 1, 2, 3], i < 4 := by decide
  have hit := List.find?_some h
  simp only [Bool.and_eq_true] at hit
  exact ⟨listed j (List.mem_of_find?_eq_some h), hit.1.2⟩

theorem failedState_residentAcc (s : State) (g a : Nat) : residentAcc (failedState s g) a = residentAcc s a := by
  obtain ⟨⟨la, x, r, frame, -⟩, -⟩ := failedState_spec s g
  exact residentAcc_congr (by rw [frame]) a

theorem failedState_getJob (s : State) (g j : Nat) : getJob (failedState s g) j = getJob s j := by
  obtain ⟨⟨la, x, r, frame, -⟩, -⟩ := failedState_spec s g
  rw [frame]
  rfl

theorem failedState_rtrEd (s : State) (g : Nat) {j : Nat} (hj : j < 4) : rtrEd (failedState s g) j = rtrEd s j := by
  obtain ⟨-, -, -, regs, -⟩ := failedState_spec s g
  refine regs _ fun h => ?_
  simp only [List.mem_cons, List.not_mem_nil, or_false, at', pgRTR, pgLDG, lnkOff, pgLNK] at h
  omega

/-- The lowest bit of a word as it was put. -/
theorem fld_put32_bit (w : W32) {v : Nat} (h : v ≤ 1) : fld (put32 w 0 0 v) 0 0 = v := by
  simp only [fld, put32, BitVec.toNat_ofNat, Nat.shiftRight_zero, Nat.shiftLeft_zero]
  rw [Nat.mod_mod_of_dvd _ (by decide : 2 ^ 1 ∣ 2 ^ 32), Nat.or_mod_two_pow, Nat.and_mod_two_pow, Nat.and_mod_two_pow]
  simp [Nat.and_two_pow_sub_one_eq_mod v 1, Nat.mod_eq_of_lt (show v < 2 by omega)]

theorem linkFail_alone {s : State} {g : Nat} (h : residentAcc s (getLink s g).owner.toNat = none) :
    linkFail s g = failedState s g := by
  rw [linkFail_eq, failedState_residentAcc, h]

theorem linkFail_resident {s : State} {g j : Nat} (h : residentAcc s (getLink s g).owner.toNat = some j) :
    linkFail s g = failover (failedState s g) g j (emptied (getLink s g)) := by
  rw [linkFail_eq, failedState_residentAcc, h]

theorem linkFail_hopeless {s : State} {g j : Nat} (h : residentAcc s (getLink s g).owner.toNat = some j)
    (he : edValid s j (1 - edActive s j) = false) : (getJob (linkFail s g) j).st = .faulted := by
  obtain ⟨hj, lives⟩ := residentAcc_some h
  have ed : rtrEd (failedState s g) j = rtrEd s j := failedState_rtrEd s g hj
  have ends : edValid (failedState s g) j (1 - edActive (failedState s g) j) = false := by
    rw [edValid, edActive, ed]
    exact he
  rw [linkFail_resident h, failover, if_neg (by simp [ends])]
  refine jobFault_faulted (.inl ?_)
  have job : getJob (post (failedState s g) pgRTR sevFault 0x0C07 (emptied (getLink s g)).owner
      (d0Lnk (emptied (getLink s g)).owner.toNat g) 0) j = getJob s j := by
    rw [← failedState_getJob s g j]
    simp only [getJob, post_frame]
  rw [job]
  exact lives

/-- The other edition takes over, with its entry (R292 step 3); no packet moves. -/
def turned (s : State) (g j : Nat) (own : BitVec 12) (ed : Nat) : State :=
  let s := setReg s (at' pgRTR (0x100 + 0x40 * j)) (put32 (rtrEd s j) 0 0 ed)
  bump (post s pgRTR sevWarning 0x0C04 own (d0Lnk own.toNat g) 0) (at' pgRTR (0x104 + 0x40 * j)) 0

theorem turned_spec (s : State) (g : Nat) {j : Nat} (hj : j < 4) (own : BitVec 12) {ed : Nat} (he : ed ≤ 1) :
    edActive (turned s g j own ed) j = ed ∧ ∃ x r, turned s g j own ed = { s with ldg := x, regs := r } := by
  let u := setReg s (at' pgRTR (0x100 + 0x40 * j)) (put32 (rtrEd s j) 0 0 ed)
  obtain ⟨x, r, posted⟩ := post_touches u pgRTR sevWarning 0x0C04 own (d0Lnk own.toNat g) 0
  have regs := post_regs u pgRTR sevWarning 0x0C04 own (d0Lnk own.toNat g) 0
  have run : turned s g j own ed = bump (post u pgRTR sevWarning 0x0C04 own (d0Lnk own.toNat g) 0)
    (at' pgRTR (0x104 + 0x40 * j)) 0 := rfl
  rw [run]
  generalize post u pgRTR sevWarning 0x0C04 own (d0Lnk own.toNat g) 0 = v at *
  refine ⟨?_, x, (bump v (at' pgRTR (0x104 + 0x40 * j)) 0).regs, ?_⟩
  · have word : rtrEd (bump v (at' pgRTR (0x104 + 0x40 * j)) 0) j = put32 (rtrEd s j) 0 0 ed := by
      refine (reg_bump_ne v 0 (by simp only [at']; omega)).trans ((regs _ fun h => ?_).trans (reg_setReg s _ _))
      simp [at', pgRTR, pgLDG, sevWarning] at h
      omega
    rw [edActive, word]
    exact fld_put32_bit _ he
  · rw [show bump v (at' pgRTR (0x104 + 0x40 * j)) 0 = { v with regs := (bump v _ 0).regs } from rfl, posted]
    rfl

theorem failover_quiet {s : State} {g j : Nat} {l : Link} (he : edValid s j (1 - edActive s j) = true)
    (hf : l.flying = []) (hg : l.egress = []) (hi : l.inj = []) :
    failover s g j l = turned s g j l.owner (1 - edActive s j) := by
  rw [failover, if_pos he, hf, hg, hi]
  rfl

/-- The other edition takes over where nothing is in flight or waits: routing states and counts at most differ. -/
theorem linkFail_quiet {s : State} {g j : Nat} (h : residentAcc s (getLink s g).owner.toNat = some j)
    (he : edValid s j (1 - edActive s j) = true) (hf : (getLink s g).flying = []) (hg : (getLink s g).egress = [])
    (hi : (getLink s g).inj = []) : edActive (linkFail s g) j = 1 - edActive s j ∧
      ∃ x r, linkFail s g = { failedState s g with ldg := x, regs := r } := by
  obtain ⟨hj, -⟩ := residentAcc_some h
  have ed : rtrEd (failedState s g) j = rtrEd s j := failedState_rtrEd s g hj
  have goes : edValid (failedState s g) j (1 - edActive (failedState s g) j) = true := by
    rw [edValid, edActive, ed]
    exact he
  have one : 1 - edActive s j ≤ 1 := Nat.sub_le _ _
  have run : linkFail s g = turned (failedState s g) g j (getLink s g).owner (1 - edActive s j) := by
    rw [linkFail_resident h, failover_quiet (l := emptied (getLink s g)) goes hf hg hi, edActive, ed]
    rfl
  rw [run]
  obtain ⟨active, frame⟩ := turned_spec (failedState s g) g hj (getLink s g).owner one
  exact ⟨active, frame⟩

/-- What a failed group's entry leaves to wait still waits when its job has the other edition. -/
theorem linkFail_after (s : State) (g : Nat) : NetKept (failedState s g) (linkFail s g) := by
  rw [linkFail_eq]
  split
  · exact netKept_failover _ _ _ _
  · exact .refl _

theorem linkFail_waits {s : State} {g : Nat} (h : NoneWaits s (pgLNK (g / 4))) :
    ∃ x ∈ (linkFail s g).ldg.wait, x.src = pgLNK (g / 4) ∧ x.code = 0x0C03 := by
  obtain ⟨-, -, -, -, logged⟩ := failedState_spec s g
  have entry := logged.wait_of_noneWaits h
  refine ⟨_, (linkFail_after s g).waits (entry ▸ List.mem_append_right _ (List.mem_singleton_self _)), rfl, rfl⟩

theorem exec_retrainTimeout_run (g : Grp) {s : State} (hst : (getLink s g.key).st = .retrain)
    (hn : (getLink s g.key).since + 6000000 ≤ s.clk.dst) : exec (.retrainTimeout g) s = .next (linkFail s g.key) :=
  congrArg Host.Outcome.next (if_pos ⟨hst, hn⟩)

/-- What differs in a group's failure but the job's edition and its packets. -/
theorem failedState_frame (s : State) (g : Nat) : failedState s g = { s with
    links := (failedState s g).links, regs := (failedState s g).regs, ldg := (failedState s g).ldg
    opt := { s.opt with migs := (failedState s g).opt.migs }, lanes := (failedState s g).lanes } := by
  obtain ⟨⟨la, x, r, frame, -⟩, -⟩ := failedState_spec s g
  generalize failedState s g = t at *
  rw [frame]

/-- The failed group's migrations end. -/
theorem failedState_migs {s : State} {g : Grp} {m : Migration} (h : m ∈ tget [] (failedState s g.key).opt.migs g.p) :
    m ∈ tget [] s.opt.migs g.p ∧ m.g ≠ g.g := by
  obtain ⟨⟨la, x, r, frame, -⟩, -⟩ := failedState_spec s g.key
  rw [frame] at h
  dsimp only at h
  rw [g.key_div, g.key_mod, tget_tput_self, List.mem_filter] at h
  exact ⟨h.1, fun e => by simp [e] at h⟩

/-- The same, field by field. -/
theorem linkFail_quiet_frame {s : State} {g j : Nat} (h : residentAcc s (getLink s g).owner.toNat = some j)
    (he : edValid s j (1 - edActive s j) = true) (hf : (getLink s g).flying = []) (hg : (getLink s g).egress = [])
    (hi : (getLink s g).inj = []) : getLink (linkFail s g) g = failedLink s.clk.dst (getLink s g) ∧
      edActive (linkFail s g) j = 1 - edActive s j ∧ linkFail s g = { s with
        links := (linkFail s g).links, regs := (linkFail s g).regs, ldg := (linkFail s g).ldg
        opt := { s.opt with migs := (linkFail s g).opt.migs }, lanes := (linkFail s g).lanes } := by
  obtain ⟨active, x, r, frame⟩ := linkFail_quiet h he hf hg hi
  obtain ⟨-, link, -⟩ := failedState_spec s g
  have whole := failedState_frame s g
  generalize linkFail s g = t at *
  generalize failedState s g = w at *
  refine ⟨by rw [frame]; exact link, active, ?_⟩
  rw [frame, whole]

/-! ## The group's registers (R275, R277, R298, R339) -/

/-- LNK_DISABLE's last step. -/
def disabled (s : State) (g : Nat) : State :=
  setLink s g { (getLink s g).go .down s.clk.dst with
    replay := [], resend := [], flying := [], stream := [], synced := [], ingress := [], inAt := [], locked := false
    exch := false }

/-- The groups as LNK_DISABLE leaves them: READY's change shows in no group. -/
theorem getLink_disabledEnd (w : State) (k i : Nat) :
    getLink (if (getLink w k).st = .halt then topCheck (disabled w k) k else disabled w k) i = getLink (disabled w k) i := by
  split
  · obtain ⟨⟨r, l, o, frame⟩, -⟩ := topCheckD_spec (disabled w k) (d0Own (disabled w k) k)
    rw [topCheck, frame]
    rfl
  · rfl

section
variable (g : Grp) {s : State} (served : Served s (pgLNK g.p.val))
include served

theorem exec_lnkEnable_run : exec (.lnkEnable g) s = .next (
    if enableOk s g.key then tryUp (setLink s g.key { getLink s g.key with en := true }) g.key else s) :=
  congrArg Host.Outcome.next (hostWrite_served served _ _)

theorem exec_lnkEnable_ok (hok : enableOk s g.key = true) (hm : grpMode s g.key ≠ 1) :
    ∃ t, exec (.lnkEnable g) s = .next t ∧ (getLink t g.key).en = true ∧
      (getLink t g.key).st = (if (getLink s g.key).st = .down ∧ grpLocked s g.key = true then .align else (getLink s g.key).st) ∧
      OnGroup s t g.key := by
  let u := setLink s g.key { getLink s g.key with en := true }
  have link : getLink u g.key = { getLink s g.key with en := true } := getLink_setLink s g.key _
  have onGroup : OnGroup s u g.key := onGroup_setLink s g.key _
  have ok : enableOk u g.key = enableOk s g.key := by simp only [enableOk, link]; rfl
  have locked : grpLocked u g.key = grpLocked s g.key := by simp only [grpLocked, link]; rfl
  have can : canUp u g.key = grpLocked s g.key := by rw [canUp, link, ok, locked, hok]; simp
  have run := (exec_lnkEnable_run g served).trans (congrArg Host.Outcome.next (if_pos hok))
  refine ⟨tryUp u g.key, run, ?_⟩
  by_cases h : (getLink s g.key).st = .down ∧ grpLocked s g.key = true
  · obtain ⟨hst, hl⟩ := h
    obtain ⟨moved, -, ks, c, f, a, n, after⟩ := tryUp_aligns (s := u) (by rw [link, hst]) (can.trans hl)
      (by rw [grpMode_congr (s := s) (t := u) rfl]; exact hm)
    refine ⟨by rw [after, link], ?_, onGroup.trans moved⟩
    rw [after, if_pos ⟨hst, hl⟩]
  · rw [tryUp_stays (by rw [link, can]; simpa [or_iff_not_imp_left] using h), if_neg h, link]
    exact ⟨rfl, rfl, onGroup⟩

theorem exec_lnkDisable_down (h : (getLink s g.key).st = .down) :
    exec (.lnkDisable g) s = .next (setLink s g.key { getLink s g.key with en := false }) :=
  congrArg Host.Outcome.next ((hostWrite_served served _ _).trans (if_pos (by rw [getLink_setLink]; exact h)))

/-- LNK_DISABLE outside DOWN: the group fails first where it was UP or retrains, and READY follows the end of a HALT. -/
theorem exec_lnkDisable_run (h : (getLink s g.key).st ≠ .down) : let v := setLink s g.key { getLink s g.key with en := false }
    let w := if (getLink s g.key).st = .up ∨ (getLink s g.key).st = .retrain then linkFail v g.key else v
    exec (.lnkDisable g) s = .next (if (getLink w g.key).st = .halt then topCheck (disabled w g.key) g.key
      else disabled w g.key) := by
  dsimp only
  have st : (getLink (setLink s g.key { getLink s g.key with en := false }) g.key).st = (getLink s g.key).st := by
    rw [getLink_setLink]
  refine congrArg Host.Outcome.next ((hostWrite_served served _ _).trans ((if_neg (by rw [st]; exact h)).trans ?_))
  simp only [st]
  rfl

theorem exec_lnkDisable_spec (h : (getLink s g.key).st ≠ .down) :
    ∃ t, exec (.lnkDisable g) s = .next t ∧ (getLink t g.key).st = .down ∧ (getLink t g.key).replay = [] ∧
      (getLink t g.key).resend = [] ∧ (getLink t g.key).ingress = [] ∧ (getLink t g.key).stream = [] ∧
      ((getLink s g.key).st = .align ∨ (getLink s g.key).st = .ident ∨ (getLink s g.key).st = .credit ∨
        (getLink s g.key).st = .failed → (getLink t g.key).en = false ∧ OnlyLink s t g.key) ∧
      ((getLink s g.key).st = .up ∨ (getLink s g.key).st = .retrain → NoneWaits s (pgLNK g.p.val) →
        ∃ x ∈ t.ldg.wait, x.src = pgLNK g.p.val ∧ x.code = 0x0C03) := by
  let v := setLink s g.key { getLink s g.key with en := false }
  have linkV : getLink v g.key = { getLink s g.key with en := false } := getLink_setLink s g.key _
  have run : exec (.lnkDisable g) s = _ := exec_lnkDisable_run g served h
  obtain ⟨w, hw⟩ : ∃ w, w = if (getLink s g.key).st = .up ∨ (getLink s g.key).st = .retrain then linkFail v g.key else v :=
    ⟨_, rfl⟩
  rw [← hw] at run
  have link := (getLink_disabledEnd w g.key g.key).trans (getLink_setLink w g.key _)
  refine ⟨_, run, ?_, ?_, ?_, ?_, ?_, fun quiet => ?_, fun busy waits => ?_⟩
  iterate 5 exact (congrArg _ link).trans rfl
  · have still : w = v := hw.trans (if_neg (by rcases quiet with q | q | q | q <;> simp [q]))
    have st : (getLink w g.key).st ≠ .halt := by
      rw [still, linkV]
      rcases quiet with q | q | q | q <;> simp [q]
    rw [if_neg st, still]
    refine ⟨?_, rfl, fun i hi => ?_⟩
    · rw [disabled, getLink_setLink, linkV]
      rfl
    · exact (getLink_setLink_ne v _ hi).trans (getLink_setLink_ne s _ hi)
  · have fails : w = linkFail v g.key := hw.trans (if_pos busy)
    have st : (getLink w g.key).st ≠ .halt := by
      rw [fails, (linkFail_spec v g.key).2]
      decide
    have entry := linkFail_waits (s := v) (g := g.key) (by rw [g.key_div]; exact waits)
    rw [g.key_div] at entry
    rw [if_neg st, fails]
    exact entry

theorem exec_lnkRestart_spec (h : (getLink s g.key).st = .failed ∨ (getLink s g.key).st = .halt)
    (hm : grpMode s g.key ≠ 1) : ∃ t, exec (.lnkRestart g) s = .next t ∧ Resettled s t g.key ∧
      t = { s with links := t.links, top := t.top, regs := t.regs, ldg := t.ldg, out := t.out } := by
  let v := goSt s g.key .down
  obtain ⟨⟨r, l, o, frame⟩, regs⟩ := topCheckD_spec v (d0Own v g.key)
  have run : exec (.lnkRestart g) s = .next (tryUp (topCheckD v (d0Own v g.key)) g.key) :=
    congrArg Host.Outcome.next ((hostWrite_served served _ _).trans (if_pos h))
  have mode : grpMode (topCheckD v (d0Own v g.key)) g.key = grpMode s g.key :=
    (grpMode_of_regsKept regs (by
      have := g.key_lt
      simp only [List.mem_cons, List.not_mem_nil, or_false, at', pgLDG, pgTOP, pgOPT]
      omega)).trans (grpMode_congr rfl g.key)
  generalize topCheckD v (d0Own v g.key) = u at *
  have link (i : Nat) : getLink u i = getLink v i := by rw [frame]; rfl
  have linkV : getLink v g.key = (getLink s g.key).go .down s.clk.dst := getLink_setLink s g.key _
  obtain ⟨settled, onGroup, -⟩ := tryUp_resettled (s := u) (g := g.key) (by rw [link, linkV]; rfl)
    (by rw [link, linkV, frame]; rfl) (by rw [mode]; exact hm)
  refine ⟨_, run, settled.of_down ?_ (by rw [frame]; rfl) fun i hi => ?_, ?_⟩
  · exact canUp_congr (by rw [frame]; rfl) (by rw [frame]; rfl) (by rw [frame]; rfl) (by rw [link, linkV]; rfl)
      (by rw [link, linkV]; rfl) (by rw [link, linkV]; rfl) (by rw [link, linkV]; rfl) (by rw [link, linkV]; rfl)
  · exact (link i).trans (getLink_setLink_ne s _ hi)
  · rw [onGroup.frame, frame]
    rfl

theorem exec_lnkCrdLimWrite_run (v : W32) : exec (.lnkCrdLimWrite g v) s = .next (
    if (getLink s g.key).st ≠ .down ∨ fld v 9 0 = 0 ∨ 512 < fld v 9 0 then s
    else if 262144 < minSum s - 4 * fld (reg s (lnkOff g.key 0x10C)) 9 0 + 4 * fld v 9 0 then
      post s pgQP sevWarning 0x0C11 0 (d0Lnk 0 g.key) 0
    else setReg s (lnkOff g.key 0x10C) (BitVec.ofNat 32 (fld v 9 0))) :=
  congrArg Host.Outcome.next (hostWrite_served served _ _)

theorem exec_lnkCrdLimWrite_spec (v : W32) :
    if (getLink s g.key).st = .down ∧ 1 ≤ fld v 9 0 ∧ fld v 9 0 ≤ 512 then
      (¬ 262144 < minSum s - 4 * fld (reg s (lnkOff g.key 0x10C)) 9 0 + 4 * fld v 9 0 →
        ∃ t, exec (.lnkCrdLimWrite g v) s = .next t ∧ reg t (lnkOff g.key 0x10C) = BitVec.ofNat 32 (fld v 9 0) ∧
          RegsKept s t [lnkOff g.key 0x10C] ∧ t = { s with regs := t.regs }) ∧
      (262144 < minSum s - 4 * fld (reg s (lnkOff g.key 0x10C)) 9 0 + 4 * fld v 9 0 →
        ∃ t, exec (.lnkCrdLimWrite g v) s = .next t ∧ t = { s with regs := t.regs, ldg := t.ldg } ∧
          Logged s t pgQP 1 0x0C11 0 (d0Lnk 0 g.key) 0)
    else exec (.lnkCrdLimWrite g v) s = .next s := by
  rw [exec_lnkCrdLimWrite_run g served v]
  split
  · next fits =>
    obtain ⟨hst, low, high⟩ := fits
    rw [if_neg (by simp [hst]; omega)]
    refine ⟨fun room => ⟨_, congrArg Host.Outcome.next (if_neg room), reg_setReg s _ _, regsKept_setReg s _ _, rfl⟩,
      fun full => ⟨_, congrArg Host.Outcome.next (if_pos full), ?_, post_logged s pgQP 1 0x0C11 0 (d0Lnk 0 g.key) 0⟩⟩
    obtain ⟨x, r, posted⟩ := post_touches s pgQP sevWarning 0x0C11 0 (d0Lnk 0 g.key) 0
    rw [posted]
  · next odd =>
    refine congrArg Host.Outcome.next (if_pos ?_)
    by_cases hst : (getLink s g.key).st = .down
    · exact .inr (by simp only [hst, true_and] at odd; omega)
    · exact .inl hst

end

/-! ## A lane fails (R266, R267) -/

theorem slotOf_port {s : State} {p l g k : Nat} (h : slotOf s p l = some (g, k)) : g / 4 = p := by
  obtain ⟨i, hi, hk⟩ := List.exists_of_findSome?_eq_some h
  obtain ⟨e, -, he⟩ := Option.map_eq_some_iff.1 hk
  have hg : g = 4 * p + i := (congrArg Prod.fst he).symm
  have listed : ∀ i ∈ [0, 1, 2, 3], i < 4 := by decide
  have := listed i hi
  omega

/-- With no migration off the lane, the group has the time of the failure and nothing else changes. -/
def stamped (s : State) (p g l : Nat) : State :=
  endMigs (setLink s g { getLink s g with failAt := some s.clk.dst }) p (fun m => decide (m.old.val = l))

theorem stamped_spec {s : State} {p l : Nat} (g : Nat) (h : ∀ m ∈ tget [] s.opt.migs p, m.old.val ≠ l) :
    stamped s p g l = { s with links := (stamped s p g l).links, opt := { s.opt with migs := (stamped s p g l).opt.migs } } ∧
    getLink (stamped s p g l) g = { getLink s g with failAt := some s.clk.dst } ∧
    (∀ i, i ≠ g → getLink (stamped s p g l) i = getLink s i) ∧
    ∀ i, tget [] (stamped s p g l).opt.migs i = tget [] s.opt.migs i := by
  let u := setLink s g { getLink s g with failAt := some s.clk.dst }
  obtain ⟨⟨la, frame⟩, none⟩ := endMigs_spec u p (fun m => decide (m.old.val = l))
  have run : stamped s p g l = endMigs u p (fun m => decide (m.old.val = l)) := rfl
  rw [run]
  have lanes := none fun m hm => decide_eq_false (h m hm)
  generalize endMigs u p (fun m => decide (m.old.val = l)) = v at *
  have all : (tget [] s.opt.migs p).filter (fun m => !decide (m.old.val = l)) = tget [] s.opt.migs p :=
    List.filter_eq_self.2 fun m hm => by simp [h m hm]
  have migs : v.opt.migs = tput [] s.opt.migs p (tget [] s.opt.migs p) := by
    rw [frame, ← all]
    rfl
  have same : la = s.lanes := by rw [frame] at lanes; exact lanes
  refine ⟨?_, ?_, fun i hi => ?_, fun i => ?_⟩
  · rw [frame, same]
    rfl
  · rw [frame]
    exact getLink_setLink s g _
  · rw [frame]
    exact getLink_setLink_ne s _ hi
  · rw [migs, tget_tput]
    split
    · next e => rw [e]
    · rfl

theorem laneFail_two {s : State} {p l g k : Nat} (h : slotOf s p l = some (g, k)) (h1 : grpMode s g ≠ 1)
    (h2 : grpMode s g ≠ 2) (hr : laneRole s p l = .slot) : laneFail s p l =
      match (if pinned (stamped s p g l) p l then none else spareLane (stamped s p g l) p) with
      | some n => if (decide ((getLink s g).st = .up) && (getLink s g).failAt == some s.clk.dst) = true
          then enterRetrain (takeSlot (stamped s p g l) g k l n) g else takeSlot (stamped s p g l) g k l n
      | none => if (getLink s g).st = .up then linkFail (stamped s p g l) g else stamped s p g l := by
  rw [laneFail, h]
  dsimp only
  rw [if_neg (by omega), if_neg (not_not.2 hr)]
  rfl

/-- The spare rests on lanes, cells, pins and migrations. -/
theorem spareLane_congr {s t : State} (hr : t.regs = s.regs) (hl : t.lanes = s.lanes) (hx : t.cells = s.cells) {p : Nat}
    (hm : tget [] t.opt.migs p = tget [] s.opt.migs p) : spareLane t p = spareLane s p := by
  have free : laneFree t p = laneFree s p := by
    funext l
    simp only [laneFree, laneRole, pinned, laneAt, cellAt, getLane, getCell, migNew, reg_congr hr, hl, hx, hm]
    rfl
  simp only [spareLane, freeLane, free, laneRole, pinned, optLocked, laneAt, cellAt, getLane, getCell, reg_congr hr, hl, hx]
  rfl

/-- A spare is free or reserve, so it serves no slot. -/
theorem spareLane_role {s : State} {p n : Nat} (h : spareLane s p = some n) : laneRole s p n ≠ .slot := by
  intro hs
  unfold spareLane at h
  split at h <;> simp [laneFree, hs, List.find?_eq_some_iff_append] at h

/-- The lanes of a slot that a spare takes: the old one is failed. -/
def handed (s : State) (p old new : Nat) : State :=
  let o := laneAt s p old
  let s := setLaneAt s p old { o with role := .failed, laser := o.laser.down }
  setLaneAt s p new { laneAt s p new with role := .slot }

theorem handed_spec (s : State) (p : Nat) {old new : Nat} (hne : new ≠ old) :
    (laneAt (handed s p old new) p old).role = .failed ∧ (laneAt (handed s p old new) p new).role = .slot ∧
    (∀ i, i ≠ 18 * p + old → i ≠ 18 * p + new → getLane (handed s p old new) i = getLane s i) ∧
    handed s p old new = { s with lanes := (handed s p old new).lanes } := by
  refine ⟨?_, ?_, fun i ho hn => ?_, rfl⟩
  · exact (congrArg Lane.role ((getLane_setLane_ne _ _ (by omega)).trans (getLane_setLane s _ _))).trans rfl
  · exact (congrArg Lane.role (getLane_setLane _ _ _)).trans rfl
  · exact (getLane_setLane_ne _ _ hn).trans (getLane_setLane_ne s _ ho)

/-- The group's record after that, and its count of replays (R267, R272). -/
def reslotted (s : State) (g k new : Nat) : State :=
  let l := { getLink s g with lanes := setAt (getLink s g).lanes k (Fin.ofNat 18 new) }
  let again := decide (l.st = .up) && !(unacked l).isEmpty
  setLink (if again then bump s (lnkOff g 0x118) 1 else s) g (if again then { l with resend := unacked l } else l)

theorem takeSlot_eq (s : State) (g k old new : Nat) : takeSlot s g k old new = reslotted (handed s (g / 4) old new) g k new := rfl

theorem reslotted_spec (s : State) (g k new : Nat) :
    getLink (reslotted s g k new) g = { getLink s g with
      lanes := setAt (getLink s g).lanes k (Fin.ofNat 18 new)
      resend := if (getLink s g).st = .up ∧ unacked (getLink s g) ≠ [] then unacked (getLink s g) else (getLink s g).resend } ∧
    (∀ i, i ≠ g → getLink (reslotted s g k new) i = getLink s i) ∧
    RegsKept s (reslotted s g k new) [lnkOff g 0x118] ∧
    reslotted s g k new = { s with links := (reslotted s g k new).links, regs := (reslotted s g k new).regs } := by
  unfold reslotted
  dsimp only
  have same : unacked { getLink s g with lanes := setAt (getLink s g).lanes k (Fin.ofNat 18 new) } = unacked (getLink s g) := rfl
  rw [same]
  by_cases h : (getLink s g).st = .up ∧ unacked (getLink s g) ≠ []
  · have yes : (decide ((getLink s g).st = .up) && !(unacked (getLink s g)).isEmpty) = true := by
      simpa [List.isEmpty_eq_false_iff] using h
    rw [yes, if_pos h]
    exact ⟨getLink_setLink _ g _, fun i hi => getLink_setLink_ne _ _ hi, regsKept_bump s _ 1, rfl⟩
  · have no : (decide ((getLink s g).st = .up) && !(unacked (getLink s g)).isEmpty) = false := by
      simpa [List.isEmpty_iff, Classical.or_iff_not_imp_left] using h
    rw [no, if_neg h]
    exact ⟨getLink_setLink _ g _, fun i hi => getLink_setLink_ne _ _ hi, fun _ _ => rfl, rfl⟩

theorem enterRetrain_spec (s : State) (g : Nat) :
    getLink (enterRetrain s g) g = { flitSent { (getLink s g).go .retrain s.clk.dst with locked := false, exch := false, resend := [] }
      with trainAt := s.clk.dst } ∧
    reg (enterRetrain s g) (lnkOff g 0x12C) = satAdd (reg s (lnkOff g 0x12C)) 1 ∧
    enterRetrain s g = { s with
      links := (enterRetrain s g).links, regs := (enterRetrain s g).regs, out := (enterRetrain s g).out } := by
  let u := bump s (lnkOff g 0x12C) 1
  let v := setLink u g { (getLink u g).go .retrain u.clk.dst with locked := false, exch := false, resend := [] }
  obtain ⟨sent, link⟩ := sendTraining_sent v g (alignPay v g)
  have run : enterRetrain s g = sendTraining v g (alignPay v g) := rfl
  rw [run]
  generalize sendTraining v g (alignPay v g) = t at *
  refine ⟨?_, ?_, ?_⟩
  · rw [link, show getLink v g = _ from getLink_setLink u g _]
    rfl
  · rw [sent.onGroup.reg]
    exact reg_bump s _ 1
  · rw [sent.onGroup.frame]
    rfl

/-- What a lane's failure changes besides the group's record and lanes. -/
def FailSettled (s t : State) : Prop :=
  (∀ i, tget [] t.opt.migs i = tget [] s.opt.migs i) ∧
    t = { s with lanes := t.lanes, links := t.links, regs := t.regs, out := t.out, opt := { s.opt with migs := t.opt.migs } }

section
variable {s : State} {p l g k : Nat} (hslot : slotOf s p l = some (g, k)) (hmigs : ∀ m ∈ tget [] s.opt.migs p, m.old.val ≠ l)
  (h1 : grpMode s g ≠ 1) (h2 : grpMode s g ≠ 2) (hr : laneRole s p l = .slot)
include hslot hmigs h1 h2 hr

theorem laneFail_run : laneFail s p l =
    match (if pinned s p l = true then none else spareLane s p) with
    | some n => if (getLink s g).st = .up ∧ (getLink s g).failAt = some s.clk.dst
        then enterRetrain (takeSlot (stamped s p g l) g k l n) g else takeSlot (stamped s p g l) g k l n
    | none => if (getLink s g).st = .up then linkFail (stamped s p g l) g else stamped s p g l := by
  obtain ⟨frame, -, -, migs⟩ := stamped_spec g hmigs
  have pins : pinned (stamped s p g l) p l = pinned s p l := by rw [frame]; rfl
  have spare : spareLane (stamped s p g l) p = spareLane s p :=
    spareLane_congr (by rw [frame]) (by rw [frame]) (by rw [frame]) (migs p)
  rw [laneFail_two hslot h1 h2 hr, pins, spare]
  simp only [Bool.and_eq_true, decide_eq_true_eq, beq_iff_eq]

theorem laneFail_spare {n : Nat} (hs : (if pinned s p l = true then none else spareLane s p) = some n) :
    (laneAt (laneFail s p l) p l).role = .failed ∧ (laneAt (laneFail s p l) p n).role = .slot ∧
    (∀ i, i ≠ 18 * p + l → i ≠ 18 * p + n → getLane (laneFail s p l) i = getLane s i) ∧ FailSettled s (laneFail s p l) ∧
    (¬ ((getLink s g).st = .up ∧ (getLink s g).failAt = some s.clk.dst) → getLink (laneFail s p l) g = { getLink s g with
        failAt := some s.clk.dst, lanes := setAt (getLink s g).lanes k (Fin.ofNat 18 n)
        resend := if (getLink s g).st = .up ∧ unacked (getLink s g) ≠ [] then unacked (getLink s g)
          else (getLink s g).resend } ∧ (laneFail s p l).out = s.out) ∧
    ((getLink s g).st = .up ∧ (getLink s g).failAt = some s.clk.dst → (getLink (laneFail s p l) g).st = .retrain ∧
      (getLink (laneFail s p l) g).locked = false ∧ (getLink (laneFail s p l) g).replay = (getLink s g).replay ∧
      (getLink (laneFail s p l) g).lanes = setAt (getLink s g).lanes k (Fin.ofNat 18 n) ∧
      reg (laneFail s p l) (lnkOff g 0x12C) = satAdd (reg s (lnkOff g 0x12C)) 1) := by
  have port : g / 4 = p := slotOf_port hslot
  have role : laneRole s p n ≠ .slot := spareLane_role (p := p) (n := n) (by
    split at hs
    · cases hs
    · exact hs)
  have hne : n ≠ l := fun e => role (e ▸ hr)
  have run := laneFail_run hslot hmigs h1 h2 hr
  rw [hs] at run
  dsimp only at run
  obtain ⟨frame, link, -, migs⟩ := stamped_spec g hmigs
  rw [takeSlot_eq, port] at run
  generalize stamped s p g l = u at *
  obtain ⟨old, new, lanes, handedFrame⟩ := handed_spec u p hne
  generalize handed u p l n = v at *
  obtain ⟨linkW, -, regsW, frameW⟩ := reslotted_spec v g k n
  generalize reslotted v g k n = w at *
  have linkV : getLink v g = { getLink s g with failAt := some s.clk.dst } := by rw [handedFrame]; exact link
  have lane (i : Nat) : getLane w i = getLane v i := by rw [frameW]; rfl
  have laneU (i : Nat) : getLane u i = getLane s i := by rw [frame]; rfl
  have whole : w = { s with lanes := w.lanes, links := w.links, regs := w.regs, opt := { s.opt with migs := w.opt.migs } } := by
    rw [frameW, handedFrame, frame]
  have migsW (i : Nat) : tget [] w.opt.migs i = tget [] s.opt.migs i := by rw [frameW, handedFrame]; exact migs i
  by_cases twice : (getLink s g).st = .up ∧ (getLink s g).failAt = some s.clk.dst
  · rw [if_pos twice] at run
    obtain ⟨after, count, frameT⟩ := enterRetrain_spec w g
    rw [run]
    generalize enterRetrain w g = t at *
    have laneT (i : Nat) : getLane t i = getLane v i := by rw [frameT]; exact lane i
    refine ⟨?_, ?_, fun i ho hn => ?_, ⟨fun i => ?_, ?_⟩, fun no => absurd twice no, fun _ => ⟨?_, ?_, ?_, ?_, ?_⟩⟩
    · rw [laneAt, laneT]; exact old
    · rw [laneAt, laneT]; exact new
    · exact (laneT i).trans ((lanes i ho hn).trans (laneU i))
    · rw [frameT]; exact migsW i
    · rw [frameT, whole]
    · rw [after]; rfl
    · rw [after]; rfl
    · rw [after]
      refine Eq.trans (b := (getLink w g).replay) rfl ?_
      rw [linkW, linkV]
    · rw [after]
      refine Eq.trans (b := (getLink w g).lanes) rfl ?_
      rw [linkW, linkV]
    · rw [count, regsW _ (by simp [lnkOff, at']), handedFrame, frame]
      rfl
  · rw [if_neg twice] at run
    rw [run]
    refine ⟨?_, ?_, fun i ho hn => ?_, ⟨migsW, ?_⟩, fun _ => ⟨?_, ?_⟩, fun yes => absurd yes twice⟩
    · rw [laneAt, lane]; exact old
    · rw [laneAt, lane]; exact new
    · exact (lane i).trans ((lanes i ho hn).trans (laneU i))
    · rw [whole]
    · rw [linkW, linkV]
      rfl
    · rw [whole]

theorem laneFail_fails (hs : (if pinned s p l = true then none else spareLane s p) = none) (hu : (getLink s g).st = .up)
    (ha : residentAcc s (getLink s g).owner.toNat = none) (hg : ∀ m ∈ tget [] s.opt.migs p, m.g.val ≠ g % 4) :
    getLink (laneFail s p l) g = failedLink s.clk.dst { getLink s g with failAt := some s.clk.dst } ∧
    (∀ i, tget [] (laneFail s p l).opt.migs i = tget [] s.opt.migs i) ∧
    laneFail s p l = { s with links := (laneFail s p l).links, regs := (laneFail s p l).regs, ldg := (laneFail s p l).ldg,
                              opt := { s.opt with migs := (laneFail s p l).opt.migs } } := by
  have port : g / 4 = p := slotOf_port hslot
  have run := laneFail_run hslot hmigs h1 h2 hr
  rw [hs] at run
  dsimp only at run
  rw [if_pos hu] at run
  obtain ⟨frame, link, -, migs⟩ := stamped_spec g hmigs
  generalize stamped s p g l = u at *
  have alone : residentAcc u (getLink u g).owner.toNat = none := by
    rw [link, residentAcc_congr (by rw [frame])]
    exact ha
  rw [linkFail_alone alone] at run
  obtain ⟨⟨la, x, r, frameF, lanes⟩, linkF, -⟩ := failedState_spec u g
  generalize failedState u g = t at *
  have none : ∀ m ∈ tget [] u.opt.migs (g / 4), m.g.val ≠ g % 4 := by rw [migs, port]; exact hg
  have all : (tget [] u.opt.migs (g / 4)).filter (fun m => !decide (m.g.val = g % 4)) = tget [] u.opt.migs (g / 4) :=
    List.filter_eq_self.2 fun m hm => by simp [none m hm]
  rw [run]
  refine ⟨?_, fun i => ?_, ?_⟩
  · rw [linkF, link, frame]
  · rw [frameF]
    dsimp only
    rw [all, tget_tput]
    split
    · next e => rw [← migs i, e]
    · exact migs i
  · rw [frameF, lanes none, frame]

theorem laneFail_waits (hs : (if pinned s p l = true then none else spareLane s p) = none) (hu : (getLink s g).st ≠ .up) :
    getLink (laneFail s p l) g = { getLink s g with failAt := some s.clk.dst } ∧ FailSettled s (laneFail s p l) := by
  have run := laneFail_run hslot hmigs h1 h2 hr
  rw [hs] at run
  dsimp only at run
  rw [if_neg hu] at run
  obtain ⟨frame, link, -, migs⟩ := stamped_spec g hmigs
  rw [run]
  refine ⟨link, migs, ?_⟩
  rw [frame]

end

/-- A one-way group's lane: only a receiver that is UP and uses the lane trains again, or a source fails. -/
theorem laneFail_oneway {s : State} {p l g k : Nat} (hslot : slotOf s p l = some (g, k))
    (hm : grpMode s g = 1 ∨ grpMode s g = 2) : laneFail s p l =
      if (getLink s g).st = .up ∧ (laneRole s p l = .slot ∨ laneRole s p l = .passage) then onewayLost s g else s := by
  rw [laneFail, hslot]
  exact if_pos hm

theorem laneFail_unused {s : State} {p l g k : Nat} (hslot : slotOf s p l = some (g, k)) (h1 : grpMode s g ≠ 1)
    (h2 : grpMode s g ≠ 2) (hr : laneRole s p l ≠ .slot) : laneFail s p l = s := by
  rw [laneFail, hslot]
  exact (if_neg (by omega)).trans (if_pos hr)

theorem laneFail_free {s : State} {p l : Nat} (hslot : slotOf s p l = none) (h : ∀ m ∈ tget [] s.opt.migs p, m.old.val ≠ l) :
    laneFail s p l = s := by
  rw [laneFail, hslot]
  refine if_neg fun ⟨_, hit⟩ => ?_
  obtain ⟨m, hm, e⟩ := List.any_eq_true.1 hit
  exact h m hm (by simpa using e)

/-- A receiver's last step back to ALIGN (R278). -/
def aligned (s : State) (g : Nat) : State :=
  let s := bump s (lnkOff g 0x12C) 1
  setLink s g { (getLink s g).go .align s.clk.dst with locked := false, exch := false }

theorem aligned_spec (s : State) (g : Nat) :
    getLink (aligned s g) g = { (getLink s g).go .align s.clk.dst with locked := false, exch := false } ∧
    reg (aligned s g) (lnkOff g 0x12C) = satAdd (reg s (lnkOff g 0x12C)) 1 ∧
    aligned s g = { s with links := (aligned s g).links, regs := (aligned s g).regs } :=
  ⟨getLink_setLink _ g _, reg_bump s _ 1, rfl⟩

/-- A receiver loses its light: it aligns anew, and its partial packets go (R278). -/
theorem onewayLost_receiver {s : State} {g : Nat} (hm : grpMode s g = 2) :
    (getLink (onewayLost s g) g).st = .align ∧ (getLink (onewayLost s g) g).stream = [] ∧
    reg (onewayLost s g) (lnkOff g 0x12C) = satAdd (reg s (lnkOff g 0x12C)) 1 ∧
    onewayLost s g = { s with links := (onewayLost s g).links, regs := (onewayLost s g).regs } := by
  have run : onewayLost s g = aligned (dropPartial s g) g := if_neg (by omega)
  obtain ⟨frame, link, -, regs⟩ := dropPartial_spec s g
  rw [run]
  generalize dropPartial s g = v at *
  obtain ⟨after, count, frameT⟩ := aligned_spec v g
  generalize aligned v g = t at *
  refine ⟨by rw [after]; rfl, ?_, ?_, ?_⟩
  · rw [after, link]
    rfl
  · rw [count, regs _ (by simp [lnkOff, at'])]
  · rw [frameT, frame]

/-! ## The obligation -/

/-- Settles O42: the moves of a group's states one by one, and the failure of a lane by what stands in for it. -/
theorem linkStatesAndLanes : Obligations.LinkStatesAndLanes := by
  unfold Obligations.LinkStatesAndLanes
  constructor
  · intro g s k l now pg settled
    have page : pgLNK (k / 4) = pg := congrArg pgLNK g.key_div
    refine ⟨?_, ?_, ?_, ?_, ?_, fun hst hn => ⟨?_, ?_, ?_⟩, ?_, ?_, exec_lnkDisable_down g, exec_lnkDisable_spec g, ?_,
      exec_lnkCrdLimWrite_spec g⟩
    · intro skew hs hl hst hm
      obtain ⟨t, run, sent, link⟩ := exec_alignLock_align g hs hl hst hm
      refine ⟨t, _, run, sent.onGroup.frame, link, ?_, flType_hdrOf s k 0 0 0xFF (by decide), sent.onGroup.others⟩
      rw [sent.out, grpOf_key]
    · intro skew h
      refine congrArg Host.Outcome.next (if_pos (h.imp_right fun hl => ?_))
      rw [hl]
      decide
    · intro hst hn hm
      obtain ⟨t, run, ⟨st, since, others⟩, count, regs, frame⟩ := exec_alignTimeout_spec g hst hn hm
      exact ⟨t, run, ⟨st, since, others⟩, count, regs, frame⟩
    · intro hst hn hm
      obtain ⟨t, run, ⟨st, since, others⟩, frame⟩ := exec_creditAuthTimeout_spec g hst hn hm
      exact ⟨t, run, ⟨st, since, others⟩, frame⟩
    · intro hst hm hx hn
      obtain ⟨t, run, ⟨st, since, others⟩, only⟩ := exec_onewayIdentTimeout_spec g hst hm hx hn
      exact ⟨t, run, ⟨st, since, others⟩, only⟩
    · intro alone
      obtain ⟨-, link, others, -, logged⟩ := failedState_spec s k
      rw [page] at logged
      have run := exec_retrainTimeout_run g hst hn
      rw [linkFail_alone alone] at run
      exact ⟨_, run, link, others, logged, fun m hm => failedState_migs hm, failedState_frame s k⟩
    · intro j hj he
      exact ⟨_, exec_retrainTimeout_run g hst hn, (linkFail_spec s k).2, linkFail_hopeless hj he⟩
    · intro j hj he hf hg hi
      exact ⟨_, exec_retrainTimeout_run g hst hn, linkFail_quiet_frame hj he hf hg hi⟩
    · intro served off
      exact (exec_lnkEnable_run g served).trans (congrArg Host.Outcome.next (if_neg (by rw [off]; decide)))
    · intro served ok hm
      obtain ⟨t, run, en, st, onGroup⟩ := exec_lnkEnable_ok g served ok hm
      exact ⟨t, run, en, st, onGroup.others, onGroup.frame⟩
    · intro served h hm
      obtain ⟨t, run, ⟨st, since, others⟩, frame⟩ := exec_lnkRestart_spec g served h hm
      exact ⟨t, run, ⟨st, since, others⟩, frame⟩
  · intro x cause s p
    have run : exec (.laneFailed x cause) s = .next (laneFail s p x.l.val) := rfl
    refine ⟨fun g k hslot hm => ?_, fun hslot hm => ?_, fun ppb h => congrArg Host.Outcome.next (if_pos h),
      fun ppb g k h hslot => ?_⟩
    · intro l twice spare settled
      have hm' : ∀ m ∈ tget [] s.opt.migs p, m.old.val ≠ x.l.val := fun m h e => hm m h (Fin.ext e)
      refine ⟨fun h1 h2 hr => ⟨fun n hs _ => ?_, fun hs hu ha hg => ?_, fun hs hu => ?_⟩, fun h1 h2 hr => ?_,
        fun h2 hu hr => ?_, fun h hu => ?_⟩
      · obtain ⟨old, new, lanes, settles, once, again⟩ := laneFail_spare hslot hm' h1 h2 hr hs
        exact ⟨_, run, old, new, lanes, settles, once, again⟩
      · exact ⟨_, run, laneFail_fails hslot hm' h1 h2 hr hs hu ha hg⟩
      · exact ⟨_, run, laneFail_waits hslot hm' h1 h2 hr hs hu⟩
      · exact run.trans (congrArg Host.Outcome.next (laneFail_unused hslot h1 h2 hr))
      · rw [laneFail_oneway hslot (.inr h2), if_pos ⟨hu, hr⟩] at run
        exact ⟨_, run, onewayLost_receiver h2⟩
      · rw [laneFail_oneway hslot h, if_neg fun h => hu h.1] at run
        exact run
    · exact run.trans (congrArg Host.Outcome.next (laneFail_free hslot fun m h e => hm m h (Fin.ext e)))
    · have warns : exec (.lnkSerWarn x ppb) s =
          .next (post s (pgLNK p) sevWarning 0x0C0F (getLink s g).owner (d0Own s g) 0) := by
        refine congrArg Host.Outcome.next ((if_neg (Nat.not_le.2 h)).trans ?_)
        rw [hslot]
      refine ⟨_, warns, ?_, post_logged s (pgLNK p) 1 0x0C0F _ _ 0⟩
      obtain ⟨e, r, posted⟩ := post_touches s (pgLNK p) sevWarning 0x0C0F (getLink s g).owner (d0Own s g) 0
      rw [posted]

end Sys2Proof
end

section
/-! PROOFS. Flits sent: the obligation O44 (R268, R269, R271 to R276, R284, R309, R363, R364). -/

namespace Sys2Proof

open Sys2Proof.Machine

/-! ## Lengths, and the cipher (R268) -/

theorem length_fit {α : Type} (d : α) (n : Nat) (l : List α) : (fit d n l).length = n := by
  simp only [fit, List.length_append, List.length_take, List.length_replicate]
  omega

theorem fit_of_length {α : Type} (d : α) {n : Nat} {l : List α} (h : l.length = n) : fit d n l = l := by
  simp [fit, ← h]

theorem length_stream (ks : List (List Nat)) (nonce : List Byte) (n c : Nat) : (Aes.stream ks nonce n c).length = 16 * n := by
  induction n generalizing c with
  | zero => rfl
  | succ n ih =>
    rw [Aes.stream, List.length_append, length_fit, ih]
    omega

theorem length_xorBytes {a b : List Byte} (h : a.length ≤ b.length) : (Aes.xorBytes a b).length = a.length := by
  rw [Aes.xorBytes, List.length_zipWith, Nat.min_eq_left h]

theorem length_keyStream (ks : List (List Nat)) (nonce text : List Byte) :
    text.length ≤ (Aes.stream ks nonce (cdiv text.length 16) 2).length := by
  rw [length_stream, cdiv]
  omega

theorem length_gcmCrypt (key nonce text : List Byte) : (Aes.gcmCrypt key nonce text).length = text.length :=
  length_xorBytes (length_keyStream _ _ _)

/-- A flit as it is sealed (R268, R309): its header and check word, its payload, and where that goes in clear. -/
theorem sealFlit_spec (s : State) (g ty : Nat) (h : W64) (pay : List Byte) : let f := sealFlit s g ty h pay
    f.hdr = h ∧ f.crc = crc32c (bytesOf 8 h.toNat ++ f.pay ++ f.tag) ∧ f.pay.length = pay.length ∧
    (ty = 2 ∨ grpMode s g = 2 → f.pay = pay ∧ f.tag = List.replicate 12 0) ∧ (ty = 3 → f.pay = pay) := by
  refine ⟨rfl, rfl, ?_, fun bare => ?_, fun sync => ?_⟩
  · simp only [sealFlit]
    split
    · rfl
    · exact length_gcmCrypt _ _ _
  · have yes : (decide (ty = 2) || decide (grpMode s g = 2)) = true := by simpa using bare
    simp only [sealFlit, yes]
    exact ⟨rfl, rfl⟩
  · simp [sealFlit, sync]

/-- A flit has left on a group; of the rest the group's record differs, and registers. -/
structure FlitLeft (s t : State) (g : Grp) (ty : Nat) (h : W64) (pay : List Byte) : Prop where
  out    : t.out = Out.flit g (sealFlit s g.key ty h (fit 0 232 pay)) :: s.out
  others : ∀ i, i ≠ g.key → getLink t i = getLink s i
  frame  : t = { s with links := t.links, out := t.out, regs := t.regs }

section
variable {s t : State} {g : Grp} {ty : Nat} {h : W64} {pay : List Byte}

theorem SentOn.left (sent : SentOn s t g.key ty h pay) : FlitLeft s t g ty h pay where
  out := by rw [sent.out, grpOf_key]
  others := sent.onGroup.others
  frame := by
    rw [sent.onGroup.regs]
    exact sent.onGroup.frame

/-- A count of the group's page first. -/
theorem FlitLeft.of_bump {o : Nat} (left : FlitLeft (bump s (lnkOff g.key o) 1) t g ty h pay) : FlitLeft s t g ty h pay := by
  have mode : grpMode (bump s (lnkOff g.key o) 1) g.key = grpMode s g.key :=
    grpMode_of_regsKept (regsKept_bump s (lnkOff g.key o) 1) (by
      have := g.key_lt
      rw [List.mem_singleton]
      simp only [at', lnkOff, pgLNK, pgOPT]
      omega)
  have link (i : Nat) : getLink (bump s (lnkOff g.key o) 1) i = getLink s i := rfl
  obtain ⟨out, others, frame⟩ := left
  refine ⟨out.trans ?_, others, frame⟩
  simp only [sealFlit, link, mode]
  rfl

end

/-- A count of the group's page shows in no header (R269). -/
theorem hdrOf_bump (g : Grp) (s : State) (o ty seq vc nxt : Nat) :
    hdrOf (bump s (lnkOff g.key o) 1) g.key ty seq vc nxt = hdrOf s g.key ty seq vc nxt := by
  have mode : grpMode (bump s (lnkOff g.key o) 1) g.key = grpMode s g.key :=
    grpMode_of_regsKept (regsKept_bump s (lnkOff g.key o) 1) (by
      have := g.key_lt
      rw [List.mem_singleton]
      simp only [at', lnkOff, pgLNK, pgOPT]
      omega)
  simp only [hdrOf, mode]
  rfl

/-! ## Idles and training -/

section
variable (g : Grp) {s : State} (hrole : (getLink s g.key).role ≠ 2) (hclk : linkClock s g.p = true)
include hrole hclk

theorem flitTransmit_two (hm : grpMode s g.key = 0) : exec (.flitTransmit g) s = .next (
    match (getLink s g.key).st with
    | .align => sendTraining s g.key (alignPay s g.key)
    | .ident => if decide ((getLink s g.key).trainAt + 60000 ≤ s.clk.dst) then sendTraining s g.key (identRec s g.key) else s
    | .credit => if decide ((getLink s g.key).trainAt + 60000 ≤ s.clk.dst) ∨ ¬ (getLink s g.key).exch
        then sendTraining s g.key (creditPay s g.key) else sendIdle s g.key []
    | .retrain => if decide ((getLink s g.key).trainAt + 60000 ≤ s.clk.dst) ∧ (getLink s g.key).locked
        then sendTraining s g.key (creditPay s g.key) else sendIdle s g.key []
    | .up => upFlit s g.key
    | _ => s) := by
  refine congrArg Host.Outcome.next ((if_neg (by simp [hrole, hclk])).trans ((if_neg (by omega)).trans ((if_neg (by omega)).trans ?_)))
  rfl

theorem flitTransmit_source (hm : grpMode s g.key = 1) (hu : (getLink s g.key).st = .up) : exec (.flitTransmit g) s = .next (
    if (tget [] (getLink s g.key).backlog 2).isEmpty && (startable s g.key 2).isEmpty then sendIdle s g.key []
    else sendData s g.key 2 false) :=
  congrArg Host.Outcome.next ((if_neg (by simp [hrole, hclk])).trans ((if_pos hm).trans (if_neg (by simp [hu]))))

theorem flitTransmit_receiver (hm : grpMode s g.key = 2) (hd : (getLink s g.key).st ≠ .down)
    (hf : (getLink s g.key).st ≠ .failed) (hh : (getLink s g.key).st ≠ .halt) :
    exec (.flitTransmit g) s = .next (sendIdle s g.key []) :=
  congrArg Host.Outcome.next ((if_neg (by simp [hrole, hclk])).trans ((if_neg (by omega)).trans ((if_pos hm).trans
    (if_neg (by simp [hd, hf, hh])))))

end

/-! ## A two-way group in UP: replay, packets, idles (R271 to R273, R275, R276, R279) -/

section
variable (g : Grp) {s : State}

/-- An idle flit after a count of the group's page, or after none. -/
theorem sendIdle_counted (hm : grpMode s g.key = 0) (o : Nat) :
    FlitLeft s (sendIdle (bump s (lnkOff g.key o) 1) g.key []) g 0 (headerOf (getLink s g.key) 0 0 0 0xFF) [] ∧
    getLink (sendIdle (bump s (lnkOff g.key o) 1) g.key []) g.key = flitSent (getLink s g.key) ∧
    reg (sendIdle (bump s (lnkOff g.key o) 1) g.key []) (lnkOff g.key o) = satAdd (reg s (lnkOff g.key o)) 1 ∧
    RegsKept s (sendIdle (bump s (lnkOff g.key o) 1) g.key []) [lnkOff g.key o] := by
  obtain ⟨sent, link⟩ := sendFlit_sent (bump s (lnkOff g.key o) 1) g.key 0 0 0 0xFF []
  rw [hdrOf_bump, hdrOf_two hm] at sent
  refine ⟨sent.left.of_bump, link, ?_, fun x hx => ?_⟩
  · exact (sent.onGroup.reg _).trans (reg_bump s _ 1)
  · exact (sent.onGroup.reg _).trans (regsKept_bump s _ 1 x hx)

/-- A group's record that changes nothing of what a header or a seal shows (R268, R269). -/
structure SameFace (l x : Link) : Prop where
  keys   : x.keys = l.keys
  epoch  : x.epoch = l.epoch
  fcTx   : x.fcTx = l.fcTx
  kep    : x.kep = l.kep
  acks   : x.rxSeq = l.rxSeq ∧ x.nakOut = l.nakOut ∧ x.crvc = l.crvc
  cells  : ∀ vc, freedCells x vc = freedCells l vc

theorem SameFace.header {l x : Link} (h : SameFace l x) (ty seq vc nxt : Nat) :
    headerOf x ty seq vc nxt = headerOf l ty seq vc nxt := by
  obtain ⟨rx, nak, crvc⟩ := h.acks
  simp only [headerOf, rx, nak, crvc, h.cells, h.kep]

/-- A two-way group sends after such a change. -/
theorem sendFlit_faced (hm : grpMode s g.key = 0) {x : Link} (h : SameFace (getLink s g.key) x) (ty seq vc nxt : Nat)
    (pay : List Byte) :
    SentOn s (sendFlit (setLink s g.key x) g.key ty seq vc nxt pay) g.key ty (headerOf (getLink s g.key) ty seq vc nxt) pay ∧
    getLink (sendFlit (setLink s g.key x) g.key ty seq vc nxt pay) g.key = flitSent x := by
  obtain ⟨sent, link⟩ := sendFlit_sent (setLink s g.key x) g.key ty seq vc nxt pay
  have header : hdrOf (setLink s g.key x) g.key ty seq vc nxt = headerOf (getLink s g.key) ty seq vc nxt := by
    rw [hdrOf_two (s := setLink s g.key x) hm, getLink_setLink, h.header]
  rw [header] at sent
  rw [getLink_setLink] at link
  exact ⟨sent.of_setLink h.keys h.epoch h.fcTx h.kep, link⟩

/-- A group's record while a flit is resent (R272). -/
def replaying (l : Link) (f : RFlit) (r : List RFlit) : Link :=
  { l with resend := r, replay := l.replay.map (fun x => if x.seq = f.seq then { x with tries := x.tries + 1 } else x) }

theorem sendReplay_spec (hm : grpMode s g.key = 0) (hq : tget 0 s.fab.qFlaws g.key = 0) (f : RFlit) (r : List RFlit) :
    SentOn s (sendReplay s g.key f r) g.key 1 (headerOf (getLink s g.key) 1 f.seq f.vc (replayNxt (getLink s g.key) f)) f.pay ∧
    getLink (sendReplay s g.key f r) g.key = flitSent (replaying (getLink s g.key) f r) := by
  have run : sendReplay s g.key f r = sendFlit (setLink s g.key (replaying (getLink s g.key) f r)) g.key 1 f.seq f.vc
      (replayNxt (getLink s g.key) f) f.pay := by
    refine (if_neg (by rw [hq]; decide)).trans ?_
    rw [if_neg (by rw [hq]; decide)]
    rfl
  have face : SameFace (getLink s g.key) (replaying (getLink s g.key) f r) :=
    ⟨rfl, rfl, rfl, rfl, ⟨rfl, rfl, rfl⟩, fun _ => rfl⟩
  rw [run]
  exact sendFlit_faced g hm face 1 f.seq f.vc _ f.pay

end

/-! ## One data flit (R271, R276, R279) -/

/-- What a VC gives to its next flit: the bytes, the packets that begin in them, the packets left, the bytes left. -/
def drawn (s : State) (g vc : Nat) : List Byte × List (Nat × Packet) × List Packet × List Byte :=
  let left := tget [] (getLink s g).backlog vc
  if 232 ≤ left.length then (left.take 232, [], startable s g vc, left.drop 232) else fillPay (startable s g vc) left []

/-- A packet ends in the flit. -/
def endsIn (s : State) (g vc : Nat) : Bool :=
  let left := tget [] (getLink s g).backlog vc
  (decide (0 < left.length) && decide (left.length ≤ 232)) ||
    decide ((if (drawn s g vc).2.2.2.isEmpty then 0 else 1) < (drawn s g vc).2.1.length)

/-- The place of the first packet that begins in the flit. -/
def firstIn (s : State) (g vc : Nat) : Nat := match (drawn s g vc).2.1 with | e :: _ => e.1 | [] => 0xFF

/-- The group's record after a VC has given its bytes. -/
def drained (s : State) (g vc : Nat) : Link :=
  let l := getLink s g
  { l with
    backlog := tput [] l.backlog vc (drawn s g vc).2.2.2
    egress := tput [] l.egress vc (shutOut s g vc ++ (drawn s g vc).2.2.1)
    txPos := tput 0 l.txPos vc (tget 0 l.txPos vc + 232), rr := if endsIn s g vc then (vc + 1) % 4 else vc }

/-- And where the flit is kept for replay. -/
def keptFlit (s : State) (g vc : Nat) : Link :=
  let l := drained s g vc
  let p := tget 0 (getLink s g).txPos vc
  { l with
    seq := ((getLink s g).seq + 1) % 4096, sent := tput 0 l.sent vc (tget 0 l.sent vc + 1)
    ackAt := if (unacked l).isEmpty then s.clk.dst else l.ackAt
    replay := l.replay ++ [{ seq := ((getLink s g).seq + 1) % 4096, vc := vc, at' := p, pay := fit 0 232 (drawn s g vc).1 }]
    flying := l.flying ++ (drawn s g vc).2.1.map (fun e =>
      { vc := vc, lo := p + e.1, hi := p + e.1 + 32 + e.2.pay.length, pkt := e.2 }) }

theorem sendData_two (s : State) (g vc : Nat) : sendData s g vc true =
    sendFlit (setLink s g (keptFlit s g vc)) g 1 (((getLink s g).seq + 1) % 4096) vc (firstIn s g vc)
      (fit 0 232 (drawn s g vc).1) := rfl

theorem sendData_source (s : State) (g vc : Nat) : sendData s g vc false =
    sendFlit (setLink s g (drained s g vc)) g 1 0 vc (firstIn s g vc) (fit 0 232 (drawn s g vc).1) := rfl

/-- A packet alone in its VC begins at the flit's start, and what does not fit stays (R279). -/
theorem drawn_alone {s : State} {g vc : Nat} {p : Packet} (hb : tget [] (getLink s g).backlog vc = [])
    (he : tget [] (getLink s g).egress vc = [p]) (hm : mayStart s g p = true) :
    drawn s g vc = ((pktBytes p).take 232, [(0, p)], [], (pktBytes p).drop 232) ∧ shutOut s g vc = [] := by
  have starts : startable s g vc = [p] := by rw [startable, he]; simp [hm]
  refine ⟨?_, by rw [shutOut, he]; simp [hm]⟩
  rw [drawn, hb, starts]
  by_cases h : 232 ≤ (pktBytes p).length
  · simp [fillPay, h]
  · have short : (pktBytes p).length ≤ 232 := by omega
    simp [fillPay, h, List.take_of_length_le short, List.drop_eq_nil_of_le short]

theorem length_pktBytes (p : Packet) : (pktBytes p).length = 32 + p.pay.length := by
  simp only [pktBytes, List.length_append, length_bytesOf]

theorem fit_take {α : Type} (d : α) (n : Nat) (l : List α) : fit d n (l.take n) = fit d n l := by
  simp only [fit, List.take_take, Nat.min_self, List.length_take]
  congr 2
  omega

theorem keptFlit_faced (s : State) (g vc : Nat) : SameFace (getLink s g) (keptFlit s g vc) :=
  ⟨rfl, rfl, rfl, rfl, ⟨rfl, rfl, rfl⟩, fun _ => rfl⟩

/-- The data flit of a two-way group. -/
theorem sendData_two_spec (g : Grp) {s : State} (hm : grpMode s g.key = 0) (v : Nat) :
    SentOn s (sendData s g.key v true) g.key 1
      (headerOf (getLink s g.key) 1 (((getLink s g.key).seq + 1) % 4096) v (firstIn s g.key v))
      (fit 0 232 (drawn s g.key v).1) ∧
    getLink (sendData s g.key v true) g.key = flitSent (keptFlit s g.key v) := by
  rw [sendData_two]
  exact sendFlit_faced g hm (keptFlit_faced s g.key v) 1 _ v _ _

/-- What a packet alone in its VC leaves. -/
theorem keptFlit_alone {s : State} {g v : Nat} {p : Packet} (hb : tget [] (getLink s g).backlog v = [])
    (he : tget [] (getLink s g).egress v = [p]) (hm : mayStart s g p = true) :
    firstIn s g v = 0 ∧ tget [] (keptFlit s g v).egress v = [] ∧
    (p.pay.length ≤ 200 → fit 0 232 (drawn s g v).1 = fit 0 232 (pktBytes p) ∧ tget [] (keptFlit s g v).backlog v = [] ∧
      (keptFlit s g v).rr = (v + 1) % 4) ∧
    (200 < p.pay.length → fit 0 232 (drawn s g v).1 = (pktBytes p).take 232 ∧
      tget [] (keptFlit s g v).backlog v = (pktBytes p).drop 232 ∧ (keptFlit s g v).rr = v) := by
  obtain ⟨draw, shut⟩ := drawn_alone hb he hm
  have length := length_pktBytes p
  refine ⟨by rw [firstIn, draw], ?_, fun short => ⟨?_, ?_, ?_⟩, fun long => ⟨?_, ?_, ?_⟩⟩
  · refine (tget_tput_self _ _ _ _).trans ?_
    rw [draw, shut]
    rfl
  · rw [draw, fit_take]
  · refine (tget_tput_self _ _ _ _).trans ?_
    rw [draw]
    exact List.drop_eq_nil_of_le (by omega)
  · refine if_pos ?_
    have none : (pktBytes p).drop 232 = [] := List.drop_eq_nil_of_le (by omega)
    simp [endsIn, draw, none]
  · rw [draw]
    exact fit_of_length _ (by rw [List.length_take]; omega)
  · refine (tget_tput_self _ _ _ _).trans ?_
    rw [draw]
  · refine if_neg ?_
    have some : ¬ (pktBytes p).length ≤ 232 := by omega
    simp [endsIn, draw, hb, List.isEmpty_iff, some]

/-! ## What a group in UP sends -/

section
variable {s : State} {k : Nat} (hr : (getLink s k).resend = [])
  (hm : (tget [] s.opt.migs (k / 4)).any (fun m => decide (m.g.val = k % 4) && switchDue m) = false)
include hr hm

theorem upFlit_settled : upFlit s k = if 768 ≤ (getLink s k).replay.length then sendIdle (bump s (lnkOff k 0x11C) 1) k []
    else match sendable s k with
      | [] => sendIdle s k []
      | vs => match vs.find? (fun v => decide (0 < freeCred (getLink s k) v)) with
        | some v => sendData s k v true
        | none => sendIdle (bump s (lnkOff k 0x120) 1) k [] := by
  unfold upFlit
  dsimp only
  rw [hr]
  exact if_neg (by rw [hm, Bool.and_false]; decide)

theorem upFlit_full (h : 768 ≤ (getLink s k).replay.length) : upFlit s k = sendIdle (bump s (lnkOff k 0x11C) 1) k [] :=
  (upFlit_settled hr hm).trans (if_pos h)

theorem upFlit_idle (h : (getLink s k).replay.length < 768) (hv : sendable s k = []) : upFlit s k = sendIdle s k [] := by
  rw [upFlit_settled hr hm, if_neg (by omega), hv]

theorem upFlit_stalled (h : (getLink s k).replay.length < 768) (hv : sendable s k ≠ [])
    (hc : ∀ v ∈ sendable s k, freeCred (getLink s k) v = 0) : upFlit s k = sendIdle (bump s (lnkOff k 0x120) 1) k [] := by
  have none : (sendable s k).find? (fun v => decide (0 < freeCred (getLink s k) v)) = none :=
    List.find?_eq_none.2 fun v hv => by simp [hc v hv]
  rw [upFlit_settled hr hm, if_neg (by omega)]
  cases e : sendable s k with
  | nil => exact absurd e hv
  | cons v vs =>
    rw [e] at none
    dsimp only
    rw [none]

theorem upFlit_data (h : (getLink s k).replay.length < 768) {v : Nat}
    (hv : (sendable s k).find? (fun v => decide (0 < freeCred (getLink s k) v)) = some v) :
    upFlit s k = sendData s k v true := by
  rw [upFlit_settled hr hm, if_neg (by omega)]
  cases e : sendable s k with
  | nil =>
    rw [e] at hv
    cases hv
  | cons u vs =>
    rw [e] at hv
    dsimp only
    rw [hv]

end

theorem upFlit_replays {s : State} {k : Nat} {f : RFlit} {r : List RFlit} (hr : (getLink s k).resend = f :: r) :
    upFlit s k = sendReplay s k f r := by
  unfold upFlit
  dsimp only
  rw [hr]

/-! ## A one-way source (R309) -/

theorem sendData_source_spec (g : Grp) (s : State) (v : Nat) : ∃ h pay, FlitLeft s (sendData s g.key v false) g 1 h pay ∧
    flType h = 1 ∧ flSeq h = 0 ∧ flVc h = v % 4 ∧ (sendData s g.key v false).regs = s.regs ∧
    getLink (sendData s g.key v false) g.key = flitSent (drained s g.key v) := by
  obtain ⟨sent, link⟩ := sendFlit_sent (setLink s g.key (drained s g.key v)) g.key 1 0 v (firstIn s g.key v)
    (fit 0 232 (drawn s g.key v).1)
  have sentS := SentOn.of_setLink (x := drained s g.key v) sent rfl rfl rfl rfl
  rw [getLink_setLink] at link
  rw [sendData_source]
  exact ⟨_, _, sentS.left, flType_hdrOf _ _ _ _ _ (by decide), flSeq_hdrOf _ _ _ _ _ (by decide),
    flVc_hdrOf _ _ _ _ _ (by decide), sentS.onGroup.regs, link⟩

/-! ## Keys, stamps, resends and a source's training -/

theorem exec_keyEpochChange_spec (g : Grp) {s : State} (h : (getLink s g.key).epoch < (getLink s g.key).fcTx / 2 ^ 32) :
    ∃ t, exec (.keyEpochChange g) s = .next t ∧ OnlyLink s t g.key ∧
      getLink t g.key = { getLink s g.key with
        epoch := (getLink s g.key).epoch + 1, kep := !(getLink s g.key).kep, keys := (getLink t g.key).keys } ∧
      tget 0 (getLink t g.key).keys (2 * ((getLink s g.key).epoch + 1) + txDir g.key) =
        linkKey (linkRoot s g.key) (txDir g.key) ((getLink s g.key).epoch + 1) := by
  let x := { getLink s g.key with epoch := (getLink s g.key).epoch + 1, kep := !(getLink s g.key).kep }
  let u := setLink s g.key x
  have link : getLink u g.key = x := getLink_setLink s g.key x
  obtain ⟨⟨frame, others⟩, record⟩ := holdKeys_spec u g.key
  obtain ⟨tx, -⟩ := keys_holdKeys u g.key
  rw [show linkRoot u g.key = _ from linkRoot_setLink s g.key (x := x) rfl rfl rfl, link] at tx
  rw [link] at record
  refine ⟨holdKeys u g.key, congrArg Host.Outcome.next (if_pos h), ⟨frame, fun i hi => ?_⟩, record, tx⟩
  exact (others i hi).trans (getLink_setLink_ne s x hi)

theorem exec_syncSend_spec (g : Grp) {s : State} (hu : (getLink s g.key).st = .up) (hm : grpMode s g.key < 2)
    (hd : (getLink s g.key).syncAt + 65536 ≤ s.clk.dst) : ∃ t h, exec (.syncSend g) s = .next t ∧
      getLink t g.key = { flitSent (getLink s g.key) with syncAt := s.clk.dst } ∧ flType h = 3 ∧
      (grpMode s g.key = 0 → h = headerOf (getLink s g.key) 3 0 0 0xFF) ∧
      SentOn s t g.key 3 h (bytesOf 9 (stamp s) ++ bytesOf 9 (getLink s g.key).peerT1 ++ bytesOf 9 (getLink s g.key).peerRx) := by
  let x := { getLink s g.key with syncAt := s.clk.dst }
  let pay := bytesOf 9 (stamp s) ++ bytesOf 9 (getLink s g.key).peerT1 ++ bytesOf 9 (getLink s g.key).peerRx
  have face : SameFace (getLink s g.key) x := ⟨rfl, rfl, rfl, rfl, ⟨rfl, rfl, rfl⟩, fun _ => rfl⟩
  obtain ⟨sent, link⟩ := sendFlit_sent (setLink s g.key x) g.key 3 0 0 0xFF pay
  rw [getLink_setLink] at link
  have run : exec (.syncSend g) s = .next (sendFlit (setLink s g.key x) g.key 3 0 0 0xFF pay) :=
    congrArg Host.Outcome.next (if_neg (by simp [hu]; omega))
  refine ⟨_, _, run, link, flType_hdrOf _ _ _ _ _ (by decide), fun h0 => ?_, sent.of_setLink rfl rfl rfl rfl⟩
  rw [hdrOf_two (s := setLink s g.key x) h0, getLink_setLink]
  exact face.header 3 0 0 0xFF

theorem exec_onewayTrainingSend_spec (g : Grp) {s : State} (hu : (getLink s g.key).st = .up) (hm : grpMode s g.key = 1)
    (hd : (getLink s g.key).trainAt + 60000 ≤ s.clk.dst) : ∃ t h, exec (.onewayTrainingSend g) s = .next t ∧
      SentOn s t g.key 2 h (identRec s g.key ++ bytesOf 8 (getLink s g.key).fcTx) ∧ flType h = 2 ∧
      getLink t g.key = { flitSent (getLink s g.key) with trainAt := s.clk.dst } := by
  obtain ⟨sent, link⟩ := sendTraining_sent s g.key (identRec s g.key ++ bytesOf 8 (getLink s g.key).fcTx)
  exact ⟨_, _, congrArg Host.Outcome.next (if_pos ⟨hu, hm, hd⟩), sent, flType_hdrOf _ _ _ _ _ (by decide), link⟩

section
variable (g : Grp) {s : State} (hu : (getLink s g.key).st = .up) (hm : grpMode s g.key = 0)
  (hd : (getLink s g.key).ackAt + 6000 ≤ s.clk.dst) (hw : unacked (getLink s g.key) ≠ [])
include hu hm hd hw

theorem exec_replayTimeout_run : exec (.replayTimeout g) s = .next (
    if (unacked (getLink s g.key)).any (fun f => decide (4 ≤ f.tries)) then enterRetrain s g.key
    else setLink (bump s (lnkOff g.key 0x118) 1) g.key
      { getLink s g.key with resend := unacked (getLink s g.key), ackAt := s.clk.dst }) :=
  congrArg Host.Outcome.next ((if_pos ⟨hu, hm, hd⟩).trans (if_neg (by simpa [List.isEmpty_iff] using hw)))

theorem exec_replayTimeout_resends (h : ∀ f ∈ unacked (getLink s g.key), f.tries < 4) :
    ∃ t, exec (.replayTimeout g) s = .next t ∧
      getLink t g.key = { getLink s g.key with resend := unacked (getLink s g.key), ackAt := s.clk.dst } ∧
      reg t (lnkOff g.key 0x118) = satAdd (reg s (lnkOff g.key 0x118)) 1 ∧ RegsKept s t [lnkOff g.key 0x118] ∧
      t = { s with links := t.links, regs := t.regs } := by
  have few : (unacked (getLink s g.key)).any (fun f => decide (4 ≤ f.tries)) = false :=
    List.any_eq_false.2 fun f hf => by have := h f hf; simp; omega
  rw [exec_replayTimeout_run g hu hm hd hw, few]
  exact ⟨_, rfl, getLink_setLink _ g.key _, reg_bump s _ 1, regsKept_bump s _ 1, rfl⟩

theorem exec_replayTimeout_retrains (h : ∃ f ∈ unacked (getLink s g.key), 4 ≤ f.tries) :
    ∃ t, exec (.replayTimeout g) s = .next t ∧ (getLink t g.key).st = .retrain ∧
      (getLink t g.key).replay = (getLink s g.key).replay ∧
      reg t (lnkOff g.key 0x12C) = satAdd (reg s (lnkOff g.key 0x12C)) 1 := by
  have many : (unacked (getLink s g.key)).any (fun f => decide (4 ≤ f.tries)) = true := by simpa using h
  obtain ⟨link, count, -⟩ := enterRetrain_spec s g.key
  rw [exec_replayTimeout_run g hu hm hd hw, many]
  exact ⟨_, rfl, by rw [if_pos rfl, link]; rfl, by rw [if_pos rfl, link]; rfl, count⟩

end

/-! ## The obligation -/

/-- What a two-way group in UP sends, clause by clause. -/
theorem flitTransmit_up (g : Grp) {s : State} (hm : grpMode s g.key = 0)
    (ran : exec (.flitTransmit g) s = .next (upFlit s g.key)) :
    (∀ f r, (getLink s g.key).resend = f :: r → tget 0 s.fab.qFlaws g.key = 0 → ∃ t, exec (.flitTransmit g) s = .next t ∧
      FlitLeft s t g 1 (headerOf (getLink s g.key) 1 f.seq f.vc (replayNxt (getLink s g.key) f)) f.pay ∧
      getLink t g.key = flitSent (replaying (getLink s g.key) f r)) ∧
    ((getLink s g.key).resend = [] →
      (tget [] s.opt.migs (g.key / 4)).any (fun m => decide (m.g.val = g.key % 4) && switchDue m) = false →
      let idles (o : Nat) : Prop := ∃ t, exec (.flitTransmit g) s = .next t ∧
        FlitLeft s t g 0 (headerOf (getLink s g.key) 0 0 0 0xFF) [] ∧ getLink t g.key = flitSent (getLink s g.key) ∧
        (o = 0 → t.regs = s.regs) ∧
        (o ≠ 0 → reg t (lnkOff g.key o) = satAdd (reg s (lnkOff g.key o)) 1 ∧ RegsKept s t [lnkOff g.key o])
      (768 ≤ (getLink s g.key).replay.length → idles 0x11C) ∧
      ((getLink s g.key).replay.length < 768 → sendable s g.key = [] → idles 0) ∧
      ((getLink s g.key).replay.length < 768 → sendable s g.key ≠ [] →
        (∀ v ∈ sendable s g.key, freeCred (getLink s g.key) v = 0) → idles 0x120) ∧
      (∀ v, (getLink s g.key).replay.length < 768 →
        (sendable s g.key).find? (fun v => decide (0 < freeCred (getLink s g.key) v)) = some v →
        ∃ t, exec (.flitTransmit g) s = .next t ∧ FlitLeft s t g 1
          (headerOf (getLink s g.key) 1 (((getLink s g.key).seq + 1) % 4096) v (firstIn s g.key v))
          (fit 0 232 (drawn s g.key v).1) ∧ t.regs = s.regs ∧ getLink t g.key = flitSent (keptFlit s g.key v))) := by
  refine ⟨fun f r hr hq => ?_, fun hr hs => ⟨fun full => ?_, fun room none => ?_, fun room some stall => ?_, fun v room hv => ?_⟩⟩
  · rw [upFlit_replays hr] at ran
    obtain ⟨sent, link⟩ := sendReplay_spec g hm hq f r
    exact ⟨_, ran, sent.left, link⟩
  · rw [upFlit_full hr hs full] at ran
    obtain ⟨left, link, count, kept⟩ := sendIdle_counted g hm 0x11C
    exact ⟨_, ran, left, link, fun h => absurd h (by decide), fun _ => ⟨count, kept⟩⟩
  · rw [upFlit_idle hr hs room none] at ran
    obtain ⟨sent, link⟩ := sendFlit_sent s g.key 0 0 0 0xFF []
    rw [hdrOf_two hm] at sent
    exact ⟨_, ran, sent.left, link, fun _ => sent.onGroup.regs, fun h => absurd rfl h⟩
  · rw [upFlit_stalled hr hs room some stall] at ran
    obtain ⟨left, link, count, kept⟩ := sendIdle_counted g hm 0x120
    exact ⟨_, ran, left, link, fun h => absurd h (by decide), fun _ => ⟨count, kept⟩⟩
  · rw [upFlit_data hr hs room hv] at ran
    obtain ⟨sent, link⟩ := sendData_two_spec g hm v
    exact ⟨_, ran, sent.left, sent.onGroup.regs, link⟩

/-- The training flit of each training state. -/
theorem flitTransmit_trains (g : Grp) {s : State} (hrole : (getLink s g.key).role ≠ 2) (hclk : linkClock s g.p = true)
    (hm : grpMode s g.key = 0) :
    ∀ e ∈ [(LinkSt.align, true, alignPay s g.key),
      (.ident, decide ((getLink s g.key).trainAt + 60000 ≤ s.clk.dst), identRec s g.key),
      (.credit, decide ((getLink s g.key).trainAt + 60000 ≤ s.clk.dst) || !(getLink s g.key).exch, creditPay s g.key),
      (.retrain, decide ((getLink s g.key).trainAt + 60000 ≤ s.clk.dst) && (getLink s g.key).locked, creditPay s g.key)],
      (getLink s g.key).st = e.1 → e.2.1 = true → exec (.flitTransmit g) s = .next (sendTraining s g.key e.2.2) := by
  have ran := flitTransmit_two g hrole hclk hm
  intro e he hst hd
  simp only [List.mem_cons, List.not_mem_nil, or_false] at he
  rcases he with rfl | rfl | rfl | rfl <;> rw [hst] at ran
  · exact ran
  · exact ran.trans (congrArg Host.Outcome.next (if_pos hd))
  · exact ran.trans (congrArg Host.Outcome.next (if_pos (by simpa using hd)))
  · exact ran.trans (congrArg Host.Outcome.next (if_pos (by simpa using hd)))

/-- Settles O44: one flit by the mode and state of its group, each through what the group's record becomes. -/
theorem sentFlits : Obligations.SentFlits := by
  unfold Obligations.SentFlits
  refine ⟨?_, fun g ty h pay s => sealFlit_spec s g ty h pay⟩
  intro g s k l now due sent
  have asSent {t : State} {ty : Nat} {h : W64} {pay : List Byte} (left : FlitLeft s t g ty h pay) : sent t ty h pay :=
    ⟨left.out, left.others, left.frame⟩
  refine ⟨fun hrole hclk hm hu => ?_, fun hrole hclk hm hu => ⟨fun hb hs => ?_, fun some => ?_⟩,
    fun hrole hclk hm hd hf hh => ?_, fun hrole hclk hm e he hst hd => ?_, exec_keyEpochChange_spec g, fun hu hm hd => ?_,
    fun hu hm hd hw => ⟨exec_replayTimeout_resends g hu hm hd hw, exec_replayTimeout_retrains g hu hm hd hw⟩,
    fun hu hm hd => ?_⟩
  · have ran := flitTransmit_two g hrole hclk hm
    rw [hu] at ran
    obtain ⟨replays, settled⟩ := flitTransmit_up g hm ran
    refine ⟨fun f r hr hq => ?_, fun hr hs => ?_⟩
    · obtain ⟨t, run, left, link⟩ := replays f r hr hq
      exact ⟨t, run, asSent left, link⟩
    · obtain ⟨full, none, stalled, data⟩ := settled hr hs
      refine ⟨fun h => ?_, fun h e => ?_, fun h e c => ?_, fun v h e => ?_⟩
      · obtain ⟨t, run, left, rest⟩ := full h
        exact ⟨t, run, asSent left, rest⟩
      · obtain ⟨t, run, left, rest⟩ := none h e
        exact ⟨t, run, asSent left, rest⟩
      · obtain ⟨t, run, left, rest⟩ := stalled h e c
        exact ⟨t, run, asSent left, rest⟩
      · obtain ⟨t, run, left, regs, link⟩ := data v h e
        refine ⟨t, fit 0 232 (drawn s k v).1, firstIn s k v, tget 0 l.txPos v, run, asSent left, length_fit _ _ _, regs, ?_, ?_, ?_,
          fun p hb he hp => ?_⟩
        · rw [link]; rfl
        · rw [link]; rfl
        · rw [link]; exact tget_tput_self 0 l.sent v (tget 0 l.sent v + 1)
        · rw [link]
          exact keptFlit_alone hb he hp
  · have ran := flitTransmit_source g hrole hclk hm hu
    obtain ⟨left, link⟩ := sendFlit_sent s g.key 0 0 0 0xFF []
    rw [if_pos (by simpa using ⟨hb, hs⟩)] at ran
    exact ⟨_, _, ran, asSent left.left, flType_hdrOf _ _ _ _ _ (by decide), left.onGroup.regs, link⟩
  · have ran := flitTransmit_source g hrole hclk hm hu
    rw [if_neg (by simpa [Classical.or_iff_not_imp_left] using some)] at ran
    obtain ⟨h, pay, left, type, seq, vc, regs, link⟩ := sendData_source_spec g s 2
    exact ⟨_, h, pay, ran, asSent left, type, seq, vc, regs, by rw [link]; rfl, by rw [link]; rfl⟩
  · have ran := flitTransmit_receiver g hrole hclk hm hd hf hh
    obtain ⟨left, link⟩ := sendFlit_sent s g.key 0 0 0 0xFF []
    exact ⟨_, _, ran, asSent left.left, flType_hdrOf _ _ _ _ _ (by decide), left.onGroup.regs, link⟩
  · obtain ⟨left, link⟩ := sendTraining_sent s g.key e.2.2
    rw [hdrOf_two hm] at left
    exact ⟨_, flitTransmit_trains g hrole hclk hm e he hst hd, asSent left.left, left.onGroup.regs, link⟩
  · obtain ⟨t, h, run, link, type, header, left⟩ := exec_syncSend_spec g hu hm hd
    exact ⟨t, h, run, left.onGroup.regs, link, type, header, asSent left.left⟩
  · obtain ⟨t, h, run, left, type, link⟩ := exec_onewayTrainingSend_spec g hu hm hd
    exact ⟨t, h, run, asSent left.left, type, left.onGroup.regs, link⟩

end Sys2Proof
end

section
/-! PROOFS. What a received flit passes before it acts: FEC counts, the cipher and the checks, its position and epoch, its
ACK, NAK and credits, and packets out of the stream (R268, R270, R272, R275, R279, R363, R364). -/

namespace Sys2Proof

open Sys2Proof.Machine

/-! ## The cipher undoes itself (R268, R363) -/

theorem xorBytes_xorBytes (a b : List Byte) (h : a.length ≤ b.length) : Aes.xorBytes (Aes.xorBytes a b) b = a := by
  induction a generalizing b with
  | nil => rfl
  | cons x a ih =>
    cases b with
    | nil => simp at h
    | cons y b =>
      have rest := ih b (by simpa using h)
      simp only [Aes.xorBytes, List.zipWith_cons_cons] at rest ⊢
      rw [rest, BitVec.xor_assoc, BitVec.xor_self, BitVec.xor_zero]

theorem gcmCrypt_gcmCrypt (key nonce text : List Byte) : Aes.gcmCrypt key nonce (Aes.gcmCrypt key nonce text) = text := by
  have length := length_gcmCrypt key nonce text
  have inner : Aes.gcmCrypt key nonce text = Aes.xorBytes text (Aes.stream (Aes.keys (Aes.nums key)) nonce (cdiv text.length 16) 2) := rfl
  rw [Aes.gcmCrypt, length, inner]
  exact xorBytes_xorBytes _ _ (length_keyStream _ _ _)

/-- A receiver that holds the sender's key and count reads what the sender sealed. -/
theorem openFlit_sealFlit {a b ty : Nat} {h : W64} {s r : State} (ht : flType h = ty)
    (hk : bit h 12 = (getLink s a).kep) (hm : (grpMode s a, grpMode r b) ∈ [(0, 0), (1, 2), (2, 1)])
    (hd : txDir a = rxDir b) (hf : (getLink r b).fcRx = (getLink s a).fcTx)
    (key : tget 0 (getLink r b).keys (2 * rxEpochOf (getLink r b) h + rxDir b) =
      tget 0 (getLink s a).keys (2 * (getLink s a).epoch + txDir a)) (pay : List Byte) :
    openFlit r b (sealFlit s a ty h pay) = { crcOk := true, tagOk := true, hdr := h, pay := pay } := by
  have bare : bareFlit r b h = (decide (ty = 2) || decide (grpMode s a = 2)) := by
    simp only [List.mem_cons, List.not_mem_nil, or_false, Prod.mk.injEq] at hm
    rcases hm with ⟨ha, hb⟩ | ⟨ha, hb⟩ | ⟨ha, hb⟩ <;> simp [bareFlit, ht, ha, hb]
  rw [← hd] at key
  simp only [openFlit, sealFlit, bare, hf, hk, ht, ← hd, key]
  cases (decide (ty = 2) || decide (grpMode s a = 2)) with
  | true => simp
  | false =>
    by_cases h3 : ty = 3
    · simp [h3]
    · simp [h3, gcmCrypt_gcmCrypt]

/-! ## FEC (R267, R298) -/

/-- One lane's finding, counted. -/
def fecStep (g : Nat) (s : State) (e : Fin 18 × Option FecOut) : State :=
  match e.2 with
  | some .corrected => bump s (at' (pgLNK (g / 4)) (0x300 + 8 * e.1.val)) 1
  | some .uncorrectable => bump s (at' (pgLNK (g / 4)) (0x304 + 8 * e.1.val)) 1
  | _ => s

theorem countFec_eq (s : State) (g : Nat) (w : RxWire) :
    countFec s g w = ((getLink s g).lanes.zip w.fec).foldl (fecStep g) s := rfl

theorem reg_bump_if (s : State) (o x : Nat) : reg (bump s o 1) x = satAdd (reg s x) (if x = o then 1 else 0) := by
  by_cases h : x = o
  · subst h
    rw [if_pos rfl]
    exact reg_bump s x 1
  · rw [if_neg h, satAdd_zero]
    exact reg_bump_ne s 1 h

theorem fecStep_spec (g : Nat) (s : State) (e : Fin 18 × Option FecOut) : (∃ r, fecStep g s e = { s with regs := r }) ∧
    ∀ n ∈ [(0x300, FecOut.corrected), (0x304, .uncorrectable)], ∀ i : Fin 18,
      reg (fecStep g s e) (at' (pgLNK (g / 4)) (n.1 + 8 * i)) =
        satAdd (reg s (at' (pgLNK (g / 4)) (n.1 + 8 * i))) (if i = e.1 ∧ e.2 = some n.2 then 1 else 0) := by
  obtain ⟨j, o⟩ := e
  have counts (m : Nat) (n : Nat × FecOut) (i : Fin 18) (c : Prop) [Decidable c]
      (h : n.1 + 8 * i.val = m + 8 * j.val ↔ c) :
      reg (bump s (at' (pgLNK (g / 4)) (m + 8 * j.val)) 1) (at' (pgLNK (g / 4)) (n.1 + 8 * i)) =
        satAdd (reg s (at' (pgLNK (g / 4)) (n.1 + 8 * i))) (if c then 1 else 0) := by
    rw [reg_bump_if]
    simp only [at', Nat.add_left_cancel_iff, h]
  rcases o with _ | x | x | x
  · exact ⟨⟨_, rfl⟩, fun n _ i => by rw [if_neg (by simp), satAdd_zero]; rfl⟩
  · refine ⟨⟨_, rfl⟩, fun n hn i => ?_⟩
    simp only [List.mem_cons, List.not_mem_nil, or_false] at hn
    rcases hn with rfl | rfl <;> rw [if_neg (by simp), satAdd_zero] <;> rfl
  · refine ⟨⟨_, rfl⟩, fun n hn i => counts 0x300 n i _ ?_⟩
    simp only [List.mem_cons, List.not_mem_nil, or_false] at hn
    rcases hn with rfl | rfl <;> simp [Fin.ext_iff]
    omega
  · refine ⟨⟨_, rfl⟩, fun n hn i => counts 0x304 n i _ ?_⟩
    simp only [List.mem_cons, List.not_mem_nil, or_false] at hn
    rcases hn with rfl | rfl <;> simp [Fin.ext_iff]
    omega

theorem countFec_frame (s : State) (g : Nat) (w : RxWire) : countFec s g w = { s with regs := (countFec s g w).regs } := by
  obtain ⟨r, h⟩ : ∃ r, countFec s g w = { s with regs := r } := by
    rw [countFec_eq]
    refine foldl_rel (R := fun s t : State => ∃ r, t = { s with regs := r }) (fun s => ⟨_, rfl⟩) ?_
      (fun e _ s => (fecStep_spec g s e).1) s
    rintro s t u ⟨_, rfl⟩ ⟨_, rfl⟩
    exact ⟨_, rfl⟩
  rw [h]

/-- Only the lanes' FEC counters of the group's port change. -/
theorem countFec_regs (s : State) (g : Nat) (w : RxWire) {o : Nat}
    (h : ∀ i < 36, o ≠ at' (pgLNK (g / 4)) (0x300 + 4 * i)) : reg (countFec s g w) o = reg s o := by
  rw [countFec_eq]
  refine foldl_rel (R := fun s t : State => reg t o = reg s o) (fun _ => rfl) (fun a b => b.trans a) (fun e _ s => ?_) s
  obtain ⟨j, x⟩ := e
  have even := h (2 * j.val) (by omega)
  have odd := h (2 * j.val + 1) (by omega)
  unfold fecStep
  split
  · exact reg_bump_ne s 1 (by simp only [at'] at even ⊢; omega)
  · exact reg_bump_ne s 1 (by simp only [at'] at odd ⊢; omega)
  · rfl

theorem countFec_counts (s : State) (g : Nat) (w : RxWire) (hd : (getLink s g).lanes.Nodup)
    (hl : (getLink s g).lanes.length = w.fec.length) {e : Fin 18 × Option FecOut} (he : e ∈ (getLink s g).lanes.zip w.fec)
    {n : Nat × FecOut} (hn : n ∈ [(0x300, FecOut.corrected), (0x304, .uncorrectable)]) :
    reg (countFec s g w) (at' (pgLNK (g / 4)) (n.1 + 8 * e.1)) =
      satAdd (reg s (at' (pgLNK (g / 4)) (n.1 + 8 * e.1))) (if e.2 = some n.2 then 1 else 0) := by
  have firsts : (((getLink s g).lanes.zip w.fec).map Prod.fst).Nodup := by
    rw [List.map_fst_zip (Nat.le_of_eq hl)]
    exact hd
  have apart : ∀ b ∈ (getLink s g).lanes.zip w.fec, b ≠ e → e.1 ≠ b.1 :=
    fun b hb hne h => hne (List.inj_on_of_nodup_map firsts hb he h.symm)
  let o := at' (pgLNK (g / 4)) (n.1 + 8 * e.1)
  obtain ⟨u, before, after⟩ := foldl_around (R := fun s t : State => reg t o = reg s o) (fun _ => rfl)
    (fun a b => b.trans a) firsts.of_map he (fun b hb hne s => by
      rw [(fecStep_spec g s b).2 n hn e.1, if_neg fun h => apart b hb hne h.1, satAdd_zero]) s
  refine after.trans (((fecStep_spec g u e).2 n hn e.1).trans ?_)
  rw [show reg u (at' (pgLNK (g / 4)) (n.1 + 8 * e.1)) = _ from before]
  simp only [true_and, o]

theorem grpMode_countFec {g : Nat} (hg : g < 24) (s : State) (w : RxWire) (k : Nat) (hk : k < 24) :
    grpMode (countFec s g w) k = grpMode s k := by
  rw [grpMode, grpMode, countFec_regs s g w fun i hi => ?_]
  simp only [at', pgLNK, pgOPT]
  omega

/-! ## Position and epoch (R363, R364) -/

theorem onlyLink_refl (s : State) (g : Nat) : OnlyLink s s g := ⟨rfl, fun _ _ => rfl⟩

theorem onlyLink_setLink (s : State) (g : Nat) (x : Link) : OnlyLink s (setLink s g x) g :=
  ⟨rfl, fun _ hi => getLink_setLink_ne s x hi⟩

theorem onlyLink_trans {s t u : State} {g : Nat} (h : OnlyLink s t g) (k : OnlyLink t u g) : OnlyLink s u g := by
  obtain ⟨frame, others⟩ := h
  obtain ⟨frame', others'⟩ := k
  exact ⟨by rw [frame', frame], fun i hi => (others' i hi).trans (others i hi)⟩

/-- The states in which positions count. -/
def Counts (st : LinkSt) : Prop := st = .up ∨ st = .credit ∨ st = .retrain ∨ st = .ident

/-- The group's record with one more position, in a state that receives. -/
def counted (l : Link) : Link :=
  match l.st with
  | .credit | .up | .retrain | .ident => { l with fcRx := l.fcRx + 1 }
  | _ => l

theorem counted_up {l : Link} (h : Counts l.st) : counted l = { l with fcRx := l.fcRx + 1 } := by
  unfold counted
  unfold Counts at h
  split
  iterate 4 rfl
  simp_all

theorem counted_idle {l : Link} (h : ¬ Counts l.st) : counted l = l := by
  unfold counted
  unfold Counts at h
  split <;> simp_all

theorem countRx_counts {s : State} {g : Nat} (h : Counts (getLink s g).st) :
    countRx s g = setLink s g { getLink s g with fcRx := (getLink s g).fcRx + 1 } := by
  unfold countRx
  dsimp only
  unfold Counts at h
  split
  iterate 4 rfl
  simp_all

theorem countRx_spec (s : State) (g : Nat) :
    OnlyLink s (countRx s g) g ∧ getLink (countRx s g) g = counted (getLink s g) := by
  by_cases h : Counts (getLink s g).st
  · rw [countRx_counts h, counted_up h, getLink_setLink]
    exact ⟨onlyLink_setLink s g _, rfl⟩
  · have run : countRx s g = s := by
      unfold countRx
      dsimp only
      unfold Counts at h
      split <;> simp_all
    rw [run, counted_idle h]
    exact ⟨onlyLink_refl s g, rfl⟩

/-- The record of a receiver that goes to the next epoch. -/
def nextEpoch (l : Link) : Link := { l with rxEpoch := l.rxEpoch + 1 }

theorem stepEpoch_eq (s : State) (g : Nat) (f : RxFlit) : stepEpoch s g f =
    if (f.crcOk && f.tagOk && !bareFlit s g f.hdr && decide (rxEpochOf (getLink s g) f.hdr ≠ (getLink s g).rxEpoch)) = true
    then holdKeys (setLink s g (nextEpoch (getLink s g))) g else s := rfl

theorem stepEpoch_spec (s : State) (g : Nat) (f : RxFlit) : OnlyLink s (stepEpoch s g f) g ∧
    getLink (stepEpoch s g f) g = { getLink s g with
      rxEpoch := (getLink (stepEpoch s g f) g).rxEpoch, keys := (getLink (stepEpoch s g f) g).keys } := by
  rw [stepEpoch_eq]
  split
  · obtain ⟨only, link⟩ := holdKeys_spec (setLink s g (nextEpoch (getLink s g))) g
    refine ⟨onlyLink_trans (onlyLink_setLink s g _) only, ?_⟩
    rw [link, getLink_setLink]
    rfl
  · exact ⟨onlyLink_refl s g, rfl⟩

/-- Keys as a group holds them rest on its record and its root. -/
theorem holdKeys_link_congr {s t : State} {g : Nat} (hl : getLink t g = getLink s g) (hr : linkRoot t g = linkRoot s g) :
    getLink (holdKeys t g) g = getLink (holdKeys s g) g := by
  simp only [holdKeys, getLink_setLink, hl, hr]

/-- The key's root and the checks see of the registers only the group's mode. -/
theorem stepEpoch_link_congr {s t : State} {g : Nat} (hl : getLink t g = getLink s g) (hm : grpMode t g = grpMode s g)
    (hc : t.cus = s.cus) (ht : t.top = s.top) (f : RxFlit) :
    getLink (stepEpoch t g f) g = getLink (stepEpoch s g f) g := by
  have bare : bareFlit t g f.hdr = bareFlit s g f.hdr := by simp only [bareFlit, hm]
  rw [stepEpoch_eq, stepEpoch_eq, bare, hl]
  split
  · refine holdKeys_link_congr ?_ ?_
    · rw [getLink_setLink, getLink_setLink]
    · rw [linkRoot_setLink t g (x := nextEpoch (getLink s g)) (by rw [hl]; rfl) (by rw [hl]; rfl) (by rw [hl]; rfl),
        linkRoot_setLink s g (x := nextEpoch (getLink s g)) rfl rfl rfl]
      simp only [linkRoot, hl, hm, hc, ht]
  · exact hl

/-- A good flit as a group takes it: what differs is the FEC's counts and the group's record. -/
def arrived (s : State) (k : Nat) (w : RxWire) : State :=
  stepEpoch (countRx (countFec s k w) k) k (openFlit s k w.flit)

section
variable {g : Grp} {s : State} {w : RxWire}

theorem countFec_mode (g : Grp) (s : State) (w : RxWire) : grpMode (countFec s g.key w) g.key = grpMode s g.key :=
  grpMode_countFec g.key_lt s w g.key g.key_lt

theorem getLink_countFec (s : State) (k : Nat) (w : RxWire) (i : Nat) : getLink (countFec s k w) i = getLink s i := by
  rw [countFec_frame]
  rfl

theorem openFlit_countFec (g : Grp) (s : State) (w : RxWire) (f : Flit) :
    openFlit (countFec s g.key w) g.key f = openFlit s g.key f := by
  simp only [openFlit, bareFlit, getLink_countFec, countFec_mode]
  rfl

theorem arrived_spec (g : Grp) (s : State) (w : RxWire) : OnlyLink (countFec s g.key w) (arrived s g.key w) g.key ∧
    getLink (arrived s g.key w) g.key = opened s g.key (openFlit s g.key w.flit) := by
  obtain ⟨only, link⟩ := countRx_spec (countFec s g.key w) g.key
  obtain ⟨onlyS, linkS⟩ := countRx_spec s g.key
  obtain ⟨only', -⟩ := stepEpoch_spec (countRx (countFec s g.key w) g.key) g.key (openFlit s g.key w.flit)
  refine ⟨onlyLink_trans only only', stepEpoch_link_congr ?_ ?_ ?_ ?_ _⟩
  · rw [link, linkS, getLink_countFec]
  · rw [grpMode_congr (s := countFec s g.key w) (by rw [only.1]), countFec_mode, grpMode_congr (s := s) (t := countRx s g.key) (by rw [onlyS.1])]
  · rw [only.1, onlyS.1, countFec_frame]
  · rw [only.1, onlyS.1, countFec_frame]

/-- What of the record a good flit leaves. -/
theorem opened_spec (s : State) (k : Nat) (f : RxFlit) : ∃ e ks, opened s k f = { counted (getLink s k) with
    rxEpoch := e, keys := ks } := by
  obtain ⟨-, link⟩ := countRx_spec s k
  obtain ⟨-, link'⟩ := stepEpoch_spec (countRx s k) k f
  refine ⟨(opened s k f).rxEpoch, (opened s k f).keys, ?_⟩
  rw [← link]
  exact link'

/-! ## The way of a received flit (R270) -/

theorem receives_countFec (g : Grp) (s : State) (w : RxWire) : receives (countFec s g.key w) g.key = receives s g.key := by
  simp only [receives, getLink_countFec, countFec_mode]

theorem rxFlit_good {ty : Nat} (ht : flType w.flit.hdr = ty) (hr : (getLink s g.key).role ≠ 2)
    (hl : receives s g.key = true) (hc : (openFlit s g.key w.flit).crcOk = true)
    (hg : (openFlit s g.key w.flit).tagOk = true) (bad : State → State) (good : State → RxFlit → State) :
    rxFlit s g.key ty w bad good = good (arrived s g.key w) (openFlit s g.key w.flit) := by
  unfold rxFlit
  rw [if_neg (not_not.2 ht), if_neg hr]
  dsimp only
  rw [receives_countFec, hl, openFlit_countFec, hc, hg]
  rfl

theorem rxFlit_bad {ty : Nat} (ht : flType w.flit.hdr = ty) (hr : (getLink s g.key).role ≠ 2)
    (hl : receives s g.key = true) (hb : (openFlit s g.key w.flit).crcOk = false ∨ (openFlit s g.key w.flit).tagOk = false)
    (bad : State → State) (good : State → RxFlit → State) : rxFlit s g.key ty w bad good =
      bad (badFlit (countRx (countFec s g.key w) g.key) g.key (openFlit s g.key w.flit).crcOk) := by
  unfold rxFlit
  rw [if_neg (not_not.2 ht), if_neg hr]
  dsimp only
  rw [receives_countFec, hl, openFlit_countFec, if_neg (by decide), if_pos (by rcases hb with h | h <;> simp [h])]

end

/-! ## ACK, NAK and credits (R272, R275) -/

theorem applyFields_eq (s : State) (g : Nat) (h : W64) : applyFields s g h =
    if flNak h ∧ (fieldsTaken s.clk.dst (getLink s g) h).st = .up
    then resendAll (setLink s g (fieldsTaken s.clk.dst (getLink s g) h)) g
    else setLink s g (fieldsTaken s.clk.dst (getLink s g) h) := by
  let step := (flAck h + 4096 - (getLink s g).ack) % 4096
  by_cases c : 1 ≤ step ∧ step ≤ ((getLink s g).seq + 4096 - (getLink s g).ack) % 4096
  · have taken : fieldsTaken s.clk.dst (getLink s g) h =
        { freeReplay { getLink s g with ack := flAck h, ackAt := s.clk.dst } with
          crn := tput 0 (getLink s g).crn (flCrvc h) (flCrn h) } := by
      unfold fieldsTaken
      dsimp only
      rw [if_pos c]
    rw [taken]
    unfold applyFields
    dsimp only
    rw [if_pos c]
    rfl
  · have taken : fieldsTaken s.clk.dst (getLink s g) h =
        { getLink s g with crn := tput 0 (getLink s g).crn (flCrvc h) (flCrn h) } := by
      unfold fieldsTaken
      dsimp only
      rw [if_neg c]
    rw [taken]
    unfold applyFields
    dsimp only
    rw [if_neg c]

theorem applyFields_plain {s : State} {g : Nat} {h : W64} (hn : flNak h = false) :
    applyFields s g h = setLink s g (fieldsTaken s.clk.dst (getLink s g) h) := by
  rw [applyFields_eq, if_neg (by simp [hn])]

/-- What of the record the fields leave. -/
theorem fieldsTaken_spec (now : Nat) (l : Link) (h : W64) : ∃ a n fl r p, fieldsTaken now l h = { l with
    ack := a, ackAt := n, flying := fl, resend := r, replay := p, crn := tput 0 l.crn (flCrvc h) (flCrn h) } := by
  unfold fieldsTaken
  dsimp only
  split
  · exact ⟨_, _, _, _, _, rfl⟩
  · exact ⟨_, _, _, _, _, rfl⟩

/-! ## Packets out of the stream (R279, R290) -/

/-- The packet is the owner's, of a known type, and multicasts as it may. -/
def Welcome (s : State) (own : BitVec 12) (p : Packet) : Prop :=
  own ≠ 0 ∧ pkAcc p = own.toNat ∧ pkMT p < 6 ∧ badMC s p = false

theorem takePacket_welcome {s : State} {g : Nat} {p : Packet} (h : Welcome s (getLink s g).owner p) (vc n : Nat) :
    takePacket s g vc n p = setLink s g { getLink s g with
      ingress := tput [] (getLink s g).ingress vc (tget [] (getLink s g).ingress vc ++ [p])
      inAt := tput [] (getLink s g).inAt vc (tget [] (getLink s g).inAt vc ++ [n]) } := by
  obtain ⟨own, acc, type, mc⟩ := h
  have some : (getLink s g).owner.toNat ≠ 0 := fun e => own (BitVec.eq_of_toNat_eq e)
  exact (if_neg (by simp [some, acc])).trans (if_neg (by simp [mc]; omega))

/-- Packets that are welcome enter the ingress queue of their VC, in order. -/
theorem takePackets_welcome {g vc : Nat} (at' : Nat × Packet → Nat) (es : List (Nat × Packet)) : ∀ s : State,
    (∀ e ∈ es, Welcome s (getLink s g).owner e.2) →
    let t := es.foldl (fun s e => takePacket s g vc (at' e) e.2) s
    OnlyLink s t g ∧ (∃ i n, getLink t g = { getLink s g with ingress := i, inAt := n }) ∧
    tget [] (getLink t g).ingress vc = tget [] (getLink s g).ingress vc ++ es.map Prod.snd ∧
    (tget [] (getLink t g).inAt vc).length = (tget [] (getLink s g).inAt vc).length + es.length ∧
    ∀ i, i ≠ vc → tget [] (getLink t g).ingress i = tget [] (getLink s g).ingress i := by
  induction es with
  | nil => exact fun s _ => ⟨onlyLink_refl s g, ⟨_, _, rfl⟩, by simp, rfl, fun _ _ => rfl⟩
  | cons e es ih =>
    intro s h
    obtain ⟨first, rest⟩ := List.forall_mem_cons.1 h
    let x := { getLink s g with
      ingress := tput [] (getLink s g).ingress vc (tget [] (getLink s g).ingress vc ++ [e.2])
      inAt := tput [] (getLink s g).inAt vc (tget [] (getLink s g).inAt vc ++ [at' e]) }
    have link : getLink (setLink s g x) g = x := getLink_setLink s g x
    obtain ⟨only, ⟨i, n, record⟩, packets, count, others⟩ := ih (setLink s g x) (by rw [link]; exact rest)
    rw [link] at record packets count others
    dsimp only
    rw [List.foldl_cons, takePacket_welcome first]
    refine ⟨onlyLink_trans (onlyLink_setLink s g x) only, ⟨i, n, record⟩, ?_, ?_, fun k hk => ?_⟩
    · rw [packets]
      simp [x]
    · rw [count]
      simp [x]
      omega
    · rw [others k hk]
      exact tget_tput_ne _ _ _ _ hk

/-- The record of a group whose VC a payload has joined, before the packets leave the stream. -/
def joined (l : Link) (h : W64) (ps : List Packet) (rest : List Byte) (first : Nat) : Link :=
  { l with
    stream := tput [] l.stream (flVc h) rest
    synced := tput true l.synced (flVc h) (tget true l.synced (flVc h) || decide (flNxt h ≤ 231))
    partAt := tput 0 l.partAt (flVc h) (if ps.isEmpty then first else tget 0 l.rxn (flVc h))
    rxn := tput 0 l.rxn (flVc h) (tget 0 l.rxn (flVc h) + 1) }

theorem takePay_eq {s : State} {g : Nat} {h : W64} {pay : List Byte} {ps : List Packet} {rest : List Byte}
    (parsed : parseStream (streamIn (getLink s g) h pay).length (streamIn (getLink s g) h pay) = (ps, rest)) :
    ∃ first, takePay s g h pay = ((List.range ps.length).zip ps).foldl (fun s' e =>
        takePacket s' g (flVc h) (if e.1 = 0 then first else tget 0 (getLink s g).rxn (flVc h)) e.2)
      (setLink s g (joined (getLink s g) h ps rest first)) := by
  refine ⟨if (tget true (getLink s g).synced (flVc h) && !(tget [] (getLink s g).stream (flVc h)).isEmpty &&
    decide (flNxt h ≠ 0)) = true then tget 0 (getLink s g).partAt (flVc h) else tget 0 (getLink s g).rxn (flVc h), ?_⟩
  unfold takePay
  dsimp only
  unfold streamIn at parsed
  rw [parsed]
  rfl

/-- A payload whose packets are all welcome (R279, R290). -/
theorem takePay_welcome {s : State} {g : Nat} {h : W64} {pay : List Byte} {ps : List Packet} {rest : List Byte}
    (parsed : parseStream (streamIn (getLink s g) h pay).length (streamIn (getLink s g) h pay) = (ps, rest))
    (welcome : ∀ p ∈ ps, Welcome s (getLink s g).owner p) : let t := takePay s g h pay
    OnlyLink s t g ∧ (∃ i n first, getLink t g = { joined (getLink s g) h ps rest first with ingress := i, inAt := n }) ∧
    tget [] (getLink t g).ingress (flVc h) = tget [] (getLink s g).ingress (flVc h) ++ ps ∧
    (tget [] (getLink t g).inAt (flVc h)).length = (tget [] (getLink s g).inAt (flVc h)).length + ps.length ∧
    ∀ i, i ≠ flVc h → tget [] (getLink t g).ingress i = tget [] (getLink s g).ingress i := by
  obtain ⟨first, run⟩ := takePay_eq parsed
  dsimp only
  rw [run]
  let u := setLink s g (joined (getLink s g) h ps rest first)
  have link : getLink u g = joined (getLink s g) h ps rest first := getLink_setLink s g _
  have length : ((List.range ps.length).zip ps).length = ps.length := by simp
  have seconds : ((List.range ps.length).zip ps).map Prod.snd = ps := List.map_snd_zip (by simp)
  obtain ⟨only, ⟨i, n, record⟩, packets, count, others⟩ := takePackets_welcome (g := g) (vc := flVc h)
    (fun e => if e.1 = 0 then first else tget 0 (getLink s g).rxn (flVc h)) ((List.range ps.length).zip ps) u
    (fun e he => by
      rw [link]
      exact welcome e.2 (seconds ▸ List.mem_map_of_mem he))
  rw [link] at record packets count others
  refine ⟨onlyLink_trans (onlyLink_setLink s g _) only, ⟨i, n, first, record⟩, ?_, ?_, others⟩
  · rw [packets, seconds]
    rfl
  · rw [count, length]
    rfl

end Sys2Proof
end

section
/-! PROOFS. Flits received: the obligation O43 (R29, R268 to R270, R272, R275, R277 to R279, R363, R364). -/

namespace Sys2Proof

open Sys2Proof.Machine

/-! ## The record between the checks and the payload -/

/-- Position, epoch, keys and the peer's acknowledgements and credits have been taken. -/
def Taken (l x : Link) : Prop := ∃ c e ks a n fl r p cr, x = { l with
  fcRx := c, rxEpoch := e, keys := ks, ack := a, ackAt := n, flying := fl, resend := r, replay := p, crn := cr }

theorem taken_opened {s : State} {k : Nat} (h : Counts (getLink s k).st) (f : RxFlit) : Taken (getLink s k) (opened s k f) := by
  obtain ⟨e, ks, link⟩ := opened_spec s k f
  rw [link, counted_up h]
  exact ⟨_, _, _, _, _, _, _, _, _, rfl⟩

theorem taken_fields {s : State} {k : Nat} (h : Counts (getLink s k).st) (f : RxFlit) (now : Nat) :
    Taken (getLink s k) (fieldsTaken now (opened s k f) f.hdr) := by
  obtain ⟨e, ks, link⟩ := opened_spec s k f
  obtain ⟨a, n, fl, r, p, taken⟩ := fieldsTaken_spec now (opened s k f) f.hdr
  rw [taken, link, counted_up h]
  exact ⟨_, _, _, _, _, _, _, _, _, rfl⟩

theorem Taken.st {l x : Link} (h : Taken l x) : x.st = l.st := by
  obtain ⟨_, _, _, _, _, _, _, _, _, rfl⟩ := h
  rfl

theorem Taken.streamIn {l x : Link} (h : Taken l x) (hd : W64) (pay : List Byte) : streamIn x hd pay = streamIn l hd pay := by
  obtain ⟨_, _, _, _, _, _, _, _, _, rfl⟩ := h
  rfl

theorem welcome_congr {s t : State} (h : t.top = s.top) {own : BitVec 12} {p : Packet} (hw : Welcome s own p) :
    Welcome t own p := by
  obtain ⟨some, acc, type, mc⟩ := hw
  refine ⟨some, acc, type, ?_⟩
  rw [badMC, ownNode, h]
  exact mc

/-! ## A data flit of a two-way group (R272, R279) -/

/-- A flit in sequence has come. -/
def inStep (l : Link) (seq : Nat) : Link := { l with rxSeq := seq, nak := false }

/-- A NAK is due. -/
def nakked (l : Link) : Link := { l with nak := true, nakOut := true }

section
variable {s : State} {g : Nat} {f : RxFlit} (hn : flNak f.hdr = false) {la : Link}
  (hla : fieldsTaken s.clk.dst (getLink s g) f.hdr = la) (hu : la.st = .up)
include hn hla hu

theorem takeData_run : takeData s g f =
    if flSeq f.hdr = (la.rxSeq + 1) % 4096 then
      takePay (setLink (setLink s g la) g (inStep la (flSeq f.hdr))) g f.hdr f.pay
    else if (la.rxSeq + 4096 - flSeq f.hdr) % 4096 < 2048 then setLink s g la
    else if la.nak then setLink s g la else setLink (setLink s g la) g (nakked la) := by
  unfold takeData
  rw [applyFields_plain hn, hla]
  dsimp only
  rw [sendNak, getLink_setLink, if_neg (not_not.2 hu)]
  rfl

theorem takeData_next (hs : flSeq f.hdr = (la.rxSeq + 1) % 4096) {ps : List Packet} {rest : List Byte}
    (parsed : parseStream (streamIn la f.hdr f.pay).length (streamIn la f.hdr f.pay) = (ps, rest))
    (welcome : ∀ p ∈ ps, Welcome s la.owner p) : let t := takeData s g f
    OnlyLink s t g ∧ (∃ i n first, getLink t g =
      { joined (inStep la (flSeq f.hdr)) f.hdr ps rest first with ingress := i, inAt := n }) ∧
    tget [] (getLink t g).ingress (flVc f.hdr) = tget [] la.ingress (flVc f.hdr) ++ ps ∧
    (tget [] (getLink t g).inAt (flVc f.hdr)).length = (tget [] la.inAt (flVc f.hdr)).length + ps.length ∧
    ∀ i, i ≠ flVc f.hdr → tget [] (getLink t g).ingress i = tget [] la.ingress i := by
  let u := setLink (setLink s g la) g (inStep la (flSeq f.hdr))
  have link : getLink u g = inStep la (flSeq f.hdr) := getLink_setLink (setLink s g la) g _
  have only : OnlyLink s u g := onlyLink_trans (onlyLink_setLink s g la) (onlyLink_setLink _ g _)
  obtain ⟨rest', record, packets, count, others⟩ := takePay_welcome (s := u) (g := g) (h := f.hdr) (pay := f.pay)
    (ps := ps) (rest := rest) (by rw [link]; exact parsed)
    (fun p hp => by rw [link]; exact welcome_congr (by rw [only.1]) (welcome p hp))
  rw [link] at record packets count others
  dsimp only
  rw [takeData_run hn hla hu, if_pos hs]
  exact ⟨onlyLink_trans only rest', record, packets, count, others⟩

theorem takeData_odd (hs : flSeq f.hdr ≠ (la.rxSeq + 1) % 4096) : let t := takeData s g f
    OnlyLink s t g ∧ getLink t g =
      if (la.rxSeq + 4096 - flSeq f.hdr) % 4096 < 2048 ∨ la.nak = true then la else nakked la := by
  have only : OnlyLink s (setLink s g la) g := onlyLink_setLink s g la
  dsimp only
  rw [takeData_run hn hla hu, if_neg hs]
  by_cases copy : (la.rxSeq + 4096 - flSeq f.hdr) % 4096 < 2048
  · rw [if_pos copy, if_pos (.inl copy)]
    exact ⟨only, getLink_setLink s g la⟩
  · rw [if_neg copy]
    by_cases due : la.nak = true
    · rw [if_pos due, if_pos (.inr due)]
      exact ⟨only, getLink_setLink s g la⟩
    · rw [if_neg due, if_neg fun h => h.elim copy due]
      exact ⟨onlyLink_trans only (onlyLink_setLink _ g _), getLink_setLink _ g _⟩

end

/-! ## What a flit does once its checks are known -/

section
variable (g : Grp) {s : State} (w : RxWire)

theorem recvData_two (good : GoodFlit s g.key 1 w) (hu : (getLink s g.key).st = .up) :
    recvData s g.key w = takeData (arrived s g.key w) g.key (openFlit s g.key w.flit) := by
  obtain ⟨only, link⟩ := arrived_spec g s w
  have st : (getLink (arrived s g.key w) g.key).st = .up := by rw [link, (taken_opened (.inl hu) _).st, hu]
  unfold recvData
  dsimp only
  rw [rxFlit_good good.type good.mine good.live good.crc good.tag, if_neg (by simp [good.two]), if_pos st]

/-- A bad flit of a two-way group (R270, R272). -/
theorem recvData_bad (ht : flType w.flit.hdr = 1) (hr : (getLink s g.key).role ≠ 2) (hm : grpMode s g.key = 0)
    (hu : (getLink s g.key).st = .up)
    (hb : (openFlit s g.key w.flit).crcOk = false ∨ (openFlit s g.key w.flit).tagOk = false) :
    recvData s g.key w =
      sendNak (badFlit (countRx (countFec s g.key w) g.key) g.key (openFlit s g.key w.flit).crcOk) g.key := by
  have live : receives s g.key = true := by simp [receives, hu]
  unfold recvData
  dsimp only
  rw [rxFlit_bad ht hr live hb, if_neg (by simp [hm])]

end

/-- A failed check counts, and an authentication failure is logged (R270). -/
theorem badFlit_crc (s : State) (g : Nat) : badFlit s g false = bump s (lnkOff g 0x110) 1 := rfl

theorem badFlit_tag (s : State) (g : Nat) : ∃ x r, badFlit s g true = { s with ldg := x, regs := r } ∧
    reg (badFlit s g true) (lnkOff g 0x114) = satAdd (reg s (lnkOff g 0x114)) 1 ∧
    Logged s (badFlit s g true) (pgLNK (g / 4)) 1 0x0C01 (getLink s g).owner (d0Own s g) 0 := by
  let u := bump s (lnkOff g 0x114) 1
  have run : badFlit s g true = post u (pgLNK (g / 4)) sevWarning 0x0C01 (getLink u g).owner (d0Own u g) 0 := rfl
  obtain ⟨x, r, posted⟩ := post_touches u (pgLNK (g / 4)) sevWarning 0x0C01 (getLink u g).owner (d0Own u g) 0
  have regs := post_regs u (pgLNK (g / 4)) sevWarning 0x0C01 (getLink u g).owner (d0Own u g) 0
  have logged : Logged u _ _ _ _ _ _ _ :=
    post_logged u (pgLNK (g / 4)) sevWarning 0x0C01 (getLink u g).owner (d0Own u g) 0
  rw [run]
  refine ⟨x, r, posted, ?_, logged.before rfl rfl⟩
  rw [regs _ (by simp [lnkOff, at', pgLNK, pgLDG, sevWarning]; omega)]
  exact reg_bump s _ 1

theorem countRx_countFec (g : Grp) {s : State} (w : RxWire) (h : Counts (getLink s g.key).st) :
    let v := countRx (countFec s g.key w) g.key
    OnlyLink (countFec s g.key w) v g.key ∧
    getLink v g.key = { getLink s g.key with fcRx := (getLink s g.key).fcRx + 1 } := by
  obtain ⟨only, link⟩ := countRx_spec (countFec s g.key w) g.key
  refine ⟨only, ?_⟩
  rw [link, getLink_countFec, counted_up h]

/-- The FEC's counts are none of the group's own counts. -/
theorem countFec_own (s : State) (g : Nat) (w : RxWire) {o : Nat} (ho : o < 0x200) :
    reg (countFec s g w) (lnkOff g o) = reg s (lnkOff g o) :=
  countFec_regs s g w fun i _ => by
    simp only [lnkOff, at']
    omega

theorem getLink_sendNak (s : State) (g : Nat) : OnlyLink s (sendNak s g) g ∧ getLink (sendNak s g) g = nakked (getLink s g) :=
  ⟨onlyLink_setLink s g _, getLink_setLink s g _⟩

theorem badFlit_spec (g : Grp) {s : State} (w : RxWire) (hu : (getLink s g.key).st = .up) (c : Bool) :
    let t := sendNak (badFlit (countRx (countFec s g.key w) g.key) g.key c) g.key
    getLink t g.key = { getLink s g.key with fcRx := (getLink s g.key).fcRx + 1, nak := true, nakOut := true } ∧
    (c = false → reg t (lnkOff g.key 0x110) = satAdd (reg s (lnkOff g.key 0x110)) 1 ∧ t.ldg = s.ldg) ∧
    (c = true → reg t (lnkOff g.key 0x114) = satAdd (reg s (lnkOff g.key 0x114)) 1 ∧
      Logged s t (pgLNK g.p) 1 0x0C01 (getLink s g.key).owner (d0Lnk (getLink s g.key).owner.toNat g.key) 0) ∧
    t = { s with links := t.links, regs := t.regs, ldg := t.ldg } := by
  obtain ⟨only, link⟩ := countRx_countFec g w (.inl hu)
  have regs (o : Nat) (ho : o < 0x200) : reg (countRx (countFec s g.key w) g.key) (lnkOff g.key o) = reg s (lnkOff g.key o) := by
    rw [only.1]
    exact countFec_own s g.key w ho
  have frame : countRx (countFec s g.key w) g.key =
      { s with links := (countRx (countFec s g.key w) g.key).links, regs := (countFec s g.key w).regs } :=
    only.1.trans (by rw [countFec_frame])
  generalize countRx (countFec s g.key w) g.key = v at *
  dsimp only
  cases c with
  | false =>
    rw [badFlit_crc]
    obtain ⟨nak, linkN⟩ := getLink_sendNak (bump v (lnkOff g.key 0x110) 1) g.key
    generalize sendNak (bump v (lnkOff g.key 0x110) 1) g.key = t at *
    refine ⟨?_, fun _ => ⟨?_, ?_⟩, fun h => (by cases h), ?_⟩
    · refine linkN.trans ?_
      rw [show getLink (bump v (lnkOff g.key 0x110) 1) g.key = _ from link]
      rfl
    · rw [nak.1]
      refine (reg_bump v _ 1).trans ?_
      rw [regs _ (by decide)]
      rfl
    · rw [nak.1, frame]
      rfl
    · rw [nak.1, frame]
      rfl
  | true =>
    obtain ⟨x, r, frameB, count, logged⟩ := badFlit_tag v g.key
    generalize badFlit v g.key true = b at *
    obtain ⟨nak, linkN⟩ := getLink_sendNak b g.key
    generalize sendNak b g.key = t at *
    refine ⟨?_, fun h => (by cases h), fun _ => ⟨?_, ?_⟩, ?_⟩
    · refine linkN.trans ?_
      rw [show getLink b g.key = getLink v g.key by rw [frameB]; rfl, link]
      rfl
    · rw [nak.1]
      refine count.trans ?_
      rw [regs _ (by decide)]
    · rw [g.key_div, d0Own, link] at logged
      exact (logged.before (by rw [frame]) (by rw [frame])).congr (by rw [nak.1])
    · rw [nak.1, frameB, frame]

/-! ## Idle flits (R272, R275, R277, R319, R365) -/

theorem moveWaiting_calm {s : State} {p : Nat} (h : ∀ x < 18, (laneAt s p x).stage < 2) : moveWaiting s p = s := by
  refine foldl_eq_self fun x hx => if_neg fun ⟨late, _⟩ => ?_
  have := h x (List.mem_range.1 hx)
  omega

/-- A group that starts at UP takes the credits and nothing else of the fields: there is nothing to acknowledge. -/
theorem fieldsTaken_fresh (now : Nat) (l : Link) (h : W64) :
    fieldsTaken now (l.fresh now) h = { l.fresh now with crn := tput 0 [] (flCrvc h) (flCrn h) } := by
  unfold fieldsTaken
  dsimp only
  have none : ¬ (1 ≤ (flAck h + 4096 - (l.fresh now).ack) % 4096 ∧ (flAck h + 4096 - (l.fresh now).ack) % 4096 ≤
      ((l.fresh now).seq + 4096 - (l.fresh now).ack) % 4096) := by
    simp only [Link.fresh, Link.go]
    omega
  rw [if_neg none]
  rfl

section
variable (g : Grp) {s : State} (w : RxWire)

theorem execIdleFlit_good (ht : flType w.flit.hdr = 0) (hr : (getLink s g.key).role ≠ 2) (hl : receives s g.key = true)
    (hm : grpMode s g.key = 0) (hc : (openFlit s g.key w.flit).crcOk = true) (hg : (openFlit s g.key w.flit).tagOk = true) :
    exec (.idleFlit g w) s = .next (takeIdle (arrived s g.key w) g.key (openFlit s g.key w.flit)) := by
  have mode : grpMode (arrived s g.key w) g.key = 0 := by
    rw [grpMode_congr (s := countFec s g.key w) (by rw [(arrived_spec g s w).1.1]), countFec_mode, hm]
  refine congrArg Host.Outcome.next ((rxFlit_good ht hr hl hc hg _ _).trans (if_neg ?_))
  rw [mode]
  decide

end

theorem takeIdle_two {s : State} {k : Nat} {f : RxFlit} (hm : grpMode s k = 0) (hc : (getLink s k).st ≠ .credit)
    (hn : recOf f.pay = none) : takeIdle s k f = applyFields s k f.hdr := by
  unfold takeIdle
  rw [if_neg (by omega)]
  dsimp only
  have stays : (if (getLink s k).st = .credit ∧ (getLink s k).exch = true then
      upMoves s (setLink s k ((getLink s k).fresh s.clk.dst)) k else s) = s := if_neg fun h => hc h.1
  rw [stays, if_neg hc, hn]

/-- The first idle flit after the credits brings the group UP (R277, R365). -/
theorem takeIdle_rises {s : State} {k : Nat} {f : RxFlit} (hm : grpMode s k = 0) (hc : (getLink s k).st = .credit)
    (hx : (getLink s k).exch = true) (calm : ∀ x < 18, (laneAt s (k / 4) x).stage < 2) (hn : recOf f.pay = none) :
    takeIdle s k f = applyFields (setLink s k ((getLink s k).fresh s.clk.dst)) k f.hdr := by
  let u := setLink s k ((getLink s k).fresh s.clk.dst)
  have link : getLink u k = (getLink s k).fresh s.clk.dst := getLink_setLink s k _
  have rises : upMoves s u k = u := (if_pos ⟨by rw [hc]; decide, by rw [link]; rfl⟩).trans (moveWaiting_calm calm)
  unfold takeIdle
  rw [if_neg (by omega)]
  dsimp only
  have comes : (if (getLink s k).st = .credit ∧ (getLink s k).exch = true then upMoves s u k else s) = u :=
    (if_pos ⟨hc, hx⟩).trans rises
  rw [comes, link, if_neg (by simp [Link.fresh, Link.go]), hn]

/-- A NAK resends what is not acknowledged (R272). -/
theorem applyFields_nak {s : State} {g : Nat} {h : W64} (hn : flNak h = true) {la : Link}
    (hla : fieldsTaken s.clk.dst (getLink s g) h = la) (hu : la.st = .up) (hw : unacked la ≠ [])
    (few : ∀ x ∈ unacked la, x.tries < 4) : let t := applyFields s g h
    reg t (lnkOff g 0x118) = satAdd (reg s (lnkOff g 0x118)) 1 ∧
    getLink t g = { la with resend := unacked la, ackAt := s.clk.dst } ∧ RegsKept s t [lnkOff g 0x118] ∧
    t = { s with links := t.links, regs := t.regs } := by
  have link : getLink (setLink s g la) g = la := getLink_setLink s g la
  have none : (unacked la).any (fun f => decide (4 ≤ f.tries)) = false :=
    List.any_eq_false.2 fun f hf => by have := few f hf; simp; omega
  have run : applyFields s g h =
      setLink (bump (setLink s g la) (lnkOff g 0x118) 1) g { la with resend := unacked la, ackAt := s.clk.dst } := by
    rw [applyFields_eq, hla, if_pos ⟨hn, hu⟩, resendAll]
    dsimp only
    rw [link, if_neg (by simpa [List.isEmpty_iff] using hw), none]
    rfl
  dsimp only
  rw [run]
  exact ⟨reg_bump (setLink s g la) _ 1, getLink_setLink _ g _, regsKept_bump (setLink s g la) _ 1, rfl⟩

/-! ## Training flits (R277, R336, R338) -/

/-- The flit's record and its own check word. -/
def recWord (pay : List Byte) : W256 := BitVec.ofNat 256 (ofBytes (pay.take 32))

def Whole (pay : List Byte) : Prop := fld (recWord pay) 31 0 = (crc32c ((pay.drop 4).take 28)).toNat

section
variable (g : Grp) {s : State} (w : RxWire) (ht : flType w.flit.hdr = 2) (hr : (getLink s g.key).role ≠ 2)
  (hm : grpMode s g.key = 0) (hc : (openFlit s g.key w.flit).crcOk = true)
include ht hr hm hc

theorem exec_trainingFlit_run (hs : trains (getLink s g.key).st = true) : let v := countRx (countFec s g.key w) g.key
    exec (.trainingFlit g w) s =
      .next (upMoves v (takeTraining v g.key (openFlit s g.key w.flit).pay) g.key) := by
  have mode : grpMode (countFec s g.key w) g.key ≠ 1 := by rw [countFec_mode, hm]; decide
  refine congrArg Host.Outcome.next ((if_neg (not_not.2 ht)).trans ((if_neg hr).trans ((if_neg ?_).trans ?_)))
  · simp [hs, mode]
  · dsimp only
    rw [openFlit_countFec, hc]
    rfl

end

theorem takeTraining_ident {s : State} {g : Nat} (pay : List Byte) (hs : (getLink s g).st = .ident)
    (hm : grpMode s g = 0) : takeTraining s g pay = takeIdent s g pay := by
  unfold takeTraining
  dsimp only
  rw [hs]
  exact if_neg (by simp [hm])

theorem takeTraining_credit {s : State} {g : Nat} (pay : List Byte) (hs : (getLink s g).st = .credit) :
    takeTraining s g pay = takeCredit s g pay := by
  unfold takeTraining
  dsimp only
  rw [hs]

/-- The record that has come is noted. -/
def heard (s : State) (g : Nat) (pay : List Byte) : State := setLink s g { getLink s g with peer := recWord pay }

/-- A record accepted: to CREDIT, with the version and the features of both (R336). -/
def agreed (l : Link) (now : Nat) (r : W256) : Link :=
  { l.go .credit now with
    peer := r, exch := false, ver := BitVec.ofNat 8 (min Config.pver.toNat (idPver r))
    feat := Config.features &&& BitVec.ofNat 16 (idFeat r) }

theorem identReason_heard (s : State) (g : Nat) (pay : List Byte) (r : W256) :
    identReason (heard s g pay) g r = identReason s g r := by
  simp only [identReason, heard, getLink_setLink]
  rfl

theorem takeIdent_broken {s : State} {g : Nat} {pay : List Byte} (h : ¬ Whole pay) : takeIdent s g pay = s := if_pos h

theorem takeIdent_whole {s : State} {g : Nat} {pay : List Byte} (h : Whole pay) : takeIdent s g pay =
      match identReason (heard s g pay) g (recWord pay) with
      | some why => identReject (heard s g pay) g (recWord pay) why
      | none =>
        if grpMode (heard s g pay) g = 2 then
          let fc := ofBytes ((pay.drop 32).take 8)
          holdKeys (setLink (heard s g pay) g { getLink s g with
            peer := recWord pay, ver := BitVec.ofNat 8 (idPver (recWord pay)), feat := BitVec.ofNat 16 (idFeat (recWord pay))
            exch := true, since := (heard s g pay).clk.dst, fcRx := fc + 1, rxEpoch := fc / 2 ^ 32 }) g
        else
          let v := setLink (heard s g pay) g (agreed (getLink s g) s.clk.dst (recWord pay))
          sendTraining v g (creditPay v g) := if_neg (not_not.2 h)

theorem takeIdent_agreed {s : State} {g : Nat} {pay : List Byte} (hm : grpMode s g = 0) (h : Whole pay)
    (hr : identReason s g (recWord pay) = none) : takeIdent s g pay =
      let v := setLink (heard s g pay) g (agreed (getLink s g) s.clk.dst (recWord pay))
      sendTraining v g (creditPay v g) := by
  have mode : grpMode (heard s g pay) g = 0 := (grpMode_congr rfl g).trans hm
  rw [takeIdent_whole h, identReason_heard, hr]
  exact if_neg (by rw [mode]; decide)

theorem takeIdent_rejected {s : State} {g : Nat} {pay : List Byte} {why : Nat} (h : Whole pay)
    (hr : identReason s g (recWord pay) = some why) :
    takeIdent s g pay = identReject (heard s g pay) g (recWord pay) why := by
  rw [takeIdent_whole h, identReason_heard, hr]

/-- A rejected record halts the group, counts, and READY falls (R338, R339). -/
theorem identReject_spec {s : State} {g : Nat} (hg : g < 24) (r : W256) (why : Nat) : let t := identReject s g r why
    (getLink t g).st = .halt ∧ (getLink t g).reason = why ∧ t.top.ready = false ∧
    reg t (at' pgTOP 0x144) = satAdd (reg s (at' pgTOP 0x144)) 1 ∧
    t = { s with links := t.links, top := t.top, regs := t.regs, ldg := t.ldg, out := t.out } := by
  let v := bump s (at' pgTOP 0x144) 1
  let d1 := BitVec.ofNat 32 (idPort r * 2 ^ 29 + idGroup r * 2 ^ 27 + idNode r * 2 ^ 13 + why)
  obtain ⟨x, e, posted⟩ := post_touches v (pgLNK (g / 4)) sevError 0x0C02 (getLink v g).owner (d0Own v g) d1
  have regs := post_regs v (pgLNK (g / 4)) sevError 0x0C02 (getLink v g).owner (d0Own v g) d1
  let w := post v (pgLNK (g / 4)) sevError 0x0C02 (getLink v g).owner (d0Own v g) d1
  let u := setLink w g { (getLink w g).go .halt w.clk.dst with reason := why }
  have run : identReject s g r why = topCheckD u (d0Own u g) := rfl
  have link : getLink u g = { (getLink w g).go .halt w.clk.dst with reason := why } := getLink_setLink w g _
  have halts : anyHalt u = true := List.any_eq_true.2 ⟨g, List.mem_range.2 hg, by rw [link]; rfl⟩
  have count : reg u (at' pgTOP 0x144) = satAdd (reg s (at' pgTOP 0x144)) 1 := by
    refine (regs _ ?_).trans (reg_bump s _ 1)
    simp only [List.mem_cons, at', pgLNK, pgLDG, pgTOP, sevError]
    simp
    omega
  have frame : u = { s with links := u.links, ldg := u.ldg, regs := u.regs } := by
    rw [show u = { w with links := u.links } from rfl, show w = _ from posted]
    rfl
  obtain ⟨⟨e', x', o, checked⟩, kept⟩ := topCheckD_spec u (d0Own u g)
  dsimp only
  rw [run]
  generalize topCheckD u (d0Own u g) = t at *
  have linkT : getLink t g = getLink u g := by rw [checked]; rfl
  refine ⟨by rw [linkT, link]; rfl, by rw [linkT, link], ?_, ?_, ?_⟩
  · rw [checked, halts, Bool.not_true, Bool.and_false]
  · exact (kept _ (by decide)).trans count
  · rw [checked, frame]

/-- Credit data in CREDIT (R275, R363, R364). -/
theorem takeCredit_spec {s : State} {g : Nat} (hs : (getLink s g).st = .credit) (pay : List Byte) :
    let t := takeCredit s g pay
    let e := ofBytes ((pay.drop 16).take 4)
    OnlyLink s t g ∧
    getLink t g = { getLink s g with
      peerLim := ofBytes (pay.take 2), fcRx := ofBytes ((pay.drop 8).take 8), rxEpoch := e, exch := true
      keys := (getLink t g).keys } ∧
    ∀ i ∈ [e, e + 1], tget 0 (getLink t g).keys (2 * i + rxDir g) = linkKey (linkRoot s g) (rxDir g) i := by
  let x := { getLink s g with
    peerLim := ofBytes (pay.take 2), fcRx := ofBytes ((pay.drop 8).take 8), rxEpoch := ofBytes ((pay.drop 16).take 4)
    exch := true }
  have link : getLink (setLink s g x) g = x := getLink_setLink s g x
  obtain ⟨only, record⟩ := holdKeys_spec (setLink s g x) g
  obtain ⟨-, keys⟩ := keys_holdKeys (setLink s g x) g
  rw [linkRoot_setLink s g (x := x) rfl rfl rfl, link] at keys
  rw [link] at record
  have run : takeCredit s g pay = holdKeys (setLink s g x) g := by
    refine if_neg fun h => ?_
    have st : (getLink (holdKeys (setLink s g x) g) g).st = .credit := by rw [record]; exact hs
    rw [h.1] at st
    cases st
  dsimp only
  rw [run]
  exact ⟨onlyLink_trans (onlyLink_setLink s g x) only, record, keys⟩

/-! ## SYNC flits (R29, R284, R379) -/

/-- The offset of R29 from the four stamps. -/
def syncOffset (now : Nat) (pay : List Byte) : Int :=
  (((ofBytes ((pay.drop 18).take 9) : Int) - ofBytes ((pay.drop 9).take 9)) + ((ofBytes (pay.take 9) : Int) - now)) / 2

theorem steer_frame (s : State) (o : Int) : steer s o = { s with clk := (steer s o).clk } := by
  unfold steer
  split <;> rfl

theorem steer_ready {s : State} (h : s.bup.ready = true) (o : Int) : steer s o = steerTo s o :=
  if_neg (by simp [h])

theorem takeSync_spec {s : State} {g : Nat} {pay : List Byte} (he : ofBytes ((pay.drop 9).take 9) ≠ 0) :
    let t := takeSync s g pay
    getLink t g = takeOffset s.clk.dst (syncOffset (stamp s) pay) { getLink s g with
      peerT1 := ofBytes (pay.take 9), peerRx := stamp s } ∧
    (∀ i, i ≠ g → getLink t i = getLink s i) ∧
    t.bup = { s.bup with phase := if s.bup.isLocal = true then max 11 s.bup.phase else s.bup.phase } ∧
    (isRoot s = true → t = { s with links := t.links, bup := t.bup }) ∧
    (isRoot s = false → s.bup.ready = true → t.clk = { s.clk with
      target := wMean (fun i => Config.portWeight (i / 4)) (fun i => (getLink t i).offs) (steerGrps t)
      since := t.clk.since } ∧ t = { s with links := t.links, clk := t.clk, bup := t.bup }) := by
  let b := { s with bup := { s.bup with phase := if s.bup.isLocal then max 11 s.bup.phase else s.bup.phase } }
  let x := takeOffset s.clk.dst (syncOffset (stamp s) pay) { getLink s g with peerT1 := ofBytes (pay.take 9), peerRx := stamp s }
  let u := setLink b g x
  have run : takeSync s g pay = if isRoot s then u
      else steer u (wMean (fun g => Config.portWeight (g / 4)) (fun g => (getLink u g).offs) (steerGrps u)) := if_neg he
  have link : getLink u g = x := getLink_setLink b g x
  have others (i : Nat) (hi : i ≠ g) : getLink u i = getLink s i := getLink_setLink_ne b x hi
  dsimp only
  rw [run]
  cases isRoot s with
  | true => exact ⟨link, others, rfl, fun _ => rfl, fun h => (by cases h)⟩
  | false =>
    rw [if_neg (by decide)]
    generalize hT : wMean (fun g => Config.portWeight (g / 4)) (fun g => (getLink u g).offs) (steerGrps u) = o
    have frame := steer_frame u o
    have links (i : Nat) : getLink (steer u o) i = getLink u i := by rw [frame]; rfl
    refine ⟨(links g).trans link, fun i hi => (links i).trans (others i hi), by rw [frame]; rfl, fun h => (by cases h),
      fun _ ready => ?_⟩
    rw [steer_ready (show u.bup.ready = true from ready)]
    refine ⟨?_, rfl⟩
    rw [show steerTo u o = { u with clk := { u.clk with target := o, since := (steerTo u o).clk.since } } from rfl, ← hT]
    rfl

section
variable (g : Grp) {s : State} (w : RxWire)

theorem execSyncFlit_good (good : GoodFlit s g.key 3 w) (hu : (getLink s g.key).st = .up) :
    let a := arrived s g.key w
    let f := openFlit s g.key w.flit
    exec (.syncFlit g w) s = .next (takeSync (setLink a g.key (fieldsTaken s.clk.dst (opened s g.key f) f.hdr)) g.key f.pay) := by
  obtain ⟨only, link⟩ := arrived_spec g s w
  have mode : grpMode (arrived s g.key w) g.key = 0 := by
    rw [grpMode_congr (s := countFec s g.key w) (by rw [only.1]), countFec_mode, good.two]
  have st : (getLink (arrived s g.key w) g.key).st = .up := by rw [link, (taken_opened (.inl hu) _).st, hu]
  have clk : (arrived s g.key w).clk = s.clk := by rw [only.1, countFec_frame]
  have fields := applyFields_plain (s := arrived s g.key w) (g := g.key) (h := (openFlit s g.key w.flit).hdr) good.nak
  rw [link, clk] at fields
  refine congrArg Host.Outcome.next ((rxFlit_good good.type good.mine good.live good.crc good.tag _ _).trans
    ((if_neg (by simp [mode, st])).trans ?_))
  dsimp only
  rw [fields, getLink_setLink, if_pos ((taken_fields (.inl hu) _ _).st.trans hu)]

end

/-! ## The obligation -/

theorem arrived_top (g : Grp) (s : State) (w : RxWire) : (arrived s g.key w).top = s.top ∧
    (arrived s g.key w).clk = s.clk ∧ (arrived s g.key w).lanes = s.lanes ∧ (arrived s g.key w).bup = s.bup := by
  rw [(arrived_spec g s w).1.1, countFec_frame]
  exact ⟨rfl, rfl, rfl, rfl⟩

section
variable (g : Grp) {s : State} (w : RxWire)

theorem dataFlit_two (good : GoodFlit s g.key 1 w) (hu : (getLink s g.key).st = .up) {la : Link}
    (hla : fieldsTaken s.clk.dst (opened s g.key (openFlit s g.key w.flit)) w.flit.hdr = la) :
    let l := getLink s g.key
    let f := openFlit s g.key w.flit
    let v := flVc f.hdr
    (flSeq f.hdr = (l.rxSeq + 1) % 4096 →
      ∀ ps rest, parseStream (streamIn l f.hdr f.pay).length (streamIn l f.hdr f.pay) = (ps, rest) →
      (∀ p ∈ ps, Welcome s l.owner p) →
      ∃ t, exec (.dataFlit g w) s = .next t ∧ OnlyLink (countFec s g.key w) t g.key ∧ getLink t g.key = { la with
        rxSeq := flSeq f.hdr, nak := false, stream := tput [] l.stream v rest
        synced := tput true l.synced v (tget true l.synced v || decide (flNxt f.hdr ≤ 231))
        rxn := tput 0 l.rxn v (tget 0 l.rxn v + 1), ingress := (getLink t g.key).ingress
        inAt := (getLink t g.key).inAt, partAt := (getLink t g.key).partAt } ∧
        tget [] (getLink t g.key).ingress v = tget [] l.ingress v ++ ps ∧
        (tget [] (getLink t g.key).inAt v).length = (tget [] l.inAt v).length + ps.length ∧
        ∀ i, i ≠ v → tget [] (getLink t g.key).ingress i = tget [] l.ingress i) ∧
    (flSeq f.hdr ≠ (l.rxSeq + 1) % 4096 →
      ∃ t, exec (.dataFlit g w) s = .next t ∧ OnlyLink (countFec s g.key w) t g.key ∧
        getLink t g.key = if (l.rxSeq + 4096 - flSeq f.hdr) % 4096 < 2048 ∨ l.nak = true then la
          else { la with nak := true, nakOut := true }) := by
  dsimp only
  obtain ⟨only, link⟩ := arrived_spec g s w
  obtain ⟨top, clk, -, -⟩ := arrived_top g s w
  have run : exec (.dataFlit g w) s = .next (recvData s g.key w) := rfl
  rw [recvData_two g w good hu] at run
  have taken : Taken (getLink s g.key) la := hla ▸ taken_fields (.inl hu) _ _
  have fields : fieldsTaken (arrived s g.key w).clk.dst (getLink (arrived s g.key w) g.key)
      (openFlit s g.key w.flit).hdr = la := by rw [link, clk]; exact hla
  have up : la.st = .up := taken.st.trans hu
  have nak : flNak (openFlit s g.key w.flit).hdr = false := good.nak
  generalize openFlit s g.key w.flit = f at *
  generalize arrived s g.key w = a at *
  generalize getLink s g.key = l at *
  obtain ⟨_, _, _, _, _, _, _, _, _, rfl⟩ := taken
  refine ⟨fun hs ps rest parsed welcome => ?_, fun hs => ?_⟩
  · obtain ⟨only', ⟨i, n, first, record⟩, packets, count, others⟩ := takeData_next nak fields up hs (ps := ps)
      (rest := rest) parsed (fun p hp => welcome_congr top (welcome p hp))
    refine ⟨_, run, onlyLink_trans only only', ?_, packets, count, others⟩
    rw [record]
    rfl
  · obtain ⟨only', record⟩ := takeData_odd nak fields up hs
    exact ⟨_, run, onlyLink_trans only only', record⟩

theorem dataFlit_oneway (ht : flType w.flit.hdr = 1) (hr : (getLink s g.key).role ≠ 2) (hm : grpMode s g.key = 2)
    (hu : (getLink s g.key).st = .up) (hc : (openFlit s g.key w.flit).crcOk = true)
    (hg : (openFlit s g.key w.flit).tagOk = true) {ps : List Packet} {rest : List Byte} :
    let l := getLink s g.key
    let f := openFlit s g.key w.flit
    let v := flVc f.hdr
    parseStream (streamIn l f.hdr f.pay).length (streamIn l f.hdr f.pay) = (ps, rest) →
    (∀ p ∈ ps, Welcome s l.owner p) →
    ∃ t, exec (.dataFlit g w) s = .next t ∧ OnlyLink (countFec s g.key w) t g.key ∧
      tget [] (getLink t g.key).ingress v = tget [] l.ingress v ++ ps ∧ tget [] (getLink t g.key).stream v = rest := by
  dsimp only
  intro parsed welcome
  obtain ⟨only, link⟩ := arrived_spec g s w
  obtain ⟨top, -, -, -⟩ := arrived_top g s w
  have taken := taken_opened (s := s) (k := g.key) (.inl hu) (openFlit s g.key w.flit)
  have run : exec (.dataFlit g w) s = .next (takePay (arrived s g.key w) g.key (openFlit s g.key w.flit).hdr
      (openFlit s g.key w.flit).pay) := by
    have runs : exec (.dataFlit g w) s = .next (recvData s g.key w) := rfl
    have st : (getLink (arrived s g.key w) g.key).st ≠ .ident := by rw [link, taken.st, hu]; decide
    rw [runs]
    unfold recvData
    dsimp only
    rw [rxFlit_good ht hr (by simp [receives, hu]) hc hg, if_pos (by simp [hm]), if_neg st]
  rw [← link] at taken
  generalize openFlit s g.key w.flit = f at *
  generalize arrived s g.key w = a at *
  have same := taken.streamIn f.hdr f.pay
  obtain ⟨only', ⟨i, n, first, record⟩, packets, -, -⟩ := takePay_welcome (s := a) (g := g.key) (h := f.hdr) (pay := f.pay)
    (ps := ps) (rest := rest) (by rw [same]; exact parsed)
    (fun p hp => welcome_congr top (by
      have := welcome p hp
      obtain ⟨_, _, _, _, _, _, _, _, _, eq⟩ := taken
      rw [eq]
      exact this))
  refine ⟨_, run, onlyLink_trans only only', ?_, ?_⟩
  · rw [packets]
    obtain ⟨_, _, _, _, _, _, _, _, _, eq⟩ := taken
    rw [eq]
  · rw [record]
    exact tget_tput_self _ _ _ _

theorem idleFlit_two (good : GoodFlit s g.key 0 w) (hn : recOf (openFlit s g.key w.flit).pay = none) :
    let l := getLink s g.key
    let lo := opened s g.key (openFlit s g.key w.flit)
    (l.st = .up ∨ l.st = .retrain → ∃ t, exec (.idleFlit g w) s = .next t ∧ OnlyLink (countFec s g.key w) t g.key ∧
      getLink t g.key = fieldsTaken s.clk.dst lo w.flit.hdr) ∧
    (l.st = .credit → l.exch = true → (∀ x < 18, (laneAt s g.p x).stage < 2) →
      ∃ t, exec (.idleFlit g w) s = .next t ∧ OnlyLink (countFec s g.key w) t g.key ∧
      getLink t g.key = { lo.fresh s.clk.dst with crn := tput 0 [] (flCrvc w.flit.hdr) (flCrn w.flit.hdr) }) := by
  dsimp only
  obtain ⟨only, link⟩ := arrived_spec g s w
  obtain ⟨-, clk, lanes, -⟩ := arrived_top g s w
  have run := execIdleFlit_good g w good.type good.mine good.live good.two good.crc good.tag
  have mode : grpMode (arrived s g.key w) g.key = 0 := by
    rw [grpMode_congr (s := countFec s g.key w) (by rw [only.1]), countFec_mode, good.two]
  have nak : flNak (openFlit s g.key w.flit).hdr = false := good.nak
  have header : (openFlit s g.key w.flit).hdr = w.flit.hdr := rfl
  refine ⟨fun hs => ?_, fun hs hx calm => ?_⟩
  · have taken := taken_opened (s := s) (k := g.key) (hs.elim .inl fun h => .inr (.inr (.inl h))) (openFlit s g.key w.flit)
    have st : (getLink (arrived s g.key w) g.key).st ≠ .credit := by
      rw [link, taken.st]
      rcases hs with h | h <;> rw [h] <;> decide
    rw [takeIdle_two mode st hn, applyFields_plain nak, clk, link, header] at run
    exact ⟨_, run, onlyLink_trans only (onlyLink_setLink _ _ _), getLink_setLink _ _ _⟩
  · have taken := taken_opened (s := s) (k := g.key) (.inr (.inl hs)) (openFlit s g.key w.flit)
    have exch : (opened s g.key (openFlit s g.key w.flit)).exch = true := by
      obtain ⟨_, _, _, _, _, _, _, _, _, eq⟩ := taken
      rw [eq]
      exact hx
    have quiet : ∀ x < 18, (laneAt (arrived s g.key w) (g.key / 4) x).stage < 2 := by
      rw [g.key_div]
      intro x hlt
      rw [laneAt, getLane, lanes]
      exact calm x hlt
    rw [takeIdle_rises mode (by rw [link, taken.st, hs]) (by rw [link, exch]) quiet hn, applyFields_plain nak, link, clk,
      getLink_setLink, header] at run
    have clk' : (setLink (arrived s g.key w) g.key ((opened s g.key (openFlit s g.key w.flit)).fresh s.clk.dst)).clk.dst =
        s.clk.dst := by rw [← clk]; rfl
    rw [clk', fieldsTaken_fresh] at run
    exact ⟨_, run, onlyLink_trans only (onlyLink_trans (onlyLink_setLink _ _ _) (onlyLink_setLink _ _ _)),
      getLink_setLink _ _ _⟩

theorem idleFlit_nak (ht : flType w.flit.hdr = 0) (hr : (getLink s g.key).role ≠ 2) (hm : grpMode s g.key = 0)
    (hc : (openFlit s g.key w.flit).crcOk = true) (hg : (openFlit s g.key w.flit).tagOk = true)
    (hk : flNak w.flit.hdr = true) (hn : recOf (openFlit s g.key w.flit).pay = none) (hu : (getLink s g.key).st = .up)
    {la : Link} (hla : fieldsTaken s.clk.dst (opened s g.key (openFlit s g.key w.flit)) w.flit.hdr = la)
    (hw : unacked la ≠ []) (few : ∀ x ∈ unacked la, x.tries < 4) :
    let u := countFec s g.key w
    ∃ t, exec (.idleFlit g w) s = .next t ∧ reg t (lnkOff g.key 0x118) = satAdd (reg u (lnkOff g.key 0x118)) 1 ∧
      getLink t g.key = { la with resend := unacked la, ackAt := s.clk.dst } ∧
      RegsKept u t [lnkOff g.key 0x118] ∧ t = { u with links := t.links, regs := t.regs } := by
  dsimp only
  obtain ⟨only, link⟩ := arrived_spec g s w
  obtain ⟨-, clk, -, -⟩ := arrived_top g s w
  have run := execIdleFlit_good g w ht hr (by simp [receives, hu]) hm hc hg
  have mode : grpMode (arrived s g.key w) g.key = 0 := by
    rw [grpMode_congr (s := countFec s g.key w) (by rw [only.1]), countFec_mode, hm]
  have taken := taken_opened (s := s) (k := g.key) (.inl hu) (openFlit s g.key w.flit)
  rw [takeIdle_two mode (by rw [link, taken.st, hu]; decide) hn] at run
  have up : la.st = .up := hla ▸ ((taken_fields (.inl hu) (openFlit s g.key w.flit) s.clk.dst).st.trans hu)
  obtain ⟨count, record, kept, frame⟩ := applyFields_nak (s := arrived s g.key w) (g := g.key)
    (h := (openFlit s g.key w.flit).hdr) hk (la := la) (by rw [link, clk]; exact hla) up hw few
  rw [clk] at record
  have regs (o : Nat) : reg (arrived s g.key w) o = reg (countFec s g.key w) o := by rw [only.1]; rfl
  have whole := only.1
  generalize applyFields (arrived s g.key w) g.key (openFlit s g.key w.flit).hdr = t at *
  generalize arrived s g.key w = a at *
  refine ⟨t, run, ?_, record, fun o ho => (kept o ho).trans (regs o), ?_⟩
  · rw [count, regs]
  · rw [frame, whole]

/-- A flit of the next epoch (R364). -/
theorem opened_up (hu : (getLink s g.key).st = .up) {f : RxFlit} (hc : f.crcOk = true) (hg : f.tagOk = true) :
    let l := getLink s g.key
    let lo := opened s g.key f
    (rxEpochOf l f.hdr = l.rxEpoch → lo = { l with fcRx := l.fcRx + 1 }) ∧
    (rxEpochOf l f.hdr ≠ l.rxEpoch → bareFlit s g.key f.hdr = false →
      lo = { l with fcRx := l.fcRx + 1, rxEpoch := l.rxEpoch + 1, keys := lo.keys } ∧
      ∀ e ∈ [l.rxEpoch + 1, l.rxEpoch + 2],
        tget 0 lo.keys (2 * e + rxDir g.key) = linkKey (linkRoot s g.key) (rxDir g.key) e) := by
  dsimp only
  obtain ⟨only, link⟩ := countRx_spec s g.key
  rw [counted_up (.inl hu)] at link
  have epoch : rxEpochOf (getLink (countRx s g.key) g.key) f.hdr = rxEpochOf (getLink s g.key) f.hdr := by rw [link]; rfl
  have mode : grpMode (countRx s g.key) g.key = grpMode s g.key :=
    grpMode_congr (s := s) (t := countRx s g.key) (by rw [only.1]) _
  have bare : bareFlit (countRx s g.key) g.key f.hdr = bareFlit s g.key f.hdr := by simp only [bareFlit, mode]
  have root : linkRoot (countRx s g.key) g.key = linkRoot s g.key := by
    simp only [linkRoot, link, mode]
    rw [only.1]
  refine ⟨fun same => ?_, fun next plain => ?_⟩
  · rw [opened, stepEpoch_eq, if_neg, link]
    rw [epoch, same, link]
    simp
  · have run : stepEpoch (countRx s g.key) g.key f =
        holdKeys (setLink (countRx s g.key) g.key (nextEpoch (getLink (countRx s g.key) g.key))) g.key := by
      rw [stepEpoch_eq]
      refine if_pos ?_
      rw [epoch, bare, plain, hc, hg, link]
      simpa using next
    have record := (holdKeys_spec (setLink (countRx s g.key) g.key (nextEpoch (getLink (countRx s g.key) g.key))) g.key).2
    obtain ⟨-, keys⟩ := keys_holdKeys (setLink (countRx s g.key) g.key (nextEpoch (getLink (countRx s g.key) g.key))) g.key
    rw [linkRoot_setLink _ g.key (x := nextEpoch (getLink (countRx s g.key) g.key)) rfl rfl rfl, root, getLink_setLink,
      link] at keys
    rw [getLink_setLink, link] at record
    rw [opened, run, link]
    exact ⟨record, keys⟩

/-- A training flit of a two-way group (R277, R336, R338). -/
theorem trainingFlit_two (ht : flType w.flit.hdr = 2) (hr : (getLink s g.key).role ≠ 2) (hm : grpMode s g.key = 0)
    (hc : (openFlit s g.key w.flit).crcOk = true) : let u := countFec s g.key w
    let l := getLink s g.key
    let pay := (openFlit s g.key w.flit).pay
    let r := recWord pay
    (l.st = .ident → ¬ Whole pay → exec (.trainingFlit g w) s = .next (setLink u g.key { l with fcRx := l.fcRx + 1 })) ∧
    (l.st = .ident → Whole pay → identReason s g.key r = none →
      ∃ t, exec (.trainingFlit g w) s = .next t ∧ (getLink t g.key).st = .credit ∧ (getLink t g.key).peer = r ∧
        (getLink t g.key).ver = BitVec.ofNat 8 (min Config.pver.toNat (idPver r)) ∧
        (getLink t g.key).feat = Config.features &&& BitVec.ofNat 16 (idFeat r) ∧
        t = { u with links := t.links, out := t.out }) ∧
    (∀ why, l.st = .ident → Whole pay → identReason s g.key r = some why →
      ∃ t, exec (.trainingFlit g w) s = .next t ∧ (getLink t g.key).st = .halt ∧ (getLink t g.key).reason = why ∧
        t.top.ready = false ∧ reg t (at' pgTOP 0x144) = satAdd (reg s (at' pgTOP 0x144)) 1 ∧
        t = { u with links := t.links, top := t.top, regs := t.regs, ldg := t.ldg, out := t.out }) ∧
    (l.st = .credit → ∃ t, exec (.trainingFlit g w) s = .next t ∧ OnlyLink u t g.key ∧
      let e := ofBytes ((pay.drop 16).take 4)
      getLink t g.key = { l with
        peerLim := ofBytes (pay.take 2), fcRx := ofBytes ((pay.drop 8).take 8), rxEpoch := e, exch := true
        keys := (getLink t g.key).keys } ∧
      ∀ i ∈ [e, e + 1], tget 0 (getLink t g.key).keys (2 * i + rxDir g.key) = linkKey (linkRoot s g.key) (rxDir g.key) i) := by
  dsimp only
  have runs (hs : trains (getLink s g.key).st = true) : exec (.trainingFlit g w) s = _ :=
    exec_trainingFlit_run g w ht hr hm hc hs
  have fec := countFec_frame s g.key w
  generalize (openFlit s g.key w.flit).pay = pay at *
  have only (h : Counts (getLink s g.key).st) := countRx_countFec g w h
  have mode (h : Counts (getLink s g.key).st) : grpMode (countRx (countFec s g.key w) g.key) g.key = 0 := by
    rw [grpMode_congr (s := countFec s g.key w) (by rw [(only h).1.1]), countFec_mode, hm]
  have still {v t : State} (h : (getLink t g.key).st ≠ .up) : upMoves v t g.key = t := if_neg fun k => h k.2
  generalize hv : countRx (countFec s g.key w) g.key = v at *
  have top (h : Counts (getLink s g.key).st) : v.top = s.top := by rw [(only h).1.1, fec]
  have reason (h : Counts (getLink s g.key).st) (r : W256) : identReason v g.key r = identReason s g.key r := by
    simp only [identReason, (only h).2, mode h, hm, top h]
  have counts (h : (getLink s g.key).st = .ident) : Counts (getLink s g.key).st := .inr (.inr (.inr h))
  have st (h : Counts (getLink s g.key).st) : (getLink v g.key).st = (getLink s g.key).st := by rw [(only h).2]
  refine ⟨fun hs broken => ?_, fun hs whole hr => ?_, fun why hs whole hr => ?_, fun hs => ?_⟩
  · have run := runs (by rw [hs]; decide)
    rw [takeTraining_ident pay ((st (counts hs)).trans hs) (mode (counts hs)), takeIdent_broken broken,
      still (by rw [st (counts hs), hs]; decide), ← hv, countRx_counts (by rw [getLink_countFec]; exact counts hs),
      getLink_countFec] at run
    exact run
  · have run := runs (by rw [hs]; decide)
    let x := agreed (getLink v g.key) v.clk.dst (recWord pay)
    let y := setLink (heard v g.key pay) g.key x
    have link : getLink y g.key = x := getLink_setLink _ g.key x
    obtain ⟨⟨onGroup, -⟩, after⟩ := sendTraining_sent y g.key (creditPay y g.key)
    rw [takeTraining_ident pay ((st (counts hs)).trans hs) (mode (counts hs)), takeIdent_agreed (mode (counts hs)) whole
      ((reason (counts hs) _).trans hr)] at run
    have record : getLink (sendTraining y g.key (creditPay y g.key)) g.key =
        { flitSent x with trainAt := y.clk.dst } := by rw [after, link]
    have goes : (getLink (sendTraining y g.key (creditPay y g.key)) g.key).st = .credit := by rw [record]; rfl
    have fieldsOf : exec (.trainingFlit g w) s = .next (sendTraining y g.key (creditPay y g.key)) :=
      run.trans (congrArg Host.Outcome.next (still (by rw [show (getLink _ g.key).st = _ from goes]; decide)))
    have frame : y = { countFec s g.key w with links := y.links } := by
      rw [show y = { v with links := y.links } from rfl, (only (counts hs)).1.1]
    refine ⟨_, fieldsOf, goes, ?_, ?_, ?_, ?_⟩
    iterate 3 exact (congrArg _ record).trans rfl
    refine onGroup.frame.trans ?_
    rw [frame]
  · have run := runs (by rw [hs]; decide)
    rw [takeTraining_ident pay ((st (counts hs)).trans hs) (mode (counts hs)), takeIdent_rejected whole
      ((reason (counts hs) _).trans hr)] at run
    obtain ⟨halt, latched, ready, count, frame⟩ := identReject_spec (s := heard v g.key pay) g.key_lt (recWord pay) why
    rw [still (by rw [halt]; decide)] at run
    refine ⟨_, run, halt, latched, ready, count.trans ?_, ?_⟩
    · have regs : reg (heard v g.key pay) (at' pgTOP 0x144) = reg (countFec s g.key w) (at' pgTOP 0x144) := by
        rw [heard, (only (counts hs)).1.1]
        rfl
      rw [regs, countFec_regs s g.key w fun i _ => by simp only [at', pgLNK, pgTOP]; omega]
    · refine frame.trans ?_
      rw [heard, (only (counts hs)).1.1]
      rfl
  · have run := runs (by rw [hs]; decide)
    have counts' : Counts (getLink s g.key).st := .inr (.inl hs)
    rw [takeTraining_credit pay ((st counts').trans hs)] at run
    obtain ⟨only', record, keys⟩ := takeCredit_spec ((st counts').trans hs) pay
    have root : linkRoot v g.key = linkRoot s g.key := by
      simp only [linkRoot, (only counts').2, mode counts', hm, top counts']
      rw [(only counts').1.1, fec]
    rw [root] at keys
    rw [(only counts').2] at record
    rw [still (by rw [record, hs]; decide)] at run
    exact ⟨_, run, onlyLink_trans (only counts').1 only', record, keys⟩

end

/-- A SYNC flit steers the Datestamp (R29, R284, R379). -/
theorem syncFlit_two (g : Grp) {s : State} (w : RxWire) (good : GoodFlit s g.key 3 w) (hu : (getLink s g.key).st = .up) :
    let u := countFec s g.key w
    let pay := (openFlit s g.key w.flit).pay
    let la := fieldsTaken s.clk.dst (opened s g.key (openFlit s g.key w.flit)) (openFlit s g.key w.flit).hdr
    ofBytes ((pay.drop 9).take 9) ≠ 0 → ∃ t, exec (.syncFlit g w) s = .next t ∧
      getLink t g.key = takeOffset s.clk.dst (syncOffset (stamp s) pay)
        { la with peerT1 := ofBytes (pay.take 9), peerRx := stamp s } ∧
      (∀ i, i ≠ g.key → getLink t i = getLink s i) ∧
      t.bup = { s.bup with phase := if s.bup.isLocal = true then max 11 s.bup.phase else s.bup.phase } ∧
      (isRoot s = true → t = { u with links := t.links, bup := t.bup }) ∧
      (isRoot s = false → s.bup.ready = true → t.clk = { s.clk with
        target := wMean (fun i => Config.portWeight (i / 4)) (fun i => (getLink t i).offs) (steerGrps t)
        since := t.clk.since } ∧ t = { u with links := t.links, clk := t.clk, bup := t.bup }) := by
  dsimp only
  intro he
  have run := execSyncFlit_good g w good hu
  dsimp only at run
  obtain ⟨only, -⟩ := arrived_spec g s w
  have fec := countFec_frame s g.key w
  have seen (i : Nat) : getLink (countFec s g.key w) i = getLink s i := getLink_countFec s g.key w i
  generalize fieldsTaken s.clk.dst (opened s g.key (openFlit s g.key w.flit)) (openFlit s g.key w.flit).hdr = la at *
  generalize (openFlit s g.key w.flit).pay = pay at *
  generalize arrived s g.key w = a at *
  generalize countFec s g.key w = u at *
  have link : getLink (setLink a g.key la) g.key = la := getLink_setLink a g.key la
  have others (i : Nat) (hi : i ≠ g.key) : getLink (setLink a g.key la) i = getLink s i :=
    (getLink_setLink_ne a la hi).trans ((only.2 i hi).trans (seen i))
  have frame : setLink a g.key la = { u with links := (setLink a g.key la).links } := by
    rw [show setLink a g.key la = { a with links := (setLink a g.key la).links } from rfl, only.1]
  generalize setLink a g.key la = b at *
  obtain ⟨record, others', phase, root, steers⟩ := takeSync_spec (s := b) (g := g.key) (pay := pay) he
  generalize takeSync b g.key pay = t at *
  have clk : b.clk = s.clk := by rw [frame, fec]
  have bup : b.bup = s.bup := by rw [frame, fec]
  have time : stamp b = stamp s := by rw [stamp, clk]; rfl
  have roots : isRoot b = isRoot s := by rw [isRoot, frame, fec]; rfl
  rw [link, clk, time] at record
  rw [bup] at phase
  refine ⟨t, run, record, fun i hi => (others' i hi).trans (others i hi), phase, fun h => ?_, fun h ready => ?_⟩
  · rw [root (roots.trans h), frame]
  · obtain ⟨target, rest⟩ := steers (roots.trans h) (bup ▸ ready)
    rw [clk] at target
    exact ⟨target, rest.trans (by rw [frame])⟩

/-- Settles O43: a flit is taken apart by its type and its group's state; what seals and opens cancels. -/
theorem receivedFlits : Obligations.ReceivedFlits := by
  unfold Obligations.ReceivedFlits
  refine ⟨?_, ?_⟩
  · intro g w s k l u f lo la v
    have port : pgLNK (k / 4) = pgLNK g.p := congrArg pgLNK g.key_div
    refine ⟨countFec_frame s k w, fun hd hl e he n hn => ?_, fun hu hc hg => opened_up g hu hc hg,
      fun good hu => dataFlit_two g w good hu rfl, fun ht hr hm hu hb => ?_,
      fun ht hr hm hu hc hg ps rest parsed welcome => dataFlit_oneway g w ht hr hm hu hc hg parsed welcome,
      fun good hn => idleFlit_two g w good hn,
      fun ht hr hm hc hg hk hn hu hw few => idleFlit_nak g w ht hr hm hc hg hk hn hu rfl hw few,
      fun ht hr hm hc => trainingFlit_two g w ht hr hm hc, fun good hu he => syncFlit_two g w good hu he⟩
    · rw [← port]
      exact countFec_counts s k w hd hl he hn
    · obtain ⟨link, crc, tag, frame⟩ := badFlit_spec g w hu f.crcOk
      have run : exec (.dataFlit g w) s = .next (recvData s k w) := rfl
      rw [recvData_bad g w ht hr hm hu hb] at run
      exact ⟨_, run, link, crc, tag, frame⟩
  · intro a b ty h pay s r x y ht hk hm hd hf key
    exact openFlit_sealFlit ht hk hm hd hf key pay

end Sys2Proof
end

section
/-! PROOFS. Packets injected on a failed group: the obligation O47 (R59, R291, R292). -/

namespace Sys2Proof

open Sys2Proof.Machine

/-- An image of accession 5 on quadrant 0 whose one segment opens lane group 0 for injection in its first 1,000 ticks. -/
def injectingImage : Image :=
  { parses := true, unknown := false, missing := false, covered := true, acc := 5, quads := 1, repairCrc := 0, features := 0,
    idle := 0, gsa := 0, slots := 0, tags := 0, control := [], regions := [], contexts := [], reduces := false,
    linked := false, power := [7], seeds := 0, groups := [],
    segs := [{ origin := 0, len := 1000, streams := [], re := [], rt := [], td := [], md := [], eng := [], adv := [],
               windows := [(0, [(0, 250)])], slots := [], paths := [] }] }

/-- A packet of accession 5 for node 1 in its second phase, on edition 0. -/
def waitingPacket : Packet :=
  { hdr := mkHdr 5 5 1 2 9 0 1 0 ||| BitVec.ofNat 128 (2 ^ 73), hdr2 := 0, pay := [] }

/-- Lane group 0 has failed with two packets of its owner's running job waiting for injection, its window open. -/
def failedWaiting : State :=
  { State.reset with
    jobs := [(0, { Job.reset with st := .running, acc := 5, img := some injectingImage, seg := 1 })]
    links := [(0, { Link.reset 0 with st := .failed, owner := 5, role := 1, inj := [waitingPacket, waitingPacket] })] }

/-- The first packet has no edition left, so it is dropped and its job faults; the fault empties the injection queues of the
job's accession (R59), and the second packet goes with them. -/
theorem inject_faults_empties : ∃ t, exec (.packetInject ⟨0, 0⟩) failedWaiting = .next t ∧ (getLink t 0).inj = [] :=
  ⟨_, rfl, by decide +kernel⟩

/-- Refutes O47: where the packet's job is the owner of the failed group, its fault takes the packets behind it out of the
injection queue as well. -/
theorem not_routerPackets : ¬ Obligations.RouterPackets := by
  unfold Obligations.RouterPackets
  rintro ⟨-, inject, -⟩
  obtain ⟨job, opens, sound, failed, edition, owner⟩ :
      runningAcc failedWaiting (getLink failedWaiting 0).owner.toNat = some 0 ∧ windowOpen failedWaiting 0 0 = true ∧
      tget 0 failedWaiting.fab.qFlaws 0x80 = 0 ∧ (getLink failedWaiting 0).st = .failed ∧
      edValid failedWaiting 0 (1 - pkED waitingPacket) = false ∧ residentAcc failedWaiting (pkAcc waitingPacket) = some 0 := by
    decide +kernel
  obtain ⟨-, -, drops⟩ := inject ⟨0, 0⟩ waitingPacket [waitingPacket] 0 failedWaiting rfl job
  obtain ⟨t, run, -, left, -⟩ := drops 0 opens sound failed edition owner
  obtain ⟨u, run', empty⟩ := inject_faults_empties
  obtain rfl : u = t := Host.Outcome.next.inj (run'.symm.trans run)
  exact List.cons_ne_nil _ _ (left.symm.trans empty)

end Sys2Proof
end

section
/-! PROOFS. Lane cells, rings and lasers: the obligation O49 (R305 to R327). -/

namespace Sys2Proof

open Sys2Proof.Machine

/-! ## Fields of a word -/

/-- The bits of a word after a field is put in. -/
theorem testBit_put32 (w : W32) {hi lo : Nat} (v : Nat) (h : hi < 32) (i : Nat) : (put32 w hi lo v).toNat.testBit i =
    if lo ≤ i ∧ i ≤ hi then v.testBit (i - lo) else w.toNat.testBit i := by
  have room : (2 ^ (hi + 1 - lo) - 1) <<< lo < 2 ^ 32 := by
    rw [Nat.shiftLeft_eq]
    rcases Nat.lt_or_ge hi lo with hlo | hlo
    · rw [show hi + 1 - lo = 0 by omega]
      omega
    · have : 2 ^ (hi + 1 - lo) * 2 ^ lo ≤ 2 ^ 32 := by
        rw [← Nat.pow_add]
        exact Nat.pow_le_pow_right (by decide) (by omega)
      have := Nat.two_pow_pos lo
      have := Nat.two_pow_pos (hi + 1 - lo)
      rw [Nat.sub_mul]
      omega
  have high : ∀ n, 32 ≤ n → w.toNat.testBit n = false := fun n hn =>
    Nat.testBit_lt_two_pow (w.isLt.trans_le (Nat.pow_le_pow_right (by decide) hn))
  have kept : (0xFFFFFFFF - (2 ^ (hi + 1 - lo) - 1) <<< lo : Nat) = 2 ^ 32 - ((2 ^ (hi + 1 - lo) - 1) <<< lo + 1) := by omega
  rw [put32, BitVec.toNat_ofNat, Nat.testBit_mod_two_pow, Nat.testBit_or, Nat.testBit_and, Nat.testBit_and, kept,
    Nat.testBit_two_pow_sub_succ room, Nat.testBit_shiftLeft, Nat.testBit_shiftLeft, Nat.testBit_two_pow_sub_one]
  by_cases hi32 : i < 32
  · by_cases hlo : lo ≤ i <;> by_cases hhi : i ≤ hi
    · simp [hi32, hlo, hhi, show i - lo < hi + 1 - lo by omega]
    · simp [hi32, hlo, hhi, show ¬ i - lo < hi + 1 - lo by omega]
    · simp [hi32, hlo]
    · simp [hi32, hlo]
  · rw [if_neg (by omega), high i (by omega)]
    simp [hi32]

theorem testBit_fld {n : Nat} (w : BitVec n) (hi lo i : Nat) :
    (fld w hi lo).testBit i = (decide (i < hi + 1 - lo) && w.toNat.testBit (lo + i)) := by
  rw [fld, Nat.testBit_mod_two_pow, Nat.testBit_shiftRight]

theorem fld_put32_same (w : W32) {hi lo v : Nat} (h : hi < 32) (hv : v < 2 ^ (hi + 1 - lo)) :
    fld (put32 w hi lo v) hi lo = v := by
  refine Nat.eq_of_testBit_eq fun i => ?_
  rw [testBit_fld, testBit_put32 w v h]
  by_cases hi' : i < hi + 1 - lo
  · rw [if_pos (by omega), Nat.add_sub_cancel_left, decide_eq_true hi', Bool.true_and]
  · rw [decide_eq_false hi', Bool.false_and,
      Nat.testBit_lt_two_pow (hv.trans_le (Nat.pow_le_pow_right (by decide) (by omega)))]

theorem fld_put32_apart (w : W32) {hi lo hi' lo' : Nat} (v : Nat) (h : hi < 32) (ha : hi < lo' ∨ hi' < lo) :
    fld (put32 w hi lo v) hi' lo' = fld w hi' lo' := by
  refine Nat.eq_of_testBit_eq fun i => ?_
  rw [testBit_fld, testBit_fld, testBit_put32 w v h]
  by_cases hi'' : i < hi' + 1 - lo'
  · rw [if_neg (by omega)]
  · rw [decide_eq_false hi'', Bool.false_and, Bool.false_and]

/-! ## Lanes that serve no group -/

theorem laneRole_congr {s t : State} {p l : Nat} (hc : (cellAt t p l).cur = (cellAt s p l).cur)
    (hl : (laneAt t p l).role = (laneAt s p l).role) : laneRole t p l = laneRole s p l := by
  rw [laneRole, laneRole, hc, hl]

theorem slotOf_congr {s t : State} (h : t.links = s.links) (p l : Nat) : slotOf t p l = slotOf s p l := by
  simp only [slotOf, getLink, h]

theorem Unserved.congr {s t : State} {p l : Nat} (h : Unserved s p l) (hk : t.links = s.links)
    (hc : (cellAt t p l).cur = (cellAt s p l).cur) (hl : (laneAt t p l).role = (laneAt s p l).role) : Unserved t p l := by
  rw [Unserved, laneRole_congr hc hl, slotOf_congr hk]
  exact h

/-- A lane that serves no slot touches no group when it fails. -/
theorem laneFail_unserved {s : State} {p l : Nat} (h : Unserved s p l) : laneFail s p l = s := by
  obtain ⟨notSlot, passes⟩ := h
  unfold laneFail
  dsimp only
  split
  · exact if_neg fun ⟨slot, _⟩ => notSlot slot
  case h_2 g k found =>
    by_cases oneway : grpMode s g = 1 ∨ grpMode s g = 2
    · rw [if_pos oneway]
      refine if_neg fun ⟨_, served⟩ => ?_
      rcases served with slot | passage
      · exact notSlot slot
      · cases found.symm.trans (passes passage)
    · rw [if_neg oneway, if_pos notSlot]

theorem laneAcc_unserved {s : State} {p l : Nat} (h : laneRole s p l ≠ .slot) : laneAcc s p l = 0 := by
  unfold laneAcc
  split
  · exact if_neg h
  · rfl

theorem laneAcc_congr {s t : State} {p l : Nat} (hk : t.links = s.links) (hr : laneRole t p l = laneRole s p l) :
    laneAcc t p l = laneAcc s p l := by
  simp only [laneAcc, slotOf_congr hk, hr, getLink, hk]

theorem optPost_spec (s : State) (sev code p l : Nat) (d1 : W32) :
    Logged s (optPost s sev code p l d1) pgOPT sev code (laneAcc s p l) (d0Opt p l) d1 ∧
    optPost s sev code p l d1 = { s with ldg := (optPost s sev code p l d1).ldg, regs := (optPost s sev code p l d1).regs } := by
  refine ⟨post_logged _ _ _ _ _ _ _, ?_⟩
  obtain ⟨_, _, posted⟩ := post_touches s pgOPT sev code (laneAcc s p l) (d0Opt p l) d1
  rw [optPost, posted]

theorem tryUpPort_frame (s : State) (p : Nat) :
    tryUpPort s p = { s with links := (tryUpPort s p).links, out := (tryUpPort s p).out } :=
  foldl_rel (R := fun s t : State => t = { s with links := t.links, out := t.out }) (fun _ => rfl)
    (fun h k => by rw [k, h]) (fun g _ s => (tryUp_spec s _).1.frame) s

theorem getLane_tryUpPort (s : State) (p k : Nat) : getLane (tryUpPort s p) k = getLane s k := by
  rw [tryUpPort_frame]
  rfl

theorem getCell_tryUpPort (s : State) (p k : Nat) : getCell (tryUpPort s p) k = getCell s k := by
  rw [tryUpPort_frame]
  rfl

/-! ## Requests to a lane cell (R306, R307) -/

/-- The cell that OPT_LC_SEL names and the request of OPT_LC. -/
structure CellWrite (s : State) (v : W32) (ax i st tf : Nat) : Prop where
  axis : ax = fld (reg s (at' pgOPT 0x180)) 1 0
  index : i = fld (reg s (at' pgOPT 0x180)) 12 8
  state : st = fld v 2 0
  tap : tf = fld v 19 16
  inAxis : ax < 3
  inRow : i < 18

theorem legal_request {st tf : Nat} (hst : st < 6) (h1 : st = 3 ∨ st = 4 → tf ≠ 0) (h2 : ¬ (st = 3 ∨ st = 4) → tf = 0) :
    ¬ (6 ≤ st ∨ ((decide (st = 3) || decide (st = 4)) = true ∧ tf = 0) ∨
      (¬ (decide (st = 3) || decide (st = 4)) = true ∧ tf ≠ 0)) := by
  rw [Bool.or_eq_true, decide_eq_true_eq, decide_eq_true_eq]
  rintro (h | ⟨tap, h⟩ | ⟨tap, h⟩)
  · omega
  · exact h1 tap h
  · exact h (h2 tap)

section
variable {s : State} {v : W32} {ax i st tf : Nat} (hw : CellWrite s v ax i st tf) (hs : Served s pgOPT)
include hw hs

theorem exec_optLcWrite_illegal (hbad : 6 ≤ st ∨ ((st = 3 ∨ st = 4) ∧ tf = 0) ∨ (¬ (st = 3 ∨ st = 4) ∧ tf ≠ 0)) :
    exec (.optLcWrite v) s = .next (post s pgOPT sevWarning 0x0D09 0 (d0Opt (2 * ax) i) 0) := by
  obtain ⟨rfl, rfl, rfl, rfl, ha, hi⟩ := hw
  refine congrArg Host.Outcome.next ((hostWrite_served hs _ _).trans ((if_neg (by omega)).trans (if_pos ?_)))
  simpa using hbad

theorem exec_optLcWrite_same (hst : st < 6) (h1 : st = 3 ∨ st = 4 → tf ≠ 0) (h2 : ¬ (st = 3 ∨ st = 4) → tf = 0)
    (same : (getCell s (18 * ax + i)).state = st ∧ (getCell s (18 * ax + i)).tapf = tf) :
    exec (.optLcWrite v) s = .next (setCell s (18 * ax + i) { getCell s (18 * ax + i) with hold := bit v 31 }) := by
  obtain ⟨rfl, rfl, rfl, rfl, ha, hi⟩ := hw
  refine congrArg Host.Outcome.next ((hostWrite_served hs _ _).trans ((if_neg (by omega)).trans ((if_neg ?_).trans
    (if_pos same))))
  exact legal_request hst h1 h2

/-- The selected cell has taken a new request, which settles later. -/
def requested (s : State) (v : W32) (ax i st tf : Nat) : State :=
  setCell s (18 * ax + i) { getCell s (18 * ax + i) with
    hold := bit v 31, state := st, tapf := tf, busy := true, since := s.clk.dst }

theorem exec_optLcWrite_new (hst : st < 6) (h1 : st = 3 ∨ st = 4 → tf ≠ 0) (h2 : ¬ (st = 3 ∨ st = 4) → tf = 0)
    (new : ¬ ((getCell s (18 * ax + i)).state = st ∧ (getCell s (18 * ax + i)).tapf = tf)) :
    exec (.optLcWrite v) s = .next (laneFail (laneFail (requested s v ax i st tf) (2 * ax) i) (2 * ax + 1) i) := by
  obtain ⟨rfl, rfl, rfl, rfl, ha, hi⟩ := hw
  refine congrArg Host.Outcome.next ((hostWrite_served hs _ _).trans ((if_neg (by omega)).trans ((if_neg ?_).trans
    (if_neg new))))
  exact legal_request hst h1 h2

end

/-- A cell's present state is what a lane's role reads of it. -/
theorem Unserved.setCell {s : State} {p l x : Nat} {c : LaneCell} (h : Unserved s p l) (hc : c.cur = (getCell s x).cur) :
    Unserved (setCell s x c) p l := by
  refine h.congr rfl ?_ rfl
  unfold cellAt
  by_cases e : 18 * (p / 2) + l = x
  · rw [e, getCell_setCell, hc]
  · rw [getCell_setCell_ne _ _ e]

theorem laneFail_twice {s : State} {p q l : Nat} (h : Unserved s p l) (k : Unserved s q l) :
    laneFail (laneFail s p l) q l = s := by
  rw [laneFail_unserved h, laneFail_unserved k]

/-! ## A cell that settles (R305, R307, R323) -/

/-- What becomes of a lane's laser with the state its cell has settled in. -/
def settledLaser (y : Lane) (p cur : Nat) : LaserSt :=
  if ((cur = 0 ∨ cur = 2 ∨ (cur = 3 ∧ p % 2 = 1) ∨ (cur = 4 ∧ p % 2 = 0)) ∧ cur ≠ 0) ∧ y.lp = false then .blocked
  else if y.role = .retired ∨ (cur = 0 ∨ cur = 2 ∨ (cur = 3 ∧ p % 2 = 1) ∨ (cur = 4 ∧ p % 2 = 0)) then .off
  else if cur = 5 then .safe
  else if y.laser = .full then .full else .safe

theorem light_laser (y : Lane) (st : LaserSt) (now : Nat) : (y.light st now).laser = st := by
  unfold Lane.light
  split
  case isTrue h => exact h.symm
  · split <;> rfl

/-- The cell's state sends light on to the port's output. -/
def forwards (p cur : Nat) : Bool :=
  decide (cur = 2) || (decide (cur = 3) && decide (p % 2 = 1)) || (decide (cur = 4) && decide (p % 2 = 0))

/-- The laser under the cell's state, before an output without light on its fibre is blocked. -/
def litLaser (y : Lane) (p cur : Nat) : LaserSt :=
  if y.role = .retired then .off else if (decide (cur = 0) || decide (cur = 2) || (decide (cur = 3) && decide (p % 2 = 1))
    || (decide (cur = 4) && decide (p % 2 = 0))) = true then .off
  else if cur = 5 then .safe else if y.laser = .full then .full else .safe

theorem cellLight_eq (s : State) (p l cur : Nat) : cellLight s p l cur =
    if forwards p cur && !(laneAt s p l).lp then
      setLaneAt (setLaneAt s p l ((laneAt s p l).light (litLaser (laneAt s p l) p cur) s.clk.dst)) p l
        { laneAt (setLaneAt s p l ((laneAt s p l).light (litLaser (laneAt s p l) p cur) s.clk.dst)) p l with
          laser := .blocked }
    else setLaneAt s p l ((laneAt s p l).light (litLaser (laneAt s p l) p cur) s.clk.dst) := rfl

/-- Both cases of a settled laser. -/
theorem settledLaser_eq (y : Lane) (p cur : Nat) :
    settledLaser y p cur = if (forwards p cur && !y.lp) = true then .blocked else litLaser y p cur := by
  have dark : ((cur = 0 ∨ cur = 2 ∨ (cur = 3 ∧ p % 2 = 1) ∨ (cur = 4 ∧ p % 2 = 0)) ∧ cur ≠ 0) ∧ y.lp = false ↔
      (forwards p cur && !y.lp) = true := by
    simp only [forwards, Bool.and_eq_true, Bool.or_eq_true, decide_eq_true_eq, Bool.not_eq_true']
    refine and_congr_left fun _ => ⟨fun h => by omega, fun h => by omega⟩
  have off : (decide (cur = 0) || decide (cur = 2) || (decide (cur = 3) && decide (p % 2 = 1))
      || (decide (cur = 4) && decide (p % 2 = 0))) = true ↔
      (cur = 0 ∨ cur = 2 ∨ (cur = 3 ∧ p % 2 = 1) ∨ (cur = 4 ∧ p % 2 = 0)) := by
    simp only [Bool.and_eq_true, Bool.or_eq_true, decide_eq_true_eq, or_assoc]
  rw [settledLaser, litLaser, if_congr dark rfl rfl, if_congr off rfl rfl]
  have either : (if y.role = .retired ∨ (cur = 0 ∨ cur = 2 ∨ (cur = 3 ∧ p % 2 = 1) ∨ (cur = 4 ∧ p % 2 = 0)) then LaserSt.off
      else if cur = 5 then .safe else if y.laser = .full then .full else .safe) =
      if y.role = .retired then .off
      else if (cur = 0 ∨ cur = 2 ∨ (cur = 3 ∧ p % 2 = 1) ∨ (cur = 4 ∧ p % 2 = 0)) then .off
      else if cur = 5 then .safe else if y.laser = .full then .full else .safe := by
    by_cases retired : y.role = .retired
    · rw [if_pos (.inl retired), if_pos retired]
    · rw [if_neg retired, if_congr (or_iff_right retired) rfl rfl]
  rw [either]

theorem cellLight_spec (s : State) (p l cur : Nat) :
    (laneAt (cellLight s p l cur) p l).laser = settledLaser (laneAt s p l) p cur ∧
    (∀ k, k ≠ 18 * p + l → getLane (cellLight s p l cur) k = getLane s k) ∧
    cellLight s p l cur = { s with lanes := (cellLight s p l cur).lanes } := by
  rw [cellLight_eq, settledLaser_eq]
  have lit := light_laser (laneAt s p l) (litLaser (laneAt s p l) p cur) s.clk.dst
  generalize (laneAt s p l).light (litLaser (laneAt s p l) p cur) s.clk.dst = x at *
  split
  · refine ⟨?_, fun k hk => ?_, rfl⟩
    · exact congrArg Lane.laser (getLane_setLane _ _ _)
    · exact (getLane_setLane_ne _ _ hk).trans (getLane_setLane_ne s x hk)
  · exact ⟨(congrArg Lane.laser (getLane_setLane s _ x)).trans lit, fun k hk => getLane_setLane_ne s x hk, rfl⟩

/-- The cell has settled in the state asked for. -/
def settledCell (s : State) (x : Nat) : State :=
  setCell s x { getCell s x with busy := false, cur := (getCell s x).state }

/-- A cell that settles takes its requested state and decides the lasers of both lanes; groups may then come up. -/
theorem settleCell_spec (s : State) {ax i : Nat} (hi : i < 18) :
    let t := settleCell s (18 * ax + i)
    let cur := (getCell s (18 * ax + i)).state
    getCell t (18 * ax + i) = { getCell s (18 * ax + i) with busy := false, cur := cur } ∧
    (∀ p ∈ [2 * ax, 2 * ax + 1], (laneAt t p i).laser = settledLaser (laneAt s p i) p cur) ∧
    t = { s with cells := t.cells, lanes := t.lanes, links := t.links, out := t.out } := by
  intro t cur
  have run : t = tryUpPort (tryUpPort (cellLight (cellLight (settledCell s (18 * ax + i)) (2 * ax) i cur) (2 * ax + 1) i cur)
      (2 * ax)) (2 * ax + 1) := by
    have hq : (18 * ax + i) / 18 = ax := by omega
    have hr : (18 * ax + i) % 18 = i := by omega
    show settleCell s (18 * ax + i) = _
    unfold settleCell
    rw [hq, hr]
    rfl
  have cell : getCell (settledCell s (18 * ax + i)) (18 * ax + i) = { getCell s (18 * ax + i) with busy := false, cur := cur } :=
    getCell_setCell s _ _
  have start : settledCell s (18 * ax + i) = { s with cells := (settledCell s (18 * ax + i)).cells } := rfl
  clear_value t cur
  generalize settledCell s (18 * ax + i) = u at *
  obtain ⟨laserA, othersA, frameA⟩ := cellLight_spec u (2 * ax) i cur
  generalize cellLight u (2 * ax) i cur = a at *
  obtain ⟨laserB, othersB, frameB⟩ := cellLight_spec a (2 * ax + 1) i cur
  generalize cellLight a (2 * ax + 1) i cur = b at *
  have frameC := tryUpPort_frame b (2 * ax)
  generalize tryUpPort b (2 * ax) = c at *
  have frameD := tryUpPort_frame c (2 * ax + 1)
  rw [← run] at frameD
  have lanes (k : Nat) : getLane t k = getLane b k := by rw [frameD, frameC]; rfl
  have before (k : Nat) : getLane u k = getLane s k := by rw [start]; rfl
  refine ⟨?_, fun p hp => ?_, ?_⟩
  · rw [← cell, frameD, frameC, frameB, frameA]
    rfl
  · unfold laneAt at *
    rw [lanes]
    rcases List.mem_pair.1 hp with rfl | rfl
    · rw [othersB _ (by omega), laserA, before]
    · rw [laserB, othersA _ (by omega), before]
  · rw [frameD, frameC, frameB, frameA, start]

/-! ## The modes of a port's groups (R327) -/

/-- The mode that a write gives a group, where the group is DOWN and the mode is not the reserved one. -/
def modeWrite (p : Nat) (v : W32) (s : State) (g : Nat) : State :=
  if (getLink s (4 * p + g)).st = .down ∧ fld v (2 * g + 1) (2 * g) ≠ 3 then
    setReg s (at' pgOPT (0x160 + 4 * p)) (put32 (reg s (at' pgOPT (0x160 + 4 * p))) (2 * g + 1) (2 * g)
      (fld v (2 * g + 1) (2 * g)))
  else s

theorem grpMode_port (s : State) (p : Nat) {g : Nat} (h : g < 4) :
    grpMode s (4 * p + g) = fld (reg s (at' pgOPT (0x160 + 4 * p))) (2 * g + 1) (2 * g) := by
  rw [grpMode, show (4 * p + g) / 4 = p by omega, show (4 * p + g) % 4 = g by omega]

theorem modeWrite_spec (p : Nat) (v : W32) (s : State) {g : Nat} (hg : g < 4) :
    (∀ k < 4, grpMode (modeWrite p v s g) (4 * p + k) =
      if k = g ∧ (getLink s (4 * p + g)).st = .down ∧ fld v (2 * g + 1) (2 * g) ≠ 3 then fld v (2 * g + 1) (2 * g)
      else grpMode s (4 * p + k)) ∧
    RegsKept s (modeWrite p v s g) [at' pgOPT (0x160 + 4 * p)] ∧
    modeWrite p v s g = { s with regs := (modeWrite p v s g).regs } := by
  unfold modeWrite
  by_cases h : (getLink s (4 * p + g)).st = .down ∧ fld v (2 * g + 1) (2 * g) ≠ 3
  · rw [if_pos h]
    refine ⟨fun k hk => ?_, regsKept_setReg s _ _, rfl⟩
    rw [grpMode_port _ p hk, reg_setReg]
    by_cases e : k = g
    · subst e
      rw [if_pos ⟨rfl, h⟩]
      refine fld_put32_same _ (by omega) ((Nat.mod_lt _ (Nat.two_pow_pos _)).trans_eq ?_)
      rfl
    · rw [if_neg (fun h => e h.1), fld_put32_apart _ _ (by omega) (by omega), grpMode_port s p hk]
  · rw [if_neg h]
    exact ⟨fun k _ => (if_neg fun hk => h hk.2).symm, fun _ _ => rfl, rfl⟩

theorem modesWritten_spec (p : Nat) (v : W32) (s : State) {gs : List Nat} (hd : gs.Nodup) (hg : ∀ g ∈ gs, g < 4) :
    (∀ k < 4, grpMode (gs.foldl (modeWrite p v) s) (4 * p + k) =
      if k ∈ gs ∧ (getLink s (4 * p + k)).st = .down ∧ fld v (2 * k + 1) (2 * k) ≠ 3 then fld v (2 * k + 1) (2 * k)
      else grpMode s (4 * p + k)) ∧
    RegsKept s (gs.foldl (modeWrite p v) s) [at' pgOPT (0x160 + 4 * p)] ∧
    gs.foldl (modeWrite p v) s = { s with regs := (gs.foldl (modeWrite p v) s).regs } := by
  induction gs generalizing s with
  | nil => exact ⟨fun k _ => (if_neg fun h => List.not_mem_nil h.1).symm, fun _ _ => rfl, rfl⟩
  | cons g gs ih =>
    obtain ⟨fresh, hd⟩ := List.nodup_cons.1 hd
    obtain ⟨mode, kept, frame⟩ := modeWrite_spec p v s (hg g List.mem_cons_self)
    obtain ⟨modes, keptT, frameT⟩ := ih (modeWrite p v s g) hd fun x hx => hg x (List.mem_cons_of_mem _ hx)
    refine ⟨fun k hk => ?_, fun o ho => (keptT o ho).trans (kept o ho), ?_⟩
    · have links : getLink (modeWrite p v s g) (4 * p + k) = getLink s (4 * p + k) := by rw [frame]; rfl
      rw [List.foldl_cons, modes k hk, mode k hk, links]
      by_cases e : k = g
      · subst e
        rw [if_neg fun h => fresh h.1]
        simp only [List.mem_cons, true_or, true_and]
      · rw [if_neg fun h : k = g ∧ _ => e h.1]
        simp only [List.mem_cons, e, false_or]
    · rw [List.foldl_cons, frameT, frame]

theorem exec_optGrpModeWrite_eq {s : State} (h : Served s pgOPT) (p : Fin 6) (v : W32) :
    exec (.optGrpModeWrite p v) s = .next (tryUpPort ([0, 1, 2, 3].foldl (modeWrite p.val v) s) p.val) :=
  congrArg Host.Outcome.next (hostWrite_served h _ _)

theorem exec_optGrpModeWrite_spec {s : State} (h : Served s pgOPT) (p : Fin 6) (v : W32) :
    ∃ t, exec (.optGrpModeWrite p v) s = .next t ∧
    (∀ g, g < 4 → grpMode t (4 * p.val + g) = if (getLink s (4 * p.val + g)).st = .down ∧ fld v (2 * g + 1) (2 * g) ≠ 3
      then fld v (2 * g + 1) (2 * g) else grpMode s (4 * p.val + g)) ∧
    RegsKept s t [at' pgOPT (0x160 + 4 * p)] ∧ t = { s with regs := t.regs, links := t.links, out := t.out } := by
  obtain ⟨modes, kept, frame⟩ := modesWritten_spec p.val v s (gs := [0, 1, 2, 3]) (by decide) (by decide)
  refine ⟨_, exec_optGrpModeWrite_eq h p v, ?_⟩
  generalize [0, 1, 2, 3].foldl (modeWrite p.val v) s = u at *
  have last := tryUpPort_frame u p.val
  have regs : (tryUpPort u p.val).regs = u.regs := by rw [last]
  refine ⟨fun g hg => ?_, kept.of_regs_eq regs, ?_⟩
  · rw [grpMode_congr regs, modes g hg]
    have mem : g ∈ [0, 1, 2, 3] := by simp only [List.mem_cons, List.not_mem_nil]; omega
    simp only [mem, true_and]
  · rw [last, frame]

/-! ## Rings (R312) -/

section
variable {l : LaneId} {s : State}

theorem exec_ringSweep_found (h : (getLane s l.key).ring = .sweep) : exec (.ringSweep l true) s =
    .next (setLane s l.key { getLane s l.key with ring := .acquire, ringAt := s.clk.dst, sweeps := 0 }) :=
  congrArg Host.Outcome.next ((if_neg (not_not.2 h)).trans (if_pos rfl))

theorem exec_ringSweep_again (h : (getLane s l.key).ring = .sweep) (ht : (getLane s l.key).ringAt + 12000000 ≤ s.clk.dst)
    (hn : (getLane s l.key).sweeps < 2) : exec (.ringSweep l false) s =
    .next (setLane s l.key { getLane s l.key with sweeps := (getLane s l.key).sweeps + 1, ringAt := s.clk.dst }) :=
  congrArg Host.Outcome.next ((if_neg (not_not.2 h)).trans ((if_neg Bool.false_ne_true).trans
    ((if_neg (not_lt.2 ht)).trans (if_pos (by omega)))))

/-- The ring has found no resonance in its third sweep. -/
def sweptOut (s : State) (l : LaneId) : State :=
  setLane s l.key { getLane s l.key with ring := .off, sweeps := 0, ringAt := s.clk.dst }

theorem laneAt_key (s : State) (l : LaneId) : laneAt s l.p.val l.l.val = getLane s l.key := rfl

/-- A change of the lane's own state that keeps its role. -/
theorem Unserved.setLane (h : Unserved s l.p l.l) {x : Lane} (hr : x.role = (getLane s l.key).role) :
    Unserved (setLane s l.key x) l.p l.l :=
  h.congr rfl rfl (by rw [laneAt_key, laneAt_key, getLane_setLane, hr])

theorem exec_ringSweep_off (h : (getLane s l.key).ring = .sweep) (ht : (getLane s l.key).ringAt + 12000000 ≤ s.clk.dst)
    (hn : 2 ≤ (getLane s l.key).sweeps) (hu : Unserved s l.p l.l) (h1 : (getLane s l.key).role ≠ .slot)
    (h2 : (getLane s l.key).role ≠ .retired) :
    ∃ t, exec (.ringSweep l false) s = .next t ∧ Logged s t pgOPT 1 0x0D05 0 (d0Opt l.p l.l) 0 ∧
      getLane t l.key = { getLane s l.key with ring := .off, sweeps := 0, ringAt := s.clk.dst, role := .failed } ∧
      t = { s with regs := t.regs, ldg := t.ldg, lanes := t.lanes } := by
  have unserved : Unserved (sweptOut s l) l.p l.l := hu.setLane rfl
  obtain ⟨logged, frame⟩ := optPost_spec (sweptOut s l) sevWarning 0x0D05 l.p l.l 0
  rw [laneAcc_unserved unserved.1] at logged
  have run : exec (.ringSweep l false) s = .next (
      if (getLane (laneFail (optPost (sweptOut s l) sevWarning 0x0D05 l.p l.l 0) l.p l.l) l.key).role = .slot ∨
        (getLane (laneFail (optPost (sweptOut s l) sevWarning 0x0D05 l.p l.l 0) l.p l.l) l.key).role = .retired
      then laneFail (optPost (sweptOut s l) sevWarning 0x0D05 l.p l.l 0) l.p l.l
      else setLane (laneFail (optPost (sweptOut s l) sevWarning 0x0D05 l.p l.l 0) l.p l.l) l.key
        { getLane (laneFail (optPost (sweptOut s l) sevWarning 0x0D05 l.p l.l 0) l.p l.l) l.key with role := .failed }) :=
    congrArg Host.Outcome.next ((if_neg (not_not.2 h)).trans ((if_neg Bool.false_ne_true).trans
      ((if_neg (not_lt.2 ht)).trans (if_neg (by omega)))))
  have lanes : (optPost (sweptOut s l) sevWarning 0x0D05 l.p l.l 0).lanes = (sweptOut s l).lanes := by rw [frame]
  have still : laneFail (optPost (sweptOut s l) sevWarning 0x0D05 l.p l.l 0) l.p l.l =
      optPost (sweptOut s l) sevWarning 0x0D05 l.p l.l 0 :=
    laneFail_unserved (unserved.congr (by rw [frame]) (by rw [frame]; rfl) (by rw [laneAt, getLane, lanes]; rfl))
  rw [still] at run
  have lane : getLane (optPost (sweptOut s l) sevWarning 0x0D05 l.p l.l 0) l.key =
      { getLane s l.key with ring := .off, sweeps := 0, ringAt := s.clk.dst } := by
    rw [getLane, lanes]
    exact getLane_setLane s l.key _
  rw [lane, if_neg (not_or.2 ⟨h1, h2⟩)] at run
  generalize optPost (sweptOut s l) sevWarning 0x0D05 l.p l.l 0 = u at *
  refine ⟨_, run, (logged.before rfl rfl).congr rfl, getLane_setLane _ _ _, ?_⟩
  rw [frame]
  rfl

/-- The error at which a ring locks is within 4 pm. -/
theorem nearErr_small (n : Nat) : (nearErr n).natAbs ≤ 40 := by
  unfold nearErr
  omega

theorem onFree_calm {s : State} {p : Nat} (h : ∀ x < 18, (laneAt s p x).stage < 2) :
    onFree s p = { s with opt := { s.opt with paused := (onFree s p).opt.paused } } := by
  unfold onFree
  dsimp only
  rw [moveWaiting_calm h]
  split <;> rfl

/-- The ring has held its resonance for 100 us. -/
def ringLocks (s : State) (l : LaneId) : State :=
  fresh (setLane s l.key { getLane s l.key with
    ring := .locked, ringAt := s.clk.dst, sweeps := 0, ringErr := nearErr s.draws })

theorem exec_ringAcquireLock_spec (h : (getLane s l.key).ring = .acquire)
    (ht : (getLane s l.key).ringAt + 600000 ≤ s.clk.dst) (calm : ∀ i, (laneAt s l.p i).stage < 2) :
    ∃ t, ∃ e : Int, exec (.ringAcquireLock l) s = .next t ∧ e.natAbs ≤ 40 ∧
      getLane t l.key = { getLane s l.key with ring := .locked, ringAt := s.clk.dst, sweeps := 0, ringErr := e } ∧
      (∀ i, i ≠ l.key → getLane t i = getLane s i) ∧
      t = { s with
        lanes := t.lanes, links := t.links, out := t.out, draws := t.draws,
        opt := { s.opt with paused := t.opt.paused } } := by
  have run : exec (.ringAcquireLock l) s = .next (onFree (tryUpPort (ringLocks s l) l.p) l.p) :=
    congrArg Host.Outcome.next (if_neg (by rintro (k | k); exacts [k h, absurd ht (not_le.2 k)]))
  have lane : getLane (ringLocks s l) l.key = { getLane s l.key with
      ring := .locked, ringAt := s.clk.dst, sweeps := 0, ringErr := nearErr s.draws } := getLane_setLane s l.key _
  have others (i : Nat) (hi : i ≠ l.key) : getLane (ringLocks s l) i = getLane s i := getLane_setLane_ne s _ hi
  have start : ringLocks s l = { s with lanes := (ringLocks s l).lanes, draws := (ringLocks s l).draws } := rfl
  refine ⟨_, nearErr s.draws, run, nearErr_small _, ?_⟩
  generalize ringLocks s l = u at *
  have tried := tryUpPort_frame u l.p
  generalize tryUpPort u l.p = v at *
  have lanes (i : Nat) : getLane v i = getLane u i := by rw [tried]; rfl
  have calm' : ∀ x < 18, (laneAt v l.p x).stage < 2 := fun x _ => by
    rw [laneAt, lanes]
    by_cases e : 18 * l.p.val + x = l.key
    · rw [e, lane]
      have := calm l.l
      rwa [laneAt_key] at this
    · rw [others _ e]
      exact calm x
  have freed := onFree_calm calm'
  generalize onFree v l.p = t at *
  have still (i : Nat) : getLane t i = getLane u i := by rw [freed, ← lanes]; rfl
  refine ⟨by rw [still, lane], fun i hi => by rw [still, others i hi], ?_⟩
  rw [freed, tried, start]

theorem exec_ringAcquireTimeout_spec (h : (getLane s l.key).ring = .acquire)
    (ht : (getLane s l.key).ringAt + 6000000 ≤ s.clk.dst) : exec (.ringAcquireTimeout l) s =
    .next (setLane s l.key { getLane s l.key with ring := .sweep, ringAt := s.clk.dst, sweeps := 0 }) :=
  congrArg Host.Outcome.next (if_pos ⟨h, ht⟩)

/-- The ring has lost its resonance and sweeps again. -/
def ringLost (s : State) (l : LaneId) (e : Int) : State :=
  bump (setLane s l.key { getLane s l.key with ring := .sweep, ringAt := s.clk.dst, sweeps := 0, ringErr := e })
    (at' pgOPT 0x19C) 1

theorem exec_ringLockLoss_spec {e : Int} (h : (getLane s l.key).ring = .locked) (he : 250 < e.natAbs)
    (hu : Unserved s l.p l.l) :
    ∃ t, exec (.ringLockLoss l e) s = .next t ∧
      getLane t l.key = { getLane s l.key with ring := .sweep, ringAt := s.clk.dst, sweeps := 0, ringErr := e } ∧
      reg t (at' pgOPT 0x19C) = satAdd (reg s (at' pgOPT 0x19C)) 1 ∧ RegsKept s t [at' pgOPT 0x19C] ∧
      t = { s with lanes := t.lanes, regs := t.regs } := by
  have run : exec (.ringLockLoss l e) s = .next (laneFail (ringLost s l e) l.p l.l) :=
    congrArg Host.Outcome.next (if_neg (by rintro (k | k); exacts [k h, absurd he (not_lt.2 k)]))
  have unserved : Unserved (ringLost s l e) l.p l.l := (hu.setLane (x := { getLane s l.key with
    ring := .sweep, ringAt := s.clk.dst, sweeps := 0, ringErr := e }) rfl).congr rfl rfl rfl
  rw [laneFail_unserved unserved] at run
  exact ⟨_, run, getLane_setLane s l.key _, reg_bump _ _ _, regsKept_bump _ _ _, rfl⟩

/-! ## Light (R323 to R325) -/

theorem exec_lightPresent_eq {w : Int} (h : -2500 ≤ w) : exec (.lightPresent l w) s =
    .next (setLane s l.key { getLane s l.key with
      rx := w, lp := true, lpSince := if (getLane s l.key).lp then (getLane s l.key).lpSince else s.clk.dst
      laser := if (getLane s l.key).laser = .blocked then .off else (getLane s l.key).laser }) :=
  congrArg Host.Outcome.next (if_neg (not_lt.2 h))

/-- What the clearing of the light does to the laser. -/
def darkenedLaser (s : State) (l : LaneId) : LaserSt :=
  if (cellAt s l.p l.l).cur = 2 ∨ (cellAt s l.p l.l).cur = 4 - l.p % 2 then
    (if chanOk s l.p 0 then .blocked else (getLane s l.key).laser)
  else if (getLane s l.key).laser = .full ∧ (chanOk s l.p 0 || chanOk s l.p 1) = true then .safe
  else (getLane s l.key).laser

/-- The lane whose light has cleared. -/
def darkened (s : State) (l : LaneId) (w : Int) : State :=
  setLane s l.key { getLane s l.key with rx := w, lp := false, clearAt := some s.clk.dst, laser := darkenedLaser s l }

theorem forwards_iff (p cur : Nat) : forwards p cur = true ↔ cur = 2 ∨ cur = 4 - p % 2 := by
  simp only [forwards, Bool.or_eq_true, Bool.and_eq_true, decide_eq_true_eq]
  omega

theorem exec_optOfc_eq {w : Int} (h : (getLane s l.key).lp = true) (hw : w ≤ -3000) : exec (.optOfc l w) s =
    .next (raiseInt (optPost (bump (darkened s l w) (at' pgOPT 0x198) 1) sevWarning 0x0D06 l.p l.l 0) pgOPT 0) := by
  have laser : darkenedLaser s l = if forwards l.p (cellAt s l.p l.l).cur then
        (if chanOk s l.p 0 then .blocked else (getLane s l.key).laser)
      else if chanOk s l.p 0 || chanOk s l.p 1 then (getLane s l.key).laser.down else (getLane s l.key).laser := by
    have down : (if (getLane s l.key).laser = .full ∧ (chanOk s l.p 0 || chanOk s l.p 1) = true then LaserSt.safe
        else (getLane s l.key).laser) =
        if chanOk s l.p 0 || chanOk s l.p 1 then (getLane s l.key).laser.down else (getLane s l.key).laser := by
      cases chanOk s l.p 0 || chanOk s l.p 1 with
      | true => exact (if_congr (and_iff_left rfl) rfl rfl).trans rfl
      | false => exact if_neg fun k => Bool.false_ne_true k.2
    rw [darkenedLaser, down, if_congr (forwards_iff _ _) rfl rfl]
  refine congrArg Host.Outcome.next ((if_neg ?_).trans ?_)
  · rw [h]
    rintro (k | k)
    · exact Bool.false_ne_true k
    · omega
  · unfold darkened
    rw [laser]
    rfl

theorem exec_optOfc_spec {w : Int} (h : (getLane s l.key).lp = true) (hw : w ≤ -3000) :
    ∃ t, exec (.optOfc l w) s = .next t ∧ getLane t l.key = { getLane s l.key with
        rx := w, lp := false, clearAt := some s.clk.dst, laser := darkenedLaser s l } ∧
      reg t (at' pgOPT 0x198) = satAdd (reg s (at' pgOPT 0x198)) 1 ∧ bit (reg t (at' pgOPT 0x10)) 0 = true ∧
      Logged s t pgOPT 1 0x0D06 (laneAcc s l.p l.l) (d0Opt l.p l.l) 0 ∧
      t = { s with lanes := t.lanes, regs := t.regs, ldg := t.ldg, out := t.out } := by
  refine ⟨_, exec_optOfc_eq h hw, ?_⟩
  have acc : laneAcc (bump (darkened s l w) (at' pgOPT 0x198) 1) l.p l.l = laneAcc s l.p l.l :=
    laneAcc_congr rfl (laneRole_congr rfl
      (congrArg Lane.role (getLane_setLane s l.key _) : (getLane (darkened s l w) l.key).role = _))
  have lane : getLane (bump (darkened s l w) (at' pgOPT 0x198) 1) l.key = { getLane s l.key with
      rx := w, lp := false, clearAt := some s.clk.dst, laser := darkenedLaser s l } := getLane_setLane s l.key _
  have count : reg (bump (darkened s l w) (at' pgOPT 0x198) 1) (at' pgOPT 0x198) =
      satAdd (reg s (at' pgOPT 0x198)) 1 := reg_bump _ _ _
  have start : bump (darkened s l w) (at' pgOPT 0x198) 1 = { s with
      lanes := (bump (darkened s l w) (at' pgOPT 0x198) 1).lanes
      regs := (bump (darkened s l w) (at' pgOPT 0x198) 1).regs } := rfl
  generalize bump (darkened s l w) (at' pgOPT 0x198) 1 = u at *
  obtain ⟨logged, frame⟩ := optPost_spec u sevWarning 0x0D06 l.p l.l 0
  have kept : RegsKept u (optPost u sevWarning 0x0D06 l.p l.l 0) [at' pgLDG 0x10C] := post_regs _ _ _ _ _ _ _
  rw [acc] at logged
  generalize optPost u sevWarning 0x0D06 l.p l.l 0 = v at *
  obtain ⟨bits, keptV⟩ := raiseInt_spec v pgOPT 0
  obtain ⟨regs, out, raised⟩ := raiseInt_touches v pgOPT 0
  generalize raiseInt v pgOPT 0 = t at *
  refine ⟨?_, ?_, ?_, ?_, ?_⟩
  · rw [← lane, raised, frame]
    rfl
  · rw [keptV _ (by decide), kept _ (by decide), count]
  · rw [bits 0 (by decide)]
    exact Bool.or_true _
  · exact (logged.before (by rw [start]) (by rw [start])).congr (by rw [raised])
  · rw [raised, frame, start]

theorem exec_laserRise_spec (h : riseOk s l.p l.l = true) : ∃ t, exec (.laserRise l) s = .next t ∧
    getLane t l.key = { getLane s l.key with laser := .full } ∧ (∀ i, i ≠ l.key → getLane t i = getLane s i) ∧
    t = { s with lanes := t.lanes, links := t.links, out := t.out } := by
  have safe : (getLane s l.key).laser = .safe := by
    simp only [riseOk, Bool.and_eq_true, beq_iff_eq] at h
    exact h.1.1.1.1.1.1.1
  have lit : (getLane s l.key).light .full s.clk.dst = { getLane s l.key with laser := .full } := by
    unfold Lane.light
    rw [if_neg (by decide), if_neg (by rw [safe]; decide)]
  have run : exec (.laserRise l) s = .next (tryUpPort (setLane s l.key { getLane s l.key with laser := .full }) l.p) := by
    rw [← lit]
    exact congrArg Host.Outcome.next (if_pos h)
  refine ⟨_, run, (getLane_tryUpPort _ _ _).trans (getLane_setLane s l.key _),
    fun i hi => (getLane_tryUpPort _ _ _).trans (getLane_setLane_ne s _ hi), ?_⟩
  have start : setLane s l.key { getLane s l.key with laser := .full } = { s with
      lanes := (setLane s l.key { getLane s l.key with laser := .full }).lanes } := rfl
  generalize setLane s l.key { getLane s l.key with laser := .full } = u at *
  rw [tryUpPort_frame, start]

end

/-! ## Interferometers (R311) -/

section
variable {x : CellId} {s : State}

/-- The cell is beyond its threshold. -/
def cellLost (s : State) (x : CellId) (e : Nat) : State :=
  setCell s x.key { getCell s x.key with locked := false, err := e }

theorem exec_mziLockLoss_eq {e : Nat} (h : (getCell s x.key).locked = true) (he : 200 < e) : exec (.mziLockLoss x e) s =
    .next (laneFail (laneFail (cellLost s x e) (2 * x.axis.val) x.i) (2 * x.axis.val + 1) x.i) :=
  congrArg Host.Outcome.next (if_neg (by rw [h]; rintro (k | k); exacts [Bool.false_ne_true k, absurd he (not_lt.2 k)]))

theorem exec_interferometerOnTarget_spec {e : Nat} (h : e ≤ 20) : ∃ t, exec (.interferometerOnTarget x e) s = .next t ∧
    getCell t x.key = { getCell s x.key with locked := true, err := e } ∧
    t = { s with cells := t.cells, links := t.links, out := t.out } := by
  let u := setCell s x.key { getCell s x.key with locked := true, err := e }
  have run : exec (.interferometerOnTarget x e) s =
      .next (tryUpPort (tryUpPort u (2 * x.axis.val)) (2 * x.axis.val + 1)) := congrArg Host.Outcome.next (if_neg (not_lt.2 h))
  refine ⟨_, run, ((getCell_tryUpPort _ _ _).trans (getCell_tryUpPort _ _ _)).trans (getCell_setCell s x.key _), ?_⟩
  have start : u = { s with cells := u.cells } := rfl
  clear_value u
  rw [tryUpPort_frame (tryUpPort u _), tryUpPort_frame u, start]

end

/-- Settles O49: each command by its rule; a lane that serves no group fails without effect, and the frame of groups that
may come up on a port. -/
theorem cellsRingsLasers : Obligations.CellsRingsLasers := by
  unfold Obligations.CellsRingsLasers
  refine ⟨fun v s hs => ?_, fun x s busy => ?_, fun p v s hs => exec_optGrpModeWrite_spec hs p v, fun l s => ?_,
    fun x e s => ?_, fun s hot cool since => congrArg Host.Outcome.next (if_pos ⟨hot, cool, since⟩)⟩
  · intro ax i st tf tap c hax hi
    have hw : CellWrite s v ax i st tf := ⟨rfl, rfl, rfl, rfl, hax, hi⟩
    refine ⟨fun bad => ⟨_, exec_optLcWrite_illegal hw hs bad, ?_, post_logged _ _ _ _ _ _ _⟩,
      fun h h1 h2 same => exec_optLcWrite_same hw hs h h1 h2 same, fun h h1 h2 new => ⟨exec_optLcWrite_new hw hs h h1 h2 new,
      fun a b => ?_⟩⟩
    · obtain ⟨_, _, posted⟩ := post_touches s pgOPT sevWarning 0x0D09 0 (d0Opt (2 * ax) i) 0
      rw [posted]
    · exact (exec_optLcWrite_new hw hs h h1 h2 new).trans
        (congrArg Host.Outcome.next (laneFail_twice (a.setCell rfl) (b.setCell rfl)))
  · obtain ⟨cell, lasers, frame⟩ := settleCell_spec s (ax := x.axis.val) x.i.isLt
    exact ⟨_, congrArg Host.Outcome.next (if_pos busy), cell, lasers, frame⟩
  · exact ⟨exec_ringSweep_found, exec_ringSweep_again, exec_ringSweep_off, exec_ringAcquireLock_spec,
      exec_ringAcquireTimeout_spec, fun _ => exec_ringLockLoss_spec, fun _ => exec_lightPresent_eq,
      fun _ => exec_optOfc_spec, exec_laserRise_spec,
      fun h => congrArg Host.Outcome.next (if_neg (by rw [h]; exact Bool.false_ne_true))⟩
  · exact ⟨fun h he => ⟨exec_mziLockLoss_eq h he, fun a b => (exec_mziLockLoss_eq h he).trans
      (congrArg Host.Outcome.next (laneFail_twice (a.setCell rfl) (b.setCell rfl)))⟩, exec_interferometerOnTarget_spec⟩

end Sys2Proof
end

section
/-! PROOFS. Fades of a lane (R310, R317): the first part of the obligation O50. -/

namespace Sys2Proof

open Sys2Proof.Machine

/-! ## A lane written twice -/

theorem filter_tins {α : Type} (i : Nat) (v : α) (t : Tab α) :
    (tins i v t).filter (fun e => decide (e.1 ≠ i)) = t.filter (fun e => decide (e.1 ≠ i)) := by
  induction t with
  | nil => simp [tins]
  | cons e r ih =>
    rw [tins]
    split
    · rw [List.filter_cons_of_neg (by simp)]
    · rw [List.filter_cons, List.filter_cons, ih]

theorem tput_tput {α : Type} [DecidableEq α] (d : α) (t : Tab α) (i : Nat) (v w : α) :
    tput d (tput d t i v) i w = tput d t i w := by
  have once : (tput d t i v).filter (fun e => decide (e.1 ≠ i)) = t.filter (fun e => decide (e.1 ≠ i)) := by
    unfold tput
    split
    · rw [List.filter_filter]
      simp
    · rw [filter_tins, List.filter_filter]
      simp
  rw [tput, once]
  rfl

theorem setLane_setLane (s : State) (l : Nat) (x y : Lane) : setLane (setLane s l x) l y = setLane s l y := by
  unfold setLane
  rw [tput_tput]

/-! ## What decides the moves of a port's slots -/

/-- Roles, cells, groups, migrations, fixed lane numbers and modes of a port stand as they stood. -/
structure SameUse (s t : State) (p : Nat) : Prop where
  role  : ∀ k, (getLane t k).role = (getLane s k).role
  cells : t.cells = s.cells
  links : t.links = s.links
  opt   : t.opt = s.opt
  pins  : ∀ l, pinned t p l = pinned s p l
  modes : ∀ k < 4, grpMode t (4 * p + k) = grpMode s (4 * p + k)

namespace SameUse

section
variable {s t u : State} {p : Nat} (h : SameUse s t p)

theorem trans (k : SameUse t u p) (h : SameUse s t p) : SameUse s u p where
  role i := (k.role i).trans (h.role i)
  cells := k.cells.trans h.cells
  links := k.links.trans h.links
  opt := k.opt.trans h.opt
  pins l := (k.pins l).trans (h.pins l)
  modes i hi := (k.modes i hi).trans (h.modes i hi)

include h

theorem laneRole (q l : Nat) : Machine.laneRole t q l = Machine.laneRole s q l :=
  laneRole_congr (by simp only [cellAt, getCell, h.cells]) (h.role _)

theorem migNew (q l : Nat) : Machine.migNew t q l = Machine.migNew s q l := by
  rw [Machine.migNew, h.opt]
  rfl

theorem laneFree (l : Nat) : Machine.laneFree t p l = Machine.laneFree s p l := by
  rw [Machine.laneFree, h.laneRole, h.pins, h.migNew]
  rfl

theorem freeLane : Machine.freeLane t p = Machine.freeLane s p := by
  rw [Machine.freeLane, Machine.freeLane, funext h.laneFree]

theorem someFree : Machine.someFree t p = Machine.someFree s p := by
  rw [Machine.someFree, Machine.someFree, funext h.laneFree]

theorem migrating (g k : Nat) : Machine.migrating t g k = Machine.migrating s g k := by
  rw [Machine.migrating, h.opt]
  rfl

theorem slotOf (l : Nat) : Machine.slotOf t p l = Machine.slotOf s p l := slotOf_congr h.links p l

theorem laneAcc (l : Nat) : Machine.laneAcc t p l = Machine.laneAcc s p l := laneAcc_congr h.links (h.laneRole p l)

theorem movable (l : Nat) : Machine.movable t p l = Machine.movable s p l := by
  unfold Machine.movable
  rw [h.slotOf]
  cases found : Machine.slotOf s p l with
  | none => rfl
  | some e =>
    obtain ⟨g, k⟩ := e
    obtain ⟨j, hj, rfl⟩ : ∃ j < 4, g = 4 * p + j := ⟨g - 4 * p, by
      have := slotOf_port found
      omega, by
      have := slotOf_port found
      omega⟩
    refine if_congr ?_ rfl rfl
    simp only [h.laneRole, h.pins, h.migrating, h.modes j hj, getLink, h.links]

end

theorem setLane (s : State) (k p : Nat) {x : Lane} (hr : x.role = (getLane s k).role) : SameUse s (setLane s k x) p where
  role i := by
    by_cases e : i = k
    · rw [e, getLane_setLane, hr]
    · rw [getLane_setLane_ne _ _ e]
  cells := rfl
  links := rfl
  opt := rfl
  pins _ := rfl
  modes _ _ := rfl

theorem optPost (s : State) (code : Nat) {p : Nat} (l : Nat) (d1 : W32) (hp : p < 6) :
    SameUse s (optPost s sevWarning code p l d1) p := by
  have kept : RegsKept s (Machine.optPost s sevWarning code p l d1) [at' pgLDG 0x10C] := post_regs _ _ _ _ _ _ _
  have frame := (optPost_spec s sevWarning code p l d1).2
  have lanes : (Machine.optPost s sevWarning code p l d1).lanes = s.lanes := by rw [frame]
  refine ⟨fun k => by rw [getLane, lanes]; rfl, by rw [frame], by rw [frame], by rw [frame], fun i => ?_, fun k hk => ?_⟩
  · rw [pinned, kept _ (by simp [at', pgLDG, pgOPT]; omega)]
    rfl
  · rw [grpMode, kept _ (by simp [at', pgLDG, pgOPT]; omega)]
    rfl

end SameUse

/-! ## The steps of a fade -/

/-- The warning at -1.5 dB. -/
def fadeWarn (s : State) (p i : Nat) (f : Int) (n : Nat) : State :=
  if f ≤ -150 ∧ n < 1 then fadeAt (optPost s sevWarning 0x0D01 p i (iWord f)) p i 1 else s

/-- What -2.5 dB does by the lane's role. -/
def fadeLeaves (s : State) (p i : Nat) : State :=
  match laneRole s p i with
  | .free => if (migNew s p i).isSome then s else setLaneAt s p i { laneAt s p i with role := .reserve }
  | .slot => Machine.moveSlot s p i
  | _ => s

/-- The step at -2.5 dB. -/
def fadeMove (s : State) (p i : Nat) (f : Int) (n : Nat) : State :=
  if f ≤ -250 ∧ n < 2 then fadeLeaves (fadeAt s p i 2) p i else s

/-- A lane in use: it carries a slot, or one moves to it. -/
def inUse (s : State) (p i : Nat) : Bool := decide (laneRole s p i = .slot) || (migNew s p i).isSome

/-- What -3.0 dB does: retire, defer or move. -/
def fadeOut (s : State) (p i : Nat) (f : Int) : State :=
  if pinned s p i ∨ (inUse s p i ∧ ¬ (tget [] s.opt.migs p).any (fun m => decide (m.old.val = i)) ∧ ¬ someFree s p) then
    Machine.moveSlot (setLaneAt (optPost s sevWarning 0x0D04 p i (iWord f)) p i
      { laneAt (optPost s sevWarning 0x0D04 p i (iWord f)) p i with deferred := true }) p i
  else if inUse s p i then Machine.moveSlot s p i
  else retire s p i

/-- The step at -3.0 dB. -/
def fadeEnd (s : State) (p i : Nat) (f : Int) (n : Nat) : State :=
  if f ≤ -300 ∧ n < 3 then fadeOut (fadeAt s p i 3) p i f else s

section
variable {l : LaneId} {f : Int} {s : State}

/-- The lane with its fade measured, at stage `n`. -/
def fadedAt (s : State) (l : LaneId) (f : Int) (n : Nat) : State := setLane s l.key { getLane s l.key with fade := f, stage := n }

/-- The lane once its fade is measured. -/
def measured (s : State) (l : LaneId) (f : Int) : State := setLane s l.key { getLane s l.key with fade := f }

/-- A lit laser's fade is taken, and then each threshold in turn. -/
theorem exec_fadeMeasure_eq (lit : (getLane s l.key).laser = .safe ∨ (getLane s l.key).laser = .full)
    (hr : (getLane s l.key).role ≠ .retired) : exec (.fadeMeasure l f) s = .next
    (fadeEnd (fadeMove (fadeWarn (measured s l f) l.p l.l f (getLane s l.key).stage)
      l.p l.l f (getLane s l.key).stage) l.p l.l f (getLane s l.key).stage) := by
  refine congrArg Host.Outcome.next ((if_neg ?_).trans rfl)
  have notOff : (getLane s l.key).laser ≠ .off := by rcases lit with h | h <;> rw [h] <;> decide
  have notBlocked : (getLane s l.key).laser ≠ .blocked := by rcases lit with h | h <;> rw [h] <;> decide
  exact not_or.2 ⟨notOff, not_or.2 ⟨notBlocked, hr⟩⟩

theorem measured_use (s : State) (l : LaneId) (f : Int) (p : Nat) : SameUse s (measured s l f) p := .setLane s l.key p rfl

theorem fadedAt_use (s : State) (l : LaneId) (f : Int) (n p : Nat) : SameUse s (fadedAt s l f n) p := .setLane s l.key p rfl

theorem getLane_fadedAt (s : State) (l : LaneId) (f : Int) (n : Nat) :
    getLane (fadedAt s l f n) l.key = { getLane s l.key with fade := f, stage := n } := getLane_setLane s l.key _

theorem fadeAt_measured (s : State) (l : LaneId) (f : Int) (n : Nat) :
    fadeAt (measured s l f) l.p l.l n = fadedAt s l f n := by
  have lane : laneAt (measured s l f) l.p l.l = { getLane s l.key with fade := f } := getLane_setLane s l.key _
  rw [fadeAt, lane]
  exact setLane_setLane s l.key _ _

/-- Above -1.5 dB only the fade is taken. -/
theorem fade_above (hf : -150 < f) (n : Nat) (u : State) :
    fadeEnd (fadeMove (fadeWarn u l.p l.l f n) l.p l.l f n) l.p l.l f n = u := by
  rw [fadeWarn, if_neg (by omega), fadeMove, if_neg (by omega), fadeEnd, if_neg (by omega)]

/-- Between -1.5 dB and -2.5 dB the lane's first warning is all. -/
theorem fade_warns (h1 : f ≤ -150) (h2 : -250 < f) (u : State) :
    fadeEnd (fadeMove (fadeWarn u l.p l.l f 0) l.p l.l f 0) l.p l.l f 0 =
      fadeAt (optPost u sevWarning 0x0D01 l.p l.l (iWord f)) l.p l.l 1 := by
  rw [fadeWarn, if_pos ⟨h1, by omega⟩, fadeMove, if_neg (by omega), fadeEnd, if_neg (by omega)]

/-- Between -2.5 dB and -3.0 dB a lane that was warned leaves its use. -/
theorem fade_leaves (h1 : f ≤ -250) (h2 : -300 < f) :
    fadeEnd (fadeMove (fadeWarn (measured s l f) l.p l.l f 1) l.p l.l f 1) l.p l.l f 1 =
      fadeLeaves (fadedAt s l f 2) l.p l.l := by
  rw [fadeWarn, if_neg (by omega), fadeMove, if_pos ⟨h1, by omega⟩, fadeAt_measured, fadeEnd, if_neg (by omega)]

/-- At -3.0 dB a lane that has left its use goes. -/
theorem fade_ends (h1 : f ≤ -300) :
    fadeEnd (fadeMove (fadeWarn (measured s l f) l.p l.l f 2) l.p l.l f 2) l.p l.l f 2 =
      fadeOut (fadedAt s l f 3) l.p l.l f := by
  rw [fadeWarn, if_neg (by omega), fadeMove, if_neg (by omega), fadeEnd, if_pos ⟨h1, by omega⟩, fadeAt_measured]

theorem movable_pinned {s : State} {p i : Nat} (h : pinned s p i = true) : movable s p i = none := by
  unfold movable
  split
  · rfl
  · exact if_pos (.inr (.inl h))

theorem freeLane_none {s : State} {p : Nat} (h : someFree s p = false) : freeLane s p = none :=
  List.find?_eq_none.2 fun l hl free => Bool.false_ne_true (h.symm.trans (List.any_eq_true.2 ⟨l, hl, free⟩))

/-- What is left of a lane that retires. -/
def retiredLane (x : Lane) (now : Nat) : Lane := { x.light .off now with role := .retired, deferred := false }

/-- The soft map holds the lane. -/
def retiredIn (s : State) (l : LaneId) : State :=
  { s with bup := { s.bup with lanesBad := if s.bup.lanesBad.contains l then s.bup.lanesBad else s.bup.lanesBad ++ [l] } }

theorem laneId_ofNat (l : LaneId) : (⟨Fin.ofNat 6 l.p.val, Fin.ofNat 18 l.l.val⟩ : LaneId) = l := by
  obtain ⟨⟨p, hp⟩, ⟨i, hi⟩⟩ := l
  simp only [Fin.ofNat, Nat.mod_eq_of_lt hp, Nat.mod_eq_of_lt hi]

theorem retiredIn_mem (s : State) (l : LaneId) : l ∈ (retiredIn s l).bup.lanesBad := by
  unfold retiredIn
  dsimp only
  split
  case isTrue h => exact List.contains_iff_mem.1 h
  · exact List.mem_append_right _ (List.mem_singleton.2 rfl)

/-- A lane retires: off for good, counted, logged and in the soft map. -/
theorem retire_spec (s : State) (l : LaneId) :
    (getLane (retire s l.p l.l) l.key).role = .retired ∧ (getLane (retire s l.p l.l) l.key).laser = .off ∧
    (getLane (retire s l.p l.l) l.key).stage = (getLane s l.key).stage ∧ l ∈ (retire s l.p l.l).bup.lanesBad ∧
    reg (retire s l.p l.l) (at' pgOPT 0x194) = satAdd (reg s (at' pgOPT 0x194)) 1 ∧
    Logged s (retire s l.p l.l) pgOPT 1 0x0D03 (laneAcc s l.p l.l) (d0Opt l.p l.l) (BitVec.ofInt 32 (getLane s l.key).fade) ∧
    retire s l.p l.l = { s with
      lanes := (retire s l.p l.l).lanes, regs := (retire s l.p l.l).regs, ldg := (retire s l.p l.l).ldg
      bup := { s.bup with lanesBad := (retire s l.p l.l).bup.lanesBad } } := by
  have count : reg (bump (optPost s sevWarning 0x0D03 l.p l.l (iWord (laneAt s l.p l.l).fade)) (at' pgOPT 0x194) 1)
      (at' pgOPT 0x194) = satAdd (reg s (at' pgOPT 0x194)) 1 := by
    rw [reg_bump, optPost, post_regs _ pgOPT sevWarning _ _ _ _ (at' pgOPT 0x194) (by decide)]
    rfl
  obtain ⟨logged, frame⟩ := optPost_spec s sevWarning 0x0D03 l.p l.l (iWord (laneAt s l.p l.l).fade)
  have eq : retire s l.p l.l = retiredIn (setLane (bump (optPost s sevWarning 0x0D03 l.p l.l (iWord (laneAt s l.p l.l).fade))
      (at' pgOPT 0x194) 1) l.key (retiredLane (getLane s l.key)
        (optPost s sevWarning 0x0D03 l.p l.l (iWord (laneAt s l.p l.l).fade)).clk.dst)) ⟨Fin.ofNat 6 l.p.val, Fin.ofNat 18 l.l.val⟩ := rfl
  rw [eq, laneId_ofNat]
  generalize optPost s sevWarning 0x0D03 l.p l.l (iWord (laneAt s l.p l.l).fade) = v at *
  have lane : getLane (retiredIn (setLane (bump v (at' pgOPT 0x194) 1) l.key (retiredLane (getLane s l.key) v.clk.dst)) l)
      l.key = retiredLane (getLane s l.key) v.clk.dst :=
    getLane_setLane (bump v (at' pgOPT 0x194) 1) l.key (retiredLane (getLane s l.key) v.clk.dst)
  rw [lane]
  refine ⟨rfl, rfl, rfl, retiredIn_mem _ l, count, logged.congr rfl, ?_⟩
  rw [frame]
  rfl

/-- An entry about the lane, and then the lane's own change. -/
theorem logged_setLane {s u : State} {p : Nat} (hu : u = { s with lanes := u.lanes }) (use : SameUse s u p) (code i k : Nat)
    (d1 : W32) (y : Lane) :
    Logged s (setLane (optPost u sevWarning code p i d1) k y) pgOPT 1 code (laneAcc s p i) (d0Opt p i) d1 ∧
    setLane (optPost u sevWarning code p i d1) k y = { s with
      lanes := (setLane (optPost u sevWarning code p i d1) k y).lanes
      regs := (setLane (optPost u sevWarning code p i d1) k y).regs
      ldg := (setLane (optPost u sevWarning code p i d1) k y).ldg } := by
  obtain ⟨logged, frame⟩ := optPost_spec u sevWarning code p i d1
  rw [use.laneAcc] at logged
  generalize optPost u sevWarning code p i d1 = v at *
  refine ⟨(logged.before (by rw [hu]) (by rw [hu])).congr rfl, ?_⟩
  rw [frame, hu]
  rfl

theorem movable_port {s : State} {p i g k : Nat} (found : movable s p i = some (g, k)) : g / 4 = p := by
  unfold movable at found
  split at found
  · cases found
  case h_2 g' k' slot =>
    split at found
    · cases found
    · cases found
      exact slotOf_port slot

theorem moveOff_stays {s : State} {g k i : Nat} {cal : Bool} (h : freeLane s (g / 4) = none) (off : s.opt.calOn = none) :
    moveOff s g k i cal = s := by
  unfold moveOff
  dsimp only
  rw [h, off]

/-- A slot without another lane to go to stays: it may not move, or there is no free lane and no calibration to give one. -/
theorem moveSlot_stays {s : State} {p i : Nat} (h : movable s p i = none ∨ (freeLane s p = none ∧ s.opt.calOn = none)) :
    Machine.moveSlot s p i = s := by
  unfold Machine.moveSlot
  cases found : movable s p i with
  | none => rfl
  | some e =>
    obtain ⟨g, k⟩ := e
    obtain ⟨none, off⟩ := h.resolve_left (by rw [found]; exact Option.some_ne_none _)
    exact moveOff_stays (movable_port found ▸ none) off

section
variable (lit : (getLane s l.key).laser = .safe ∨ (getLane s l.key).laser = .full) (hr : (getLane s l.key).role ≠ .retired)
include lit hr

theorem exec_fadeMeasure_above (hf : -150 < f) : exec (.fadeMeasure l f) s = .next (measured s l f) :=
  (exec_fadeMeasure_eq lit hr).trans (congrArg Host.Outcome.next (fade_above hf _ _))

theorem exec_fadeMeasure_warns (h1 : f ≤ -150) (h2 : -250 < f) (h0 : (getLane s l.key).stage = 0) :
    ∃ t, exec (.fadeMeasure l f) s = .next t ∧ getLane t l.key = { getLane s l.key with fade := f, stage := 1 } ∧
      Logged s t pgOPT 1 0x0D01 (laneAcc s l.p l.l) (d0Opt l.p l.l) (BitVec.ofInt 32 f) ∧
      t = { s with lanes := t.lanes, regs := t.regs, ldg := t.ldg } := by
  have run : exec (.fadeMeasure l f) s =
      .next (fadeAt (optPost (measured s l f) sevWarning 0x0D01 l.p l.l (iWord f)) l.p l.l 1) := by
    rw [exec_fadeMeasure_eq lit hr, h0]
    exact congrArg Host.Outcome.next (fade_warns h1 h2 _)
  have lane : laneAt (optPost (measured s l f) sevWarning 0x0D01 l.p l.l (iWord f)) l.p l.l =
      { getLane s l.key with fade := f } := by
    rw [laneAt_key, getLane, (optPost_spec _ _ _ _ _ _).2]
    exact getLane_setLane s l.key _
  rw [fadeAt, lane] at run
  obtain ⟨logged, frame⟩ := logged_setLane (u := measured s l f) rfl (measured_use s l f _) 0x0D01 l.l l.key (iWord f)
    { getLane s l.key with fade := f, stage := 1 }
  exact ⟨_, run, getLane_setLane _ l.key _, logged, frame⟩

theorem exec_fadeMeasure_leaves (h1 : f ≤ -250) (h2 : -300 < f) (h0 : (getLane s l.key).stage = 1) :
    exec (.fadeMeasure l f) s = .next (fadeLeaves (fadedAt s l f 2) l.p l.l) := by
  rw [exec_fadeMeasure_eq lit hr, h0]
  exact congrArg Host.Outcome.next (fade_leaves h1 h2)

theorem exec_fadeMeasure_reserves (h1 : f ≤ -250) (h2 : -300 < f) (h0 : (getLane s l.key).stage = 1)
    (free : laneRole s l.p l.l = .free) (unmoved : migNew s l.p l.l = none) : exec (.fadeMeasure l f) s =
    .next (setLane s l.key { getLane s l.key with fade := f, stage := 2, role := .reserve }) := by
  have lane : laneAt (fadedAt s l f 2) l.p l.l = { getLane s l.key with fade := f, stage := 2 } := getLane_fadedAt s l f 2
  rw [exec_fadeMeasure_leaves lit hr h1 h2 h0, fadeLeaves, (fadedAt_use s l f 2 0).laneRole, free,
    (fadedAt_use s l f 2 0).migNew, unmoved, lane]
  exact congrArg Host.Outcome.next (setLane_setLane s l.key _ _)

theorem exec_fadeMeasure_slot (h1 : f ≤ -250) (h2 : -300 < f) (h0 : (getLane s l.key).stage = 1)
    (slot : laneRole s l.p l.l = .slot) :
    exec (.fadeMeasure l f) s = .next (Machine.moveSlot (fadedAt s l f 2) l.p l.l) := by
  rw [exec_fadeMeasure_leaves lit hr h1 h2 h0, fadeLeaves, (fadedAt_use s l f 2 0).laneRole, slot]

theorem exec_fadeMeasure_waits (h1 : f ≤ -250) (h2 : -300 < f) (h0 : (getLane s l.key).stage = 1)
    (slot : laneRole s l.p l.l = .slot) (stays : movable s l.p l.l = none) :
    exec (.fadeMeasure l f) s = .next (setLane s l.key { getLane s l.key with fade := f, stage := 2 }) := by
  rw [exec_fadeMeasure_slot lit hr h1 h2 h0 slot, moveSlot_stays (.inl ?_)]
  · rfl
  · rw [(fadedAt_use s l f 2 _).movable, stays]

theorem exec_fadeMeasure_ends (h1 : f ≤ -300) (h0 : (getLane s l.key).stage = 2) :
    exec (.fadeMeasure l f) s = .next (fadeOut (fadedAt s l f 3) l.p l.l f) := by
  rw [exec_fadeMeasure_eq lit hr, h0]
  exact congrArg Host.Outcome.next (fade_ends h1)

theorem exec_fadeMeasure_defers (h1 : f ≤ -300) (h0 : (getLane s l.key).stage = 2)
    (held : pinned s l.p l.l = true ∨ (laneRole s l.p l.l = .slot ∧ someFree s l.p = false ∧
        s.opt.calOn = none ∧ ∀ m ∈ tget [] s.opt.migs l.p, m.old ≠ l.l)) :
    ∃ t, exec (.fadeMeasure l f) s = .next t ∧
      getLane t l.key = { getLane s l.key with fade := f, stage := 3, deferred := true } ∧
      Logged s t pgOPT 1 0x0D04 (laneAcc s l.p l.l) (d0Opt l.p l.l) (BitVec.ofInt 32 f) ∧
      t = { s with lanes := t.lanes, regs := t.regs, ldg := t.ldg } := by
  have use := fadedAt_use s l f 3 l.p
  have defers : pinned (fadedAt s l f 3) l.p l.l = true ∨ (inUse (fadedAt s l f 3) l.p l.l = true ∧
      ¬ ((tget [] (fadedAt s l f 3).opt.migs l.p).any fun m => decide (m.old.val = l.l)) = true ∧
      ¬ someFree (fadedAt s l f 3) l.p = true) := by
    rw [use.pins, use.someFree, inUse, use.laneRole, use.opt]
    refine held.imp_right fun ⟨slot, full, _, unmoved⟩ => ⟨by rw [slot]; rfl, fun moves => ?_, by rw [full]; decide⟩
    obtain ⟨m, hm, old⟩ := List.any_eq_true.1 moves
    exact unmoved m hm (Fin.ext (of_decide_eq_true old))
  have lane : laneAt (optPost (fadedAt s l f 3) sevWarning 0x0D04 l.p l.l (iWord f)) l.p l.l =
      { getLane s l.key with fade := f, stage := 3 } := by
    rw [laneAt_key, getLane, (optPost_spec _ _ _ _ _ _).2]
    exact getLane_fadedAt s l f 3
  have run := exec_fadeMeasure_ends lit hr h1 h0
  rw [fadeOut, if_pos defers, lane] at run
  obtain ⟨logged, frame⟩ := logged_setLane (u := fadedAt s l f 3) rfl use 0x0D04 l.l l.key (iWord f)
    { getLane s l.key with fade := f, stage := 3, deferred := true }
  have role : (getLane (optPost (fadedAt s l f 3) sevWarning 0x0D04 l.p l.l (iWord f)) l.key).role = (getLane s l.key).role :=
    (congrArg Lane.role lane).trans rfl
  have use' : SameUse s (setLane (optPost (fadedAt s l f 3) sevWarning 0x0D04 l.p l.l (iWord f)) l.key
      { getLane s l.key with fade := f, stage := 3, deferred := true }) l.p :=
    (SameUse.setLane _ l.key l.p (x := { getLane s l.key with fade := f, stage := 3, deferred := true }) role.symm).trans
      ((SameUse.optPost _ 0x0D04 l.l (iWord f) l.p.isLt).trans use)
  have stays := moveSlot_stays (s := setLane (optPost (fadedAt s l f 3) sevWarning 0x0D04 l.p l.l (iWord f)) l.key
      { getLane s l.key with fade := f, stage := 3, deferred := true }) (p := l.p) (i := l.l) (by
    rw [use'.movable, use'.freeLane, use'.opt]
    rcases held with pin | ⟨-, full, off, -⟩
    · exact .inl (movable_pinned pin)
    · exact .inr ⟨freeLane_none full, off⟩)
  exact ⟨_, run.trans (congrArg Host.Outcome.next stays), getLane_setLane _ l.key _, logged, frame⟩

theorem exec_fadeMeasure_retires (h1 : f ≤ -300) (h0 : (getLane s l.key).stage = 2) (unused : laneRole s l.p l.l ≠ .slot)
    (unmoved : migNew s l.p l.l = none) (unpinned : pinned s l.p l.l = false) :
    ∃ t, exec (.fadeMeasure l f) s = .next t ∧ (getLane t l.key).role = .retired ∧ (getLane t l.key).laser = .off ∧
      (getLane t l.key).stage = 3 ∧ l ∈ t.bup.lanesBad ∧
      reg t (at' pgOPT 0x194) = satAdd (reg s (at' pgOPT 0x194)) 1 ∧
      Logged s t pgOPT 1 0x0D03 0 (d0Opt l.p l.l) (BitVec.ofInt 32 f) ∧
      t = { s with
        lanes := t.lanes, regs := t.regs, ldg := t.ldg, bup := { s.bup with lanesBad := t.bup.lanesBad } } := by
  have use := fadedAt_use s l f 3 l.p
  have idle : inUse (fadedAt s l f 3) l.p l.l = false := by
    rw [inUse, use.laneRole, use.migNew, unmoved, decide_eq_false unused]
    rfl
  have run := exec_fadeMeasure_ends lit hr h1 h0
  rw [fadeOut, if_neg (by rw [use.pins, unpinned, idle]; rintro (h | ⟨h, _⟩) <;> cases h), if_neg (by rw [idle]; decide)] at run
  have acc : laneAcc (fadedAt s l f 3) l.p l.l = 0 := by rw [use.laneAcc, laneAcc_unserved unused]
  have lane := getLane_fadedAt s l f 3
  have start : fadedAt s l f 3 = { s with lanes := (fadedAt s l f 3).lanes } := rfl
  obtain ⟨role, laser, stage, bad, count, logged, frame⟩ := retire_spec (fadedAt s l f 3) l
  refine ⟨_, run, role, laser, stage.trans (congrArg Lane.stage lane), bad, count, ?_, ?_⟩
  · rw [acc, lane] at logged
    exact logged.before rfl rfl
  · rw [frame, start]

end

end

end Sys2Proof
end

section
/-! PROOFS. Records of lane management (R318, R319): how a record is sent, and what stands of a migration; the start of a
fade's migration (R317). -/

namespace Sys2Proof

open Sys2Proof.Machine

/-! ## A record is sent (R319) -/

/-- A flit of `pay` has left on a two-way group, under the group's state in `s`. -/
structure RecordSent (s t : State) (g : Grp) (pay : List Byte) : Prop where
  out  : t.out = Out.flit g (sealFlit s g.key 0 (headerOf (getLink s g.key) 0 0 0 0xFF) (fit 0 232 pay)) :: s.out
  link : getLink t g.key = flitSent (getLink s g.key)

theorem sendIdle_record {s : State} {g : Grp} (hm : grpMode s g.key = 0) (pay : List Byte) :
    RecordSent s (sendIdle s g.key pay) g pay := by
  obtain ⟨⟨-, out⟩, link⟩ := sendFlit_sent s g.key 0 0 0 0xFF pay
  rw [grpOf_key, hdrOf_two hm] at out
  exact ⟨out, link⟩

/-- A record in an idle flit touches its group and what leaves the module. -/
theorem sendIdle_onGroup (s : State) (k : Nat) (pay : List Byte) : OnGroup s (sendIdle s k pay) k :=
  (sendFlit_sent s k 0 0 0 0xFF pay).1.onGroup

theorem sendIdle_out (s : State) (k : Nat) (pay : List Byte) : (sendIdle s k pay).out ≠ s.out := by
  rw [sendIdle, (sendFlit_sent s k 0 0 0 0xFF pay).1.out]
  exact fun h => absurd (congrArg List.length h) (by rw [List.length_cons]; omega)

/-- A migration notes a record that it has sent. -/
def sentNoted (m : Migration) (opc now : Nat) : Migration :=
  { m with sentAt := now, sent := if m.sent.contains opc then m.sent else opc :: m.sent }

theorem sendRec_eq (s : State) (p : Nat) (m : Migration) (opc : Nat) : sendRec s p m opc =
    putMig (sendIdle s (4 * p + m.g.val) (recBytes (m.record opc))) p (sentNoted m opc s.clk.dst) := rfl

theorem putMig_frame (s : State) (p : Nat) (m : Migration) :
    putMig s p m = { s with opt := { s.opt with migs := (putMig s p m).opt.migs } } := rfl

/-- The same transaction, slot and new lane. -/
def SameMove (m x : Migration) : Prop := x.txn = m.txn ∧ x.g = m.g ∧ x.new = m.new

theorem migs_putMig_only {s : State} {p : Nat} {m x : Migration} (h : tget [] s.opt.migs p = [x]) (hx : SameMove m x) :
    tget [] (putMig s p m).opt.migs p = [m] := by
  refine (tget_tput_self _ _ _ _).trans ?_
  rw [h]
  exact congrArg (· :: []) (if_pos hx)

theorem migs_dropMig_only {s : State} {p : Nat} {m x : Migration} (h : tget [] s.opt.migs p = [x]) (hx : SameMove m x) :
    tget [] (dropMig s p m).opt.migs p = [] := by
  refine (tget_tput_self _ _ _ _).trans ?_
  rw [h]
  exact List.filter_eq_nil_iff.2 fun y hy => by
    rw [List.mem_singleton.1 hy, decide_eq_true (p := x.txn = m.txn ∧ x.g = m.g ∧ x.new = m.new) hx]
    decide

/-- The group of a migration of port `p`. -/
def Migration.grp (m : Migration) (p : Fin 6) : Grp := ⟨p, m.g⟩

section
variable {s : State} {g : Grp} {m : Migration} {opc : Nat}

/-- What a record sent on the migration's group does besides the migration. -/
theorem sendRec_frame (s : State) (p : Nat) (m : Migration) (opc : Nat) : sendRec s p m opc = { s with
    links := (sendRec s p m opc).links, out := (sendRec s p m opc).out
    opt := { s.opt with migs := (sendRec s p m opc).opt.migs } } := by
  have idle := (sendIdle_onGroup s (4 * p + m.g.val) (recBytes (m.record opc))).frame
  rw [sendRec_eq]
  generalize sendIdle s (4 * p + m.g.val) (recBytes (m.record opc)) = u at *
  rw [putMig_frame, idle]

theorem sendRec_out (s : State) (p : Nat) (m : Migration) (opc : Nat) : (sendRec s p m opc).out ≠ s.out :=
  sendIdle_out s (4 * p + m.g.val) (recBytes (m.record opc))

theorem migs_sendRec_only {p : Nat} {x : Migration} (h : tget [] s.opt.migs p = [x]) (hx : SameMove m x) :
    tget [] (sendRec s p m opc).opt.migs p = [sentNoted m opc s.clk.dst] := by
  have idle := (sendIdle_onGroup s (4 * p + m.g.val) (recBytes (m.record opc))).frame
  rw [sendRec_eq]
  refine migs_putMig_only (x := x) ?_ hx
  rw [idle, h]

theorem sendRec_record (hm : grpMode s g.key = 0) (hg : m.g = g.g) :
    RecordSent s (sendRec s (g.key / 4) m opc) g (recBytes (m.record opc)) := by
  have key : 4 * (g.key / 4) + m.g.val = g.key := by rw [hg, ← Grp.key_mod]; omega
  obtain ⟨out, link⟩ := sendIdle_record hm (recBytes (m.record opc))
  rw [sendRec_eq, key]
  exact ⟨out, link⟩

end

/-! ## A laser that may rise (R324) -/

theorem tryRise_frame (s : State) (p l : Nat) : tryRise s p l = { s with
    lanes := (tryRise s p l).lanes, links := (tryRise s p l).links, out := (tryRise s p l).out } := by
  unfold tryRise
  by_cases h : riseOk s p l = true
  · rw [if_pos h, tryUpPort_frame (laserTo s p l .full) p]
    rfl
  · rw [if_neg h]

theorem tryRise_full {s : State} {p l : Nat} (h : riseOk s p l = true) : (laneAt (tryRise s p l) p l).laser = .full := by
  unfold tryRise
  rw [if_pos h, laneAt, getLane_tryUpPort]
  exact (congrArg Lane.laser (getLane_setLane s _ _)).trans (light_laser _ _ _)

/-! ## A slot starts to move (R318) -/

/-- The migration of slot `k` of group `g` that starts now. -/
def newMig (s : State) (g k old new : Nat) (cal : Bool) : Migration :=
  { txn := tget 0 s.opt.txn (g / 4), slot := Fin.ofNat 4 k, g := Fin.ofNat 4 (g % 4), old := Fin.ofNat 18 old
    new := Fin.ofNat 18 new, cal := cal, init := true, start := s.clk.dst, sentAt := s.clk.dst, sent := [], got := [] }

/-- The port knows the migration, and takes the next transaction number for the one after. -/
def withMig (s : State) (p : Nat) (m : Migration) : State :=
  { s with opt := { s.opt with txn := tput 0 s.opt.txn p (tget 0 s.opt.txn p + 1)
                               migs := tput [] s.opt.migs p (tget [] s.opt.migs p ++ [m]) } }

theorem startMig_eq (s : State) (g k old new : Nat) (cal : Bool) : startMig s g k old new cal =
    tryRise (sendRec (withMig s (g / 4) (newMig s g k old new cal)) (g / 4) (newMig s g k old new cal) (if cal then 6 else 1))
      (g / 4) new := rfl

theorem startMig_spec (s : State) (g k old new : Nat) (cal : Bool) :
    sentNoted (newMig s g k old new cal) (if cal then 6 else 1) s.clk.dst ∈
      tget [] (startMig s g k old new cal).opt.migs (g / 4) ∧
    tget 0 (startMig s g k old new cal).opt.txn (g / 4) = tget 0 s.opt.txn (g / 4) + 1 := by
  have known : newMig s g k old new cal ∈ tget [] (withMig s (g / 4) (newMig s g k old new cal)).opt.migs (g / 4) := by
    rw [withMig, tget_tput_self]
    exact List.mem_append_right _ (List.mem_singleton.2 rfl)
  have txn : tget 0 (withMig s (g / 4) (newMig s g k old new cal)).opt.txn (g / 4) = tget 0 s.opt.txn (g / 4) + 1 :=
    tget_tput_self _ _ _ _
  have clk : (withMig s (g / 4) (newMig s g k old new cal)).clk = s.clk := rfl
  rw [startMig_eq, tryRise_frame, ← clk]
  generalize withMig s (g / 4) (newMig s g k old new cal) = u at *
  have idle := (sendIdle_onGroup u (4 * (g / 4) + (newMig s g k old new cal).g.val)
    (recBytes ((newMig s g k old new cal).record (if cal then 6 else 1)))).frame
  generalize newMig s g k old new cal = m at *
  rw [sendRec_eq]
  generalize sendIdle u (4 * (g / 4) + m.g.val) (recBytes (m.record (if cal then 6 else 1))) = v at *
  refine ⟨?_, ?_⟩
  · show _ ∈ tget [] (putMig v (g / 4) _).opt.migs (g / 4)
    rw [putMig, tget_tput_self]
    exact List.mem_map.2 ⟨m, by rw [idle]; exact known, if_pos ⟨rfl, rfl, rfl⟩⟩
  · show tget 0 v.opt.txn (g / 4) = _
    rw [idle, txn]

/-- A slot on a two-way group in UP that does not move already, its lane's number not fixed, may move. -/
theorem movable_some {s : State} {p i g k : Nat} (slot : laneRole s p i = .slot) (found : slotOf s p i = some (g, k))
    (unpinned : pinned s p i = false) (still : migrating s g k = false) (up : (getLink s g).st = .up)
    (two : grpMode s g = 0) : movable s p i = some (g, k) := by
  unfold movable
  rw [found]
  refine if_neg ?_
  rw [slot, unpinned, still, up, two]
  decide

/-- At -2.5 dB a slot that may move starts to move to the lowest free lane. -/
theorem exec_fadeMeasure_moves {l : LaneId} {f : Int} {s : State} {g k n : Nat}
    (lit : (getLane s l.key).laser = .safe ∨ (getLane s l.key).laser = .full) (hr : (getLane s l.key).role ≠ .retired)
    (h1 : f ≤ -250) (h2 : -300 < f) (h0 : (getLane s l.key).stage = 1) (slot : laneRole s l.p l.l = .slot)
    (move : movable s l.p l.l = some (g, k)) (port : g / 4 = l.p) (free : freeLane s l.p = some n) (hn : n < 18) (hk : k < 4) :
    ∃ t m, exec (.fadeMeasure l f) s = .next t ∧ m ∈ tget [] t.opt.migs l.p ∧ m.old = l.l ∧ m.new.val = n ∧
      m.slot.val = k ∧ m.init = true ∧ m.cal = false ∧ 1 ∈ m.sent ∧ m.txn = tget 0 s.opt.txn l.p ∧
      tget 0 t.opt.txn l.p = tget 0 s.opt.txn l.p + 1 := by
  have use := fadedAt_use s l f 2 l.p
  have moved : Machine.moveSlot (fadedAt s l f 2) l.p l.l = startMig (fadedAt s l f 2) g k l.l n false := by
    unfold Machine.moveSlot moveOff
    rw [use.movable, move]
    dsimp only
    rw [port, use.freeLane, free]
  have run := (exec_fadeMeasure_slot lit hr h1 h2 h0 slot).trans (congrArg Host.Outcome.next moved)
  obtain ⟨mem, txn⟩ := startMig_spec (fadedAt s l f 2) g k l.l n false
  rw [port] at mem txn
  refine ⟨_, _, run, mem, Fin.ext (Nat.mod_eq_of_lt l.l.isLt), Nat.mod_eq_of_lt hn, Nat.mod_eq_of_lt hk, rfl, rfl,
    List.mem_cons_self, ?_, txn⟩
  exact congrArg (tget 0 s.opt.txn) port

end Sys2Proof
end

section
/-! PROOFS. Records of lane management received on a two-way group in UP (R318, R319, R321). -/

namespace Sys2Proof

open Sys2Proof.Machine

theorem grp_ofNat_key (g : Grp) : Fin.ofNat 4 (g.key % 4) = g.g := congrArg Grp.g (grpOf_key g)

/-! ## REQUEST and CALREQ -/

/-- The migration that a request opens at the receiver. -/
def askedMig (s : State) (g : Grp) (r : LaneRec) (opc : Nat) (cal : Bool) : Migration :=
  Migration.mk r.txn r.slot g.g r.old r.new cal false s.clk.dst s.clk.dst [] [opc]

/-- The port knows the migration that it was asked for. -/
def asked (s : State) (p : Nat) (m : Migration) : State :=
  { s with opt := { s.opt with migs := tput [] s.opt.migs p (tget [] s.opt.migs p ++ [m]) } }

section
variable {g : Grp} {r : LaneRec} {s : State} {opc : Nat} {cal : Bool}

theorem onRec_eq (up : (getLink s g.key).st = .up) (two : grpMode s g.key = 0) (ends : (getLink s g.key).role ≠ 2)
    (r : LaneRec) : onRec s g r = takeRec s g.key r := (if_neg ends).trans (if_pos ⟨up, two⟩)

theorem exec_request_eq (up : (getLink s g.key).st = .up) (two : grpMode s g.key = 0) (ends : (getLink s g.key).role ≠ 2)
    {e : Bool × Nat × Instr} (he : e ∈ [(false, 1, Instr.request g r), (true, 6, .calreq g r)]) :
    exec e.2.2 s = .next (takeRequest s g.key { r with opc := e.2.1 } e.1) := by
  rcases List.mem_pair.1 he with rfl | rfl
  · exact congrArg Host.Outcome.next (onRec_eq up two ends _)
  · exact congrArg Host.Outcome.next (onRec_eq up two ends _)

theorem takeRequest_fits (up : (getLink s g.key).st = .up) (two : grpMode s g.key = 0)
    (none : tget [] s.opt.migs (g.key / 4) = []) (serves : (getLink s g.key).lanes[r.slot.val]? = some r.old)
    (free : laneFree s (g.key / 4) r.new = true) (unpinned : pinned s (g.key / 4) r.old = false) :
    takeRequest s g.key { r with opc := opc } cal =
      tryRise (asked s (g.key / 4) (askedMig s g r opc cal)) (g.key / 4) r.new := by
  have unknown : migOf s g.key { r with opc := opc } = Option.none := by rw [migOf, none]; rfl
  have still : migrating s g.key r.slot = false := by rw [migrating, none]; rfl
  unfold takeRequest askedMig
  rw [unknown, ← grp_ofNat_key g]
  refine if_neg ?_
  show ¬ (_ ∨ _ ∨ _ ∨ laneFree s (g.key / 4) r.new = false ∨ pinned s (g.key / 4) r.old = true ∨ migrating s g.key r.slot = true)
  rw [up, two, serves, free, unpinned, still]
  simp

theorem takeRequest_unfit (unknown : migOf s g.key r = none) (unfit : (getLink s g.key).lanes[r.slot.val]? ≠ some r.old ∨
    laneFree s (g.key / 4) r.new = false ∨ pinned s (g.key / 4) r.old = true) :
    takeRequest s g.key { r with opc := opc } cal = s := by
  unfold takeRequest
  rw [show migOf s g.key { r with opc := opc } = none from unknown]
  refine if_pos (.inr (.inr ?_))
  rcases unfit with h | h | h
  · exact .inl h
  · exact .inr (.inl h)
  · exact .inr (.inr (.inl h))

/-- The new lane of a request may rise at once where its light stood for 1 ms. -/
theorem riseOk_asked {p : Nat} {m : Migration} (receives : (cellAt s p m.new).cur = 1)
    (safe : (laneAt s p m.new).laser = .safe) (lit : (laneAt s p m.new).lp = true)
    (stands : (laneAt s p m.new).lpSince + 6000000 ≤ s.clk.dst) (locked : (laneAt s p m.new).ring = .locked)
    (warm : 600 ≤ s.opt.temp) (cool : s.opt.hot = false) (clear : (laneAt s p m.new).clearAt = none) :
    riseOk (asked s p m) p m.new = true := by
  have moves : (migNew (asked s p m) p m.new).isSome = true := by
    rw [migNew, List.find?_isSome]
    refine ⟨m, ?_, decide_eq_true rfl⟩
    rw [asked, tget_tput_self]
    exact List.mem_append_right _ (List.mem_singleton.2 rfl)
  have use : riseUse (asked s p m) p m.new = true := by
    have cur : (cellAt (asked s p m) p m.new).cur = 1 := receives
    rw [riseUse, cur, moves]
    simp
  have lane : laneAt (asked s p m) p m.new = laneAt s p m.new := rfl
  unfold riseOk
  dsimp only
  rw [lane, use, safe, lit, locked, clear, decide_eq_true (show (laneAt s p m.new).lpSince + msTicks ≤ (asked s p m).clk.dst from stands),
    decide_eq_true (show 600 ≤ (asked s p m).opt.temp from warm), show (asked s p m).opt.hot = false from cool]
  rfl

theorem exec_request_fits (up : (getLink s g.key).st = .up) (two : grpMode s g.key = 0) (ends : (getLink s g.key).role ≠ 2)
    {e : Bool × Nat × Instr} (he : e ∈ [(false, 1, Instr.request g r), (true, 6, .calreq g r)])
    (none : tget [] s.opt.migs (g.key / 4) = []) (serves : (getLink s g.key).lanes[r.slot.val]? = some r.old)
    (free : laneFree s (g.key / 4) r.new = true) (unpinned : pinned s (g.key / 4) r.old = false) :
    ∃ t, exec e.2.2 s = .next t ∧ tget [] t.opt.migs (g.key / 4) = [askedMig s g r e.2.1 e.1] ∧
      ((cellAt s (g.key / 4) r.new).cur = 1 → (laneAt s (g.key / 4) r.new).laser = .safe →
        (laneAt s (g.key / 4) r.new).lp = true → (laneAt s (g.key / 4) r.new).lpSince + 6000000 ≤ s.clk.dst →
        (laneAt s (g.key / 4) r.new).ring = .locked → 600 ≤ s.opt.temp → s.opt.hot = false →
        (laneAt s (g.key / 4) r.new).clearAt = Option.none → (laneAt t (g.key / 4) r.new).laser = .full) ∧
      t = { s with opt := { s.opt with migs := t.opt.migs }, lanes := t.lanes, links := t.links, out := t.out } := by
  have run := (exec_request_eq up two ends he).trans
    (congrArg Host.Outcome.next (takeRequest_fits up two none serves free unpinned))
  refine ⟨_, run, ?_, fun receives safe lit stands locked warm cool clear => tryRise_full
    (riseOk_asked (m := askedMig s g r e.2.1 e.1) receives safe lit stands locked warm cool clear), ?_⟩
  · rw [tryRise_frame]
    refine (tget_tput_self _ _ _ _).trans ?_
    rw [none]
    rfl
  · rw [tryRise_frame]
    rfl

/-! ## READY and the SWITCH that follows -/

/-- A record names the port's one migration. -/
theorem migOf_fields {m : Migration} {k : Nat} (h : migOf s k r = some m) :
    m.txn = r.txn ∧ m.g.val = k % 4 ∧ m.new = r.new ∧ m.old = r.old ∧ m.slot = r.slot := by
  have named := List.find?_some h
  exact of_decide_eq_true named

theorem migOf_only {m x : Migration} {t : State} {k : Nat} (named : migOf s k r = some m)
    (only : tget [] t.opt.migs (k / 4) = [x]) (hx : SameMove m x) (old : x.old = m.old) (slot : x.slot = m.slot) :
    migOf t k r = some x := by
  obtain ⟨txn, grp, new, old', slot'⟩ := migOf_fields named
  obtain ⟨txnX, grpX, newX⟩ := hx
  rw [migOf, only]
  refine List.find?_cons_of_pos (decide_eq_true ⟨txnX.trans txn, ?_, newX.trans new, old.trans old', slot.trans slot'⟩)
  rw [grpX, grp]

theorem trySwitch_idle {m : Migration} {k : Nat} (only : tget [] s.opt.migs (k / 4) = [m])
    (not : atBoundary (getLink s k) = false ∨ switchDue m = false) : trySwitch s k = s := by
  unfold trySwitch
  rcases not with h | h
  · rw [h]
    rfl
  · rw [only, List.find?_cons_of_neg (by rw [h]; simp)]
    exact ite_self _

theorem trySwitch_due {m : Migration} {k : Nat} (only : tget [] s.opt.migs (k / 4) = [m]) (grp : m.g.val = k % 4)
    (due : switchDue m = true) (boundary : atBoundary (getLink s k) = true) (up : (getLink s k).st = .up) :
    trySwitch s k = sendRec s (k / 4) m 3 := by
  unfold trySwitch
  rw [boundary, up, only, List.find?_cons_of_pos (by rw [due, decide_eq_true grp]; rfl)]
  rfl

/-- A migration notes a record that it has received. -/
def gotNoted (m : Migration) (n : Nat) : Migration := { m with got := if m.got.contains n then m.got else n :: m.got }

theorem gotNoted_contains (m : Migration) (n : Nat) : (gotNoted m n).got.contains n = true := by
  unfold gotNoted
  dsimp only
  split
  case isTrue h => exact h
  · simp

end

section
variable {g : Grp} {r : LaneRec} {s : State} {m : Migration} (up : (getLink s g.key).st = .up)
  (two : grpMode s g.key = 0) (ends : (getLink s g.key).role ≠ 2) (only : tget [] s.opt.migs (g.key / 4) = [m])
  (named : migOf s g.key r = some m)

include named in
theorem grp_of_named : m.g = g.g := Fin.ext ((migOf_fields named).2.1.trans (Grp.key_mod g))

include up two ends named in
theorem exec_ready_eq : exec (.ready g r) s = .next (trySwitch (putMig s (g.key / 4) (gotNoted m 2)) g.key) := by
  refine congrArg Host.Outcome.next ((onRec_eq up two ends _).trans ?_)
  show takeReady s g.key { r with opc := 2 } = _
  unfold takeReady
  rw [show migOf s g.key { r with opc := 2 } = some m from named]
  rfl

theorem sameMove_refl (m : Migration) : SameMove m m := ⟨rfl, rfl, rfl⟩

include up two ends only named in
theorem exec_ready_notes (not : 2 ∉ m.sent ∨ 3 ∈ m.sent ∨ atBoundary (getLink s g.key) = false) :
    ∃ t, exec (.ready g r) s = .next t ∧ tget [] t.opt.migs (g.key / 4) = [gotNoted m 2] ∧
      t = { s with opt := { s.opt with migs := t.opt.migs } } := by
  have only' : tget [] (putMig s (g.key / 4) (gotNoted m 2)).opt.migs (g.key / 4) = [gotNoted m 2] :=
    migs_putMig_only only ⟨rfl, rfl, rfl⟩
  have idle : atBoundary (getLink s g.key) = false ∨ switchDue (gotNoted m 2) = false := by
    have sent : (gotNoted m 2).sent = m.sent := rfl
    unfold switchDue
    rw [sent]
    rcases not with h | h | h
    · exact .inr (by simp [h])
    · exact .inr (by simp [h])
    · exact .inl h
  rw [exec_ready_eq up two ends named, trySwitch_idle only' idle]
  exact ⟨_, rfl, only', rfl⟩

include up two ends only named in
theorem exec_ready_switches (ready : 2 ∈ m.sent) (first : 3 ∉ m.sent) (boundary : atBoundary (getLink s g.key) = true) :
    ∃ t, exec (.ready g r) s = .next t ∧ RecordSent s t g (recBytes (m.record 3)) ∧ tget [] t.opt.migs (g.key / 4) =
      [{ m with got := if m.got.contains 2 then m.got else 2 :: m.got, sent := 3 :: m.sent, sentAt := s.clk.dst }] := by
  have only' : tget [] (putMig s (g.key / 4) (gotNoted m 2)).opt.migs (g.key / 4) = [gotNoted m 2] :=
    migs_putMig_only only ⟨rfl, rfl, rfl⟩
  have due : switchDue (gotNoted m 2) = true := by
    unfold switchDue
    rw [gotNoted_contains, show (gotNoted m 2).sent = m.sent from rfl]
    simp [ready, first]
  have grp := grp_of_named named
  have run := (exec_ready_eq up two ends named).trans (congrArg Host.Outcome.next
    (trySwitch_due only' ((congrArg Fin.val grp).trans (Grp.key_mod g).symm) due boundary up))
  have noted : sentNoted (gotNoted m 2) 3 s.clk.dst =
      { m with got := if m.got.contains 2 then m.got else 2 :: m.got, sent := 3 :: m.sent, sentAt := s.clk.dst } := by
    unfold sentNoted
    rw [if_neg (by simpa [gotNoted] using first)]
    rfl
  have sent := sendRec_record (s := putMig s (g.key / 4) (gotNoted m 2)) (m := gotNoted m 2) (opc := 3) two grp
  exact ⟨_, run, ⟨sent.out, sent.link⟩, (migs_sendRec_only only' (sameMove_refl _)).trans (congrArg (· :: []) noted)⟩

include up two only named in
theorem exec_alignLock_readies {skew : Nat} (hs : skew ≤ 64) (locked : grpLocked s g.key = true) (first : 2 ∉ m.sent)
    (full : (laneAt s (g.key / 4) m.new).laser = .full) (ring : (laneAt s (g.key / 4) m.new).ring = .locked)
    (not : 2 ∉ m.got ∨ atBoundary (getLink s g.key) = false) :
    ∃ t, exec (.alignLock g skew) s = .next t ∧ RecordSent s t g (recBytes (m.record 2)) ∧
      tget [] t.opt.migs (g.key / 4) = [{ m with sent := 2 :: m.sent, sentAt := s.clk.dst }] := by
  have grp := grp_of_named named
  have run : exec (.alignLock g skew) s = .next (sendReady s g.key) := by
    refine congrArg Host.Outcome.next ((if_neg (by rw [locked]; simp; omega)).trans ?_)
    rw [up]
    exact if_pos two
  have waits : (tget [] s.opt.migs (g.key / 4)).filter (fun m => decide (m.g.val = g.key % 4) && !m.sent.contains 2
      && (laneAt s (g.key / 4) m.new.val).laser == .full && (laneAt s (g.key / 4) m.new.val).ring == .locked) = [m] := by
    rw [only, List.filter_cons_of_pos, List.filter_nil]
    rw [full, ring, decide_eq_true ((congrArg Fin.val grp).trans (Grp.key_mod g).symm)]
    simpa using first
  have sends : sendReady s g.key = trySwitch (sendRec s (g.key / 4) m 2) g.key := by
    unfold sendReady
    dsimp only
    rw [waits]
    rfl
  have noted : sentNoted m 2 s.clk.dst = { m with sent := 2 :: m.sent, sentAt := s.clk.dst } := by
    unfold sentNoted
    rw [if_neg (by simpa using first)]
  have sent := sendRec_record (s := s) (m := m) (opc := 2) two grp
  have only' := migs_sendRec_only (m := m) (opc := 2) only (sameMove_refl m)
  rw [noted] at only'
  have idle : atBoundary (getLink (sendRec s (g.key / 4) m 2) g.key) = false ∨
      switchDue { m with sent := 2 :: m.sent, sentAt := s.clk.dst } = false := by
    rcases not with h | h
    · exact .inr (by simp [switchDue, h])
    · exact .inl (by rw [sent.link]; exact h)
  rw [sends, trySwitch_idle only' idle] at run
  exact ⟨_, run, sent, only'⟩

end

end Sys2Proof
end

section
/-! PROOFS. A migration ends: SWITCH, DONE, ABORT and the limits of a migration (R318, R319). -/

namespace Sys2Proof

open Sys2Proof.Machine

/-! ## SWITCH -/

/-- The slot has gone to the new lane. -/
def slotGiven (s : State) (k : Nat) (m : Migration) : State :=
  let u := setLink s k { getLink s k with lanes := setAt (getLink s k).lanes m.slot.val m.new }
  setLaneAt u (k / 4) m.new.val { laneAt u (k / 4) m.new.val with role := .slot }

theorem slotGiven_spec (s : State) (k : Nat) (m : Migration) :
    getLink (slotGiven s k m) k = { getLink s k with lanes := setAt (getLink s k).lanes m.slot.val m.new } ∧
    (laneAt (slotGiven s k m) (k / 4) m.new.val).role = .slot ∧
    slotGiven s k m = { s with links := (slotGiven s k m).links, lanes := (slotGiven s k m).lanes } :=
  ⟨getLink_setLink s k _, congrArg Lane.role (getLane_setLane (setLink s k
    { getLink s k with lanes := setAt (getLink s k).lanes m.slot.val m.new }) _ _), rfl⟩

theorem sentNoted_got (m : Migration) (opc now : Nat) : (sentNoted m opc now).got = m.got := rfl

theorem endIfDone_waits {s : State} {p : Nat} {m : Migration} (h : 4 ∉ m.got) : endIfDone s p m = putMig s p m :=
  if_neg (by simp [h])

section
variable {g : Grp} {r : LaneRec} {s : State} {m : Migration} (up : (getLink s g.key).st = .up)
  (two : grpMode s g.key = 0) (ends : (getLink s g.key).role ≠ 2) (only : tget [] s.opt.migs (g.key / 4) = [m])
  (named : migOf s g.key r = some m)

/-- The end that took the slot answers DONE. -/
def switched (s : State) (k : Nat) (m : Migration) : State :=
  sendRec (putMig (slotGiven s k m) (k / 4) (gotNoted m 3)) (k / 4) (gotNoted m 3) 4

include up two ends named in
theorem exec_switch_eq : exec (.switch g r) s = .next (match migOf (switched s g.key m) g.key r with
    | some x => endIfDone (switched s g.key m) (g.key / 4) x
    | none => switched s g.key m) := by
  refine congrArg Host.Outcome.next ((onRec_eq up two ends _).trans ?_)
  show takeSwitch s g.key { r with opc := 3 } = _
  unfold takeSwitch
  rw [show migOf s g.key { r with opc := 3 } = some m from named]
  rfl

include up two ends only named in
theorem exec_switch_spec (first : 4 ∉ m.got) :
    ∃ t, exec (.switch g r) s = .next t ∧ (getLane t (18 * (g.key / 4) + m.new)).role = .slot ∧
      (getLink t g.key).lanes = setAt (getLink s g.key).lanes m.slot m.new ∧ t.out ≠ s.out ∧
      tget [] t.opt.migs (g.key / 4) = [{ m with
        got := if m.got.contains 3 then m.got else 3 :: m.got
        sent := if m.sent.contains 4 then m.sent else 4 :: m.sent, sentAt := s.clk.dst }] ∧
      t = { s with lanes := t.lanes, links := t.links, out := t.out, opt := { s.opt with migs := t.opt.migs } } := by
  obtain ⟨link, role, frame⟩ := slotGiven_spec s g.key m
  have grp : (gotNoted m 3).g = g.g := (rfl : _ = m.g).trans (grp_of_named named)
  have run := exec_switch_eq up two ends named
  unfold switched at run
  generalize slotGiven s g.key m = u at *
  have only1 : tget [] (putMig u (g.key / 4) (gotNoted m 3)).opt.migs (g.key / 4) = [gotNoted m 3] :=
    migs_putMig_only (x := m) (by rw [frame]; exact only) ⟨rfl, rfl, rfl⟩
  have clk : (putMig u (g.key / 4) (gotNoted m 3)).clk = s.clk := by rw [putMig_frame, frame]
  have out : (putMig u (g.key / 4) (gotNoted m 3)).out = s.out := by rw [putMig_frame, frame]
  have mode : grpMode (putMig u (g.key / 4) (gotNoted m 3)) g.key = 0 := (grpMode_congr (by rw [putMig_frame, frame]) _).trans two
  have link1 : getLink (putMig u (g.key / 4) (gotNoted m 3)) g.key = _ := link
  have lane1 : (laneAt (putMig u (g.key / 4) (gotNoted m 3)) (g.key / 4) m.new.val).role = .slot := role
  have frame1 : putMig u (g.key / 4) (gotNoted m 3) = { s with
      lanes := (putMig u (g.key / 4) (gotNoted m 3)).lanes, links := (putMig u (g.key / 4) (gotNoted m 3)).links
      opt := { s.opt with migs := (putMig u (g.key / 4) (gotNoted m 3)).opt.migs } } := by rw [putMig_frame, frame]
  generalize putMig u (g.key / 4) (gotNoted m 3) = v at *
  have only2 := migs_sendRec_only (m := gotNoted m 3) (opc := 4) only1 (sameMove_refl _)
  have sent := sendRec_record (s := v) (m := gotNoted m 3) (opc := 4) mode grp
  have grows := sendRec_out v (g.key / 4) (gotNoted m 3) 4
  have frame2 := sendRec_frame v (g.key / 4) (gotNoted m 3) 4
  have lanes2 : (sendRec v (g.key / 4) (gotNoted m 3) 4).lanes = v.lanes := by rw [frame2]
  generalize sendRec v (g.key / 4) (gotNoted m 3) 4 = w at *
  have found : migOf w g.key r = some (sentNoted (gotNoted m 3) 4 v.clk.dst) :=
    migOf_only named only2 ⟨rfl, rfl, rfl⟩ rfl rfl
  rw [found] at run
  have waits : 4 ∉ (sentNoted (gotNoted m 3) 4 v.clk.dst).got := by
    rw [sentNoted_got, gotNoted]
    dsimp only
    split <;> simp [first]
  refine ⟨_, run.trans (congrArg Host.Outcome.next (endIfDone_waits waits)), ?_, ?_, ?_, ?_, ?_⟩
  · show (getLane w _).role = _
    rw [getLane, lanes2]
    exact lane1
  · show (getLink w g.key).lanes = _
    rw [sent.link, link1]
    rfl
  · rw [← out]
    exact grows
  · rw [migs_putMig_only only2 (sameMove_refl _), clk]
    rfl
  · rw [putMig_frame, frame2, frame1]

/-! ## DONE -/

/-- DONE is counted and logged. -/
def doneCounted (s : State) (p : Nat) (m : Migration) : State :=
  optPost (bump s (at' pgOPT 0x190) 1) sevWarning 0x0D02 p m.old.val (BitVec.ofNat 32 m.new.val)

theorem doneCounted_spec (s : State) (p : Nat) (m : Migration) :
    reg (doneCounted s p m) (at' pgOPT 0x190) = satAdd (reg s (at' pgOPT 0x190)) 1 ∧
    Logged s (doneCounted s p m) pgOPT 1 0x0D02 (laneAcc s p m.old) (d0Opt p m.old) (BitVec.ofNat 32 m.new) ∧
    doneCounted s p m = { s with regs := (doneCounted s p m).regs, ldg := (doneCounted s p m).ldg } := by
  obtain ⟨logged, frame⟩ := optPost_spec (bump s (at' pgOPT 0x190) 1) sevWarning 0x0D02 p m.old.val (BitVec.ofNat 32 m.new.val)
  rw [laneAcc_congr (s := s) (t := bump s (at' pgOPT 0x190) 1) rfl rfl] at logged
  refine ⟨?_, logged.before rfl rfl, ?_⟩
  · rw [doneCounted, optPost, post_regs _ pgOPT sevWarning _ _ _ _ (at' pgOPT 0x190) (by decide), reg_bump]
    rfl
  · rw [doneCounted, frame]
    rfl

/-- The migration with DONE received. -/
def doneNoted (m : Migration) : Migration := { m with got := 4 :: m.got }

include up two ends named in
theorem exec_doneRec_eq (switched : 3 ∈ m.sent) (first : 4 ∉ m.got) : exec (.doneRec g r) s =
    .next (endIfDone (doneCounted s (g.key / 4) m) (g.key / 4) (doneNoted m)) := by
  refine congrArg Host.Outcome.next ((onRec_eq up two ends _).trans ?_)
  show takeDone s g.key { r with opc := 4 } = _
  unfold takeDone
  rw [show migOf s g.key { r with opc := 4 } = some m from named]
  exact if_neg (by simp [switched, first])

include up two ends only named in
theorem exec_doneRec_notes (switched : 3 ∈ m.sent) (first : 4 ∉ m.got) (half : 3 ∉ m.got) :
    ∃ t, exec (.doneRec g r) s = .next t ∧ tget [] t.opt.migs (g.key / 4) = [doneNoted m] ∧ t.lanes = s.lanes ∧
      reg t (at' pgOPT 0x190) = satAdd (reg s (at' pgOPT 0x190)) 1 := by
  obtain ⟨count, -, frame⟩ := doneCounted_spec s (g.key / 4) m
  have waits : endIfDone (doneCounted s (g.key / 4) m) (g.key / 4) (doneNoted m) =
      putMig (doneCounted s (g.key / 4) m) (g.key / 4) (doneNoted m) := if_neg (by simp [doneNoted, half])
  refine ⟨_, (exec_doneRec_eq up two ends named switched first).trans (congrArg Host.Outcome.next waits), ?_, ?_, count⟩
  · exact migs_putMig_only (x := m) (by rw [frame]; exact only) ⟨rfl, rfl, rfl⟩
  · rw [putMig_frame, frame]

theorem down_ne_full (x : LaserSt) : x.down ≠ .full := by cases x <;> decide

/-- What becomes of the old lane, once both directions have switched. -/
theorem endMig_spec {s : State} {p : Nat} {m x : Migration} (only : tget [] s.opt.migs p = [x]) (hx : SameMove m x)
    (cal : m.cal = false) (stage : (laneAt s p m.old).stage < 3) :
    tget [] (endMig s p m).opt.migs p = [] ∧
    (laneAt (endMig s p m) p m.old).role = (if (laneAt s p m.old).role = .failed then .failed else .reserve) ∧
    (laneAt (endMig s p m) p m.old).laser ≠ .full ∧ (endMig s p m).regs = s.regs ∧ (endMig s p m).ldg = s.ldg := by
  have gone : tget [] (keepPast s p m).opt.migs p = [] := migs_dropMig_only only hx
  have lane : laneAt (keepPast s p m) p m.old.val = laneAt s p m.old.val := rfl
  unfold endMig
  dsimp only
  rw [lane]
  by_cases failed : (laneAt s p m.old.val).role = .failed
  · rw [if_pos failed, if_pos failed]
    have set : laneAt (setLaneAt (keepPast s p m) p m.old.val
        { laneAt s p m.old.val with laser := (laneAt s p m.old.val).laser.down }) p m.old.val = _ := getLane_setLane _ _ _
    rw [set]
    exact ⟨gone, failed, down_ne_full _, rfl, rfl⟩
  · rw [if_neg failed, if_neg failed, if_neg (by rw [cal]; decide), if_neg (by omega)]
    have set : laneAt (setLaneAt (keepPast s p m) p m.old.val
        { laneAt s p m.old.val with role := .reserve, laser := (laneAt s p m.old.val).laser.down }) p m.old.val = _ :=
      getLane_setLane _ _ _
    rw [set]
    exact ⟨gone, rfl, down_ne_full _, rfl, rfl⟩

include up two ends only named in
theorem exec_doneRec_ends (switched : 3 ∈ m.sent) (first : 4 ∉ m.got) (both : 3 ∈ m.got) (cal : m.cal = false)
    (stage : (laneAt s (g.key / 4) m.old).stage < 3) :
    ∃ t, exec (.doneRec g r) s = .next t ∧ tget [] t.opt.migs (g.key / 4) = [] ∧
      (getLane t (18 * (g.key / 4) + m.old)).role =
        (if (laneAt s (g.key / 4) m.old).role = .failed then .failed else .reserve) ∧
      (getLane t (18 * (g.key / 4) + m.old)).laser ≠ .full ∧
      reg t (at' pgOPT 0x190) = satAdd (reg s (at' pgOPT 0x190)) 1 ∧
      Logged s t pgOPT 1 0x0D02 (laneAcc s (g.key / 4) m.old) (d0Opt (g.key / 4) m.old) (BitVec.ofNat 32 m.new) := by
  obtain ⟨count, logged, frame⟩ := doneCounted_spec s (g.key / 4) m
  have run := (exec_doneRec_eq up two ends named switched first).trans (congrArg Host.Outcome.next
    (if_pos (by simp [doneNoted, both]) : endIfDone _ _ (doneNoted m) = endMig _ _ (doneNoted m)))
  have lane : laneAt (doneCounted s (g.key / 4) m) (g.key / 4) m.old = laneAt s (g.key / 4) m.old := by
    rw [laneAt, getLane, frame]
    rfl
  have only' : tget [] (doneCounted s (g.key / 4) m).opt.migs (g.key / 4) = [m] := by rw [frame]; exact only
  generalize doneCounted s (g.key / 4) m = u at *
  obtain ⟨gone, role, laser, regs, ldg⟩ := endMig_spec (m := doneNoted m) only' ⟨rfl, rfl, rfl⟩ cal (by rw [← lane] at stage; exact stage)
  refine ⟨_, run, gone, ?_, laser, (reg_congr regs _).trans count, logged.congr ldg⟩
  rw [← lane]
  exact role

end

end Sys2Proof
end

section
/-! PROOFS. Migrations given up and records repeated (R318, R319). -/

namespace Sys2Proof

open Sys2Proof.Machine

/-! ## The new lane of a migration given up -/

/-- The migration has ended and its new lane is failed. -/
def failedMove (s : State) (p : Nat) (m : Migration) : State :=
  setLaneAt (keepPast s p m) p m.new.val
    { laneAt s p m.new.val with role := .failed, laser := (laneAt s p m.new.val).laser.down }

theorem giveUpMig_eq (s : State) (p : Nat) (m : Migration) : giveUpMig s p m =
    if m.init then match movable (failedMove s p m) p m.old.val with
      | some (g, k) => moveOff (failedMove s p m) g k m.old.val m.cal
      | none => failedMove s p m
    else failedMove s p m := rfl

/-- A record of an ended migration is noted with it. -/
theorem sendPast_eq (s : State) (p : Nat) (m : Migration) (opc : Nat) : sendPast s p m opc =
    { sendIdle s (4 * p + m.g.val) (recBytes (m.record opc)) with
      opt := { (sendIdle s (4 * p + m.g.val) (recBytes (m.record opc))).opt with
        past := tput none (sendIdle s (4 * p + m.g.val) (recBytes (m.record opc))).opt.past (m.key p)
          (some (sentNoted m opc s.clk.dst)) } } := rfl

theorem sendPast_frame (s : State) (p : Nat) (m : Migration) (opc : Nat) : sendPast s p m opc = { s with
    links := (sendPast s p m opc).links, out := (sendPast s p m opc).out
    opt := { s.opt with past := (sendPast s p m opc).opt.past } } := by
  have idle := (sendIdle_onGroup s (4 * p + m.g.val) (recBytes (m.record opc))).frame
  rw [sendPast_eq]
  generalize sendIdle s (4 * p + m.g.val) (recBytes (m.record opc)) = u at *
  rw [idle]

theorem sendPast_out (s : State) (p : Nat) (m : Migration) (opc : Nat) : (sendPast s p m opc).out ≠ s.out :=
  sendIdle_out s (4 * p + m.g.val) (recBytes (m.record opc))

theorem sendPast_past (s : State) (p : Nat) (m : Migration) (opc : Nat) :
    tget none (sendPast s p m opc).opt.past (m.key p) = some (sentNoted m opc s.clk.dst) := by
  rw [sendPast_eq]
  show tget none (tput none (sendIdle s (4 * p + m.g.val) (recBytes (m.record opc))).opt.past (m.key p)
    (some (sentNoted m opc s.clk.dst))) (m.key p) = _
  exact tget_tput_self _ _ _ _

theorem sendPast_record {s : State} {g : Grp} {m : Migration} {opc : Nat} (hm : grpMode s g.key = 0) (hg : m.g = g.g) :
    RecordSent s (sendPast s (g.key / 4) m opc) g (recBytes (m.record opc)) := by
  have key : 4 * (g.key / 4) + m.g.val = g.key := by rw [hg, ← Grp.key_mod]; omega
  obtain ⟨out, link⟩ := sendIdle_record hm (recBytes (m.record opc))
  rw [sendPast_eq, key]
  exact ⟨out, link⟩

section
variable {s : State} {p : Nat} {m x : Migration} (only : tget [] s.opt.migs p = [x]) (hx : SameMove m x)

theorem failedMove_frame (s : State) (p : Nat) (m : Migration) : failedMove s p m = { s with
    lanes := (failedMove s p m).lanes
    opt := { s.opt with migs := (failedMove s p m).opt.migs, past := (failedMove s p m).opt.past } } := rfl

theorem failedMove_lane (s : State) (p : Nat) (m : Migration) : laneAt (failedMove s p m) p m.new.val =
    { laneAt s p m.new.val with role := .failed, laser := (laneAt s p m.new.val).laser.down } := getLane_setLane _ _ _

include only hx

theorem failedMove_migs : tget [] (failedMove s p m).opt.migs p = [] := migs_dropMig_only only hx

/-- The lane given up is not free, and the others are as free as before. -/
theorem failedMove_freeLane (none : freeLane s p = none) : freeLane (failedMove s p m) p = Option.none := by
  refine List.find?_eq_none.2 fun l hl free => List.find?_eq_none.1 none l hl ?_
  rw [laneFree, Bool.and_eq_true, Bool.and_eq_true, beq_iff_eq] at free
  obtain ⟨⟨role, unpinned⟩, -⟩ := free
  have other : l ≠ m.new.val := by
    rintro rfl
    rw [laneRole, failedMove_lane] at role
    split at role <;> cases role
  have lane : laneAt (failedMove s p m) p l = laneAt s p l := getLane_setLane_ne _ _ (by omega)
  have unmoved : migNew s p l = Option.none := by
    rw [migNew, only, List.find?_cons_of_neg]
    · rfl
    · rw [hx.2.2, decide_eq_true_eq]
      exact fun e => other e.symm
  rw [laneFree, unmoved, Bool.and_eq_true, Bool.and_eq_true, beq_iff_eq]
  exact ⟨⟨(laneRole_congr (s := s) (t := failedMove s p m) rfl (by rw [lane])).symm.trans role, unpinned⟩, rfl⟩

theorem giveUpMig_stays (h : m.init = false ∨ (freeLane s p = none ∧ s.opt.calOn = none)) :
    giveUpMig s p m = failedMove s p m := by
  rw [giveUpMig_eq]
  split
  case isFalse => rfl
  case isTrue init =>
    obtain ⟨none, off⟩ := h.resolve_left (by rw [init]; decide)
    split
    case h_2 => rfl
    case h_1 g k move =>
      exact moveOff_stays (by rw [movable_port move]; exact failedMove_freeLane only hx none) off

end

theorem RecordSent.congr_start {s u t : State} {g : Grp} {pay : List Byte} (h : RecordSent u t g pay) (hr : u.regs = s.regs)
    (ho : u.out = s.out) (hl : getLink u g.key = getLink s g.key) : RecordSent s t g pay where
  out := by
    rw [h.out, ho, hl, sealFlit_congr (s := s) hr (by rw [hl]) (by rw [hl]) (by rw [hl]) (by rw [hl])]
  link := by rw [h.link, hl]

/-! ## ABORT -/

section
variable {g : Grp} {r : LaneRec} {s : State} {m : Migration} (up : (getLink s g.key).st = .up)
  (two : grpMode s g.key = 0) (ends : (getLink s g.key).role ≠ 2) (only : tget [] s.opt.migs (g.key / 4) = [m])
  (named : migOf s g.key r = some m)

include up two ends named in
theorem exec_abort_eq (half : 3 ∉ m.got) : exec (.abort g r) s = .next (if m.init then giveUpMig s (g.key / 4) m
    else takePast (giveUpMig s (g.key / 4) m) g.key { r with opc := 5 }) := by
  refine congrArg Host.Outcome.next ((onRec_eq up two ends _).trans ?_)
  show takeAbort s g.key { r with opc := 5 } = _
  unfold takeAbort
  rw [show migOf s g.key { r with opc := 5 } = some m from named]
  exact if_neg (by simp [half])

include named in
/-- The ended migration is the one that the record names. -/
theorem pastOf_failedMove (opc : Nat) : pastOf (failedMove s (g.key / 4) m) g.key { r with opc := opc } = some m := by
  obtain ⟨txn, grp, new, old, slot⟩ := migOf_fields named
  have kept : tget none (failedMove s (g.key / 4) m).opt.past (16 * (g.key / 4) + 4 * (g.key % 4) + r.slot.val) = some m := by
    rw [← grp, ← slot]
    show tget none (tput none s.opt.past (m.key (g.key / 4)) (some m)) (m.key (g.key / 4)) = some m
    exact tget_tput_self _ _ _ _
  unfold pastOf
  rw [kept]
  exact if_pos ⟨txn, new, old⟩

include named in
theorem takePast_failedMove (answers : m.init = false) : takePast (failedMove s (g.key / 4) m) g.key { r with opc := 5 } =
    sendPast (failedMove s (g.key / 4) m) (g.key / 4) m 5 := by
  unfold takePast
  rw [pastOf_failedMove named 5]
  refine (if_neg (show ¬ (5 : Nat) = 3 by decide)).trans ((if_pos (.inl rfl)).trans (if_neg ?_))
  rw [answers]
  decide

include up two ends only named in
theorem exec_abort_spec (half : 3 ∉ m.got) (h : m.init = false ∨ (freeLane s (g.key / 4) = none ∧ s.opt.calOn = none)) :
    ∃ t, exec (.abort g r) s = .next t ∧ tget [] t.opt.migs (g.key / 4) = [] ∧
      (getLane t (18 * (g.key / 4) + m.new)).role = .failed ∧ (getLane t (18 * (g.key / 4) + m.new)).laser ≠ .full ∧
      (m.init = true → t.out = s.out ∧ getLink t g.key = getLink s g.key) ∧
      (m.init = false → RecordSent s t g (recBytes (m.record 5))) ∧
      t = { s with
        lanes := t.lanes, links := t.links, out := t.out,
        opt := { s.opt with migs := t.opt.migs, past := t.opt.past } } := by
  have run := exec_abort_eq up two ends named half
  have gone := failedMove_migs only (sameMove_refl m)
  have lane := failedMove_lane s (g.key / 4) m
  have frame := failedMove_frame s (g.key / 4) m
  rw [giveUpMig_stays only (sameMove_refl m) h] at run
  cases init : m.init with
  | true =>
    rw [init, if_pos rfl] at run
    refine ⟨_, run, gone, congrArg Lane.role lane, ?_, fun _ => ⟨rfl, rfl⟩, fun h => (nomatch h), frame⟩
    exact fun h => down_ne_full _ ((congrArg Lane.laser lane).symm.trans h)
  | false =>
    rw [init, if_neg (by decide), takePast_failedMove named init] at run
    have sent := sendPast_record (s := failedMove s (g.key / 4) m) (opc := 5) two (grp_of_named named)
    have framed := sendPast_frame (failedMove s (g.key / 4) m) (g.key / 4) m 5
    have same : getLink (failedMove s (g.key / 4) m) g.key = getLink s g.key := rfl
    generalize failedMove s (g.key / 4) m = u at *
    have lanes : (sendPast u (g.key / 4) m 5).lanes = u.lanes := by rw [framed]
    have migs : (sendPast u (g.key / 4) m 5).opt.migs = u.opt.migs := by rw [framed]
    refine ⟨_, run, by rw [migs]; exact gone, ?_, ?_, fun h => (nomatch h), fun _ => ?_, ?_⟩
    · rw [getLane, lanes]
      exact congrArg Lane.role lane
    · rw [getLane, lanes]
      exact fun h => down_ne_full _ ((congrArg Lane.laser lane).symm.trans h)
    · exact sent.congr_start (by rw [frame]) (by rw [frame]) (by rw [frame]; rfl)
    · rw [framed, frame]

end

/-! ## Limits and repetitions (R318, R319) -/

section
variable {p : Fin 6} {m : Migration} {s : State} (only : tget [] s.opt.migs p = [m])

/-- A lane of the calibration abandoned is free again (R320). -/
def calBack (s : State) (p i : Nat) : State :=
  if (laneAt s p i).role = .calibrating then
    setLaneAt s p i { laneAt s p i with
      role := .free, ring := .sweep, ringAt := s.clk.dst, sweeps := 0, laser := (laneAt s p i).laser.down }
  else s

theorem abortCal_some {x : CellId} (h : s.opt.calOn = some x) : abortCal s = freeCounter
    { calBack (calBack s (2 * x.axis.val) x.i.val) (2 * x.axis.val + 1) x.i.val with
      opt := { (calBack (calBack s (2 * x.axis.val) x.i.val) (2 * x.axis.val + 1) x.i.val).opt with calOn := none } } := by
  unfold abortCal
  rw [h]
  rfl

theorem calBack_frame (s : State) (q i : Nat) : calBack s q i = { s with lanes := (calBack s q i).lanes } := by
  unfold calBack
  split <;> rfl

theorem calBack_failed (s : State) (q i : Nat) {k : Nat} (h : (getLane s k).role = .failed) :
    (getLane (calBack s q i) k).role = .failed := by
  unfold calBack
  split
  case isTrue cal =>
    have other : k ≠ 18 * q + i := by
      rintro rfl
      exact absurd (h.symm.trans cal) (by decide)
    exact (congrArg Lane.role (getLane_setLane_ne s _ other)).trans h
  case isFalse => exact h

theorem freeCounter_frame (s : State) : freeCounter s = { s with clk := (freeCounter s).clk } := by
  unfold freeCounter
  split <;> rfl

/-- A calibration abandoned leaves failed lanes failed, and changes no migration and nothing sent. -/
theorem abortCal_keeps (s : State) : (abortCal s).opt.migs = s.opt.migs ∧ (abortCal s).out = s.out ∧
    ∀ k, (getLane s k).role = .failed → (getLane (abortCal s) k).role = .failed := by
  cases on : s.opt.calOn with
  | none =>
    have none : abortCal s = s := by
      unfold abortCal
      rw [on]
    rw [none]
    exact ⟨rfl, rfl, fun _ h => h⟩
  | some x =>
    rw [abortCal_some on, freeCounter_frame]
    refine ⟨?_, ?_, fun k h => calBack_failed _ _ _ (calBack_failed _ _ _ h)⟩
    · rw [calBack_frame, calBack_frame s]
    · rw [calBack_frame, calBack_frame s]

/-- With no free lane at most a calibration is abandoned. -/
theorem moveOff_unfree {s : State} {g k i : Nat} {cal : Bool} (none : freeLane s (g / 4) = none) :
    moveOff s g k i cal = s ∨ moveOff s g k i cal = abortCal s := by
  unfold moveOff
  dsimp only
  rw [none]
  cases s.opt.calOn with
  | none => exact .inl rfl
  | some x => exact (ite_eq_or_eq _ _ _).symm

include only in
/-- A migration given up without a free lane ends, and its new lane is failed. -/
theorem giveUpMig_alone {x : Migration} (hx : SameMove x m) (none : freeLane s p = none) :
    tget [] (giveUpMig s p x).opt.migs p = [] ∧ (getLane (giveUpMig s p x) (18 * p.val + x.new)).role = .failed ∧
    (giveUpMig s p x).out = s.out := by
  have gone := failedMove_migs only hx
  have failed : (getLane (failedMove s p x) (18 * p.val + x.new)).role = .failed := congrArg Lane.role (failedMove_lane s p x)
  have unfree := failedMove_freeLane only hx none
  have out : (failedMove s p x).out = s.out := rfl
  rw [giveUpMig_eq]
  generalize failedMove s p x = u at *
  split
  case isFalse => exact ⟨gone, failed, out⟩
  case isTrue =>
    split
    case h_2 => exact ⟨gone, failed, out⟩
    case h_1 g k move =>
      rcases moveOff_unfree (k := k) (i := x.old.val) (cal := x.cal) (by rw [movable_port move]; exact unfree) with e | e
      · rw [e]
        exact ⟨gone, failed, out⟩
      · obtain ⟨migs, sent, kept⟩ := abortCal_keeps u
        rw [e]
        exact ⟨by rw [migs, gone], kept _ failed, sent.trans out⟩

include only in
/-- A record sent for a migration leaves the free lanes free. -/
theorem freeLane_sendRec (opc : Nat) : freeLane (sendRec s p m opc) p = freeLane s p := by
  have frame := sendRec_frame s p m opc
  have only' := migs_sendRec_only (opc := opc) only (sameMove_refl m)
  generalize sendRec s p m opc = t at *
  have same (l : Nat) : laneFree t p l = laneFree s p l := by
    have role : laneRole t p l = laneRole s p l := by rw [frame]; rfl
    have pins : pinned t p l = pinned s p l := by rw [frame]; rfl
    have moves : (migNew t p l).isNone = (migNew s p l).isNone := by
      rw [migNew, migNew, only, only', List.find?_singleton, List.find?_singleton]
      show (if decide (m.new.val = l) = true then some (sentNoted m opc s.clk.dst) else none).isNone = _
      split <;> rfl
    rw [laneFree, role, pins, moves]
    rfl
  rw [freeLane, freeLane, funext same]

include only in
theorem exec_migrationTimeout_spec (init : m.init = true) (not : 2 ∉ m.got ∨ 2 ∉ m.sent)
    (due : m.start + 60000000 ≤ s.clk.dst) (none : freeLane s p = none) :
    ∃ t, exec (.migrationTimeout p m.txn) s = .next t ∧ tget [] t.opt.migs p = [] ∧
      (getLane t (18 * p.val + m.new)).role = .failed ∧ t.out ≠ s.out := by
  have found : (tget [] s.opt.migs p.val).find? (fun x => x.init && decide (x.txn = m.txn)
      && !(x.got.contains 2 && x.sent.contains 2) && decide (x.start + 10 * msTicks ≤ s.clk.dst)) = some m := by
    have waits : (m.got.contains 2 && m.sent.contains 2) = false := by
      rcases not with h | h <;> simp [h]
    rw [only, List.find?_cons_of_pos]
    rw [init, decide_eq_true rfl, waits, decide_eq_true (show m.start + 10 * msTicks ≤ s.clk.dst from due)]
    rfl
  have run : exec (.migrationTimeout p m.txn) s =
      .next (giveUpMig (sendRec s p m 5) p { m with sent := 5 :: m.sent, sentAt := (sendRec s p m 5).clk.dst }) := by
    refine congrArg Host.Outcome.next ?_
    rw [found]
  have frame := sendRec_frame s p m 5
  have only' := migs_sendRec_only (opc := 5) only (sameMove_refl m)
  have free : freeLane (sendRec s p m 5) p = Option.none := (freeLane_sendRec only 5).trans none
  obtain ⟨gone, failed, out⟩ := giveUpMig_alone (x := { m with sent := 5 :: m.sent, sentAt := (sendRec s p m 5).clk.dst })
    only' ⟨rfl, rfl, rfl⟩ free
  exact ⟨_, run, gone, failed, by rw [out]; exact sendRec_out s p m 5⟩

include only in
theorem exec_laneRecordRepeat_live {opc : Nat} (waits : unanswered m = some opc) (due : m.sentAt + 60000 ≤ s.clk.dst)
    (may : opc ≠ 3 ∨ atBoundary (getLink s (4 * p.val + m.g)) = true) :
    ∃ t, exec (.laneRecordRepeat p m.txn) s = .next t ∧ t.out ≠ s.out ∧
      tget [] t.opt.migs p = [sentNoted m opc s.clk.dst] ∧
      t = { s with links := t.links, out := t.out, opt := { s.opt with migs := t.opt.migs } } := by
  have found : repeatOf s p m.txn = some (true, m, opc) := by
    unfold repeatOf
    dsimp only
    rw [only, List.findSome?_cons, waits]
    dsimp only
    rw [if_pos ⟨rfl, due, rfl⟩]
  have run : exec (.laneRecordRepeat p m.txn) s = .next (sendRec s p m opc) := by
    show execLaneRecordRepeat p m.txn s = _
    unfold execLaneRecordRepeat
    rw [found]
    dsimp only
    rw [if_neg (by rintro ⟨h, k⟩; exact may.elim (fun e => e h) k), if_pos rfl]
  exact ⟨_, run, sendRec_out s p m opc, migs_sendRec_only only (sameMove_refl m), sendRec_frame s p m opc⟩

theorem exec_laneRecordRepeat_past {txn : W32} {opc : Nat} (found : repeatOf s p txn = some (false, m, opc))
    (up : (getLink s (4 * p.val + m.g)).st = .up) :
    ∃ t, exec (.laneRecordRepeat p txn) s = .next t ∧ t.out ≠ s.out ∧
      tget none t.opt.past (m.key p) = some (sentNoted m opc s.clk.dst) ∧
      t = { s with links := t.links, out := t.out, opt := { s.opt with past := t.opt.past } } := by
  have ended : opc ≠ 3 := by
    unfold repeatOf at found
    dsimp only at found
    split at found
    · cases found
    · obtain ⟨⟨x, o⟩, past, e⟩ := Option.map_eq_some_iff.1 found
      obtain ⟨y, -, due⟩ := List.exists_of_findSome?_eq_some past
      cases e
      split at due
      case h_2 => cases due
      case h_1 =>
        split at due
        case isFalse => cases due
        case isTrue cond =>
          cases due
          obtain ⟨-, -, ok⟩ := cond
          rintro rfl
          exact absurd ok (by decide)
  have run : exec (.laneRecordRepeat p txn) s = .next (sendPast s p m opc) := by
    show execLaneRecordRepeat p txn s = _
    unfold execLaneRecordRepeat
    rw [found]
    dsimp only
    rw [if_neg (fun h => ended h.1), if_neg (by decide), if_pos up]
  exact ⟨_, run, sendPast_out s p m opc, sendPast_past s p m opc, sendPast_frame s p m opc⟩

end

end Sys2Proof
end

section
/-! PROOFS. CALDONE (R321). -/

namespace Sys2Proof

open Sys2Proof.Machine

/-- A late record of an ended migration is answered, or noted with it. -/
theorem takePast_frame (s : State) (k : Nat) (r : LaneRec) : takePast s k r = { s with
    links := (takePast s k r).links, out := (takePast s k r).out, opt := { s.opt with past := (takePast s k r).opt.past } } := by
  have still : s = { s with links := s.links, out := s.out, opt := { s.opt with past := s.opt.past } } := rfl
  unfold takePast
  dsimp only
  cases pastOf s k r with
  | none => exact still
  | some m =>
    dsimp only
    split
    · split
      · exact sendPast_frame s _ m 4
      · exact still
    · split
      · split
        · rfl
        · exact sendPast_frame s _ m r.opc
      · exact still

/-- A lane whose calibration has ended. -/
def calEnded (s : State) (p i : Nat) : State :=
  setLaneAt s p i { laneAt s p i with role := .free, laser := (laneAt s p i).laser.down }

section
variable {s : State} {p i : Nat} (cal : (laneAt s p i).role = .calibrating) (calm : ∀ x, (laneAt s p x).stage < 2)
include cal calm

theorem calFreed_eq : calFreed s p i = onFree (calEnded s p i) p := by
  unfold calFreed
  dsimp only
  exact (if_neg (not_not.2 cal)).trans (if_neg (not_le.2 (calm i)))

theorem calFreed_spec : laneAt (calFreed s p i) p i =
      { laneAt s p i with role := .free, laser := (laneAt s p i).laser.down } ∧
    (∀ q, q ≠ p → i < 18 → laneAt (calFreed s p i) q i = laneAt s q i) ∧
    calFreed s p i = { s with lanes := (calFreed s p i).lanes, opt := { s.opt with paused := (calFreed s p i).opt.paused } } := by
  have lane : laneAt (calEnded s p i) p i = { laneAt s p i with role := .free, laser := (laneAt s p i).laser.down } :=
    getLane_setLane _ _ _
  have others (k : Nat) (h : k ≠ 18 * p + i) : getLane (calEnded s p i) k = getLane s k := getLane_setLane_ne _ _ h
  have calm' : ∀ x < 18, (laneAt (calEnded s p i) p x).stage < 2 := fun x _ => by
    by_cases e : x = i
    · rw [e, lane]
      exact calm i
    · rw [laneAt, others _ (by omega)]
      exact calm x
  have freed := onFree_calm calm'
  have start : calEnded s p i = { s with lanes := (calEnded s p i).lanes } := rfl
  rw [calFreed_eq cal calm]
  generalize calEnded s p i = u at *
  generalize onFree u p = t at *
  have lanes (k : Nat) : getLane t k = getLane u k := by rw [freed]; rfl
  refine ⟨(lanes _).trans lane, fun q hq hi => (lanes _).trans (others _ (by omega)), ?_⟩
  rw [freed, start]

end

/-- The end that asked for the calibration sends CALDONE under its transaction. -/
def calSays (s : State) (k : Nat) (r : LaneRec) : State :=
  match pastOf s k r with
  | some m => if m.init ∧ (getLink s k).st = .up ∧ grpMode s k = 0 then sendPast s (k / 4) m 7 else s
  | none => s

theorem calSays_frame (s : State) (k : Nat) (r : LaneRec) : calSays s k r = { s with
    links := (calSays s k r).links, out := (calSays s k r).out, opt := { s.opt with past := (calSays s k r).opt.past } } := by
  unfold calSays
  cases pastOf s k r with
  | none => rfl
  | some m =>
    dsimp only
    split
    · exact sendPast_frame s _ m 7
    · rfl

/-- This module's calibration has ended: counted, the counter given back, and what was measured is taken. -/
def calCounted (s : State) (p i : Nat) : State :=
  measureCell { bump (freeCounter s) (at' pgOPT 0x1A0) 1 with
    opt := { (bump (freeCounter s) (at' pgOPT 0x1A0) 1).opt with calOn := none } } (p / 2) i

/-- The module's own calibration of the lane's cell runs. -/
def calMine (s : State) (k : Nat) (r : LaneRec) : Bool :=
  match s.opt.calOn with
  | some c => decide (c.axis.val = k / 4 / 2) && decide (c.i = r.old)
  | none => false

theorem calDone_theirs {s : State} {k : Nat} {r : LaneRec} (cal : (laneAt s (k / 4) r.old).role = .calibrating)
    (theirs : calMine s k r = false) : calDone s k r = takePast (calFreed s (k / 4) r.old) k r :=
  (if_neg (not_not.2 cal)).trans (if_pos (show (!calMine s k r) = true by rw [theirs]; rfl))

theorem calDone_mine {s : State} {k : Nat} {r : LaneRec} (cal : (laneAt s (k / 4) r.old).role = .calibrating)
    (mine : calMine s k r = true) : calDone s k r =
      if (laneAt (calFreed (calSays s k r) (k / 4) r.old) (2 * (k / 4 / 2)) r.old).role = .calibrating ∨
        (laneAt (calFreed (calSays s k r) (k / 4) r.old) (2 * (k / 4 / 2) + 1) r.old).role = .calibrating then
        calFreed (calSays s k r) (k / 4) r.old
      else calCounted (calFreed (calSays s k r) (k / 4) r.old) (k / 4) r.old :=
  (if_neg (not_not.2 cal)).trans (if_neg (show ¬ (!calMine s k r) = true by rw [mine]; decide))

/-- Lanes keep their roles and lasers, and nothing but lanes changes. -/
structure FadesOnly (s t : State) : Prop where
  lanes : ∀ k, (getLane t k).role = (getLane s k).role ∧ (getLane t k).laser = (getLane s k).laser
  frame : t = { s with lanes := t.lanes }

theorem fadesOnly_setLane (s : State) (k : Nat) (f : Int) : FadesOnly s (setLane s k { getLane s k with fade := f }) where
  lanes i := by
    by_cases e : i = k
    · rw [e, getLane_setLane]
      exact ⟨rfl, rfl⟩
    · rw [getLane_setLane_ne _ _ e]
      exact ⟨rfl, rfl⟩
  frame := rfl

/-- What a calibration measures of a cell leaves the roles and lasers of its lanes. -/
theorem measureCell_spec (s : State) (ax i : Nat) :
    (∀ k, (getLane (measureCell s ax i) k).role = (getLane s k).role ∧
      (getLane (measureCell s ax i) k).laser = (getLane s k).laser) ∧
    (measureCell s ax i).opt.calOn = s.opt.calOn ∧ (measureCell s ax i).clk = s.clk ∧ (measureCell s ax i).regs = s.regs := by
  have faded : FadesOnly s ([36 * ax + i, 36 * ax + 18 + i].foldl
      (fun s k => setLane s k { getLane s k with fade := Config.calFade s.draws k }) s) :=
    foldl_rel (R := FadesOnly) (fun _ => ⟨fun _ => ⟨rfl, rfl⟩, rfl⟩)
      (fun h k => ⟨fun i => ⟨(k.lanes i).1.trans (h.lanes i).1, (k.lanes i).2.trans (h.lanes i).2⟩, by rw [k.frame, h.frame]⟩)
      (fun k _ s => fadesOnly_setLane s k _) s
  unfold measureCell fresh
  dsimp only
  generalize [36 * ax + i, 36 * ax + 18 + i].foldl
      (fun s k => setLane s k { getLane s k with fade := Config.calFade s.draws k }) s = u at *
  exact ⟨faded.lanes, by rw [faded.frame], by rw [faded.frame], by rw [faded.frame]⟩

theorem freeCounter_holder (s : State) : (freeCounter s).clk.fcHolder ≠ 2 := by
  unfold freeCounter
  split
  · exact show (0 : Nat) ≠ 2 by decide
  case isFalse h => exact h

/-- The calibration is counted and over; the lanes keep their roles and lasers. -/
theorem calCounted_spec (s : State) (p i : Nat) :
    (∀ k, (getLane (calCounted s p i) k).role = (getLane s k).role ∧
      (getLane (calCounted s p i) k).laser = (getLane s k).laser) ∧
    (calCounted s p i).opt.calOn = none ∧ (calCounted s p i).clk.fcHolder ≠ 2 ∧
    reg (calCounted s p i) (at' pgOPT 0x1A0) = satAdd (reg s (at' pgOPT 0x1A0)) 1 := by
  obtain ⟨lanes, on, clk, regs⟩ := measureCell_spec { bump (freeCounter s) (at' pgOPT 0x1A0) 1 with
    opt := { (bump (freeCounter s) (at' pgOPT 0x1A0) 1).opt with calOn := none } } (p / 2) i
  have free := freeCounter_frame s
  have holder := freeCounter_holder s
  unfold calCounted
  generalize freeCounter s = u at *
  refine ⟨fun k => ?_, on, by rw [clk]; exact holder, ?_⟩
  · obtain ⟨role, laser⟩ := lanes k
    rw [role, laser, free]
    exact ⟨rfl, rfl⟩
  · rw [reg_congr regs]
    show reg (bump u (at' pgOPT 0x1A0) 1) _ = _
    rw [reg_bump, free]
    rfl

section
variable {g : Grp} {r : LaneRec} {s : State} (ends : (getLink s g.key).role ≠ 2)
  (cal : (laneAt s (g.key / 4) r.old).role = .calibrating) (calm : ∀ i, (laneAt s (g.key / 4) i).stage < 2)

include ends cal calm
theorem exec_caldone_theirs (theirs : calMine s g.key r = false) :
    ∃ t, exec (.caldone g r) s = .next t ∧ (laneAt t (g.key / 4) r.old).role = .free ∧
      (laneAt t (g.key / 4) r.old).laser ≠ .full ∧
      t = { s with
        lanes := t.lanes, links := t.links, out := t.out,
        opt := { s.opt with paused := t.opt.paused, past := t.opt.past } } := by
  have run : exec (.caldone g r) s = .next (takePast (calFreed s (g.key / 4) r.old) g.key { r with opc := 7 }) :=
    congrArg Host.Outcome.next ((if_neg ends).trans (calDone_theirs (r := { r with opc := 7 }) cal theirs))
  obtain ⟨lane, -, frame⟩ := calFreed_spec cal calm
  have past := takePast_frame (calFreed s (g.key / 4) r.old) g.key { r with opc := 7 }
  refine ⟨_, run, ?_⟩
  generalize calFreed s (g.key / 4) r.old = u at *
  generalize takePast u g.key _ = t at *
  have same : laneAt t (g.key / 4) r.old = laneAt u (g.key / 4) r.old := by rw [past]; rfl
  rw [same, lane]
  refine ⟨rfl, down_ne_full _, ?_⟩
  rw [past, frame]

theorem exec_caldone_mine {c : CellId} (on : s.opt.calOn = some c) (axis : c.axis.val = g.key / 4 / 2) (cell : c.i = r.old) :
    ∃ t, exec (.caldone g r) s = .next t ∧ (laneAt t (g.key / 4) r.old).role = .free ∧
      (laneAt t (g.key / 4) r.old).laser ≠ .full ∧
      let others := ∃ q, q / 2 = g.key / 4 / 2 ∧ q ≠ g.key / 4 ∧ (laneAt s q r.old).role = .calibrating
      (others → t.opt.calOn = some c ∧ t.regs = s.regs) ∧
      (¬ others → t.opt.calOn = none ∧ t.clk.fcHolder ≠ 2 ∧
        reg t (at' pgOPT 0x1A0) = satAdd (reg s (at' pgOPT 0x1A0)) 1) := by
  have mine : calMine s g.key { r with opc := 7 } = true := by
    unfold calMine
    rw [on]
    simp [axis, cell]
  have run : exec (.caldone g r) s = .next (calDone s g.key { r with opc := 7 }) := congrArg Host.Outcome.next (if_neg ends)
  rw [calDone_mine (r := { r with opc := 7 }) cal mine] at run
  have said := calSays_frame s g.key { r with opc := 7 }
  generalize calSays s g.key { r with opc := 7 } = u at *
  have same (q i : Nat) : laneAt u q i = laneAt s q i := by rw [said]; rfl
  obtain ⟨lane, others, frame⟩ := calFreed_spec (s := u) (p := g.key / 4) (i := r.old) (by rw [same]; exact cal)
    (fun x => by rw [same]; exact calm x)
  have iff : ((laneAt (calFreed u (g.key / 4) r.old) (2 * (g.key / 4 / 2)) r.old).role = .calibrating ∨
      (laneAt (calFreed u (g.key / 4) r.old) (2 * (g.key / 4 / 2) + 1) r.old).role = .calibrating) ↔
      ∃ q, q / 2 = g.key / 4 / 2 ∧ q ≠ g.key / 4 ∧ (laneAt s q r.old).role = .calibrating := by
    have role (q : Nat) : (laneAt (calFreed u (g.key / 4) r.old) q r.old).role = .calibrating ↔
        q ≠ g.key / 4 ∧ (laneAt s q r.old).role = .calibrating := by
      by_cases e : q = g.key / 4
      · rw [e, lane]
        exact ⟨fun h => absurd h (show ¬ LaneRole.free = .calibrating by decide), fun h => absurd rfl h.1⟩
      · rw [others q e r.old.isLt, same]
        exact ⟨fun h => ⟨e, h⟩, fun h => h.2⟩
    rw [role, role]
    constructor
    · rintro (⟨ne, h⟩ | ⟨ne, h⟩)
      · exact ⟨_, by omega, ne, h⟩
      · exact ⟨_, by omega, ne, h⟩
    · rintro ⟨q, port, ne, h⟩
      rcases (show q = 2 * (g.key / 4 / 2) ∨ q = 2 * (g.key / 4 / 2) + 1 by omega) with e | e
      · exact .inl (e ▸ ⟨ne, h⟩)
      · exact .inr (e ▸ ⟨ne, h⟩)
  rw [same] at lane
  generalize calFreed u (g.key / 4) r.old = v at *
  by_cases left : ∃ q, q / 2 = g.key / 4 / 2 ∧ q ≠ g.key / 4 ∧ (laneAt s q r.old).role = .calibrating
  · rw [if_pos (iff.2 left)] at run
    refine ⟨_, run, by rw [lane], by rw [lane]; exact down_ne_full _, fun _ => ⟨?_, ?_⟩, fun h => absurd left h⟩
    · rw [frame, said]
      exact on
    · rw [frame, said]
  · rw [if_neg (fun h => left (iff.1 h))] at run
    obtain ⟨lanes, off, holder, count⟩ := calCounted_spec v (g.key / 4) r.old
    obtain ⟨role, laser⟩ := lanes (18 * (g.key / 4) + r.old)
    refine ⟨_, run, role.trans (congrArg Lane.role lane), ?_, fun h => absurd h left, fun _ => ⟨off, holder, ?_⟩⟩
    · exact fun h => down_ne_full _ ((congrArg Lane.laser lane).symm.trans (laser.symm.trans h))
    · rw [count, frame, said]
      rfl

end

end Sys2Proof
end

section
/-! PROOFS. The start of a calibration (R320, R321), and the obligation O50. -/

namespace Sys2Proof

open Sys2Proof.Machine

/-! ## Which cell comes next -/

/-- What the choice of a cell reads besides its axis's place, and the calibration that runs. -/
structure CalLike (s u : State) : Prop where
  lanes : u.lanes = s.lanes
  cells : u.cells = s.cells
  migs  : u.opt.migs = s.opt.migs
  pins  : ∀ p < 6, ∀ l, pinned u p l = pinned s p l
  calOn : u.opt.calOn = s.opt.calOn

namespace CalLike

section
variable {s u v : State}

theorem refl (s : State) : CalLike s s := ⟨rfl, rfl, rfl, fun _ _ _ => rfl, rfl⟩

theorem trans (h : CalLike s u) (k : CalLike u v) : CalLike s v :=
  ⟨k.lanes.trans h.lanes, k.cells.trans h.cells, k.migs.trans h.migs, fun p hp l => (k.pins p hp l).trans (h.pins p hp l),
    k.calOn.trans h.calOn⟩

variable (h : CalLike s u)
include h

theorem laneFree {p : Nat} (hp : p < 6) (l : Nat) : Machine.laneFree u p l = Machine.laneFree s p l := by
  have role : laneRole u p l = laneRole s p l :=
    laneRole_congr (by simp only [cellAt, getCell, h.cells]) (by simp only [laneAt, getLane, h.lanes])
  have moves : migNew u p l = migNew s p l := by rw [migNew, h.migs]; rfl
  rw [Machine.laneFree, role, h.pins p hp, moves]
  rfl

theorem spareBeside {p : Nat} (hp : p < 6) (i : Nat) : Machine.spareBeside u p i = Machine.spareBeside s p i := by
  unfold Machine.spareBeside
  simp only [h.laneFree hp]

theorem calPick {a : Nat} (ha : a < 3) (next : tget 0 u.opt.calNext a = tget 0 s.opt.calNext a) :
    Machine.calPick u a = Machine.calPick s a := by
  have cell (i : Nat) : getCell u (18 * a + i) = getCell s (18 * a + i) := by simp only [getCell, h.cells]
  unfold Machine.calPick calEligible
  simp only [next, cell, h.pins (2 * a) (by omega), h.pins (2 * a + 1) (by omega)]

end

end CalLike

/-- The search goes on with the next axis. -/
def nextAxis (s : State) (ax : Nat) : State := { s with opt := { s.opt with calAxis := (ax + 1) % 3 } }

/-- The chosen cell's calibration runs. -/
def calStarted (s : State) (ax i : Nat) : State :=
  { calTurn s ax (i + 1) with opt := { (calTurn s ax (i + 1)).opt with
      calOn := some ⟨Fin.ofNat 3 ax, Fin.ofNat 18 i⟩, paused := tput false (calTurn s ax (i + 1)).opt.paused ax false } }

section
variable {s : State} {n ax i : Nat} (hax : s.opt.calAxis % 3 = ax)
include hax

theorem calNextCell_none (h : calPick s ax = none) : calNextCell (n + 1) s = calNextCell n (nextAxis (calTurn s ax 0) ax) := by
  subst hax
  rw [calNextCell]
  dsimp only
  rw [h]
  rfl

theorem calNextCell_pauses (h : calPick s ax = some i) (hb : (spareBeside s (2 * ax) i && spareBeside s (2 * ax + 1) i) = false) :
    calNextCell (n + 1) s = calNextCell n (nextAxis (calPause s ax i) ax) := by
  subst hax
  rw [calNextCell]
  dsimp only
  rw [h]
  exact if_pos (by rwa [Bool.and_eq_false_iff, ← Bool.not_eq_true', ← Bool.not_eq_true'] at hb)

theorem calNextCell_starts (h : calPick s ax = some i) (hb : (spareBeside s (2 * ax) i && spareBeside s (2 * ax + 1) i) = true) :
    calNextCell (n + 1) s = calTake (calTake (claimCounter (calStarted s ax i)) (2 * ax) i) (2 * ax + 1) i := by
  subst hax
  rw [calNextCell]
  dsimp only
  rw [h]
  obtain ⟨a, b⟩ := Bool.and_eq_true_iff.1 hb
  exact if_neg (by rw [a, b]; decide)

end

theorem claimCounter_spec (s : State) : (claimCounter s).clk.fcHolder = 2 ∧
    claimCounter s = { s with
      clk := (claimCounter s).clk, regs := (claimCounter s).regs, out := (claimCounter s).out } := by
  unfold claimCounter
  dsimp only
  split
  · obtain ⟨_, _, raised⟩ := raiseInt_touches { s with clk := { s.clk with fcHolder := 2, fcState := 3 } } pgCLK 0
    rw [raised]
    exact ⟨rfl, rfl⟩
  · exact ⟨rfl, rfl⟩

/-- Both lanes of the cell are free when its calibration starts. -/
theorem calStarts_spec {s : State} {ax i : Nat} (fa : (laneAt s (2 * ax) i).role = .free)
    (fb : (laneAt s (2 * ax + 1) i).role = .free) :
    let t := calTake (calTake (claimCounter (calStarted s ax i)) (2 * ax) i) (2 * ax + 1) i
    t.opt = (calStarted s ax i).opt ∧ (laneAt t (2 * ax) i).role = .calibrating ∧
    (laneAt t (2 * ax + 1) i).role = .calibrating ∧ t.clk.fcHolder = 2 := by
  obtain ⟨holder, frame⟩ := claimCounter_spec (calStarted s ax i)
  have lane (q : Nat) : laneAt (claimCounter (calStarted s ax i)) q i = laneAt s q i := by rw [frame]; rfl
  generalize claimCounter (calStarted s ax i) = u at *
  have first : calTake u (2 * ax) i = setLaneAt u (2 * ax) i { laneAt u (2 * ax) i with role := .calibrating } := by
    unfold calTake
    rw [lane, fa]
  have other : laneAt (calTake u (2 * ax) i) (2 * ax + 1) i = laneAt u (2 * ax + 1) i := by
    rw [first]
    exact getLane_setLane_ne _ _ (by omega)
  have second : calTake (calTake u (2 * ax) i) (2 * ax + 1) i =
      setLaneAt (calTake u (2 * ax) i) (2 * ax + 1) i { laneAt u (2 * ax + 1) i with role := .calibrating } := by
    rw [← other]
    generalize calTake u (2 * ax) i = v at *
    unfold calTake
    rw [other, lane, fb]
  intro t
  have opt : u.opt = (calStarted s ax i).opt := by rw [frame]
  refine ⟨?_, ?_, ?_, ?_⟩
  · show (calTake (calTake u (2 * ax) i) (2 * ax + 1) i).opt = _
    rw [second, first]
    exact opt
  · show (laneAt (calTake (calTake u (2 * ax) i) (2 * ax + 1) i) (2 * ax) i).role = _
    rw [second]
    refine (congrArg Lane.role (getLane_setLane_ne _ _ (by omega))).trans ?_
    rw [first]
    exact congrArg Lane.role (getLane_setLane u _ _)
  · show (laneAt (calTake (calTake u (2 * ax) i) (2 * ax + 1) i) (2 * ax + 1) i).role = _
    rw [second]
    exact congrArg Lane.role (getLane_setLane _ _ _)
  · show (calTake (calTake u (2 * ax) i) (2 * ax + 1) i).clk.fcHolder = 2
    rw [second, first]
    exact holder

/-! ## Axes without a cell, and axes that pause -/

theorem calLike_turn (s : State) (ax next : Nat) : CalLike s (nextAxis (calTurn s ax next) ax) :=
  ⟨rfl, rfl, rfl, fun _ _ _ => rfl, rfl⟩

theorem calNext_turn_self (s : State) (ax next : Nat) : tget 0 (calTurn s ax next).opt.calNext ax = next :=
  tget_tput_self 0 s.opt.calNext ax next

theorem calNext_turn_ne (s : State) {a ax : Nat} (next : Nat) (h : a ≠ ax) :
    tget 0 (calTurn s ax next).opt.calNext a = tget 0 s.opt.calNext a := tget_tput_ne 0 0 s.opt.calNext next h

/-- The axis that pauses is noted, and logged the first time. -/
theorem calPause_spec (s : State) (ax i : Nat) :
    calPause s ax i = { s with
      regs := (calPause s ax i).regs, ldg := (calPause s ax i).ldg
      opt := { s.opt with paused := tput false s.opt.paused ax true } } ∧
    RegsKept s (calPause s ax i) [at' pgLDG 0x10C] ∧
    (tget false s.opt.paused ax = true → (calPause s ax i).ldg = s.ldg) := by
  let u : State := { s with opt := { s.opt with paused := tput false s.opt.paused ax true } }
  have eq : calPause s ax i = if tget false s.opt.paused ax = true then u else optPost u sevWarning 0x0D07 (2 * ax) i 0 := rfl
  rw [eq]
  by_cases was : tget false s.opt.paused ax = true
  · rw [if_pos was]
    exact ⟨rfl, fun _ _ => rfl, fun _ => rfl⟩
  · rw [if_neg was]
    have kept : RegsKept u (optPost u sevWarning 0x0D07 (2 * ax) i 0) [at' pgLDG 0x10C] := post_regs _ _ _ _ _ _ _
    obtain ⟨-, frame⟩ := optPost_spec u sevWarning 0x0D07 (2 * ax) i 0
    refine ⟨?_, kept, fun h => absurd h was⟩
    rw [frame]

theorem calLike_pause (s : State) (ax i : Nat) : CalLike s (nextAxis (calPause s ax i) ax) := by
  obtain ⟨frame, kept, -⟩ := calPause_spec s ax i
  have pins (p : Nat) (hp : p < 6) (l : Nat) : pinned (calPause s ax i) p l = pinned s p l := by
    rw [pinned, kept _ (by simp [at', pgLDG, pgOPT]; omega)]
    rfl
  refine ⟨?_, ?_, ?_, pins, ?_⟩ <;> unfold nextAxis <;> rw [frame]

section
variable {s : State} {a i : Nat}

/-- Axis `a` stands at cell `i` without a free lane beside it, and pauses. -/
structure Stuck (s : State) (a i : Nat) : Prop where
  axis   : a < 3
  pick   : calPick s a = some i
  tight  : (spareBeside s (2 * a) i && spareBeside s (2 * a + 1) i) = false
  paused : tget false s.opt.paused a = true

theorem Stuck.congr {t : State} (h : Stuck s a i) (k : CalLike s t) (next : tget 0 t.opt.calNext a = tget 0 s.opt.calNext a)
    (paused : tget false t.opt.paused a = true) : Stuck t a i where
  axis := h.axis
  pick := by rw [k.calPick h.axis next, h.pick]
  tight := by
    have ha := h.axis
    rw [k.spareBeside (by omega), k.spareBeside (by omega), h.tight]
  paused := paused

/-- A lane taken for calibration leaves what paused. -/
theorem calTake_paused (s : State) (p i : Nat) : (calTake s p i).opt.paused = s.opt.paused := by
  unfold calTake
  split
  · rfl
  · split
    · split
      · rw [startMig_eq, tryRise_frame, sendRec_frame]
        rfl
      · rfl
    · rfl
  · rfl

/-- An axis that pauses is still paused when the search has gone round the others. -/
theorem Stuck.stays {n : Nat} (h : Stuck s a i) : tget false (calNextCell n s).opt.paused a = true := by
  induction n generalizing s with
  | zero => exact h.paused
  | succ n ih =>
    cases pick : calPick s (s.opt.calAxis % 3) with
    | none =>
      have other : a ≠ s.opt.calAxis % 3 := by
        rintro rfl
        cases pick.symm.trans h.pick
      rw [calNextCell_none rfl pick]
      exact ih (h.congr (calLike_turn s _ 0) (calNext_turn_ne s 0 other) h.paused)
    | some k =>
      cases beside : spareBeside s (2 * (s.opt.calAxis % 3)) k && spareBeside s (2 * (s.opt.calAxis % 3) + 1) k with
      | false =>
        have frame := (calPause_spec s (s.opt.calAxis % 3) k).1
        rw [calNextCell_pauses rfl pick beside]
        refine ih (h.congr (calLike_pause s _ k) ?_ ?_)
        · show tget 0 (calPause s (s.opt.calAxis % 3) k).opt.calNext a = _
          rw [frame]
        · show tget false (calPause s (s.opt.calAxis % 3) k).opt.paused a = true
          rw [frame]
          show tget false (tput false s.opt.paused (s.opt.calAxis % 3) true) a = true
          rw [tget_tput]
          split
          · rfl
          · exact h.paused
      | true =>
        have other : a ≠ s.opt.calAxis % 3 := by
          intro e
          rw [← e] at pick beside
          cases pick.symm.trans h.pick
          rw [h.tight] at beside
          cases beside
        rw [calNextCell_starts rfl pick beside, calTake_paused, calTake_paused, (claimCounter_spec _).2]
        show tget false (tput false s.opt.paused (s.opt.calAxis % 3) false) a = true
        rw [tget_tput_ne _ _ _ _ other, h.paused]

/-- The search that begins now. -/
def calBegun (s : State) : State := { s with opt := { s.opt with calAt := s.clk.dst } }

theorem exec_calibrationStart_eq (on : bit (reg s (at' pgOPT 0x100)) 0 = true) (off : s.opt.calOn = none)
    (loc : s.bup.isLocal = true) (due : s.opt.calAt + (reg s (at' pgOPT 0x104)).toNat * 6000000 ≤ s.clk.dst) :
    exec .calibrationStart s = .next (calNextCell 4 (calBegun s)) := by
  refine congrArg Host.Outcome.next (if_neg ?_)
  rw [on, off, loc]
  rintro (h | h | h | h)
  · cases h
  · cases h
  · cases h
  · exact absurd due (not_le.2 h)

/-- The next cell with a free lane beside its own on both ports starts. -/
theorem exec_calibrationStart_starts (on : bit (reg s (at' pgOPT 0x100)) 0 = true) (off : s.opt.calOn = none)
    (loc : s.bup.isLocal = true) (due : s.opt.calAt + (reg s (at' pgOPT 0x104)).toNat * 6000000 ≤ s.clk.dst)
    (pick : calPick s a = some i)
    (turn : a = s.opt.calAxis % 3 ∨ (a = (s.opt.calAxis % 3 + 1) % 3 ∧ calPick s (s.opt.calAxis % 3) = none))
    (beside : (spareBeside s (2 * a) i && spareBeside s (2 * a + 1) i) = true)
    (fa : (laneAt s (2 * a) i).role = .free) (fb : (laneAt s (2 * a + 1) i).role = .free) :
    ∃ t, exec .calibrationStart s = .next t ∧ t.opt.calOn = some (CellId.mk (Fin.ofNat 3 a) (Fin.ofNat 18 i)) ∧
      (laneAt t (2 * a) i).role = .calibrating ∧ (laneAt t (2 * a + 1) i).role = .calibrating ∧
      t.clk.fcHolder = 2 ∧ t.opt.calAt = s.clk.dst ∧ t.opt.calAxis = a ∧ tget 0 t.opt.calNext a = i + 1 := by
  have run := exec_calibrationStart_eq on off loc due
  obtain ⟨n, u, steps, like, begun, axis, next⟩ : ∃ n u, calNextCell 4 (calBegun s) = calNextCell (n + 1) u ∧ CalLike s u ∧
      u.opt.calAt = s.clk.dst ∧ u.opt.calAxis % 3 = a ∧ tget 0 u.opt.calNext a = tget 0 s.opt.calNext a := by
    rcases turn with now | ⟨now, none⟩
    · exact ⟨3, calBegun s, rfl, ⟨rfl, rfl, rfl, fun _ _ _ => rfl, rfl⟩, rfl, now.symm, rfl⟩
    · refine ⟨2, nextAxis (calTurn (calBegun s) (s.opt.calAxis % 3) 0) (s.opt.calAxis % 3),
        calNextCell_none (s := calBegun s) rfl none, ⟨rfl, rfl, rfl, fun _ _ _ => rfl, rfl⟩, rfl, ?_, ?_⟩
      · show (s.opt.calAxis % 3 + 1) % 3 % 3 = a
        omega
      · exact calNext_turn_ne (calBegun s) 0 (by omega)
  have ha : a < 3 := by omega
  have pick' : calPick u a = some i := (like.calPick ha next).trans pick
  have beside' : (spareBeside u (2 * a) i && spareBeside u (2 * a + 1) i) = true := by
    rw [like.spareBeside (by omega), like.spareBeside (by omega), beside]
  rw [steps, calNextCell_starts axis pick' beside'] at run
  have lane (q : Nat) : laneAt u q i = laneAt s q i := by simp only [laneAt, getLane, like.lanes]
  obtain ⟨opt, ra, rb, holder⟩ := calStarts_spec (s := u) (ax := a) (i := i) (by rw [lane, fa]) (by rw [lane, fb])
  refine ⟨_, run, by rw [opt]; rfl, ra, rb, holder, by rw [opt]; exact begun, by rw [opt]; rfl, ?_⟩
  rw [opt]
  exact calNext_turn_self u a (i + 1)

/-- After an axis without a cell the search goes on. -/
theorem Stuck.passes {n b : Nat} (h : Stuck s a i) (axis : s.opt.calAxis % 3 = b) (other : b ≠ a) (none : calPick s b = none) :
    calNextCell (n + 1) s = calNextCell n (nextAxis (calTurn s b 0) b) ∧ Stuck (nextAxis (calTurn s b 0) b) a i :=
  ⟨calNextCell_none axis none, h.congr (calLike_turn s b 0) (calNext_turn_ne s 0 other.symm) h.paused⟩

/-- An axis whose next cell has no free lane beside it pauses, and with no cell on the others nothing else changes. -/
theorem exec_calibrationStart_pauses (on : bit (reg s (at' pgOPT 0x100)) 0 = true) (off : s.opt.calOn = none)
    (loc : s.bup.isLocal = true) (due : s.opt.calAt + (reg s (at' pgOPT 0x104)).toNat * 6000000 ≤ s.clk.dst)
    (pick : calPick s a = some i) (beside : (spareBeside s (2 * a) i && spareBeside s (2 * a + 1) i) = false)
    (turn : a = s.opt.calAxis % 3) :
    ∃ t, exec .calibrationStart s = .next t ∧ tget false t.opt.paused a = true ∧
      ((∀ b, b < 3 → b ≠ a → calPick s b = none) → t.opt.calOn = none ∧ t.lanes = s.lanes ∧
        (tget false s.opt.paused a = true → t.ldg = s.ldg)) := by
  have run := exec_calibrationStart_eq on off loc due
  have first : calNextCell 4 (calBegun s) = calNextCell 3 (nextAxis (calPause (calBegun s) a i) a) :=
    calNextCell_pauses turn.symm pick beside
  obtain ⟨frame, -, quiet⟩ := calPause_spec (calBegun s) a i
  have like : CalLike s (nextAxis (calPause (calBegun s) a i) a) :=
    (show CalLike s (calBegun s) from ⟨rfl, rfl, rfl, fun _ _ _ => rfl, rfl⟩).trans (calLike_pause _ a i)
  have axis : (nextAxis (calPause (calBegun s) a i) a).opt.calAxis = (a + 1) % 3 := rfl
  have ha : a < 3 := by omega
  have next (b : Nat) : tget 0 (nextAxis (calPause (calBegun s) a i) a).opt.calNext b = tget 0 s.opt.calNext b := by
    show tget 0 (calPause (calBegun s) a i).opt.calNext b = _
    rw [frame]
    rfl
  have paused : tget false (nextAxis (calPause (calBegun s) a i) a).opt.paused a = true := by
    show tget false (calPause (calBegun s) a i).opt.paused a = true
    rw [frame]
    exact tget_tput_self false s.opt.paused a true
  have ldg : (nextAxis (calPause (calBegun s) a i) a).ldg = (calPause (calBegun s) a i).ldg := rfl
  rw [first] at run
  rw [← ldg] at quiet
  generalize nextAxis (calPause (calBegun s) a i) a = u at *
  have stuck : Stuck u a i :=
    ⟨ha, (like.calPick ha (next a)).trans pick, by rw [like.spareBeside (by omega), like.spareBeside (by omega), beside], paused⟩
  refine ⟨_, run, stuck.stays, fun none => ?_⟩
  have noneB : calPick u ((a + 1) % 3) = Option.none :=
    (like.calPick (by omega) (next _)).trans (none _ (by omega) (by omega))
  obtain ⟨second, stuckB⟩ := stuck.passes (n := 2) (b := (a + 1) % 3) (by rw [axis]; omega) (by omega) noneB
  have likeB := calLike_turn u ((a + 1) % 3) 0
  have axisB : (nextAxis (calTurn u ((a + 1) % 3) 0) ((a + 1) % 3)).opt.calAxis = ((a + 1) % 3 + 1) % 3 := rfl
  have nextC : tget 0 (nextAxis (calTurn u ((a + 1) % 3) 0) ((a + 1) % 3)).opt.calNext ((a + 2) % 3) =
      tget 0 s.opt.calNext ((a + 2) % 3) := (calNext_turn_ne u 0 (by omega)).trans (next _)
  have ldgB : (nextAxis (calTurn u ((a + 1) % 3) 0) ((a + 1) % 3)).ldg = u.ldg := rfl
  generalize nextAxis (calTurn u ((a + 1) % 3) 0) ((a + 1) % 3) = v at *
  have likeV := like.trans likeB
  have noneC : calPick v ((a + 2) % 3) = Option.none :=
    (likeV.calPick (by omega) nextC).trans (none _ (by omega) (by omega))
  obtain ⟨third, stuckC⟩ := stuckB.passes (n := 1) (b := (a + 2) % 3) (by rw [axisB]; omega) (by omega) noneC
  have likeC := calLike_turn v ((a + 2) % 3) 0
  have axisC : (nextAxis (calTurn v ((a + 2) % 3) 0) ((a + 2) % 3)).opt.calAxis = ((a + 2) % 3 + 1) % 3 := rfl
  have ldgC : (nextAxis (calTurn v ((a + 2) % 3) 0) ((a + 2) % 3)).ldg = v.ldg := rfl
  generalize nextAxis (calTurn v ((a + 2) % 3) 0) ((a + 2) % 3) = w at *
  have last : calNextCell 1 w = nextAxis (calPause w a i) a :=
    calNextCell_pauses (n := 0) (by rw [axisC]; omega) stuckC.pick stuckC.tight
  have likeD := (likeV.trans likeC).trans (calLike_pause w a i)
  rw [second, third, last]
  refine ⟨likeD.calOn.trans off, likeD.lanes, fun was => ?_⟩
  exact ((calPause_spec w a i).2.2 stuckC.paused).trans (ldgC.trans (ldgB.trans (quiet was)))

end

/-! ## The obligation -/

section
variable {g : Grp} {r : LaneRec} {s : State} (up : (getLink s g.key).st = .up) (two : grpMode s g.key = 0)
  (ends : (getLink s g.key).role ≠ 2)
include up two ends

theorem exec_request_unfit {e : Instr} (he : e ∈ [Instr.request g r, .calreq g r]) (unknown : migOf s g.key r = none)
    (unfit : (getLink s g.key).lanes[r.slot.val]? ≠ some r.old ∨ laneFree s (g.key / 4) r.new = false ∨
      pinned s (g.key / 4) r.old = true) : exec e s = .next s := by
  have stays (opc : Nat) (cal : Bool) : takeRequest s g.key { r with opc := opc } cal = s := takeRequest_unfit unknown unfit
  rcases List.mem_pair.1 he with rfl | rfl
  · exact (exec_request_eq up two ends (e := (false, 1, .request g r)) List.mem_cons_self).trans
      (congrArg Host.Outcome.next (stays 1 false))
  · exact (exec_request_eq up two ends (e := (true, 6, .calreq g r)) (List.mem_cons_of_mem _ List.mem_cons_self)).trans
      (congrArg Host.Outcome.next (stays 6 true))

omit up two in
theorem exec_caldone_spec (cal : (laneAt s (g.key / 4) r.old).role = .calibrating)
    (calm : ∀ i, (laneAt s (g.key / 4) i).stage < 2) :
    ∃ t, exec (.caldone g r) s = .next t ∧ (laneAt t (g.key / 4) r.old).role = .free ∧
      (laneAt t (g.key / 4) r.old).laser ≠ .full ∧
      (s.opt.calOn = none → t = { s with
        lanes := t.lanes, links := t.links, out := t.out,
        opt := { s.opt with paused := t.opt.paused, past := t.opt.past } }) ∧
      (∀ c : CellId, s.opt.calOn = some c → c.axis.val = g.key / 4 / 2 → c.i = r.old →
        let others := ∃ q, q / 2 = g.key / 4 / 2 ∧ q ≠ g.key / 4 ∧ (laneAt s q r.old).role = .calibrating
        (others → t.opt.calOn = some c ∧ t.regs = s.regs) ∧
        (¬ others → t.opt.calOn = none ∧ t.clk.fcHolder ≠ 2 ∧
          reg t (at' pgOPT 0x1A0) = satAdd (reg s (at' pgOPT 0x1A0)) 1)) := by
  by_cases own : ∃ c, s.opt.calOn = some c ∧ c.axis.val = g.key / 4 / 2 ∧ c.i = r.old
  · obtain ⟨c, on, axis, cell⟩ := own
    obtain ⟨t, run, role, laser, ended⟩ := exec_caldone_mine ends cal calm on axis cell
    refine ⟨t, run, role, laser, fun off => ?_, fun d on' _ _ => ?_⟩
    · cases on.symm.trans off
    · cases on.symm.trans on'
      exact ended
  · have theirs : calMine s g.key r = false := by
      unfold calMine
      cases on : s.opt.calOn with
      | none => rfl
      | some c =>
        refine Bool.eq_false_iff.2 fun h => own ⟨c, on, ?_⟩
        simpa using h
    obtain ⟨t, run, role, laser, frame⟩ := exec_caldone_theirs ends cal calm theirs
    exact ⟨t, run, role, laser, fun _ => frame, fun c on axis cell => absurd ⟨c, on, axis, cell⟩ own⟩

end

/-- Settles O50: a fade by its thresholds, each record of a migration by its rule on a port's one migration, the limits and
the repetitions, and the search for the next cell to calibrate. -/
theorem fadesAndLaneRecords : Obligations.FadesAndLaneRecords := by
  unfold Obligations.FadesAndLaneRecords
  refine ⟨?_, ?_, ?_, ?_, ?_⟩
  · intro l f s x p lit hr
    refine ⟨exec_fadeMeasure_above lit hr, exec_fadeMeasure_warns lit hr, exec_fadeMeasure_reserves lit hr,
      exec_fadeMeasure_waits lit hr, ?_, exec_fadeMeasure_retires lit hr, exec_fadeMeasure_defers lit hr⟩
    intro g k n h1 h2 h0 slot found unpinned still up two free hn hk
    exact exec_fadeMeasure_moves lit hr h1 h2 h0 slot (movable_some slot found unpinned still up two) (slotOf_port found) free
      hn hk
  · intro g r s up two ends k p l now flit
    refine ⟨fun e he => exec_request_fits up two ends he, fun e he => exec_request_unfit up two ends he,
      fun m only named => ⟨?_, exec_ready_notes up two ends only named, ?_, exec_switch_spec up two ends only named,
        exec_doneRec_ends up two ends only named, exec_doneRec_notes up two ends only named, ?_⟩, exec_caldone_spec ends⟩
    · intro skew hs locked first full ring not
      obtain ⟨t, run, ⟨out, link⟩, migs⟩ := exec_alignLock_readies up two only named hs locked first full ring not
      exact ⟨t, run, ⟨out, link⟩, migs⟩
    · intro ready first boundary
      obtain ⟨t, run, ⟨out, link⟩, migs⟩ := exec_ready_switches up two ends only named ready first boundary
      exact ⟨t, run, ⟨out, link⟩, migs⟩
    · intro half h
      obtain ⟨t, run, migs, role, laser, silent, answered, frame⟩ := exec_abort_spec up two ends only named half h
      exact ⟨t, run, migs, role, laser, silent, fun init => ⟨(answered init).out, (answered init).link⟩, frame⟩
  · exact fun p m s only => ⟨exec_migrationTimeout_spec only, fun opc => exec_laneRecordRepeat_live only⟩
  · exact fun p txn m opc s found up => exec_laneRecordRepeat_past found up
  · intro a i s on off loc due pick now turn beside
    exact ⟨exec_calibrationStart_starts on off loc due pick turn, exec_calibrationStart_pauses on off loc due pick⟩

end Sys2Proof
end

section
/-! PROOFS. The host's windows and slots (R424 to R426, R368): the first half of the obligation O56. -/

namespace Sys2Proof

open Sys2Proof.Machine

/-! ## Refused accesses -/

theorem badAcc_spec (s : State) (bar off : Nat) :
    reg (badAcc s bar off) (at' pgHST 0x104) = satAdd (reg s (at' pgHST 0x104)) 1 ∧
    badAcc s bar off = { s with regs := (badAcc s bar off).regs, ldg := (badAcc s bar off).ldg } := by
  rcases badAcc_cases s bar off with ⟨-, e⟩ | ⟨-, e⟩ <;> rw [e]
  · exact ⟨reg_bump _ _ _, rfl⟩
  · obtain ⟨_, _, posted⟩ := post_touches (bump s (at' pgHST 0x104) 1) pgHST sevWarning 0x1201 0
      (BitVec.ofNat 32 (bar % 8 * 2 ^ 29 + off % 2 ^ 29)) 0
    refine ⟨?_, ?_⟩
    · exact (post_regs _ pgHST sevWarning _ _ _ _ (at' pgHST 0x104) (by decide)).trans (reg_bump _ _ _)
    · dsimp only
      rw [posted]
      rfl

theorem sealDeny_recent {s : State} {q : Nat} (h : Recent s.ldg.sealDeny s.clk.dst 6000000) :
    sealDeny s q = bump s (at' pgCUS 0x114) 1 := by
  obtain ⟨x, last, soon⟩ := h
  have last' : (bump s (at' pgCUS 0x114) 1).ldg.sealDeny = some x := last
  unfold sealDeny
  dsimp only
  rw [last']
  exact if_pos (decide_eq_true soon)

/-- The entry of a refused read, and when it was made. -/
def denialLogged (s : State) (q : Nat) : State :=
  let u := post (bump s (at' pgCUS 0x114) 1) pgCUS sevWarning 0x0F05 (owner s q) 0 0
  { u with ldg := { u.ldg with sealDeny := some u.clk.dst } }

theorem sealDeny_logs {s : State} {q : Nat} (h : ¬ Recent s.ldg.sealDeny s.clk.dst 6000000) :
    sealDeny s q = denialLogged s q := by
  unfold sealDeny
  dsimp only
  refine if_neg fun quiet => h ?_
  cases last : s.ldg.sealDeny with
  | none =>
    have last' : (bump s (at' pgCUS 0x114) 1).ldg.sealDeny = none := last
    rw [last'] at quiet
    cases quiet
  | some x =>
    have last' : (bump s (at' pgCUS 0x114) 1).ldg.sealDeny = some x := last
    rw [last'] at quiet
    exact ⟨x, rfl, of_decide_eq_true quiet⟩

/-- A refused read of a sealed quadrant is counted, and logged at most once in 1 ms (R368). -/
theorem sealDeny_spec (s : State) (q : Nat) :
    reg (sealDeny s q) (at' pgCUS 0x114) = satAdd (reg s (at' pgCUS 0x114)) 1 ∧
    RegsKept s (sealDeny s q) [at' pgCUS 0x114, at' pgLDG 0x10C] ∧
    (Recent s.ldg.sealDeny s.clk.dst 6000000 → (sealDeny s q).ldg = s.ldg) ∧
    (¬ Recent s.ldg.sealDeny s.clk.dst 6000000 → Logged s (sealDeny s q) pgCUS 1 0x0F05 (owner s q) 0 0) ∧
    sealDeny s q = { s with regs := (sealDeny s q).regs, ldg := (sealDeny s q).ldg } := by
  have ldg : (bump s (at' pgCUS 0x114) 1).ldg = s.ldg := rfl
  have count := reg_bump s (at' pgCUS 0x114) 1
  have kept := regsKept_bump s (at' pgCUS 0x114) 1
  by_cases recent : Recent s.ldg.sealDeny s.clk.dst 6000000
  · rw [sealDeny_recent recent]
    exact ⟨count, kept.mono (by simp), fun _ => rfl, fun h => absurd recent h, rfl⟩
  · rw [sealDeny_logs recent]
    have own : owner (bump s (at' pgCUS 0x114) 1) q = owner s q := rfl
    have logged := post_logged (bump s (at' pgCUS 0x114) 1) pgCUS sevWarning 0x0F05 (owner s q) 0 0
    have keptP := post_regs (bump s (at' pgCUS 0x114) 1) pgCUS sevWarning 0x0F05 (owner s q) 0 0
    obtain ⟨_, _, posted⟩ := post_touches (bump s (at' pgCUS 0x114) 1) pgCUS sevWarning 0x0F05 (owner s q) 0 0
    refine ⟨(keptP _ (by decide)).trans count, (kept.trans (keptP.of_regs_eq rfl)).mono (by simp [sevWarning]),
      fun h => absurd h recent, fun _ => logged.before rfl rfl, ?_⟩
    unfold denialLogged
    dsimp only
    rw [posted]
    rfl

/-! ## Windows -/

theorem exec_hstWinWrite_spec {s : State} (hs : Served s pgHST) (v : W32) :
    (winOk v = true → ∃ t, exec (.hstWinWrite v) s = .next t ∧ reg t (at' pgHST 0x100) = v &&& 0x1FF ∧
      RegsKept s t [at' pgHST 0x100] ∧ t = { s with regs := t.regs }) ∧
    (winOk v = false → ∃ t, exec (.hstWinWrite v) s = .next t ∧ reg t (at' pgHST 0x100) = reg s (at' pgHST 0x100) ∧
      reg t (at' pgHST 0x104) = satAdd (reg s (at' pgHST 0x104)) 1 ∧ t = { s with regs := t.regs, ldg := t.ldg }) := by
  have run : exec (.hstWinWrite v) s = .next (if winOk v then setReg s (at' pgHST 0x100) (v &&& 0x1FF)
      else badWrite s pgHST 0x100) := congrArg Host.Outcome.next (hostWrite_served hs _ _)
  refine ⟨fun ok => ?_, fun bad => ?_⟩
  · rw [if_pos ok] at run
    exact ⟨_, run, reg_setReg _ _ _, regsKept_setReg _ _ _, rfl⟩
  · rw [if_neg (by rw [bad]; decide)] at run
    obtain ⟨count, frame⟩ := badAcc_spec s 0 (at' pgHST 0x100)
    exact ⟨_, run, regsKept_badAcc s 0 (at' pgHST 0x100) _ (by decide), count, frame⟩

section
variable {off len tag : Nat} {s : State} (hb : s.bup.bar0 = true)
include hb

theorem exec_bar2Read_off (hw : bit (winReg s) 0 = false) :
    exec (.bar2Read off len tag) s = .next { s with out := .cpl 1 tag [] :: s.out } :=
  congrArg Host.Outcome.next ((if_neg (by rw [hb]; decide)).trans (if_pos (by rw [hw]; rfl)))

theorem exec_bar2Read_sealed (hw : bit (winReg s) 0 = true) (hq : pageLive s pgQP = true)
    (sealedQ : sealed s (winReq s off len tag none).q.val = true) :
    exec (.bar2Read off len tag) s =
      .next (emit (sealDeny s (winReq s off len tag none).q.val) (.cpl 1 tag [])) :=
  congrArg Host.Outcome.next ((if_neg (by rw [hb]; decide)).trans ((if_neg (by rw [hw, hq]; decide)).trans (if_pos sealedQ)))

theorem exec_bar2Read_waits (hw : bit (winReg s) 0 = true) (hq : pageLive s pgQP = true)
    (openQ : sealed s (winReq s off len tag none).q.val = false) (room : clsRoom s 5 1 = true) :
    exec (.bar2Read off len tag) s = .next { s with bar2 := s.bar2 ++ [winReq s off len tag none] } :=
  congrArg Host.Outcome.next ((if_neg (by rw [hb]; decide)).trans ((if_neg (by rw [hw, hq]; decide)).trans
    ((if_neg (by rw [openQ]; decide)).trans (if_pos room))))

theorem exec_bar2Write_off (d : List Byte) (hw : bit (winReg s) 0 = false) : exec (.bar2Write off d) s = .next s :=
  congrArg Host.Outcome.next (if_pos (by rw [hb, hw]; rfl))

theorem exec_bar2Write_waits (d : List Byte) (hw : bit (winReg s) 0 = true) (hq : pageLive s pgQP = true)
    (room : clsRoom s 5 (bar2Cells (some d)) = true) :
    exec (.bar2Write off d) s = .next { s with bar2 := s.bar2 ++ [winReq s off d.length 0 (some d)] } :=
  congrArg Host.Outcome.next ((if_neg (by rw [hb, hw, hq]; decide)).trans (if_pos room))

end

/-! ## Bytes by address -/

/-- Two bytes of a request within three stacks have two addresses. -/
theorem bar2_addr_inj {r : Bar2} {n i j : Nat} (h : r.byte + n ≤ 3 * 2 ^ 37) (hi : i < n) (hj : j < n)
    (e : r.addr i = r.addr j) : i = j := by
  unfold Bar2.addr at e
  split at e
  · unfold hbmInter hbmAddr at e
    omega
  · unfold hbmAddr at e
    omega

theorem foldl_unwritten {cs : List Host.Cell} {a : Nat} (h : ∀ c ∈ cs, c.1 ≠ a) (v : Byte) :
    cs.foldl (fun v x => if x.1 = a then x.2 else v) v = v := by
  induction cs with
  | nil => rfl
  | cons c r ih =>
    rw [List.foldl_cons, if_neg (h c List.mem_cons_self)]
    exact ih fun x hx => h x (List.mem_cons_of_mem _ hx)

/-- Where each address is written once, the byte written there reads back. -/
theorem foldl_written {cs : List Host.Cell} (once : (cs.map Prod.fst).Nodup) {c : Host.Cell} (hc : c ∈ cs) (v : Byte) :
    cs.foldl (fun v x => if x.1 = c.1 then x.2 else v) v = c.2 := by
  induction cs generalizing v with
  | nil => cases hc
  | cons x r ih =>
    obtain ⟨fresh, once⟩ := List.nodup_cons.1 once
    rw [List.foldl_cons]
    rcases List.mem_cons.1 hc with rfl | hr
    · rw [if_pos rfl]
      exact foldl_unwritten (fun y hy (e : y.1 = c.1) => fresh (by rw [← e]; exact List.mem_map_of_mem hy)) _
    · exact ih once hr _

/-- Bytes written at different addresses read back. -/
theorem rdByte_wrCells_zip (s : State) {f : Nat → Nat} {d : List Byte}
    (inj : ∀ i j, i < d.length → j < d.length → f i = f j → i = j) {i : Nat} (hi : i < d.length) :
    rdByte (wrCells s (((List.range d.length).map f).zip d)) (f i) = d.getD i 0 := by
  have once : ((((List.range d.length).map f).zip d).map Prod.fst).Nodup := by
    rw [List.map_fst_zip (by simp)]
    exact List.Nodup.map_on (fun i hi j hj e => inj i j (List.mem_range.1 hi) (List.mem_range.1 hj) e) List.nodup_range
  have mem : (f i, d.getD i 0) ∈ ((List.range d.length).map f).zip d := by
    refine List.mem_iff_getElem.2 ⟨i, by simpa using hi, ?_⟩
    simp [hi]
  rw [rdByte_wrCells]
  exact foldl_written once mem _

theorem rdByte_wrCells_zip_ne (s : State) {f : Nat → Nat} {d : List Byte} {a : Nat} (h : ∀ i, i < d.length → f i ≠ a) :
    rdByte (wrCells s (((List.range d.length).map f).zip d)) a = rdByte s a := by
  refine rdByte_wrCells_ne s _ a fun c hc => ?_
  obtain ⟨i, hi, e⟩ := List.mem_map.1 (List.of_mem_zip hc).1
  rw [← e]
  exact h i (List.mem_range.1 hi)

/-! ## Host slots (R426) -/

/-- One controller is charged for the bytes it holds. -/
def chargeStep (w : Who) (cs : List Host.Cell) (now : Nat) (a : State × Bool) (m : Nat) : State × Bool :=
  let ls := linesOf ((cs.map Prod.fst).filter (fun x =>
    decide (spaceOf x = 0) && decide (quadOf x = m / 3) && decide (stackOf x = m % 3)))
  if a.2 && !ls.isEmpty then hbmAccept a.1 w (m / 3) (m % 3) now ls.length (64 * ls.getD 0 0) else a

theorem chargeStep_taken {w : Who} {cs : List Host.Cell} {now : Nat} {a : State × Bool} {m : Nat} (h : (chargeStep w cs now a m).2 = true) :
    a.2 = true ∧ (chargeStep w cs now a m).1 = { a.1 with
      mcs := (chargeStep w cs now a m).1.mcs, regs := (chargeStep w cs now a m).1.regs } := by
  unfold chargeStep at h ⊢
  dsimp only at h ⊢
  split at h
  case isTrue on =>
    rw [if_pos on]
    obtain ⟨_, _, taken⟩ := hbmAccept_taken _ _ _ _ _ _ _ h
    rw [taken]
    exact ⟨(Bool.and_eq_true_iff.1 on).1, rfl⟩
  case isFalse off =>
    rw [if_neg off]
    exact ⟨h, rfl⟩

/-- A charge taken changes the controllers' windows and peaks alone. -/
theorem chargeCells_taken {s : State} {w : Who} {cs : List Host.Cell} (h : (chargeCells s w cs).2 = true) :
    (chargeCells s w cs).1 = { s with mcs := (chargeCells s w cs).1.mcs, regs := (chargeCells s w cs).1.regs } := by
  have fold (ms : List Nat) (a : State × Bool) (taken : (ms.foldl (chargeStep w cs s.clk.dst) a).2 = true) :
      a.2 = true ∧ (ms.foldl (chargeStep w cs s.clk.dst) a).1 = { a.1 with
        mcs := (ms.foldl (chargeStep w cs s.clk.dst) a).1.mcs, regs := (ms.foldl (chargeStep w cs s.clk.dst) a).1.regs } := by
    induction ms generalizing a with
    | nil => exact ⟨taken, rfl⟩
    | cons m ms ih =>
      obtain ⟨on, frame⟩ := ih _ taken
      obtain ⟨start, first⟩ := chargeStep_taken on
      exact ⟨start, by rw [List.foldl_cons, frame, first]⟩
  exact (fold (List.range 12) (s, true) h).2

theorem serveBar2_writes {s : State} {r : Bar2} {d : List Byte} (data : r.data = some d) : serveBar2 s r =
    if (chargeCells s (hostWho s r.q.val) (((List.range d.length).map r.addr).map (fun a => (a, 0)))).2 then
      store (chargeCells s (hostWho s r.q.val) (((List.range d.length).map r.addr).map (fun a => (a, 0)))).1 noJob
        (((List.range d.length).map r.addr).zip d)
    else (chargeCells s (hostWho s r.q.val) (((List.range d.length).map r.addr).map (fun a => (a, 0)))).1 := by
  unfold serveBar2
  rw [data]

/-- A read that the controllers took and the memory gives. -/
theorem serveBar2_reads {s : State} {r : Bar2} (data : r.data = none) : serveBar2 s r =
    let as := (List.range r.len).map r.addr
    let c := chargeCells s (hostWho s r.q.val) (as.map (fun a => (a, 0)))
    if !c.2 then emit c.1 (.cpl 4 r.tag [])
    else
      let k := readCheck c.1 noJob as
      if k.2 then emit k.1 (.cpl 0 r.tag (as.map (rdByte k.1))) else emit k.1 (.cpl 4 r.tag []) := by
  unfold serveBar2
  rw [data]

section
variable {q : Fin 4} {r : Bar2} {pre rest : List Bar2} {s : State} (slots : hostSlots s q.val = true)
  (queue : s.bar2 = pre ++ r :: rest) (mine : r.q = q) (older : ∀ b ∈ pre, b.q ≠ q)
  (sound : tget 0 s.fab.qFlaws (0xB0 + q.val) = 0)

/-- The request has left the queue. -/
def bar2Taken (s : State) (pre rest : List Bar2) : State := { s with bar2 := pre ++ rest }

include slots queue mine older sound

/-- A host slot takes the quadrant's oldest request. -/
theorem exec_hostSlotService_eq : exec (.hostSlotService q) s = .next (
    if r.data.isNone && sealed s q.val then emit (sealDeny (bar2Taken s pre rest) q.val) (.cpl 1 r.tag [])
    else serveBar2 (bar2Taken s pre rest) r) := by
  have found : findIdx? (fun b : Bar2 => b.q == q) s.bar2 0 = some (pre.length, r) := by
    rw [queue, findIdx?_append (fun b hb => by simpa using older b hb) (by simpa using mine), Nat.zero_add]
  have taken : removeAt s.bar2 pre.length = pre ++ rest := by rw [queue, removeAt_append]
  have sound' : qCheck { s with bar2 := removeAt s.bar2 pre.length } (0xB0 + q.val) =
      ({ s with bar2 := removeAt s.bar2 pre.length }, 0) := qCheck_sound sound
  refine congrArg Host.Outcome.next ((if_neg (by rw [slots]; decide)).trans ?_)
  rw [found]
  dsimp only
  rw [sound', taken]
  exact if_neg (not_not.2 rfl)

/-- Room in the controllers' windows for the bytes at `as`. -/
def RoomFor (s : State) (pre rest : List Bar2) (q : Nat) (as : List Nat) : Prop :=
  (chargeCells (bar2Taken s pre rest) (hostWho s q) (as.map (fun a => (a, 0)))).2 = true

theorem exec_hostSlotService_writes {d : List Byte} (flawless : s.flaws = []) (data : r.data = some d)
    (range : r.byte + d.length ≤ 3 * 2 ^ 37) (room : RoomFor s pre rest q.val ((List.range d.length).map r.addr)) :
    ∃ t, exec (.hostSlotService q) s = .next t ∧ t.bar2 = pre ++ rest ∧
      (∀ i, i < d.length → rdByte t (r.addr i) = d.getD i 0) ∧
      (∀ a, (∀ i, i < d.length → r.addr i ≠ a) → rdByte t a = rdByte s a) ∧
      t = { s with bar2 := t.bar2, mem := t.mem, mcs := t.mcs, regs := t.regs } := by
  have run := exec_hostSlotService_eq slots queue mine older sound
  rw [if_neg (by rw [data]; simp), serveBar2_writes data, mine] at run
  have charged := chargeCells_taken room
  have who : hostWho (bar2Taken s pre rest) q.val = hostWho s q.val := rfl
  have taken : (chargeCells (bar2Taken s pre rest) (hostWho s q.val)
      (((List.range d.length).map r.addr).map (fun a => (a, 0)))).2 = true := room
  rw [who, if_pos taken, store_flawless (by rw [charged]; exact flawless)] at run
  have start : bar2Taken s pre rest = { s with bar2 := pre ++ rest } := rfl
  rw [start] at charged
  refine ⟨_, run, ?_, fun i hi => rdByte_wrCells_zip _ (fun i j => bar2_addr_inj range) hi, fun a ha => ?_, ?_⟩
  · unfold wrCells
    rw [start, charged]
  · rw [rdByte_wrCells_zip_ne _ ha]
    exact rdByte_congr (by rw [start, charged]) (by rw [start, charged]) a
  · unfold wrCells
    rw [start, charged]

theorem exec_hostSlotService_reads (flawless : s.flaws = []) (data : r.data = none) (openQ : sealed s q.val = false)
    (room : RoomFor s pre rest q.val ((List.range r.len).map r.addr)) :
    ∃ t, exec (.hostSlotService q) s = .next t ∧ t.bar2 = pre ++ rest ∧
      t.out = .cpl 0 r.tag ((List.range r.len).map (fun i => rdByte s (r.addr i))) :: s.out ∧
      t = { s with bar2 := t.bar2, out := t.out, mcs := t.mcs, regs := t.regs } := by
  have run := exec_hostSlotService_eq slots queue mine older sound
  rw [if_neg (by rw [openQ]; simp), serveBar2_reads data, mine] at run
  have charged := chargeCells_taken room
  have start : bar2Taken s pre rest = { s with bar2 := pre ++ rest } := rfl
  rw [start] at charged
  have flawless' : (chargeCells (bar2Taken s pre rest) (hostWho s q.val)
      (((List.range r.len).map r.addr).map (fun a => (a, 0)))).1.flaws = [] := by rw [start, charged]; exact flawless
  have taken : (chargeCells (bar2Taken s pre rest) (hostWho s q.val)
      (((List.range r.len).map r.addr).map (fun a => (a, 0)))).2 = true := room
  have bytes : ((List.range r.len).map r.addr).map (rdByte (chargeCells (bar2Taken s pre rest) (hostWho s q.val)
      (((List.range r.len).map r.addr).map (fun a => (a, 0)))).1) =
      (List.range r.len).map (fun i => rdByte s (r.addr i)) := by
    rw [List.map_map]
    exact List.map_congr_left fun i _ => rdByte_congr (by rw [start, charged]) (by rw [start, charged]) _
  have who : hostWho (bar2Taken s pre rest) q.val = hostWho s q.val := rfl
  dsimp only at run
  rw [who, taken, readCheck_flawless flawless', bytes] at run
  replace run : exec (.hostSlotService q) s = .next (emit (chargeCells (bar2Taken s pre rest) (hostWho s q.val)
      (((List.range r.len).map r.addr).map (fun a => (a, 0)))).1
      (.cpl 0 r.tag ((List.range r.len).map (fun i => rdByte s (r.addr i))))) := run
  refine ⟨_, run, ?_, ?_, ?_⟩ <;> unfold emit <;> dsimp only <;> rw [start, charged]

theorem exec_hostSlotService_sealed (data : r.data = none) (sealedQ : sealed s q.val = true) :
    ∃ t, exec (.hostSlotService q) s = .next t ∧ t.bar2 = pre ++ rest ∧
      t.out = .cpl 1 r.tag [] :: s.out ∧ t.mem = s.mem := by
  have run := exec_hostSlotService_eq slots queue mine older sound
  rw [if_pos (by rw [data, sealedQ]; rfl)] at run
  have frame := (sealDeny_spec (bar2Taken s pre rest) q.val).2.2.2.2
  refine ⟨_, run, ?_, ?_, ?_⟩ <;> unfold emit <;> rw [frame] <;> rfl

end

end Sys2Proof
end

section
/-! PROOFS. Doorbells, descriptors and lines of the host-move rings (R428 to R430, R446). -/

namespace Sys2Proof

open Sys2Proof.Machine

theorem getRing_setRing (s : State) (r : Nat) (x : Ring) : getRing (setRing s r x) r = x := tget_tput_self _ _ _ _

theorem getRing_setRing_ne (s : State) {r k : Nat} (x : Ring) (h : k ≠ r) : getRing (setRing s r x) k = getRing s k :=
  tget_tput_ne _ _ _ _ h

theorem exec_doorbell_spec {s : State} (r : Fin 4) (v : W32) (hb : s.bup.bar0 = true) (hp : pageLive s pgHST = true) :
    (fld v 15 0 < ringSize s r.val → ∃ t, exec (.doorbell r v) s = .next t ∧
      getRing t r.val = { getRing s r.val with tail := fld v 15 0 } ∧ (∀ k, k ≠ r.val → getRing t k = getRing s k) ∧
      t = { s with rings := t.rings }) ∧
    (ringSize s r.val ≤ fld v 15 0 → ∃ t, exec (.doorbell r v) s = .next t ∧
      reg t (at' pgHST 0x104) = satAdd (reg s (at' pgHST 0x104)) 1 ∧ t = { s with regs := t.regs, ldg := t.ldg }) := by
  refine ⟨fun within => ?_, fun beyond => ?_⟩
  · exact ⟨_, congrArg Host.Outcome.next ((if_neg (by rw [hb]; decide)).trans (if_neg (by rw [hp]; simp; omega))),
      getRing_setRing s _ _, fun k hk => getRing_setRing_ne s _ hk, rfl⟩
  · obtain ⟨count, frame⟩ := badAcc_spec s 4 (4096 * r.val)
    exact ⟨_, congrArg Host.Outcome.next ((if_neg (by rw [hb]; decide)).trans (if_pos (.inr beyond))), count, frame⟩

/-! ## A ring's registers -/

/-- A ring's base and size stand as they stood. -/
theorem ringRegs_congr {s t : State} {os : List Nat} (h : RegsKept s t os) {r : Nat}
    (ho : ∀ o ∈ [0x200, 0x204, 0x208], ringOff r o ∉ os) : ringBase t r = ringBase s r ∧ ringSize t r = ringSize s r := by
  simp only [List.forall_mem_cons, List.not_mem_nil, false_implies, implies_true, and_true] at ho
  obtain ⟨h0, h4, h8⟩ := ho
  exact ⟨by rw [ringBase, ringBase, h _ h0, h _ h4], by rw [ringSize, ringSize, h _ h8]⟩

/-- STS goes to the host and the head moves on. -/
theorem hmDone_spec (s : State) (r st : Nat) :
    getRing (hmDone s r st) r = { getRing s r with
      head := ((getRing s r).head + 1) % ringSize s r, last := if st = 0 then (getRing s r).last else st, run := none
      moved := 0, got := [], gaps := [] } ∧
    (∀ k, k ≠ r → getRing (hmDone s r st) k = getRing s k) ∧
    (hmDone s r st).out = .hostWr (ringBase s r + 64 * (getRing s r).head + 60) (bytesOf 4 (2 ^ 31 + st)) :: s.out ∧
    hmDone s r st = { s with rings := (hmDone s r st).rings, out := (hmDone s r st).out } :=
  ⟨getRing_setRing _ _ _, fun _ hk => getRing_setRing_ne _ _ hk, rfl, rfl⟩

/-! ## A descriptor is taken (R428, R429) -/

theorem hmCheck_empty {s : State} {d : BitVec 512} (h : hmLen d = 0) : hmCheck s d = 1 := if_pos h

theorem hmCheck_op {s : State} {d : BitVec 512} (h : hmLen d ≠ 0) (h1 : hmOp d ≠ 1) (h2 : hmOp d ≠ 2) : hmCheck s d = 2 :=
  (if_neg h).trans (if_pos (.inl ⟨h1, h2⟩))

/-- Status 4 names a quadrant. -/
theorem hmCheck_four {s : State} {d : BitVec 512} (h : hmCheck s d = 4) : ∃ g, gaParse (hmGaddr d) = some g := by
  cases parsed : gaParse (hmGaddr d) with
  | some g => exact ⟨g, rfl⟩
  | none =>
    have addr : hmAddrOk s d = none := by
      unfold hmAddrOk
      rw [parsed]
    unfold hmCheck at h
    rw [addr] at h
    split at h
    · cases h
    · split at h <;> cases h

/-- The next ring has its turn. -/
def ringTurned (s : State) (r : Nat) : State := { s with ringRr := (r + 1) % 4 }

/-- The move of a descriptor begins. -/
def moveBegun (s : State) (r : Nat) (d : BitVec 512) : State :=
  setRing s r { getRing s r with run := some d, moved := 0, got := [], gaps := [] }

theorem foldl_emitted {α : Type} (f : α → Out) (l : List α) (s : State) :
    l.foldl (fun s a => emit s (f a)) s = { s with out := (l.map f).reverse ++ s.out } := by
  induction l generalizing s with
  | nil => rfl
  | cons a l ih => rw [List.foldl_cons, ih]; simp [emit]

theorem hostReads_eq (s : State) (d : BitVec 512) : hostReads s d = { s with out := (if hmOp d = 1 then
    ((hostReqs 4096 (hmHaddr d) (hmLen d)).map (fun q => Out.hostRd q.1 q.2)).reverse else []) ++ s.out } := by
  unfold hostReads
  split
  · exact foldl_emitted (fun q : Nat × Nat => Out.hostRd q.1 q.2) _ s
  · rfl

section
variable {r : Fin 4} {d : BitVec 512} {s : State} (turn : ringTurn s = some r.val) (live : pageLive s pgHST = true)
include turn live

theorem exec_hostMove_begins (ok : hmCheck s d = 0) :
    exec (.hostMove r d) s = .next (hostReads (moveBegun (ringTurned s r.val) r.val d) d) :=
  congrArg Host.Outcome.next ((if_neg (by rw [turn, live]; simp)).trans (if_pos ok))

/-- A read of a sealed quadrant is refused as such. -/
def refusedBy (s : State) (d : BitVec 512) (st : Nat) : State :=
  if st = 4 then (match gaParse (hmGaddr d) with | some g => sealDeny s g.q | none => s) else s

theorem exec_hostMove_refused (bad : hmCheck s d ≠ 0) :
    exec (.hostMove r d) s = .next (hmDone (refusedBy (ringTurned s r.val) d (hmCheck s d)) r.val (hmCheck s d)) :=
  congrArg Host.Outcome.next ((if_neg (by rw [turn, live]; simp)).trans (if_neg bad))

end

/-- What the refusal of a descriptor touches. -/
theorem refusedBy_spec (s : State) (d : BitVec 512) (st : Nat) :
    RegsKept s (refusedBy s d st) [at' pgCUS 0x114, at' pgLDG 0x10C] ∧
    refusedBy s d st = { s with regs := (refusedBy s d st).regs, ldg := (refusedBy s d st).ldg } ∧
    (st = 4 → (∃ g, gaParse (hmGaddr d) = some g) →
      reg (refusedBy s d st) (at' pgCUS 0x114) = satAdd (reg s (at' pgCUS 0x114)) 1) := by
  unfold refusedBy
  by_cases h : st = 4
  · rw [if_pos h]
    cases parsed : gaParse (hmGaddr d) with
    | none => exact ⟨fun _ _ => rfl, rfl, fun _ ⟨_, e⟩ => by cases e⟩
    | some g =>
      obtain ⟨count, kept, -, -, frame⟩ := sealDeny_spec s g.q
      exact ⟨kept, frame, fun _ _ => count⟩
  · rw [if_neg h]
    exact ⟨fun _ _ => rfl, rfl, fun e => absurd e h⟩

theorem exec_hostMove_spec {s : State} (r : Fin 4) (d : BitVec 512) (turn : ringTurn s = some r.val)
    (live : pageLive s pgHST = true) :
    ∃ t, exec (.hostMove r d) s = .next t ∧ t.ringRr = (r.val + 1) % 4 ∧ t.mem = s.mem ∧
      (∀ k, k ≠ r.val → getRing t k = getRing s k) ∧
      (hmCheck s d = 0 → getRing t r.val = { getRing s r.val with run := some d, moved := 0, got := [], gaps := [] } ∧
        t.out = (if hmOp d = 1 then
          ((hostReqs 4096 (hmHaddr d) (hmLen d)).map (fun q => Out.hostRd q.1 q.2)).reverse else []) ++ s.out ∧
        t = { s with rings := t.rings, ringRr := t.ringRr, out := t.out }) ∧
      (hmCheck s d ≠ 0 → getRing t r.val = { getRing s r.val with
          head := ((getRing s r.val).head + 1) % ringSize s r.val, last := hmCheck s d, run := none, moved := 0, got := []
          gaps := [] } ∧
        t.out = .hostWr (ringBase s r.val + 64 * (getRing s r.val).head + 60) (bytesOf 4 (2 ^ 31 + hmCheck s d)) :: s.out ∧
        (hmCheck s d = 4 → reg t (at' pgCUS 0x114) = satAdd (reg s (at' pgCUS 0x114)) 1) ∧
        t = { s with rings := t.rings, ringRr := t.ringRr, out := t.out, regs := t.regs, ldg := t.ldg }) := by
  by_cases ok : hmCheck s d = 0
  · have run := exec_hostMove_begins turn live ok
    rw [hostReads_eq] at run
    refine ⟨_, run, rfl, rfl, fun k hk => getRing_setRing_ne (ringTurned s r.val) _ hk,
      fun _ => ⟨getRing_setRing (ringTurned s r.val) _ _, rfl, rfl⟩, fun h => absurd ok h⟩
  · have run := exec_hostMove_refused turn live ok
    obtain ⟨kept, frame, count⟩ := refusedBy_spec (ringTurned s r.val) d (hmCheck s d)
    obtain ⟨base, size⟩ := ringRegs_congr kept (r := r.val) (by
      have := r.isLt
      simp [ringOff, at', pgCUS, pgHST, pgLDG]
      omega)
    have four := fun h => hmCheck_four (s := s) (d := d) h
    generalize refusedBy (ringTurned s r.val) d (hmCheck s d) = u at *
    obtain ⟨ring, others, out, done⟩ := hmDone_spec u r.val (hmCheck s d)
    have rings (k : Nat) : getRing u k = getRing s k := by rw [frame]; rfl
    rw [if_neg ok, rings, size] at ring
    rw [rings, base] at out
    generalize hmDone u r.val (hmCheck s d) = t at *
    refine ⟨_, run, by rw [done, frame]; rfl, by rw [done, frame]; rfl, fun k hk => (others k hk).trans (rings k),
      fun h => absurd h ok, fun _ => ⟨ring, ?_, fun h => ?_, ?_⟩⟩
    · rw [out, frame]
      rfl
    · rw [done]
      exact count h (four h)
    · rw [done, frame]
      rfl

end Sys2Proof
end

section
/-! PROOFS. The bytes of a host move, line by line (R426, R430). -/

namespace Sys2Proof

open Sys2Proof.Machine

/-! ## A line is requested -/

theorem hostLine_toModule {s : State} {r : Nat} {g : GA} {d : BitVec 512} (op : hmOp d = 1)
    (taken : (hbmAccept s (hostWho s g.q) (quadOf ((hmLine g d (getRing s r).moved).headD 0))
      (stackOf ((hmLine g d (getRing s r).moved).headD 0)) s.clk.dst 1 ((hmLine g d (getRing s r).moved).headD 0)).2 = true) :
    getRing (hostLine s r g d) r = { getRing s r with moved := (getRing s r).moved + 1 } := by
  unfold hostLine
  dsimp only
  rw [if_neg (by rw [op]; simp), taken, if_neg (by decide), if_pos op]
  exact getRing_setRing _ _ _

theorem hostLine_toHost {s : State} {r : Nat} {g : GA} {d : BitVec 512} (flawless : s.flaws = []) (op : hmOp d = 2)
    (openQ : sealed s g.q = false)
    (taken : (hbmAccept s (hostWho s g.q) (quadOf ((hmLine g d (getRing s r).moved).headD 0))
      (stackOf ((hmLine g d (getRing s r).moved).headD 0)) s.clk.dst 1 ((hmLine g d (getRing s r).moved).headD 0)).2 = true) :
    getRing (hostLine s r g d) r = { getRing s r with
      moved := (getRing s r).moved + 1
      got := (getRing s r).got ++ (hmLine g d (getRing s r).moved).map (rdByte s) } := by
  obtain ⟨_, _, accepted⟩ := hbmAccept_taken _ _ _ _ _ _ _ taken
  have flawless' := (congrArg State.flaws accepted).trans flawless
  have bytes : rdByte (hbmAccept s (hostWho s g.q) (quadOf ((hmLine g d (getRing s r).moved).headD 0))
      (stackOf ((hmLine g d (getRing s r).moved).headD 0)) s.clk.dst 1 ((hmLine g d (getRing s r).moved).headD 0)).1 = rdByte s :=
    funext fun a => rdByte_congr (by rw [accepted]) (by rw [accepted]) a
  unfold hostLine
  dsimp only
  rw [if_neg (by rw [openQ]; simp), taken, if_neg (by decide), if_neg (by rw [op]; decide), readCheck_flawless flawless',
    if_pos rfl, bytes]
  exact getRing_setRing _ _ _

/-! ## The lines of a move cover its bytes in order -/

theorem filter_range' (b n lo hi : Nat) : (List.range' b n).filter (fun x => decide (lo ≤ x) && decide (x < hi)) =
    List.range' (max lo b) (min hi (b + n) - max lo b) := by
  induction n with
  | zero => rw [show min hi (b + 0) - max lo b = 0 by omega]; rfl
  | succ n ih =>
    rw [List.range'_concat, List.filter_append, ih, Nat.one_mul]
    by_cases h : lo ≤ b + n ∧ b + n < hi
    · rw [List.filter_cons_of_pos (by simpa using h), List.filter_nil,
        show min hi (b + (n + 1)) - max lo b = min hi (b + n) - max lo b + 1 by omega, List.range'_concat, Nat.one_mul,
        show max lo b + (min hi (b + n) - max lo b) = b + n by omega]
    · rw [List.filter_cons_of_neg (by simpa using h), List.filter_nil, List.append_nil,
        show min hi (b + (n + 1)) - max lo b = min hi (b + n) - max lo b by omega]

/-- Where line `i` of the bytes from `b` on begins. -/
def lineFrom (b i : Nat) : Nat := max b (64 * (b / 64 + i))

/-- How many of the `n` bytes from `b` on line `i` holds. -/
def lineLen (b n i : Nat) : Nat := min (b + n) (64 * (b / 64 + i) + 64) - lineFrom b i

theorem hmLine_eq (g : GA) (d : BitVec 512) (i : Nat) :
    hmLine g d i = (List.range' (lineFrom g.byte i) (lineLen g.byte (hmLen d) i)).map (gaByte g) := by
  unfold hmLine lineLen lineFrom
  rw [← List.range'_eq_map_range, filter_range']

/-- The first `k` lines hold the bytes up to where line `k` begins. -/
theorem flatMap_lines (b n k : Nat) : (List.range k).flatMap (fun i => List.range' (lineFrom b i) (lineLen b n i)) =
    List.range' b (min (b + n) (64 * (b / 64 + k)) - b) := by
  induction k with
  | zero => rw [show min (b + n) (64 * (b / 64 + 0)) - b = 0 by omega]; rfl
  | succ k ih =>
    rw [List.range_succ, List.flatMap_append, ih, List.flatMap_singleton]
    by_cases h : 64 * (b / 64 + k) ≤ b + n
    · have start : lineFrom b k = b + (min (b + n) (64 * (b / 64 + k)) - b) := by unfold lineFrom; omega
      have total : min (b + n) (64 * (b / 64 + (k + 1))) - b =
          (min (b + n) (64 * (b / 64 + k)) - b) + lineLen b n k := by unfold lineLen lineFrom; omega
      rw [start, total, List.range'_append_1]
    · rw [show lineLen b n k = 0 by unfold lineLen lineFrom; omega, List.range'_zero, List.append_nil,
        show min (b + n) (64 * (b / 64 + (k + 1))) - b = min (b + n) (64 * (b / 64 + k)) - b by omega]

/-- All lines hold all bytes. -/
theorem flatMap_allLines (b n : Nat) :
    (List.range (rowLines b n)).flatMap (fun i => List.range' (lineFrom b i) (lineLen b n i)) = List.range' b n := by
  rw [flatMap_lines]
  congr 1
  unfold rowLines
  split
  · omega
  · omega

/-- Lists cut alike pair up piece by piece. -/
theorem zip_flatMap {α β γ : Type} {f : α → List β} {h : α → List γ} (l : List α)
    (same : ∀ a ∈ l, (f a).length = (h a).length) :
    (l.flatMap f).zip (l.flatMap h) = l.flatMap (fun a => (f a).zip (h a)) := by
  induction l with
  | nil => rfl
  | cons a l ih =>
    rw [List.flatMap_cons, List.flatMap_cons, List.flatMap_cons, List.zip_append (same a List.mem_cons_self),
      ih fun x hx => same x (List.mem_cons_of_mem _ hx)]

/-- Which of the data that came is byte `k` of line `i`. -/
def dataAt (g : GA) (i k : Nat) : Nat := 64 * i + k - (if i = 0 then 0 else g.byte % 64)

theorem dataAt_eq (g : GA) (i k : Nat) : dataAt g i k = lineFrom g.byte i + k - g.byte := by
  unfold dataAt lineFrom
  split <;> omega

/-- The bytes of line `i` with the places of their data. -/
theorem line_zip (g : GA) (d : BitVec 512) (i : Nat) :
    ((hmLine g d i).map (fun a => (i, a))).zip ((List.range (hmLine g d i).length).map (dataAt g i)) =
    (List.range' (lineFrom g.byte i) (lineLen g.byte (hmLen d) i)).map (fun b => ((i, gaByte g b), b - g.byte)) := by
  rw [hmLine_eq, List.length_map, List.length_range', List.range'_eq_map_range, List.map_map, List.map_map, List.map_map,
    List.zip_map']
  refine List.map_congr_left fun k _ => ?_
  simp only [Function.comp_apply, dataAt_eq]

/-- The cells that the data of a whole move fills. -/
theorem landed_all (g : GA) (d : BitVec 512) {data : List Byte} (hl : data.length = hmLen d) :
    ((((List.range (hmLines g d)).flatMap (fun i => (hmLine g d i).map (fun a => (i, a)))).zip
      ((List.range (hmLines g d)).flatMap (fun i => (List.range (hmLine g d i).length).map (dataAt g i)))).filter
        (fun c => decide (c.2 < data.length))).map (fun c => (c.1.2, data.getD c.2 0)) =
    ((List.range (hmLen d)).map (fun i => gaByte g (g.byte + i))).zip data := by
  have within (i : Nat) : ((((List.range' (lineFrom g.byte i) (lineLen g.byte (hmLen d) i)).map
      (fun b => ((i, gaByte g b), b - g.byte))).filter (fun c => decide (c.2 < data.length))).map
        (fun c => (c.1.2, data.getD c.2 0))) =
      (List.range' (lineFrom g.byte i) (lineLen g.byte (hmLen d) i)).map (fun b => (gaByte g b, data.getD (b - g.byte) 0)) := by
    rw [List.filter_eq_self.2, List.map_map]
    · rfl
    · intro c hc
      obtain ⟨b, hb, rfl⟩ := List.mem_map.1 hc
      obtain ⟨from', upTo⟩ := List.mem_range'_1.1 hb
      unfold lineLen lineFrom at *
      exact decide_eq_true (by dsimp only; omega)
  rw [zip_flatMap _ (fun i _ => by simp), List.filter_flatMap, List.map_flatMap]
  simp only [line_zip, within]
  rw [← List.map_flatMap, hmLines, flatMap_allLines, List.range'_eq_map_range, List.map_map]
  have listed : data = (List.range (hmLen d)).map (fun i => data.getD i 0) := by
    refine List.ext_getElem (by simp [hl]) fun i h1 h2 => ?_
    simp [h1]
  rw [listed, List.zip_map', ← listed]
  refine List.map_congr_left fun i _ => ?_
  simp

end Sys2Proof
end

section
/-! PROOFS. A host move ends (R429, R430), a ring restarts (R446), and the obligation O56. -/

namespace Sys2Proof

open Sys2Proof.Machine

/-! ## Bytes land -/

theorem hostLand_flawless {s : State} (flawless : s.flaws = []) (x : Ring) (g : GA) (d : BitVec 512) (data : List Byte) :
    hostLand s x g d data = { s with mem := (hostLand s x g d data).mem } := by
  unfold hostLand
  dsimp only
  rw [store_flawless flawless]
  rfl

/-- With every line served the data lands whole. -/
theorem hostLand_whole {s : State} (flawless : s.flaws = []) {x : Ring} {g : GA} {d : BitVec 512} {data : List Byte}
    (hl : data.length = hmLen d) (served : hmLines g d ≤ x.moved) (gapless : x.gaps = []) : hostLand s x g d data =
      wrCells s (((List.range (hmLen d)).map (fun i => gaByte g (g.byte + i))).zip data) := by
  have all : (List.range (min x.moved (hmLines g d))).filter (fun i => !x.gaps.contains i) = List.range (hmLines g d) := by
    rw [Nat.min_eq_right served, gapless, List.filter_eq_self]
    exact fun _ _ => rfl
  rw [← landed_all g d hl, ← store_flawless flawless noJob]
  unfold hostLand
  dsimp only
  rw [all]
  rfl

/-! ## How a move ends -/

/-- A ring after a move that ended with status `n`. -/
def moveEnded (s : State) (x : Ring) (r n : Nat) (halt : Bool) : Ring :=
  { x with
    head := (x.head + 1) % ringSize s r, run := none, halt := x.halt || halt, last := if n = 0 then x.last else n
    moved := 0, got := [], gaps := [] }

/-- The write of STS for the descriptor at a ring's head. -/
def stsWritten (s : State) (x : Ring) (r n : Nat) : Out :=
  .hostWr (ringBase s r + 64 * x.head + 60) (bytesOf 4 (2 ^ 31 + n))

theorem raiseInt_keeps_out (s : State) (page b : Nat) {o : Out} (h : o ∈ s.out) : o ∈ (raiseInt s page b).out := by
  rw [raiseInt_out]
  exact List.mem_append_right _ h

theorem ringFail_spec (s : State) {r : Nat} (hr : r < 4) :
    getRing (ringFail s r) r = moveEnded s (getRing s r) r 6 true ∧ stsWritten s (getRing s r) r 6 ∈ (ringFail s r).out ∧
    (ringFail s r).clus = s.clus ∧ (ringFail s r).mem = s.mem ∧
    Logged s (ringFail s r) pgHST 2 0x1202 0 (BitVec.ofNat 32 (4 * 2 ^ 29 + r)) 6 := by
  have logged := post_logged s pgHST sevError 0x1202 0 (BitVec.ofNat 32 (4 * 2 ^ 29 + r)) 6
  have kept := post_regs s pgHST sevError 0x1202 0 (BitVec.ofNat 32 (4 * 2 ^ 29 + r)) 6
  obtain ⟨_, _, posted⟩ := post_touches s pgHST sevError 0x1202 0 (BitVec.ofNat 32 (4 * 2 ^ 29 + r)) 6
  obtain ⟨base, size⟩ := ringRegs_congr kept (r := r) (by
    simp [ringOff, at', pgHST, pgLDG, sevError]
    omega)
  unfold ringFail
  dsimp only
  generalize post s pgHST sevError 0x1202 0 (BitVec.ofNat 32 (4 * 2 ^ 29 + r)) 6 = u at *
  have rings : getRing u r = getRing s r := by rw [posted]; rfl
  obtain ⟨ring, -, out, done⟩ := hmDone_spec u r 6
  rw [rings, size] at ring
  rw [rings, base] at out
  generalize hmDone u r 6 = v at *
  obtain ⟨_, _, raised⟩ := raiseInt_touches (setRing v r { getRing v r with halt := true }) pgHST r
  refine ⟨?_, raiseInt_keeps_out _ _ _ ?_, ?_, ?_, ?_⟩
  · rw [raised]
    refine (getRing_setRing v r _).trans ?_
    rw [ring, moveEnded, Bool.or_true]
  · show stsWritten s (getRing s r) r 6 ∈ v.out
    rw [out]
    exact List.mem_cons_self
  · rw [raised]
    show v.clus = s.clus
    rw [done, posted]
  · rw [raised]
    show v.mem = s.mem
    rw [done, posted]
  · refine logged.congr ?_
    rw [raised]
    show v.ldg = u.ldg
    rw [done]

/-- The credit that a move gives when it ends. -/
def moveCredited (s : State) (d : BitVec 512) (q : Nat) : State :=
  if hmCr d ∧ hmCredit s d q then credit s (16 * q + hmClu d) (hmCC d) 1 else s

theorem moveCredited_spec (s : State) (d : BitVec 512) (q : Nat) :
    moveCredited s d q = { s with clus := (moveCredited s d q).clus, dirty := (moveCredited s d q).dirty } ∧
    (hmCr d = true → hmCredit s d q = true →
      getCtr (moveCredited s d q) (16 * q + hmClu d) (hmCC d) = { getCtr s (16 * q + hmClu d) (hmCC d) with
        sum := (getCtr s (16 * q + hmClu d) (hmCC d)).sum - 1, at' := s.clk.dst } ∧
      (16 * q + hmClu d, hmCC d) ∈ (moveCredited s d q).dirty) ∧
    (hmCr d = false → moveCredited s d q = s) := by
  obtain ⟨counter, -, dirty, frame⟩ := ctrAdd_spec s (16 * q + hmClu d) (hmCC d) (-1) none
  unfold moveCredited
  by_cases h : hmCr d = true ∧ hmCredit s d q = true
  · rw [if_pos h]
    refine ⟨frame, fun _ _ => ⟨counter, dirty⟩, fun off => ?_⟩
    rw [h.1] at off
    cases off
  · rw [if_neg h]
    exact ⟨rfl, fun a b => absurd ⟨a, b⟩ h, fun _ => rfl⟩

theorem ringOk_spec (s : State) {r : Nat} (hr : r < 4) (d : BitVec 512) (q : Nat) :
    getRing (ringOk s r d q) r = moveEnded s (getRing s r) r 0 false ∧
    stsWritten s (getRing s r) r 0 ∈ (ringOk s r d q).out ∧ (∀ o ∈ s.out, o ∈ (ringOk s r d q).out) ∧
    (hmIrq d = true → bit (reg (ringOk s r d q) (at' pgHST 0x10)) r = true) ∧
    ringOk s r d q = { s with
      rings := (ringOk s r d q).rings, out := (ringOk s r d q).out, regs := (ringOk s r d q).regs
      clus := (moveCredited s d q).clus, dirty := (moveCredited s d q).dirty } := by
  have frame := (moveCredited_spec s d q).1
  have eq : ringOk s r d q = if hmIrq d then raiseInt (hmDone (moveCredited s d q) r 0) pgHST r
      else hmDone (moveCredited s d q) r 0 := rfl
  rw [eq]
  generalize moveCredited s d q = u at *
  have rings : getRing u r = getRing s r := by rw [frame]; rfl
  have base : ringBase u r = ringBase s r := by rw [frame]; rfl
  have size : ringSize u r = ringSize s r := by rw [frame]; rfl
  obtain ⟨ring, -, out, done⟩ := hmDone_spec u r 0
  rw [rings, size] at ring
  rw [rings, base] at out
  have before : u.out = s.out := by rw [frame]
  generalize hmDone u r 0 = v at *
  have ended : getRing v r = moveEnded s (getRing s r) r 0 false := by
    rw [ring, moveEnded, Bool.or_false]
  have sts : stsWritten s (getRing s r) r 0 ∈ v.out := by
    rw [out]
    exact List.mem_cons_self
  have older : ∀ o ∈ s.out, o ∈ v.out := fun o ho => by
    rw [out, before]
    exact List.mem_cons_of_mem _ ho
  have whole : v = { s with rings := v.rings, out := v.out, clus := u.clus, dirty := u.dirty } := by rw [done, frame]
  cases irq : hmIrq d with
  | false =>
    refine ⟨ended, sts, older, fun h => (nomatch h), ?_⟩
    show v = { s with rings := v.rings, out := v.out, regs := v.regs, clus := u.clus, dirty := u.dirty }
    rw [whole]
  | true =>
    obtain ⟨_, _, raised⟩ := raiseInt_touches v pgHST r
    refine ⟨?_, raiseInt_keeps_out _ _ _ sts, fun o ho => raiseInt_keeps_out _ _ _ (older o ho), fun _ => ?_, ?_⟩
    · rw [if_pos rfl, raised]
      exact ended
    · rw [if_pos rfl, (raiseInt_spec v pgHST r).1 r (by omega), decide_eq_true rfl]
      exact Bool.or_true _
    · rw [if_pos rfl, raised, whole]

/-! ## HOST_MOVE_COMPLETE -/

theorem foldl_hostWrites (s : State) (a : Nat) (bs : List Byte) : hostWrites s a bs = { s with out :=
    ((hostReqs 512 a bs.length).map (fun q => Out.hostWr q.1 ((bs.drop (q.1 - a)).take q.2))).reverse ++ s.out } :=
  foldl_emitted (fun q : Nat × Nat => Out.hostWr q.1 ((bs.drop (q.1 - a)).take q.2)) _ s

section
variable {r : Fin 4} {d : BitVec 512} {g : GA} {s : State} (run : (getRing s r.val).run = some d)
  (addr : hmAddrOk s d = some g)

/-- The move has failed: the ring halts, STS 6 goes out, no credit is given, and the failure is logged. -/
structure MoveFailed (s t : State) (r : Fin 4) (g : GA) : Prop where
  ring   : getRing t r.val = moveEnded s (getRing s r.val) r.val 6 true
  sts    : stsWritten s (getRing s r.val) r.val 6 ∈ t.out
  clus   : t.clus = s.clus
  logged : sealed s g.q = false → Logged s t pgHST 2 0x1202 0 (BitVec.ofNat 32 (4 * 2 ^ 29 + r.val)) 6

include run addr

theorem exec_hostMoveComplete_fail (data : List Byte) : exec (.hostMoveComplete r (.fail data)) s =
    .next (ringFail (if hmOp d = 1 then hostLand s (getRing s r.val) g d data else s) r.val) := by
  refine congrArg Host.Outcome.next ?_
  dsimp only
  rw [run]
  dsimp only
  rw [addr]

theorem exec_hostMoveComplete_ok (data : List Byte) : exec (.hostMoveComplete r (.ok data)) s = .next (
    if (getRing s r.val).moved < hmLines g d then s
    else if hmOp d = 1 then ringOk (hostLand s (getRing s r.val) g d (fit 0 (hmLen d) data)) r.val d g.q
    else if sealed s g.q then ringFail (sealDeny s g.q) r.val
    else if !(getRing s r.val).gaps.isEmpty then ringFail s r.val
    else ringOk (hostWrites s (hmHaddr d) (getRing s r.val).got) r.val d g.q) := by
  refine congrArg Host.Outcome.next ?_
  dsimp only
  rw [run]
  dsimp only
  rw [addr]

omit run addr in
theorem ringFail_failed (s : State) (r : Fin 4) (g : GA) :
    MoveFailed s (ringFail s r.val) r g ∧ (ringFail s r.val).mem = s.mem := by
  obtain ⟨ring, sts, clus, mem, logged⟩ := ringFail_spec s r.isLt
  exact ⟨⟨ring, sts, clus, fun _ => logged⟩, mem⟩

/-- A failed completion halts the ring after the bytes that had come. -/
theorem exec_hostMoveComplete_failed (flawless : s.flaws = []) (data : List Byte) :
    ∃ t, exec (.hostMoveComplete r (.fail data)) s = .next t ∧ MoveFailed s t r g ∧
      t.mem = (if hmOp d = 1 then (hostLand s (getRing s r.val) g d data).mem else s.mem) := by
  have ran := exec_hostMoveComplete_fail run addr data
  have landed := hostLand_flawless flawless (getRing s r.val) g d data
  by_cases op : hmOp d = 1
  · rw [if_pos op] at ran
    rw [if_pos op]
    generalize hostLand s (getRing s r.val) g d data = u at *
    obtain ⟨⟨ring, sts, clus, logged⟩, mem⟩ := ringFail_failed u r g
    have same : getRing u r.val = getRing s r.val := by rw [landed]; rfl
    refine ⟨_, ran, ⟨?_, ?_, by rw [clus, landed], fun openQ => ?_⟩, mem⟩
    · rw [ring, same, landed]
      rfl
    · have written : stsWritten u (getRing s r.val) r.val 6 = stsWritten s (getRing s r.val) r.val 6 := by rw [landed]; rfl
      rw [same, written] at sts
      exact sts
    · refine (logged ?_).before (by rw [landed]) (by rw [landed])
      rw [landed]
      exact openQ
  · rw [if_neg op] at ran
    rw [if_neg op]
    obtain ⟨failed, mem⟩ := ringFail_failed s r g
    exact ⟨_, ran, failed, mem⟩

theorem exec_hostMoveComplete_early (data : List Byte) (early : (getRing s r.val).moved < hmLines g d) :
    exec (.hostMoveComplete r (.ok data)) s = .next s := by
  rw [exec_hostMoveComplete_ok run addr, if_pos early]

/-- A seal on what it would read, or a line that the memory did not give, halts the ring too. -/
theorem exec_hostMoveComplete_refused (data : List Byte) (served : hmLines g d ≤ (getRing s r.val).moved) (op : hmOp d ≠ 1)
    (bad : sealed s g.q = true ∨ (getRing s r.val).gaps ≠ []) :
    ∃ t, exec (.hostMoveComplete r (.ok data)) s = .next t ∧ MoveFailed s t r g ∧ t.mem = s.mem := by
  have ran := exec_hostMoveComplete_ok run addr data
  rw [if_neg (not_lt.2 served), if_neg op] at ran
  by_cases sealedQ : sealed s g.q = true
  · rw [if_pos sealedQ] at ran
    obtain ⟨-, kept, -, -, frame⟩ := sealDeny_spec s g.q
    obtain ⟨base, size⟩ := ringRegs_congr kept (r := r.val) (by
      have := r.isLt
      simp [ringOff, at', pgCUS, pgHST, pgLDG]
      omega)
    generalize sealDeny s g.q = u at *
    obtain ⟨⟨ring, sts, clus, -⟩, mem⟩ := ringFail_failed u r g
    have same : getRing u r.val = getRing s r.val := by rw [frame]; rfl
    refine ⟨_, ran, ⟨?_, ?_, by rw [clus, frame], fun openQ => ?_⟩, by rw [mem, frame]⟩
    · rw [ring, same, moveEnded, size]
      rfl
    · rw [same, stsWritten, base] at sts
      exact sts
    · rw [sealedQ] at openQ
      cases openQ
  · have gaps := bad.resolve_left sealedQ
    rw [if_neg sealedQ, if_pos (by simpa using gaps)] at ran
    obtain ⟨failed, mem⟩ := ringFail_failed s r g
    exact ⟨_, ran, failed, mem⟩

/-- The state in which a move that succeeds gives its credit: the bytes are in place, or written out. -/
def moveDelivered (s : State) (x : Ring) (g : GA) (d : BitVec 512) (data : List Byte) : State :=
  if hmOp d = 1 then hostLand s x g d (fit 0 (hmLen d) data) else hostWrites s (hmHaddr d) x.got

omit run addr in
theorem moveDelivered_frame (flawless : s.flaws = []) (x : Ring) (data : List Byte) : moveDelivered s x g d data =
    { s with mem := (moveDelivered s x g d data).mem, out := (moveDelivered s x g d data).out } := by
  unfold moveDelivered
  by_cases op : hmOp d = 1
  · rw [if_pos op, hostLand_flawless flawless]
  · rw [if_neg op, foldl_hostWrites]

theorem exec_hostMoveComplete_delivers (data : List Byte) (served : hmLines g d ≤ (getRing s r.val).moved)
    (good : hmOp d = 1 ∨ (sealed s g.q = false ∧ (getRing s r.val).gaps = [])) :
    exec (.hostMoveComplete r (.ok data)) s = .next (ringOk (moveDelivered s (getRing s r.val) g d data) r.val d g.q) := by
  rw [exec_hostMoveComplete_ok run addr, if_neg (not_lt.2 served), moveDelivered]
  by_cases op : hmOp d = 1
  · rw [if_pos op, if_pos op]
  · obtain ⟨openQ, gapless⟩ := good.resolve_left op
    rw [if_neg op, if_neg op, if_neg (by rw [openQ]; decide), if_neg (by rw [gapless]; decide)]

theorem exec_hostMoveComplete_done (flawless : s.flaws = []) (data : List Byte)
    (served : hmLines g d ≤ (getRing s r.val).moved)
    (good : hmOp d = 1 ∨ (sealed s g.q = false ∧ (getRing s r.val).gaps = [])) :
    ∃ t, exec (.hostMoveComplete r (.ok data)) s = .next t ∧
      getRing t r.val = moveEnded s (getRing s r.val) r.val 0 false ∧
      stsWritten s (getRing s r.val) r.val 0 ∈ t.out ∧
      (hmIrq d = true → bit (reg t (at' pgHST 0x10)) r.val = true) ∧
      (hmOp d = 1 → t.mem = (hostLand s (getRing s r.val) g d (fit 0 (hmLen d) data)).mem ∧
        ((getRing s r.val).gaps = [] → ∀ a, rdByte t a = rdByte (wrCells s
          (((List.range (hmLen d)).map (fun i => gaByte g (g.byte + i))).zip (fit 0 (hmLen d) data))) a)) ∧
      (hmOp d ≠ 1 → t.mem = s.mem ∧ ∀ q ∈ hostReqs 512 (hmHaddr d) (getRing s r.val).got.length,
        .hostWr q.1 (((getRing s r.val).got.drop (q.1 - hmHaddr d)).take q.2) ∈ t.out) ∧
      t = { s with rings := t.rings, out := t.out, regs := t.regs, mem := t.mem, clus := t.clus, dirty := t.dirty } ∧
      (hmCr d = true → hmCredit s d g.q = true →
        getCtr t (16 * g.q + hmClu d) (hmCC d) = { getCtr s (16 * g.q + hmClu d) (hmCC d) with
          sum := (getCtr s (16 * g.q + hmClu d) (hmCC d)).sum - 1, at' := s.clk.dst } ∧
        (16 * g.q + hmClu d, hmCC d) ∈ t.dirty) ∧
      (hmCr d = false → t.clus = s.clus ∧ t.dirty = s.dirty) := by
  have ran := exec_hostMoveComplete_delivers run addr data served good
  have frame := moveDelivered_frame (g := g) (d := d) flawless (getRing s r.val) data
  have landed : hmOp d = 1 → moveDelivered s (getRing s r.val) g d data =
      hostLand s (getRing s r.val) g d (fit 0 (hmLen d) data) := fun op => if_pos op
  have written : hmOp d ≠ 1 → moveDelivered s (getRing s r.val) g d data =
      hostWrites s (hmHaddr d) (getRing s r.val).got := fun op => if_neg op
  generalize moveDelivered s (getRing s r.val) g d data = u at *
  obtain ⟨ring, sts, older, irq, whole⟩ := ringOk_spec u r.isLt d g.q
  obtain ⟨credited, counter, none⟩ := moveCredited_spec u d g.q
  have same : getRing u r.val = getRing s r.val := by rw [frame]; rfl
  have ended : moveEnded u (getRing s r.val) r.val 0 false = moveEnded s (getRing s r.val) r.val 0 false := by rw [frame]; rfl
  have base : stsWritten u (getRing s r.val) r.val 0 = stsWritten s (getRing s r.val) r.val 0 := by rw [frame]; rfl
  have clus : u.clus = s.clus := by rw [frame]
  have dirty : u.dirty = s.dirty := by rw [frame]
  have clk : u.clk = s.clk := by rw [frame]
  have stale : u.stale = s.stale := by rw [frame]
  have credits : hmCredit u d g.q = hmCredit s d g.q := by rw [frame]; rfl
  rw [same, ended] at ring
  rw [same, base] at sts
  generalize moveCredited u d g.q = v at *
  generalize ringOk u r.val d g.q = t at *
  have mem : t.mem = u.mem := by rw [whole]
  have staleT : t.stale = u.stale := by rw [whole]
  have clusT : t.clus = v.clus := by rw [whole]
  have dirtyT : t.dirty = v.dirty := by rw [whole]
  refine ⟨t, ran, ring, sts, irq, fun op => ⟨by rw [mem, landed op], fun gapless a => ?_⟩, fun op => ⟨?_, fun q hq => ?_⟩, ?_,
    fun cr ok => ?_, fun off => ?_⟩
  · rw [← hostLand_whole flawless (by rw [length_fit]) served gapless, ← landed op]
    exact rdByte_congr mem staleT a
  · rw [mem, written op, foldl_hostWrites]
  · refine older _ ?_
    rw [written op, foldl_hostWrites]
    exact List.mem_append_left _ (List.mem_reverse.2 (List.mem_map_of_mem hq))
  · rw [whole, frame]
  · obtain ⟨sum, dirtied⟩ := counter cr (credits.trans ok)
    have ctr : getCtr t (16 * g.q + hmClu d) (hmCC d) = getCtr v (16 * g.q + hmClu d) (hmCC d) := by
      simp only [getCtr, getClu, clusT]
    have ctrS : getCtr u (16 * g.q + hmClu d) (hmCC d) = getCtr s (16 * g.q + hmClu d) (hmCC d) := by
      simp only [getCtr, getClu, clus]
    rw [ctr, sum, ctrS, clk, dirtyT]
    exact ⟨rfl, dirtied⟩
  · rw [clusT, dirtyT, none off]
    exact ⟨clus, dirty⟩

end

/-! ## HST_RING_CTL -/

theorem exec_ringRestart_spec {s : State} (hs : Served s pgHST) (r : Fin 4) (v : W32) :
    ∃ t, exec (.ringRestart r v) s = .next t ∧ bit (reg t (ringOff r.val 0x208)) 8 = bit v 8 ∧
      (bit (reg s (ringOff r.val 0x208)) 8 = true →
        fld (reg t (ringOff r.val 0x208)) 4 0 = fld (reg s (ringOff r.val 0x208)) 4 0) ∧
      (bit (reg s (ringOff r.val 0x208)) 8 = false → 4 ≤ fld v 4 0 → fld v 4 0 ≤ 16 →
        fld (reg t (ringOff r.val 0x208)) 4 0 = fld v 4 0) ∧ RegsKept s t [ringOff r.val 0x208] ∧
      getRing t r.val = { getRing s r.val with halt := (getRing s r.val).halt && !bit v 9 } ∧
      (∀ k, k ≠ r.val → getRing t k = getRing s k) ∧ t = { s with regs := t.regs, rings := t.rings } := by
  have run : exec (.ringRestart r v) s = .next (ringCtl s r.val v) := congrArg Host.Outcome.next (hostWrite_served hs _ _)
  let size := if bit (reg s (ringOff r.val 0x208)) 8 = true ∨ fld v 4 0 < 4 ∨ 16 < fld v 4 0 then
    fld (reg s (ringOff r.val 0x208)) 4 0 else fld v 4 0
  have small : size < 32 := by
    show (if _ then _ else _) < 32
    split <;> exact Nat.mod_lt _ (by decide)
  let u := setReg s (ringOff r.val 0x208) (BitVec.ofNat 32 (size + (if bit v 8 then 0x100 else 0)))
  have eq : ringCtl s r.val v = if bit v 9 then setRing u r.val { getRing u r.val with halt := false } else u := rfl
  have regs : (ringCtl s r.val v).regs = u.regs := by rw [eq]; split <;> rfl
  have word : reg (ringCtl s r.val v) (ringOff r.val 0x208) = BitVec.ofNat 32 (size + (if bit v 8 then 0x100 else 0)) :=
    (reg_congr regs _).trans (reg_setReg _ _ _)
  have field : fld (reg (ringCtl s r.val v) (ringOff r.val 0x208)) 4 0 = size := by
    rw [word, fld, BitVec.toNat_ofNat]
    cases bit v 8 <;> simp <;> omega
  refine ⟨_, run, ?_, fun on => ?_, fun off h1 h2 => ?_, (regsKept_setReg s _ _).of_regs_eq regs, ?_, fun k hk => ?_, ?_⟩
  · rw [word, bit, BitVec.toNat_ofNat, Nat.testBit_eq_decide_div_mod_eq]
    cases on : bit v 8 with
    | true => exact decide_eq_true (by simp; omega)
    | false => exact decide_eq_false (by simp; omega)
  · rw [field]
    exact if_pos (.inl on)
  · rw [field]
    exact if_neg (by rw [off]; exact not_or.2 ⟨Bool.false_ne_true, by omega⟩)
  · rw [eq]
    cases bit v 9 with
    | true =>
      refine (getRing_setRing u r.val _).trans ?_
      rw [Bool.not_true, Bool.and_false]
      rfl
    | false =>
      rw [Bool.not_false, Bool.and_true]
      rfl
  · rw [eq]
    split
    · exact getRing_setRing_ne u _ hk
    · rfl
  · rw [eq]
    split <;> rfl

/-- Settles O56: windows, slots, doorbells and descriptors by their rules; a move's lines cover its bytes in order, so that
the data of a whole move lands byte for byte. -/
theorem hostWindowsAndRings : Obligations.HostWindowsAndRings := by
  unfold Obligations.HostWindowsAndRings
  refine ⟨fun v s hs => exec_hstWinWrite_spec hs v, fun off len tag s hb => ⟨exec_bar2Read_off hb, fun hw hq sealedQ => ?_,
    exec_bar2Read_waits hb⟩, fun off d s hb => ⟨exec_bar2Write_off hb d, exec_bar2Write_waits hb d⟩, ?_,
    fun r v s hb hp => exec_doorbell_spec r v hb hp, fun r d s turn live => ⟨hmCheck_empty, hmCheck_op, exec_hostMove_spec r d turn live⟩,
    ?_, ?_, fun r v s hs => exec_ringRestart_spec hs r v⟩
  · obtain ⟨count, kept, quiet, logs, frame⟩ := sealDeny_spec s (winReq s off len tag none).q.val
    refine ⟨_, exec_bar2Read_sealed hb hw hq sealedQ, ?_, count, quiet, fun h => (logs h).congr rfl, ?_⟩
    · unfold emit
      rw [frame]
    · unfold emit
      rw [frame]
  · intro q r pre rest s slots queue mine older sound flawless room
    exact ⟨fun d => exec_hostSlotService_writes slots queue mine older sound flawless,
      exec_hostSlotService_reads slots queue mine older sound flawless,
      exec_hostSlotService_sealed slots queue mine older sound⟩
  · intro q r d g s move flawless x as taken
    exact ⟨fun op => hostLine_toModule op taken, fun op openQ => hostLine_toHost flawless op openQ taken⟩
  · intro r d g s run addr flawless x as sts ended failed
    refine ⟨fun data => ?_, fun data => exec_hostMoveComplete_early run addr data, fun data served op bad => ?_,
      fun data served good => ?_⟩
    · obtain ⟨t, ran, ⟨ring, out, clus, logged⟩, mem⟩ := exec_hostMoveComplete_failed run addr flawless data
      exact ⟨t, ran, ⟨ring, out, clus, logged⟩, mem⟩
    · obtain ⟨t, ran, ⟨ring, out, clus, logged⟩, mem⟩ := exec_hostMoveComplete_refused run addr data served op bad
      exact ⟨t, ran, ⟨ring, out, clus, logged⟩, mem⟩
    · exact exec_hostMoveComplete_done run addr flawless data served good

end Sys2Proof
end

section
/-! PROOFS. Memory, ports and circuits do no more to the jobs than fault them: `FaultsOnly` of their operations. -/

namespace Sys2Proof

open Sys2Proof.Machine

/-! ## Registers and faults -/

theorem faultsOnly_setReg (s : State) {o : Nat} (v : W32) (ho : NotImgAddr o) : FaultsOnly s (setReg s o v) :=
  .of_regsKept rfl (regsKept_setReg s o v) (by simpa using ho)

theorem faultsOnly_faultOpt (s : State) (o : Option Nat) : FaultsOnly s (faultOpt s o) := by
  cases o with
  | none => exact .refl s
  | some j => exact faultsOnly_jobFault s j

theorem faultsOnly_ite {s t u : State} {p : Prop} [Decidable p] (ht : FaultsOnly s t) (hu : FaultsOnly s u) :
    FaultsOnly s (if p then t else u) := by
  split
  · exact ht
  · exact hu

/-- An entry of any source changes no image's address. -/
theorem faultsOnly_entry (s : State) (src sev code : Nat) (acc : BitVec 12) (d0 d1 : W32) :
    FaultsOnly s (post s src sev code acc d0 d1) := by
  refine .of_regsKept (by simp) (post_regs s src sev code acc d0 d1) (fun o ho k hk => ?_)
  rcases List.mem_cons.1 ho with rfl | ho
  · simp only [at', pgSCH, pgLDG]; omega
  · split at ho
    · obtain rfl := List.mem_singleton.1 ho
      simp only [at', pgSCH]; omega
    · cases ho

/-- The count of a slot's collisions lies beside the address of its image. -/
theorem notImgAddr_collisions (j : Nat) : NotImgAddr (at' pgSCH (0x118 + 0x40 * j)) := by
  intro k hk
  simp only [at', pgSCH]
  omega

theorem pgSCH_lt_pgMC (q st : Nat) : pgSCH < pgMC q st := by simp only [pgSCH, pgMC, pgQD]; omega

theorem pgSCH_lt_pgUE (q st : Nat) : pgSCH < pgUE q st := by simp only [pgSCH, pgUE, pgQD]; omega

theorem pgSCH_lt_pgRE (q c : Nat) : pgSCH < pgRE q c := by simp only [pgSCH, pgRE, pgQD]; omega

theorem pgSCH_lt_pgRT (q c : Nat) : pgSCH < pgRT q c := by simp only [pgSCH, pgRT, pgQD]; omega

theorem pgSCH_lt_memPage (a : Nat) : pgSCH < memPage a := by
  unfold memPage
  split
  · exact pgSCH_lt_pgMC _ _
  · exact pgSCH_lt_pgCLU _ _

theorem faultsOnly_faultsAt (s : State) (clu page : Nat) (es : List (Nat × W32 × W32)) (h : pgSCH < page) :
    FaultsOnly s (faultsAt s clu page es) :=
  (faultsOnly_foldl (fun t _ => (faultsOnly_bump t 1 (notImgAddr_of_page _ (pgSCH_lt_pgCLU _ _))).trans
    (faultsOnly_post _ _ _ _ _ _ h)) es s).trans (faultsOnly_faultOpt _ _)

theorem faultsOnly_collide (s : State) (page off q hi lo : Nat) (h : pgSCH < page) :
    FaultsOnly s (collide s page off q hi lo) := by
  have counted : FaultsOnly s (if off = 0 then s else bump s (at' page off) 1) :=
    faultsOnly_ite (.refl s) (faultsOnly_bump s 1 (notImgAddr_of_page _ h))
  unfold collide
  dsimp only
  split
  · exact counted.trans (faultsOnly_post _ _ _ _ _ _ h)
  · exact counted.trans (faultsOnly_countedFault _ _ _ _ _ _ _ (notImgAddr_collisions _) h)

/-! ## Memory and its checks (R152, R296, R388) -/

theorem faultsOnly_pendRow (s : State) (u : Nat) : FaultsOnly s (pendRow s u) := by
  unfold pendRow
  dsimp only
  split
  · exact .refl s
  · exact (faultsOnly_entry s _ _ _ _ _ _).trans (.of_eq rfl rfl)

theorem faultsOnly_pendUnit (s : State) (b : BadUnit) : FaultsOnly s (pendUnit s b) := by
  unfold pendUnit
  split
  · exact .refl s
  · exact (faultsOnly_entry s _ _ _ _ _ _).trans (.of_eq rfl rfl)

theorem faultsOnly_annexCe (s : State) (u : Nat) : FaultsOnly s (annexCe s u) := by
  unfold annexCe
  split
  · have noted (ws : List Nat) : FaultsOnly s { s with bup := { s.bup with ceWords := ws } } := .of_eq rfl rfl
    exact faultsOnly_ite ((noted _).trans (faultsOnly_pendRow _ u)) (noted _)
  · exact .refl s

theorem faultsOnly_annexUe (s : State) (u : Nat) : FaultsOnly s (annexUe s u) :=
  faultsOnly_ite (faultsOnly_pendRow s u) (faultsOnly_ite (faultsOnly_pendUnit s _) (.refl s))

theorem faultsOnly_memCe (s : State) (u : Nat) : FaultsOnly s (memCe s u) :=
  faultsOnly_ite (faultsOnly_bump s 1 (notImgAddr_of_page _ (pgSCH_lt_pgMC _ _)))
    ((faultsOnly_bump s 1 (notImgAddr_of_page _ (pgSCH_lt_memPage u))).trans (faultsOnly_annexCe _ u))

theorem faultsOnly_memCes (s : State) (fs : List (Nat × Nat)) : FaultsOnly s (fs.foldl (fun s f => memCe s f.1) s) := by
  have one (t : State) (f : Nat × Nat) : FaultsOnly t (memCe t f.1) := faultsOnly_memCe t f.1
  exact faultsOnly_foldl one fs s

theorem faultsOnly_memUe (s : State) (w : Who) (u : Nat) : FaultsOnly s (memUe s w u) := by
  have inHbm : ∀ o, NotImgAddr (at' (pgMC (quadOf u) (stackOf u)) o) := fun o => notImgAddr_of_page o (pgSCH_lt_pgMC _ _)
  unfold memUe
  dsimp only
  refine .trans (.trans (faultsOnly_ite ?_ ?_) (faultsOnly_entry _ _ _ _ _ _ _)) (faultsOnly_faultOpt _ _)
  · exact ((faultsOnly_bump s 1 (inHbm 0x104)).trans (faultsOnly_setReg _ _ (inHbm 0x108))).trans
      (faultsOnly_setReg _ _ (inHbm 0x10C))
  · exact (faultsOnly_bump s 1 (notImgAddr_of_page _ (pgSCH_lt_memPage u))).trans (faultsOnly_annexUe _ u)

theorem faultsOnly_memUes (s : State) (w : Who) (us : List Nat) : FaultsOnly s (us.foldl (fun s u => memUe s w u) s) :=
  faultsOnly_foldl (f := fun s u => memUe s w u) (fun s u => faultsOnly_memUe s w u) us s

theorem faultsOnly_readCheck (s : State) (w : Who) (as : List Nat) : FaultsOnly s (readCheck s w as).1 := by
  unfold readCheck
  dsimp only
  split
  · exact (faultsOnly_memCes s _).trans (faultsOnly_memUe _ w _)
  · exact faultsOnly_memCes s _

theorem faultsOnly_readLine (s : State) (w : Who) (line : Nat) (want : Nat → Bool) :
    FaultsOnly s (readLine s w line want).1 := by
  unfold readLine
  dsimp only
  split
  · exact .refl s
  · exact faultsOnly_readCheck s w _

theorem faultsOnly_store (s : State) (w : Who) (cs : List Host.Cell) : FaultsOnly s (store s w cs) := by
  have written (cs : List Host.Cell) : FaultsOnly s (wrCells s cs) := .of_eq rfl rfl
  have cleared (t : State) (fs : List (Nat × Nat)) : FaultsOnly t { t with flaws := fs } := .of_eq rfl rfl
  unfold store
  dsimp only
  refine faultsOnly_ite (written cs) (.trans ?_ (faultsOnly_memUes _ w _))
  exact ((written _).trans (cleared _ _)).trans (faultsOnly_memCes _ _)

theorem faultsOnly_setMc (s : State) (m : Nat) (x : Mc) : FaultsOnly s (setMc s m x) := .of_eq rfl rfl

theorem faultsOnly_hbmAccept (s : State) (w : Who) (q st t n a : Nat) : FaultsOnly s (hbmAccept s w q st t n a).1 := by
  have page : ∀ o, NotImgAddr (at' (pgMC q st) o) := fun o => notImgAddr_of_page o (pgSCH_lt_pgMC q st)
  unfold hbmAccept
  dsimp only
  split
  · exact ((faultsOnly_bump s 1 (page 0x114)).trans (faultsOnly_post _ _ _ _ _ _ (pgSCH_lt_pgMC q st))).trans
      (faultsOnly_faultOpt _ _)
  · exact (faultsOnly_setMc s _ _).trans (faultsOnly_setReg _ _ (page 0x110))

theorem faultsOnly_portMeet (s : State) (m : Nat) : FaultsOnly s (portMeet s m).1 := by
  unfold portMeet
  split
  · dsimp only
    split
    · have page : pgSCH < pgUE (m / 3) (m % 3) := pgSCH_lt_pgUE _ _
      exact ((faultsOnly_bump s 1 (notImgAddr_of_page 0x110 page)).trans
        (faultsOnly_bump _ 1 (notImgAddr_collisions _))).trans
        (faultsOnly_countedFault _ _ _ _ _ _ _ (notImgAddr_of_page 0x114 page) page)
    · exact .refl s
  · exact .refl s

theorem faultsOnly_portAccept (s : State) (j : Nat) (w : Who) (line : Nat) : FaultsOnly s (portAccept s j w line).1 := by
  unfold portAccept
  dsimp only
  split
  · exact .refl s
  · split
    · exact faultsOnly_collide s _ _ _ _ _ (pgSCH_lt_pgMC _ _)
    · split
      · exact (faultsOnly_portMeet s _).trans (faultsOnly_hbmAccept _ w _ _ _ _ _)
      · exact faultsOnly_portMeet s _

/-! ## Circuits (R252 to R260) -/

theorem faultsOnly_cirFault (s : State) (j code : Nat) (x : Contrib) : FaultsOnly s (cirFault s j code x) :=
  (faultsOnly_post s _ _ _ _ _ (by decide)).trans (faultsOnly_jobFault _ j)

theorem faultsOnly_setCtx (s : State) (e : Nat) (x : Ctx) : FaultsOnly s (setCtx s e x) := .of_eq rfl rfl

theorem faultsOnly_bumpCir (s : State) (o : Nat) : FaultsOnly s (bump s (at' pgCIR o) 1) :=
  faultsOnly_bump s 1 (notImgAddr_of_page o (by decide))

theorem faultsOnly_sendChunk (s : State) (e dst chunk wid : Nat) (down last : Bool) (bytes : List Byte) :
    FaultsOnly s (sendChunk s e dst chunk wid down last bytes) :=
  faultsOnly_foldl (fun s _ => (faultsOnly_nextMid s _).trans (faultsOnly_originateAll _ _ _ _)) _ s

theorem faultsOnly_handResult (s : State) (e chunk : Nat) (res : List Byte) :
    FaultsOnly s (handResult s e chunk res) := by
  have sent (ins : List (BitVec 16)) (last : Bool) : FaultsOnly s (ins.foldl (fun t w =>
      sendChunk t e (inNode w) chunk (downWid (getCtx s e).defn) true last res) s) :=
    faultsOnly_foldl (fun t w => faultsOnly_sendChunk t e _ _ _ _ _ _) ins s
  exact faultsOnly_ite (sent _ _) ((sent _ _).trans (.of_eq rfl rfl))

theorem faultsOnly_qCheck (s : State) (n : Nat) : FaultsOnly s (qCheck s n).1 := by
  unfold qCheck
  dsimp only
  split
  · exact .refl s
  · exact .of_eq rfl rfl

theorem faultsOnly_cirUe (s : State) (e chunk : Nat) : FaultsOnly s (cirUe s e chunk) := by
  have dropped (rs : List (Nat × Nat)) : FaultsOnly s { s with cready := rs } := .of_eq rfl rfl
  unfold cirUe
  exact ((dropped _).trans (faultsOnly_entry _ _ _ _ _ _ _)).trans (faultsOnly_jobFault _ _)

theorem faultsOnly_staged (s : State) (e chunk : Nat) {f : State → State} (hf : ∀ s, FaultsOnly s (f s)) :
    FaultsOnly s (staged s e chunk f) :=
  faultsOnly_ite ((faultsOnly_qCheck s _).trans (hf _)) ((faultsOnly_qCheck s _).trans (faultsOnly_cirUe _ e chunk))

theorem faultsOnly_stagePart (s : State) (e : Nat) (p : Part) : FaultsOnly s (stagePart s e p) := by
  unfold stagePart
  dsimp only
  split
  · exact .of_eq rfl rfl
  · split
    · exact (faultsOnly_setCtx s e _).trans (faultsOnly_staged _ e _ (fun s => faultsOnly_handResult s e _ _))
    · split
      · exact .of_eq rfl rfl
      · exact .of_eq rfl rfl

theorem faultsOnly_takePart (s : State) (j e : Nat) (c : Contrib) (input : Nat) :
    FaultsOnly s (takePart s j e c input) := by
  unfold takePart
  dsimp only
  split
  · exact .refl s
  · split
    · exact (faultsOnly_bumpCir s _).trans (faultsOnly_ite (faultsOnly_setCtx _ e _) (faultsOnly_cirFault _ j _ c))
    · exact faultsOnly_stagePart s e _

theorem faultsOnly_stepFault (s : State) (j e : Nat) (c : Contrib) : FaultsOnly s (stepFault s j e c) := by
  refine faultsOnly_ite (faultsOnly_setCtx s e _) ?_
  refine .trans ?_ (faultsOnly_jobFault _ j)
  exact ((faultsOnly_setCtx s e _).trans (faultsOnly_post _ _ _ _ _ _ (by decide))).trans
    (faultsOnly_post _ _ _ _ _ _ (by decide))

theorem faultsOnly_dupPart (s : State) (j : Nat) (c : Contrib) : FaultsOnly s (dupPart s j c) :=
  faultsOnly_ite (faultsOnly_cirFault s j _ c) (faultsOnly_bumpCir s _)

theorem faultsOnly_byState (s : State) (j e : Nat) (c : Contrib) (input : Nat) : FaultsOnly s (byState s j e c input) :=
  faultsOnly_ite (faultsOnly_stepFault s j e c) <|
  faultsOnly_ite (faultsOnly_ite (faultsOnly_cirFault s j _ c)
    ((faultsOnly_setCtx s e _).trans (faultsOnly_takePart _ j e c input))) <|
  faultsOnly_ite (faultsOnly_stepFault s j e c) <|
  faultsOnly_ite (faultsOnly_cirFault s j _ c) <|
  faultsOnly_ite (faultsOnly_dupPart s j c) <|
  faultsOnly_ite (faultsOnly_dupPart s j c) (faultsOnly_takePart s j e c input)

theorem faultsOnly_noCtx (s : State) (c : Contrib) : FaultsOnly s (noCtx s c) := by
  have counted := faultsOnly_bumpCir s 0x114
  unfold noCtx
  dsimp only
  split
  · exact counted.trans (faultsOnly_cirFault _ _ _ c)
  · exact counted.trans (faultsOnly_ite (.refl _) (faultsOnly_post _ _ _ _ _ _ (by decide)))

theorem faultsOnly_takeContrib (s : State) (c : Contrib) : FaultsOnly s (takeContrib s c) := by
  unfold takeContrib
  split
  · exact faultsOnly_noCtx s c
  · split
    · exact faultsOnly_noCtx s c
    · refine faultsOnly_ite (faultsOnly_cirFault s _ _ c) ?_
      split
      · exact faultsOnly_cirFault s _ _ c
      · exact faultsOnly_ite (faultsOnly_cirFault s _ _ c)
          (faultsOnly_ite (faultsOnly_bumpCir s _) (faultsOnly_byState s _ _ c _))

/-- The same for a fold that carries something beside the state. -/
theorem faultsOnly_foldl_fst {α β : Type} {f : State × α → β → State × α} (hf : ∀ x b, FaultsOnly x.1 (f x b).1)
    (l : List β) (x : State × α) : FaultsOnly x.1 (l.foldl f x).1 := by
  induction l generalizing x with
  | nil => exact .refl x.1
  | cons b r ih => exact (hf x b).trans (ih _)

theorem faultsOnly_takeRed (s : State) (core : CoreId) (ctx bkt : Nat) (step : W32) (bytes : List Byte) :
    FaultsOnly s (takeRed s core ctx bkt step bytes) := by
  unfold takeRed
  split
  · exact .refl s
  · dsimp only
    split
    · exact faultsOnly_noCtx s _
    · refine faultsOnly_ite (faultsOnly_cirFault s _ _ _) ?_
      split
      · exact faultsOnly_cirFault s _ _ _
      · refine faultsOnly_ite (faultsOnly_cirFault s _ _ _) ?_
        exact faultsOnly_foldl_fst (fun _ _ => faultsOnly_foldl
          (fun s _ => faultsOnly_ite (faultsOnly_takeContrib s _) (.refl s)) _ _) _ (s, bytes)

end Sys2Proof
end

section
/-! PROOFS. What is in flight in a core or a unit runs to its end at a reset (R391): it does no more to the jobs than
fault them, and with nothing in flight nothing happens. -/

namespace Sys2Proof

open Sys2Proof.Machine

/-! ## The events of an operation -/

theorem faultsOnly_setCore (s : State) (c : CoreId) (x : Core) : FaultsOnly s (setCore s c x) := .of_eq rfl rfl

theorem faultsOnly_lineIn (s : State) (cid : CoreId) (ts : List Td) (f : OpFly) (e : Ev) :
    FaultsOnly s (lineIn s cid ts f e).1 := by
  unfold lineIn
  dsimp only
  split
  · exact faultsOnly_readLine s _ _ _
  · exact faultsOnly_readLine s _ _ _

theorem faultsOnly_slotFault (s : State) (c : CoreId) (off code slot : Nat) : FaultsOnly s (slotFault s c off code slot) :=
  faultsOnly_faultsAt s _ _ _ (pgSCH_lt_pgCLU _ _)

theorem faultsOnly_tdEvent (s : State) (cid : CoreId) (o : TdOp) (e : Ev) : FaultsOnly s (tdEvent s cid o e).1 := by
  unfold tdEvent
  split
  · exact faultsOnly_store s _ _
  · exact .refl s

theorem faultsOnly_mxEvent (s : State) (cid : CoreId) (f : OpFly) (e : Ev) : FaultsOnly s (mxEvent s cid f e).1 := by
  unfold mxEvent
  dsimp only
  split
  · exact faultsOnly_lineIn s cid _ f e
  · exact faultsOnly_store s _ _
  · split
    · exact faultsOnly_setCore s cid _
    · split
      · exact faultsOnly_ite (faultsOnly_slotFault s cid _ _ _) (.refl s)
      · exact faultsOnly_setCore s cid _

theorem faultsOnly_stEvent (s : State) (cid : CoreId) (f : OpFly) (e : Ev) : FaultsOnly s (stEvent s cid f e).1 := by
  unfold stEvent
  dsimp only
  split
  · exact faultsOnly_lineIn s cid _ f e
  · exact .refl s
  · exact faultsOnly_store s _ _

theorem faultsOnly_moveSend (s : State) (cid : CoreId) (j : Nat) (m : Move) (a : End) (b : Option End) :
    FaultsOnly s (moveSend s cid j m a b) := by
  unfold moveSend
  split
  · exact faultsOnly_takeRed s cid _ _ _ _
  · exact faultsOnly_sendMessages s j _ _ _ _ _

theorem faultsOnly_mvEvent (s : State) (cid : CoreId) (m : Move) (e : Ev) : FaultsOnly s (mvEvent s cid m e).1 := by
  unfold mvEvent
  split
  case h_1 j a b _ _ =>
    have accepted (w : Who) : FaultsOnly s (portAccept s j w e.line).1 := faultsOnly_portAccept s j w e.line
    dsimp only
    split
    · exact faultsOnly_moveSend s cid j m a b
    · split
      · exact accepted _
      · exact (accepted _).trans (faultsOnly_readLine _ _ _ _)
    · split
      · split
        · exact (accepted _).trans (faultsOnly_store _ _ _)
        · exact accepted _
      · exact accepted _
  case h_2 => exact .refl s

theorem faultsOnly_reFactor (s : State) (cl : Clu) (f : CmdFly) : FaultsOnly s (reFactor s cl f).1 := by
  have page : ∀ o, NotImgAddr (at' (pgRE cl.q.val cl.c.val) o) := fun o => notImgAddr_of_page o (pgSCH_lt_pgRE _ _)
  refine faultsOnly_ite (.refl s) ((faultsOnly_bump s _ (page 0x108)).trans (faultsOnly_setReg _ _ ?_))
  split
  · exact page 0x100
  · exact page 0x104

theorem faultsOnly_reEvent (s : State) (cl : Clu) (f : CmdFly) (e : Ev) : FaultsOnly s (reEvent s cl f e).1 := by
  unfold reEvent
  dsimp only
  split
  · exact faultsOnly_readLine s _ _ _
  · split
    · exact .refl s
    · split
      · exact .refl s
      · split
        · exact faultsOnly_reFactor s cl f
        · exact .refl s
  · exact faultsOnly_store s _ _

theorem faultsOnly_rtDead (s : State) (cl : Clu) (f : CmdFly) (code hi : Nat) : FaultsOnly s (rtDead s cl f code hi).1 := by
  refine faultsOnly_faultsAt s _ _ _ ?_
  simp only [unitPage, pgSCH, pgRT, pgRE, pgQD]
  split <;> omega

theorem faultsOnly_rtGatherRow (s : State) (j : Nat) (cl : Clu) (f : CmdFly) (i c : Nat) :
    FaultsOnly s (rtGatherRow s j cl f i c).1 := by
  have accepted (w : Who) (ls : List Nat) : FaultsOnly s (ls.foldl (fun (a : State × Bool) l =>
      if a.2 then portAccept a.1 j w l else a) (s, true)).1 := by
    refine faultsOnly_foldl_fst (fun x l => ?_) ls (s, true)
    split
    · exact faultsOnly_portAccept x.1 j w l
    · exact .refl x.1
  unfold rtGatherRow
  dsimp only
  split
  · exact faultsOnly_ite (faultsOnly_bump s 1 (notImgAddr_of_page _ (pgSCH_lt_pgRT _ _))) (.refl s)
  · split
    · exact (accepted _ _).trans (faultsOnly_readCheck _ _ _)
    · exact accepted _ _

theorem faultsOnly_iteFst {α : Type} {s : State} {p : Prop} [Decidable p] {x y : State × α} (hx : FaultsOnly s x.1)
    (hy : FaultsOnly s y.1) : FaultsOnly s (if p then x else y).1 := by
  split
  · exact hx
  · exact hy

theorem faultsOnly_rtWork (s : State) (j : Nat) (cl : Clu) (f : CmdFly) (e : Ev) : FaultsOnly s (rtWork s j cl f e).1 := by
  have same (g : CmdFly) : FaultsOnly s (s, g).1 := .refl s
  refine faultsOnly_iteFst (same _) <| faultsOnly_iteFst (same _) <| faultsOnly_iteFst (same _) <|
    faultsOnly_iteFst (same _) <| faultsOnly_iteFst (faultsOnly_iteFst ?gatherList
      (faultsOnly_iteFst (faultsOnly_rtGatherRow s j cl f _ _) (same _))) <|
    faultsOnly_iteFst (same _) <| faultsOnly_iteFst (faultsOnly_iteFst (faultsOnly_rtDead s cl f _ _) (same _)) (same _)
  case gatherList =>
    split
    · exact faultsOnly_rtDead s cl f _ _
    · exact .refl s

theorem faultsOnly_rtEvent (s : State) (cl : Clu) (f : CmdFly) (e : Ev) : FaultsOnly s (rtEvent s cl f e).1 := by
  unfold rtEvent
  split
  · exact faultsOnly_store s _ _
  · split
    · exact .refl s
    · dsimp only
      split
      · exact (faultsOnly_readCheck s _ _).trans (faultsOnly_rtWork _ _ cl f e)
      · exact faultsOnly_readCheck s _ _

theorem faultsOnly_cmdEvent (rt : Bool) (s : State) (cl : Clu) (f : CmdFly) (e : Ev) :
    FaultsOnly s (cmdEvent rt s cl f e).1 := by
  unfold cmdEvent
  split
  · exact faultsOnly_rtEvent s cl f e
  · exact faultsOnly_reEvent s cl f e

/-! ## Everything in flight -/

/-- A unit's operations run to their ends one after the other. -/
theorem faultsOnly_drained {α : Type} {ev : State → α → Ev → State × α} (hev : ∀ s o e, FaultsOnly s (ev s o e).1)
    (plan : α → List Ev) (fly : List α) (s : State) : FaultsOnly s
      (fly.foldl (fun s o => ((plan o).foldl (fun x e => ev x.1 x.2 e) (s, o)).1) s) :=
  faultsOnly_foldl (fun s o => faultsOnly_foldl_fst (fun x e => hev x.1 x.2 e) (plan o) (s, o)) fly s

theorem faultsOnly_drainCore (s : State) (cid : CoreId) : FaultsOnly s (drainCore s cid) := by
  have td (s : State) (fly : List TdOp) := faultsOnly_drained (fun s o e => faultsOnly_tdEvent s cid o e) TdOp.plan fly s
  have mx (s : State) (fly : List OpFly) := faultsOnly_drained (fun s o e => faultsOnly_mxEvent s cid o e) OpFly.plan fly s
  have st (s : State) (fly : List OpFly) := faultsOnly_drained (fun s o e => faultsOnly_stEvent s cid o e) OpFly.plan fly s
  have mv (s : State) (fly : List Move) := faultsOnly_drained (fun s o e => faultsOnly_mvEvent s cid o e) Move.plan fly s
  exact (((td s _).trans (mx _ _)).trans (st _ _)).trans (mv _ _)

theorem faultsOnly_drainUnit (s : State) (k : Nat) (rt : Bool) : FaultsOnly s (drainUnit s k rt) :=
  faultsOnly_drained (fun s f e => faultsOnly_cmdEvent rt s (cluOfKey k) f e) CmdFly.plan _ s

theorem drainCore_idle {s : State} {cid : CoreId} (h : coreIdle (getCore s cid) = true) : drainCore s cid = s := by
  simp only [coreIdle, Bool.and_eq_true, List.isEmpty_iff] at h
  obtain ⟨⟨⟨td, mx⟩, st⟩, mv⟩ := h
  simp only [drainCore, td, mx, st, mv, List.foldl_nil]

theorem drainUnit_idle {s : State} {k : Nat} {rt : Bool} (h : (unitOf rt (getClu s k)).fly = []) : drainUnit s k rt = s := by
  simp only [drainUnit, h, List.foldl_nil]

/-! ## Arrivals and BAR2 requests of what is reset (R392) -/

theorem faultsOnly_absorbAt (s : State) (p : Arrival → Bool) : FaultsOnly s (absorbAt s p) := by
  have counted (n : Nat) : FaultsOnly s (bump s (at' pgBUP 0x114) n) :=
    faultsOnly_bump s n (by intro k hk; simp only [at', pgSCH, pgBUP]; omega)
  exact (counted _).trans (.of_eq rfl rfl)

theorem refuseBar2_frame (s : State) (q : Nat) :
    refuseBar2 s q = { s with out := (refuseBar2 s q).out, bar2 := (refuseBar2 s q).bar2 } := by
  have told (l : List Bar2) (s : State) : l.foldl (fun s r => emit s (.cpl 1 r.tag [])) s =
      { s with out := (l.foldl (fun s r => emit s (.cpl 1 r.tag [])) s).out } := by
    induction l generalizing s with
    | nil => rfl
    | cons r l ih => rw [List.foldl_cons, ih]; rfl
  unfold refuseBar2
  rw [told]

theorem faultsOnly_refuseBar2 (s : State) (q : Nat) : FaultsOnly s (refuseBar2 s q) :=
  refuseBar2_frame s q ▸ .of_eq rfl rfl

end Sys2Proof
end

section
/-! PROOFS. Resets begin with a write of RST_CTL; the reset of a core and of a cluster (R391, R393, R395). -/

namespace Sys2Proof

open Sys2Proof.Machine

/-! ## The write of RST_CTL -/

/-- A reset is in progress. -/
def inReset (s : State) (r : ResetRun) : State := { s with bup := { s.bup with rst := some r } }

theorem rstCtl_begins {s : State} {v : W32} {k : Nat} (h : ResetWrite s v k) (f : State → State) :
    rstCtl s k v f = inReset (f s) (resetRun v k) := by
  obtain ⟨served, scope, none⟩ := h
  rw [rstCtl, hostWrite_served served, if_neg (not_not.2 scope), startReset, none]
  rfl

/-- While a reset at least as wide is in progress, one asked for is rejected and logged (R393). -/
theorem rstCtl_rejected {s : State} {v : W32} {k : Nat} {r : ResetRun} (served : Served s pgBUP) (scope : fld v 2 0 = k)
    (run : s.bup.rst = some r) (wide : k ≤ r.scope) (f : State → State) :
    rstCtl s k v f = post s pgBUP sevWarning 0x100A 0 0 0 := by
  rw [rstCtl, hostWrite_served served, if_neg (not_not.2 scope), startReset, run]
  exact if_neg (Nat.not_lt.2 wide)

/-- The job that is resident on a quadrant ends FAULTED when a reset drains what is in flight and then faults the quadrant's job. -/
theorem faultOpt_after {s d u : State} {q j : Nat} (drained : FaultsOnly s d) (same : u.jobs = d.jobs)
    (h : residentOn s q = some j) : (getJob (faultOpt u (residentOn d q)) j).st = .faulted := by
  rcases drained.residentOn_or_faulted h with already | stays
  · exact faultOpt_keeps_faulted _ (by rw [getJob_congr same]; exact already)
  · rw [stays]
    exact jobFault_faulted (.inl (by rw [getJob_congr same]; exact resident_of_residentOn stays))

theorem faultOpt_absorbAt {s d : State} {q j : Nat} (drained : FaultsOnly s d) (p : Arrival → Bool)
    (h : residentOn s q = some j) : (getJob (faultOpt (absorbAt d p) (residentOn d q)) j).st = .faulted :=
  faultOpt_after drained rfl h

theorem loseAll_frame (s : State) (rs : List Nat) :
    loseAll s rs = { s with mem := (loseAll s rs).mem, stale := (loseAll s rs).stale } := by
  unfold loseAll
  induction rs generalizing s with
  | nil => rfl
  | cons r rs ih => rw [List.foldl_cons, ih]; rfl

/-! ## A core -/

/-- What has landed nowhere yet and writes the core's shelf or stream store. -/
def coreArrival (c : CoreId) (a : Arrival) : Bool :=
  a.writes.any (fun w => (spaceOf w.1 == 3 || spaceOf w.1 == 4) && quadOf w.1 == c.cl.q.val && cluOf w.1 == c.cl.c.val
    && (w.1 >>> 28) % 128 == c.k.val)

/-- The core's operations have ended, its arrivals are gone and the job on it is faulted. -/
def coreStopped (s : State) (c : CoreId) : State :=
  faultOpt (absorbAt (drainCore s c) (coreArrival c)) (residentOn (drainCore s c) c.cl.q.val)

theorem resetCore_eq (s : State) (c : CoreId) :
    resetCore s c = loseRegion (setCore (coreStopped s c) c Core.reset) (regionOf (shelfAddr c 0)) := rfl

theorem exec_coreReset {s : State} {v : W32} (h : ResetWrite s v 1) (hc : hasCluster s v = true) {id : CoreId}
    (hq : id.cl.q.val = fld v 4 3) (hcl : id.cl.c.val = fld v 8 5) (hk : id.k.val = fld v 15 9) :
    exec (.coreReset v) s = .next (inReset (resetCore s id) (resetRun v 1)) := by
  have named : (⟨⟨Fin.ofNat 4 (fld v 4 3), Fin.ofNat 16 (fld v 8 5)⟩, Fin.ofNat 96 (fld v 15 9)⟩ : CoreId) = id := by
    rw [← hq, ← hcl, ← hk]
    simp
  refine congrArg Host.Outcome.next ((if_pos ⟨hc, hk ▸ id.k.isLt⟩).trans ?_)
  rw [rstCtl_begins h, named]

theorem resetCore_core (s : State) (c : CoreId) : getCore (resetCore s c) c = Core.reset :=
  getCore_setCore (coreStopped s c) c Core.reset

theorem resetCore_faults {s : State} {c : CoreId} {j : Nat} (h : residentOn s c.cl.q.val = some j) :
    (getJob (resetCore s c) j).st = .faulted :=
  faultOpt_absorbAt (faultsOnly_drainCore s c) (coreArrival c) h

/-- On a quadrant without a job the reset of an idle core touches that core, its memory and what was to land there. -/
theorem resetCore_idle {s : State} {c : CoreId} (free : residentOn s c.cl.q.val = none)
    (idle : coreIdle (getCore s c) = true) : resetCore s c = { s with
      cores := (setCore s c Core.reset).cores, regs := (resetCore s c).regs, fab := (resetCore s c).fab
      mem := (resetCore s c).mem, stale := (resetCore s c).stale } := by
  have stopped : coreStopped s c = absorbAt s (coreArrival c) := by rw [coreStopped, drainCore_idle idle, free]; rfl
  rw [resetCore_eq, stopped]
  rfl

/-! ## A cluster -/

/-- What has landed nowhere yet and writes the cluster's memory or counts on its counters. -/
def cluArrival (q c : Nat) (a : Arrival) : Bool :=
  a.writes.any (fun w => decide (2 ≤ spaceOf w.1) && quadOf w.1 == q && cluOf w.1 == c)
    || (match a.credit with | some (x, _, _) => x.q.val == q && x.c.val == c | none => false)

/-- Everything in flight in the cluster has ended. -/
def cluDrained (s : State) (k : Nat) : State :=
  drainUnit (drainUnit ((s.cores.filter (fun e => e.1 / 96 == k)).foldl (fun s e => drainCore s (coreOfKey e.1)) s)
    k false) k true

/-- The cluster's operations have ended, its arrivals are gone and the job on it is faulted. -/
def cluStopped (s : State) (q c : Nat) : State :=
  faultOpt (absorbAt (cluDrained s (16 * q + c)) (cluArrival q c)) (residentOn (cluDrained s (16 * q + c)) q)

/-- The cluster and its cores at reset, with their registers. -/
def cluGone (u : State) (q c : Nat) : State :=
  clearPages (setClu { u with cores := u.cores.filter (fun e => e.1 / 96 != 16 * q + c) } (16 * q + c) Cluster.reset)
    (fun p => [pgCLU q c, pgRE q c, pgSHW q c, pgRT q c].contains p)

theorem loseAll_keeps (s : State) (rs : List Nat) :
    (loseAll s rs).clus = s.clus ∧ (loseAll s rs).cores = s.cores ∧ (loseAll s rs).jobs = s.jobs ∧
      (loseAll s rs).clk = s.clk ∧ (loseAll s rs).cus = s.cus ∧ (loseAll s rs).links = s.links := by
  rw [loseAll_frame]
  exact ⟨rfl, rfl, rfl, rfl, rfl, rfl⟩

theorem resetCluster_eq (s : State) (q c : Nat) :
    resetCluster s q c = loseAll (cluGone (cluStopped s q c) q c) (sramRegions q c) := rfl

theorem resetCluster_keeps (s : State) (q c : Nat) :
    (resetCluster s q c).clus = (cluGone (cluStopped s q c) q c).clus ∧
      (resetCluster s q c).cores = (cluGone (cluStopped s q c) q c).cores ∧
      (resetCluster s q c).jobs = (cluStopped s q c).jobs ∧ (resetCluster s q c).clk = (cluStopped s q c).clk ∧
      (resetCluster s q c).cus = (cluStopped s q c).cus ∧ (resetCluster s q c).links = (cluStopped s q c).links := by
  rw [resetCluster_eq]
  generalize cluStopped s q c = u
  exact loseAll_keeps (cluGone u q c) (sramRegions q c)

theorem exec_clusterReset {s : State} {v : W32} (h : ResetWrite s v 2) (hc : hasCluster s v = true) :
    exec (.clusterReset v) s = .next (inReset (resetCluster s (fld v 4 3) (fld v 8 5)) (resetRun v 2)) :=
  congrArg Host.Outcome.next ((if_pos hc).trans (rstCtl_begins h _))

theorem faultsOnly_cluDrained (s : State) (k : Nat) : FaultsOnly s (cluDrained s k) := by
  have core (s : State) (e : Nat × Core) : FaultsOnly s (drainCore s (coreOfKey e.1)) := faultsOnly_drainCore s _
  exact ((faultsOnly_foldl core _ s).trans (faultsOnly_drainUnit _ k false)).trans (faultsOnly_drainUnit _ k true)

theorem resetCluster_faults {s : State} {q j : Nat} (c : Nat) (h : residentOn s q = some j) :
    (getJob (resetCluster s q c) j).st = .faulted := by
  have stopped : (getJob (cluStopped s q c) j).st = .faulted :=
    faultOpt_absorbAt (faultsOnly_cluDrained s (16 * q + c)) (cluArrival q c) h
  exact (congrArg Job.st (getJob_congr (resetCluster_keeps s q c).2.2.1 j)).trans stopped

theorem getClu_congr {s t : State} (h : t.clus = s.clus) (k : Nat) : getClu t k = getClu s k := by simp only [getClu, h]

theorem cluGone_cluster (u : State) (q c : Nat) : getClu (cluGone u q c) (16 * q + c) = Cluster.reset :=
  getClu_setClu u _ Cluster.reset

theorem cluGone_cluster_ne (u : State) {q c k : Nat} (hk : k ≠ 16 * q + c) : getClu (cluGone u q c) k = getClu u k :=
  getClu_setClu_ne u Cluster.reset hk

theorem cluGone_cores (u : State) (q c : Nat) (d : CoreId) :
    getCore (cluGone u q c) d = if d.cl.key = 16 * q + c then Core.reset else getCore u d := by
  have place : d.key / 96 = d.cl.key := by simp only [CoreId.key]; omega
  refine (tget_filter_key Core.reset (fun i => i / 96 != 16 * q + c) u.cores d.key).trans ?_
  rw [place]
  by_cases e : d.cl.key = 16 * q + c
  · rw [if_pos e, if_neg (by simp [e])]
  · rw [if_neg e, if_pos (bne_iff_ne.2 e)]
    rfl

theorem cluDrained_idle {s : State} {k : Nat} (cores : ∀ e ∈ s.cores, e.1 / 96 = k → coreIdle (getCore s (coreOfKey e.1)) = true)
    (re : (getClu s k).re.fly = []) (rt : (getClu s k).rt.fly = []) : cluDrained s k = s := by
  have same : (s.cores.filter (fun e => e.1 / 96 == k)).foldl (fun s e => drainCore s (coreOfKey e.1)) s = s := by
    refine foldl_eq_self (fun e he => ?_)
    obtain ⟨mem, mine⟩ := List.mem_filter.1 he
    exact drainCore_idle (cores e mem (beq_iff_eq.1 mine))
  rw [cluDrained, same, drainUnit_idle (rt := false) re, drainUnit_idle (rt := true) rt]

theorem cluStopped_idle {s : State} {q c : Nat} (free : residentOn s q = none)
    (cores : ∀ e ∈ s.cores, e.1 / 96 = 16 * q + c → coreIdle (getCore s (coreOfKey e.1)) = true)
    (re : (getClu s (16 * q + c)).re.fly = []) (rt : (getClu s (16 * q + c)).rt.fly = []) :
    cluStopped s q c = absorbAt s (cluArrival q c) := by
  rw [cluStopped, cluDrained_idle cores re rt, free]
  rfl

/-! ## What a write of RST_CTL with scope 1 or 2 does -/

theorem coreReset_outcome {s : State} {v : W32} (h : ResetWrite s v 1) (hc : hasCluster s v = true) {id : CoreId}
    (hq : id.cl.q.val = fld v 4 3) (hcl : id.cl.c.val = fld v 8 5) (hk : id.k.val = fld v 15 9) :
    ∃ t, exec (.coreReset v) s = .next t ∧ t.bup.rst = some (resetRun v 1) ∧ getCore t id = Core.reset ∧
      (∀ j, residentOn s (fld v 4 3) = some j → (getJob t j).st = .faulted) ∧
      (residentOn s (fld v 4 3) = none → coreIdle (getCore s id) = true →
        (∀ d : CoreId, d.key ≠ id.key → getCore t d = getCore s d) ∧ t.jobs = s.jobs ∧
        t.clus = s.clus ∧ t.clk = s.clk ∧ t.cus = s.cus ∧ t.links = s.links) := by
  refine ⟨inReset (resetCore s id) (resetRun v 1), exec_coreReset h hc hq hcl hk, rfl, resetCore_core s id, ?_, ?_⟩
  · exact fun j hj => resetCore_faults (hq ▸ hj)
  · intro free idle
    have frame := resetCore_idle (hq ▸ free) idle
    generalize resetCore s id = u at *
    rw [frame]
    exact ⟨fun d hd => getCore_setCore_ne s Core.reset hd, rfl, rfl, rfl, rfl, rfl⟩

/-- What `t` shows of a cluster's reset that started in `s`: the cluster and its cores at reset, the job on it faulted; and with
no job there and nothing in flight, no other cluster or core, and no job, changed. -/
def ClusterAtReset (s t : State) (q c : Nat) : Prop :=
  getClu t (16 * q + c) = Cluster.reset ∧ (∀ j, residentOn s q = some j → (getJob t j).st = .faulted) ∧
    (∀ d : CoreId, d.cl.key = 16 * q + c → getCore t d = Core.reset) ∧
    (residentOn s q = none → (∀ e ∈ s.cores, e.1 / 96 = 16 * q + c → coreIdle e.2 = true ∧ e.2 = getCore s (coreOfKey e.1)) →
      (getClu s (16 * q + c)).re.fly = [] → (getClu s (16 * q + c)).rt.fly = [] →
      (∀ k, k ≠ 16 * q + c → getClu t k = getClu s k) ∧
      (∀ d : CoreId, d.cl.key ≠ 16 * q + c → getCore t d = getCore s d) ∧ t.jobs = s.jobs ∧ t.clk = s.clk ∧
      t.cus = s.cus ∧ t.links = s.links)

theorem ClusterAtReset.inReset {s t : State} {q c : Nat} (h : ClusterAtReset s t q c) (r : ResetRun) :
    ClusterAtReset s (inReset t r) q c := h

theorem resetCluster_spec (s : State) (q c : Nat) : ClusterAtReset s (resetCluster s q c) q c := by
  obtain ⟨clus, cores, jobs, clk, cus, links⟩ := resetCluster_keeps s q c
  refine ⟨(getClu_congr clus _).trans (cluGone_cluster _ q c), fun j hj => resetCluster_faults c hj, fun d hd => ?_, ?_⟩
  · exact ((getCore_congr cores d).trans (cluGone_cores _ q c d)).trans (if_pos hd)
  · intro free idle re rt
    have stopped : cluStopped s q c = absorbAt s (cluArrival q c) :=
      cluStopped_idle free (fun e he mine => by rw [← (idle e he mine).2]; exact (idle e he mine).1) re rt
    rw [stopped] at clus cores jobs clk cus links
    refine ⟨fun k hk => ?_, fun d hd => ?_, jobs, clk, cus, links⟩
    · exact (getClu_congr clus k).trans (cluGone_cluster_ne _ hk)
    · exact ((getCore_congr cores d).trans (cluGone_cores _ q c d)).trans (if_neg hd)

end Sys2Proof
end

section
/-! PROOFS. The reset of a quadrant (R369, R391, R392). -/

namespace Sys2Proof

open Sys2Proof.Machine

/-! ## Regions of a quadrant's SRAM -/

/-- Shelves and marginalia stores lie above HBM. -/
theorem sramRegions_high {q c r : Nat} (h : r ∈ sramRegions q c) : 2 ^ 20 ≤ r := by
  have above (a : Nat) (ha : 2 ^ 48 ≤ a) : 2 ^ 20 ≤ regionOf a := by
    rw [regionOf, if_neg (by omega), Nat.shiftRight_eq_div_pow]
    omega
  rcases List.mem_append.1 h with h | h
  · obtain ⟨k, -, rfl⟩ := List.mem_map.1 h
    exact above _ (by unfold shelfAddr; omega)
  · rw [List.mem_singleton.1 h]
    exact above _ (by unfold margAddr; omega)

theorem rdByte_loseAll_ne {s : State} {rs : List Nat} {a : Nat} (h : regionOf a ∉ rs) : rdByte (loseAll s rs) a = rdByte s a := by
  unfold loseAll
  induction rs generalizing s with
  | nil => rfl
  | cons r rs ih =>
    obtain ⟨ne, other⟩ := List.ne_and_not_mem_of_not_mem_cons h
    rw [List.foldl_cons, ih other, rdByte_loseRegion_ne s ne]

theorem rdByte_loseSram {s : State} {q a : Nat} (ha : a < 2 ^ 47) :
    rdByte (loseAll s ((List.range 16).flatMap (sramRegions q))) a = rdByte s a := by
  refine rdByte_loseAll_ne fun h => ?_
  obtain ⟨c, -, hr⟩ := List.mem_flatMap.1 h
  have high := sramRegions_high hr
  rw [regionOf, if_pos ha, Nat.shiftRight_eq_div_pow] at high
  omega

/-! ## The job ends and the quadrant's units are reset -/

/-- Requests of BAR2 are refused, arrivals are gone and the job on the quadrant is faulted. -/
def quadStopped (s : State) (q : Nat) : State :=
  let d := absorbAt (refuseBar2 s q) (fun a => a.q.val == q)
  faultOpt d (residentOn d q)

/-- Cores, clusters, engines, controllers and registers of the quadrant at reset. -/
def quadGone (u : State) (q : Nat) : State :=
  clearPages { u with
    cores := u.cores.filter (fun e => e.1 / 1536 != q)
    clus := u.clus.filter (fun e => e.1 / 16 != q)
    ues := u.ues.filter (fun e => e.1 / 3 != q), stops := tput none u.stops q none
    mcs := tmap Mc.reset (fun m x => if m / 3 = q then { Mc.reset with ppr := x.ppr } else x) u.mcs }
    (fun p => decide (0x1000 ≤ p) && p / 0x100 % 0x10 == q)

theorem resetQuad_eq (s : State) (q : Nat) : resetQuad s q =
    if sealed (quadGone (quadStopped s q) q) q then zeroise (quadGone (quadStopped s q) q) q
    else loseAll (quadGone (quadStopped s q) q) ((List.range 16).flatMap (sramRegions q)) := rfl

/-- What the end of a quadrant's job leaves: clock, Ledger, bring-up, custody, lane cells and memory. -/
theorem quadStopped_keeps (s : State) (q : Nat) : (quadStopped s q).clk = s.clk ∧ (quadStopped s q).ldg = s.ldg ∧
    (quadStopped s q).bup = s.bup ∧ (quadStopped s q).cus = s.cus ∧ (quadStopped s q).cells = s.cells := by
  unfold quadStopped
  dsimp only
  rw [refuseBar2_frame]
  simp [absorbAt]

theorem quadStopped_faults {s : State} {q j : Nat} (h : residentOn s q = some j) :
    (getJob (quadStopped s q) j).st = .faulted :=
  faultOpt_after ((faultsOnly_refuseBar2 s q).trans (faultsOnly_absorbAt _ _)) rfl h

/-- With no job on the quadrant memory reads as before. -/
theorem quadStopped_mem (s : State) (q : Nat) : (quadStopped s q).mem = s.mem ∧ (quadStopped s q).stale = s.stale := by
  unfold quadStopped
  dsimp only
  rw [refuseBar2_frame]
  simp [absorbAt]

/-! ## The quadrant's memory -/

theorem resetQuad_frame (s : State) (q : Nat) : ∃ z, resetQuad s q = { quadGone (quadStopped s q) q with
    mem := (resetQuad s q).mem, stale := (resetQuad s q).stale, flaws := (resetQuad s q).flaws
    cores := (resetQuad s q).cores, clus := (resetQuad s q).clus, fab := (resetQuad s q).fab, bar2 := (resetQuad s q).bar2
    cus := { s.cus with zbusy := z } } := by
  have cus : (quadGone (quadStopped s q) q).cus = s.cus := (quadStopped_keeps s q).2.2.2.1
  rw [resetQuad_eq]
  generalize quadGone (quadStopped s q) q = u at *
  split
  · obtain ⟨m, st, fl, x0, x1, x2, x3, z, e⟩ := (zeroise_spec u q).1
    exact ⟨z, by rw [e, cus]⟩
  · exact ⟨s.cus.zbusy, by rw [loseAll_frame, cus]⟩

/-- A place without an entry reads the default. -/
theorem tget_of_absent {α : Type} (d : α) {t : Tab α} {k : Nat} (h : ∀ e ∈ t, e.1 ≠ k) : tget d t k = d :=
  (tget_eq_default_or_mem d t k).resolve_right fun hm => h _ hm rfl

/-- Zeroising makes no entry of its own. -/
theorem zeroise_entries {u : State} {q : Nat} :
    (∀ e ∈ (zeroise u q).cores, ∃ x ∈ u.cores, x.1 = e.1) ∧ (∀ e ∈ (zeroise u q).clus, ∃ x ∈ u.clus, x.1 = e.1) := by
  refine ⟨fun e he => ?_, fun e he => ?_⟩
  · obtain ⟨x, hx, rfl⟩ := List.mem_map.1 (List.mem_filter.1 he).1
    exact ⟨x, hx, rfl⟩
  · obtain ⟨x, hx, rfl⟩ := List.mem_map.1 (List.mem_filter.1 he).1
    exact ⟨x, hx, rfl⟩

/-- No core or cluster of the quadrant has an entry of its own after the reset. -/
theorem resetQuad_entries (s : State) (q : Nat) :
    (∀ e ∈ (resetQuad s q).cores, e.1 / 1536 ≠ q) ∧ (∀ e ∈ (resetQuad s q).clus, e.1 / 16 ≠ q) := by
  have cores : ∀ e ∈ (quadGone (quadStopped s q) q).cores, e.1 / 1536 ≠ q := fun e he => bne_iff_ne.1 (List.mem_filter.1 he).2
  have clus : ∀ e ∈ (quadGone (quadStopped s q) q).clus, e.1 / 16 ≠ q := fun e he => bne_iff_ne.1 (List.mem_filter.1 he).2
  rw [resetQuad_eq]
  generalize quadGone (quadStopped s q) q = u at *
  split
  · refine ⟨fun e he => ?_, fun e he => ?_⟩
    · obtain ⟨x, hx, place⟩ := zeroise_entries.1 e he
      exact place ▸ cores x hx
    · obtain ⟨x, hx, place⟩ := zeroise_entries.2 e he
      exact place ▸ clus x hx
  · rw [loseAll_frame]
    exact ⟨cores, clus⟩

theorem resetQuad_core {s : State} {q : Nat} {d : CoreId} (h : d.cl.q.val = q) : getCore (resetQuad s q) d = Core.reset := by
  refine tget_of_absent _ fun e he place => (resetQuad_entries s q).1 e he ?_
  have := d.cl.c.isLt
  have := d.k.isLt
  simp only [place, CoreId.key, Clu.key]
  omega

theorem resetQuad_cluster {s : State} {q k : Nat} (h : k / 16 = q) : getClu (resetQuad s q) k = Cluster.reset :=
  tget_of_absent _ fun e he place => (resetQuad_entries s q).2 e he (place ▸ h)

/-- A sealed quadrant's SRAM reads 0 after the reset (R369). -/
theorem resetQuad_zeroised {s : State} {q a : Nat} (shut : sealed s q = true) (ha : 2 ^ 48 ≤ a) (hq : a / 2 ^ 39 % 4 = q) :
    rdByte (resetQuad s q) a = 0 := by
  have kept : sealed (quadGone (quadStopped s q) q) q = true := by
    have cus : (quadGone (quadStopped s q) q).cus = s.cus := (quadStopped_keeps s q).2.2.2.1
    rw [sealed, cus]
    exact shut
  rw [resetQuad_eq, if_pos kept, (zeroise_spec _ q).2.1 a ha, if_pos hq]

/-- HBM stays (R392). -/
theorem resetQuad_hbm {s : State} {q a : Nat} (ha : a < 2 ^ 47) : rdByte (resetQuad s q) a = rdByte s a := by
  have kept : rdByte (quadGone (quadStopped s q) q) a = rdByte s a :=
    rdByte_congr (quadStopped_mem s q).1 (quadStopped_mem s q).2 a
  rw [resetQuad_eq]
  generalize quadGone (quadStopped s q) q = u at *
  split
  · rw [(zeroise_spec u q).2.2.1 a (by omega), kept]
  · rw [rdByte_loseSram ha, kept]

theorem exec_quadrantReset {s : State} {v : W32} (h : ResetWrite s v 3) :
    exec (.quadrantReset v) s = .next (inReset (resetQuad s (fld v 4 3)) (resetRun v 3)) :=
  congrArg Host.Outcome.next (rstCtl_begins h _)

theorem resetQuad_spec (s : State) (q : Nat) :
    (∀ j, residentOn s q = some j → (getJob (resetQuad s q) j).st = .faulted) ∧
      (∀ d : CoreId, d.cl.q.val = q → getCore (resetQuad s q) d = Core.reset) ∧
      (∀ k, k / 16 = q → getClu (resetQuad s q) k = Cluster.reset) ∧
      owner (resetQuad s q) q = owner s q ∧ (resetQuad s q).cus.seals = s.cus.seals ∧
      (sealed s q = true → ∀ a, 2 ^ 48 ≤ a → a / 2 ^ 39 % 4 = q → rdByte (resetQuad s q) a = 0) ∧
      (residentOn s q = none → ∀ a, a < 2 ^ 47 → rdByte (resetQuad s q) a = rdByte s a) := by
  obtain ⟨z, frame⟩ := resetQuad_frame s q
  refine ⟨fun j hj => ?_, fun d hd => resetQuad_core hd, fun k hk => resetQuad_cluster hk, ?_, ?_,
    fun shut a ha hq => resetQuad_zeroised shut ha hq, fun _ a ha => resetQuad_hbm ha⟩
  · have stopped := quadStopped_faults hj
    generalize quadStopped s q = u at *
    generalize resetQuad s q = t at *
    rw [frame]
    exact stopped
  · generalize resetQuad s q = t at *
    rw [frame]
    rfl
  · generalize resetQuad s q = t at *
    rw [frame]

end Sys2Proof
end

section
/-! PROOFS. The resets of the hub and of the module (R344, R371, R391). -/

namespace Sys2Proof

open Sys2Proof.Machine

/-! ## What the resets keep -/

/-- What a hub reset does not touch before it blanks the hub's state: the Datestamp, the Ledger's slots, the bring-up state,
the fuses and the lane cells. -/
structure HubKept (s t : State) : Prop where
  dst   : t.clk.dst = s.clk.dst
  slots : t.ldg.slots = s.ldg.slots
  bup   : t.bup = s.bup
  fuses : t.cus.fuses = s.cus.fuses
  cells : t.cells = s.cells

namespace HubKept

theorem refl (s : State) : HubKept s s := ⟨rfl, rfl, rfl, rfl, rfl⟩

theorem trans {s t u : State} (h : HubKept s t) (k : HubKept t u) : HubKept s u :=
  ⟨k.dst.trans h.dst, k.slots.trans h.slots, k.bup.trans h.bup, k.fuses.trans h.fuses, k.cells.trans h.cells⟩

theorem foldl {α : Type} {f : State → α → State} (hf : ∀ s a, HubKept s (f s a)) (l : List α) (s : State) :
    HubKept s (l.foldl f s) :=
  foldl_rel refl trans (fun a _ s => hf s a) s

end HubKept

theorem hubKept_post (s : State) (src sev code : Nat) (acc : BitVec 12) (d0 d1 : W32) :
    HubKept s (post s src sev code acc d0 d1) := by
  have slots : (post s src sev code acc d0 d1).ldg.slots = s.ldg.slots := by
    unfold post
    dsimp only
    split <;> split <;> rfl
  exact ⟨by simp, slots, by simp, by simp, by simp⟩

theorem hubKept_jobFault (s : State) (j : Nat) : HubKept s (jobFault s j) := by
  constructor <;> simp

theorem hubKept_resetQuad (s : State) (q : Nat) : HubKept s (resetQuad s q) := by
  obtain ⟨z, frame⟩ := resetQuad_frame s q
  obtain ⟨clk, ldg, bup, -, cells⟩ := quadStopped_keeps s q
  generalize quadStopped s q = u at *
  generalize resetQuad s q = t at *
  rw [frame]
  exact ⟨congrArg Clock.dst clk, congrArg Ledger.slots ldg, bup, rfl, cells⟩

theorem hubKept_freshKey (s : State) (q : Nat) : HubKept s (freshKey s q) := by
  obtain ⟨m, st, x, e⟩ := (freshKey_spec s q).1
  rw [e]
  exact ⟨rfl, rfl, rfl, rfl, rfl⟩

theorem hubKept_abortCal (s : State) : HubKept s (abortCal s) := by
  cases on : s.opt.calOn with
  | none => rw [show abortCal s = s by unfold abortCal; rw [on]]; exact .refl s
  | some x =>
    have freed (t : State) : HubKept t (freeCounter t) := by
      unfold freeCounter
      split <;> exact ⟨rfl, rfl, rfl, rfl, rfl⟩
    rw [abortCal_some on]
    refine .trans ?_ (freed _)
    rw [calBack_frame, calBack_frame s]
    exact ⟨rfl, rfl, rfl, rfl, rfl⟩

/-! ## Lane groups and cells at reset -/

/-- A lane group on its lanes at bring-up, else at reset (R386). -/
def bootLink (s : State) (g : Nat) : State := setLink s g { Link.reset (g % 4) with lanes := grpLanes s g }

/-- A lane in its role at bring-up (R316). -/
def bootLane (s : State) (k : Nat) : State :=
  setLane s k { getLane s k with role := bootRole s (k / 18) (k % 18), deferred := false }

theorem assignLanes_eq (s : State) :
    assignLanes s = (List.range 108).foldl bootLane ((List.range 24).foldl bootLink s) := rfl

theorem foldl_bootLane_frame (l : List Nat) (s : State) : l.foldl bootLane s = { s with lanes := (l.foldl bootLane s).lanes } :=
  foldl_rel (R := fun s t : State => t = { s with lanes := t.lanes }) (fun _ => rfl) (fun h k => by rw [k, h]) (fun _ _ _ => rfl) s

theorem getLink_foldl_bootLane (l : List Nat) (s : State) (g : Nat) : getLink (l.foldl bootLane s) g = getLink s g := by
  rw [foldl_bootLane_frame]
  rfl

theorem foldl_bootLink_frame (l : List Nat) (s : State) : l.foldl bootLink s = { s with links := (l.foldl bootLink s).links } :=
  foldl_rel (R := fun s t : State => t = { s with links := t.links }) (fun _ => rfl) (fun h k => by rw [k, h]) (fun _ _ _ => rfl) s

theorem assignLanes_frame (s : State) :
    assignLanes s = { s with links := (assignLanes s).links, lanes := (assignLanes s).lanes } := by
  rw [assignLanes_eq, foldl_bootLane_frame, foldl_bootLink_frame]

/-- Every lane group is DOWN and without an owner. -/
theorem assignLanes_down (s : State) {g : Nat} (hg : g < 24) :
    (getLink (assignLanes s) g).st = .down ∧ (getLink (assignLanes s) g).owner = 0 := by
  have booted : ((getLink ((List.range 24).foldl bootLink s) g).st, (getLink ((List.range 24).foldl bootLink s) g).owner) =
      (.down, 0) := by
    refine (foldl_named (obs := fun t => ((getLink t g).st, (getLink t g).owner)) (k := g) (v := (.down, 0))
      (fun k _ t => ?_) s).trans (if_pos (List.mem_range.2 hg))
    by_cases e : k = g
    · subst e
      simp [bootLink, Link.reset]
    · simp [bootLink, getLink_setLink_ne _ _ (Ne.symm e), e]
  rw [assignLanes_eq, getLink_foldl_bootLane]
  exact Prod.mk.inj booted

/-- A cell without HOLD goes DARK with its lasers (R307). -/
def darkCell (s : State) (x : Nat) : State :=
  if (getCell s x).hold then s
  else cellLight (cellLight (setCell s x LaneCell.reset) (2 * (x / 18)) (x % 18) 0) (2 * (x / 18) + 1) (x % 18) 0

theorem darkCells_eq (s : State) : darkCells s = (List.range 54).foldl darkCell s := rfl

theorem darkCell_spec (s : State) (x : Nat) :
    darkCell s x = { s with cells := (darkCell s x).cells, lanes := (darkCell s x).lanes } ∧
      getCell (darkCell s x) x = (if (getCell s x).hold then getCell s x else LaneCell.reset) ∧
      ∀ y, y ≠ x → getCell (darkCell s x) y = getCell s y := by
  unfold darkCell
  split
  · exact ⟨rfl, rfl, fun _ _ => rfl⟩
  · have first := (cellLight_spec (setCell s x LaneCell.reset) (2 * (x / 18)) (x % 18) 0).2.2
    generalize cellLight (setCell s x LaneCell.reset) (2 * (x / 18)) (x % 18) 0 = u at *
    have second := (cellLight_spec u (2 * (x / 18) + 1) (x % 18) 0).2.2
    generalize cellLight u (2 * (x / 18) + 1) (x % 18) 0 = w at *
    rw [second, first]
    exact ⟨rfl, getCell_setCell s x LaneCell.reset, fun y hy => getCell_setCell_ne s LaneCell.reset hy⟩

theorem darkCells_frame (s : State) : darkCells s = { s with cells := (darkCells s).cells, lanes := (darkCells s).lanes } :=
  foldl_rel (R := fun s t : State => t = { s with cells := t.cells, lanes := t.lanes }) (fun _ => rfl)
    (fun h k => by rw [k, h]) (fun x _ s => (darkCell_spec s x).1) s

theorem darkCells_cells (s : State) {x : Nat} (hx : x < 54) :
    getCell (darkCells s) x = if (getCell s x).hold then getCell s x else LaneCell.reset := by
  obtain ⟨u, before, after⟩ := foldl_around (R := fun s t : State => getCell t x = getCell s x) (f := darkCell)
    (fun _ => rfl) (fun h k => k.trans h) List.nodup_range (List.mem_range.2 hx)
    (fun y _ hy s => (darkCell_spec s y).2.2 x (Ne.symm hy)) s
  rw [darkCells_eq, after, (darkCell_spec u x).2.1, before]

theorem getLink_darkCells (s : State) (g : Nat) : getLink (darkCells s) g = getLink s g := by
  have frame := darkCells_frame s
  generalize darkCells s = t at *
  rw [frame]
  rfl

theorem getCell_assignLanes (s : State) (x : Nat) : getCell (assignLanes s) x = getCell s x := by
  have frame := assignLanes_frame s
  generalize assignLanes s = t at *
  rw [frame]
  rfl

theorem getLink_clearPages (s : State) (p : Nat → Bool) (g : Nat) : getLink (clearPages s p) g = getLink s g := rfl

theorem getCell_clearPages (s : State) (p : Nat → Bool) (x : Nat) : getCell (clearPages s p) x = getCell s x := rfl

/-! ## The hub -/

/-- Jobs ended, quadrants reset and keyed again, a calibration abandoned. -/
def hubQuiet (s : State) : State :=
  let s := if s.top.ready then post s pgTOP sevWarning 0x0E01 0 0 0 else s
  abortCal ([0, 1, 2, 3].foldl freshKey ([0, 1, 2, 3].foldl resetQuad ([0, 1, 2, 3].foldl jobFault s)))

/-- The hub's own state at reset. -/
def hubBlank (s : State) : State :=
  { s with
    jobs := [], grps := [], ctxs := [], cready := [], bar2 := []
    fab := Fabric.reset, top := Topology.reset
    opt := { s.opt with migs := [] }
    cus := { Custody.reset with fuses := s.cus.fuses, sensed := s.cus.sensed, crcStat := s.cus.crcStat,
                                xts := s.cus.xts, zbusy := s.cus.zbusy } }

/-- The pages that a hub reset clears. -/
def hubPage (p : Nat) : Bool := decide (9 ≤ p) && !([0xA, 0xB, 0x10].contains p)

/-- Groups and cells at reset, and the hub's pages cleared: nothing else of the hub changes with them. -/
theorem hubUnits_frame (u : State) : ∃ l n c r, clearPages (darkCells (assignLanes u)) hubPage =
    { u with links := l, lanes := n, cells := c, regs := r } := by
  have booted : ∃ l n, assignLanes u = { u with links := l, lanes := n } := ⟨_, _, assignLanes_frame u⟩
  generalize assignLanes u = t at *
  have dark : ∃ c n, darkCells t = { t with cells := c, lanes := n } := ⟨_, _, darkCells_frame t⟩
  generalize darkCells t = w at *
  obtain ⟨c, n, rfl⟩ := dark
  obtain ⟨l, m, rfl⟩ := booted
  exact ⟨l, n, c, u.regs.filter (fun e => !hubPage (e.1 / 4096)), rfl⟩

theorem resetHub_eq (s : State) : resetHub s = clearPages (darkCells (assignLanes (hubBlank (hubQuiet s)))) hubPage := by
  unfold resetHub hubQuiet hubBlank
  rfl

theorem hubKept_hubQuiet (s : State) : HubKept s (hubQuiet s) := by
  have warned : HubKept s (if s.top.ready then post s pgTOP sevWarning 0x0E01 0 0 0 else s) := by
    split
    · exact hubKept_post s _ _ _ _ _ _
    · exact .refl s
  exact (((warned.trans (.foldl hubKept_jobFault _ _)).trans (.foldl hubKept_resetQuad _ _)).trans
    (.foldl hubKept_freshKey _ _)).trans (hubKept_abortCal _)

/-- The hub's reset: every group DOWN and without owner, every cell without HOLD as at reset, and the rest as `hubBlank`. -/
theorem resetHub_spec (s : State) : (∀ g < 24, (getLink (resetHub s) g).st = .down ∧ (getLink (resetHub s) g).owner = 0) ∧
    (∀ x < 54, getCell (resetHub s) x = if (getCell s x).hold then getCell s x else LaneCell.reset) ∧
    ∃ l n c r, resetHub s = { hubBlank (hubQuiet s) with links := l, lanes := n, cells := c, regs := r } := by
  have cells (x : Nat) : getCell (hubBlank (hubQuiet s)) x = getCell s x :=
    congrArg (fun c => tget LaneCell.reset c x) (hubKept_hubQuiet s).cells
  rw [resetHub_eq]
  refine ⟨fun g hg => ?_, fun x hx => ?_, hubUnits_frame _⟩
  · rw [getLink_clearPages, getLink_darkCells]
    exact assignLanes_down _ hg
  · rw [getCell_clearPages, darkCells_cells _ hx, getCell_assignLanes, cells]

theorem resetHub_cleared (s : State) : HubCleared s (resetHub s) ∧ (resetHub s).bup = s.bup := by
  obtain ⟨links, cells, l, n, c, r, frame⟩ := resetHub_spec s
  obtain ⟨dst, slots, bup, fuses, -⟩ := hubKept_hubQuiet s
  generalize hubQuiet s = u at *
  generalize resetHub s = t at *
  subst frame
  exact ⟨⟨fun _ => rfl, rfl, rfl, rfl, rfl, rfl, rfl, rfl, rfl, rfl, rfl, rfl, fuses, links, cells, dst, slots,
    congrArg Bringup.soft bup⟩, bup⟩

theorem exec_hubReset {s : State} {v : W32} (h : ResetWrite s v 4) :
    exec (.hubReset v) s = .next (inReset (resetHub s) (resetRun v 4)) := congrArg Host.Outcome.next (rstCtl_begins h _)

/-! ## The module -/

/-- The module's reset clears what the hub's does, and leaves LOCAL and BAR0 (R391). -/
theorem resetModule_cleared (s : State) :
    HubCleared s (resetModule s) ∧ (resetModule s).bup.isLocal = false ∧ (resetModule s).bup.bar0 = false ∧
      (resetModule s).bup.perst = s.bup.perst := by
  obtain ⟨⟨jobs, ctxs, grps, bar2, fab, top, nonce, busy, own, keys, seals, debug, fuses, links, cells, dst, slots, soft⟩, bup⟩ :=
    resetHub_cleared s
  have perst : (resetHub s).bup.perst = s.bup.perst := congrArg Bringup.perst bup
  unfold resetModule
  generalize resetHub s = t at *
  exact ⟨⟨jobs, ctxs, grps, bar2, fab, top, nonce, busy, own, keys, seals, debug, fuses, links, cells, dst, slots, soft⟩,
    rfl, rfl, perst⟩

theorem exec_moduleReset {s : State} {v : W32} (h : ResetWrite s v 5) :
    exec (.moduleReset (.rstCtl v)) s = .next (inReset (resetModule s) (resetRun v 5)) :=
  congrArg Host.Outcome.next (rstCtl_begins h _)

/-- PERST_N is held low: BAR0 no longer decodes. -/
def perstLow (s : State) : State := { s with bup := { s.bup with perst := false, bar0 := false } }

theorem exec_perst {s : State} (rails : s.bup.railsOn = true) (none : s.bup.rst = none) :
    exec (.moduleReset .perst) s =
      .next (inReset (resetModule (perstLow s)) { scope := 5, q := 0, cl := 0, k := 0, test := false }) := by
  have low : ({ s with bup := { s.bup with perst := false, bar0 := false } } : State) = perstLow s := rfl
  refine congrArg Host.Outcome.next ((if_neg (by simp [rails])).trans ?_)
  split
  case h_1 o h => exact nomatch h.symm.trans none
  case h_2 =>
    exact congrArg (fun u => inReset (resetModule u) { scope := 5, q := 0, cl := 0, k := 0, test := false }) low

end Sys2Proof
end

section
/-! PROOFS. The middle of bring-up (R376, R382 to R386): keys, repairs, self-test and lanes change nothing of the phase that
bring-up has reached, of its entries in the Ledger, of the fuses, and of what SRAM reads. -/

namespace Sys2Proof

open Sys2Proof.Machine

/-- The phase that bring-up has reached, and what the pins and a reset say. -/
def bupPhase (b : Bringup) : Bool × Bool × Nat × Nat × Option ResetRun × Bool × Bool :=
  (b.isLocal, b.ready, b.phase, b.failph, b.rst, b.bar0, b.railsOn)

/-- Entries of bring-up that wait for their commit. -/
def bupWaits (s : State) : List Entry := s.ldg.wait.filter (fun e => e.src == pgBUP)

/-- What the steps between the clock check and step 9 keep. -/
structure BringKept (s t : State) : Prop where
  clk   : t.clk = s.clk
  waits : bupWaits t = bupWaits s
  phase : bupPhase t.bup = bupPhase s.bup
  fuses : t.cus.fuses = s.cus.fuses
  sense : t.cus.sensed = s.cus.sensed
  jobs  : t.jobs = s.jobs
  sram  : ∀ a, 2 ^ 47 ≤ a → rdByte t a = rdByte s a

namespace BringKept

theorem refl (s : State) : BringKept s s := ⟨rfl, rfl, rfl, rfl, rfl, rfl, fun _ _ => rfl⟩

theorem trans {s t u : State} (h : BringKept s t) (k : BringKept t u) : BringKept s u :=
  ⟨k.clk.trans h.clk, k.waits.trans h.waits, k.phase.trans h.phase, k.fuses.trans h.fuses, k.sense.trans h.sense,
    k.jobs.trans h.jobs, fun a ha => (k.sram a ha).trans (h.sram a ha)⟩

theorem foldl {α : Type} {f : State → α → State} (hf : ∀ s a, BringKept s (f s a)) (l : List α) (s : State) :
    BringKept s (l.foldl f s) :=
  foldl_rel refl trans (fun a _ s => hf s a) s

/-- Registers, error flags, the repair tables and the photonic state are none of it. -/
theorem of_touches {s t : State} (h : ∃ regs flaws mcs bup links lanes cells opt, t = { s with
    regs := regs, flaws := flaws, mcs := mcs, bup := bup, links := links, lanes := lanes, cells := cells, opt := opt })
    (phase : bupPhase t.bup = bupPhase s.bup) : BringKept s t := by
  obtain ⟨_, _, _, _, _, _, _, _, rfl⟩ := h
  exact ⟨rfl, rfl, phase, rfl, rfl, rfl, fun _ _ => rfl⟩

end BringKept

/-! ## Entries of repair -/

theorem bringKept_postRpr (s : State) (sev code : Nat) (acc : BitVec 12) (d0 d1 : W32) :
    BringKept s (post s pgRPR sev code acc d0 d1) := by
  have waits : bupWaits (post s pgRPR sev code acc d0 d1) = bupWaits s := by
    have h := post_logged s pgRPR sev code acc d0 d1
    unfold Logged at h
    unfold bupWaits
    split at h
    · rw [h.1]
    · rw [h.2, List.filter_append]
      exact List.append_nil _
  exact ⟨by simp, waits, by simp, by simp, by simp, by simp, fun a _ => rdByte_congr (by simp) (by simp) a⟩

theorem bringKept_addSoft (s : State) (u : BadUnit) (log : Bool) : BringKept s (addSoft s u log) := by
  unfold addSoft
  split
  · exact .refl s
  · have counted : BringKept s (bump s (at' pgRPR 0x130) 1) := .of_touches ⟨_, _, _, _, _, _, _, _, rfl⟩ rfl
    dsimp only
    split
    · exact (counted.trans (bringKept_postRpr _ _ _ _ _ _)).trans (.of_touches ⟨_, _, _, _, _, _, _, _, rfl⟩ rfl)
    · exact counted.trans (.of_touches ⟨_, _, _, _, _, _, _, _, rfl⟩ rfl)

theorem bringKept_shortCheck (s : State) (q : Nat) : BringKept s (shortCheck s q) := by
  unfold shortCheck
  split
  · exact bringKept_postRpr s _ _ _ _ _
  · exact .refl s

theorem bringKept_replaceRow (s : State) (row : Nat) : BringKept s (replaceRow s row) := by
  have cleared (fs : List (Nat × Nat)) : BringKept s { s with flaws := fs } := .of_touches ⟨_, _, _, _, _, _, _, _, rfl⟩ rfl
  unfold replaceRow
  dsimp only
  split
  · exact (cleared _).trans (.of_touches ⟨_, _, _, _, _, _, _, _, rfl⟩ rfl)
  · exact (cleared _).trans (bringKept_addSoft _ _ _)

theorem bringKept_runPpr (s : State) (m : Nat) : BringKept s (runPpr s m) := by
  have posted (l : List Nat) (d0 : W32) : BringKept s (l.foldl (fun s _ => post s pgRPR sevError 0x1008 0 d0 0) s) :=
    .foldl (fun s _ => bringKept_postRpr s _ _ _ _ _) l s
  exact (posted _ _).trans (.of_touches ⟨_, _, _, _, _, _, _, _, rfl⟩ rfl)

theorem bringKept_applyRepairs (s : State) (q : Nat) : BringKept s (applyRepairs s q) := by
  have rows (l : List Nat) (s : State) : BringKept s (l.foldl replaceRow s) := .foldl bringKept_replaceRow l s
  have units (l : List BadUnit) (s : State) : BringKept s (l.foldl (fun s u => addSoft s u false) s) :=
    .foldl (fun s u => bringKept_addSoft s u false) l s
  have repaired (l : List Nat) (s : State) : BringKept s (l.foldl (fun s st => runPpr s (3 * q + st)) s) :=
    .foldl (fun s st => bringKept_runPpr s _) l s
  have done (t : State) (rows : List Nat) (soft : List BadUnit) (words : List Nat) :
      BringKept t { t with bup := { t.bup with pendRows := rows, pendSoft := soft, ceWords := words } } :=
    .of_touches ⟨_, _, _, _, _, _, _, _, rfl⟩ rfl
  exact (((rows _ s).trans (units _ _)).trans (repaired _ _)).trans (done _ _ _ _)

theorem bringKept_selfTest (s : State) (b : BringUp) (p : Nat → Bool) : BringKept s (selfTest s b p) := by
  have tested (us : List BadUnit) : BringKept s { s with bup := { s.bup with tested := us } } :=
    .of_touches ⟨_, _, _, _, _, _, _, _, rfl⟩ rfl
  have units (l : List BadUnit) (s : State) : BringKept s (l.foldl (fun s u => addSoft s u true) s) :=
    .foldl (fun s u => bringKept_addSoft s u true) l s
  exact ((tested _).trans (units _ _)).trans (.foldl bringKept_replaceRow _ _)

/-! ## Keys and lanes -/

theorem bringKept_freshKey (s : State) {q : Nat} (hq : q < 4) : BringKept s (freshKey s q) := by
  obtain ⟨⟨m, st, x, frame⟩, sram⟩ := freshKey_spec s q
  have sram := sram hq
  generalize freshKey s q = t at *
  subst frame
  exact ⟨rfl, rfl, rfl, rfl, rfl, rfl, sram⟩

theorem bringKept_assignLanes (s : State) : BringKept s (assignLanes s) := by
  have frame := assignLanes_frame s
  generalize assignLanes s = t at *
  exact .of_touches ⟨_, _, _, _, _, _, _, _, frame⟩ (by rw [frame])

/-- Step 8 changes lanes and the temperature of the photonic die. -/
theorem lightLanes_frame (s : State) : lightLanes s = { s with lanes := (lightLanes s).lanes, opt := (lightLanes s).opt } := by
  unfold lightLanes
  have lit := foldl_rel (R := fun s t : State => t = { s with lanes := t.lanes }) (fun _ => rfl) (fun h k => by rw [k, h])
    (f := fun (s : State) k => if (getCell s (18 * (k / 36) + k % 18)).hold then s else setLane s k { getLane s k with
      laser := if (!(decide ((getLane s k).role = .failed) || decide ((getLane s k).role = .retired))) = true then .safe else .off
      ring := if (!(decide ((getLane s k).role = .failed) || decide ((getLane s k).role = .retired))) = true then .locked else .off
      ringAt := s.clk.dst, sweeps := 0 }) (l := List.range 108)
    (fun k _ s => by dsimp only; split <;> rfl) s
  dsimp only at lit ⊢
  rw [lit]

theorem bringKept_lightLanes (s : State) : BringKept s (lightLanes s) := by
  have frame := lightLanes_frame s
  generalize lightLanes s = t at *
  exact .of_touches ⟨_, _, _, _, _, _, _, _, frame⟩ (by rw [frame])

theorem bringKept_darkCells (s : State) : BringKept s (darkCells s) := by
  have frame := darkCells_frame s
  generalize darkCells s = t at *
  exact .of_touches ⟨_, _, _, _, _, _, _, _, frame⟩ (by rw [frame])

end Sys2Proof
end

section
/-! PROOFS. Bring-up and power-on (R376 to R380, R405). -/

namespace Sys2Proof

open Sys2Proof.Machine

/-! ## Bring-up step by step -/

/-- Fuses sensed, phase 3. -/
def bootBegun (s : State) (b : BringUp) : State :=
  let s := { s with cus := { s.cus with sensed := s.cus.fuses, crcStat := b.fuseCrc } }
  { s with
    bup := { s.bup with phase := 3, failph := 0, isLocal := false, ready := false, boot := 0, upAt := none
                        fused := fusedMap s b.fuseCrc } }

/-- The clocks passed their check: the Datestamp starts. -/
def bootClocked (s : State) (b : BringUp) : State :=
  { bootBegun s b with
    clk := { Clock.reset with stopped := s.clk.stopped, mgmtDead := s.clk.mgmtDead }
    bup := { (bootBegun s b).bup with
      deadStk := b.stackFail
      lanesBad := ((bootBegun s b).bup.lanesBad ++ fusedLanes (bootBegun s b) b.fuseCrc ++ b.badLanes).eraseDups } }

/-- Keys, repairs, self-test and lanes. -/
def bootMiddle (s : State) (b : BringUp) : State :=
  [0, 1, 2, 3].foldl shortCheck (darkCells (lightLanes (assignLanes (selfTest
    ([0, 1, 2, 3].foldl applyRepairs ([0, 1, 2, 3].foldl freshKey s)) b (fun _ => true)))))

/-- Step 9 is reached. -/
def bootNine (s : State) (b : BringUp) : State :=
  { bootMiddle (bootClocked s b) b with bup := { (bootMiddle (bootClocked s b) b).bup with phase := 9 } }

theorem bringUp_stopped {s : State} {b : BringUp} (clocks : clocksOk b = false) : bringUp s b =
    bupPost { bupOverruns (bootBegun s b) (failedSteps b 3) with
      bup := { (bupOverruns (bootBegun s b) (failedSteps b 3)).bup with phase := 4 } } sevError 0x1004 4 :=
  if_pos (by rw [clocks]; rfl)

theorem bringUp_runs {s : State} {b : BringUp} (clocks : clocksOk b = true) : bringUp s b =
    match failedSteps b 9 with
    | k :: r => bupOverruns (bootNine s b) (k :: r)
    | [] => raiseInt (bupPost { bootNine s b with bup := { (bootNine s b).bup with isLocal := true } } sevWarning 0x1001 9)
        pgBUP 0 :=
  (if_neg (by rw [clocks]; decide)).trans rfl

theorem bringKept_bootMiddle (s : State) (b : BringUp) : BringKept s (bootMiddle s b) := by
  have keyed : BringKept s ([0, 1, 2, 3].foldl freshKey s) :=
    foldl_rel BringKept.refl BringKept.trans
      (fun q hq s => bringKept_freshKey s ((by decide : ∀ q ∈ [0, 1, 2, 3], q < 4) q hq)) s
  have repaired (s : State) : BringKept s ([0, 1, 2, 3].foldl applyRepairs s) := .foldl bringKept_applyRepairs _ s
  have counted (s : State) : BringKept s ([0, 1, 2, 3].foldl shortCheck s) := .foldl bringKept_shortCheck _ s
  exact (((((keyed.trans (repaired _)).trans (bringKept_selfTest _ b _)).trans (bringKept_assignLanes _)).trans
    (bringKept_lightLanes _)).trans (bringKept_darkCells _)).trans (counted _)

/-! ## Entries of bring-up -/

/-- An entry of bring-up waits for its commit where fewer than four do. -/
theorem bupPost_waits {s : State} (sev code phase : Nat) (h : (bupWaits s).length < 4) :
    (bupPost s sev code phase).ldg.wait = s.ldg.wait ++ [entryNow s pgBUP sev code 0 0 (BitVec.ofNat 32 phase)] := by
  have logged := post_logged s pgBUP sev code 0 0 (BitVec.ofNat 32 phase)
  unfold Logged at logged
  rw [if_neg (by exact Nat.not_le.2 h)] at logged
  exact logged.2

/-- What waits goes on waiting, and at most one entry of bring-up comes to it. -/
theorem bupPost_grows (s : State) (sev code phase : Nat) :
    (∀ e ∈ s.ldg.wait, e ∈ (bupPost s sev code phase).ldg.wait) ∧
      (bupWaits (bupPost s sev code phase)).length ≤ (bupWaits s).length + 1 := by
  have logged := post_logged s pgBUP sev code 0 0 (BitVec.ofNat 32 phase)
  unfold Logged at logged
  unfold bupWaits bupPost
  split at logged
  · rw [logged.1]
    exact ⟨fun _ h => h, Nat.le_succ _⟩
  · rw [logged.2]
    refine ⟨fun e h => List.mem_append_left _ h, ?_⟩
    rw [List.filter_append, List.length_append]
    exact Nat.add_le_add_left (List.length_filter_le _ _) _

theorem bupPost_bup (s : State) (sev code phase : Nat) : (bupPost s sev code phase).bup = s.bup := by
  unfold bupPost
  simp

/-- The entries of overrun steps: what waits goes on waiting, each step gives at most one entry, and only the failing phase
changes in the bring-up state. -/
theorem bupOverruns_grows (ks : List Nat) (s : State) :
    (∀ e ∈ s.ldg.wait, e ∈ (bupOverruns s ks).ldg.wait) ∧
      (bupWaits (bupOverruns s ks)).length ≤ (bupWaits s).length + ks.length ∧
      (bupOverruns s ks).bup = { s.bup with failph := ks.getLast?.getD s.bup.failph } := by
  induction ks generalizing s with
  | nil => exact ⟨fun _ h => h, Nat.le_refl _, rfl⟩
  | cons k ks ih =>
    have first := bupPost_grows { s with bup := { s.bup with failph := k } } sevError 0x1003 k
    have bup := bupPost_bup { s with bup := { s.bup with failph := k } } sevError 0x1003 k
    have same : bupOverruns s (k :: ks) = bupOverruns (bupPost { s with bup := { s.bup with failph := k } } sevError 0x1003 k) ks :=
      rfl
    rw [same]
    generalize bupPost { s with bup := { s.bup with failph := k } } sevError 0x1003 k = u at *
    obtain ⟨stay, few, last⟩ := ih u
    refine ⟨fun e h => stay e (first.1 e h), ?_, ?_⟩
    · have := first.2
      simp only [List.length_cons, bupWaits] at *
      omega
    · rw [last, bup, List.getLast?_cons]
      rfl

/-- With no entry of bring-up waiting the first overrun step's is kept. -/
theorem bupOverruns_head {s : State} (none : bupWaits s = []) (k : Nat) (ks : List Nat) :
    ∃ e ∈ (bupOverruns s (k :: ks)).ldg.wait, e.src = pgBUP ∧ e.code = 0x1003 ∧ e.d1 = BitVec.ofNat 32 k := by
  have few : (bupWaits { s with bup := { s.bup with failph := k } }).length < 4 := by
    rw [show bupWaits { s with bup := { s.bup with failph := k } } = [] from none]
    decide
  have first := bupPost_waits sevError 0x1003 k few
  refine ⟨_, (bupOverruns_grows ks _).1 _ (first ▸ List.mem_append_right _ List.mem_cons_self), rfl, rfl, rfl⟩

theorem length_failedSteps_le (b : BringUp) : (failedSteps b 3).length ≤ 3 := by
  have among : (failedSteps b 3).length ≤ ((List.range 10).filter (fun k => decide (1 ≤ k ∧ k ≤ 3))).length := by
    unfold failedSteps
    rw [← List.filter_filter, List.filter_comm]
    exact List.length_filter_le _ _
  exact among.trans (by decide)

/-! ## How bring-up ends -/

/-- What of a bring-up that ran to step 9 says whence it started. -/
theorem bootNine_spec (s : State) (b : BringUp) :
    (bootNine s b).clk = { Clock.reset with stopped := s.clk.stopped, mgmtDead := s.clk.mgmtDead } ∧
      bupWaits (bootNine s b) = bupWaits s ∧
      bupPhase (bootNine s b).bup = (false, false, 9, 0, s.bup.rst, s.bup.bar0, s.bup.railsOn) ∧
      (bootNine s b).cus.fuses = s.cus.fuses ∧ (bootNine s b).cus.sensed = s.cus.fuses ∧ (bootNine s b).jobs = s.jobs ∧
      ∀ a, 2 ^ 47 ≤ a → rdByte (bootNine s b) a = rdByte s a := by
  obtain ⟨clk, waits, phase, fuses, sense, jobs, sram⟩ := bringKept_bootMiddle (bootClocked s b) b
  unfold bootNine
  generalize bootMiddle (bootClocked s b) b = t at *
  simp only [bupPhase, Prod.mk.injEq] at phase ⊢
  obtain ⟨isLocal, ready, -, failph, rst, bar0, rails⟩ := phase
  exact ⟨clk, waits, ⟨isLocal, ready, trivial, failph, rst, bar0, rails⟩, fuses, sense, jobs, sram⟩

/-- Bring-up whose steps all pass: LOCAL, on the fuses as they are, with everything else of the start kept (R376). -/
theorem bringUp_local {s : State} {b : BringUp} (clocks : clocksOk b = true) (passed : failedSteps b 9 = []) :
    Local (bringUp s b) ∧ (bringUp s b).bup.rst = s.bup.rst ∧ (bringUp s b).bup.bar0 = s.bup.bar0 ∧
      (bringUp s b).bup.railsOn = s.bup.railsOn ∧ (bringUp s b).cus.fuses = s.cus.fuses ∧
      (bringUp s b).cus.sensed = s.cus.fuses ∧ (bringUp s b).jobs = s.jobs ∧
      (∀ a, 2 ^ 47 ≤ a → rdByte (bringUp s b) a = rdByte s a) ∧
      (bupWaits s = [] → ∃ e ∈ (bringUp s b).ldg.wait, e.src = pgBUP ∧ e.code = 0x1001 ∧ e.d1 = 9) := by
  obtain ⟨clk, waits, phase, fuses, sense, jobs, sram⟩ := bootNine_spec s b
  rw [bringUp_runs clocks, passed]
  dsimp only
  generalize bootNine s b = t at *
  simp only [bupPhase, Prod.mk.injEq] at phase
  obtain ⟨-, ready, nine, failph, rst, bar0, rails⟩ := phase
  have bup := bupPost_bup { t with bup := { t.bup with isLocal := true } } sevWarning 0x1001 9
  have said := raiseInt_spec (bupPost { t with bup := { t.bup with isLocal := true } } sevWarning 0x1001 9) pgBUP 0
  have entry (none : bupWaits s = []) : (bupPost { t with bup := { t.bup with isLocal := true } } sevWarning 0x1001 9).ldg.wait =
      t.ldg.wait ++ [entryNow { t with bup := { t.bup with isLocal := true } } pgBUP sevWarning 0x1001 0 0 9] :=
    bupPost_waits (s := { t with bup := { t.bup with isLocal := true } }) sevWarning 0x1001 9
      (by rw [show bupWaits { t with bup := { t.bup with isLocal := true } } = [] from waits.trans none]; decide)
  have others : (bupPost { t with bup := { t.bup with isLocal := true } } sevWarning 0x1001 9).clk = t.clk ∧
      (bupPost { t with bup := { t.bup with isLocal := true } } sevWarning 0x1001 9).cus = t.cus ∧
      (bupPost { t with bup := { t.bup with isLocal := true } } sevWarning 0x1001 9).jobs = t.jobs ∧
      (bupPost { t with bup := { t.bup with isLocal := true } } sevWarning 0x1001 9).mem = t.mem ∧
      (bupPost { t with bup := { t.bup with isLocal := true } } sevWarning 0x1001 9).stale = t.stale := by
    simp [bupPost]
  generalize bupPost { t with bup := { t.bup with isLocal := true } } sevWarning 0x1001 9 = u at *
  obtain ⟨clk', cus', jobs', mem', stale'⟩ := others
  have same : ∃ r o, raiseInt u pgBUP 0 = { u with regs := r, out := o } := raiseInt_touches u pgBUP 0
  have raised : bit (reg (raiseInt u pgBUP 0) (at' pgBUP 0x10)) 0 = true := by rw [said.1 0 (by decide)]; simp
  obtain ⟨r, o, same⟩ := same
  generalize raiseInt u pgBUP 0 = w at *
  subst same
  refine ⟨⟨?_, ?_, ?_, ?_, ?_, ?_, raised⟩, ?_, ?_, ?_, ?_, ?_, ?_, fun a ha => ?_, fun none => ?_⟩
  · exact congrArg Bringup.isLocal bup
  · exact (congrArg Bringup.ready bup).trans ready
  · exact (congrArg Bringup.phase bup).trans nine
  · exact (congrArg Bringup.failph bup).trans failph
  · exact congrArg Clock.dst (clk'.trans clk)
  · exact congrArg Clock.unlocked (clk'.trans clk)
  · exact (congrArg Bringup.rst bup).trans rst
  · exact (congrArg Bringup.bar0 bup).trans bar0
  · exact (congrArg Bringup.railsOn bup).trans rails
  · exact (congrArg Custody.fuses cus').trans fuses
  · exact (congrArg Custody.sensed cus').trans sense
  · exact jobs'.trans jobs
  · exact (rdByte_congr mem' stale' a).trans (sram a ha)
  · exact ⟨_, entry none ▸ List.mem_append_right _ List.mem_cons_self, rfl, rfl, rfl⟩

/-- A step that overran: bring-up runs to step 9 and ends outside LOCAL (R378). -/
theorem bringUp_overran {s : State} {b : BringUp} (clocks : clocksOk b = true) (failed : failedSteps b 9 ≠ [])
    (none : bupWaits s = []) :
    (bringUp s b).bup.isLocal = false ∧ (bringUp s b).bup.phase = 9 ∧
      some (bringUp s b).bup.failph = (failedSteps b 9).getLast? ∧
      ∃ e ∈ (bringUp s b).ldg.wait, e.src = pgBUP ∧ e.code = 0x1003 ∧
        some e.d1 = (failedSteps b 9).head?.map (BitVec.ofNat 32) := by
  obtain ⟨-, waits, phase, -⟩ := bootNine_spec s b
  obtain ⟨k, ks, cons⟩ := List.exists_cons_of_ne_nil failed
  rw [bringUp_runs clocks, cons]
  dsimp only
  generalize bootNine s b = t at *
  simp only [bupPhase, Prod.mk.injEq] at phase
  obtain ⟨isLocal, -, nine, -⟩ := phase
  obtain ⟨-, -, bup⟩ := bupOverruns_grows (k :: ks) t
  obtain ⟨e, he, src, code, d1⟩ := bupOverruns_head (waits.trans none) k ks
  rw [bup]
  refine ⟨isLocal, nine, ?_, e, he, src, code, ?_⟩
  · rw [List.getLast?_cons]
    rfl
  · rw [d1]
    rfl

/-- A clock that fails its check: bring-up goes no further than step 4 (R405). -/
theorem bringUp_noClock {s : State} {b : BringUp} (clocks : clocksOk b = false) (none : bupWaits s = []) :
    (bringUp s b).bup.isLocal = false ∧ (bringUp s b).bup.phase = 4 ∧
      ∃ e ∈ (bringUp s b).ldg.wait, e.src = pgBUP ∧ e.code = 0x1004 ∧ e.d1 = 4 := by
  obtain ⟨-, few, bup⟩ := bupOverruns_grows (failedSteps b 3) (bootBegun s b)
  have three := length_failedSteps_le b
  have isLocal : (bupOverruns (bootBegun s b) (failedSteps b 3)).bup.isLocal = false := by rw [bup]; rfl
  rw [show bupWaits (bootBegun s b) = [] from none] at few
  rw [bringUp_stopped clocks]
  generalize bupOverruns (bootBegun s b) (failedSteps b 3) = t at *
  have entry : (bupPost { t with bup := { t.bup with phase := 4 } } sevError 0x1004 4).ldg.wait =
      t.ldg.wait ++ [entryNow { t with bup := { t.bup with phase := 4 } } pgBUP sevError 0x1004 0 0 4] :=
    bupPost_waits (s := { t with bup := { t.bup with phase := 4 } }) sevError 0x1004 4
      (show (bupWaits t).length < 4 by simp only [List.length_nil] at few; omega)
  rw [bupPost_bup]
  exact ⟨isLocal, rfl, _, entry ▸ List.mem_append_right _ List.mem_cons_self, rfl, rfl, rfl⟩

end Sys2Proof
end

section
/-! PROOFS. Power-on, READY and the bounds of steps 10 and 12 (R376 to R379). -/

namespace Sys2Proof

open Sys2Proof.Machine

/-! ## Power-on -/

/-- The supervisor alone is powered, with the input's voltage read (R376). -/
def inputOn (b : BringUp) (s : State) : State :=
  setReg (powerDown s true false s.pwr.tripN) (at' pgPWR 0x100) (BitVec.ofNat 32 (b.cv % 65536))

/-- The module is powered: step 2. -/
def railsUp (b : BringUp) (s : State) : State :=
  { inputOn b s with
    bup := { (inputOn b s).bup with railsOn := true, bar0 := (inputOn b s).bup.perst, mgtSel := b.mgtSel, phase := 2 }
    mgt := { (inputOn b s).mgt with smbus := b.mgtSel } }

theorem exec_powerOn {b : BringUp} {s : State} (off : s.bup.pwrEn = false) : exec (.powerOn b) s = .next
    (if b.cv < 4000 ∨ 6000 < b.cv ∨ ¬ (inputOn b s).pwr.tripN then inputOn b s else bringUp (railsUp b s) b) :=
  congrArg Host.Outcome.next (if_neg (by rw [off]; decide))

/-- What the loss of all power leaves before power-on. -/
theorem inputOn_spec (b : BringUp) (s : State) :
    (inputOn b s).bup = { Bringup.reset with pwrEn := true, perst := s.bup.perst } ∧ (inputOn b s).pwr.tripN = s.pwr.tripN ∧
      (inputOn b s).ldg.wait = [] ∧ (inputOn b s).jobs = [] ∧ (inputOn b s).cus.fuses = s.cus.fuses ∧
      ∀ a, 2 ^ 48 ≤ a → gen s a = 0 → rdByte (inputOn b s) a = 0 := by
  refine ⟨rfl, rfl, rfl, rfl, rfl, fun a ha unknown => ?_⟩
  have other (r : Nat) (hr : r < 4) : regionOf a ≠ r := by
    rintro rfl
    exact absurd (regionOf_quad hr rfl) (by omega)
  let t : State := { State.reset with
    pending := s.pending, out := s.out, draws := s.draws, stale := s.stale
    bup := { Bringup.reset with pwrEn := true, perst := s.bup.perst }
    cus := { Custody.reset with fuses := s.cus.fuses }
    pwr := { Power.reset with shut := false, tripN := s.pwr.tripN } }
  have kept : rdByte (inputOn b s) a = rdByte t a := by
    change rdByte (loseRegion (loseRegion (loseRegion (loseRegion t 0) 1) 2) 3) a = _
    rw [rdByte_loseRegion_ne _ (other 3 (by decide)), rdByte_loseRegion_ne _ (other 2 (by decide)),
      rdByte_loseRegion_ne _ (other 1 (by decide)), rdByte_loseRegion_ne _ (other 0 (by decide))]
  have zero : unlisted t a = 0 := if_pos unknown
  exact kept.trans zero

theorem railsUp_spec (b : BringUp) (s : State) :
    bupWaits (railsUp b s) = [] ∧ (railsUp b s).bup.railsOn = true ∧ (railsUp b s).bup.bar0 = s.bup.perst ∧
      (railsUp b s).cus.fuses = s.cus.fuses ∧ (railsUp b s).jobs = [] ∧
      ∀ a, 2 ^ 48 ≤ a → gen s a = 0 → rdByte (railsUp b s) a = 0 := by
  obtain ⟨bup, -, wait, jobs, fuses, sram⟩ := inputOn_spec b s
  have perst : (inputOn b s).bup.perst = s.bup.perst := by rw [bup]
  unfold railsUp
  generalize inputOn b s = t at *
  exact ⟨congrArg (List.filter _) wait, rfl, perst, fuses, jobs, sram⟩

section
variable {b : BringUp} {s : State} (off : s.bup.pwrEn = false)
include off

/-- An input out of range, or THERMTRIP_N held low: nothing is powered. -/
theorem powerOn_refused (bad : b.cv < 4000 ∨ 6000 < b.cv ∨ s.pwr.tripN = false) :
    ∃ t, exec (.powerOn b) s = .next t ∧ t.bup.pwrEn = true ∧ t.bup.railsOn = false ∧ t.bup.isLocal = false := by
  obtain ⟨bup, trip, -⟩ := inputOn_spec b s
  refine ⟨inputOn b s, ?_, ?_⟩
  · rw [exec_powerOn off, trip, if_pos (by simpa using bad)]
  · rw [bup]
    exact ⟨rfl, rfl, rfl⟩

variable (low : 4000 ≤ b.cv) (high : b.cv ≤ 6000) (trip : s.pwr.tripN = true)
include low high trip

theorem powerOn_runs : exec (.powerOn b) s = .next (bringUp (railsUp b s) b) := by
  rw [exec_powerOn off, (inputOn_spec b s).2.1, if_neg]
  simp only [trip, not_true, or_false, not_or, not_lt]
  exact ⟨low, high⟩

end

/-! ## READY and the bounds of steps 10 and 12 -/

/-- LOCAL with the Datestamp locked, or with this module the root, becomes READY (R379). -/
theorem bupReady_outcome {s : State} (isLocal : s.bup.isLocal = true) (ready : s.bup.ready = false) (none : s.bup.rst = none)
    (time : isRoot s = true ∨ (s.clk.unlocked = false ∧ steerGrps s ≠ [])) :
    ∃ t, exec .bupReady s = .next t ∧ t.bup = { s.bup with ready := true, phase := 12 } ∧
      bit (reg t (at' pgBUP 0x10)) 1 = true ∧ Logged s t pgBUP 1 0x1002 0 0 12 ∧
      t = { s with bup := t.bup, regs := t.regs, ldg := t.ldg, out := t.out } := by
  let u : State := { s with bup := { s.bup with ready := true, phase := 12 } }
  have logged : Logged u (post u pgBUP sevWarning 0x1002 0 0 12) pgBUP 1 0x1002 0 0 12 := post_logged u pgBUP 1 0x1002 0 0 12
  obtain ⟨l, r, posted⟩ := post_touches u pgBUP sevWarning 0x1002 0 0 12
  have runs : exec .bupReady s = .next (raiseInt (post u pgBUP sevWarning 0x1002 0 0 12) pgBUP 1) := by
    refine congrArg Host.Outcome.next (if_pos ⟨isLocal, by rw [ready]; decide, by rw [none]; rfl, ?_⟩)
    exact time.imp id fun ⟨locked, steered⟩ => ⟨by rw [locked]; decide, steered⟩
  have raised := (raiseInt_spec (post u pgBUP sevWarning 0x1002 0 0 12) pgBUP 1).1 1 (by decide)
  have touched := raiseInt_touches (post u pgBUP sevWarning 0x1002 0 0 12) pgBUP 1
  obtain ⟨r', o, touched⟩ := touched
  refine ⟨_, runs, ?_, raised.trans (by simp), ?_, ?_⟩
  · rw [touched, posted]
  · rw [touched]
    exact logged
  · rw [touched, posted]

/-- One root tick of bring-up: the count, and the first moment with a group in UP. -/
def bootCount (s : State) : State :=
  { s with bup := { s.bup with
    boot := s.bup.boot + 1
    upAt := if s.bup.upAt.isNone && (List.range 24).any (fun g => (getLink s g).st == .up) then some (s.bup.boot + 1)
      else s.bup.upAt } }

theorem bupOverruns_one (s : State) (k : Nat) : bupOverruns (bootCount s) [k] =
    bupPost { s with bup := { (bootCount s).bup with failph := k } } sevError 0x1003 k := rfl

theorem overrun_outcome (s : State) (k : Nat) :
    Logged s (bupOverruns (bootCount s) [k]) pgBUP 2 0x1003 0 0 (BitVec.ofNat 32 k) ∧
      (bupOverruns (bootCount s) [k]).bup.failph = k := by
  rw [bupOverruns_one, bupPost_bup]
  exact ⟨post_logged { s with bup := { (bootCount s).bup with failph := k } } pgBUP 2 0x1003 0 0 (BitVec.ofNat 32 k), rfl⟩

theorem bootTick_counts {s : State} (isLocal : s.bup.isLocal = true) (ready : s.bup.ready = false) : bootTick s =
    (let t := bootCount s
     let n := s.bup.boot + 1
     let u := if n = 500 * msTicks ∧ t.bup.phase < 10 then bupOverruns t [10] else t
     let w := if t.bup.upAt = some (n - 2500 * msTicks) ∧ 2500 * msTicks < n ∧ u.clk.unlocked then bupOverruns u [11] else u
     if n = 9000 * msTicks then bupOverruns w [12] else w) :=
  if_neg (by rw [isLocal, ready]; decide)

/-- Step 10 overruns half a second after LOCAL (R378). -/
theorem bootTick_ten {s : State} (isLocal : s.bup.isLocal = true) (ready : s.bup.ready = false)
    (now : s.bup.boot + 1 = 3000000000) (phase : s.bup.phase < 10) : bootTick s = bupOverruns (bootCount s) [10] := by
  rw [bootTick_counts isLocal ready]
  dsimp only
  rw [now, if_neg (show ¬ 3000000000 = 9000 * msTicks by decide), if_neg (fun h => absurd h.2.1 (by decide)),
    if_pos ⟨rfl, phase⟩]

/-- Step 12 overruns 9 s after LOCAL (R378). -/
theorem bootTick_twelve {s : State} (isLocal : s.bup.isLocal = true) (ready : s.bup.ready = false)
    (now : s.bup.boot + 1 = 54000000000) (up : ∀ x, s.bup.upAt = some x → x + 15000000000 ≠ 54000000000) :
    bootTick s = bupOverruns (bootCount s) [12] := by
  have early : (bootCount s).bup.upAt ≠ some (54000000000 - 2500 * msTicks) := by
    simp only [bootCount, now]
    intro h
    split at h
    · exact absurd (Option.some.inj h) (by decide)
    · exact up _ h (by decide)
  rw [bootTick_counts isLocal ready]
  dsimp only
  rw [now, if_pos (show 54000000000 = 9000 * msTicks by decide), if_neg (fun h => early h.1),
    if_neg (fun h => absurd h.1 (by decide))]

end Sys2Proof
end

section
/-! PROOFS. The end of a reset, soft entries and lost die-to-die links (R387 to R391), and the obligation O54. -/

namespace Sys2Proof

open Sys2Proof.Machine

/-! ## The end of a reset -/

/-- No reset is in progress. -/
def resetOver (s : State) : State := { s with bup := { s.bup with rst := none } }

theorem reviveQuad_same {b : BringUp} {s : State} {q : Nat} (none : repairPending s q = false) : reviveQuad b false s q = s :=
  if_neg (by rw [none]; decide)

section
variable {b : BringUp} {r : ResetRun} {s : State} (run : s.bup.rst = some r)
include run

theorem resetComplete_narrow (h : r.scope = 1 ∨ r.scope = 2 ∨ (r.scope = 3 ∧ repairPending s r.q = false ∧ r.test = false)) :
    exec (.resetComplete b) s = .next (resetOver s) := by
  change execResetComplete b s = _
  unfold execResetComplete
  rw [run]
  rcases h with h | h | ⟨h, none, test⟩
  · simp only [h]
    rfl
  · simp only [h]
    rfl
  · simp only [h, test]
    exact congrArg Host.Outcome.next (reviveQuad_same (s := resetOver s) none)

theorem resetComplete_hub (h : r.scope = 4) (none : ∀ q < 4, repairPending s q = false) (test : r.test = false) :
    exec (.resetComplete b) s = .next (darkCells (resetOver s)) := by
  have same (q : Nat) (hq : q < 4) : reviveQuad b false (resetOver s) q = resetOver s :=
    reviveQuad_same (s := resetOver s) (none q hq)
  have quads : [0, 1, 2, 3].foldl (reviveQuad b false) (resetOver s) = resetOver s :=
    foldl_eq_self fun q hq => same q ((by decide : ∀ q ∈ [0, 1, 2, 3], q < 4) q hq)
  change execResetComplete b s = _
  unfold execResetComplete
  rw [run]
  simp only [h, test]
  exact congrArg (fun t => Host.Outcome.next (darkCells t)) quads

theorem resetComplete_module (h : r.scope = 5) : exec (.resetComplete b) s =
    .next (bringUp { s with bup := { s.bup with rst := none, bar0 := s.bup.perst } } b) := by
  change execResetComplete b s = _
  unfold execResetComplete
  rw [run]
  simp only [h]

end

/-! ## Soft entries and lost links -/

/-- The unit that a write of the repair page names (R397). -/
def namedUnit (v : W32) : BadUnit where
  q := Fin.ofNat 4 (fld v 1 0)
  cl := Fin.ofNat 17 (fld v 6 2)
  core := if fld v 13 7 = 0x7F then none else some (Fin.ofNat 100 (fld v 13 7))

theorem pendUnit_new {s : State} {u : BadUnit} (pend : u ∉ s.bup.pendSoft) (soft : u ∉ s.bup.soft) : pendUnit s u =
    { post s pgRPR sevWarning 0x1007 0 (d0Rpr u.q.val u.cl.val (unitCore u)) 0 with
      bup := { (post s pgRPR sevWarning 0x1007 0 (d0Rpr u.q.val u.cl.val (unitCore u)) 0).bup with
        pendSoft := (post s pgRPR sevWarning 0x1007 0 (d0Rpr u.q.val u.cl.val (unitCore u)) 0).bup.pendSoft ++ [u] } } :=
  (if_neg (by simp [pend, soft])).trans rfl

theorem pendUnit_outcome {s : State} {u : BadUnit} (pend : u ∉ s.bup.pendSoft) (soft : u ∉ s.bup.soft) :
    (pendUnit s u).bup = { s.bup with pendSoft := s.bup.pendSoft ++ [u] } ∧
      pendUnit s u = { s with bup := (pendUnit s u).bup, regs := (pendUnit s u).regs, ldg := (pendUnit s u).ldg } ∧
      Logged s (pendUnit s u) pgRPR 1 0x1007 0 (d0Rpr u.q.val u.cl.val (unitCore u)) 0 := by
  have logged := post_logged s pgRPR sevWarning 0x1007 0 (d0Rpr u.q.val u.cl.val (unitCore u)) 0
  have posted := post_touches s pgRPR sevWarning 0x1007 0 (d0Rpr u.q.val u.cl.val (unitCore u)) 0
  rw [pendUnit_new pend soft]
  generalize post s pgRPR sevWarning 0x1007 0 (d0Rpr u.q.val u.cl.val (unitCore u)) 0 = w at *
  obtain ⟨l, r, rfl⟩ := posted
  exact ⟨rfl, rfl, logged⟩

section
variable {v : W32} {u : BadUnit} {s : State} (hq : u.q.val = fld v 1 0) (hcl : u.cl.val = fld v 6 2)
  (hk : fld v 13 7 = 0x7F ∧ u.core = none ∨ ∃ k : Fin 100, u.core = some k ∧ k.val = fld v 13 7)

include hk in
theorem unitCore_named : unitCore u = fld v 13 7 := by
  unfold unitCore
  rcases hk with ⟨all, none⟩ | ⟨k, one, same⟩
  · rw [none, all]
  · rw [one]
    exact same

include hq hcl hk in
theorem namedUnit_eq : namedUnit v = u := by
  have core : (namedUnit v).core = u.core := by
    rcases hk with ⟨all, none⟩ | ⟨k, one, same⟩
    · exact (if_pos all).trans none.symm
    · have := k.isLt
      refine (if_neg (by omega)).trans ?_
      rw [one, ← same]
      simp
  have quad : (namedUnit v).q = u.q := by simp [namedUnit, ← hq]
  have clu : (namedUnit v).cl = u.cl := by simp [namedUnit, ← hcl]
  obtain ⟨q, cl, k⟩ := u
  exact congr (congr (congrArg BadUnit.mk quad) clu) core

include hq hcl hk in
/-- A soft entry that is asked for becomes pending, with its entry in the Ledger (R387, R397). -/
theorem rprAdd_outcome (served : Served s pgRPR) (free : residentOn s (fld v 1 0) = none) (good : unitBad s u = false)
    (pend : u ∉ s.bup.pendSoft) (soft : u ∉ s.bup.soft) :
    ∃ t, exec (.rprAdd v) s = .next t ∧ t.bup = { s.bup with pendSoft := s.bup.pendSoft ++ [u] } ∧
      t = { s with bup := t.bup, regs := t.regs, ldg := t.ldg } ∧
      Logged s t pgRPR 1 0x1007 0 (BitVec.ofNat 32 (u.q.val * 2 ^ 30 + u.cl.val * 2 ^ 24 + fld v 13 7 * 2 ^ 16)) 0 := by
  have range : ¬ ((residentOn s (fld v 1 0)).isSome ∨ 17 ≤ fld v 6 2 ∨ (100 ≤ fld v 13 7 ∧ fld v 13 7 ≠ 0x7F)) := by
    have := u.cl.isLt
    rintro (taken | wide | ⟨many, one⟩)
    · rw [free] at taken
      exact nomatch taken
    · omega
    · rcases hk with ⟨all, -⟩ | ⟨k, -, same⟩
      · exact one all
      · have := k.isLt
        omega
  have runs : exec (.rprAdd v) s = .next (if unitBad s (namedUnit v) then s else pendUnit s (namedUnit v)) :=
    congrArg Host.Outcome.next ((hostWrite_served served _ _).trans (if_neg range))
  have word : d0Rpr u.q.val u.cl.val (unitCore u) =
      BitVec.ofNat 32 (u.q.val * 2 ^ 30 + u.cl.val * 2 ^ 24 + fld v 13 7 * 2 ^ 16) := by
    have := u.cl.isLt
    rw [unitCore_named hk, d0Rpr, Nat.mod_eq_of_lt u.q.isLt, Nat.mod_eq_of_lt (by omega),
      Nat.mod_eq_of_lt (show fld v 13 7 < 128 from fld_lt v 13 7)]
  rw [namedUnit_eq hq hcl hk, good] at runs
  exact ⟨pendUnit s u, runs, word ▸ pendUnit_outcome pend soft⟩

end

/-- A link that a job's traffic uses is lost: the entry of the job, and its fault. -/
def linkFault (s : State) (j : Nat) : State := jobFault (post s pgBUP sevFault 0x1009 (accOf s j) 0 0) j

theorem linkFault_frame (s : State) (j : Nat) : (linkFault s j).clk = s.clk ∧ (linkFault s j).cus = s.cus := by
  unfold linkFault
  simp

section
variable {a b : Nat} {s : State} (link : nbrPair a b = true ∨ (a = 4 ∧ b < 4) ∨ (b = 4 ∧ a < 4))
include link

theorem link_named : ¬ (!(nbrPair a b || (decide (a = 4) && decide (b < 4)) || (decide (b = 4) && decide (a < 4)))) = true := by
  rcases link with h | ⟨h, k⟩ | ⟨h, k⟩
  · simp [h]
  · simp [h, k]
  · simp [h, k]

theorem exec_d2dLost_unused (none : linkJobs s a b = []) : exec (.d2dLost a b) s = .next (bupPost s sevError 0x1009 0) := by
  refine congrArg Host.Outcome.next ((if_neg (link_named link)).trans ?_)
  rw [none]

theorem exec_d2dLost_used {k : Nat} {js : List Nat} (used : linkJobs s a b = k :: js) :
    exec (.d2dLost a b) s = .next ((k :: js).foldl linkFault s) := by
  refine congrArg Host.Outcome.next ((if_neg (link_named link)).trans ?_)
  rw [used]
  rfl

end

/-- Each running job of a list ends FAULTED, whatever is faulted beside it. -/
theorem linkFaults_faulted {js : List Nat} {s : State} (run : ∀ j ∈ js, (getJob s j).st = .running ∨ (getJob s j).st = .faulted) :
    ∀ j ∈ js, (getJob (js.foldl linkFault s) j).st = .faulted := by
  have posted (s : State) (j i : Nat) : getJob (post s pgBUP sevFault 0x1009 (accOf s j) 0 0) i = getJob s i :=
    getJob_congr (by simp) i
  have stays (s : State) (j i : Nat) (h : (getJob s i).st = .faulted) : (getJob (linkFault s j) i).st = .faulted :=
    jobFault_keeps_faulted j ((congrArg Job.st (posted s j i)).trans h)
  have stop (s : State) (j : Nat) (h : (getJob s j).st = .running ∨ (getJob s j).st = .faulted) :
      (getJob (linkFault s j) j).st = .faulted := by
    refine jobFault_faulted ?_
    rw [posted]
    exact h.imp_left fun running => by rw [running]; rfl
  have others (s : State) (j i : Nat) (h : (getJob s i).st = .running ∨ (getJob s i).st = .faulted) :
      (getJob (linkFault s j) i).st = .running ∨ (getJob (linkFault s j) i).st = .faulted := by
    by_cases e : i = j
    · subst e
      exact .inr (stop s i h)
    · refine h.imp (fun running => ?_) (stays s j i)
      exact (congrArg Job.st (((jobFault_slots _ j).2.2 i e).trans (posted s j i))).trans running
  have keep (i : Nat) (l : List Nat) (s : State) (h : (getJob s i).st = .faulted) :
      (getJob (l.foldl linkFault s) i).st = .faulted := by
    induction l generalizing s with
    | nil => exact h
    | cons j l ih => exact ih _ (stays s j i h)
  induction js generalizing s with
  | nil => exact fun _ h => nomatch h
  | cons k js ih =>
    intro j hj
    rcases List.mem_cons.1 hj with rfl | hj
    · exact keep j js _ (stop s j (run j List.mem_cons_self))
    · exact ih (fun i hi => others s k i (run i (List.mem_cons_of_mem _ hi))) j hj

theorem d2dLost_outcome {a b : Nat} {s : State} (link : nbrPair a b = true ∨ (a = 4 ∧ b < 4) ∨ (b = 4 ∧ a < 4)) :
    ∃ t, exec (.d2dLost a b) s = .next t ∧ (∀ j ∈ linkJobs s a b, (getJob t j).st = .faulted) ∧ t.clk = s.clk ∧ t.cus = s.cus ∧
      (linkJobs s a b = [] → t.jobs = s.jobs ∧ Logged s t pgBUP 2 0x1009 0 0 0) := by
  have running : ∀ j ∈ linkJobs s a b, (getJob s j).st = .running := by
    intro j hj
    have picked := (List.mem_filter.1 hj).2
    simp only [Bool.and_eq_true, beq_iff_eq] at picked
    exact picked.1.1
  cases used : linkJobs s a b with
  | nil =>
    have kept : (bupPost s sevError 0x1009 0).clk = s.clk ∧ (bupPost s sevError 0x1009 0).cus = s.cus ∧
        (bupPost s sevError 0x1009 0).jobs = s.jobs := by simp [bupPost]
    exact ⟨_, exec_d2dLost_unused link used, fun _ h => (nomatch h), kept.1, kept.2.1,
      fun _ => ⟨kept.2.2, post_logged s pgBUP 2 0x1009 0 0 0⟩⟩
  | cons k js =>
    have kept : ((k :: js).foldl linkFault s).clk = s.clk ∧ ((k :: js).foldl linkFault s).cus = s.cus :=
      foldl_rel (R := fun s t : State => t.clk = s.clk ∧ t.cus = s.cus) (fun _ => ⟨rfl, rfl⟩)
        (fun h g => ⟨g.1.trans h.1, g.2.trans h.2⟩) (fun j _ s => linkFault_frame s j) s
    exact ⟨_, exec_d2dLost_used link used, linkFaults_faulted fun j hj => .inl (running j (used ▸ hj)), kept.1, kept.2,
      fun h => (nomatch h)⟩

/-! ## The obligation -/

/-- Settles O54: power-on by `bringUp_local`, `bringUp_overran` and `bringUp_noClock` on the state that `railsUp` leaves; each
reset by what its operation leaves of the unit (`resetCore_core`, `resetCluster_spec`, `resetQuad_spec`, `resetHub_cleared`),
with the job's fault by `FaultsOnly` of all that a reset lets run to its end. -/
theorem bringupAndResets : Obligations.BringupAndResets := by
  unfold Obligations.BringupAndResets
  refine ⟨fun b s => ⟨fun on => congrArg Host.Outcome.next (if_pos on), fun off bad => powerOn_refused off bad,
      fun off low high trip => ⟨fun clocks passed => ?up, fun clocks failed => ?overran, fun clocks => ?noClock⟩⟩,
    fun s isLocal ready none time => bupReady_outcome isLocal ready none time,
    fun s isLocal ready => ⟨fun now phase => ?ten, fun now up => ?twelve⟩, fun s => rfl,
    fun v s => ⟨fun h hc id hq hcl hk => coreReset_outcome h hc hq hcl hk, fun h hc => ?cluster, fun h => ?quad, fun h => ?hub,
      fun h => ?whole, fun e he r served scope run wide => ?reject⟩,
    fun s rails none => ?perst,
    fun b r s run => ⟨fun narrow => resetComplete_narrow run narrow, fun scope none test => ?hubEnds,
      fun scope clocks passed => ?moduleEnds⟩,
    fun v u s served free hq hcl hk good pend soft => rprAdd_outcome hq hcl hk served free good pend soft,
    fun a b s link => d2dLost_outcome link⟩
  case up =>
    obtain ⟨waits, rails, bar0, fuses, jobs, sram⟩ := railsUp_spec b s
    obtain ⟨isLocal, -, bar0', rails', fuses', -, jobs', sram', entry⟩ := bringUp_local (s := railsUp b s) clocks passed
    exact ⟨_, powerOn_runs off low high trip, isLocal, rails'.trans rails, bar0'.trans bar0, fuses'.trans fuses,
      jobs'.trans jobs, fun a ha unknown => (sram' a (by omega)).trans (sram a ha unknown), entry waits⟩
  case overran => exact ⟨_, powerOn_runs off low high trip, bringUp_overran clocks failed (railsUp_spec b s).1⟩
  case noClock => exact ⟨_, powerOn_runs off low high trip, bringUp_noClock clocks (railsUp_spec b s).1⟩
  case ten =>
    rw [bootTick_ten isLocal ready now phase]
    exact overrun_outcome s 10
  case twelve =>
    rw [bootTick_twelve isLocal ready now up]
    exact overrun_outcome s 12
  case cluster => exact ⟨_, exec_clusterReset h hc, rfl, (resetCluster_spec s _ _).inReset _⟩
  case quad =>
    have runs := exec_quadrantReset h
    have spec := resetQuad_spec s (fld v 4 3)
    generalize resetQuad s (fld v 4 3) = t at *
    exact ⟨_, runs, rfl, spec⟩
  case hub =>
    have runs := exec_hubReset h
    obtain ⟨cleared, -⟩ := resetHub_cleared s
    generalize resetHub s = t at *
    exact ⟨_, runs, rfl, cleared⟩
  case whole =>
    have runs := exec_moduleReset h
    obtain ⟨cleared, isLocal, bar0, -⟩ := resetModule_cleared s
    generalize resetModule s = t at *
    exact ⟨_, runs, rfl, cleared, isLocal, bar0⟩
  case reject =>
    have rejected : exec e.2 s = .next (post s pgBUP sevWarning 0x100A 0 0 0) := by
      simp only [List.mem_cons, List.not_mem_nil, or_false] at he
      rcases he with rfl | rfl | rfl
      · exact congrArg Host.Outcome.next (rstCtl_rejected served scope run wide _)
      · exact congrArg Host.Outcome.next (rstCtl_rejected served scope run wide _)
      · exact congrArg Host.Outcome.next (rstCtl_rejected served scope run wide _)
    have logged := post_logged s pgBUP sevWarning 0x100A 0 0 0
    have posted := post_touches s pgBUP sevWarning 0x100A 0 0 0
    generalize post s pgBUP sevWarning 0x100A 0 0 0 = t at *
    obtain ⟨l, r, rfl⟩ := posted
    exact ⟨_, rejected, rfl, logged⟩
  case perst =>
    obtain ⟨cleared, isLocal, bar0, perst⟩ := resetModule_cleared (perstLow s)
    have runs := exec_perst rails none
    generalize resetModule (perstLow s) = t at *
    exact ⟨_, runs, cleared, perst, bar0, isLocal⟩
  case hubEnds =>
    have dark (x : Nat) (hx : x < 54) := darkCells_cells (resetOver s) hx
    have frame := darkCells_frame (resetOver s)
    have runs := resetComplete_hub (b := b) run scope none test
    generalize darkCells (resetOver s) = t at *
    refine ⟨t, runs, by rw [frame]; rfl, fun x hx free => (dark x hx).trans (if_neg ?_), by rw [frame]; rfl⟩
    exact Bool.not_eq_true _ ▸ free
  case moduleEnds =>
    obtain ⟨isLocal, rst, bar0, -, -, sensed, -⟩ := bringUp_local
      (s := { s with bup := { s.bup with rst := none, bar0 := s.bup.perst } }) clocks passed
    exact ⟨_, resetComplete_module run scope, isLocal, rst, bar0, sensed⟩

end Sys2Proof
end
